-- ==== Sys2Proof/Word.lean ====
section
/-! DEFINITION. The words of the module's manual: bytes, 32-bit register words, the classes of configuration fields
(R10), and the plain records a command carries as its operands. -/

namespace Sys2Proof

/-- A byte. -/
abbrev Byte := BitVec 8

/-- A 32-bit word: a register, or an FP32 value (R4, R33). -/
abbrev Word := BitVec 32

/-- The classes of configuration fields (R10). -/
inductive Cls where
  /-- Static. -/
  | s
  /-- Frame-latched. -/
  | f
  /-- Live. -/
  | l
  /-- Read-only. -/
  | ro
  /-- Write 1 to clear. -/
  | w1c
  deriving DecidableEq, Repr

/-- One field of a register's map: bits [hi:lo], class and reset value. -/
structure Field where
  hi : Nat
  lo : Nat
  cls : Cls
  reset : Nat
  deriving DecidableEq, Repr

/-- One register of the map, or a row of like registers: BAR0 offset of the first, distance and number. -/
structure RegRow where
  name : String
  base : Nat
  stride : Nat
  count : Nat
  fields : List Field
  deriving DecidableEq, Repr

/-- What the check of the words of a code transfer from the plane dies finds: every word good, a symbol corrected, or a word
uncorrectable (R398-R401). -/
inductive Transfer where
  | good
  | corrected
  | bad
  deriving DecidableEq, Repr

/-- The 64-byte header of a CCI command as taken (R251), with the journal entry it was given. -/
structure CmdHdr where
  /-- mailbox, 0-16 (R251). -/
  mbx : Nat := 0
  /-- OPCODE, 16 bits (R251). -/
  opcode : Nat := 0
  /-- VERSION, 8 bits (R251). -/
  version : Nat := 1
  /-- FENCE (R251). -/
  fence : Bool := false
  /-- SILENT (R251). -/
  silent : Bool := false
  /-- SEQUENCE, 32 bits (R251). -/
  seq : Nat := 0
  /-- HOST_TIMESTAMP, 64 bits (R251). -/
  hostTs : Nat := 0
  /-- BODY_BYTES, 32 bits (R251). -/
  bodyBytes : Nat := 0
  /-- TAG, 32 bits (R251). -/
  tag : Nat := 0
  /-- a reserved field of the header or body is nonzero (R253). -/
  reservedNz : Bool := false
  /-- journal entry J, once accepted (R260). -/
  j : Nat := 0
  deriving DecidableEq, Repr

/-- A packet (R365). -/
structure Packet where
  /-- DST (R365). -/
  dst : Nat := 0
  /-- SRC (R365). -/
  src : Nat := 0
  /-- CHANNEL (R365). -/
  channel : Nat := 1
  /-- TYPE (R365). -/
  type : Nat := 0
  /-- HOPS (R365). -/
  hops : Nat := 0
  /-- SPACE (R365). -/
  space : Nat := 0
  /-- SEQUENCE (R365). -/
  seq : Nat := 0
  /-- TAG (R365). -/
  tag : Nat := 0
  /-- ADDRESS (R365). -/
  address : Nat := 0
  /-- TIMESTAMP (R365). -/
  ts : Nat := 0
  /-- payload bytes, a multiple of 32, at most 4,096 (R365). -/
  payload : List (BitVec 8) := []
  /-- the DMA engine that moves a BULK packet, 0 for relayed ones; no part of the packet on the wire (R367). -/
  engine : Nat := 0
  deriving DecidableEq, Repr

/-- A plan report (R375). -/
structure Report where
  /-- reporting device (R375). -/
  device : Nat := 0
  /-- its six plan outcomes (R375). -/
  outcomes : List Nat := []
  /-- its counter (R375). -/
  counter : Nat := 0
  /-- its tick number (R375). -/
  tick : Nat := 0
  /-- its highest fabric-layer version (R370). -/
  flvMax : Nat := 1
  /-- the peer device of each logical port, 0xFFFF for none (R375). -/
  peers : List Nat := []
  /-- axes whose ports have exchanged roles, one bit each (R374). -/
  remapped : Nat := 0
  deriving DecidableEq, Repr

/-- A digest report (R392). -/
structure DigestRep where
  /-- reporting device (R392). -/
  device : Nat := 0
  /-- edition (R392). -/
  edition : Nat := 0
  /-- slice index (R392). -/
  slice : Nat := 0
  /-- CRC-64 over the 64 digests (R392). -/
  crc : Nat := 0
  deriving DecidableEq, Repr

/-- The times that a measurement window saw (R28), sums over the window; a time of 0 is no qualifying activity (R30). -/
structure RatioMeas where
  /-- ns for which reads of KV pages by attention tasks were in progress (R28). -/
  kvTime : Nat := 0
  /-- ns for which each port's transmitter had payload queued, XP to ZN (R28). -/
  linkTime : List Nat := []
  /-- ns from the start of a share's first task to its hand-off or token record (R28). -/
  latTime : Nat := 0
  deriving DecidableEq, Repr

/-- The link-level HELLO of a peer (R369, R370). -/
structure PeerHello where
  /-- device identifier (R369). -/
  deviceId : Nat := 0xFFFF
  /-- peer's port (R369). -/
  port : Nat := 0
  /-- plan identifier (R369). -/
  planId : Nat := 0
  /-- serial number (R369). -/
  serial : List (BitVec 8) := []
  /-- lowest link-layer version (R370). -/
  llvMin : Nat := 1
  /-- highest link-layer version (R370). -/
  llvMax : Nat := 1
  /-- lowest fabric-layer version (R370). -/
  flvMin : Nat := 1
  /-- highest fabric-layer version (R370). -/
  flvMax : Nat := 1
  /-- lanes the peer trained (R369). -/
  lanes : Nat := 8
  /-- peer's bring-up state code (R369). -/
  state : Nat := 3
  /-- peer's link firmware version (R369). -/
  linkFw : Nat := 0x01040000
  deriving DecidableEq, Repr

/-- The trims of one tile (R160), in steps of each kind. -/
structure TrimBank where
  /-- comparator thresholds, 1/64 LSB, 1,040, the reference converter's 16 last (R160). -/
  thresholds : List Int := []
  /-- column gains, 1/4,096 of nominal, 1,032 (R160). -/
  gains : List Int := []
  /-- column offsets, 1/32 LSB, 1,032 (R160). -/
  offsets : List Int := []
  /-- row-driver delays, 50 ps, 2,048 (R160). -/
  delays : List Int := []
  /-- row-driver amplitudes, 0.25 %, 2,048 (R160). -/
  amplitudes : List Int := []
  deriving DecidableEq, Repr

/-- What a calibration pass measured (R163, R164, R171, R174). -/
structure PassReading where
  /-- the candidate trims computed; a gain may lie beyond the range of R101 (R160). -/
  trims : TrimBank := {}
  /-- distance of each trimmed quantity from its target at the repeat measurement, 1/100 LSB (R164). -/
  residuals : List Int := []
  /-- plane-die temperature at the repeat measurement, °C (R174). -/
  temperature : Nat := 40
  deriving DecidableEq, Repr

/-- The 64-byte body of REQUEST_ADMIT (R257). -/
structure AdmitBody where
  /-- REQUEST_ID, 32 bits (R257). -/
  id : Nat := 0
  /-- ADAPTER_ID, 32 bits (R257). -/
  adapter : Nat := 0xFFFFFFFF
  /-- EDITION_FOLLOW (R257). -/
  follow : Bool := false
  /-- SPECULATE (R257). -/
  speculate : Bool := false
  /-- MAX_TOKENS, 32 bits (R257). -/
  maxTokens : Nat := 0
  /-- SEED, 64 bits (R257). -/
  seed : Nat := 0
  /-- RING, host address, 64 bits (R257). -/
  ring : Nat := 0
  /-- RING_ENTRIES, 32 bits (R257). -/
  ringEntries : Nat := 0
  /-- PROMPT_TOKENS, 32 bits (R257). -/
  promptTokens : Nat := 0
  /-- PROMPT, VA, 64 bits (R257). -/
  prompt : Nat := 0
  /-- SAMPLING, VA, 64 bits (R257). -/
  sampling : Nat := 0
  /-- PREFIX, 32 bits (R257). -/
  pfx : Nat := 0xFFFFFFFF
  deriving DecidableEq, Repr

end Sys2Proof
end

