-- ==== Sys2Proof/Syntax.lean ====
section
/-! DEFINITION. The commands of the block: one constructor for each row of the table of operations and events, with the
row's operands. -/

namespace Sys2Proof

/-- A command: a host write, a CCI command, an event on a pin or a link, or an indivisible step of one of the
device's engines. -/
inductive Instr where
  /-- REGISTER_WRITE (R10). -/
  | registerWrite (off size : Nat) (data : List Byte)
  /-- FRAME_TICK (R286). -/
  | frameTick
  /-- RATIO_WINDOW_END (R30). -/
  | ratioWindowEnd (m : RatioMeas)
  /-- PLANE_FORWARD (R82). -/
  | planeForward
  /-- PLANE_TRANSPOSED (R87). -/
  | planeTransposed
  /-- PLANE_PROGRAM (R95). -/
  | planeProgram
  /-- STEP_UNIT (R79). -/
  | stepUnit (transfer : Transfer)
  /-- CORRECTION_PASS (R119). -/
  | correctionPass
  /-- OPERATION_TAIL_END (R119). -/
  | operationTailEnd (mismatch : Bool)
  /-- PLANE_SAVE (R90). -/
  | planeSave
  /-- PLANE_RESUME (R91). -/
  | planeResume
  /-- PROGRAM_ROUND_START (R94). -/
  | programRoundStart (die : Nat)
  /-- PROGRAM_ROUND_END (R92). -/
  | programRoundEnd (die : Nat)
  /-- RE_ATTACH (R351). -/
  | reAttach
  /-- ENDURANCE_WINDOW_START (R97). -/
  | enduranceWindowStart
  /-- PLN_TILE_SELECT (R105). -/
  | plnTileSelect (v : Word)
  /-- AUDIT_RUN (R125). -/
  | auditRun
  /-- CONFIRMATION_FIRING (R126). -/
  | confirmationFiring
  /-- WIDE_PRODUCT (R136). -/
  | wideProduct
  /-- WIDE_REDUCTION (R153). -/
  | wideReduction
  /-- CHUNK_PASS (R135). -/
  | chunkPass (mismatch : Bool)
  /-- TILE_DRAIN (R144). -/
  | tileDrain
  /-- ADAPTER_TERM (R152). -/
  | adapterTerm
  /-- WIDE_SAVE (R157). -/
  | wideSave
  /-- WIDE_RESUME (R157). -/
  | wideResume
  /-- ATTENTION_FORWARD (R194). -/
  | attentionForward
  /-- ATTENTION_BACKWARD (R196). -/
  | attentionBackward
  /-- PAGE_ARRIVAL (R195). -/
  | pageArrival
  /-- ATTENTION_SAVE (R180). -/
  | attentionSave
  /-- QUARANTINE_END (R199). -/
  | quarantineEnd (frame : Nat)
  /-- WALK_COMPLETE (R216). -/
  | walkComplete (cls index space va : Nat) (write : Bool)
  /-- FAULT_RESUME (R228). -/
  | faultResume (slot : Nat)
  /-- FAULT_FAIL (R228). -/
  | faultFail (slot status : Nat)
  /-- FAULT_TIMEOUT (R229). -/
  | faultTimeout (slot : Nat)
  /-- INVALIDATE_ALL (R218). -/
  | invalidateAll
  /-- INVALIDATE_SPACE (R218). -/
  | invalidateSpace (sp : Nat)
  /-- INVALIDATE_RANGE (R218). -/
  | invalidateRange (sp base pages : Nat)
  /-- INVALIDATE_KV_SPACE (R218). -/
  | invalidateKvSpace (sp : Nat)
  /-- INVALIDATE_KV_ALL (R218). -/
  | invalidateKvAll
  /-- INVALIDATION_COMPLETE (R218). -/
  | invalidationComplete
  /-- MMU_FAULT_READ (R240). -/
  | mmuFaultRead (v : Word)
  /-- BAR2_ACCESS (R231). -/
  | bar2Access (write : Bool) (off len : Nat) (data : List Byte)
  /-- DMA_COPY (R220). -/
  | dmaCopy
  /-- DMA_FILL (R220). -/
  | dmaFill
  /-- CHECK_UNIT_ACQUIRE (R222). -/
  | checkUnitAcquire (e : Nat)
  /-- TRANSFER_UNIT (R221). -/
  | transferUnit (e : Nat)
  /-- HOST_ACCESS (R224). -/
  | hostAccess (e : Nat)
  /-- DMA_SAVE (R225). -/
  | dmaSave (e : Nat)
  /-- ARBITER_GRANT (R235). -/
  | arbiterGrant (cls inst : Nat) (arrivals : List (Nat × Bool))
  /-- BURST_LIMIT_EXPIRY (R235). -/
  | burstLimitExpiry (cls inst : Nat)
  /-- REQUEST_DROP (R235). -/
  | requestDrop (cls inst req : Nat)
  /-- ARB_SELECT (R242). -/
  | arbSelect (v : Word)
  /-- ARB_CLEAR_ALL (R242). -/
  | arbClearAll
  /-- ARB_CLEAR_SELECTED (R242). -/
  | arbClearSelected
  /-- DOORBELL_WRITE (R249). -/
  | doorbellWrite (m size : Nat) (v : Word)
  /-- COMMAND_TAKE (R253). -/
  | commandTake
  /-- MBX_CQ_HEAD (R270). -/
  | mbxCqHead (m : Nat) (v : Word)
  /-- MBX_CTRL (R270). -/
  | mbxCtrl (m : Nat) (v : Word)
  /-- HELLO (R255). -/
  | hello (h : CmdHdr) (minV maxV : Nat) (resetSeq : Bool) (seqBase hostId : Nat)
  /-- IDENTIFY (R258). -/
  | identify (h : CmdHdr) (buffer : Nat)
  /-- CONFIG_READ (R257). -/
  | configRead (h : CmdHdr) (buffer bytes : Nat)
  /-- CONFIG_WRITE (R265). -/
  | configWrite (h : CmdHdr) (source bytes : Nat) (persist : Bool)
  /-- RESET_WARM (R257). -/
  | resetWarm (h : CmdHdr)
  /-- WARM_RESET (R478). -/
  | warmReset
  /-- SPACE_SET (R257). -/
  | spaceSet (h : CmdHdr) (space : Nat) (enable : Bool)
  /-- MAP (R257). -/
  | map (h : CmdHdr) (space memory pageSize : Nat) (write kv : Bool) (va bytes hostBase : Nat)
  /-- UNMAP (R257). -/
  | unmap (h : CmdHdr) (space va bytes : Nat)
  /-- CALIBRATE (R169). -/
  | calibrate (h : CmdHdr) (first pass count : Nat)
  /-- REFERENCE_SET (R257). -/
  | referenceSet (h : CmdHdr) (enable : Bool)
  /-- FW_STAGE (R427). -/
  | fwStage (h : CmdHdr) (source bytes component : Nat)
  /-- FW_ACTIVATE (R429). -/
  | fwActivate (h : CmdHdr)
  /-- FW_RECOVERY (R435). -/
  | fwRecovery (h : CmdHdr)
  /-- FABRIC_FORM (R375). -/
  | fabricForm (h : CmdHdr) (acceptSwap : Bool)
  /-- FABRIC_CUT (R390). -/
  | fabricCut (h : CmdHdr) (cx cy cz : Nat)
  /-- EDITION_SWITCH (R333). -/
  | editionSwitch (h : CmdHdr) (edition : Nat)
  /-- EDITION_RELEASE (R334). -/
  | editionRelease (h : CmdHdr) (edition : Nat)
  /-- GRAPH_LOAD (R273). -/
  | graphLoad (h : CmdHdr) (slot space descriptor : Nat)
  /-- GRAPH_RUN (R274). -/
  | graphRun (h : CmdHdr) (slot : Nat)
  /-- GRAPH_CANCEL (R274). -/
  | graphCancel (h : CmdHdr) (slot : Nat)
  /-- GRAPH_UNLOAD (R274). -/
  | graphUnload (h : CmdHdr) (slot : Nat)
  /-- REQUEST_ADMIT (R301). -/
  | requestAdmit (h : CmdHdr) (b : AdmitBody)
  /-- REQUEST_RETIRE (R337). -/
  | requestRetire (h : CmdHdr) (id : Nat)
  /-- RETIRE_EFFECT (R337). -/
  | retireEffect (id : Nat)
  /-- ADAPTER_LOAD (R330). -/
  | adapterLoad (h : CmdHdr) (id memory source bytes : Nat)
  /-- ADAPTER_UNLOAD (R330). -/
  | adapterUnload (h : CmdHdr) (id : Nat)
  /-- NOP (R257). -/
  | nop (h : CmdHdr)
  /-- BOOT_ROM (R422). -/
  | bootRom (selftest : Bool)
  /-- ENTER_FW (R266). -/
  | enterFw
  /-- STORE_CHECK (R264). -/
  | storeCheck
  /-- EARLY_LINK_REQUEST (R268). -/
  | earlyLinkRequest (port : Nat) (p : Packet)
  /-- TASK_ISSUE (R281). -/
  | taskIssue
  /-- TASK_COMPLETE (R280). -/
  | taskComplete
  /-- PIP_TASK_START (R279). -/
  | pipTaskStart
  /-- PIP_CORE_EXIT (R279). -/
  | pipCoreExit (core result : Nat) (accesses : List (Nat × Option Byte))
  /-- PIP_EXCEPTION (R279). -/
  | pipException (core : Nat)
  /-- PIP_QUANTUM_END (R292). -/
  | pipQuantumEnd (core : Nat)
  /-- GRAPH_COMPLETE (R283). -/
  | graphComplete (slot : Nat)
  /-- GRAPH_OVERRUN (R287). -/
  | graphOverrun (slot : Nat)
  /-- FRAME_LIMIT (R287). -/
  | frameLimit (slot : Nat)
  /-- GRF_FRAME_REQUEST (R285). -/
  | grfFrameRequest (v : Word)
  /-- STEP_COMPOSE (R308). -/
  | stepCompose
  /-- RUN_START (R308). -/
  | runStart (template : Nat)
  /-- HANDOFF_RECEIVE (R388). -/
  | handoffReceive (p : Packet)
  /-- SAMPLE_AND_VERIFY (R317). -/
  | sampleAndVerify
  /-- DRAFT (R325). -/
  | draft
  /-- TOKEN (R389). -/
  | token (p : Packet)
  /-- ROLLBACK (R336). -/
  | rollback (p : Packet)
  /-- TIER_WINDOW_END (R353). -/
  | tierWindowEnd
  /-- PASS_PENDING_DECADE (R169). -/
  | passPendingDecade (tile : Nat)
  /-- PASS_PENDING_TRACK_PERIOD (R169). -/
  | passPendingTrackPeriod (tile : Nat)
  /-- PASS_PENDING_FINE_PERIOD (R169). -/
  | passPendingFinePeriod (tile : Nat)
  /-- PASS_START (R170). -/
  | passStart (die : Nat)
  /-- CALIBRATION_STEP (R167). -/
  | calibrationStep
  /-- PASS_MEASUREMENT_END (R164). -/
  | passMeasurementEnd (tile : Nat) (r : PassReading)
  /-- CAL_TILE_SELECT (R178). -/
  | calTileSelect (v : Word)
  /-- PORT_TRAINING (R358). -/
  | portTraining (port lanes : Nat)
  /-- PORT_RETRAIN (R358). -/
  | portRetrain (port lanes : Nat)
  /-- LINK_HELLO (R369). -/
  | linkHello (port : Nat) (p : PeerHello)
  /-- PLAN_CHECK_TIMEOUT (R373). -/
  | planCheckTimeout (port : Nat)
  /-- PLAN_REPORT (R375). -/
  | planReport (r : Report)
  /-- FORM (R376). -/
  | form (p : Packet)
  /-- FLIT_RECEIVE (R362). -/
  | flitReceive (port : Nat) (bytes : List Byte)
  /-- LINK_FAILURE (R363). -/
  | linkFailure (port half : Nat)
  /-- PACKET_RECEIVE (R366). -/
  | packetReceive (p : Packet)
  /-- E2E_ACK (R366). -/
  | e2eAck (src channel : Nat)
  /-- E2E_REPLAY (R366). -/
  | e2eReplay (dst channel : Nat)
  /-- RETRY_AFTER (R371). -/
  | retryAfter (dst channel seq hint : Nat)
  /-- LOST (R378). -/
  | lost (dst channel seq status : Nat)
  /-- SYNC_EXCHANGE (R377). -/
  | syncExchange (port : Nat) (t1 t2 t3 t4 : Nat)
  /-- DEVICE_SILENT_CUT (R390). -/
  | deviceSilentCut (device : Nat)
  /-- ALL_REDUCE (R384). -/
  | allReduce
  /-- REDUCE_SCATTER (R382). -/
  | reduceScatter
  /-- ALL_GATHER (R382). -/
  | allGather
  /-- BROADCAST (R382). -/
  | broadcast
  /-- SEND (R382). -/
  | send
  /-- RECEIVE (R382). -/
  | receive
  /-- RELAY (R382). -/
  | relay
  /-- RELAY_UNIT (R382). -/
  | relayUnit
  /-- COLLECTIVE_TIMEOUT (R387). -/
  | collectiveTimeout
  /-- ABORT (R387). -/
  | abort (p : Packet)
  /-- DIGEST_SLICE (R392). -/
  | digestSlice
  /-- DIGEST_REPORT (R392). -/
  | digestReport (r : DigestRep)
  /-- EXPEL (R392). -/
  | expel (p : Packet)
  /-- LNK_PEER_SELECT (R393). -/
  | lnkPeerSelect (v : Word)
  /-- DEVICE_ERROR (R403). -/
  | deviceError
  /-- CPER_RING_WRITE (R404). -/
  | cperRingWrite
  /-- EVR_RESTART (R410). -/
  | evrRestart (v : Word)
  /-- EVR_CPER_HEAD (R417). -/
  | evrCperHead (v : Word)
  /-- EVR_CPER_CTRL (R417). -/
  | evrCperCtrl (v : Word)
  /-- CRC_FEED_B (R414). -/
  | crcFeedB (n : Nat) (v : Word)
  /-- CRC_FEED_H (R414). -/
  | crcFeedH (n : Nat) (v : Word)
  /-- CRC_FEED_W (R414). -/
  | crcFeedW (n : Nat) (v : Word)
  /-- CRC_RESTART (R413). -/
  | crcRestart (n : Nat)
  /-- CRC_VALUE_LO (R415). -/
  | crcValueLo (n : Nat) (v : Word)
  /-- CRC_VALUE_HI (R415). -/
  | crcValueHi (n : Nat) (v : Word)
  /-- PAUSE_TICK (R429). -/
  | pauseTick
  /-- SWAP_END (R429). -/
  | swapEnd
  /-- RESUME_TICK (R429). -/
  | resumeTick
  /-- FW_CONFIRM (R432). -/
  | fwConfirm
  /-- CONFIRMATION_WINDOW_END (R433). -/
  | confirmationWindowEnd
  /-- GET_VERSION (R441). -/
  | getVersion
  /-- GET_CAPABILITIES (R441). -/
  | getCapabilities
  /-- NEGOTIATE_ALGORITHMS (R441). -/
  | negotiateAlgorithms
  /-- GET_DIGESTS (R441). -/
  | getDigests
  /-- GET_CERTIFICATE (R441). -/
  | getCertificate (offset length : Nat)
  /-- CHALLENGE (R441). -/
  | challenge (nonce : List Byte)
  /-- GET_MEASUREMENTS (R442). -/
  | getMeasurements (nonce : List Byte) (index : Nat)
  /-- ERASE_NONCE (R443). -/
  | eraseNonce
  /-- ERASE_NONCE_EXPIRY (R443). -/
  | eraseNonceExpiry
  /-- ERASE_WEIGHTS (R443). -/
  | eraseWeights (sig : List Byte)
  /-- JTAG_UNLOCK (R446). -/
  | jtagUnlock (token : List Byte)
  /-- HUB_FW_SELECT (R447). -/
  | hubFwSelect (v : Word)
  /-- HUB_SEC_COUNTER_SELECT (R447). -/
  | hubSecCounterSelect (v : Word)
  /-- SRV_REQUEST_SELECT (R339). -/
  | srvRequestSelect (v : Word)
  /-- SEQUENCE_ENTRY_DUE (R451). -/
  | sequenceEntryDue (n : Nat)
  /-- CONVERSION_COMPLETE (R451). -/
  | conversionComplete (n : Nat) (samples : List Nat)
  /-- OPEN_WIRE_TEST (R455). -/
  | openWireTest (n u d : Nat)
  /-- URGENT_CONVERSION (R454). -/
  | urgentConversion (v : Word)
  /-- URGENT_DONE (R454). -/
  | urgentDone (conv code : Nat)
  /-- TEST_DAC (R457). -/
  | testDac (v : Word)
  /-- SENSOR_SAMPLE (R458). -/
  | sensorSample (n : Nat) (reading : Option Int)
  /-- THERMAL_SHUTDOWN (R461). -/
  | thermalShutdown (n : Nat) (reading : Int)
  /-- GOVERNOR_PERIOD (R465). -/
  | governorPeriod
  /-- PWR_OFF (R463). -/
  | pwrOff (hi : Bool) (v : Word)
  /-- DOMAIN_SWITCH_OFF (R463). -/
  | domainSwitchOff (n : Nat)
  /-- DOMAIN_ON (R462). -/
  | domainOn (n : Nat)
  /-- TELEMETRY_REFRESH (R467). -/
  | telemetryRefresh
  /-- POWER_UP (R476). -/
  | powerUp
  /-- POWER_FAIL (R477). -/
  | powerFail
  /-- PERST_ASSERT (R478). -/
  | perstAssert
  /-- MODULE_RST_ASSERT (R478). -/
  | moduleRstAssert
  /-- RESET_DEASSERT (R478). -/
  | resetDeassert (straps : BitVec 9) (recovery : Bool)
  /-- SHUTDOWN_LATCH_CLEAR (R480). -/
  | shutdownLatchClear
  /-- GET_TELEMETRY (R482). -/
  | getTelemetry (piece : Nat)
  /-- GET_CPER (R482). -/
  | getCper (index : Nat)
  /-- SET_BOARD_LIMIT (R482). -/
  | setBoardLimit (w : Nat)
  /-- GET_SHUTDOWN (R482). -/
  | getShutdown
  /-- GET_IDENTITY (R482). -/
  | getIdentity
  /-- ATTENTION_RESUME (R289). -/
  | attentionResume
  /-- DMA_RESUME (R225). -/
  | dmaResume (e : Nat)
  /-- LOW_HALF_READ (R105). -/
  | lowHalfRead (off : Nat)
  deriving DecidableEq, Repr

end Sys2Proof
end

