-- ==== Sys2Proof/Config.lean ====
section
/-! DEFINITION. What the manual leaves to the implementation, and the free values: constants with no body, so that
nothing can be proved of the value of any of them. -/

namespace Sys2Proof.Config

/-- A free 32-bit value, by the model's own counter (log entry 3). -/
opaque freeWord : Nat → Word

/-- A free byte, by the model's own counter (log entry 3). -/
opaque freeByte : Nat → Byte

/-- A measured quantity that the manual gives no value to: a time, a power, a reading (log entry 3). -/
opaque freeNat : Nat → Nat

/-- The systematic error of a conversion, in thousandths of an LSB: the trims applied, the draw, and the index of the
converted line (R102, R176, log entry 10). -/
opaque systematic : List Int → Nat → Nat → Int

/-- The random term of a conversion, in thousandths of an LSB: the draw, and the index of the converted line (R102, log
entry 10). -/
opaque randomTerm : Nat → Nat → Int

/-- Cells that write-and-verify cannot bring to their level within so many pulses: draw, pulses, row, column (R92, R93, log
entry 11). -/
opaque stuckCell : Nat → Nat → Nat → Nat → Option Int

/-- SHA-512 of a byte string (R425; its own standard, not in the manual). -/
opaque sha512 : List Byte → BitVec 512

/-- Whether a signature of a message verifies under the key with this number (R263, R425, R441-R446). -/
opaque verifies : Nat → List Byte → List Byte → Bool

/-- A signature of a message by the device's key (R441-R443). -/
opaque sign : Nat → List Byte → List Byte

/-- The device certificate chain (R441). -/
opaque certificateChain : List Byte

/-- The SHA-512 digests of the four Olmoa root public keys in the ROM, by index (R423). -/
opaque romDigest : Nat → Nat

/-- The Olmoa default configuration key (R440) and the key of unlock tokens (R446). -/
opaque olmoaKey : Nat

/-- The boot ROM's image (R442). -/
opaque romImage : List Byte

/-- The plan identifier that a device without tag 0x0102 derives from its serial number (R372). -/
opaque planOfSerial : List Byte → Nat

/-- The secret that the PUF reproduces at each boot (R437). -/
opaque pufKeys : List Nat

end Sys2Proof.Config
end

