-- ==== Sys2Proof/Machine/RegMap.lean ====
section
/-! DEFINITION. The register maps of the eighteen blocks: every register with its BAR0 offset (R245), and each field's
bits, class and reset value, as the chapters' tables give them. -/

namespace Sys2Proof.Machine

namespace Off

/-- HUB_RATIO_CTRL (R32). -/
def hubRatioCtrl : Nat := 0x600
/-- HUB_RATIO_KV (R32). -/
def hubRatioKv : Nat := 0x604
/-- HUB_RATIO_LATENCY (R32). -/
def hubRatioLatency : Nat := 0x608
/-- HUB_RATIO_LINK (first of 6, 0x4 apart) (R32). -/
def hubRatioLink : Nat := 0x610
/-- HUB_RATIO_STATUS (R32). -/
def hubRatioStatus : Nat := 0x628
/-- HUB_RATIO_CLIPS (R32). -/
def hubRatioClips : Nat := 0x62c
/-- HUB_FW_STATUS (R447). -/
def hubFwStatus : Nat := 0x800
/-- HUB_FW_CONFIRM_LEFT (R447). -/
def hubFwConfirmLeft : Nat := 0x804
/-- HUB_FW_LAST_PAUSE (R447). -/
def hubFwLastPause : Nat := 0x808
/-- HUB_FW_SELECT (R447). -/
def hubFwSelect : Nat := 0x80c
/-- HUB_FW_RECORD (first of 4, 0x4 apart) (R447). -/
def hubFwRecord : Nat := 0x810
/-- HUB_SEC_STATUS (R447). -/
def hubSecStatus : Nat := 0x820
/-- HUB_SEC_COUNTER_SELECT (R447). -/
def hubSecCounterSelect : Nat := 0x824
/-- HUB_SEC_COUNTER (R447). -/
def hubSecCounter : Nat := 0x828
/-- PLN_CTRL (R105). -/
def plnCtrl : Nat := 0x10000
/-- PLN_STATUS (R105). -/
def plnStatus : Nat := 0x10004
/-- PLN_FIRING_CAP (R105). -/
def plnFiringCap : Nat := 0x10008
/-- PLN_OPS_LO (R105). -/
def plnOpsLo : Nat := 0x10010
/-- PLN_OPS_HI (R105). -/
def plnOpsHi : Nat := 0x10014
/-- PLN_STEPS_LO (R105). -/
def plnStepsLo : Nat := 0x10018
/-- PLN_STEPS_HI (R105). -/
def plnStepsHi : Nat := 0x1001c
/-- PLN_PHASE_OPS (first of 4, 0x4 apart) (R105). -/
def plnPhaseOps : Nat := 0x10020
/-- PLN_SATURATED_COLUMNS (R105). -/
def plnSaturatedColumns : Nat := 0x10030
/-- PLN_ZERO_SKIPS (R105). -/
def plnZeroSkips : Nat := 0x10034
/-- PLN_RESTARTS (R105). -/
def plnRestarts : Nat := 0x10038
/-- PLN_BUDGET (R105). -/
def plnBudget : Nat := 0x10040
/-- PLN_BUDGET_USED (R105). -/
def plnBudgetUsed : Nat := 0x10044
/-- PLN_BUDGET_REJECTS (R105). -/
def plnBudgetRejects : Nat := 0x10048
/-- PLN_SPARES (R105). -/
def plnSpares : Nat := 0x10050
/-- PLN_PROG_LIMIT (R105). -/
def plnProgLimit : Nat := 0x10054
/-- PLN_TILE_SELECT (R105). -/
def plnTileSelect : Nat := 0x10060
/-- PLN_TILE_INFO (R105). -/
def plnTileInfo : Nat := 0x10064
/-- PLN_TILE_WEAR (R105). -/
def plnTileWear : Nat := 0x10068
/-- PLN_TILE_EDITION (R105). -/
def plnTileEdition : Nat := 0x1006c
/-- PLN_TILE_STUCK (R105). -/
def plnTileStuck : Nat := 0x10070
/-- PLN_EDGE_STATUS (R58). -/
def plnEdgeStatus : Nat := 0x10080
/-- PLN_EDGE_UNDERFLOW_BLOCKS (R58). -/
def plnEdgeUnderflowBlocks : Nat := 0x10084
/-- PLN_EDGE_CLIPPED_ELEMENTS (R58). -/
def plnEdgeClippedElements : Nat := 0x10088
/-- PLN_EDGE_NONFINITE_ELEMENTS (R58). -/
def plnEdgeNonfiniteElements : Nat := 0x1008c
/-- CUR_CTRL (R132). -/
def curCtrl : Nat := 0x20000
/-- CUR_STATUS (R132). -/
def curStatus : Nat := 0x20004
/-- CUR_ACT_RATIO (R132). -/
def curActRatio : Nat := 0x20008
/-- CUR_WEIGHT_CLIP (R132). -/
def curWeightClip : Nat := 0x2000c
/-- CUR_AUDIT_CTRL (R132). -/
def curAuditCtrl : Nat := 0x20010
/-- CUR_MIRROR_SIZE (R132). -/
def curMirrorSize : Nat := 0x20014
/-- CUR_ACT_STRIPPED (R132). -/
def curActStripped : Nat := 0x20020
/-- CUR_ACT_CLIPPED (R132). -/
def curActClipped : Nat := 0x20024
/-- CUR_OVERFLOW_OPS (R132). -/
def curOverflowOps : Nat := 0x20028
/-- CUR_PASS_OPS (first of 3, 0x4 apart) (R132). -/
def curPassOps : Nat := 0x2002c
/-- CUR_SAT_RECOMPUTED (R132). -/
def curSatRecomputed : Nat := 0x20038
/-- CUR_SAT_DIGITAL_TILES (R132). -/
def curSatDigitalTiles : Nat := 0x2003c
/-- CUR_AUDITS_LO (R132). -/
def curAuditsLo : Nat := 0x20040
/-- CUR_AUDITS_HI (R132). -/
def curAuditsHi : Nat := 0x20044
/-- CUR_AUDIT_MISSES (R132). -/
def curAuditMisses : Nat := 0x20048
/-- CUR_AUDIT_FAILURES (R132). -/
def curAuditFailures : Nat := 0x2004c
/-- CUR_AUDIT_SKIPS (R132). -/
def curAuditSkips : Nat := 0x20050
/-- CUR_AUDIT_QUEUE (R132). -/
def curAuditQueue : Nat := 0x20054
/-- CUR_AUDIT_LAST (R132). -/
def curAuditLast : Nat := 0x20058
/-- CUR_MIRROR_USED (R132). -/
def curMirrorUsed : Nat := 0x2005c
/-- CUR_MIRROR_OUT (R132). -/
def curMirrorOut : Nat := 0x20060
/-- WDE_CTRL (R159). -/
def wdeCtrl : Nat := 0x30000
/-- WDE_STATUS (R159). -/
def wdeStatus : Nat := 0x30004
/-- WDE_TERM_STORE (R159). -/
def wdeTermStore : Nat := 0x30008
/-- WDE_TERM_PEAK (R159). -/
def wdeTermPeak : Nat := 0x3000c
/-- WDE_TILES_LO (R159). -/
def wdeTilesLo : Nat := 0x30010
/-- WDE_TILES_HI (R159). -/
def wdeTilesHi : Nat := 0x30014
/-- WDE_BUSY_LO (R159). -/
def wdeBusyLo : Nat := 0x30018
/-- WDE_BUSY_HI (R159). -/
def wdeBusyHi : Nat := 0x3001c
/-- WDE_AUDIT_TILES (R159). -/
def wdeAuditTiles : Nat := 0x30020
/-- WDE_ACC_CLIPPED (R159). -/
def wdeAccClipped : Nat := 0x30024
/-- WDE_DRAIN_WAITS (R159). -/
def wdeDrainWaits : Nat := 0x30028
/-- WDE_STALL_CYCLES (R159). -/
def wdeStallCycles : Nat := 0x3002c
/-- WDE_ADAPTER_WAIT (R159). -/
def wdeAdapterWait : Nat := 0x30030
/-- WDE_EDGE_STATUS (R58). -/
def wdeEdgeStatus : Nat := 0x30080
/-- WDE_EDGE_UNDERFLOW_BLOCKS (R58). -/
def wdeEdgeUnderflowBlocks : Nat := 0x30084
/-- WDE_EDGE_CLIPPED_ELEMENTS (R58). -/
def wdeEdgeClippedElements : Nat := 0x30088
/-- WDE_EDGE_NONFINITE_ELEMENTS (R58). -/
def wdeEdgeNonfiniteElements : Nat := 0x3008c
/-- CAL_CTRL (R178). -/
def calCtrl : Nat := 0x40000
/-- CAL_STATUS (R178). -/
def calStatus : Nat := 0x40004
/-- CAL_EPOCH (R178). -/
def calEpoch : Nat := 0x40008
/-- CAL_COUNT (R178). -/
def calCount : Nat := 0x4000c
/-- CAL_LAST_LO (R178). -/
def calLastLo : Nat := 0x40010
/-- CAL_LAST_HI (R178). -/
def calLastHi : Nat := 0x40014
/-- CAL_PERIOD (R178). -/
def calPeriod : Nat := 0x40018
/-- CAL_TRIGGER (R178). -/
def calTrigger : Nat := 0x4001c
/-- CAL_PROGRESS (R178). -/
def calProgress : Nat := 0x40020
/-- CAL_LIVE (R178). -/
def calLive : Nat := 0x40024
/-- CAL_ATTEMPTS_FAILED (R178). -/
def calAttemptsFailed : Nat := 0x40028
/-- CAL_SUSPECTS (R178). -/
def calSuspects : Nat := 0x4002c
/-- CAL_REFRESHES (R178). -/
def calRefreshes : Nat := 0x40030
/-- CAL_TILE_SELECT (R178). -/
def calTileSelect : Nat := 0x40040
/-- CAL_TILE_STATUS (R178). -/
def calTileStatus : Nat := 0x40044
/-- CAL_TILE_EPOCH (R178). -/
def calTileEpoch : Nat := 0x40048
/-- CAL_TILE_COUNT (R178). -/
def calTileCount : Nat := 0x4004c
/-- CAL_TILE_LAST_LO (R178). -/
def calTileLastLo : Nat := 0x40050
/-- CAL_TILE_LAST_HI (R178). -/
def calTileLastHi : Nat := 0x40054
/-- ATT_CTRL (R207). -/
def attCtrl : Nat := 0x50000
/-- ATT_STATUS (R207). -/
def attStatus : Nat := 0x50004
/-- ATT_KV_WINDOW (R207). -/
def attKvWindow : Nat := 0x50008
/-- ATT_FREE_FRAMES (R207). -/
def attFreeFrames : Nat := 0x50010
/-- ATT_QUARANTINE_FRAMES (R207). -/
def attQuarantineFrames : Nat := 0x50014
/-- ATT_SHARED_FRAMES (R207). -/
def attSharedFrames : Nat := 0x50018
/-- ATT_PAGES_READ_LO (R207). -/
def attPagesReadLo : Nat := 0x50020
/-- ATT_PAGES_READ_HI (R207). -/
def attPagesReadHi : Nat := 0x50024
/-- ATT_COW_COPIES (R207). -/
def attCowCopies : Nat := 0x50028
/-- ATT_KV_CLIPPED (R207). -/
def attKvClipped : Nat := 0x5002c
/-- ATT_SHARE_OVERFLOWS (R207). -/
def attShareOverflows : Nat := 0x50030
/-- ATT_EMPTY_ROWS (R207). -/
def attEmptyRows : Nat := 0x50034
/-- ATT_COMPACTED (R207). -/
def attCompacted : Nat := 0x50038
/-- MMU_STATUS (R240). -/
def mmuStatus : Nat := 0x60004
/-- MMU_ROOT_LO (first of 16, 0x8 apart) (R240). -/
def mmuRootLo : Nat := 0x60100
/-- MMU_ROOT_HI (first of 16, 0x8 apart) (R240). -/
def mmuRootHi : Nat := 0x60104
/-- MMU_BAR2_CTRL (R240). -/
def mmuBar2Ctrl : Nat := 0x60180
/-- MMU_BAR2_BASE_LO (R240). -/
def mmuBar2BaseLo : Nat := 0x60184
/-- MMU_BAR2_BASE_HI (R240). -/
def mmuBar2BaseHi : Nat := 0x60188
/-- MMU_INV_CTRL (R240). -/
def mmuInvCtrl : Nat := 0x60200
/-- MMU_INV_BASE_LO (R240). -/
def mmuInvBaseLo : Nat := 0x60204
/-- MMU_INV_BASE_HI (R240). -/
def mmuInvBaseHi : Nat := 0x60208
/-- MMU_INV_PAGES (R240). -/
def mmuInvPages : Nat := 0x6020c
/-- MMU_FAULT_READ (R240). -/
def mmuFaultRead : Nat := 0x60300
/-- MMU_FAULT_LAST (R240). -/
def mmuFaultLast : Nat := 0x60304
/-- MMU_FAULT_RESOLVE (R240). -/
def mmuFaultResolve : Nat := 0x60308
/-- MMU_FAULTS (R240). -/
def mmuFaults : Nat := 0x60310
/-- MMU_FAULT_TIMEOUTS (R240). -/
def mmuFaultTimeouts : Nat := 0x60314
/-- MMU_BAR2_FAULTS (R240). -/
def mmuBar2Faults : Nat := 0x60318
/-- MMU_WALKS_LO (R240). -/
def mmuWalksLo : Nat := 0x60320
/-- MMU_WALKS_HI (R240). -/
def mmuWalksHi : Nat := 0x60324
/-- MMU_FAULT_DATA (first of 16, 0x4 apart) (R240). -/
def mmuFaultData : Nat := 0x60340
/-- DMA_CTRL (R241). -/
def dmaCtrl : Nat := 0x70000
/-- DMA_STATUS (R241). -/
def dmaStatus : Nat := 0x70004
/-- DMA_ENGINES (R241). -/
def dmaEngines : Nat := 0x70008
/-- DMA_BYTES_LO (R241). -/
def dmaBytesLo : Nat := 0x70010
/-- DMA_BYTES_HI (R241). -/
def dmaBytesHi : Nat := 0x70014
/-- DMA_CHECK_MISMATCHES (R241). -/
def dmaCheckMismatches : Nat := 0x70018
/-- DMA_HOST_ERRORS (R241). -/
def dmaHostErrors : Nat := 0x7001c
/-- DMA_CHECK_WAITS (R241). -/
def dmaCheckWaits : Nat := 0x70020
/-- ARB_SELECT (R242). -/
def arbSelect : Nat := 0x80000
/-- ARB_REQ_CONFIG (R242). -/
def arbReqConfig : Nat := 0x80004
/-- ARB_GRANTS_LO (R242). -/
def arbGrantsLo : Nat := 0x80008
/-- ARB_GRANTS_HI (R242). -/
def arbGrantsHi : Nat := 0x8000c
/-- ARB_WAIT_LO (R242). -/
def arbWaitLo : Nat := 0x80010
/-- ARB_WAIT_HI (R242). -/
def arbWaitHi : Nat := 0x80014
/-- ARB_LONGEST (R242). -/
def arbLongest : Nat := 0x80018
/-- ARB_CLEAR (R242). -/
def arbClear : Nat := 0x8001c
/-- ARB_WORST (R242). -/
def arbWorst : Nat := 0x80020
/-- ARB_WORST_WHO (R242). -/
def arbWorstWho : Nat := 0x80024
/-- MBX_STATE (R270). -/
def mbxState : Nat := 0x90000
/-- MBX_STATE_SINCE_LO (R270). -/
def mbxStateSinceLo : Nat := 0x90004
/-- MBX_STATE_SINCE_HI (R270). -/
def mbxStateSinceHi : Nat := 0x90008
/-- MBX_BOOT (R270). -/
def mbxBoot : Nat := 0x9000c
/-- MBX_STATUS (R270). -/
def mbxStatus : Nat := 0x90010
/-- MBX_JOURNAL_NEXT_LO (R270). -/
def mbxJournalNextLo : Nat := 0x90020
/-- MBX_JOURNAL_NEXT_HI (R270). -/
def mbxJournalNextHi : Nat := 0x90024
/-- MBX_BOOT_DISCARDS (R270). -/
def mbxBootDiscards : Nat := 0x90028
/-- MBX_CTRL_ADMIN (R270). -/
def mbxCtrlAdmin : Nat := 0x90100
/-- MBX_CTRL (first of 16, 0x20 apart) (R270). -/
def mbxCtrl : Nat := 0x90120
/-- MBX_CQ_BASE_LO (first of 17, 0x20 apart) (R270). -/
def mbxCqBaseLo : Nat := 0x90104
/-- MBX_CQ_BASE_HI (first of 17, 0x20 apart) (R270). -/
def mbxCqBaseHi : Nat := 0x90108
/-- MBX_CQ_HEAD (first of 17, 0x20 apart) (R270). -/
def mbxCqHead : Nat := 0x9010c
/-- MBX_CQ_TAIL (first of 17, 0x20 apart) (R270). -/
def mbxCqTail : Nat := 0x90110
/-- MBX_SLOTS (first of 17, 0x20 apart) (R270). -/
def mbxSlots : Nat := 0x90114
/-- MBX_EXPECTED (first of 17, 0x20 apart) (R270). -/
def mbxExpected : Nat := 0x90118
/-- MBX_OUTSTANDING (first of 17, 0x20 apart) (R270). -/
def mbxOutstanding : Nat := 0x9011c
/-- GRF_CTRL (R298). -/
def grfCtrl : Nat := 0xa0000
/-- GRF_STATUS (R298). -/
def grfStatus : Nat := 0xa0004
/-- GRF_FRAME (R298). -/
def grfFrame : Nat := 0xa0008
/-- GRF_FRAME_AT_LO (R298). -/
def grfFrameAtLo : Nat := 0xa0010
/-- GRF_FRAME_AT_HI (R298). -/
def grfFrameAtHi : Nat := 0xa0014
/-- GRF_TICK_LO (R298). -/
def grfTickLo : Nat := 0xa0018
/-- GRF_TICK_HI (R298). -/
def grfTickHi : Nat := 0xa001c
/-- GRF_TICK_TIME_LO (R298). -/
def grfTickTimeLo : Nat := 0xa0020
/-- GRF_TICK_TIME_HI (R298). -/
def grfTickTimeHi : Nat := 0xa0024
/-- GRF_OVERRUNS (R298). -/
def grfOverruns : Nat := 0xa0028
/-- GRF_FRAME_LIMITS (R298). -/
def grfFrameLimits : Nat := 0xa002c
/-- GRF_PREEMPTIONS (R298). -/
def grfPreemptions : Nat := 0xa0030
/-- GRF_TASKS_LO (R298). -/
def grfTasksLo : Nat := 0xa0038
/-- GRF_TASKS_HI (R298). -/
def grfTasksHi : Nat := 0xa003c
/-- GRF_SLOT_STATE (first of 16, 0x10 apart) (R298). -/
def grfSlotState : Nat := 0xa0100
/-- GRF_SLOT_DONE (first of 16, 0x10 apart) (R298). -/
def grfSlotDone : Nat := 0xa0104
/-- GRF_SLOT_TASKS (first of 16, 0x10 apart) (R298). -/
def grfSlotTasks : Nat := 0xa0108
/-- GRF_SLOT_LABEL (first of 16, 0x10 apart) (R298). -/
def grfSlotLabel : Nat := 0xa010c
/-- SRV_CTRL (R339). -/
def srvCtrl : Nat := 0xb0000
/-- SRV_STATUS (R339). -/
def srvStatus : Nat := 0xb0004
/-- SRV_TEMPLATE_LO (first of 4, 0x8 apart) (R339). -/
def srvTemplateLo : Nat := 0xb0010
/-- SRV_TEMPLATE_HI (first of 4, 0x8 apart) (R339). -/
def srvTemplateHi : Nat := 0xb0014
/-- SRV_PREFILL (R339). -/
def srvPrefill : Nat := 0xb0030
/-- SRV_COMPOSE (R339). -/
def srvCompose : Nat := 0xb0034
/-- SRV_PARK (R339). -/
def srvPark : Nat := 0xb0038
/-- SRV_VOCAB (R339). -/
def srvVocab : Nat := 0xb003c
/-- SRV_EDITION (R339). -/
def srvEdition : Nat := 0xb0040
/-- SRV_REQUESTS (R339). -/
def srvRequests : Nat := 0xb0044
/-- SRV_TOKENS_LO (R339). -/
def srvTokensLo : Nat := 0xb0050
/-- SRV_TOKENS_HI (R339). -/
def srvTokensHi : Nat := 0xb0054
/-- SRV_SPEC_STEPS (R339). -/
def srvSpecSteps : Nat := 0xb0058
/-- SRV_SPEC_ACCEPTED (R339). -/
def srvSpecAccepted : Nat := 0xb005c
/-- SRV_SPEC_COLLAPSES (R339). -/
def srvSpecCollapses : Nat := 0xb0060
/-- SRV_SPEC_PROBES (R339). -/
def srvSpecProbes : Nat := 0xb0064
/-- SRV_RING_STALLS (R339). -/
def srvRingStalls : Nat := 0xb0068
/-- SRV_REISSUES (R339). -/
def srvReissues : Nat := 0xb006c
/-- SRV_UNKNOWN_HANDOFFS (R339). -/
def srvUnknownHandoffs : Nat := 0xb0070
/-- SRV_LATE_STARTS (R339). -/
def srvLateStarts : Nat := 0xb0074
/-- SRV_RUN_FAILURES (R339). -/
def srvRunFailures : Nat := 0xb0078
/-- SRV_REQUEST_SELECT (R339). -/
def srvRequestSelect : Nat := 0xb0080
/-- SRV_REQUEST_STATE (R339). -/
def srvRequestState : Nat := 0xb0084
/-- SRV_REQUEST_POSITION (R339). -/
def srvRequestPosition : Nat := 0xb0088
/-- SRV_REQUEST_TOKENS (R339). -/
def srvRequestTokens : Nat := 0xb008c
/-- SRV_REQUEST_EDITION (R339). -/
def srvRequestEdition : Nat := 0xb0090
/-- SRV_REQUEST_END (R339). -/
def srvRequestEnd : Nat := 0xb0094
/-- LNK_CTRL (R393). -/
def lnkCtrl : Nat := 0xc0000
/-- LNK_STATUS (R393). -/
def lnkStatus : Nat := 0xc0004
/-- LNK_FABRIC (R393). -/
def lnkFabric : Nat := 0xc0008
/-- LNK_LEADER (R393). -/
def lnkLeader : Nat := 0xc000c
/-- LNK_TIMEOUT (R393). -/
def lnkTimeout : Nat := 0xc0010
/-- LNK_DIGEST_FRAMES (R393). -/
def lnkDigestFrames : Nat := 0xc0014
/-- LNK_SYNC (R393). -/
def lnkSync : Nat := 0xc0018
/-- LNK_CUT_MAP_LO (R393). -/
def lnkCutMapLo : Nat := 0xc0020
/-- LNK_CUT_MAP_HI (R393). -/
def lnkCutMapHi : Nat := 0xc0024
/-- LNK_COLL_ABORTS (R393). -/
def lnkCollAborts : Nat := 0xc0030
/-- LNK_DIGEST_MISMATCHES (R393). -/
def lnkDigestMismatches : Nat := 0xc0034
/-- LNK_E2E_REPLAYS (R393). -/
def lnkE2eReplays : Nat := 0xc0038
/-- LNK_DUPLICATES (R393). -/
def lnkDuplicates : Nat := 0xc003c
/-- LNK_COLL_CLIPPED (R393). -/
def lnkCollClipped : Nat := 0xc0040
/-- LNK_COLL_NONFINITE (R393). -/
def lnkCollNonfinite : Nat := 0xc0044
/-- LNK_RETRY_REFUSALS (R393). -/
def lnkRetryRefusals : Nat := 0xc0048
/-- LNK_HOP_DROPS (R393). -/
def lnkHopDrops : Nat := 0xc004c
/-- LNK_BAD_PACKETS (R393). -/
def lnkBadPackets : Nat := 0xc0050
/-- LNK_PEER_SELECT (R393). -/
def lnkPeerSelect : Nat := 0xc0080
/-- LNK_PEER_SERIAL (first of 4, 0x4 apart) (R393). -/
def lnkPeerSerial : Nat := 0xc0084
/-- LNK_PORT_STATE (first of 6, 0x40 apart) (R393). -/
def lnkPortState : Nat := 0xc0100
/-- LNK_PORT_PEER (first of 6, 0x40 apart) (R393). -/
def lnkPortPeer : Nat := 0xc0104
/-- LNK_PORT_TX_LO (first of 6, 0x40 apart) (R393). -/
def lnkPortTxLo : Nat := 0xc0108
/-- LNK_PORT_TX_HI (first of 6, 0x40 apart) (R393). -/
def lnkPortTxHi : Nat := 0xc010c
/-- LNK_PORT_RX_LO (first of 6, 0x40 apart) (R393). -/
def lnkPortRxLo : Nat := 0xc0110
/-- LNK_PORT_RX_HI (first of 6, 0x40 apart) (R393). -/
def lnkPortRxHi : Nat := 0xc0114
/-- LNK_PORT_CORRECTED (first of 6, 0x40 apart) (R393). -/
def lnkPortCorrected : Nat := 0xc0118
/-- LNK_PORT_NAKS (first of 6, 0x40 apart) (R393). -/
def lnkPortNaks : Nat := 0xc011c
/-- LNK_PORT_FAILURES (first of 6, 0x40 apart) (R393). -/
def lnkPortFailures : Nat := 0xc0120
/-- EVR_CTRL (R417). -/
def evrCtrl : Nat := 0xd0000
/-- EVR_STATUS (R417). -/
def evrStatus : Nat := 0xd0004
/-- EVR_COUNT (R417). -/
def evrCount : Nat := 0xd0008
/-- EVR_NEXT_SEQUENCE (R417). -/
def evrNextSequence : Nat := 0xd000c
/-- EVR_LOST (R417). -/
def evrLost : Nat := 0xd0010
/-- EVR_CURSOR (R417). -/
def evrCursor : Nat := 0xd0014
/-- EVR_CPER_BASE_LO (R417). -/
def evrCperBaseLo : Nat := 0xd0020
/-- EVR_CPER_BASE_HI (R417). -/
def evrCperBaseHi : Nat := 0xd0024
/-- EVR_CPER_CTRL (R417). -/
def evrCperCtrl : Nat := 0xd0028
/-- EVR_CPER_HEAD (R417). -/
def evrCperHead : Nat := 0xd002c
/-- EVR_CPER_TAIL (R417). -/
def evrCperTail : Nat := 0xd0030
/-- EVR_CPER_LOST (R417). -/
def evrCperLost : Nat := 0xd0034
/-- EVR_CPER_QUEUED (R417). -/
def evrCperQueued : Nat := 0xd0038
/-- EVR_CE_HBM (R417). -/
def evrCeHbm : Nat := 0xd0040
/-- EVR_CE_NEAR (R417). -/
def evrCeNear : Nat := 0xd0044
/-- EVR_CE_SRAM (R417). -/
def evrCeSram : Nat := 0xd0048
/-- EVR_CE_BUS (R417). -/
def evrCeBus : Nat := 0xd004c
/-- EVR_UE_COUNT (R417). -/
def evrUeCount : Nat := 0xd0050
/-- EVR_LOGIC_CHECKS (R417). -/
def evrLogicChecks : Nat := 0xd0054
/-- CRC_CTRL (first of 8, 0x40 apart) (R418). -/
def crcCtrl : Nat := 0xe0100
/-- CRC_CMD (first of 8, 0x40 apart) (R418). -/
def crcCmd : Nat := 0xe0104
/-- CRC_POLY_LO (first of 8, 0x40 apart) (R418). -/
def crcPolyLo : Nat := 0xe0108
/-- CRC_POLY_HI (first of 8, 0x40 apart) (R418). -/
def crcPolyHi : Nat := 0xe010c
/-- CRC_INIT_LO (first of 8, 0x40 apart) (R418). -/
def crcInitLo : Nat := 0xe0110
/-- CRC_INIT_HI (first of 8, 0x40 apart) (R418). -/
def crcInitHi : Nat := 0xe0114
/-- CRC_VALUE_LO (first of 8, 0x40 apart) (R418). -/
def crcValueLo : Nat := 0xe0118
/-- CRC_VALUE_HI (first of 8, 0x40 apart) (R418). -/
def crcValueHi : Nat := 0xe011c
/-- CRC_RESULT_LO (first of 8, 0x40 apart) (R418). -/
def crcResultLo : Nat := 0xe0120
/-- CRC_RESULT_HI (first of 8, 0x40 apart) (R418). -/
def crcResultHi : Nat := 0xe0124
/-- CRC_FEED_B (first of 8, 0x40 apart) (R418). -/
def crcFeedB : Nat := 0xe0128
/-- CRC_FEED_H (first of 8, 0x40 apart) (R418). -/
def crcFeedH : Nat := 0xe012c
/-- CRC_FEED_W (first of 8, 0x40 apart) (R418). -/
def crcFeedW : Nat := 0xe0130
/-- CRC_STATUS (first of 8, 0x40 apart) (R418). -/
def crcStatus : Nat := 0xe0134
/-- HKA_STATUS (R468). -/
def hkaStatus : Nat := 0xf0004
/-- HKA_OPEN_CTRL (R468). -/
def hkaOpenCtrl : Nat := 0xf0008
/-- HKA_URGENT (R468). -/
def hkaUrgent : Nat := 0xf0010
/-- HKA_URGENT_RESULT (first of 2, 0x4 apart) (R468). -/
def hkaUrgentResult : Nat := 0xf0014
/-- HKA_TEST_DAC (R468). -/
def hkaTestDac : Nat := 0xf001c
/-- HKA_LIMIT_EVENTS (R468). -/
def hkaLimitEvents : Nat := 0xf0020
/-- HKA_OPEN_EVENTS (R468). -/
def hkaOpenEvents : Nat := 0xf0024
/-- HKA_SEQ_FIXED (first of 4, 0x10 apart) (R468). -/
def hkaSeqFixed : Nat := 0xf0100
/-- HKA_SEQ (first of 28, 0x10 apart) (R468). -/
def hkaSeq : Nat := 0xf0140
/-- HKA_LIMIT_FIXED (first of 4, 0x10 apart) (R468). -/
def hkaLimitFixed : Nat := 0xf0104
/-- HKA_LIMIT (first of 28, 0x10 apart) (R468). -/
def hkaLimit : Nat := 0xf0144
/-- HKA_RESULT (first of 32, 0x10 apart) (R468). -/
def hkaResult : Nat := 0xf0108
/-- THM_CTRL (R468). -/
def thmCtrl : Nat := 0x100000
/-- THM_STATUS (R468). -/
def thmStatus : Nat := 0x100004
/-- THM_ACTIVE (R468). -/
def thmActive : Nat := 0x100008
/-- THM_LEVELS_HUB (R468). -/
def thmLevelsHub : Nat := 0x100010
/-- THM_LEVELS_PLANE (R468). -/
def thmLevelsPlane : Nat := 0x100014
/-- THM_LEVELS_HBM (R468). -/
def thmLevelsHbm : Nat := 0x100018
/-- THM_LAST_SHUTDOWN (R468). -/
def thmLastShutdown : Nat := 0x100040
/-- THM_SENSOR (first of 72, 0x4 apart) (R468). -/
def thmSensor : Nat := 0x100100
/-- PWR_LIMIT (R468). -/
def pwrLimit : Nat := 0x110000
/-- PWR_STATUS (R468). -/
def pwrStatus : Nat := 0x110004
/-- PWR_GOVERNOR (R468). -/
def pwrGovernor : Nat := 0x110008
/-- PWR_PERIOD (R468). -/
def pwrPeriod : Nat := 0x11000c
/-- PWR_MODULE (R468). -/
def pwrModule : Nat := 0x110010
/-- PWR_LIMITED_PERIODS (R468). -/
def pwrLimitedPeriods : Nat := 0x110014
/-- PWR_OFF_LO (R468). -/
def pwrOffLo : Nat := 0x110020
/-- PWR_OFF_HI (R468). -/
def pwrOffHi : Nat := 0x110024
/-- PWR_STATE_LO (R468). -/
def pwrStateLo : Nat := 0x110028
/-- PWR_STATE_HI (R468). -/
def pwrStateHi : Nat := 0x11002c

end Off

/-- The registers of the HUB_ block. -/
def rowsHub : List RegRow :=
  [
   ⟨"HUB_RATIO_CTRL", 0x600, 0x4, 1, [⟨8, 8, .l, 1⟩, ⟨7, 0, .f, 0x10⟩]⟩,
   ⟨"HUB_RATIO_KV", 0x604, 0x4, 1, [⟨31, 16, .ro, 0⟩, ⟨15, 0, .ro, 0⟩]⟩,
   ⟨"HUB_RATIO_LATENCY", 0x608, 0x4, 1, [⟨31, 16, .ro, 0⟩, ⟨15, 0, .ro, 0⟩]⟩,
   ⟨"HUB_RATIO_LINK", 0x610, 0x4, 6, [⟨31, 16, .ro, 0⟩, ⟨15, 0, .ro, 0⟩]⟩,
   ⟨"HUB_RATIO_STATUS", 0x628, 0x4, 1, [⟨8, 8, .w1c, 0⟩, ⟨7, 2, .w1c, 0⟩, ⟨1, 1, .w1c, 0⟩, ⟨0, 0, .w1c, 0⟩]⟩,
   ⟨"HUB_RATIO_CLIPS", 0x62c, 0x4, 1, [⟨31, 0, .ro, 0⟩]⟩,
   ⟨"HUB_FW_STATUS", 0x800, 0x4, 1, [⟨15, 12, .ro, 0⟩, ⟨11, 8, .ro, 0⟩, ⟨5, 5, .w1c, 0⟩, ⟨4, 4, .w1c, 0⟩, ⟨3, 3, .w1c, 0⟩, ⟨2, 2, .ro, 0⟩, ⟨1, 1, .ro, 0⟩, ⟨0, 0, .ro, 0⟩]⟩,
   ⟨"HUB_FW_CONFIRM_LEFT", 0x804, 0x4, 1, [⟨16, 0, .ro, 0⟩]⟩,
   ⟨"HUB_FW_LAST_PAUSE", 0x808, 0x4, 1, [⟨31, 0, .ro, 0⟩]⟩,
   ⟨"HUB_FW_SELECT", 0x80c, 0x4, 1, [⟨3, 0, .l, 1⟩]⟩,
   ⟨"HUB_FW_RECORD", 0x810, 0x4, 4, [⟨31, 0, .ro, 0⟩]⟩,
   ⟨"HUB_SEC_STATUS", 0x820, 0x4, 1, [⟨7, 4, .ro, 0⟩, ⟨3, 3, .w1c, 0⟩, ⟨2, 2, .ro, 0⟩, ⟨1, 1, .ro, 0⟩, ⟨0, 0, .ro, 0⟩]⟩] ++
  [
   ⟨"HUB_SEC_COUNTER_SELECT", 0x824, 0x4, 1, [⟨3, 0, .l, 0⟩]⟩,
   ⟨"HUB_SEC_COUNTER", 0x828, 0x4, 1, [⟨31, 0, .ro, 0⟩]⟩]

/-- The registers of the PLN_ block. -/
def rowsPln : List RegRow :=
  [
   ⟨"PLN_CTRL", 0x10000, 0x4, 1, [⟨2, 2, .l, 0⟩, ⟨1, 1, .s, 0⟩, ⟨0, 0, .s, 0⟩]⟩,
   ⟨"PLN_STATUS", 0x10004, 0x4, 1, [⟨8, 8, .w1c, 0⟩, ⟨7, 7, .w1c, 0⟩, ⟨6, 6, .w1c, 0⟩, ⟨5, 5, .w1c, 0⟩, ⟨4, 4, .w1c, 0⟩, ⟨3, 3, .w1c, 0⟩, ⟨2, 2, .ro, 0⟩, ⟨1, 1, .ro, 0⟩, ⟨0, 0, .ro, 0⟩]⟩,
   ⟨"PLN_FIRING_CAP", 0x10008, 0x4, 1, [⟨26, 16, .ro, 0x400⟩, ⟨10, 0, .f, 0x400⟩]⟩,
   ⟨"PLN_OPS_LO", 0x10010, 0x4, 1, [⟨31, 0, .ro, 0⟩]⟩,
   ⟨"PLN_OPS_HI", 0x10014, 0x4, 1, [⟨31, 0, .ro, 0⟩]⟩,
   ⟨"PLN_STEPS_LO", 0x10018, 0x4, 1, [⟨31, 0, .ro, 0⟩]⟩,
   ⟨"PLN_STEPS_HI", 0x1001c, 0x4, 1, [⟨31, 0, .ro, 0⟩]⟩,
   ⟨"PLN_PHASE_OPS", 0x10020, 0x4, 4, [⟨31, 0, .ro, 0⟩]⟩,
   ⟨"PLN_SATURATED_COLUMNS", 0x10030, 0x4, 1, [⟨31, 0, .ro, 0⟩]⟩,
   ⟨"PLN_ZERO_SKIPS", 0x10034, 0x4, 1, [⟨31, 0, .ro, 0⟩]⟩,
   ⟨"PLN_RESTARTS", 0x10038, 0x4, 1, [⟨31, 0, .ro, 0⟩]⟩,
   ⟨"PLN_BUDGET", 0x10040, 0x4, 1, [⟨31, 0, .f, 0x100000⟩]⟩] ++
  [
   ⟨"PLN_BUDGET_USED", 0x10044, 0x4, 1, [⟨31, 0, .ro, 0⟩]⟩,
   ⟨"PLN_BUDGET_REJECTS", 0x10048, 0x4, 1, [⟨31, 0, .ro, 0⟩]⟩,
   ⟨"PLN_SPARES", 0x10050, 0x4, 1, [⟨31, 24, .ro, 0xc0⟩, ⟨23, 16, .ro, 0xc0⟩, ⟨15, 8, .ro, 0xc0⟩, ⟨7, 0, .ro, 0xc0⟩]⟩,
   ⟨"PLN_PROG_LIMIT", 0x10054, 0x4, 1, [⟨22, 16, .s, 0x40⟩, ⟨4, 0, .s, 0x10⟩]⟩,
   ⟨"PLN_TILE_SELECT", 0x10060, 0x4, 1, [⟨31, 31, .l, 0⟩, ⟨19, 0, .l, 0⟩]⟩,
   ⟨"PLN_TILE_INFO", 0x10064, 0x4, 1, [⟨22, 20, .ro, 0⟩, ⟨19, 0, .ro, 0⟩]⟩,
   ⟨"PLN_TILE_WEAR", 0x10068, 0x4, 1, [⟨31, 0, .ro, 0⟩]⟩,
   ⟨"PLN_TILE_EDITION", 0x1006c, 0x4, 1, [⟨31, 0, .ro, 0⟩]⟩,
   ⟨"PLN_TILE_STUCK", 0x10070, 0x4, 1, [⟨15, 0, .ro, 0⟩]⟩,
   ⟨"PLN_EDGE_STATUS", 0x10080, 0x4, 1, [⟨2, 2, .w1c, 0⟩, ⟨1, 1, .w1c, 0⟩, ⟨0, 0, .w1c, 0⟩]⟩,
   ⟨"PLN_EDGE_UNDERFLOW_BLOCKS", 0x10084, 0x4, 1, [⟨31, 0, .ro, 0⟩]⟩,
   ⟨"PLN_EDGE_CLIPPED_ELEMENTS", 0x10088, 0x4, 1, [⟨31, 0, .ro, 0⟩]⟩] ++
  [
   ⟨"PLN_EDGE_NONFINITE_ELEMENTS", 0x1008c, 0x4, 1, [⟨31, 0, .ro, 0⟩]⟩]

/-- The registers of the CUR_ block. -/
def rowsCur : List RegRow :=
  [
   ⟨"CUR_CTRL", 0x20000, 0x4, 1, [⟨7, 7, .s, 0⟩, ⟨6, 6, .f, 1⟩, ⟨5, 5, .f, 1⟩, ⟨2, 0, .f, 1⟩]⟩,
   ⟨"CUR_STATUS", 0x20004, 0x4, 1, [⟨7, 7, .w1c, 0⟩, ⟨6, 6, .w1c, 0⟩, ⟨5, 5, .w1c, 0⟩, ⟨4, 4, .w1c, 0⟩, ⟨3, 3, .w1c, 0⟩, ⟨2, 2, .w1c, 0⟩, ⟨1, 1, .ro, 0⟩, ⟨0, 0, .ro, 0⟩]⟩,
   ⟨"CUR_ACT_RATIO", 0x20008, 0x4, 1, [⟨31, 0, .f, 0x41400000⟩]⟩,
   ⟨"CUR_WEIGHT_CLIP", 0x2000c, 0x4, 1, [⟨15, 12, .f, 0xf⟩, ⟨11, 8, .f, 0xc⟩, ⟨7, 4, .f, 8⟩, ⟨3, 0, .f, 4⟩]⟩,
   ⟨"CUR_AUDIT_CTRL", 0x20010, 0x4, 1, [⟨31, 24, .f, 0x50⟩, ⟨12, 0, .f, 0x100⟩]⟩,
   ⟨"CUR_MIRROR_SIZE", 0x20014, 0x4, 1, [⟨8, 0, .s, 0x40⟩]⟩,
   ⟨"CUR_ACT_STRIPPED", 0x20020, 0x4, 1, [⟨31, 0, .ro, 0⟩]⟩,
   ⟨"CUR_ACT_CLIPPED", 0x20024, 0x4, 1, [⟨31, 0, .ro, 0⟩]⟩,
   ⟨"CUR_OVERFLOW_OPS", 0x20028, 0x4, 1, [⟨31, 0, .ro, 0⟩]⟩,
   ⟨"CUR_PASS_OPS", 0x2002c, 0x4, 3, [⟨31, 0, .ro, 0⟩]⟩,
   ⟨"CUR_SAT_RECOMPUTED", 0x20038, 0x4, 1, [⟨31, 0, .ro, 0⟩]⟩,
   ⟨"CUR_SAT_DIGITAL_TILES", 0x2003c, 0x4, 1, [⟨31, 0, .ro, 0⟩]⟩] ++
  [
   ⟨"CUR_AUDITS_LO", 0x20040, 0x4, 1, [⟨31, 0, .ro, 0⟩]⟩,
   ⟨"CUR_AUDITS_HI", 0x20044, 0x4, 1, [⟨31, 0, .ro, 0⟩]⟩,
   ⟨"CUR_AUDIT_MISSES", 0x20048, 0x4, 1, [⟨31, 0, .ro, 0⟩]⟩,
   ⟨"CUR_AUDIT_FAILURES", 0x2004c, 0x4, 1, [⟨31, 0, .ro, 0⟩]⟩,
   ⟨"CUR_AUDIT_SKIPS", 0x20050, 0x4, 1, [⟨31, 0, .ro, 0⟩]⟩,
   ⟨"CUR_AUDIT_QUEUE", 0x20054, 0x4, 1, [⟨25, 16, .ro, 0⟩, ⟨9, 0, .ro, 0⟩]⟩,
   ⟨"CUR_AUDIT_LAST", 0x20058, 0x4, 1, [⟨31, 31, .ro, 0⟩, ⟨28, 28, .ro, 0⟩, ⟨27, 20, .ro, 0⟩, ⟨19, 0, .ro, 0⟩]⟩,
   ⟨"CUR_MIRROR_USED", 0x2005c, 0x4, 1, [⟨31, 0, .ro, 0⟩]⟩,
   ⟨"CUR_MIRROR_OUT", 0x20060, 0x4, 1, [⟨31, 0, .ro, 0⟩]⟩]

/-- The registers of the WDE_ block. -/
def rowsWde : List RegRow :=
  [
   ⟨"WDE_CTRL", 0x30000, 0x4, 1, [⟨11, 8, .f, 4⟩, ⟨0, 0, .l, 0⟩]⟩,
   ⟨"WDE_STATUS", 0x30004, 0x4, 1, [⟨5, 5, .w1c, 0⟩, ⟨4, 4, .w1c, 0⟩, ⟨3, 3, .w1c, 0⟩, ⟨2, 2, .ro, 0⟩, ⟨1, 1, .ro, 0⟩, ⟨0, 0, .ro, 0⟩]⟩,
   ⟨"WDE_TERM_STORE", 0x30008, 0x4, 1, [⟨6, 0, .s, 0x10⟩]⟩,
   ⟨"WDE_TERM_PEAK", 0x3000c, 0x4, 1, [⟨15, 0, .ro, 0⟩]⟩,
   ⟨"WDE_TILES_LO", 0x30010, 0x4, 1, [⟨31, 0, .ro, 0⟩]⟩,
   ⟨"WDE_TILES_HI", 0x30014, 0x4, 1, [⟨31, 0, .ro, 0⟩]⟩,
   ⟨"WDE_BUSY_LO", 0x30018, 0x4, 1, [⟨31, 0, .ro, 0⟩]⟩,
   ⟨"WDE_BUSY_HI", 0x3001c, 0x4, 1, [⟨31, 0, .ro, 0⟩]⟩,
   ⟨"WDE_AUDIT_TILES", 0x30020, 0x4, 1, [⟨31, 0, .ro, 0⟩]⟩,
   ⟨"WDE_ACC_CLIPPED", 0x30024, 0x4, 1, [⟨31, 0, .ro, 0⟩]⟩,
   ⟨"WDE_DRAIN_WAITS", 0x30028, 0x4, 1, [⟨31, 0, .ro, 0⟩]⟩,
   ⟨"WDE_STALL_CYCLES", 0x3002c, 0x4, 1, [⟨31, 0, .ro, 0⟩]⟩] ++
  [
   ⟨"WDE_ADAPTER_WAIT", 0x30030, 0x4, 1, [⟨31, 0, .ro, 0⟩]⟩,
   ⟨"WDE_EDGE_STATUS", 0x30080, 0x4, 1, [⟨2, 2, .w1c, 0⟩, ⟨1, 1, .w1c, 0⟩, ⟨0, 0, .w1c, 0⟩]⟩,
   ⟨"WDE_EDGE_UNDERFLOW_BLOCKS", 0x30084, 0x4, 1, [⟨31, 0, .ro, 0⟩]⟩,
   ⟨"WDE_EDGE_CLIPPED_ELEMENTS", 0x30088, 0x4, 1, [⟨31, 0, .ro, 0⟩]⟩,
   ⟨"WDE_EDGE_NONFINITE_ELEMENTS", 0x3008c, 0x4, 1, [⟨31, 0, .ro, 0⟩]⟩]

/-- The registers of the CAL_ block. -/
def rowsCal : List RegRow :=
  [
   ⟨"CAL_CTRL", 0x40000, 0x4, 1, [⟨15, 11, .s, 0x10⟩, ⟨2, 2, .l, 1⟩, ⟨1, 1, .l, 1⟩, ⟨0, 0, .l, 0⟩]⟩,
   ⟨"CAL_STATUS", 0x40004, 0x4, 1, [⟨7, 7, .w1c, 0⟩, ⟨6, 6, .w1c, 0⟩, ⟨5, 5, .w1c, 0⟩, ⟨4, 4, .w1c, 0⟩, ⟨2, 2, .ro, 0⟩, ⟨1, 1, .ro, 0⟩, ⟨0, 0, .ro, 0⟩]⟩,
   ⟨"CAL_EPOCH", 0x40008, 0x4, 1, [⟨31, 0, .ro, 0⟩]⟩,
   ⟨"CAL_COUNT", 0x4000c, 0x4, 1, [⟨31, 0, .ro, 0⟩]⟩,
   ⟨"CAL_LAST_LO", 0x40010, 0x4, 1, [⟨31, 0, .ro, 0⟩]⟩,
   ⟨"CAL_LAST_HI", 0x40014, 0x4, 1, [⟨31, 0, .ro, 0⟩]⟩,
   ⟨"CAL_PERIOD", 0x40018, 0x4, 1, [⟨31, 16, .f, 0x18⟩, ⟨15, 0, .f, 0x258⟩]⟩,
   ⟨"CAL_TRIGGER", 0x4001c, 0x4, 1, [⟨15, 8, .f, 4⟩, ⟨7, 0, .f, 0x14⟩]⟩,
   ⟨"CAL_PROGRESS", 0x40020, 0x4, 1, [⟨31, 16, .ro, 0⟩, ⟨15, 0, .ro, 0⟩]⟩,
   ⟨"CAL_LIVE", 0x40024, 0x4, 1, [⟨31, 16, .ro, 0⟩, ⟨15, 0, .ro, 0⟩]⟩,
   ⟨"CAL_ATTEMPTS_FAILED", 0x40028, 0x4, 1, [⟨31, 0, .ro, 0⟩]⟩,
   ⟨"CAL_SUSPECTS", 0x4002c, 0x4, 1, [⟨31, 0, .ro, 0⟩]⟩] ++
  [
   ⟨"CAL_REFRESHES", 0x40030, 0x4, 1, [⟨31, 0, .ro, 0⟩]⟩,
   ⟨"CAL_TILE_SELECT", 0x40040, 0x4, 1, [⟨19, 0, .l, 0⟩]⟩,
   ⟨"CAL_TILE_STATUS", 0x40044, 0x4, 1, [⟨31, 30, .ro, 0⟩, ⟨29, 28, .ro, 0⟩, ⟨25, 24, .ro, 0⟩, ⟨23, 16, .ro, 0⟩, ⟨15, 8, .ro, 0⟩]⟩,
   ⟨"CAL_TILE_EPOCH", 0x40048, 0x4, 1, [⟨31, 0, .ro, 0⟩]⟩,
   ⟨"CAL_TILE_COUNT", 0x4004c, 0x4, 1, [⟨31, 0, .ro, 0⟩]⟩,
   ⟨"CAL_TILE_LAST_LO", 0x40050, 0x4, 1, [⟨31, 0, .ro, 0⟩]⟩,
   ⟨"CAL_TILE_LAST_HI", 0x40054, 0x4, 1, [⟨31, 0, .ro, 0⟩]⟩]

/-- The registers of the ATT_ block. -/
def rowsAtt : List RegRow :=
  [
   ⟨"ATT_CTRL", 0x50000, 0x4, 1, [⟨16, 16, .l, 0⟩, ⟨10, 0, .f, 0x100⟩]⟩,
   ⟨"ATT_STATUS", 0x50004, 0x4, 1, [⟨7, 7, .w1c, 0⟩, ⟨6, 6, .w1c, 0⟩, ⟨5, 5, .w1c, 0⟩, ⟨4, 4, .w1c, 0⟩, ⟨3, 3, .w1c, 0⟩, ⟨1, 1, .ro, 0⟩, ⟨0, 0, .ro, 0⟩]⟩,
   ⟨"ATT_KV_WINDOW", 0x50008, 0x4, 1, [⟨1, 0, .s, 2⟩]⟩,
   ⟨"ATT_FREE_FRAMES", 0x50010, 0x4, 1, [⟨31, 0, .ro, 0⟩]⟩,
   ⟨"ATT_QUARANTINE_FRAMES", 0x50014, 0x4, 1, [⟨31, 0, .ro, 0⟩]⟩,
   ⟨"ATT_SHARED_FRAMES", 0x50018, 0x4, 1, [⟨31, 0, .ro, 0⟩]⟩,
   ⟨"ATT_PAGES_READ_LO", 0x50020, 0x4, 1, [⟨31, 0, .ro, 0⟩]⟩,
   ⟨"ATT_PAGES_READ_HI", 0x50024, 0x4, 1, [⟨31, 0, .ro, 0⟩]⟩,
   ⟨"ATT_COW_COPIES", 0x50028, 0x4, 1, [⟨31, 0, .ro, 0⟩]⟩,
   ⟨"ATT_KV_CLIPPED", 0x5002c, 0x4, 1, [⟨31, 0, .ro, 0⟩]⟩,
   ⟨"ATT_SHARE_OVERFLOWS", 0x50030, 0x4, 1, [⟨31, 0, .ro, 0⟩]⟩,
   ⟨"ATT_EMPTY_ROWS", 0x50034, 0x4, 1, [⟨31, 0, .ro, 0⟩]⟩] ++
  [
   ⟨"ATT_COMPACTED", 0x50038, 0x4, 1, [⟨31, 0, .ro, 0⟩]⟩]

/-- The registers of the MMU_ block. -/
def rowsMmu : List RegRow :=
  [
   ⟨"MMU_STATUS", 0x60004, 0x4, 1, [⟨23, 16, .ro, 0⟩, ⟨5, 5, .w1c, 0⟩, ⟨4, 4, .w1c, 0⟩, ⟨3, 3, .w1c, 0⟩, ⟨2, 2, .w1c, 0⟩, ⟨0, 0, .ro, 0⟩]⟩,
   ⟨"MMU_ROOT_LO", 0x60100, 0x8, 16, [⟨31, 16, .f, 0⟩, ⟨0, 0, .f, 0⟩]⟩,
   ⟨"MMU_ROOT_HI", 0x60104, 0x8, 16, [⟨19, 0, .f, 0⟩]⟩,
   ⟨"MMU_BAR2_CTRL", 0x60180, 0x4, 1, [⟨3, 0, .f, 0⟩]⟩,
   ⟨"MMU_BAR2_BASE_LO", 0x60184, 0x4, 1, [⟨31, 30, .f, 0⟩]⟩,
   ⟨"MMU_BAR2_BASE_HI", 0x60188, 0x4, 1, [⟨19, 0, .f, 0⟩]⟩,
   ⟨"MMU_INV_CTRL", 0x60200, 0x4, 1, [⟨31, 31, .l, 0⟩, ⟨11, 8, .l, 0⟩, ⟨2, 0, .l, 0⟩]⟩,
   ⟨"MMU_INV_BASE_LO", 0x60204, 0x4, 1, [⟨31, 12, .l, 0⟩]⟩,
   ⟨"MMU_INV_BASE_HI", 0x60208, 0x4, 1, [⟨19, 0, .l, 0⟩]⟩,
   ⟨"MMU_INV_PAGES", 0x6020c, 0x4, 1, [⟨31, 0, .l, 0⟩]⟩,
   ⟨"MMU_FAULT_READ", 0x60300, 0x4, 1, [⟨7, 0, .l, 0⟩]⟩,
   ⟨"MMU_FAULT_LAST", 0x60304, 0x4, 1, [⟨31, 24, .ro, 0⟩, ⟨23, 0, .ro, 0⟩]⟩] ++
  [
   ⟨"MMU_FAULT_RESOLVE", 0x60308, 0x4, 1, [⟨31, 31, .l, 0⟩, ⟨23, 8, .l, 0⟩, ⟨7, 0, .l, 0⟩]⟩,
   ⟨"MMU_FAULTS", 0x60310, 0x4, 1, [⟨31, 0, .ro, 0⟩]⟩,
   ⟨"MMU_FAULT_TIMEOUTS", 0x60314, 0x4, 1, [⟨31, 0, .ro, 0⟩]⟩,
   ⟨"MMU_BAR2_FAULTS", 0x60318, 0x4, 1, [⟨31, 0, .ro, 0⟩]⟩,
   ⟨"MMU_WALKS_LO", 0x60320, 0x4, 1, [⟨31, 0, .ro, 0⟩]⟩,
   ⟨"MMU_WALKS_HI", 0x60324, 0x4, 1, [⟨31, 0, .ro, 0⟩]⟩,
   ⟨"MMU_FAULT_DATA", 0x60340, 0x4, 16, [⟨31, 0, .ro, 0⟩]⟩]

/-- The registers of the DMA_ block. -/
def rowsDma : List RegRow :=
  [
   ⟨"DMA_CTRL", 0x70000, 0x4, 1, [⟨0, 0, .l, 0⟩]⟩,
   ⟨"DMA_STATUS", 0x70004, 0x4, 1, [⟨1, 1, .w1c, 0⟩, ⟨0, 0, .w1c, 0⟩]⟩,
   ⟨"DMA_ENGINES", 0x70008, 0x4, 1, [⟨31, 16, .ro, 0⟩, ⟨15, 0, .ro, 0⟩]⟩,
   ⟨"DMA_BYTES_LO", 0x70010, 0x4, 1, [⟨31, 0, .ro, 0⟩]⟩,
   ⟨"DMA_BYTES_HI", 0x70014, 0x4, 1, [⟨31, 0, .ro, 0⟩]⟩,
   ⟨"DMA_CHECK_MISMATCHES", 0x70018, 0x4, 1, [⟨31, 0, .ro, 0⟩]⟩,
   ⟨"DMA_HOST_ERRORS", 0x7001c, 0x4, 1, [⟨31, 0, .ro, 0⟩]⟩,
   ⟨"DMA_CHECK_WAITS", 0x70020, 0x4, 1, [⟨31, 0, .ro, 0⟩]⟩]

/-- The registers of the ARB_ block. -/
def rowsArb : List RegRow :=
  [
   ⟨"ARB_SELECT", 0x80000, 0x4, 1, [⟨25, 24, .l, 0⟩, ⟨22, 16, .l, 0⟩, ⟨4, 0, .l, 0⟩]⟩,
   ⟨"ARB_REQ_CONFIG", 0x80004, 0x4, 1, [⟨30, 28, .f, 0⟩, ⟨12, 0, .f, 0⟩]⟩,
   ⟨"ARB_GRANTS_LO", 0x80008, 0x4, 1, [⟨31, 0, .ro, 0⟩]⟩,
   ⟨"ARB_GRANTS_HI", 0x8000c, 0x4, 1, [⟨15, 0, .ro, 0⟩]⟩,
   ⟨"ARB_WAIT_LO", 0x80010, 0x4, 1, [⟨31, 0, .ro, 0⟩]⟩,
   ⟨"ARB_WAIT_HI", 0x80014, 0x4, 1, [⟨15, 0, .ro, 0⟩]⟩,
   ⟨"ARB_LONGEST", 0x80018, 0x4, 1, [⟨31, 0, .ro, 0⟩]⟩,
   ⟨"ARB_CLEAR", 0x8001c, 0x4, 1, [⟨1, 1, .l, 0⟩, ⟨0, 0, .l, 0⟩]⟩,
   ⟨"ARB_WORST", 0x80020, 0x4, 1, [⟨31, 0, .ro, 0⟩]⟩,
   ⟨"ARB_WORST_WHO", 0x80024, 0x4, 1, [⟨25, 24, .ro, 0⟩, ⟨22, 16, .ro, 0⟩, ⟨4, 0, .ro, 0⟩]⟩]

/-- The registers of the MBX_ block. -/
def rowsMbx : List RegRow :=
  [
   ⟨"MBX_STATE", 0x90000, 0x4, 1, [⟨27, 24, .ro, 0⟩, ⟨23, 16, .ro, 0⟩, ⟨3, 0, .ro, 0⟩]⟩,
   ⟨"MBX_STATE_SINCE_LO", 0x90004, 0x4, 1, [⟨31, 0, .ro, 0⟩]⟩,
   ⟨"MBX_STATE_SINCE_HI", 0x90008, 0x4, 1, [⟨31, 0, .ro, 0⟩]⟩,
   ⟨"MBX_BOOT", 0x9000c, 0x4, 1, [⟨31, 0, .ro, 0⟩]⟩,
   ⟨"MBX_STATUS", 0x90010, 0x4, 1, [⟨4, 4, .w1c, 0⟩, ⟨3, 3, .w1c, 0⟩, ⟨2, 2, .w1c, 0⟩, ⟨1, 1, .w1c, 0⟩, ⟨0, 0, .w1c, 0⟩]⟩,
   ⟨"MBX_JOURNAL_NEXT_LO", 0x90020, 0x4, 1, [⟨31, 0, .ro, 0⟩]⟩,
   ⟨"MBX_JOURNAL_NEXT_HI", 0x90024, 0x4, 1, [⟨31, 0, .ro, 0⟩]⟩,
   ⟨"MBX_BOOT_DISCARDS", 0x90028, 0x4, 1, [⟨31, 0, .ro, 0⟩]⟩,
   ⟨"MBX_CTRL_ADMIN", 0x90100, 0x20, 1, [⟨31, 31, .l, 0⟩, ⟨4, 0, .ro, 6⟩]⟩,
   ⟨"MBX_CTRL", 0x90120, 0x20, 16, [⟨31, 31, .l, 0⟩, ⟨4, 0, .s, 0⟩]⟩,
   ⟨"MBX_CQ_BASE_LO", 0x90104, 0x20, 17, [⟨31, 12, .s, 0⟩]⟩,
   ⟨"MBX_CQ_BASE_HI", 0x90108, 0x20, 17, [⟨31, 0, .s, 0⟩]⟩] ++
  [
   ⟨"MBX_CQ_HEAD", 0x9010c, 0x20, 17, [⟨31, 0, .l, 0⟩]⟩,
   ⟨"MBX_CQ_TAIL", 0x90110, 0x20, 17, [⟨31, 0, .ro, 0⟩]⟩,
   ⟨"MBX_SLOTS", 0x90114, 0x20, 17, [⟨31, 16, .ro, 0⟩, ⟨12, 8, .ro, 0⟩, ⟨4, 0, .ro, 0⟩]⟩,
   ⟨"MBX_EXPECTED", 0x90118, 0x20, 17, [⟨31, 0, .ro, 0⟩]⟩,
   ⟨"MBX_OUTSTANDING", 0x9011c, 0x20, 17, [⟨16, 0, .ro, 0⟩]⟩]

/-- The registers of the GRF_ block. -/
def rowsGrf : List RegRow :=
  [
   ⟨"GRF_CTRL", 0xa0000, 0x4, 1, [⟨10, 8, .f, 4⟩, ⟨0, 0, .l, 0⟩]⟩,
   ⟨"GRF_STATUS", 0xa0004, 0x4, 1, [⟨6, 6, .ro, 0⟩, ⟨5, 5, .w1c, 0⟩, ⟨4, 4, .w1c, 0⟩, ⟨3, 3, .w1c, 0⟩, ⟨2, 2, .w1c, 0⟩, ⟨0, 0, .ro, 0⟩]⟩,
   ⟨"GRF_FRAME", 0xa0008, 0x4, 1, [⟨27, 16, .ro, 0x32⟩, ⟨11, 0, .l, 0x32⟩]⟩,
   ⟨"GRF_FRAME_AT_LO", 0xa0010, 0x4, 1, [⟨31, 0, .ro, 0⟩]⟩,
   ⟨"GRF_FRAME_AT_HI", 0xa0014, 0x4, 1, [⟨31, 0, .ro, 0⟩]⟩,
   ⟨"GRF_TICK_LO", 0xa0018, 0x4, 1, [⟨31, 0, .ro, 0⟩]⟩,
   ⟨"GRF_TICK_HI", 0xa001c, 0x4, 1, [⟨31, 0, .ro, 0⟩]⟩,
   ⟨"GRF_TICK_TIME_LO", 0xa0020, 0x4, 1, [⟨31, 0, .ro, 0⟩]⟩,
   ⟨"GRF_TICK_TIME_HI", 0xa0024, 0x4, 1, [⟨31, 0, .ro, 0⟩]⟩,
   ⟨"GRF_OVERRUNS", 0xa0028, 0x4, 1, [⟨31, 0, .ro, 0⟩]⟩,
   ⟨"GRF_FRAME_LIMITS", 0xa002c, 0x4, 1, [⟨31, 0, .ro, 0⟩]⟩,
   ⟨"GRF_PREEMPTIONS", 0xa0030, 0x4, 1, [⟨31, 0, .ro, 0⟩]⟩] ++
  [
   ⟨"GRF_TASKS_LO", 0xa0038, 0x4, 1, [⟨31, 0, .ro, 0⟩]⟩,
   ⟨"GRF_TASKS_HI", 0xa003c, 0x4, 1, [⟨31, 0, .ro, 0⟩]⟩,
   ⟨"GRF_SLOT_STATE", 0xa0100, 0x10, 16, [⟨31, 16, .ro, 0⟩, ⟨15, 12, .ro, 0⟩, ⟨9, 8, .ro, 0⟩, ⟨6, 4, .ro, 0⟩, ⟨2, 0, .ro, 0⟩]⟩,
   ⟨"GRF_SLOT_DONE", 0xa0104, 0x10, 16, [⟨16, 0, .ro, 0⟩]⟩,
   ⟨"GRF_SLOT_TASKS", 0xa0108, 0x10, 16, [⟨16, 0, .ro, 0⟩]⟩,
   ⟨"GRF_SLOT_LABEL", 0xa010c, 0x10, 16, [⟨31, 0, .ro, 0⟩]⟩]

/-- The registers of the SRV_ block. -/
def rowsSrv : List RegRow :=
  [
   ⟨"SRV_CTRL", 0xb0000, 0x4, 1, [⟨2, 2, .l, 1⟩, ⟨1, 1, .f, 1⟩, ⟨0, 0, .l, 0⟩]⟩,
   ⟨"SRV_STATUS", 0xb0004, 0x4, 1, [⟨8, 8, .w1c, 0⟩, ⟨7, 7, .w1c, 0⟩, ⟨6, 6, .w1c, 0⟩, ⟨5, 5, .w1c, 0⟩, ⟨4, 4, .w1c, 0⟩, ⟨3, 3, .w1c, 0⟩, ⟨2, 2, .w1c, 0⟩, ⟨1, 1, .w1c, 0⟩, ⟨0, 0, .ro, 0⟩]⟩,
   ⟨"SRV_TEMPLATE_LO", 0xb0010, 0x8, 4, [⟨31, 6, .f, 0⟩, ⟨0, 0, .f, 0⟩]⟩,
   ⟨"SRV_TEMPLATE_HI", 0xb0014, 0x8, 4, [⟨19, 0, .f, 0⟩]⟩,
   ⟨"SRV_PREFILL", 0xb0030, 0x4, 1, [⟨10, 0, .f, 0x10⟩]⟩,
   ⟨"SRV_COMPOSE", 0xb0034, 0x4, 1, [⟨16, 0, .f, 0x1f4⟩]⟩,
   ⟨"SRV_PARK", 0xb0038, 0x4, 1, [⟨31, 16, .f, 0x40⟩, ⟨15, 0, .f, 0x7d0⟩]⟩,
   ⟨"SRV_VOCAB", 0xb003c, 0x4, 1, [⟨18, 0, .s, 0x20000⟩]⟩,
   ⟨"SRV_EDITION", 0xb0040, 0x4, 1, [⟨31, 0, .ro, 0⟩]⟩,
   ⟨"SRV_REQUESTS", 0xb0044, 0x4, 1, [⟨28, 16, .ro, 0⟩, ⟨12, 0, .ro, 0⟩]⟩,
   ⟨"SRV_TOKENS_LO", 0xb0050, 0x4, 1, [⟨31, 0, .ro, 0⟩]⟩,
   ⟨"SRV_TOKENS_HI", 0xb0054, 0x4, 1, [⟨31, 0, .ro, 0⟩]⟩] ++
  [
   ⟨"SRV_SPEC_STEPS", 0xb0058, 0x4, 1, [⟨31, 0, .ro, 0⟩]⟩,
   ⟨"SRV_SPEC_ACCEPTED", 0xb005c, 0x4, 1, [⟨31, 0, .ro, 0⟩]⟩,
   ⟨"SRV_SPEC_COLLAPSES", 0xb0060, 0x4, 1, [⟨31, 0, .ro, 0⟩]⟩,
   ⟨"SRV_SPEC_PROBES", 0xb0064, 0x4, 1, [⟨31, 0, .ro, 0⟩]⟩,
   ⟨"SRV_RING_STALLS", 0xb0068, 0x4, 1, [⟨31, 0, .ro, 0⟩]⟩,
   ⟨"SRV_REISSUES", 0xb006c, 0x4, 1, [⟨31, 0, .ro, 0⟩]⟩,
   ⟨"SRV_UNKNOWN_HANDOFFS", 0xb0070, 0x4, 1, [⟨31, 0, .ro, 0⟩]⟩,
   ⟨"SRV_LATE_STARTS", 0xb0074, 0x4, 1, [⟨31, 0, .ro, 0⟩]⟩,
   ⟨"SRV_RUN_FAILURES", 0xb0078, 0x4, 1, [⟨31, 0, .ro, 0⟩]⟩,
   ⟨"SRV_REQUEST_SELECT", 0xb0080, 0x4, 1, [⟨31, 0, .l, 0⟩]⟩,
   ⟨"SRV_REQUEST_STATE", 0xb0084, 0x4, 1, [⟨31, 20, .ro, 0⟩, ⟨19, 16, .ro, 0⟩, ⟨8, 8, .ro, 0⟩, ⟨5, 4, .ro, 0⟩, ⟨3, 3, .ro, 0⟩, ⟨2, 0, .ro, 0⟩]⟩,
   ⟨"SRV_REQUEST_POSITION", 0xb0088, 0x4, 1, [⟨31, 0, .ro, 0⟩]⟩] ++
  [
   ⟨"SRV_REQUEST_TOKENS", 0xb008c, 0x4, 1, [⟨31, 0, .ro, 0⟩]⟩,
   ⟨"SRV_REQUEST_EDITION", 0xb0090, 0x4, 1, [⟨31, 0, .ro, 0⟩]⟩,
   ⟨"SRV_REQUEST_END", 0xb0094, 0x4, 1, [⟨15, 0, .ro, 0⟩]⟩]

/-- The registers of the LNK_ block. -/
def rowsLnk : List RegRow :=
  [
   ⟨"LNK_CTRL", 0xc0000, 0x4, 1, [⟨8, 8, .f, 0⟩, ⟨5, 0, .l, 0x3f⟩]⟩,
   ⟨"LNK_STATUS", 0xc0004, 0x4, 1, [⟨10, 10, .w1c, 0⟩, ⟨9, 9, .ro, 0⟩, ⟨8, 8, .w1c, 0⟩, ⟨7, 7, .w1c, 0⟩, ⟨6, 6, .w1c, 0⟩, ⟨5, 5, .w1c, 0⟩, ⟨4, 4, .w1c, 0⟩, ⟨3, 3, .w1c, 0⟩, ⟨1, 1, .ro, 0⟩, ⟨0, 0, .ro, 0⟩]⟩,
   ⟨"LNK_FABRIC", 0xc0008, 0x4, 1, [⟨26, 24, .ro, 0⟩, ⟨22, 20, .ro, 0⟩, ⟨18, 16, .ro, 0⟩, ⟨15, 0, .ro, 0⟩]⟩,
   ⟨"LNK_LEADER", 0xc000c, 0x4, 1, [⟨31, 24, .ro, 0⟩, ⟨23, 16, .ro, 0⟩, ⟨15, 0, .ro, 0xffff⟩]⟩,
   ⟨"LNK_TIMEOUT", 0xc0010, 0x4, 1, [⟨31, 0, .s, 0x7d0⟩]⟩,
   ⟨"LNK_DIGEST_FRAMES", 0xc0014, 0x4, 1, [⟨15, 0, .f, 0x3e8⟩]⟩,
   ⟨"LNK_SYNC", 0xc0018, 0x4, 1, [⟨31, 29, .ro, 0⟩, ⟨15, 0, .ro, 0⟩]⟩,
   ⟨"LNK_CUT_MAP_LO", 0xc0020, 0x4, 1, [⟨31, 0, .ro, 0⟩]⟩,
   ⟨"LNK_CUT_MAP_HI", 0xc0024, 0x4, 1, [⟨31, 0, .ro, 0⟩]⟩,
   ⟨"LNK_COLL_ABORTS", 0xc0030, 0x4, 1, [⟨31, 0, .ro, 0⟩]⟩,
   ⟨"LNK_DIGEST_MISMATCHES", 0xc0034, 0x4, 1, [⟨31, 0, .ro, 0⟩]⟩,
   ⟨"LNK_E2E_REPLAYS", 0xc0038, 0x4, 1, [⟨31, 0, .ro, 0⟩]⟩] ++
  [
   ⟨"LNK_DUPLICATES", 0xc003c, 0x4, 1, [⟨31, 0, .ro, 0⟩]⟩,
   ⟨"LNK_COLL_CLIPPED", 0xc0040, 0x4, 1, [⟨31, 0, .ro, 0⟩]⟩,
   ⟨"LNK_COLL_NONFINITE", 0xc0044, 0x4, 1, [⟨31, 0, .ro, 0⟩]⟩,
   ⟨"LNK_RETRY_REFUSALS", 0xc0048, 0x4, 1, [⟨31, 0, .ro, 0⟩]⟩,
   ⟨"LNK_HOP_DROPS", 0xc004c, 0x4, 1, [⟨31, 0, .ro, 0⟩]⟩,
   ⟨"LNK_BAD_PACKETS", 0xc0050, 0x4, 1, [⟨31, 0, .ro, 0⟩]⟩,
   ⟨"LNK_PEER_SELECT", 0xc0080, 0x4, 1, [⟨2, 0, .l, 0⟩]⟩,
   ⟨"LNK_PEER_SERIAL", 0xc0084, 0x4, 4, [⟨31, 0, .ro, 0⟩]⟩,
   ⟨"LNK_PORT_STATE", 0xc0100, 0x40, 6, [⟨31, 28, .ro, 0⟩, ⟨23, 16, .ro, 0⟩, ⟨15, 8, .ro, 0⟩, ⟨7, 4, .ro, 0⟩, ⟨3, 3, .ro, 0⟩, ⟨2, 0, .ro, 0⟩]⟩,
   ⟨"LNK_PORT_PEER", 0xc0104, 0x40, 6, [⟨18, 16, .ro, 0⟩, ⟨15, 0, .ro, 0xffff⟩]⟩,
   ⟨"LNK_PORT_TX_LO", 0xc0108, 0x40, 6, [⟨31, 0, .ro, 0⟩]⟩,
   ⟨"LNK_PORT_TX_HI", 0xc010c, 0x40, 6, [⟨31, 0, .ro, 0⟩]⟩] ++
  [
   ⟨"LNK_PORT_RX_LO", 0xc0110, 0x40, 6, [⟨31, 0, .ro, 0⟩]⟩,
   ⟨"LNK_PORT_RX_HI", 0xc0114, 0x40, 6, [⟨31, 0, .ro, 0⟩]⟩,
   ⟨"LNK_PORT_CORRECTED", 0xc0118, 0x40, 6, [⟨31, 0, .ro, 0⟩]⟩,
   ⟨"LNK_PORT_NAKS", 0xc011c, 0x40, 6, [⟨31, 0, .ro, 0⟩]⟩,
   ⟨"LNK_PORT_FAILURES", 0xc0120, 0x40, 6, [⟨31, 0, .ro, 0⟩]⟩]

/-- The registers of the EVR_ block. -/
def rowsEvr : List RegRow :=
  [
   ⟨"EVR_CTRL", 0xd0000, 0x4, 1, [⟨16, 16, .l, 0⟩, ⟨15, 0, .l, 0x1000⟩]⟩,
   ⟨"EVR_STATUS", 0xd0004, 0x4, 1, [⟨3, 3, .w1c, 0⟩, ⟨2, 2, .w1c, 0⟩, ⟨1, 1, .w1c, 0⟩, ⟨0, 0, .ro, 0⟩]⟩,
   ⟨"EVR_COUNT", 0xd0008, 0x4, 1, [⟨16, 0, .ro, 0⟩]⟩,
   ⟨"EVR_NEXT_SEQUENCE", 0xd000c, 0x4, 1, [⟨31, 0, .ro, 0⟩]⟩,
   ⟨"EVR_LOST", 0xd0010, 0x4, 1, [⟨31, 0, .ro, 0⟩]⟩,
   ⟨"EVR_CURSOR", 0xd0014, 0x4, 1, [⟨15, 0, .l, 0⟩]⟩,
   ⟨"EVR_CPER_BASE_LO", 0xd0020, 0x4, 1, [⟨31, 12, .s, 0⟩, ⟨0, 0, .s, 0⟩]⟩,
   ⟨"EVR_CPER_BASE_HI", 0xd0024, 0x4, 1, [⟨31, 0, .s, 0⟩]⟩,
   ⟨"EVR_CPER_CTRL", 0xd0028, 0x4, 1, [⟨3, 0, .s, 4⟩]⟩,
   ⟨"EVR_CPER_HEAD", 0xd002c, 0x4, 1, [⟨31, 0, .l, 0⟩]⟩,
   ⟨"EVR_CPER_TAIL", 0xd0030, 0x4, 1, [⟨31, 0, .ro, 0⟩]⟩,
   ⟨"EVR_CPER_LOST", 0xd0034, 0x4, 1, [⟨31, 0, .ro, 0⟩]⟩] ++
  [
   ⟨"EVR_CPER_QUEUED", 0xd0038, 0x4, 1, [⟨6, 0, .ro, 0⟩]⟩,
   ⟨"EVR_CE_HBM", 0xd0040, 0x4, 1, [⟨31, 0, .ro, 0⟩]⟩,
   ⟨"EVR_CE_NEAR", 0xd0044, 0x4, 1, [⟨31, 0, .ro, 0⟩]⟩,
   ⟨"EVR_CE_SRAM", 0xd0048, 0x4, 1, [⟨31, 0, .ro, 0⟩]⟩,
   ⟨"EVR_CE_BUS", 0xd004c, 0x4, 1, [⟨31, 0, .ro, 0⟩]⟩,
   ⟨"EVR_UE_COUNT", 0xd0050, 0x4, 1, [⟨31, 0, .ro, 0⟩]⟩,
   ⟨"EVR_LOGIC_CHECKS", 0xd0054, 0x4, 1, [⟨31, 0, .ro, 0⟩]⟩]

/-- The registers of the CRC_ block. -/
def rowsCrc : List RegRow :=
  [
   ⟨"CRC_CTRL", 0xe0100, 0x40, 8, [⟨10, 10, .s, 1⟩, ⟨9, 9, .s, 1⟩, ⟨8, 8, .s, 1⟩, ⟨6, 0, .s, 0x20⟩]⟩,
   ⟨"CRC_CMD", 0xe0104, 0x40, 8, [⟨0, 0, .l, 0⟩]⟩,
   ⟨"CRC_POLY_LO", 0xe0108, 0x40, 8, [⟨31, 0, .s, 0x1edc6f41⟩]⟩,
   ⟨"CRC_POLY_HI", 0xe010c, 0x40, 8, [⟨31, 0, .s, 0⟩]⟩,
   ⟨"CRC_INIT_LO", 0xe0110, 0x40, 8, [⟨31, 0, .s, 0xffffffff⟩]⟩,
   ⟨"CRC_INIT_HI", 0xe0114, 0x40, 8, [⟨31, 0, .s, 0⟩]⟩,
   ⟨"CRC_VALUE_LO", 0xe0118, 0x40, 8, [⟨31, 0, .l, 0xffffffff⟩]⟩,
   ⟨"CRC_VALUE_HI", 0xe011c, 0x40, 8, [⟨31, 0, .l, 0⟩]⟩,
   ⟨"CRC_RESULT_LO", 0xe0120, 0x40, 8, [⟨31, 0, .ro, 0⟩]⟩,
   ⟨"CRC_RESULT_HI", 0xe0124, 0x40, 8, [⟨31, 0, .ro, 0⟩]⟩,
   ⟨"CRC_FEED_B", 0xe0128, 0x40, 8, [⟨31, 0, .l, 0⟩]⟩,
   ⟨"CRC_FEED_H", 0xe012c, 0x40, 8, [⟨31, 0, .l, 0⟩]⟩] ++
  [
   ⟨"CRC_FEED_W", 0xe0130, 0x40, 8, [⟨31, 0, .l, 0⟩]⟩,
   ⟨"CRC_STATUS", 0xe0134, 0x40, 8, [⟨3, 3, .w1c, 0⟩, ⟨2, 2, .w1c, 0⟩, ⟨1, 1, .ro, 0⟩, ⟨0, 0, .ro, 0⟩]⟩]

/-- The registers of the HKA_ block. -/
def rowsHka : List RegRow :=
  [
   ⟨"HKA_STATUS", 0xf0004, 0x4, 1, [⟨5, 5, .w1c, 0⟩, ⟨4, 4, .w1c, 0⟩, ⟨3, 3, .w1c, 0⟩, ⟨1, 1, .ro, 0⟩, ⟨0, 0, .ro, 0⟩]⟩,
   ⟨"HKA_OPEN_CTRL", 0xf0008, 0x4, 1, [⟨31, 20, .f, 0x800⟩, ⟨19, 10, .f, 0xc8⟩, ⟨7, 0, .f, 0x10⟩]⟩,
   ⟨"HKA_URGENT", 0xf0010, 0x4, 1, [⟨31, 31, .l, 0⟩, ⟨8, 8, .l, 0⟩, ⟨5, 0, .l, 0⟩]⟩,
   ⟨"HKA_URGENT_RESULT", 0xf0014, 0x4, 2, [⟨31, 31, .ro, 0⟩, ⟨25, 16, .ro, 0⟩, ⟨11, 0, .ro, 0⟩]⟩,
   ⟨"HKA_TEST_DAC", 0xf001c, 0x4, 1, [⟨31, 31, .l, 0⟩, ⟨20, 16, .l, 0⟩, ⟨9, 0, .l, 0⟩]⟩,
   ⟨"HKA_LIMIT_EVENTS", 0xf0020, 0x4, 1, [⟨31, 0, .ro, 0⟩]⟩,
   ⟨"HKA_OPEN_EVENTS", 0xf0024, 0x4, 1, [⟨31, 0, .ro, 0⟩]⟩,
   ⟨"HKA_SEQ_FIXED", 0xf0100, 0x10, 4, [⟨31, 31, .ro, 0⟩, ⟨30, 29, .ro, 0⟩, ⟨28, 27, .ro, 0⟩, ⟨26, 24, .ro, 0⟩, ⟨21, 16, .ro, 0⟩, ⟨15, 0, .ro, 0x3e8⟩]⟩,
   ⟨"HKA_SEQ", 0xf0140, 0x10, 28, [⟨31, 31, .l, 0⟩, ⟨30, 29, .l, 0⟩, ⟨28, 27, .l, 0⟩, ⟨26, 24, .l, 0⟩, ⟨21, 16, .l, 0⟩, ⟨15, 0, .l, 0x3e8⟩]⟩,
   ⟨"HKA_LIMIT_FIXED", 0xf0104, 0x10, 4, [⟨27, 16, .ro, 0xfff⟩, ⟨11, 0, .ro, 0⟩]⟩,
   ⟨"HKA_LIMIT", 0xf0144, 0x10, 28, [⟨27, 16, .l, 0xfff⟩, ⟨11, 0, .l, 0⟩]⟩,
   ⟨"HKA_RESULT", 0xf0108, 0x10, 32, [⟨31, 31, .ro, 0⟩, ⟨30, 30, .ro, 0⟩, ⟨29, 29, .ro, 0⟩, ⟨28, 28, .ro, 0⟩, ⟨27, 16, .ro, 0⟩, ⟨11, 0, .ro, 0⟩]⟩]

/-- The registers of the THM_ block. -/
def rowsThm : List RegRow :=
  [
   ⟨"THM_CTRL", 0x100000, 0x4, 1, [⟨3, 0, .f, 8⟩]⟩,
   ⟨"THM_STATUS", 0x100004, 0x4, 1, [⟨8, 8, .w1c, 0⟩, ⟨7, 7, .w1c, 0⟩, ⟨6, 4, .w1c, 0⟩, ⟨3, 1, .w1c, 0⟩]⟩,
   ⟨"THM_ACTIVE", 0x100008, 0x4, 1, [⟨5, 3, .ro, 0⟩, ⟨2, 0, .ro, 0⟩]⟩,
   ⟨"THM_LEVELS_HUB", 0x100010, 0x4, 1, [⟨23, 16, .ro, 0x6e⟩, ⟨15, 8, .f, 0x64⟩, ⟨7, 0, .f, 0x5a⟩]⟩,
   ⟨"THM_LEVELS_PLANE", 0x100014, 0x4, 1, [⟨23, 16, .ro, 0x64⟩, ⟨15, 8, .f, 0x58⟩, ⟨7, 0, .f, 0x50⟩]⟩,
   ⟨"THM_LEVELS_HBM", 0x100018, 0x4, 1, [⟨23, 16, .ro, 0x69⟩, ⟨15, 8, .f, 0x5f⟩, ⟨7, 0, .f, 0x55⟩]⟩,
   ⟨"THM_LAST_SHUTDOWN", 0x100040, 0x4, 1, [⟨31, 31, .ro, 0⟩, ⟨22, 16, .ro, 0⟩, ⟨15, 0, .ro, 0⟩]⟩,
   ⟨"THM_SENSOR", 0x100100, 0x4, 72, [⟨19, 19, .ro, 0⟩, ⟨18, 18, .ro, 0⟩, ⟨17, 17, .ro, 0⟩, ⟨16, 16, .ro, 0⟩, ⟨15, 0, .ro, 0⟩]⟩]

/-- The registers of the PWR_ block. -/
def rowsPwr : List RegRow :=
  [
   ⟨"PWR_LIMIT", 0x110000, 0x4, 1, [⟨25, 16, .ro, 0x3b6⟩, ⟨9, 0, .f, 0x3b6⟩]⟩,
   ⟨"PWR_STATUS", 0x110004, 0x4, 1, [⟨4, 4, .w1c, 0⟩, ⟨3, 3, .w1c, 0⟩, ⟨1, 1, .ro, 0⟩, ⟨0, 0, .ro, 0⟩]⟩,
   ⟨"PWR_GOVERNOR", 0x110008, 0x4, 1, [⟨26, 16, .ro, 0x400⟩, ⟨11, 8, .ro, 0⟩, ⟨3, 0, .ro, 0⟩]⟩,
   ⟨"PWR_PERIOD", 0x11000c, 0x4, 1, [⟨9, 0, .f, 0x14⟩]⟩,
   ⟨"PWR_MODULE", 0x110010, 0x4, 1, [⟨31, 16, .ro, 0⟩, ⟨15, 0, .ro, 0⟩]⟩,
   ⟨"PWR_LIMITED_PERIODS", 0x110014, 0x4, 1, [⟨31, 0, .ro, 0⟩]⟩,
   ⟨"PWR_OFF_LO", 0x110020, 0x4, 1, [⟨31, 0, .l, 0⟩]⟩,
   ⟨"PWR_OFF_HI", 0x110024, 0x4, 1, [⟨17, 0, .l, 0⟩]⟩,
   ⟨"PWR_STATE_LO", 0x110028, 0x4, 1, [⟨31, 0, .ro, 0⟩]⟩,
   ⟨"PWR_STATE_HI", 0x11002c, 0x4, 1, [⟨17, 0, .ro, 0⟩]⟩]

/-- The register rows of the block at index `b` (R245). -/
def blockRows : Nat → List RegRow
  | 0 => rowsHub
  | 1 => rowsPln
  | 2 => rowsCur
  | 3 => rowsWde
  | 4 => rowsCal
  | 5 => rowsAtt
  | 6 => rowsMmu
  | 7 => rowsDma
  | 8 => rowsArb
  | 9 => rowsMbx
  | 10 => rowsGrf
  | 11 => rowsSrv
  | 12 => rowsLnk
  | 13 => rowsEvr
  | 14 => rowsCrc
  | 15 => rowsHka
  | 16 => rowsThm
  | 17 => rowsPwr
  | _ => []

/-- The row that holds the register at BAR0 offset `off`. -/
def rowOf (off : Nat) : Option RegRow :=
  (blockRows (off / 0x10000)).find? fun r =>
    decide (r.base ≤ off) && decide ((off - r.base) % r.stride = 0) && decide ((off - r.base) / r.stride < r.count)

/-- The fields of the register at `off`; none where the map has no register there. -/
def fieldsOf (off : Nat) : List Field :=
  match rowOf off with
  | some r => r.fields
  | none => []

/-- The mask of a field's bits. -/
def Field.mask (f : Field) : Nat := (2 ^ (f.hi + 1 - f.lo) - 1) * 2 ^ f.lo

/-- The value at reset of the register at `off` (R10, the Reset column). -/
def resetOf (off : Nat) : Word :=
  BitVec.ofNat 32 ((fieldsOf off).foldl (fun a f => a + f.reset * 2 ^ f.lo) 0)

end Sys2Proof.Machine
end

