-- ==== Sys2Proof/Machine/State.lean ====
section
/-! DEFINITION. The state of the module: every register, memory, queue, buffer, record, mode and pin the manual gives
it, as plain data, and the state right after reset. Each field's docstring names the rule that gives it. -/

namespace Sys2Proof.Machine

/-- Bring-up states (R266). -/
inductive Bringup where
  | rom | fw | hold | link | digital | coarse | ready | recovery
  deriving DecidableEq, Repr

/-- Tile states (R85). -/
inductive TileState where
  | free | programming | uncalibrated | ready | suspect | retired | spare | digital
  deriving DecidableEq, Repr

/-- A state change of a logical tile that takes effect only at a frame tick (R86, R98, R348). -/
inductive TileChange where
  /-- READY to SUSPECT after a failed audit or for saturation (R121, R127). -/
  | toSuspect
  /-- READY to SUSPECT after a failed calibration cycle (R164). -/
  | calSuspect
  /-- READY to SUSPECT, and a refresh program (R171, R402). -/
  | refresh
  /-- SUSPECT to READY, with the new bank (R165). -/
  | toReady
  /-- The tile becomes DIGITAL (R98, R348, R353). -/
  | toDigital
  /-- The tile is remapped to the physical tile prepared for it (R98, R353). -/
  | remap
  /-- The master copy is damaged (R402). -/
  | damaged
  deriving DecidableEq, Repr

/-- States of a KV frame (R199). -/
inductive FrameState where
  | free | priv | shared | quarantine
  deriving DecidableEq, Repr

/-- Progress of one task of a run (R280, R281, R289). -/
inductive TaskSt where
  /-- Predecessors are left. -/
  | waiting
  /-- Ready and not issued. -/
  | ready
  /-- Issued to a unit, its body not yet checked. -/
  | issued
  /-- Running on its unit. -/
  | running
  /-- Saved at a pre-emption. -/
  | saved
  /-- The unit has finished; the completion is not yet counted. -/
  | ended
  /-- Complete. -/
  | complete
  deriving DecidableEq, Repr

/-- States of a graph slot (R298). -/
inductive SlotState where
  | empty | loaded | waiting | running | stopping
  deriving DecidableEq, Repr

/-- States of a tracked request (R302). -/
inductive ReqState where
  | prefill | decode | ended
  deriving DecidableEq, Repr

/-- States of an SW-Link port (R358). -/
inductive PortState where
  | off | listen | training | check | up | isolated | down
  deriving DecidableEq, Repr

/-- One event record of the recorder, as data; its 64-byte image is `EventRec.bytes` (R408). -/
structure EventRec where
  /-- SEQUENCE, 32 bits (R408). -/
  seq : Nat := 0
  /-- CODE, 16 bits (R409) (R408). -/
  code : Nat := 0
  /-- TIMESTAMP, 64 bits (R408). -/
  ts : Nat := 0
  /-- STATUS, 16 bits (R408). -/
  status : Nat := 0
  /-- TASK, 16 bits (R408). -/
  task : Nat := 0xFFFF
  /-- REQUEST, 32 bits (R408). -/
  request : Nat := 0xFFFFFFFF
  /-- ARG0, 64 bits (R408). -/
  arg0 : Nat := 0
  /-- ARG1, 64 bits (R408). -/
  arg1 : Nat := 0
  /-- ARG2, 64 bits (R408). -/
  arg2 : Nat := 0
  /-- BOOT, 32 bits (R408). -/
  boot : Nat := 0
  /-- GRAPH, 8 bits (R408). -/
  graph : Nat := 0xFF
  deriving DecidableEq, Repr

/-- One CPER record, as data: the fields of the Olmoa section, the severity and the Record ID (R405, R406). -/
structure CperRec where
  /-- Error Severity (R407). -/
  severity : Nat := 0
  /-- Record ID (R405). -/
  recordId : Nat := 0
  /-- SOURCE, 8 bits (R406). -/
  source : Nat := 0
  /-- OUTCOME, 8 bits (R406). -/
  outcome : Nat := 0
  /-- STATUS, 16 bits (R406). -/
  status : Nat := 0
  /-- TEMPERATURE, 0.25 °C, 16 bits (R406). -/
  temperature : Int := 0
  /-- TIMESTAMP, 64 bits (R406). -/
  ts : Nat := 0
  /-- ADDRESS, 64 bits (R406). -/
  address : Nat := 0
  /-- EPOCH, 32 bits (R406). -/
  epoch : Nat := 0
  /-- TILE, 20 bits (R406). -/
  tile : Nat := 0xFFFFF
  /-- SYNDROME, 24 bits (R406). -/
  syndrome : Nat := 0
  /-- SYMBOL, 8 bits (R406). -/
  symbol : Nat := 0xFF
  /-- UNIT_CLASS, 8 bits (R406). -/
  unitClass : Nat := 0
  /-- UNIT_INDEX, 8 bits (R406). -/
  unitIndex : Nat := 0
  /-- LOCATION, 16 bits (R406). -/
  location : Nat := 0xFFFF
  /-- REQUEST, 32 bits (R406). -/
  request : Nat := 0xFFFFFFFF
  /-- GRAPH, 8 bits (R406). -/
  graph : Nat := 0xFF
  /-- TASK, 16 bits (R406). -/
  task : Nat := 0xFFFF
  /-- OCCURRENCES, 32 bits (R406). -/
  occurrences : Nat := 1
  /-- EVENT, 32 bits (R406). -/
  event : Nat := 0
  /-- DEVICE_ID, 16 bits (R406). -/
  deviceId : Nat := 0
  /-- EDITION, 32 bits (R406). -/
  edition : Nat := 0
  deriving DecidableEq, Repr

/-- The event recorder and the CPER queue (R400, R404, R408). -/
structure Evr where
  /-- records held, in index order, at most 65,536 (R408). -/
  records : List EventRec := []
  /-- SEQUENCE of the next record, 32 bits (R408). -/
  nextSeq : Nat := 0
  /-- device queue of CPER records, at most 64 (R404). -/
  queue : List CperRec := []
  /-- the newest CPER records since power-up, newest first, at most 64 (GET_CPER) (R482). -/
  recent : List CperRec := []
  /-- physical word addresses of the last 4,096 distinct words corrected (R400). -/
  corrected : List Nat := []
  /-- detections of each word since power-up (R406). -/
  detections : List (Nat × Nat) := []
  /-- time of the last LOGIC_CHECK of each unit class (R420). -/
  logicAt : List (Nat × Nat) := []
  /-- words found uncorrectable in this frame (R401). -/
  ueFrame : List Nat := []
  /-- MBX_BOOT count, kept in flash, 32 bits (R270). -/
  boot : Nat := 0
  /-- CPER records made since manufacture, kept in flash (R405). -/
  cperIds : Nat := 0
  /-- Damson and the checker are halted until the warm reset (R403). -/
  fatal : Bool := false
  deriving DecidableEq, Repr

/-- One entry of a tile's weight-outlier table (R114). -/
structure OutlierEntry where
  /-- STUCK, 1 bit (R114). -/
  stuck : Bool := false
  /-- ROW, 11 bits (R114). -/
  row : Nat := 0
  /-- COLUMN, 10 bits (R114). -/
  col : Nat := 0
  /-- MASTER, 5 bits (R114). -/
  master : Int := 0
  /-- ACHIEVED, 5 bits (R114). -/
  achieved : Int := 0
  deriving DecidableEq, Repr

/-- One physical tile: its state, wear, cells, trims and calibration records (R60, R65, R85, R96, R160-R174). -/
structure PhysTile where
  /-- tile state, 3 bits; SPARE for local indices 792b+768 and up (R85). -/
  state : TileState := .free
  /-- logical tile it holds, 20 bits (R65). -/
  logical : Option Nat := none
  /-- wear counter, 32 bits (R96). -/
  wear : Nat := 0
  /-- level difference L+ - L- of each weight, row-major over tileRows x tileCols (R60). -/
  levels : List Int := []
  /-- rows of the tile that hold weights (R63). -/
  tileRows : Nat := 0
  /-- columns of the tile that hold weights (R63). -/
  tileCols : Nat := 0
  /-- stuck entries left by the last program, 16 bits (R93). -/
  stuckCount : Nat := 0
  /-- 0 none, 1 Coarse, 2 Fine (R178). -/
  grade : Nat := 0
  /-- pending pass: 0 none, 1 TRACK, 2 FINE, 3 COARSE (R169). -/
  passDue : Nat := 0
  /-- failed attempts in the current cycle, 2 bits (R164). -/
  attempts : Nat := 0
  /-- active trim bank (R161). -/
  active : TrimBank := {}
  /-- candidate trim bank (R161). -/
  candidate : TrimBank := {}
  /-- copy of the active bank in the near store (R161). -/
  nearCopy : TrimBank := {}
  /-- the near-store copy is intact (R177). -/
  nearCopyOk : Bool := false
  /-- a warm reset gave it a TRACK pass in place of its COARSE and FINE passes (R177). -/
  warmTrack : Bool := false
  /-- calibration temperature in °C, 8 bits (R174). -/
  temperature : Nat := 0
  /-- largest gain trim magnitude, units of 0.125 %, 8 bits (R178). -/
  gainMax : Nat := 0
  /-- corrections taken effect on the tile, 32 bits (R174). -/
  count : Nat := 0
  /-- fabric timestamp of the last correction, 64 bits (R174). -/
  last : Nat := 0
  /-- fabric timestamp of the last program, 64 bits (R169). -/
  programmedAt : Nat := 0
  /-- decade passes made pending since the last program, 0-4 (R169). -/
  decades : Nat := 0
  /-- fabric timestamp of the last accepted pass (R169). -/
  passedAt : Nat := 0
  /-- fabric timestamp of the last accepted FINE pass (R169). -/
  fineAt : Nat := 0
  /-- an accepted pass waits to take effect (R172). -/
  waiting : Bool := false
  /-- temperature at the repeat measurement of the waiting pass (R174). -/
  waitTemp : Nat := 0
  /-- gainMax of the waiting bank (R178). -/
  waitGain : Nat := 0
  /-- grade on taking effect (R163). -/
  waitGrade : Nat := 0
  deriving DecidableEq, Repr

/-- One logical tile of a live edition, with its edition record (R65, R343) and outlier table (R114). -/
structure LogTile where
  /-- state when no physical tile serves it (PROGRAMMING or DIGITAL) (R85). -/
  state : TileState := .digital
  /-- physical tile assigned (R65). -/
  phys : Option Nat := none
  /-- weight edition, 32 bits (R343). -/
  edition : Nat := 0
  /-- weight format code, 8 bits (R343). -/
  format : Nat := 0
  /-- slice, 2 bits (R343). -/
  slice : Nat := 0
  /-- ROWS of the operation (R343). -/
  rows : Nat := 0
  /-- COLUMNS of the operation (R343). -/
  cols : Nat := 0
  /-- row tile, 6 bits (R343). -/
  rowTile : Nat := 0
  /-- column tile, 8 bits (R343). -/
  colTile : Nat := 0
  /-- offset of the master copy in its first page (R343). -/
  masterOff : Nat := 0
  /-- physical 4 KiB pages of the master copy, in order (R343). -/
  pages : List Nat := []
  /-- tile digest, 64 bits (R344). -/
  digest : Nat := 0
  /-- the master copy was lost and not re-attached (R350). -/
  masterAbsent : Bool := false
  /-- master-damaged (R402). -/
  masterDamaged : Bool := false
  /-- CLIP, 4 bits (R114). -/
  clip : Nat := 0
  /-- outlier table in the near store (R114). -/
  outliers : List OutlierEntry := []
  /-- the table lies in the mirror in force (R115). -/
  mirrored : Bool := false
  /-- physical address of its table in the mirror, where it is mirrored (R115). -/
  mirrorAt : Nat := 0
  /-- tile epoch, 32 bits (R173). -/
  epoch : Nat := 0
  /-- use count of the tier window (R352). -/
  uses : Nat := 0
  /-- physical tile being prepared for it (spare or promotion) (R98). -/
  spare : Option Nat := none
  /-- state changes due at the next frame tick (R86). -/
  due : List TileChange := []
  /-- state changes whose tick has passed and that wait for the running operation to end (R86). -/
  held : List TileChange := []
  deriving DecidableEq, Repr

/-- One entry of a tile list (R83). -/
structure TileEntry where
  /-- LOGICAL_TILE, 20 bits (R83). -/
  logical : Nat := 0
  /-- ROW_TILE, 6 bits (R83). -/
  rowTile : Nat := 0
  /-- COL_TILE, 8 bits (R83). -/
  colTile : Nat := 0
  /-- SLICE, 2 bits (R83). -/
  slice : Nat := 0
  deriving DecidableEq, Repr

/-- The 64-byte plane-operation body (R82). -/
structure PlaneBody where
  /-- KIND (R82). -/
  kind : Nat := 0
  /-- WEIGHT_FORMAT (R82). -/
  wfmt : Nat := 0
  /-- INPUT_FORMAT (R82). -/
  ifmt : Nat := 0
  /-- DRIVE_FORMAT (R82). -/
  dfmt : Nat := 0
  /-- FORCED_PHASES (R82). -/
  forced : Nat := 0
  /-- SCALE_MODE (R82). -/
  isStatic : Bool := false
  /-- STATIC_SCALE (R82). -/
  scale : BitVec 32 := 0
  /-- TILE_COUNT (R82). -/
  tileCount : Nat := 0
  /-- TILE_LIST (R82). -/
  tileList : Nat := 0
  /-- INPUT (R82). -/
  input : Nat := 0
  /-- OUTPUT (R82). -/
  output : Nat := 0
  /-- ROWS (R82). -/
  rows : Nat := 0
  /-- COLUMNS (R82). -/
  cols : Nat := 0
  /-- EPILOGUE (R82). -/
  epilogue : Nat := 0
  /-- WEIGHT_EDITION (R82). -/
  edition : Nat := 0
  deriving DecidableEq, Repr

/-- One converted drive block (R45): its scale, the integer drive of each channel and the stripped channels. -/
structure DriveBlock where
  /-- drive-block scale s, FP32 (R45). -/
  scale : BitVec 32 := 0x3F800000
  /-- drive values of the block (R46). -/
  vals : List Int := []
  /-- stripped channels (index in the block) with their FP32 elements (R109). -/
  stripped : List (Nat × BitVec 32) := []
  deriving DecidableEq, Repr

/-- The column codes of one tile firing (R68). -/
structure CodeRec where
  /-- index in the tile list (R68). -/
  entry : Nat := 0
  /-- shot, 0 high or only, 1 low (R51). -/
  shot : Nat := 0
  /-- row phase (R72). -/
  phase : Nat := 0
  /-- signed 8-bit codes (R68). -/
  codes : List Int := []
  deriving DecidableEq, Repr

/-- A plane operation: running, saved, or completing its tail (R79-R91, R118, R119). -/
structure PlaneOp where
  /-- graph slot (R79). -/
  slot : Nat := 0
  /-- task index (R79). -/
  task : Nat := 0
  /-- address space (R212). -/
  space : Nat := 0
  /-- the body (R82). -/
  body : PlaneBody := {}
  /-- the tile list (R83). -/
  entries : List TileEntry := []
  /-- element codes of the input vector (R82). -/
  elems : List Nat := []
  /-- scale codes of an MX input vector (R36). -/
  mxScales : List Nat := []
  /-- drive blocks, in ascending block (R45). -/
  drive : List DriveBlock := []
  /-- the tile of the entry is READY and fires (R84). -/
  fires : List Bool := []
  /-- candidates clipped (R116). -/
  clippedCand : Nat := 0
  /-- correction passes n (R116). -/
  passes : Nat := 1
  /-- correction passes completed (R119). -/
  passesDone : Nat := 0
  /-- P or P_T (R72). -/
  phases : Nat := 1
  /-- range code of each entry (R73). -/
  ranges : List Nat := []
  /-- cap latched (R80). -/
  cap : Nat := 1024
  /-- epoch latched (R91). -/
  epoch : Nat := 0
  /-- CUR_AUDIT_CTRL.K latched (R118). -/
  auditK : Nat := 0x50
  /-- reference mode (R129). -/
  reference : Bool := false
  /-- groups of entry indices (R81). -/
  groups : List (List Nat) := []
  /-- next step unit (R79). -/
  unit : Nat := 0
  /-- codes delivered so far (R68). -/
  codes : List CodeRec := []
  /-- entries that fired at least once (R123). -/
  fired : List Nat := []
  /-- adapter term, once computed (R152). -/
  y : Option (List (BitVec 32)) := none
  /-- quality flags of the adapter term (R152). -/
  yFlags : Nat := 0
  /-- quality flags, bits of the token record (R320). -/
  flags : Nat := 0
  /-- the first step unit has started (R80). -/
  started : Bool := false
  /-- active bank of each entry, latched (R162). -/
  banks : List TrimBank := []
  /-- its clipped candidates have been counted (R116). -/
  counted : Bool := false
  deriving DecidableEq, Repr

/-- A program task in progress: tiles not yet in a round (R95). -/
structure ProgTask where
  /-- graph slot; 16 for a device program (refresh, spare, promotion) (R95). -/
  slot : Nat := 0
  /-- task index (R95). -/
  task : Nat := 0
  /-- CUR_WEIGHT_CLIP latched (R112). -/
  clipReg : BitVec 32 := 0xFC84
  /-- the body (R82). -/
  body : PlaneBody := {}
  /-- the tile list (R83). -/
  entries : List TileEntry := []
  /-- physical pages of the master copy (R343). -/
  pages : List Nat := []
  /-- offset of the master copy in its first page (R343). -/
  masterOff : Nat := 0
  /-- logical tiles whose round has not started, with the physical tile of each (R94). -/
  todo : List (Nat × Nat) := []
  /-- starts no new round (pre-empted) (R95). -/
  held : Bool := false
  deriving DecidableEq, Repr

/-- One programming round of a die (R94). -/
structure Round where
  /-- die (R94). -/
  die : Nat := 0
  /-- logical tile and physical tile of each program (R94). -/
  tiles : List (Nat × Nat) := []
  /-- graph slot and task of each program (R94). -/
  owner : List (Nat × Nat) := []
  deriving DecidableEq, Repr

/-- One entry of the audit queue (R124). -/
structure AuditEntry where
  /-- logical tile (R124). -/
  logical : Nat := 0
  /-- graph slot (R124). -/
  slot : Nat := 0
  /-- task index (R124). -/
  task : Nat := 0
  /-- run of the graph it was captured from (R128). -/
  runId : Nat := 0
  /-- transposed operation (R124). -/
  transposed : Bool := false
  /-- P (R124). -/
  phases : Nat := 1
  /-- range code (R124). -/
  range : Nat := 0
  /-- drive levels per shot (R124). -/
  drives : List (List Int) := []
  /-- codes of every phase and shot (R124). -/
  codes : List CodeRec := []
  /-- tile epoch at capture (R124). -/
  epoch : Nat := 0
  /-- K latched (R124). -/
  k : Nat := 0x50
  /-- fabric timestamp at capture (R124). -/
  ts : Nat := 0
  /-- plane-die temperature at capture, in units of 0.25 °C (R124). -/
  temperature : Int := 0
  /-- request of the task (R127). -/
  request : Nat := 0xFFFFFFFF
  /-- number of the participation (R127). -/
  serial : Nat := 0
  /-- D at capture, in quarters (R125). -/
  decades : Nat := 0
  /-- ΔT at capture, in whole degrees (R125). -/
  warmer : Nat := 0
  /-- its place among the 512 of the queue in the staging SRAM (R211). -/
  place : Nat := 0
  /-- tile slots taken so far (R156). -/
  tilesDone : Nat := 0
  deriving DecidableEq, Repr

/-- A pending confirmation firing (R126). -/
structure Firing where
  /-- the audited entry (R126). -/
  audit : AuditEntry := {}
  /-- shots in which a code missed (R126). -/
  shots : List Nat := []
  /-- columns that missed, with their shot (R126). -/
  cols : List (Nat × Nat) := []
  /-- largest excess confirmed so far, in LSB (R127). -/
  excess : Nat := 0
  /-- largest excess of the misses of the audit, in LSB (R127). -/
  missExcess : Nat := 0
  /-- a column missed again (R126). -/
  failed : Bool := false
  deriving DecidableEq, Repr

/-- The plane: tiles, sequencer and programming (R60-R105). -/
structure Pln where
  /-- physical tiles that differ from a new device's, by index (R65). -/
  phys : List (Nat × PhysTile) := []
  /-- logical tiles of live editions, by number (R65). -/
  logical : List (Nat × LogTile) := []
  /-- the running operation (R79). -/
  op : Option PlaneOp := none
  /-- saved operations, oldest first (R90). -/
  saved : List PlaneOp := []
  /-- operations completing their tail in Currant (at most 2 contexts) (R119). -/
  tails : List PlaneOp := []
  /-- program tasks (R95). -/
  prog : List ProgTask := []
  /-- rounds in progress (R94). -/
  rounds : List Round := []
  /-- calibration steps fired (R167). -/
  calFired : Nat := 0
  deriving DecidableEq, Repr

/-- Currant: audits and the mirror (R106-R132). -/
structure Cur where
  /-- audit queue, at most 512, oldest first (R124). -/
  queue : List AuditEntry := []
  /-- pending confirmation firings (R126). -/
  firings : List Firing := []
  /-- participations counted since the last selection (R123). -/
  participations : Nat := 0
  /-- a tile entered or left READY since the last rebuild (R115). -/
  mirrorStale : Bool := false
  /-- an outlier-clipping event was recorded in this frame (R116). -/
  overflowFrame : Bool := false
  /-- participations counted since reset (R127). -/
  serial : Nat := 0
  /-- participations since each tile's last good audit: tile, number, request, position (R127). -/
  affected : List (Nat × Nat × Nat × Nat) := []
  /-- tiles that become SUSPECT at the next tick, with the number of the audited participation (R127). -/
  failing : List (Nat × Nat) := []
  deriving DecidableEq, Repr

/-- The 64-byte wide body (R136). -/
structure WideBody where
  /-- KIND (R136). -/
  kind : Nat := 0
  /-- A_FORMAT (R136). -/
  afmt : Nat := 0
  /-- B_FORMAT (R136). -/
  bfmt : Nat := 0
  /-- REDUCE (R136). -/
  reduce : Nat := 0
  /-- B_TRANSPOSED (R136). -/
  bt : Bool := false
  /-- M (R136). -/
  m : Nat := 0
  /-- N (R136). -/
  n : Nat := 0
  /-- K (R136). -/
  k : Nat := 0
  /-- A (R136). -/
  a : Nat := 0
  /-- B (R136). -/
  b : Nat := 0
  /-- A_SCALES (R136). -/
  ascales : Nat := 0
  /-- B_SCALES (R136). -/
  bscales : Nat := 0
  /-- OUTPUT (R136). -/
  output : Nat := 0
  /-- EPILOGUE (R136). -/
  epilogue : Nat := 0
  deriving DecidableEq, Repr

/-- One output tile of accumulators (R135, R144). -/
structure OutTile where
  /-- graph slot (R144). -/
  slot : Nat := 0
  /-- task index (R144). -/
  task : Nat := 0
  /-- first row (R135). -/
  row0 : Nat := 0
  /-- first column (R135). -/
  col0 : Nat := 0
  /-- rows (R135). -/
  nrows : Nat := 0
  /-- columns (R135). -/
  ncols : Nat := 0
  /-- next K chunk (R135). -/
  chunk : Nat := 0
  /-- accumulators, absent before the first present chunk (R138). -/
  acc : List (Option (BitVec 32)) := []
  /-- rows of the adapter term y, once its chunk pass has ended (R152). -/
  y : List (List (BitVec 32)) := []
  /-- its last chunk pass has ended (R144). -/
  draining : Bool := false
  deriving DecidableEq, Repr

/-- A wide task in progress (R136, R157). -/
structure WideTask where
  /-- graph slot (R136). -/
  slot : Nat := 0
  /-- task index (R136). -/
  task : Nat := 0
  /-- address space (R212). -/
  space : Nat := 0
  /-- the body (R136). -/
  body : WideBody := {}
  /-- next output tile to fill (R137). -/
  next : Nat := 0
  /-- output tiles (R137). -/
  total : Nat := 0
  /-- output tiles drained (R137). -/
  drained : Nat := 0
  /-- saved (R157). -/
  saved : Bool := false
  /-- the filling tile's accumulators, saved (R157). -/
  savedTile : Option OutTile := none
  /-- drained tiles that hold the first half of an MX output block (R48). -/
  halves : List OutTile := []
  /-- u of every row, none before it is computed; no rows without an adapter (R152). -/
  us : Option (List (List (BitVec 32))) := none
  /-- quality flags (R320). -/
  flags : Nat := 0
  /-- quality flags that arose in rows of the task, by row of its M (R321). -/
  rowFlags : List (Nat × Nat) := []
  deriving DecidableEq, Repr

/-- The wide engine (R133-R159). -/
structure Wde where
  /-- wide tasks running or saved, in issue order (R156). -/
  tasks : List WideTask := []
  /-- output tile 0 (R144). -/
  tile0 : Option OutTile := none
  /-- output tile 1 (R144). -/
  tile1 : Option OutTile := none
  /-- tile slots since the last audit slot (R156). -/
  slotCount : Nat := 0
  deriving DecidableEq, Repr

/-- A calibration pass in progress in a slot (R163, R170). -/
structure CalPass where
  /-- physical tile (R163). -/
  phys : Nat := 0
  /-- 1 TRACK, 2 FINE, 3 COARSE (R163). -/
  kind : Nat := 0
  /-- slot of the die (R163). -/
  cslot : Nat := 0
  /-- start (R163). -/
  startedAt : Nat := 0
  /-- calibration steps fired for it (R167). -/
  steps : Nat := 0
  deriving DecidableEq, Repr

/-- Calibration (R160-R178). -/
structure Cal where
  /-- passes in progress (R163). -/
  passes : List CalPass := []
  /-- power-up calibration runs (R175). -/
  powerup : Bool := true
  deriving DecidableEq, Repr

/-- The 128-byte attention body (R181). -/
structure AttBody where
  /-- MODE (R181). -/
  mode : Nat := 0
  /-- APPEND (R181). -/
  append : Bool := false
  /-- ROPE_STYLE (R181). -/
  interleaved : Bool := false
  /-- PACKED (R181). -/
  packed : Bool := false
  /-- HEAD_DIM (R181). -/
  headDim : Nat := 0
  /-- ROPE_PAIRS (R181). -/
  ropePairs : Nat := 0
  /-- Q_HEADS (R181). -/
  qHeads : Nat := 0
  /-- KV_HEADS (R181). -/
  kvHeads : Nat := 0
  /-- M (R181). -/
  m : Nat := 0
  /-- LAYER_SLOT (R181). -/
  layerSlot : Nat := 0
  /-- ROW_TABLE (R181). -/
  rowTable : Nat := 0
  /-- Q (R181). -/
  q : Nat := 0
  /-- NEW_KV (R181). -/
  newKv : Nat := 0
  /-- OUTPUT (R181). -/
  output : Nat := 0
  /-- KV_SCALES (R181). -/
  kvScales : Nat := 0
  /-- FREQ (R181). -/
  freq : Nat := 0
  /-- SOFTMAX_SCALE (R181). -/
  softmax : BitVec 32 := 0
  /-- LAYER_STRIDE (R181). -/
  layerStride : Nat := 0
  /-- STATS (R181). -/
  stats : Nat := 0
  /-- GRAD_OUT (R181). -/
  gradOut : Nat := 0
  /-- GRAD_KV (R181). -/
  gradKv : Nat := 0
  /-- FWD_OUT (R181). -/
  fwdOut : Nat := 0
  deriving DecidableEq, Repr

/-- A 32-byte row record (R191). -/
structure RowRec where
  /-- SLOT (R191). -/
  slot : Nat := 0
  /-- POSITION (R191). -/
  position : Nat := 0
  /-- BASE_LEN (R191). -/
  baseLen : Nat := 0
  /-- SEQ_SLOT (R191). -/
  seqSlot : Nat := 0
  /-- SEGMENT (R191). -/
  segment : Nat := 0
  /-- NODE (R191). -/
  node : Nat := 0x7F
  /-- PARENT (R191). -/
  parent : Nat := 0x7F
  /-- ACCEPT_COUNT (R191). -/
  acceptCount : Nat := 0
  /-- ACCEPT_PATH (R191). -/
  acceptPath : List Nat := []
  deriving DecidableEq, Repr

/-- The running state of the fixed-order merge of one row and head (R194). -/
structure Merge where
  /-- first = false (R194). -/
  started : Bool := false
  /-- m (R194). -/
  m : BitVec 32 := 0
  /-- l (R194). -/
  l : BitVec 32 := 0
  /-- o (R194). -/
  o : List (BitVec 32) := []
  deriving DecidableEq, Repr

/-- An attention task in progress (R180, R194). -/
structure AttTask where
  /-- graph slot (R180). -/
  slot : Nat := 0
  /-- task index (R180). -/
  task : Nat := 0
  /-- address space (R212). -/
  space : Nat := 0
  /-- the body (R181). -/
  body : AttBody := {}
  /-- row records (R191). -/
  rows : List RowRec := []
  /-- reads done at its start: 0 none, 1 the row table, 2 the arrays too (R182). -/
  stage : Nat := 0
  /-- merge states, row-major over query heads (R194). -/
  merge : List Merge := []
  /-- position blocks still to merge, ascending (R194). -/
  blocks : List Nat := []
  /-- row groups of the first block left that are merged (R180). -/
  group : Nat := 0
  /-- merge buffer: pages that have arrived and wait, by virtual address (R195). -/
  buffer : List (Nat × List (BitVec 8)) := []
  /-- compaction copies and appends done (R189). -/
  prep : Nat := 0
  /-- query codes of each row and head, row-major (R183). -/
  q8 : List (List Nat) := []
  /-- query scale of each row and head (R183). -/
  sq : List (BitVec 32) := []
  /-- KV_SCALES (R181). -/
  kvs : List (BitVec 32) := []
  /-- FREQ (R181). -/
  omega : List (BitVec 32) := []
  /-- backward: the FP8 E5M2 codes of dO of each row and head (R196). -/
  gradOut : List (List Nat) := []
  /-- backward: D of each row and head (R196). -/
  dsum : List (BitVec 32) := []
  /-- backward: m and l of each row and head, from STATS (R196). -/
  stats : List (BitVec 32 × BitVec 32) := []
  /-- backward: dQ of each row and head so far (R196). -/
  dq : List (List (BitVec 32)) := []
  /-- backward: dK of each row and KV head so far (R196). -/
  dk : List (List (BitVec 32)) := []
  /-- backward: dV of each row and KV head so far (R196). -/
  dv : List (List (BitVec 32)) := []
  /-- virtual pages read by the task (R198). -/
  pagesRead : List Nat := []
  /-- saved (R180). -/
  saved : Bool := false
  /-- quality flags (R320). -/
  flags : Nat := 0
  /-- quality flags that arose in rows of the task, by row of its M (R321). -/
  rowFlags : List (Nat × Nat) := []
  deriving DecidableEq, Repr

/-- A 64 KiB KV frame record (R199). -/
structure KvFrame where
  /-- physical address of the frame (R199). -/
  pa : Nat := 0
  /-- FREE, PRIVATE, SHARED or QUARANTINE (R199). -/
  state : FrameState := .free
  /-- reference count, 16 bits (R199). -/
  count : Nat := 0
  /-- tick number at which the quarantine began (R199). -/
  since : Nat := 0
  deriving DecidableEq, Repr

/-- A KV page mapped for a sequence (R198, R199). -/
structure KvMap where
  /-- address space (R198). -/
  space : Nat := 0
  /-- virtual address of the page (R197). -/
  va : Nat := 0
  /-- physical address of its frame (R199). -/
  pa : Nat := 0
  deriving DecidableEq, Repr

/-- Attention (R179-R207). -/
structure Att where
  /-- attention tasks running or saved (R180). -/
  tasks : List AttTask := []
  /-- KV frame records; a frame with no record is FREE (R199). -/
  frames : List KvFrame := []
  /-- KV pages mapped (R199). -/
  maps : List KvMap := []
  /-- KV translations changed in this frame: space and page address (R200). -/
  kvChanged : List (Nat × Nat) := []
  deriving DecidableEq, Repr

/-- A fault record (R227). -/
structure FaultRec where
  /-- SEQUENCE (R227). -/
  seq : Nat := 0
  /-- CAUSE (R227). -/
  cause : Nat := 0
  /-- UNIT_CLASS (R227). -/
  unitClass : Nat := 0
  /-- UNIT_INDEX (R227). -/
  unitIndex : Nat := 0
  /-- WRITE (R227). -/
  write : Bool := false
  /-- LEVEL (R227). -/
  level : Nat := 0
  /-- SPACE (R227). -/
  space : Nat := 0
  /-- ADDRESS (R227). -/
  address : Nat := 0
  /-- ENTRY (R227). -/
  entry : Nat := 0
  /-- TIMESTAMP (R227). -/
  ts : Nat := 0
  /-- GRAPH (R227). -/
  graph : Nat := 0xFF
  /-- TASK (R227). -/
  task : Nat := 0
  /-- REQUEST (R227). -/
  request : Nat := 0xFFFFFFFF
  /-- RESOLVED_AT (R227). -/
  resolvedAt : Nat := 0
  /-- OUTCOME (R227). -/
  outcome : Nat := 0
  /-- STATUS (R227). -/
  status : Nat := 0
  deriving DecidableEq, Repr

/-- A cached translation (R217). -/
structure Tlb where
  /-- address space (R217). -/
  space : Nat := 0
  /-- virtual page base (R217). -/
  va : Nat := 0
  /-- page bytes (R217). -/
  bytes : Nat := 0
  /-- TARGET (R215). -/
  target : Nat := 0
  /-- page address at the target (R217). -/
  pa : Nat := 0
  /-- WRITE (R215). -/
  write : Bool := false
  /-- KV (R215). -/
  kv : Bool := false
  deriving DecidableEq, Repr

/-- Damson's record of one MAP (R257, R487). -/
structure MapRec where
  /-- SPACE (R257). -/
  space : Nat := 0
  /-- VA (R257). -/
  va : Nat := 0
  /-- BYTES (R257). -/
  bytes : Nat := 0
  /-- page size in bytes (R257). -/
  page : Nat := 0
  /-- MEMORY (R257). -/
  memory : Nat := 0
  /-- WRITE (R257). -/
  write : Bool := false
  /-- KV (R257). -/
  kv : Bool := false
  /-- physical or host address of each page (R257). -/
  pages : List Nat := []
  deriving DecidableEq, Repr

/-- Translation (R212-R233). -/
structure Mmu where
  /-- cached translations (R217). -/
  tlb : List Tlb := []
  /-- an invalidation is in progress (R218). -/
  inv : Bool := false
  /-- fault records by slot (R227). -/
  faults : List (Nat × FaultRec) := []
  /-- free slots, longest free first (R227). -/
  slotOrder : List Nat := List.range 256
  /-- faults recorded (R227). -/
  seq : Nat := 0
  /-- mappings made by MAP (R257). -/
  maps : List MapRec := []
  /-- allocated physical extents: base and bytes (R211). -/
  alloc : List (Nat × Nat) := []
  /-- extents waiting to be freed: tick number, base, bytes (R257). -/
  freeing : List (Nat × Nat × Nat) := []
  /-- new roots waiting for their tick: tick number, space and table address plus 1 (0 disables) (R219). -/
  rootDue : List (Nat × Nat × Nat) := []
  /-- SPACE_SET commands waiting for their tick (R257). -/
  spaceCmds : List (Nat × CmdHdr) := []
  /-- level-0 table that Damson built for an address space (R213). -/
  tables : List (Nat × Nat) := []
  deriving DecidableEq, Repr

/-- A DMA task on an engine (R220-R225). -/
structure DmaTask where
  /-- engine (R220). -/
  engine : Nat := 0
  /-- graph slot (R220). -/
  slot : Nat := 0
  /-- task index (R220). -/
  task : Nat := 0
  /-- address space (R212). -/
  space : Nat := 0
  /-- KIND (R220). -/
  fill : Bool := false
  /-- CHECK_UNIT (R220). -/
  unit : Nat := 0
  /-- CHECK_MODE (R220). -/
  mode : Nat := 0
  /-- CHUNK_BYTES (R220). -/
  chunk : Nat := 0
  /-- SOURCE (R220). -/
  src : Nat := 0
  /-- DESTINATION (R220). -/
  dst : Nat := 0
  /-- ROW_BYTES (R220). -/
  rowBytes : Nat := 0
  /-- ROWS (R220). -/
  rows : Nat := 0
  /-- SOURCE_STRIDE (R220). -/
  srcStride : Nat := 0
  /-- DEST_STRIDE (R220). -/
  dstStride : Nat := 0
  /-- row in progress (R221). -/
  row : Nat := 0
  /-- source bytes of the row moved (R221). -/
  pos : Nat := 0
  /-- destination bytes of the row written (R223). -/
  outPos : Nat := 0
  /-- payload bytes of the chunk fed (R223). -/
  inChunk : Nat := 0
  /-- check bytes of the chunk moved so far (R223). -/
  chk : Nat := 0
  /-- check bytes of the chunk read so far (R223). -/
  chkIn : List Byte := []
  /-- holds its check unit (R222). -/
  holds : Bool := false
  /-- waits for its check unit (R222). -/
  waits : Bool := false
  /-- saved or stopped (R225). -/
  saved : Bool := false
  /-- check unit's running value, saved (R225). -/
  savedR : Nat := 0
  /-- check unit's WIDTH, read at the start (R222). -/
  width : Nat := 32
  /-- its POLY (R222). -/
  poly : Nat := 0
  /-- its INIT (R222). -/
  init : Nat := 0
  /-- its REFLECT_IN (R222). -/
  reflIn : Bool := true
  /-- its REFLECT_OUT (R222). -/
  reflOut : Bool := true
  /-- its INVERT (R222). -/
  inv : Bool := true
  deriving DecidableEq, Repr

/-- The DMA engines (R220-R225). -/
structure Dma where
  /-- tasks on engines, at most 16 (R220). -/
  tasks : List DmaTask := []
  deriving DecidableEq, Repr

/-- One waiting requester (R235). -/
structure ArbReq where
  /-- requester id (R235). -/
  id : Nat := 0
  /-- its burst writes (R234). -/
  write : Bool := false
  /-- request time (R239). -/
  since : Nat := 0
  deriving DecidableEq, Repr

/-- The state of one arbiter (R235). -/
structure ArbInst where
  /-- resource class (R234). -/
  cls : Nat := 0
  /-- instance (R234). -/
  inst : Nat := 0
  /-- requester that holds the resource (R235). -/
  owner : Option Nat := none
  /-- its burst writes (R234). -/
  ownerWrites : Bool := false
  /-- time of the grant (R235). -/
  grantedAt : Nat := 0
  /-- waiting requesters (R235). -/
  waiting : List ArbReq := []
  /-- requester last granted at each rank (R235). -/
  last : List (Nat × Nat) := []
  deriving DecidableEq, Repr

/-- Counters of one requester at one instance (R239). -/
structure ArbCount where
  /-- resource class (R239). -/
  cls : Nat := 0
  /-- instance (R239). -/
  inst : Nat := 0
  /-- requester (R239). -/
  req : Nat := 0
  /-- grants, 48 bits (R239). -/
  grants : Nat := 0
  /-- wait cycles, 48 bits (R239). -/
  waits : Nat := 0
  /-- longest wait, 32 bits (R239). -/
  longest : Nat := 0
  deriving DecidableEq, Repr

/-- The arbiters (R234-R242). -/
structure Arb where
  /-- arbiters that have been used (R234). -/
  insts : List ArbInst := []
  /-- counters that differ from 0 (R239). -/
  counts : List ArbCount := []
  /-- rank and burst limit set: class, requester, rank, limit (R236). -/
  config : List (Nat × Nat × Nat × Nat) := []
  /-- the same, waiting for the tick (class F) (R242). -/
  configDue : List (Nat × Nat × Nat × Nat) := []
  /-- the same, written in the hub cycle of a tick (R10). -/
  configLate : List (Nat × Nat × Nat × Nat) := []
  deriving DecidableEq, Repr

/-- A mailbox (R248-R250, R270). -/
structure Mailbox where
  /-- command-slot bytes, by page offset (R248). -/
  slots : List (Nat × BitVec 8) := []
  /-- slots rung and not yet taken that the host has written again (R249). -/
  rewritten : List Nat := []
  /-- DOORBELL, 5 bits (R270). -/
  doorbell : Nat := 0
  /-- DOORBELL_STATUS is BOOTING (R270). -/
  booting : Bool := false
  /-- CONSUMED, 5 bits (R270). -/
  consumed : Nat := 0
  /-- CQ_HEAD, 32 bits (R270). -/
  head : Nat := 0
  /-- CQ_TAIL, 32 bits (R270). -/
  tail : Nat := 0
  /-- next PHASE (R252). -/
  phase : Bool := true
  /-- expected sequence number, 32 bits (R254). -/
  expected : Nat := 0
  /-- commands accepted and not completed (R270). -/
  outstanding : Nat := 0
  /-- completion records held by PAUSE (R269). -/
  waiting : List (List (BitVec 8)) := []
  /-- admin completion ring bytes in BAR0 (R248). -/
  ring : List (Nat × BitVec 8) := []
  deriving DecidableEq, Repr

/-- A journal entry (R260). -/
structure JournalRec where
  /-- entry number J (R260). -/
  j : Nat := 0
  /-- SEQUENCE (R260). -/
  seq : Nat := 0
  /-- OPCODE (R260). -/
  opcode : Nat := 0
  /-- MAILBOX (R260). -/
  mailbox : Nat := 0
  /-- STATE is 2 (R260). -/
  done : Bool := false
  /-- ACCEPTED_AT (R260). -/
  acceptedAt : Nat := 0
  /-- COMPLETED_AT (R260). -/
  completedAt : Nat := 0
  /-- STATUS (R260). -/
  status : Nat := 0
  /-- TAG (R260). -/
  tag : Nat := 0
  /-- HOST_TIMESTAMP (R260). -/
  hostTs : Nat := 0
  deriving DecidableEq, Repr

/-- The command interface (R243-R270). -/
structure Mbx where
  /-- mailboxes 0-16 (R248). -/
  boxes : List Mailbox := List.replicate 17 {}
  /-- journal entries, at most 8,192, oldest first (R260). -/
  journal : List JournalRec := []
  /-- J of the next entry (R260). -/
  nextJ : Nat := 0
  /-- mailbox served last (R259). -/
  served : Nat := 16
  /-- negotiated CCI version (R255). -/
  version : Nat := 0
  /-- commands whose completion comes later (R259). -/
  openCmds : List CmdHdr := []
  /-- REFERENCE_SET waiting for Currant to be idle (R257). -/
  refCmd : Option (CmdHdr × Bool) := none
  /-- a warm reset follows within 1 ms (R257). -/
  resetDue : Bool := false
  /-- the warm reset enters RECOVERY (R435). -/
  recoveryDue : Bool := false
  deriving DecidableEq, Repr

/-- A task header as loaded (R275). -/
structure TaskHdr where
  /-- TYPE (R275). -/
  type : Nat := 0
  /-- PRED_COUNT (R275). -/
  preds : Nat := 0
  /-- SUCC_FIRST (R275). -/
  succFirst : Nat := 0
  /-- SUCC_COUNT (R275). -/
  succCount : Nat := 0
  /-- REQUEST (R275). -/
  request : Nat := 0xFFFFFFFF
  /-- SEED (R275). -/
  seed : Nat := 0
  /-- LABEL (R275). -/
  label : Nat := 0
  deriving DecidableEq, Repr

/-- The state of one task in a run (R280). -/
structure TaskRun where
  /-- predecessors not yet completed (R280). -/
  left : Nat := 0
  /-- progress (R280). -/
  st : TaskSt := .waiting
  /-- void in this run (R307). -/
  isVoid : Bool := false
  /-- marked for pre-emption at a tick, not yet saved (R289). -/
  marked : Bool := false
  /-- quality flags that arose (R321). -/
  flags : Nat := 0
  /-- quality flags that arose in rows of the task, by row of its M (R321). -/
  rowFlags : List (Nat × Nat) := []
  deriving DecidableEq, Repr

/-- A graph slot (R271-R274). -/
structure GraphSlot where
  /-- slot state (R298). -/
  state : SlotState := .empty
  /-- START_NOW (R272). -/
  startNow : Bool := false
  /-- CHANNEL (R272). -/
  channel : Nat := 0
  /-- RANK (R272). -/
  rank : Nat := 0
  /-- SPACE (R272). -/
  space : Nat := 0
  /-- FRAMES (R272). -/
  frames : Nat := 0
  /-- LIMIT_FRAMES (R272). -/
  limit : Nat := 0
  /-- LABEL (R272). -/
  label : Nat := 0
  /-- TASKS address (R275). -/
  base : Nat := 0
  /-- task headers (R275). -/
  tasks : List TaskHdr := []
  /-- edge array (R277). -/
  edges : List Nat := []
  /-- the run's task states (R280). -/
  run : List TaskRun := []
  /-- tasks completed (R298). -/
  done : Nat := 0
  /-- acceptance order of the GRAPH_RUN (R281). -/
  order : Nat := 0
  /-- time at which the GRAPH_RUN was accepted (R274). -/
  acceptedAt : Nat := 0
  /-- number of the run (R128). -/
  runId : Nat := 0
  /-- ticks counted (R287). -/
  ticks : Nat := 0
  /-- the overrun was counted (R287). -/
  overran : Bool := false
  /-- overrun frames, held at 65,535 (R283). -/
  overrunFrames : Nat := 0
  /-- failure status while STOPPING (R230). -/
  status : Nat := 0
  /-- audits captured and not completed (R128). -/
  audits : Nat := 0
  /-- one of them failed (R128). -/
  auditFailed : Bool := false
  /-- the GRAPH_RUN to complete (R257). -/
  cmd : Option CmdHdr := none
  /-- the GRAPH_CANCEL to complete (R274). -/
  cancel : Option CmdHdr := none
  /-- template whose run this is (R308). -/
  template : Option Nat := none
  deriving DecidableEq, Repr

/-- A pip core that runs a task (R279). -/
structure PipCore where
  /-- core number (R279). -/
  core : Nat := 0
  /-- graph slot (R279). -/
  slot : Nat := 0
  /-- task index (R279). -/
  task : Nat := 0
  /-- a1 (R279). -/
  rank : Nat := 0
  /-- a0 at the start (R279). -/
  argument : Nat := 0
  /-- a2 (R279). -/
  cores : Nat := 0
  /-- ENTRY (R279). -/
  entry : Nat := 0
  /-- quanta completed (R279). -/
  quanta : Nat := 0
  /-- QUANTA_LIMIT (R278). -/
  limit : Nat := 0
  /-- CLUSTERS (R278). -/
  clusters : Nat := 0
  /-- what its code has written to its local memory, by address (R279). -/
  own : List (Nat × BitVec 8) := []
  /-- pre-empted: its registers and local memory are saved and the core is free (R289). -/
  saved : Bool := false
  deriving DecidableEq, Repr

/-- A stream that a member receives in one pass of a collective (R385, R386). -/
structure Stream where
  /-- member it comes from (R385). -/
  src : Nat := 0
  /-- stream index (R385). -/
  sid : Nat := 0
  /-- payload received (R385). -/
  bytes : List (BitVec 8) := []
  /-- its END packet has come (R386). -/
  ended : Bool := false
  deriving DecidableEq, Repr

/-- A collective task in progress (R381-R387). -/
structure CollTask where
  /-- graph slot (R381). -/
  slot : Nat := 0
  /-- task index (R381). -/
  task : Nat := 0
  /-- address space (R212). -/
  space : Nat := 0
  /-- KIND (R381). -/
  kind : Nat := 0
  /-- OP (R381). -/
  op : Nat := 0
  /-- FORMAT (R381). -/
  format : Nat := 0
  /-- HANDOFF (R381). -/
  handoff : Bool := false
  /-- GROUP_X (R381). -/
  gx : Nat := 0
  /-- GROUP_Y (R381). -/
  gy : Nat := 0
  /-- GROUP_Z (R381). -/
  gz : Nat := 0
  /-- PEER (R381). -/
  peer : Nat := 0
  /-- TAG (R381). -/
  tag : Nat := 0
  /-- COUNT (R381). -/
  count : Nat := 0
  /-- SOURCE (R381). -/
  src : Nat := 0
  /-- DESTINATION (R381). -/
  dst : Nat := 0
  /-- order index among tasks of its group and TAG (R382). -/
  index : Nat := 0
  /-- passes completed (R385). -/
  step : Nat := 0
  /-- running values of a reduction, FP32 or INT32 (R385). -/
  work : List (BitVec 32) := []
  /-- own part of the passes has been carried out (R385). -/
  done : Bool := false
  /-- streams received (R385). -/
  streams : List Stream := []
  /-- 64-byte granules landed (RELAY) (R382). -/
  landed : List Nat := []
  /-- units sent (RELAY) (R382). -/
  sent : List Nat := []
  /-- bytes of SOURCE read so far (SEND) (R226). -/
  pos : Nat := 0
  /-- payload not yet sent: the head of a hand-off (SEND) (R388). -/
  pend : List (BitVec 8) := []
  /-- payload sent so far, for the stream's digest (SEND) (R386). -/
  out : List (BitVec 8) := []
  /-- sequence number of the last packet sent (SEND, RELAY) (R366). -/
  lastSeq : Option Nat := none
  /-- time of the last packet from upstream (R387). -/
  lastPacketAt : Nat := 0
  /-- quality flags (R384). -/
  flags : Nat := 0
  deriving DecidableEq, Repr

/-- The graph engine (R271-R299). -/
structure Grf where
  /-- graph slots 0-15 (R271). -/
  slots : List GraphSlot := List.replicate 16 {}
  /-- number of the last tick, 64 bits (R284). -/
  tick : Nat := 0
  /-- fabric timestamp of the last tick (R284). -/
  tickTime : Nat := 0
  /-- tick number at which a pending length takes effect, 0 if none (R285). -/
  frameAt : Nat := 0
  /-- the pending length (R285). -/
  frameNext : Nat := 50
  /-- GRAPH_RUNs accepted (R281). -/
  order : Nat := 0
  /-- pip cores that run tasks (R279). -/
  pip : List PipCore := []
  /-- a service pause holds ticks and issue (R429). -/
  paused : Bool := false
  /-- pause tick P named (R429). -/
  pauseAt : Option Nat := none
  /-- device that swaps in the pause named (R429). -/
  pauser : Nat := 0
  /-- devices that wait for the next pause, held by the leader (R429). -/
  pauseWait : List Nat := []
  /-- fabric timestamp of P (R429). -/
  pauseStart : Nat := 0
  /-- resume timestamp named, 0 if none (R429). -/
  resumeAt : Nat := 0
  /-- collective tasks (R381). -/
  colls : List CollTask := []
  deriving DecidableEq, Repr

/-- A binding entry (R306). -/
structure Binding where
  /-- TARGET (R306). -/
  target : Nat := 0
  /-- KIND (R306). -/
  kind : Nat := 0
  /-- ROW (R306). -/
  row : Nat := 0
  /-- ARGUMENT (R306). -/
  argument : Nat := 0
  deriving DecidableEq, Repr

/-- A step row (R311). -/
structure StepRow where
  /-- REQUEST_ID (R311). -/
  request : Nat := 0
  /-- POSITION (R311). -/
  position : Nat := 0
  /-- TOKEN (R311). -/
  token : Nat := 0xFFFFFFFF
  /-- SEQ_SLOT (R311). -/
  seqSlot : Nat := 0
  /-- KIND (R311). -/
  kind : Nat := 0
  /-- SAMPLE (R311). -/
  sample : Bool := false
  /-- NODE (R311). -/
  node : Nat := 0x7F
  /-- PARENT (R311). -/
  parent : Nat := 0x7F
  /-- FLAGS (R311). -/
  flags : Nat := 0
  /-- BASE_LEN (R311). -/
  baseLen : Nat := 0
  /-- the row's edition (R312). -/
  edition : Nat := 0
  /-- tick of arrival (R309). -/
  arrived : Nat := 0
  /-- ACCEPT_COUNT carried to node 0 (R203). -/
  acceptCount : Nat := 0
  /-- ACCEPT_PATH carried to node 0 (R203). -/
  acceptPath : List Nat := []
  deriving DecidableEq, Repr

/-- A valid serving template (R305). -/
structure Template where
  /-- template number (R305). -/
  index : Nat := 0
  /-- EDITION (R305). -/
  edition : Nat := 0
  /-- STEP_SLOT (R305). -/
  stepSlot : Nat := 0
  /-- DRAFT_SLOT (R305). -/
  draftSlot : Nat := 0
  /-- EMBEDS (R305). -/
  embeds : Bool := false
  /-- SAMPLES (R305). -/
  samples : Bool := false
  /-- DRAFT (R305). -/
  draft : Bool := false
  /-- CAPACITY (R305). -/
  capacity : Nat := 0
  /-- binding entries of the step graph (R306). -/
  bindings : List Binding := []
  /-- binding entries of the draft graph (R306). -/
  draftBindings : List Binding := []
  /-- STEP_TABLE (R305). -/
  stepTable : Nat := 0
  /-- rows composed for the next run (R308). -/
  rows : List StepRow := []
  /-- end of composition (R308). -/
  composedAt : Nat := 0
  /-- tick the step was composed for (R308). -/
  forTick : Nat := 0
  /-- rows of the run in progress (R308). -/
  running : List StepRow := []
  /-- chain nodes of the draft run in progress (R325). -/
  draftRows : List StepRow := []
  deriving DecidableEq, Repr

/-- A sampling block (R315). -/
structure Sampling where
  /-- TEMPERATURE (R315). -/
  temperature : BitVec 32 := 0
  /-- TOP_P (R315). -/
  topP : BitVec 32 := 0x3F800000
  /-- FREQUENCY (R315). -/
  frequency : BitVec 32 := 0
  /-- PRESENCE (R315). -/
  presence : BitVec 32 := 0
  /-- REPETITION (R315). -/
  repetition : BitVec 32 := 0x3F800000
  /-- TOP_K (R315). -/
  topK : Nat := 64
  /-- COUNT_PROMPT (R315). -/
  countPrompt : Bool := false
  /-- TREE_WIDTH (R315). -/
  width : Nat := 0
  /-- TREE_DEPTH (R315). -/
  depth : Nat := 0
  /-- STOP tokens (R315). -/
  stop : List Nat := []
  deriving DecidableEq, Repr

/-- A tracked request (R300-R304). -/
structure Request where
  /-- REQUEST_ID (R301). -/
  id : Nat := 0
  /-- sequence slot (R301). -/
  seqSlot : Nat := 0
  /-- admission order (R309). -/
  order : Nat := 0
  /-- PREFILL, DECODE or ENDED (R302). -/
  state : ReqState := .prefill
  /-- parked (R304). -/
  parked : Bool := false
  /-- adapter (R331). -/
  adapter : Option Nat := none
  /-- EDITION_FOLLOW (R332). -/
  follow : Bool := false
  /-- SPECULATE (R325). -/
  speculate : Bool := false
  /-- MAX_TOKENS (R301). -/
  maxTokens : Nat := 0
  /-- SEED (R314). -/
  seed : Nat := 0
  /-- RING (R319). -/
  ring : Nat := 0
  /-- RING_ENTRIES (R319). -/
  ringEntries : Nat := 0
  /-- records written (R319). -/
  ringTail : Nat := 0
  /-- records freed, as last read (R322). -/
  ringHead : Nat := 0
  /-- PROMPT_TOKENS (R301). -/
  promptTokens : Nat := 0
  /-- prompt copy (R301). -/
  prompt : List Nat := []
  /-- positions taken from the prefix (R303). -/
  prefixLen : Nat := 0
  /-- the prefix's prompt tokens (R303). -/
  prefixTokens : List Nat := []
  /-- sampling block (R315). -/
  sampling : Sampling := {}
  /-- edition pinned (R301). -/
  edition : Nat := 0
  /-- edition of the step in which each position was computed (R335). -/
  editions : List (Nat × Nat) := []
  /-- edition last used (R339). -/
  lastEdition : Nat := 0
  /-- committed length (R336). -/
  committed : Nat := 0
  /-- tokens known by position (R336). -/
  known : List (Nat × Nat) := []
  /-- next prompt position to take (R310). -/
  prefillNext : Nat := 0
  /-- positions queued as recompute rows (R336). -/
  recompute : List Nat := []
  /-- tokens emitted (R324). -/
  emitted : Nat := 0
  /-- count table (R316). -/
  counts : List (Nat × Nat) := []
  /-- END_REASON (R320). -/
  endReason : Nat := 0
  /-- status of a FAILED end (R339). -/
  endStatus : Nat := 0
  /-- full tree size (R328). -/
  full : Bool := true
  /-- consecutive full rejections (R328). -/
  rejections : Nat := 0
  /-- tokens emitted at size zero since the last probe (R328). -/
  sinceZero : Nat := 0
  /-- the tree in flight is a probe (R328). -/
  probing : Bool := false
  /-- tree nodes drafted: node, parent, token (R325). -/
  tree : List (Nat × Nat × Nat) := []
  /-- accepted path of the previous verify step (R203). -/
  accepted : List Nat := []
  /-- tick of the last step (R304). -/
  lastStep : Nat := 0
  /-- an input token waits for composition (R308). -/
  pending : Bool := false
  /-- records from this position on carry REISSUED (R336). -/
  reissueFrom : Option Nat := none
  /-- its recomputation follows a failed run (R313). -/
  failedOnce : Bool := false
  /-- ring room last reported to the embedding device (R309). -/
  rings : Nat := 0
  /-- REQUEST_RETIRE accepted (R337). -/
  retiring : Bool := false
  /-- tick number at which it was accepted (R337). -/
  retireTick : Nat := 0
  /-- extent that holds the prompt copy (R301). -/
  promptAt : Option Nat := none
  /-- extent that holds the count table (R316). -/
  countAt : Option Nat := none
  /-- prefix holder's sequence slot plus 1, 0 for none (R303). -/
  madeOf : Nat := 0
  /-- admitted on its embedding device (R300). -/
  embeds : Bool := false
  /-- admitted on its sampling device (R300). -/
  samples : Bool := false
  /-- tick of arrival of its input token or rollback (R309). -/
  inputTick : Nat := 0
  /-- last position whose token is drawn again (R336). -/
  reissueTo : Nat := 0
  /-- held back for ring room (R309). -/
  stalled : Bool := false
  deriving DecidableEq, Repr

/-- A loaded adapter (R329). -/
structure Adapter where
  /-- ADAPTER_ID (R330). -/
  id : Nat := 0
  /-- base edition (R329). -/
  edition : Nat := 0
  /-- POINTS (R329). -/
  points : Nat := 0
  /-- physical address of the image (R329). -/
  base : Nat := 0
  /-- bytes of the image (R329). -/
  bytes : Nat := 0
  /-- holds an uncorrectable word (R402). -/
  damaged : Bool := false
  deriving DecidableEq, Repr

/-- A hand-off that is arriving (R388). -/
structure Hand where
  /-- source (R388). -/
  src : Nat := 0
  /-- TAG (R388). -/
  tag : Nat := 0
  /-- ROWS, tick number and row records so far (R388). -/
  head : List (BitVec 8) := []
  /-- activation bytes landed (R388). -/
  landed : Nat := 0
  deriving DecidableEq, Repr

/-- Serving (R300-R341). -/
structure Srv where
  /-- valid templates (R305). -/
  templates : List Template := []
  /-- tracked requests (R301). -/
  requests : List Request := []
  /-- rows that wait for composition (R308). -/
  arrivals : List StepRow := []
  /-- loaded adapters (R329). -/
  adapters : List Adapter := []
  /-- adapter extents freed at a tick: tick, base, bytes (R330). -/
  adapterFree : List (Nat × Nat × Nat) := []
  /-- current edition (R333). -/
  current : Nat := 0
  /-- edition that becomes current at the tick (R333). -/
  switchDue : Option Nat := none
  /-- releasing editions (R334). -/
  releasing : List Nat := []
  /-- ring vectors due this frame (R323). -/
  ringVectors : List Nat := []
  /-- hand-offs whose rows or activations are still arriving (R388). -/
  hands : List Hand := []
  /-- requests admitted since reset (R309). -/
  admitted : Nat := 0
  /-- frames of the tier window passed (R352). -/
  tierFrames : Nat := 0
  /-- promotions started in this window (R354). -/
  tierMoves : Nat := 0
  deriving DecidableEq, Repr

/-- A packet, or what is left of one, that waits for a transmitter (R364, R367). -/
structure Waiting where
  /-- requester of the link transmitter that it requests as (R367). -/
  req : Nat := 0
  /-- channel (R364). -/
  channel : Nat := 1
  /-- its first words have been sent (R360). -/
  cont : Bool := false
  /-- words still to be sent (R365). -/
  words : List (List (BitVec 8)) := []
  deriving DecidableEq, Repr

/-- An SW-Link port (R358-R374). -/
structure Port where
  /-- port state (R358). -/
  state : PortState := .off
  /-- lanes trained (R358). -/
  lanes : Nat := 0
  /-- link-layer version (R370). -/
  llv : Nat := 0
  /-- fabric-layer version (R370). -/
  flv : Nat := 0
  /-- plan outcome, 0 pending (R373). -/
  plan : Nat := 0
  /-- REMAPPED (R374). -/
  remapped : Bool := false
  /-- PEER_ID (R393). -/
  peerId : Nat := 0xFFFF
  /-- PEER_PORT (R393). -/
  peerPort : Nat := 0
  /-- peer's serial number (R393). -/
  peerSerial : List (BitVec 8) := []
  /-- peer's highest fabric-layer version (R370). -/
  peerFlvMax : Nat := 0
  /-- FLIT_SEQ of the last flit sent, 16 bits (R360). -/
  txSeq : Nat := 0
  /-- FLIT_SEQ of the last good flit received, 16 bits (R362). -/
  rxSeq : Nat := 0xFFFF
  /-- NAK due in the next header (R362). -/
  nak : Bool := false
  /-- flits are discarded until the expected one arrives (R362). -/
  dropping : Bool := false
  /-- retry buffer: FLIT_SEQ and flit, oldest first, at most 512 (R362). -/
  retry : List (Nat × List (BitVec 8)) := []
  /-- resends of the oldest unacknowledged flit (R363). -/
  resends : Nat := 0
  /-- flits sent again on NAK (R362). -/
  resent : Nat := 0
  /-- credits held for channels 1-4 (R364). -/
  credits : List Nat := [256, 256, 256, 32]
  /-- flit buffers of channels 1-4 freed here and not yet given back in a header (R364). -/
  owed : List Nat := [0, 0, 0, 0]
  /-- words of the packet being parsed, per channel (R360). -/
  words : List (List (List (BitVec 8))) := [[], [], [], []]
  /-- time of the last good flit (R363). -/
  goodAt : Nat := 0
  /-- UP before the pause (R420). -/
  wasUp : Bool := false
  /-- plan outcome before the pause (R420). -/
  wasPlan : Nat := 0
  /-- packets that wait for the transmitter, for credits or for room in the retry buffer (R367). -/
  queue : List Waiting := []
  /-- the requester that holds the transmitter, and the beats left of its burst (R235). -/
  owner : Option (Nat × Nat) := none
  /-- the requester last granted at each rank (R235). -/
  granted : List (Nat × Nat) := []
  deriving DecidableEq, Repr

/-- The fabric (R358-R394). -/
structure Lnk where
  /-- ports XP, XN, YP, YN, ZP, ZN (R358). -/
  ports : List Port := List.replicate 6 {}
  /-- FORMED (R393). -/
  formed : Bool := false
  /-- OUT_OF_PLAN (R372). -/
  outOfPlan : Bool := false
  /-- EXPELLED (R392). -/
  expelled : Bool := false
  /-- devices known to be expelled (R392). -/
  expelledSet : List Nat := []
  /-- LEADER (R393). -/
  leader : Nat := 0xFFFF
  /-- fabric-layer version of the fabric (R370). -/
  flv : Nat := 0
  /-- nx (R372). -/
  nx : Nat := 1
  /-- ny (R372). -/
  ny : Nat := 1
  /-- nz (R372). -/
  nz : Nat := 1
  /-- PLAN_ID (R372). -/
  planId : Nat := 0
  /-- lanes of inter-cube hops (R372). -/
  hopLanes : List Nat := [8, 8, 8]
  /-- accept axis swaps (R372). -/
  swap : Bool := false
  /-- replica classes (R372). -/
  classes : List Nat := []
  /-- plan reports held (R375). -/
  reports : List Report := []
  /-- devices of the formed fabric (R375). -/
  joined : List Nat := []
  /-- first fabric tick: T_f, N_f and the frame length (R376). -/
  formAt : Option (Nat × Nat × Nat) := none
  /-- cut map, 64 bits (R393). -/
  cut : Nat := 0
  /-- cubes to cut: tick and cube (R390). -/
  cutDue : List (Nat × Nat) := []
  /-- collective packets of tasks that have not started here (R382). -/
  collWait : List Packet := []
  /-- SENDs landed and not yet met by a RECEIVE: source and TAG (R382). -/
  sends : List (Nat × Nat) := []
  /-- cubes to rejoin: tick and cube (R375). -/
  joinDue : List (Nat × Nat) := []
  /-- PARENT (R393). -/
  parent : Nat := 7
  /-- OFFSET (R393). -/
  offset : Int := 0
  /-- depth in the sync tree (R377). -/
  depth : Nat := 0
  /-- time since which the offset from the parent exceeds 2 ns (R377). -/
  offBad : Option Nat := none
  /-- next SEQUENCE per destination and channel (R366). -/
  sendSeq : List (Nat × Nat × Nat) := []
  /-- replay store (R366). -/
  replay : List Packet := []
  /-- next SEQUENCE to deliver per source and channel (R366). -/
  recvNext : List (Nat × Nat × Nat) := []
  /-- reorder store, at most 1,024 (R366). -/
  reorder : List Packet := []
  /-- packets delivered and not acknowledged per source and channel (R366). -/
  ackDue : List (Nat × Nat × Nat) := []
  /-- packets not sent because the replay store is full (R366). -/
  held : List Packet := []
  /-- higher-layer requests buffered before DIGITAL, at most 64 (R268). -/
  early : List Packet := []
  /-- packets to resend after a hint: destination, channel, sequence, time (R371). -/
  retryAt : List (Nat × Nat × Nat × Nat) := []
  /-- next logical tile of the digest rotation (R392). -/
  digestNext : Nat := 0
  /-- slice index (R392). -/
  digestIndex : Nat := 0
  /-- tick of the last slice (R392). -/
  digestTick : Nat := 0
  /-- reports held by the leader (R392). -/
  digests : List DigestRep := []
  /-- collective tasks met so far per group and TAG (R382). -/
  collIndex : List (Nat × Nat) := []
  /-- link firmware version (R370). -/
  linkFw : Nat := 0x01040000
  /-- BULK and HANDOFF streams that are arriving: source, TAG with the channel above it, payload (R386). -/
  inbound : List Stream := []
  /-- inbound packets whose landing faulted, and those behind them (R226). -/
  landWait : List Packet := []
  /-- logical ports known to be UP, by device, where not all are (R378). -/
  portMasks : List (Nat × Nat) := []
  /-- packets handed to the transmitters, oldest first (R365). -/
  sent : List Packet := []
  deriving DecidableEq, Repr

/-- A check-value unit's run state (R413-R416); its settings are registers. -/
structure CrcUnit where
  /-- running value R, 64 bits (R413). -/
  r : Nat := 0xFFFFFFFF
  /-- low half written and held (R415). -/
  heldLo : Nat := 0xFFFFFFFF
  /-- DMA engine that holds it (R222). -/
  holder : Option Nat := none
  deriving DecidableEq, Repr

/-- The run state of a sequence entry (R451-R457). -/
structure HkaEntry where
  /-- due and not started (R451). -/
  due : Bool := false
  /-- a pass is in progress (R451). -/
  running : Bool := false
  /-- passes completed (R451). -/
  passes : Nat := 0
  /-- an open-wire test is in progress (R455). -/
  testing : Bool := false
  /-- HKA_SEQ word that the pass in progress started with (R451). -/
  seq : Nat := 0
  /-- converter of the pass in progress: 0 ADC0, 1 ADC1, 3 both (R451). -/
  conv : Nat := 0
  deriving DecidableEq, Repr

/-- The housekeeping ADC (R449-R457). -/
structure Hka where
  /-- entries 0-31 (R451). -/
  entries : List HkaEntry := List.replicate 32 {}
  /-- ADC0 is converting (R468). -/
  busy0 : Bool := false
  /-- ADC1 is converting (R468). -/
  busy1 : Bool := false
  /-- pending urgent requests: converter, input, time of GO, and the wait once the conversion has started (R454). -/
  urgent : List (Nat × Nat × Nat × Option Nat) := []
  deriving DecidableEq, Repr

/-- A temperature sensor (R458-R460). -/
structure Sensor where
  /-- consecutive samples without a valid reading (R460). -/
  bad : Nat := 0
  deriving DecidableEq, Repr

/-- Temperature (R458-R461). -/
structure Thm where
  /-- sensors 0-71 (R458). -/
  sensors : List Sensor := List.replicate 72 {}
  /-- time of the last sample without a valid reading, of a sensor or of a sequence entry (R420). -/
  badAt : Nat := 0
  deriving DecidableEq, Repr

/-- Power (R462-R467). -/
structure Pwr where
  /-- governor level L (R465). -/
  level : Nat := 0
  /-- board limit waiting for the next governor period (R482). -/
  boardDue : Option Nat := none
  /-- domains requested off, 50 bits (R463). -/
  off : Nat := 0
  /-- domains that are off, 50 bits (R463). -/
  stateOff : Nat := 0
  /-- telemetry page, 4,096 bytes once refreshed (R467). -/
  telemetry : List (BitVec 8) := []
  /-- SEQUENCE of the page (R467). -/
  telemetrySeq : Nat := 0
  deriving DecidableEq, Repr

/-- The contents of a firmware slot (R420, R425). -/
structure FwImage where
  /-- the slot holds an image whose manifest and hash verify (R422). -/
  valid : Bool := false
  /-- KEY_INDEX (R423). -/
  keyIndex : Nat := 0
  /-- VERSION (R425). -/
  version : Nat := 0
  /-- SVN (R425). -/
  svn : Nat := 0
  /-- IMAGE_HASH, 512 bits (R425). -/
  hash : Nat := 0
  /-- the image (R426). -/
  bytes : List (BitVec 8) := []
  /-- COMPAT entries of components 1-8 (R425). -/
  compat : List (Nat × Nat) := []
  /-- SETTINGS_FORMAT (R425). -/
  settingsFormat : Nat := 0
  /-- SETTINGS_MIN (R425). -/
  settingsMin : Nat := 0
  /-- HANDOVER_MIN (R425). -/
  handMin : Nat := 0
  /-- HANDOVER_MAX (R425). -/
  handMax : Nat := 0
  /-- KEY_FLOOR (R425). -/
  keyFloor : Nat := 0
  deriving DecidableEq, Repr

/-- One copy of a slot selector (R421). -/
structure Selector where
  /-- sequence number (R421). -/
  seq : Nat := 0
  /-- it names slot B (R421). -/
  activeB : Bool := false
  /-- PENDING (R421). -/
  isPending : Bool := false
  /-- boot-attempt count (R424). -/
  attempts : Nat := 0
  deriving DecidableEq, Repr

/-- A firmware component's slots and selector (R421). -/
structure FwComp where
  /-- slot A (R421). -/
  slotA : FwImage := { valid := true, compat := List.replicate 8 (0, 0xFFFFFFFF) }
  /-- slot B (R421). -/
  slotB : FwImage := {}
  /-- the selector names slot B (R421). -/
  activeB : Bool := false
  /-- sequence number of the selector copy in force (R421). -/
  selSeq : Nat := 0
  /-- PENDING (R421). -/
  isPending : Bool := false
  /-- boot-attempt count (R424). -/
  attempts : Nat := 0
  /-- the other selector copy (R421). -/
  other : Selector := {}
  /-- fabric time at which the copy in force was written (R421). -/
  selAt : Option Nat := none
  /-- CONFIRMED (R447). -/
  confirmed : Bool := true
  /-- settings area (R434). -/
  settings : List (BitVec 8) := []
  /-- settings format stamped (R434). -/
  settingsFmt : Nat := 0
  /-- settings shadow area (R434). -/
  shadow : Option (List (BitVec 8)) := none
  /-- SETTINGS_RESET (R447). -/
  settingsReset : Bool := false
  /-- FELL_BACK (R447). -/
  fellBack : Bool := false
  deriving DecidableEq, Repr

/-- Firmware update (R420-R434). -/
structure Fw where
  /-- components 1-8 (R420). -/
  comps : List FwComp := [{}, {}, {}, {}, {}, { slotA := { valid := true, version := 0x01040000, compat := List.replicate 8 (0, 0xFFFFFFFF) } }, {}, {}]
  /-- component staged (R427). -/
  staged : Option Nat := none
  /-- fabric time at which the last FW_STAGE wrote its slot, the component, and whether slot B was written (R431). -/
  stagedAt : Option (Nat × Nat × Bool) := none
  /-- component whose confirmation window runs (R432). -/
  confirming : Option Nat := none
  /-- end of the window (R432). -/
  windowEnd : Nat := 0
  /-- frame ticks or time counted toward the health condition (R420). -/
  health : Nat := 0
  /-- component whose activation waits for its pause (R429). -/
  activating : Option Nat := none
  /-- that activation returns to the previous slot (R433). -/
  reverting : Bool := false
  /-- component being swapped (R429). -/
  swapping : Option Nat := none
  /-- the FW_ACTIVATE to complete (R429). -/
  activateCmd : Option CmdHdr := none
  /-- a counter write is retried at each tick (R439). -/
  counterRetry : Bool := false
  /-- flash writes fail (an external condition) (R439). -/
  flashBad : Bool := false
  /-- components staged in RECOVERY, and whether slot B was written (R436). -/
  written : List (Nat × Bool) := []
  deriving DecidableEq, Repr

/-- Security (R435-R447). -/
structure Sec where
  /-- key register block; cleared at every reset (R437). -/
  keys : Option (List Nat) := none
  /-- RECOVERY_REASON (R435). -/
  reason : Nat := 0
  /-- APPROVED (R445). -/
  approved : Bool := false
  /-- SELFTEST_OK (R447). -/
  selftestOk : Bool := false
  /-- JTAG_UNLOCKED (R446). -/
  jtag : Bool := false
  /-- ERASED (R443). -/
  erased : Bool := false
  /-- erase nonce and its time of issue (R443). -/
  nonce : Option (Nat × Nat) := none
  deriving DecidableEq, Repr

/-- On-module flash (R98, R263, R343, R408, R421, R438, R443, R461). -/
structure Flash where
  /-- configuration blob (R263). -/
  config : List (BitVec 8) := []
  /-- commit marker, 64 bytes, erased (R263). -/
  marker : List (BitVec 8) := List.replicate 64 0xFF
  /-- fabric time at which the last persistent configuration write began (R265). -/
  writeAt : Option Nat := none
  /-- the configuration generation counter before that write (R265). -/
  before : Nat := 0
  /-- monotonic counters 0-10 (R438). -/
  counters : List Nat := List.replicate 11 0
  /-- shut-down record: sensor and reading (R461). -/
  shutdown : Option (Nat × Int) := none
  /-- no power-up has reported the record yet (R461). -/
  shutdownNew : Bool := false
  /-- shut-down latch (R480). -/
  latch : Bool := false
  /-- erase marker (R443). -/
  eraseMarker : Bool := false
  /-- serial number, 14 ASCII characters (R484). -/
  serial : List (BitVec 8) := List.replicate 14 0x30
  /-- owner record's configuration key (R440). -/
  ownerKey : Option Nat := none
  deriving DecidableEq, Repr

/-- Pins, rails and the outside of the module (R472-R482). -/
structure Env where
  /-- PERST# asserted (R478). -/
  perst : Bool := false
  /-- MODULE_RST# asserted (R478). -/
  modRst : Bool := false
  /-- both rails in tolerance (R476). -/
  powered : Bool := true
  /-- MODULE_PWRGD asserted (R476). -/
  pwrgd : Bool := true
  /-- THERMTRIP# asserted (R480). -/
  thermtrip : Bool := false
  /-- cube-position straps as sampled: CUBE_X, CUBE_Y, CUBE_Z, BX, BY, BZ (R473). -/
  straps : BitVec 9 := 0
  /-- RECOVERY strap as sampled (R473). -/
  recovery : Bool := false
  /-- Bus Master Enable (R224). -/
  busMaster : Bool := true
  /-- host ranges that answer with an error: base and bytes (R224). -/
  hostHoles : List (Nat × Nat) := []
  /-- MSI-X vectors sent, oldest first (R247). -/
  msix : List Nat := []
  /-- Uncorrectable Internal Errors reported (R403). -/
  aer : Nat := 0
  /-- SPDM answers, oldest first (R441). -/
  answers : List (List (BitVec 8)) := []
  /-- MCTP answers, oldest first, each with the SMBus address at which the endpoint gave it (R474). -/
  mctp : List (Nat × List (BitVec 8)) := []
  /-- answers to BAR2 reads, none for Completer Abort (R231). -/
  bar2 : List (Option (List (BitVec 8))) := []
  /-- size of BAR2 as a power of two, 30-36 (R244). -/
  bar2Size : Nat := 34
  /-- vectors masked in the MSI-X table of BAR4 (R244). -/
  msixMask : List Nat := []
  /-- pending-bit array of BAR4: vectors that wait while masked (R244). -/
  msixPending : List Nat := []
  /-- configuration requests get retry status (R268). -/
  configRetry : Bool := true
  /-- PCIe link up (R461). -/
  links : Bool := true
  deriving DecidableEq, Repr

/-- The HUB_ block's measuring state (R28-R32) and the deferred values of the model. -/
structure Hub where
  /-- WORST restarts at the next window: KV, latency, link XP-ZN (R32). -/
  restartWorst : List Bool := List.replicate 8 true
  /-- frames of the measurement window passed (R30). -/
  frames : Nat := 0
  /-- bytes of KV pages read by attention tasks in the window (R28). -/
  winKv : Nat := 0
  /-- payload bytes delivered in the window, per port (R28). -/
  winLink : List Nat := List.replicate 6 0
  /-- ns of array steps in the critical-path bounds of the window (R28). -/
  winStep : Nat := 0
  /-- hand-off bytes in the critical-path bounds of the window (R28). -/
  winHand : Nat := 0
  /-- TIER_FRAMES, PROMOTE_USES, DEMOTE_USES, TIER_MOVES, TIER_SHARE (R356). -/
  cfgTier : List Nat := [20000, 64, 8, 64, 50]
  /-- admission floor (R263). -/
  floorState : Nat := 4
  /-- generation of the configuration in force (R258). -/
  cfgGen : Nat := 0
  /-- configuration blob in force (R442). -/
  cfgBlob : List (BitVec 8) := []
  deriving DecidableEq, Repr

/-- A latched high half (R105). -/
structure Lat where
  /-- offset of the high-half register (R105). -/
  off : Nat := 0
  /-- value latched (R105). -/
  value : BitVec 32 := 0
  deriving DecidableEq, Repr
/-- Everything of the block but its firmware slots, its security state, its flash and the queue of commands. -/
structure Dev where
  /-- The fabric counter: nanoseconds (R26). -/
  now : Nat := 0
  /-- The model's own counter that the free values are drawn from; it stands for nothing of the hardware. -/
  fresh : Nat := 0
  /-- Bring-up state (R266). -/
  bring : Bringup := .rom
  /-- Hold reason (R264). -/
  holdReason : Nat := 0
  /-- Fabric timestamp of entry into the bring-up state (R270). -/
  since : Nat := 0
  /-- Register words, by BAR0 offset, in rising order; a register that is not listed holds its reset value (R10). -/
  regs : List (Nat × Word) := []
  /-- Shadow words of registers with F-class fields written since the last tick (R10). -/
  shadow : List (Nat × Word) := []
  /-- Shadow words written in the hub cycle of the tick that is due, or after it: they take effect at the tick that follows
  it (R10). -/
  late : List (Nat × Word) := []
  /-- Latched high halves (R105). -/
  latched : List Lat := []
  /-- Device memory: HBM, staging SRAM and near store, by physical address, in rising order; an unlisted byte reads 0
  (R208). -/
  mem : List Host.Cell := []
  /-- Host memory as seen over PCIe, in rising order; an unlisted byte reads 0 (R224). -/
  host : List Host.Cell := []
  /-- Stored symbol errors: word address, symbol index and the byte added to it (R397). -/
  upsets : List (Nat × List (Nat × Byte)) := []
  /-- Limit ratios and configuration copies (R28-R32, R263). -/
  hub : Hub := {}
  /-- The plane (R60-R105). -/
  pln : Pln := {}
  /-- Currant (R106-R132). -/
  cur : Cur := {}
  /-- The wide engine (R133-R159). -/
  wde : Wde := {}
  /-- Calibration (R160-R178). -/
  cal : Cal := {}
  /-- Attention and KV frames (R179-R207). -/
  att : Att := {}
  /-- Translation and faults (R212-R233). -/
  mmu : Mmu := {}
  /-- The DMA engines (R220-R225). -/
  dma : Dma := {}
  /-- The arbiters (R234-R242). -/
  arb : Arb := {}
  /-- Mailboxes and journal (R243-R270). -/
  mbx : Mbx := {}
  /-- The graph engine (R271-R298). -/
  grf : Grf := {}
  /-- Serving (R300-R341). -/
  srv : Srv := {}
  /-- The fabric (R358-R393). -/
  lnk : Lnk := {}
  /-- The event recorder and the CPER queue (R400-R412). -/
  evr : Evr := {}
  /-- Check-value units 0-7 (R413-R418). -/
  crc : List CrcUnit := List.replicate 8 {}
  /-- The housekeeping ADC (R449-R457). -/
  hka : Hka := {}
  /-- Temperature (R458-R461). -/
  thm : Thm := {}
  /-- Power (R462-R467). -/
  pwr : Pwr := {}
  /-- Pins, rails and the outside (R472-R482). -/
  env : Env := {}
  deriving DecidableEq, Repr

/-- The state of the block. -/
structure State where
  /-- Everything but firmware, security, flash and the queue. -/
  dev : Dev := {}
  /-- Firmware update (R420-R434). -/
  fw : Fw := {}
  /-- Security (R435-R447). -/
  sec : Sec := {}
  /-- On-module flash (R263, R421, R438, R443, R461). -/
  flash : Flash := {}
  /-- The commands that wait, oldest first: the model's own queue. -/
  pending : List Instr := []
  deriving DecidableEq, Repr

/-- Reasons the machine stops. The manual states an outcome for every event of the table, so no meaning raises one:
the type is closed and empty (safe). -/
inductive Fault where
  deriving DecidableEq, Repr

/-- Reasons a command has no meaning here. -/
inductive Refusal where
  /-- The command has no meaning in this model yet; raised by a rejected arm of `exec` alone (safe). -/
  | notModelled (mnemonic : String)
  deriving DecidableEq, Repr

/-- The state right after reset of a new device: power good, resets released, bring-up state ROM, before BOOT_ROM;
every register at its Reset column, every memory empty, the queue empty (R10, R266, R478). -/
def State.reset : State := {}

end Sys2Proof.Machine
end

