-- ==== Sys2Proof/Machine/Ops.lean ====
section
/-! DEFINITION. The named operations over registers, memory and records that every meaning is written with: lists kept
in rising order, little-endian words, register fields and counters, the event recorder, CPER records, the protection
code, check values, interrupts and the free values. -/

namespace Sys2Proof.Machine

/-! ## Lists and words -/

/-- `l` with its element at `i` changed by `f`; unchanged where there is none. -/
def upd {α : Type} : List α → Nat → (α → α) → List α
  | [], _, _ => []
  | a :: l, 0, f => f a :: l
  | a :: l, i + 1, f => a :: upd l i f

/-- The value kept under `k` in a list of keys and values. -/
def look {α : Type} : List (Nat × α) → Nat → Option α
  | [], _ => none
  | (k', v) :: l, k => if k' = k then some v else look l k

/-- A list in rising key order, with `v` under `k`. -/
def put {α : Type} : List (Nat × α) → Nat → α → List (Nat × α)
  | [], k, v => [(k, v)]
  | (k', v') :: l, k, v =>
    if k < k' then (k, v) :: (k', v') :: l else if k = k' then (k, v) :: l else (k', v') :: put l k v

/-- A list of keys and values with nothing under `k`. -/
def del {α : Type} : List (Nat × α) → Nat → List (Nat × α)
  | [], _ => []
  | (k', v) :: l, k => if k' = k then del l k else (k', v) :: del l k

/-- Bits [hi:lo] of `n` (R3). -/
def bits (n hi lo : Nat) : Nat := n / 2 ^ lo % 2 ^ (hi + 1 - lo)

/-- Bit `b` of `n`. -/
def bit (n b : Nat) : Bool := n.testBit b

/-- `n` with bits [hi:lo] replaced by `v`. -/
def withBits (n hi lo v : Nat) : Nat :=
  n - bits n hi lo * 2 ^ lo + (v % 2 ^ (hi + 1 - lo)) * 2 ^ lo

/-- The `k` little-endian bytes of `n` (R4). -/
def le (n k : Nat) : List Byte := (List.range k).map fun i => BitVec.ofNat 8 (n / 2 ^ (8 * i))

/-- The number that little-endian bytes hold (R4). -/
def ofLe : List Byte → Nat
  | [] => 0
  | b :: l => b.toNat + 256 * ofLe l

/-- Bytes [o, o + k) of a byte string as a little-endian number; bytes beyond its end count as 0. -/
def leAt (l : List Byte) (o k : Nat) : Nat := ofLe ((l.drop o).take k)

/-- Two's complement value of the low `w` bits of `n`. -/
def signed (n w : Nat) : Int := if n % 2 ^ w < 2 ^ (w - 1) then ↑(n % 2 ^ w) else ↑(n % 2 ^ w) - 2 ^ w

/-- The low `w` bits of the two's complement form of `z`. -/
def unsigned (z : Int) (w : Nat) : Nat := (z % 2 ^ w).toNat

/-- `n` rounded up to a multiple of `a`. -/
def alignUp (n a : Nat) : Nat := (n + a - 1) / a * a

/-! ## Memory: rising addresses, no entry equal to the byte an unlisted address reads as -/

/-- What an unlisted byte reads as (log entry 4). -/
def unlisted : Byte := 0

/-- The byte at `a`. -/
def memGet (m : List Host.Cell) (a : Nat) : Byte := (look m a).getD unlisted

/-- Memory with byte `b` at `a`. -/
def memPut (m : List Host.Cell) (a : Nat) (b : Byte) : List Host.Cell :=
  if b = unlisted then del m a else put m a b

/-- The `n` bytes from `a` up. -/
def memLoad (m : List Host.Cell) (a : Nat) : Nat → List Byte
  | 0 => []
  | n + 1 => memGet m a :: memLoad m (a + 1) n

/-- Memory with a byte string at `a`. -/
def memStore (m : List Host.Cell) (a : Nat) : List Byte → List Host.Cell
  | [] => m
  | b :: l => memStore (memPut m a b) (a + 1) l

/-- Memory with `n` bytes from `a` up that read as an unlisted byte does. -/
def memZero (m : List Host.Cell) (a n : Nat) : List Host.Cell := m.filter fun c => decide (c.1 < a) || decide (a + n ≤ c.1)

/-- The canonical form: addresses strictly rising and no entry equal to what an unlisted address reads as. -/
def memWf : List Host.Cell → Bool
  | [] => true
  | (_, b) :: [] => decide (b ≠ unlisted)
  | (a, b) :: (a', b') :: l => decide (a < a') && decide (b ≠ unlisted) && memWf ((a', b') :: l)

/-! ## Free values (log entry 3) -/

/-- A free 32-bit value and the state with the draw taken. -/
def Dev.draw (d : Dev) : Word × Dev := (Config.freeWord d.fresh, { d with fresh := d.fresh + 1 })

/-- A free quantity and the state with the draw taken. -/
def Dev.drawNat (d : Dev) : Nat × Dev := (Config.freeNat d.fresh, { d with fresh := d.fresh + 1 })

/-- `n` free bytes and the state with the draws taken. -/
def Dev.drawBytes (d : Dev) (n : Nat) : List Byte × Dev :=
  ((List.range n).map fun i => Config.freeByte (d.fresh + i), { d with fresh := d.fresh + n })

/-! ## Registers -/

/-- The word in force of the register at BAR0 offset `off` (R10). -/
def Dev.reg (d : Dev) (off : Nat) : Nat := ((look d.regs off).getD (resetOf off)).toNat

/-- The register at `off` set to `v`, in the canonical form of the register list. -/
def Dev.setReg (d : Dev) (off v : Nat) : Dev :=
  let w := BitVec.ofNat 32 v
  { d with regs := if w = resetOf off then del d.regs off else put d.regs off w }

/-- Bits [hi:lo] of the register at `off`. -/
def Dev.fld (d : Dev) (off hi lo : Nat) : Nat := bits (d.reg off) hi lo

/-- The register at `off` with bits [hi:lo] set to `v`. -/
def Dev.setFld (d : Dev) (off hi lo v : Nat) : Dev := d.setReg off (withBits (d.reg off) hi lo v)

/-- Bit `b` of the register at `off`. -/
def Dev.bitAt (d : Dev) (off b : Nat) : Bool := bit (d.reg off) b

/-- Something is counted in the current window of the limit ratios, while they are measured (R28, R32). -/
def Dev.measure (d : Dev) (f : Hub → Hub) : Dev := if d.bitAt Off.hubRatioCtrl 8 then { d with hub := f d.hub } else d

/-- The register at `off` with bit `b` set. -/
def Dev.setBit (d : Dev) (off b : Nat) : Dev := d.setFld off b b 1

/-- A count raised by `n` and held at 0xFFFF_FFFF. -/
def Dev.bump (d : Dev) (off : Nat) (n : Nat := 1) : Dev := d.setReg off (min (d.reg off + n) 0xFFFFFFFF)

/-- A count raised by `n` that wraps to 0 after 0xFFFF_FFFF. -/
def Dev.bumpWrap (d : Dev) (off : Nat) (n : Nat := 1) : Dev := d.setReg off ((d.reg off + n) % 2 ^ 32)

/-- A 64-bit count in a low and a high register, raised by `n`. -/
def Dev.bump64 (d : Dev) (off : Nat) (n : Nat := 1) : Dev :=
  let v := (d.reg off + 2 ^ 32 * d.reg (off + 4) + n) % 2 ^ 64
  (d.setReg off (v % 2 ^ 32)).setReg (off + 4) (v / 2 ^ 32)

/-- A 64-bit value in a low and a high register. -/
def Dev.reg64 (d : Dev) (off : Nat) : Nat := d.reg off + 2 ^ 32 * d.reg (off + 4)

/-- A 64-bit value put into a low and a high register. -/
def Dev.setReg64 (d : Dev) (off v : Nat) : Dev :=
  (d.setReg off (v % 2 ^ 32)).setReg (off + 4) (v / 2 ^ 32 % 2 ^ 32)

/-! ## Check values -/

/-- `n` with its low `w` bits in reverse order. -/
def bitReverse (n w : Nat) : Nat :=
  (List.range w).foldl (fun a i => if n.testBit i then a + 2 ^ (w - 1 - i) else a) 0

/-- One bit through the register of a check-value unit (R413). -/
def crcBit (w poly r : Nat) (b : Bool) : Nat :=
  let top := xor (r.testBit (w - 1)) b
  let r' := r * 2 % 2 ^ w
  if top then r' ^^^ (poly % 2 ^ w) else r'

/-- One byte, lsb first where `refl` holds (R413). -/
def crcByte (w poly : Nat) (refl : Bool) (r : Nat) (b : Byte) : Nat :=
  (List.range 8).foldl (fun r i => crcBit w poly r (b.toNat.testBit (if refl then i else 7 - i))) r

/-- The result of R413 for a running value. -/
def crcResult (w : Nat) (reflOut inv : Bool) (r : Nat) : Nat :=
  let r := r % 2 ^ w
  let x := if reflOut then bitReverse r w else r
  if inv then x ^^^ (2 ^ w - 1) else x

/-- CRC-32C (R413). -/
def crc32c (l : List Byte) : Nat :=
  crcResult 32 true true (l.foldl (crcByte 32 0x1EDC6F41 true) 0xFFFFFFFF)

/-- The running value of the CRC-64 of R344 before its first byte. -/
def crc64Init : Nat := 0xFFFFFFFFFFFFFFFF

/-- The running value of the CRC-64 of R344 after more bytes. -/
def crc64Feed (r : Nat) (l : List Byte) : Nat := l.foldl (crcByte 64 0x42F0E1EBA9EA3693 true) r

/-- The CRC-64 of R344 (R413). -/
def crc64 (l : List Byte) : Nat := crcResult 64 true true (crc64Feed crc64Init l)

/-! ## Interrupts, events and failure signatures -/

/-- MSI-X vector `n` is sent; one that the host has masked sets its pending bit (R244, R247; log entry 121). -/
def Dev.vector (d : Dev) (n : Nat) : Dev :=
  { d with env :=
    if d.env.msixMask.contains n then { d.env with msixPending := (n :: d.env.msixPending).dedup }
    else { d.env with msix := d.env.msix ++ [n] } }

/-- The event recorder writes a record, or counts the event as lost when it is full (R408, R410). -/
def Dev.event (d : Dev) (code : Nat) (e : EventRec := {}) : Dev :=
  if d.evr.records.length < 65536 then
    let r := { e with seq := d.evr.nextSeq, code := code, ts := d.now, boot := d.evr.boot }
    let d := { d with evr := { d.evr with
                records := d.evr.records ++ [r], nextSeq := (d.evr.nextSeq + 1) % 2 ^ 32 } }
    let n := d.evr.records.length
    let notify := d.fld Off.evrCtrl 15 0
    if n = 65536 ∨ (notify ≠ 0 ∧ n % notify = 0) then d.vector 18 else d
  else (d.bump Off.evrLost).setBit Off.evrStatus 2

/-- The 64-byte image of an event record (R408). -/
def EventRec.bytes (e : EventRec) : List Byte :=
  let b := le e.seq 4 ++ le e.code 2 ++ [0, 0x80] ++ le e.ts 8 ++ le e.status 2 ++ le e.task 2 ++ le e.request 4 ++
    le e.arg0 8 ++ le e.arg1 8 ++ le e.arg2 8 ++ le e.boot 4 ++ le e.graph 1 ++ List.replicate 7 0
  b ++ le (crc32c b) 4

/-- The status registers of each block, first to third (R409). -/
def statusRegs : Nat → List Nat
  | 0 => [Off.hubRatioStatus, Off.hubFwStatus, Off.hubSecStatus]
  | 1 => [Off.plnStatus, Off.plnEdgeStatus]
  | 2 => [Off.curStatus]
  | 3 => [Off.wdeStatus, Off.wdeEdgeStatus]
  | 4 => [Off.calStatus]
  | 5 => [Off.attStatus]
  | 6 => [Off.mmuStatus]
  | 7 => [Off.dmaStatus]
  | 9 => [Off.mbxStatus]
  | 10 => [Off.grfStatus]
  | 11 => [Off.srvStatus]
  | 12 => [Off.lnkStatus]
  | 13 => [Off.evrStatus]
  | 15 => [Off.hkaStatus]
  | 16 => [Off.thmStatus]
  | 17 => [Off.pwrStatus]
  | _ => []

/-- The event code of bit `b` of the status register at `off` (R409). -/
def bitCode (off b : Nat) : Nat :=
  off / 0x10000 * 256 + 0x20 * ((statusRegs (off / 0x10000)).findIdx (· == off) % 3) + b

/-- A status bit is set and its event recorded (R409). -/
def Dev.flagEvent (d : Dev) (off b : Nat) (e : EventRec := {}) : Dev :=
  (d.setBit off b).event (if off / 0x10000 = 14 then 0x0E00 + b else bitCode off b) e

/-- Hottest die temperature, in units of 0.25 °C (R406, R458): the highest of the readings of all its sensors. -/
def Dev.hottest (d : Dev) : Int :=
  (List.range 72).foldl (fun a i => max a (signed (d.fld (Off.thmSensor + 4 * i) 15 0) 16)) (-32768)

/-- A CPER record enters the device queue, or is lost when the queue is full (R404-R406). The record numbers the one
made, counting from 1 (log entry 20). -/
def Dev.cper (d : Dev) (c : CperRec) : Dev :=
  let c := { c with recordId := d.evr.cperIds + 1, temperature := d.hottest, ts := d.now,
                    epoch := d.reg Off.calEpoch, deviceId := d.fld Off.lnkFabric 15 0 }
  let d := { d with evr := { d.evr with cperIds := d.evr.cperIds + 1, recent := (c :: d.evr.recent).take 64 } }
  if d.evr.queue.length < 64 then { d with evr := { d.evr with queue := d.evr.queue ++ [c] } }
  else ((d.bump Off.evrCperLost).setBit Off.evrStatus 3).event 0x0D84 { arg2 := c.recordId }

/-- An event record and the CPER record that matches it (R406, R408). -/
def Dev.signature (d : Dev) (code : Nat) (e : EventRec) (c : CperRec) : Dev :=
  let seq := d.evr.nextSeq
  (d.event code { e with arg2 := d.evr.cperIds + 1 }).cper { c with event := seq }

/-- A 16-byte identifier in the byte order of its first three parts (log entry 21). -/
def guid (a b c : Nat) (rest : List Byte) : List Byte := le a 4 ++ le b 2 ++ le c 2 ++ rest

/-- The 264-byte image of a CPER record (R405, R406; the header's offsets are those of the UEFI standard, log
entry 21). -/
def CperRec.bytes (c : CperRec) (serial : List Byte) : List Byte :=
  le 0x52455043 4 ++ le 0x0100 2 ++ le 0xFFFFFFFF 4 ++ le 1 2 ++ le c.severity 4 ++ le 0 4 ++ le 264 4 ++
  List.replicate 40 0 ++
  guid 0x2b9e0c7a 0x5f13 0x4c8d [0xa4, 0xe2, 0x9d, 0x61, 0xf0, 0xb8, 0x3c, 0x57] ++
  guid 0xe4d17a90 0x3b6c 0x4e25 [0x8f, 0x0a, 0x76, 0xc2, 0xb9, 0x5d, 0x1e, 0x43] ++
  le c.recordId 8 ++ List.replicate 24 0 ++
  le 200 4 ++ le 64 4 ++ le 0x0100 2 ++ [0, 0] ++ le 1 4 ++
  guid 0x8a3c5e21 0x7d44 0x4f0b [0xb6, 0xe9, 0x1c, 0x52, 0xa0, 0xd7, 0xe3, 0xf8] ++
  List.replicate 16 0 ++ le c.severity 4 ++ (serial ++ List.replicate 20 0).take 20 ++
  le 1 2 ++ le c.source 1 ++ le c.outcome 1 ++ le c.status 2 ++ le (unsigned c.temperature 16) 2 ++ le c.ts 8 ++
  le c.address 8 ++ le c.epoch 4 ++ le c.tile 4 ++ le (c.syndrome + 2 ^ 24 * c.symbol) 4 ++ le c.unitClass 1 ++
  le c.unitIndex 1 ++ le c.location 2 ++ le c.request 4 ++ le c.graph 1 ++ [0] ++ le c.task 2 ++
  le c.occurrences 4 ++ le c.event 4 ++ le c.deviceId 2 ++ [0, 0] ++ le c.edition 4

/-! ## The physical map (R208-R210) -/

/-- The memories of the device (R208). -/
inductive MemKind where
  | hbm | near0 | near1 | staging
  deriving DecidableEq, Repr

/-- The memory that holds a physical address; none in a reserved range (R208). -/
def memKind (pa : Nat) : Option MemKind :=
  if pa ≤ 0x5FFFFFFFFF then some .hbm
  else if 0x8000000000 ≤ pa ∧ pa ≤ 0x80EFFFFFFF then some .near0
  else if 0x80F0000000 ≤ pa ∧ pa ≤ 0x81DFFFFFFF then some .near1
  else if 0xC000000000 ≤ pa ∧ pa ≤ 0xC01FFFFFFF then some .staging
  else none

/-- A range lies wholly in one memory (R216). -/
def inOneMemory (pa n : Nat) : Bool :=
  match memKind pa, memKind (pa + n - 1) with
  | some k, some k' => k == k'
  | _, _ => false

/-- The HBM channel of an address (R209). -/
def hbmChannel (pa : Nat) : Nat := bits pa 15 9 ^^^ bits pa 22 16 ^^^ bits pa 29 23

/-- The near-store bank of an address (R210). -/
def nearBank (pa : Nat) : Nat :=
  if memKind pa = some .near1 then 16 + (bits (pa - 0x80F0000000) 12 9 ^^^ bits (pa - 0x80F0000000) 16 13)
  else bits (pa - 0x8000000000) 12 9 ^^^ bits (pa - 0x8000000000) 16 13

/-! ## The protection code (R397-R401) -/

/-- Product in GF(2^8) under 0x11D (R397). -/
def gfMul (a b : Nat) : Nat :=
  (List.range 8).foldl (fun r i =>
    let r2 := if r * 2 ≥ 256 then (r * 2) ^^^ 0x11D else r * 2
    if b.testBit (7 - i) then r2 ^^^ a else r2) 0

/-- α^k (R397). -/
def gfPow : Nat → Nat
  | 0 => 1
  | k + 1 => gfMul (gfPow k) 2

/-- Value at `x` of the polynomial whose coefficients stand highest first. -/
def gfEval (v : List Byte) (x : Nat) : Nat := v.foldl (fun a b => gfMul a x ^^^ b.toNat) 0

/-- Check bytes of a word: the remainder of its polynomial times x^3 by g(x) = x^3 + 7x^2 + 14x + 8 (R397). -/
def rsCheck (v : List Byte) : List Byte :=
  let r := v.foldl (fun (c : Nat × Nat × Nat) b =>
    let f := c.1 ^^^ b.toNat
    (c.2.1 ^^^ gfMul f 7, c.2.2 ^^^ gfMul f 14, gfMul f 8)) (0, 0, 0)
  [BitVec.ofNat 8 r.1, BitVec.ofNat 8 r.2.1, BitVec.ofNat 8 r.2.2]

/-- What a reader makes of a word (R398). -/
inductive RsRead where
  /-- The word is good. -/
  | good
  /-- One symbol was corrected: its index from the lowest coefficient, and the word corrected. -/
  | corrected (k : Nat) (v : List Byte)
  /-- Uncorrectable. -/
  | bad
  deriving DecidableEq, Repr

/-- The syndromes of a word (R398). -/
def rsSyndromes (v : List Byte) : Nat × Nat × Nat := (gfEval v 1, gfEval v 2, gfEval v 4)

/-- Decode a word of `v.length` symbols (R398); the flit header uses 11 of them (R397). -/
def rsDecode (v : List Byte) : RsRead :=
  let (s0, s1, s2) := rsSyndromes v
  if s0 = 0 ∧ s1 = 0 ∧ s2 = 0 then .good
  else if s0 = 0 ∨ s1 = 0 ∨ s2 = 0 then .bad
  else
    match (List.range v.length).find? fun k => gfMul s0 (gfPow k) == s1 && gfMul s1 (gfPow k) == s2 with
    | some k => .corrected k (upd v (v.length - 1 - k) (· ^^^ BitVec.ofNat 8 s0))
    | none => .bad

/-- The stored 35-byte word at word address `w` of device memory, upsets included (R397). -/
def Dev.storedWord (d : Dev) (w : Nat) : List Byte :=
  let data := memLoad d.mem (32 * w) 32
  ((look d.upsets w).getD []).foldl (fun v e => upd v e.1 (· ^^^ e.2)) (data ++ rsCheck data)

/-- The corrected count of a memory (R400). -/
def ceCounter (pa : Nat) : Nat :=
  match memKind pa with
  | some .hbm => Off.evrCeHbm
  | some .staging => Off.evrCeSram
  | _ => Off.evrCeNear

/-- SOURCE of a CPER record for a memory word (R406). -/
def cperSource (pa : Nat) : Nat :=
  match memKind pa with
  | some .hbm => 1
  | some .staging => 3
  | _ => 2

/-- LOCATION of a CPER record for a memory word (R406). -/
def cperLocation (pa : Nat) : Nat :=
  match memKind pa with
  | some .hbm => hbmChannel pa
  | some .staging => 0xFFFF
  | _ => nearBank pa

/-- Who reads: the object of the records that a bad word causes. -/
structure Reader where
  cls : Nat := 0
  index : Nat := 0
  graph : Nat := 0xFF
  task : Nat := 0xFFFF
  request : Nat := 0xFFFFFFFF
  deriving DecidableEq, Repr

/-- One more detection of a word (R406, OCCURRENCES). -/
def Dev.detect (d : Dev) (pa : Nat) : Nat × Dev :=
  let n := (look d.evr.detections pa).getD 0 + 1
  (n, { d with evr := { d.evr with detections := put d.evr.detections pa n } })

/-- A read corrected a symbol of a word (R400). -/
def Dev.corrected (d : Dev) (r : Reader) (pa k syn : Nat) : Dev :=
  let d := d.bumpWrap (ceCounter pa)
  let (n, d) := d.detect pa
  if d.evr.corrected.contains pa then d
  else
    let d := { d with evr := { d.evr with corrected := (pa :: d.evr.corrected).take 4096 } }
    d.signature 0x0D81 { arg0 := pa, task := r.task, request := r.request, graph := r.graph }
      { severity := 2, source := cperSource pa, outcome := 1, address := pa, symbol := k, syndrome := syn,
        unitClass := r.cls, unitIndex := r.index, location := cperLocation pa, graph := r.graph, task := r.task,
        request := r.request, occurrences := n }

/-- A unit met an uncorrectable word (R401). -/
def Dev.uncorrectable (d : Dev) (r : Reader) (pa syn : Nat) : Dev :=
  let d := d.bump Off.evrUeCount
  let (n, d) := d.detect pa
  let e : EventRec := { status := 0x0601, arg0 := pa, task := r.task, request := r.request, graph := r.graph }
  if d.evr.ueFrame.contains pa then d.event 0x0D80 e
  else
    let d := { d with evr := { d.evr with ueFrame := d.evr.ueFrame ++ [pa] } }
    d.signature 0x0D80 e
      { severity := 0, source := cperSource pa, outcome := 2, status := 0x0601, address := pa, syndrome := syn,
        unitClass := r.cls, unitIndex := r.index, location := cperLocation pa, graph := r.graph, task := r.task,
        request := r.request, occurrences := n }

/-- The words that a range touches and that hold upsets. -/
def Dev.badWords (d : Dev) (pa n : Nat) : List Nat :=
  (d.upsets.map (·.1)).filter fun w => decide (pa / 32 ≤ w) && decide (w < (pa + n + 31) / 32)

/-- The words of a read are checked: whether each can be used, memory with what decoding gives in their places, and the
device with what it counts and records (R398-R401). -/
def Dev.checkPa (d : Dev) (r : Reader) (pa n : Nat) : Bool × List Host.Cell × Dev :=
  (d.badWords pa n).foldl (fun (x : Bool × List Host.Cell × Dev) w =>
    let v := x.2.2.storedWord w
    let (s0, s1, s2) := rsSyndromes v
    match rsDecode v with
    | .good => (x.1, memStore x.2.1 (32 * w) (v.take 32), x.2.2)
    | .corrected k v' =>
      (x.1, memStore x.2.1 (32 * w) (v'.take 32), x.2.2.corrected r (32 * w) k (s0 + 256 * s1 + 65536 * s2))
    | .bad => (false, x.2.1, x.2.2.uncorrectable r (32 * w) (s0 + 256 * s1 + 65536 * s2))) (true, d.mem, d)

/-- Bytes at a physical address, or none where a word is uncorrectable (R399-R401). -/
def Dev.readPa (d : Dev) (r : Reader) (pa n : Nat) : Option (List Byte) × Dev :=
  let go := d.checkPa r pa n
  if go.1 then (some (memLoad go.2.1 pa n), go.2.2) else (none, go.2.2)

/-- The words that a write changes in part and that are uncorrectable (R231, R399). -/
def Dev.partBad (d : Dev) (pa n : Nat) : List Nat :=
  (d.badWords pa n).filter fun w =>
    !(decide (pa ≤ 32 * w) && decide (32 * w + 32 ≤ pa + n)) && (rsDecode (d.storedWord w) == RsRead.bad)

/-- A unit meets an uncorrectable word that it would change in part (R399, R401). -/
def Dev.meetBad (d : Dev) (r : Reader) (w : Nat) : Dev :=
  let (s0, s1, s2) := rsSyndromes (d.storedWord w)
  d.uncorrectable r (32 * w) (s0 + 256 * s1 + 65536 * s2)

/-- Store bytes at a physical address. A word that is wholly replaced is encoded anew; a word replaced in part is encoded
from what decoding it gives, and stays uncorrectable where that fails (R399, log entry 6). -/
def Dev.writePa (d : Dev) (pa : Nat) (l : List Byte) : Dev :=
  let ws := d.badWords pa l.length
  let kept := d.partBad pa l.length
  let fix := ws.foldl (fun m w =>
    match rsDecode (d.storedWord w) with
    | .good => memStore m (32 * w) ((d.storedWord w).take 32)
    | .corrected _ v => memStore m (32 * w) (v.take 32)
    | .bad => m) d.mem
  { d with mem := memStore fix pa l
           upsets := d.upsets.filter fun u => !(ws.contains u.1 && !kept.contains u.1) }

/-- Whole words from `pa` up become 0, and are encoded anew (R399). -/
def Dev.zeroPa (d : Dev) (pa n : Nat) : Dev :=
  { d with mem := memZero d.mem pa n
           upsets := d.upsets.filter fun u => !(d.badWords pa n).contains u.1 }

/-- A host range answers with an error, or Bus Master Enable is 0 for a read (R224). -/
def Dev.hostFails (d : Dev) (a n : Nat) (write : Bool) : Bool :=
  (!write && !d.env.busMaster) ||
    d.env.hostHoles.any fun h => decide (a < h.1 + h.2) && decide (h.1 < a + n)

/-- Bytes of host memory, or none where the access ends in error (R224). -/
def Dev.readHost (d : Dev) (a n : Nat) : Option (List Byte) :=
  if d.hostFails a n false then none else some (memLoad d.host a n)

/-- Store bytes in host memory; none where the access ends in error (R224). -/
def Dev.writeHost (d : Dev) (a : Nat) (l : List Byte) : Option Dev :=
  if d.hostFails a l.length true then none else some { d with host := memStore d.host a l }

/-- A write to a ring in host memory; a write that fails is recorded and its record is lost (R269). -/
def Dev.postHost (d : Dev) (a : Nat) (l : List Byte) : Dev :=
  match d.writeHost a l with
  | some d' => d'
  | none => d.event 0x0980 { status := 0x0506, arg0 := a }

/-! ## Lifting -/

/-- The device runs: both rails and MODULE_PWRGD stand, no reset input is asserted, and the shut-down latch is clear
(R461, R476-R480). -/
def State.running (s : State) : Bool :=
  s.dev.env.powered && s.dev.env.pwrgd && !s.dev.env.perst && !s.dev.env.modRst && !s.flash.latch

/-- A meaning that acts on the device alone. -/
def lift (f : Dev → Dev) (s : State) : Host.Outcome State Fault Refusal := .next { s with dev := f s.dev }

/-- A host access to BAR0: it reaches the device only while it runs. -/
def hostWrite (f : Dev → Dev) (s : State) : Host.Outcome State Fault Refusal := if s.running then lift f s else .next s

end Sys2Proof.Machine
end

