-- ==== Sys2Proof/Machine/Float.lean ====
section
/-! DEFINITION. The sixteen number formats (R33), exact rounding (R43, R44), FP32 arithmetic with clipping (R139) and the
correctly rounded functions (R148). Every value is computed exactly, as a fraction times a power of two, and rounded
once. -/

namespace Sys2Proof.Machine

/-! ## Exact values and rounding -/

/-- An exact value (-1)^neg × num / den × 2^ex. -/
structure Exact where
  neg : Bool := false
  num : Nat := 0
  den : Nat := 1
  ex : Int := 0
  deriving DecidableEq, Repr

/-- Rounding modes of the edges (R43, R44), and toward +∞ for magnitudes (R46). -/
inductive Rounding where
  | nearest
  | zero
  | stochastic (r : Nat)
  | up
  deriving DecidableEq, Repr

/-- n / d rounded to a whole number (R43, R44). -/
def roundDiv (mode : Rounding) (n d : Nat) : Nat :=
  let q := n / d
  let r := n % d
  match mode with
  | .zero => q
  | .nearest => if 2 * r > d ∨ (2 * r = d ∧ q % 2 = 1) then q + 1 else q
  | .stochastic x => if r * 65536 / d > x then q + 1 else q
  | .up => if r = 0 then q else q + 1

/-- `x` in units of 2^lsb, rounded. -/
def Exact.roundAt (x : Exact) (mode : Rounding) (lsb : Int) : Nat :=
  let s := x.ex - lsb
  if 0 ≤ s then roundDiv mode (x.num * 2 ^ s.toNat) x.den else roundDiv mode x.num (x.den * 2 ^ (-s).toNat)

/-- The k with 2^k ≤ |x| < 2^(k+1), for x ≠ 0. -/
def Exact.log2 (x : Exact) : Int :=
  let k : Int := (Nat.log2 x.num : Int) - (Nat.log2 x.den : Int)
  let below := if 0 ≤ k then decide (x.num < x.den * 2 ^ k.toNat) else decide (x.num * 2 ^ (-k).toNat < x.den)
  x.ex + (if below then k - 1 else k)

/-- `x ≤ y` for magnitudes. -/
def Exact.absLe (x y : Exact) : Bool :=
  let e := min x.ex y.ex
  decide (x.num * 2 ^ (x.ex - e).toNat * y.den ≤ y.num * 2 ^ (y.ex - e).toNat * x.den)

/-- Product. -/
def Exact.mul (x y : Exact) : Exact := ⟨xor x.neg y.neg, x.num * y.num, x.den * y.den, x.ex + y.ex⟩

/-- Quotient; a quotient by 0 takes divisor 1 and is never used for a result. -/
def Exact.div (x y : Exact) : Exact :=
  ⟨xor x.neg y.neg, x.num * y.den, x.den * (if y.num = 0 then 1 else y.num), x.ex - y.ex⟩

/-- Sum; a sum of zero is +0 unless both are −0. -/
def Exact.add (x y : Exact) : Exact :=
  let e := min x.ex y.ex
  let a : Int := ↑(x.num * 2 ^ (x.ex - e).toNat * y.den)
  let b : Int := ↑(y.num * 2 ^ (y.ex - e).toNat * x.den)
  let z := (if x.neg then -a else a) + (if y.neg then -b else b)
  ⟨if z = 0 then x.neg && y.neg else decide (z < 0), z.natAbs, x.den * y.den, e⟩

/-- An integer. -/
def Exact.ofInt (z : Int) : Exact := ⟨decide (z < 0), z.natAbs, 1, 0⟩

/-- `x < y` as numbers. -/
def Exact.lt (x y : Exact) : Bool :=
  let s := x.add { y with neg := !y.neg }
  s.neg && decide (s.num ≠ 0)

/-! ## Formats -/

/-- The number formats (R33). -/
inductive NumFmt where
  | ter2 | int3 | int4 | fp4 | int8 | e4m3 | e5m2 | mxfp4 | mxfp8 | mxint8 | fp16 | bf16 | fp32 | int16 | int32 | ue8m0
  deriving DecidableEq, Repr

/-- The format that a code names; none for 0x00 and for the codes held for later generations (R33, R34). -/
def NumFmt.ofCode : Nat → Option NumFmt
  | 0x01 => some .ter2 | 0x02 => some .int3 | 0x03 => some .int4 | 0x04 => some .fp4 | 0x05 => some .int8
  | 0x06 => some .e4m3 | 0x07 => some .e5m2 | 0x08 => some .mxfp4 | 0x09 => some .mxfp8 | 0x0A => some .mxint8
  | 0x0B => some .fp16 | 0x0C => some .bf16 | 0x0D => some .fp32 | 0x0E => some .int16 | 0x0F => some .int32
  | 0x10 => some .ue8m0 | _ => none

/-- Bits of one stored element (R33, R36); an INT3 element is held in a nibble (R342, log entry 7). -/
def NumFmt.bits : NumFmt → Nat
  | .ter2 => 2 | .int3 => 4 | .int4 => 4 | .fp4 => 4 | .int8 => 8 | .e4m3 => 8 | .e5m2 => 8 | .mxfp4 => 4
  | .mxfp8 => 8 | .mxint8 => 8 | .fp16 => 16 | .bf16 => 16 | .fp32 => 32 | .int16 => 16 | .int32 => 32 | .ue8m0 => 8

/-- An MX format: elements with a separate scale array (R36). -/
def NumFmt.isMx : NumFmt → Bool
  | .mxfp4 => true | .mxfp8 => true | .mxint8 => true | _ => false

/-- An integer format. -/
def NumFmt.isInt : NumFmt → Bool
  | .ter2 => true | .int3 => true | .int4 => true | .int8 => true | .int16 => true | .int32 => true | _ => false

/-- The layout of a floating-point format: mantissa bits, exponent bits and the exponent of its smallest step. -/
structure FloatLayout where
  mbits : Nat
  ebits : Nat
  step : Int
  maxNum : Nat
  maxEx : Int
  deriving DecidableEq, Repr

/-- The floating-point layouts (R33); the elements of MX formats are those of their element format. -/
def NumFmt.layout : NumFmt → Option FloatLayout
  | .fp4 => some ⟨1, 2, -1, 3, 1⟩ | .mxfp4 => some ⟨1, 2, -1, 3, 1⟩
  | .e4m3 => some ⟨3, 4, -9, 14, 5⟩ | .mxfp8 => some ⟨3, 4, -9, 14, 5⟩
  | .e5m2 => some ⟨2, 5, -16, 7, 13⟩
  | .fp16 => some ⟨10, 5, -24, 2047, 5⟩
  | .bf16 => some ⟨7, 8, -133, 255, 120⟩
  | .fp32 => some ⟨23, 8, -149, 16777215, 104⟩
  | _ => none

/-- The width of an integer format in bits, and the exponent of its unit (R33). -/
def NumFmt.intLayout : NumFmt → Option (Nat × Int)
  | .ter2 => some (2, 0) | .int3 => some (3, 0) | .int4 => some (4, 0) | .int8 => some (8, 0)
  | .mxint8 => some (8, -6) | .int16 => some (16, 0) | .int32 => some (32, 0) | _ => none

/-- What an element's code stands for (R33, R57). -/
inductive Elem where
  /-- A finite value. -/
  | num (x : Exact)
  /-- A NaN or an infinity, with its sign. -/
  | nonfinite (neg : Bool)
  /-- TER2 code 0b10. -/
  | reserved
  deriving DecidableEq, Repr

/-- The element that a code holds in a format (R33). -/
def NumFmt.decode (f : NumFmt) (code : Nat) : Elem :=
  match f with
  | .ter2 => if code % 4 = 2 then .reserved else .num (Exact.ofInt (signed code 2))
  | .int3 => .num (Exact.ofInt (signed code 3))
  | .int4 => .num (Exact.ofInt (signed code 4))
  | .int8 => .num (Exact.ofInt (signed code 8))
  | .mxint8 => .num { Exact.ofInt (signed code 8) with ex := -6 }
  | .int16 => .num (Exact.ofInt (signed code 16))
  | .int32 => .num (Exact.ofInt (signed code 32))
  | .ue8m0 => if code % 256 = 255 then .nonfinite false else .num ⟨false, 1, 1, (code % 256 : Nat) - 127⟩
  | _ =>
    match f.layout with
    | none => .reserved
    | some l =>
      let m := code % 2 ^ l.mbits
      let e := code / 2 ^ l.mbits % 2 ^ l.ebits
      let neg := code.testBit (l.mbits + l.ebits)
      let special :=
        match f with
        | .fp4 => false
        | .mxfp4 => false
        | .e4m3 => decide (e = 15) && decide (m = 7)
        | .mxfp8 => decide (e = 15) && decide (m = 7)
        | _ => decide (e = 2 ^ l.ebits - 1)
      if special then .nonfinite neg
      else if e = 0 then .num ⟨neg, m, 1, l.step⟩
      else .num ⟨neg, 2 ^ l.mbits + m, 1, l.step + (e - 1 : Nat)⟩

/-- The largest finite value of a format with a sign; for integer formats the end of the range of that sign, and ±127/64
for MXINT8 (R48, R55, R56). -/
def NumFmt.largest (f : NumFmt) (neg : Bool) : Exact :=
  match f.layout with
  | some l => ⟨neg, l.maxNum, 1, l.maxEx⟩
  | none =>
    match f with
    | .ter2 => ⟨neg, 1, 1, 0⟩
    | .mxint8 => ⟨neg, 127, 1, -6⟩
    | .ue8m0 => ⟨false, 1, 1, 127⟩
    | _ =>
      match f.intLayout with
      | some (w, _) => if neg then ⟨true, 2 ^ (w - 1), 1, 0⟩ else ⟨false, 2 ^ (w - 1) - 1, 1, 0⟩
      | none => {}

/-- The code of a value that is q units of 2^lsb in a floating-point layout. -/
def FloatLayout.encode (l : FloatLayout) (neg : Bool) (q : Nat) (lsb : Int) : Nat :=
  let s := if neg then 2 ^ (l.mbits + l.ebits) else 0
  if q = 0 then s
  else
    let k : Int := (Nat.log2 q : Int) + lsb
    if k < l.step + l.mbits then s + q * 2 ^ (lsb - l.step).toNat
    else
      let m := if Nat.log2 q ≤ l.mbits then q * 2 ^ (l.mbits - Nat.log2 q) else q / 2 ^ (Nat.log2 q - l.mbits)
      s + (k - l.step - l.mbits + 1).toNat * 2 ^ l.mbits + (m - 2 ^ l.mbits)

/-- A finite value converted to a format: its code, and whether it was clipped (R43, R55). A negative zero keeps its sign
in a floating-point format (R35). -/
def NumFmt.encode (f : NumFmt) (mode : Rounding) (x : Exact) : Nat × Bool :=
  match f.layout with
  | some l =>
    if x.num = 0 then (l.encode x.neg 0 l.step, false)
    else
      let lsb := max l.step (x.log2 - l.mbits)
      let q := x.roundAt mode lsb
      let y : Exact := ⟨x.neg, q, 1, lsb⟩
      if y.absLe (f.largest x.neg) then (l.encode x.neg q lsb, false)
      else (l.encode x.neg l.maxNum l.maxEx, true)
  | none =>
    match f.intLayout with
    | some (w, u) =>
      let q := x.roundAt mode u
      let lim := (f.largest x.neg).num
      let c := decide (q > lim)
      let z : Int := if c then lim else q
      (unsigned (if x.neg then -z else z) w, c)
    | none => (if x.num = 0 then 0 else (min 254 (max 0 (x.log2 + 127))).toNat, false)

/-! ## FP32 -/

/-- The exact value of an FP32 word; a NaN or an infinity counts as the largest finite value of its sign (R56). -/
def fpVal (w : Word) : Exact :=
  match NumFmt.fp32.decode w.toNat with
  | .num x => x
  | .nonfinite neg => NumFmt.fp32.largest neg
  | .reserved => {}

/-- The word is a NaN or an infinity. -/
def fpBad (w : Word) : Bool := decide (bits w.toNat 30 23 = 255)

/-- An exact value rounded to FP32, nearest, ties to even, and 1 if it was clipped (R139). -/
def fpRound (x : Exact) : Word × Nat :=
  let r := NumFmt.fp32.encode .nearest x
  (BitVec.ofNat 32 r.1, if r.2 then 1 else 0)

/-- FP32 sum; the clips so far are carried along (R138, R139). -/
def fpAdd (a b : Word × Nat) : Word × Nat :=
  let r := fpRound ((fpVal a.1).add (fpVal b.1))
  (r.1, a.2 + b.2 + r.2)

/-- FP32 product. -/
def fpMul (a b : Word × Nat) : Word × Nat :=
  let r := fpRound ((fpVal a.1).mul (fpVal b.1))
  (r.1, a.2 + b.2 + r.2)

/-- FP32 quotient. -/
def fpDiv (a b : Word × Nat) : Word × Nat :=
  let r := fpRound ((fpVal a.1).div (fpVal b.1))
  (r.1, a.2 + b.2 + r.2)

/-- An integer as FP32. -/
def fpOfInt (z : Int) : Word := (fpRound (Exact.ofInt z)).1

/-- `a < b` of FP32 numbers; the two zeros are equal. -/
def fpLt (a b : Word) : Bool := (fpVal a).lt (fpVal b)

/-- The larger of two FP32 numbers, the first of two equal ones. -/
def fpMax (a b : Word) : Word := if fpLt a b then b else a

/-- −x. -/
def fpNeg (a : Word) : Word := a ^^^ 0x80000000

/-- An FP32 value that is positive, normal and finite (R47, R146). -/
def fpPosNormal (w : Word) : Bool :=
  decide (w.toNat < 0x7F800000) && decide (0x00800000 ≤ w.toNat)

/-! ## Correctly rounded functions (R148): 1,024 fraction bits, then one rounding (log entry 8) -/

/-- Fraction bits carried. -/
def fixBits : Nat := 1024

/-- e^(n/d) for 0 ≤ n/d ≤ 400, in units of 2^-1024: the series at n/d/1024, squared ten times. -/
def expFix (n d : Nat) : Nat :=
  let one := 2 ^ fixBits
  let y := n * one / (d * 1024)
  let s := (List.range 160).foldl (fun (a : Nat × Nat) k =>
    let t := a.2 * y / ((k + 1) * one)
    (a.1 + t, t)) (one, one)
  (List.range 10).foldl (fun e _ => e * e / one) s.1

/-- The magnitude of a value as a fraction of whole numbers, held at `cap`. -/
def Exact.fraction (x : Exact) (cap : Nat) : Nat × Nat :=
  let n := if 0 ≤ x.ex then x.num * 2 ^ (min x.ex 300).toNat else x.num
  let d := if 0 ≤ x.ex then x.den else x.den * 2 ^ (-x.ex).toNat
  if n ≥ cap * d then (cap, 1) else (n, d)

/-- e^x as an exact fraction of the fixed-point series. -/
def expVal (x : Exact) : Exact :=
  let (n, d) := x.fraction 400
  let e := expFix n d
  if x.neg then ⟨false, 2 ^ fixBits, e, 0⟩ else ⟨false, e, 2 ^ fixBits, 0⟩

/-- 1 / (1 + e^-x). -/
def sigmoidVal (x : Exact) : Exact :=
  let (n, d) := x.fraction 400
  let e := expFix n d
  ⟨false, if x.neg then 2 ^ fixBits else e, 2 ^ fixBits + e, 0⟩

/-- tanh x. -/
def tanhVal (x : Exact) : Exact :=
  let (n, d) := (x.mul ⟨false, 2, 1, 0⟩).fraction 400
  let e := expFix n d
  ⟨x.neg, e - 2 ^ fixBits, e + 2 ^ fixBits, 0⟩

/-- arctan(1/k) in units of 2^-1100. -/
def arctanFix (k : Nat) : Int :=
  ((List.range 600).foldl (fun (a : Int × Nat) i =>
    let t : Int := ↑(a.2 / (2 * i + 1))
    (if i % 2 = 0 then a.1 + t else a.1 - t, a.2 / (k * k))) ((0 : Int), 2 ^ 1100 / k)).1

/-- π in units of 2^-1100 (Machin's formula). -/
def piFix : Nat := (16 * arctanFix 5 - 4 * arctanFix 239).toNat

/-- √(2/π) in units of 2^-1024. -/
def sqrtTwoOverPi : Nat := Nat.sqrt (2 * 2 ^ 1100 * 2 ^ 2048 / piFix)

/-- erf(x/√2), |x| ≤ 20, in units of 2^-1024, for x ≥ 0. -/
def erfFix (n d : Nat) : Nat :=
  let one := 2 ^ fixBits
  let x := n * one / d
  let x2 := x * x / one
  let s := (List.range 900).foldl (fun (a : Int × Nat) k =>
    let t : Int := ↑(a.2 / (2 * k + 1))
    (if k % 2 = 0 then a.1 + t else a.1 - t, a.2 * x2 / (2 * (k + 1) * one))) ((0 : Int), x)
  s.1.toNat * sqrtTwoOverPi / one

/-- sin or cos of an angle in units of 2^-1100 that lies in [0, 2π): the alternating series. -/
def sinCosFix (cos : Bool) (a : Nat) : Int :=
  let one := 2 ^ 1100
  ((List.range 160).foldl (fun (s : Int × Nat) k =>
    let t : Int := ↑s.2
    let o := if cos then 2 * k else 2 * k + 1
    (if k % 2 = 0 then s.1 + t else s.1 - t, s.2 * a / one * a / (one * ((o + 1) * (o + 2)))))
    ((0 : Int), if cos then one else a)).1

/-- sin x or cos x, rounded to FP32 (log entry 8). -/
def fpSinCos (cos : Bool) (x : Exact) : Word :=
  let n := if 0 ≤ x.ex then x.num * 2 ^ x.ex.toNat * 2 ^ 1100 / x.den
           else x.num * 2 ^ 1100 / (x.den * 2 ^ (-x.ex).toNat)
  let r := sinCosFix cos (n % (2 * piFix))
  let neg := xor (decide (r < 0)) (!cos && x.neg)
  (fpRound ⟨neg, r.natAbs, 1, -1100⟩).1

/-- The activation functions (R148): the FP32 value nearest to the exact one, and 1 if it was clipped. -/
def activation (code : Nat) (w : Word) : Word × Nat :=
  let x := fpVal w
  match code with
  | 1 => if x.neg || x.num == 0 then (0, 0) else (w, 0)
  | 2 =>
    let x3 := (x.mul (x.mul x)).mul ⟨false, 44715, 1000000, 0⟩
    let t := (x.add x3).mul ⟨false, 2 * 7978845608, 10000000000, 0⟩
    fpRound (x.mul (sigmoidVal t))
  | 3 =>
    let (n, d) := x.fraction 20
    let e := erfFix n d
    fpRound (x.mul ⟨false, if x.neg then 2 ^ fixBits - e else 2 ^ fixBits + e, 2 ^ (fixBits + 1), 0⟩)
  | 4 => fpRound (x.mul (sigmoidVal x))
  | 5 => fpRound (sigmoidVal x)
  | 6 => fpRound (tanhVal x)
  | 7 => if x.neg then (0, 0) else fpRound (x.mul x)
  | _ => (w, 0)

end Sys2Proof.Machine
end

