-- ==== Sys2Proof/Machine/Links.lean ====
section
/-! DEFINITION. The fabric's geometry, groups, routes and transmitters: coordinates and hops (R368, R373), canonical order
(R383), routes (R378), packets and flits (R359-R366). -/

namespace Sys2Proof.Machine

/-! ## Geometry -/

/-- This device's identifier in the fabric (R368). -/
def Dev.deviceId (d : Dev) : Nat := d.fld Off.lnkFabric 15 0

/-- A coordinate of a device: axis 0 X, 1 Y, 2 Z (R368). -/
def coordOf (axis id : Nat) : Nat := id / 8 ^ axis % 8

/-- A device with one coordinate replaced. -/
def withCoord (axis id c : Nat) : Nat := id - coordOf axis id * 8 ^ axis + c * 8 ^ axis

/-- The length of an axis of the plan (R372). -/
def Dev.axisLen (d : Dev) (axis : Nat) : Nat := [d.lnk.nx, d.lnk.ny, d.lnk.nz].getD axis 1

/-- The cube of a device (R368, R393). -/
def cubeOf (id : Nat) : Nat := coordOf 0 id / 2 + 4 * (coordOf 1 id / 2) + 16 * (coordOf 2 id / 2)

/-- A device lies in the plan (R372). -/
def Dev.inPlan (d : Dev) (id : Nat) : Bool :=
  decide (id < 512) && (List.range 3).all fun a => decide (coordOf a id < d.axisLen a)

/-- The devices of the plan, in rising identifier. -/
def Dev.planDevices (d : Dev) : List Nat := (List.range 512).filter d.inPlan

/-- A cube is cut (R393). -/
def Dev.cubeCut (d : Dev) (c : Nat) : Bool := bit d.lnk.cut c

/-- A device is reachable work for the fabric: in the plan and in no cut cube. -/
def Dev.present (d : Dev) (id : Nat) : Bool := d.inPlan id && !d.cubeCut (cubeOf id)

/-- The neighbour that a logical port of a device reaches: even ports go up their axis, odd ports down (R368, R373). -/
def Dev.neighbour (d : Dev) (id port : Nat) : Option Nat :=
  let axis := port / 2
  let n := d.axisLen axis
  if n ≤ 1 then none
  else
    let c := coordOf axis id
    some (withCoord axis id (if port % 2 = 0 then (c + 1) % n else (c + n - 1) % n))

/-- A port. -/
def Dev.port (d : Dev) (p : Nat) : Port := d.lnk.ports.getD p {}

/-- A port changed. -/
def Dev.modPort (d : Dev) (p : Nat) (f : Port → Port) : Dev :=
  { d with lnk := { d.lnk with ports := upd d.lnk.ports p f } }

/-- The other port of an axis. -/
def otherPort (p : Nat) : Nat := if p % 2 = 0 then p + 1 else p - 1

/-- The physical port that plays a logical port's role (R374). -/
def Dev.physPort (d : Dev) (p : Nat) : Nat := if (d.port p).remapped then otherPort p else p

/-- A logical port of a device is UP, as far as this device knows: its own ports as they are, the others' by their notices
(R378, log entry 50). -/
def Dev.knownUp (d : Dev) (id port : Nat) : Bool :=
  if id = d.deviceId then decide ((d.port (d.physPort port)).state = .up)
  else match look d.lnk.portMasks id with
    | some m => bit m port
    | none => true

/-- A hop of a device over a logical port is used by routes: both ends are present and the hop is UP (R378). -/
def Dev.hopUsable (d : Dev) (id port : Nat) : Bool :=
  match d.neighbour id port with
  | none => false
  | some n => d.present id && d.present n && d.knownUp id port && d.knownUp n (otherPort port)

/-- The next port of the dimension-ordered route: X, then Y, then Z, the shorter way around, ties to the positive
direction (R378). -/
def Dev.dimensionPort (d : Dev) (id dst : Nat) : Option Nat :=
  (List.range 3).findSome? fun a =>
    let n := d.axisLen a
    let c := coordOf a id
    let t := coordOf a dst
    if c = t then none else if (t + n - c) % n ≤ (c + n - t) % n then some (2 * a) else some (2 * a + 1)

/-- The dimension-ordered route uses usable hops only. -/
def Dev.dimensionOk (d : Dev) (dst : Nat) : Nat → Nat → Bool
  | 0, id => decide (id = dst)
  | fuel + 1, id =>
    if id = dst then true
    else
      match d.dimensionPort id dst with
      | none => false
      | some p =>
        d.hopUsable id p && match d.neighbour id p with
          | some n => d.dimensionOk dst fuel n
          | none => false

/-- Devices by distance from a destination over usable hops: one level of the search. -/
def Dev.nearer (d : Dev) (seen frontier : List Nat) : List Nat :=
  ((frontier.flatMap fun id => (List.range 6).filterMap fun p =>
    match d.neighbour id p with
    | some n => if d.hopUsable n (otherPort p) && !seen.contains n then some n else none
    | none => none)).dedup

/-- The distance of a device from a destination over usable hops. -/
def Dev.hopDistance (d : Dev) (id : Nat) : Nat → List Nat → List Nat → Nat → Option Nat
  | 0, _, _, _ => none
  | fuel + 1, seen, frontier, k =>
    if frontier.contains id then some k
    else
      let next := d.nearer seen frontier
      if next = [] then none else d.hopDistance id fuel (seen ++ next) next (k + 1)

/-- Hops from a device to a destination (R378). -/
def Dev.distance (d : Dev) (id dst : Nat) : Option Nat := d.hopDistance id 64 [dst] [dst] 0

/-- The first logical port of the route to a destination; none where it is unreachable (R378). -/
def Dev.route (d : Dev) (dst : Nat) : Option Nat :=
  let me := d.deviceId
  if !d.present dst then none
  else if d.dimensionOk dst 24 me then d.dimensionPort me dst
  else
    match d.distance me dst with
    | none => none
    | some k =>
      (List.range 6).find? fun p =>
        d.hopUsable me p && match d.neighbour me p with
          | some n => decide (d.distance n dst = some (k - 1))
          | none => false

/-! ## Groups and canonical order (R381, R383) -/

/-- The coordinates of a mask on an axis, in canonical order: ascending and cyclic from the member that follows the
largest gap, ties to the lowest coordinate (R383). -/
def axisOrder (n mask : Nat) : List Nat :=
  let ms := (List.range n).filter fun c => bit mask c
  let k := ms.length
  let gap := fun (i : Nat) =>
    if k = 1 then n else (ms.getD i 0 + n - ms.getD ((i + k - 1) % k) 0) % n
  let best := (List.range k).foldl (fun (b : Nat) i => if gap b < gap i then i else b) 0
  ms.drop best ++ ms.take best

/-- The axis orders of a group. -/
def Dev.groupAxes (d : Dev) (gx gy gz : Nat) : List (List Nat) :=
  [axisOrder d.lnk.nx gx, axisOrder d.lnk.ny gy, axisOrder d.lnk.nz gz]

/-- The members of a group in canonical order: Z outermost, then Y, then X (R383). -/
def groupMembers (axes : List (List Nat)) : List Nat :=
  (axes.getD 2 []).flatMap fun z => (axes.getD 1 []).flatMap fun y => (axes.getD 0 []).map fun x => x + 8 * y + 64 * z

/-! ## Ranks and burst limits of requesters (R235, R236) -/

/-- Reset rank and burst limit of a requester (R236); the weight-fetch port at a channel takes its rank from its owner. -/
def arbReset (cls req : Nat) : Nat × Nat :=
  match cls with
  | 0 =>
    if req = 0 then (7, 1) else if req = 1 then (0, 64) else if req = 2 then (6, 16) else if req = 3 then (5, 16)
    else if req = 4 then (5, 64) else if req ≤ 6 then (4, 64) else if req ≤ 22 then (3, 256) else (2, 64)
  | 1 =>
    if req ≤ 1 then (6, 16) else if req = 2 then (5, 16) else if req = 3 then (4, 64) else if req = 4 then (1, 16)
    else if req ≤ 20 then (3, 64) else (2, 16)
  | 2 => if req = 0 then (7, 16) else if req = 1 then (6, 256) else if req = 2 then (5, 256) else (3, 256)
  | _ => if req ≤ 1 then (6, 16) else if req = 2 then (6, 128) else if req = 3 then (5, 128) else (1, 64)

/-- A setting of a list: class, requester, rank, limit. -/
def findConfig (l : List (Nat × Nat × Nat × Nat)) (cls req : Nat) : Option (Nat × Nat) :=
  (l.find? fun c => decide (c.1 = cls) && decide (c.2.1 = req)).map (·.2.2)

/-- Rank and burst limit in force. -/
def Dev.arbConfig (d : Dev) (cls req : Nat) : Nat × Nat := (findConfig d.arb.config cls req).getD (arbReset cls req)

/-- Cyclic distance of a requester after the one last granted (R235). -/
def afterLast (n last req : Nat) : Nat := (req + n - last - 1) % n

/-! ## Packets (R365) -/

/-- The header word of a packet. -/
def packetHeader (p : Packet) : List Byte :=
  le p.dst 2 ++ le p.src 2 ++ le (p.channel % 8 + 8 * (p.type % 32)) 1 ++ le p.hops 1 ++ le (p.payload.length / 32) 1 ++
  le (p.space % 16) 1 ++ le p.seq 4 ++ le p.tag 4 ++ le p.address 8 ++ le p.ts 8

/-- The words of a packet: its header and its payload. -/
def packetWords (p : Packet) : List (List Byte) :=
  packetHeader p :: (List.range (p.payload.length / 32)).map fun i => (p.payload.drop (32 * i)).take 32

/-- A packet from its words. -/
def parsePacket (ws : List (List Byte)) : Packet :=
  let h := ws.headD []
  { dst := leAt h 0 2, src := leAt h 2 2, channel := leAt h 4 1 % 8, type := leAt h 4 1 / 8, hops := leAt h 5 1
    space := leAt h 7 1, seq := leAt h 8 4, tag := leAt h 0xC 4, address := leAt h 0x10 8, ts := leAt h 0x18 8
    payload := (ws.tail.take (leAt h 6 1)).flatten }

/-- The payload padded with zero bytes to whole words. -/
def padWords (l : List Byte) : List Byte := l ++ List.replicate (alignUp l.length 32 - l.length) 0

/-! ## Flits and transmitters (R359-R364) -/

/-- A flit: header fields with their check symbols, then the words with theirs (R359, R360). -/
def flitBytes (kind channel : Nat) (words : List (List Byte)) (continues nak : Bool) (creditCh credits ack seq : Nat) :
    List Byte :=
  let h := le (kind * 2 ^ 60 + channel * 2 ^ 57 + words.length * 2 ^ 54 + (if continues then 2 ^ 53 else 0) +
    (if nak then 2 ^ 51 else 0) + creditCh * 2 ^ 48 + credits * 2 ^ 40 + ack * 2 ^ 24 + seq * 2 ^ 8) 8
  let body := (words ++ List.replicate (7 - words.length) (List.replicate 32 0)).flatMap fun w => w ++ rsCheck w
  h ++ rsCheck h ++ body

/-- What the next header gives back: the lowest channel with freed buffers, at most 255 of them; and the port once it is
sent (R360, R364). -/
def Port.giveBack (p : Port) : Nat × Nat × Port :=
  match (List.range 4).find? fun i => decide (0 < p.owed.getD i 0) with
  | none => (0, 0, p)
  | some i =>
    let n := min 255 (p.owed.getD i 0)
    (i + 1, n, { p with owed := upd p.owed i (· - n) })

/-- The flit that the port sends while it has nothing else to send: its header repeats the last FLIT_SEQ (R359, R360; log
entry 113). -/
def Port.idleFlit (p : Port) : List Byte :=
  let (ch, n, _) := p.giveBack
  flitBytes 0 0 [] false p.nak ch n p.rxSeq p.txSeq

/-- The requester of the link transmitter that a packet requests as: NOTICE as link control, HANDOFF as the activation
hand-off, COLLECTIVE as the collective engine, BULK as the DMA engine that moves it (R236, R367). -/
def requesterOf (p : Packet) : Nat :=
  match p.channel with
  | 1 => 1 | 2 => 2 | 3 => 3 + p.engine % 16 | _ => 0

/-- A packet that waits may be sent now: it is the first of its requester, no packet of another requester has begun on its
channel, and the channel has a credit (R360, R364). -/
def Port.sendable (p : Port) (i : Nat) (w : Waiting) : Bool :=
  decide (0 < p.credits.getD (w.channel - 1) 0) &&
  ((p.queue.take i).all fun v => decide (v.req ≠ w.req)) &&
  (w.cont || p.queue.all fun v => decide (v.channel ≠ w.channel) || !v.cont)

/-- The packets that may be sent now, with their places in the queue. -/
def Port.requests (p : Port) : List (Nat × Waiting) :=
  (List.range p.queue.length).filterMap fun i =>
    (p.queue[i]?).bind fun w => if p.sendable i w then some (i, w) else none

/-- The request that the transmitter serves: its owner's while beats of the burst remain, else the first of the highest rank
present, round-robin after the one last granted at that rank (R235, R367). -/
def Port.chosen (p : Port) (rank : Nat → Nat) : Option (Nat × Waiting) :=
  let rs := p.requests
  match rs.find? fun r => decide ((p.owner.map (·.1)) = some r.2.req) && decide ((p.owner.map (·.2)) ≠ some 0) with
  | some r => some r
  | none =>
    let top := rs.foldl (fun m r => max m (rank r.2.req)) 0
    let last := (look p.granted top).getD 18
    (rs.filter fun r => decide (rank r.2.req = top)).foldl (fun (b : Option (Nat × Waiting)) r =>
      match b with
      | none => some r
      | some v => if afterLast 19 last r.2.req < afterLast 19 last v.2.req then some r else some v) none

/-- The transmitter granted to a requester for the words of one flit (R235). -/
def Port.grant (p : Port) (config : Nat → Nat × Nat) (req beats : Nat) : Port :=
  let left := match p.owner with
    | some (q, n) => if q = req ∧ n ≠ 0 then n else (config req).2
    | none => (config req).2
  { p with owner := some (req, left - beats), granted := put p.granted (config req).1 req }

/-- One flit is sent for the request chosen: at most seven of its words (R360, R364, R367). -/
def Port.sendFlit (p : Port) (config : Nat → Nat × Nat) : Option Port :=
  match p.chosen fun q => (config q).1 with
  | none => none
  | some (i, w) =>
    if p.state ≠ .up ∨ 512 ≤ p.retry.length then none
    else
      let seq := (p.txSeq + 1) % 2 ^ 16
      let (ch, n, p) := p.giveBack
      let f := flitBytes 1 w.channel (w.words.take 7) w.cont p.nak ch n p.rxSeq seq
      let rest := w.words.drop 7
      some ({ p with
        txSeq := seq
        retry := p.retry ++ [(seq, f)]
        nak := false
        credits := upd p.credits (w.channel - 1) fun n => n - 1
        queue := if rest = [] then p.queue.eraseIdx i else upd p.queue i fun v => { v with cont := true, words := rest }
        }.grant config w.req (min 7 w.words.length))

/-- Flits are sent until nothing waits, a credit is missing or the retry buffer is full; the number sent. -/
def Port.pump (p : Port) (config : Nat → Nat × Nat) : Nat → Nat × Port
  | 0 => (0, p)
  | fuel + 1 =>
    match p.sendFlit config with
    | none => (0, { p with owner := none })
    | some q =>
      let r := q.pump config fuel
      (r.1 + 1, r.2)

/-- Words that wait in a transmitter. -/
def Port.waiting (p : Port) : Nat := (p.queue.map fun w => w.words.length).sum

/-- A port's transmitter runs; DATA flits are counted, and the bytes of their words for the port's limit ratio (R28, R361,
R393). -/
def Dev.pumpPort (d : Dev) (p : Nat) : Dev :=
  let n := (d.port p).waiting
  let r := (d.port p).pump (d.arbConfig 2) (n + 1)
  if r.1 = 0 then d
  else
    ((d.modPort p fun _ => r.2).bump64 (Off.lnkPortTxLo + 0x40 * p) r.1).measure fun h =>
      { h with winLink := upd h.winLink p (· + 32 * (n - r.2.waiting)) }

/-- A packet enters the transmitter of the port on its route; a packet with no route waits in the replay store
(R366, R378). -/
def Dev.transmit (d : Dev) (p : Packet) : Dev :=
  match d.route p.dst with
  | none => d
  | some port =>
    let ph := d.physPort port
    (d.modPort ph fun t => { t with queue := t.queue ++ [{ req := requesterOf p, channel := p.channel, words := packetWords p }] }).pumpPort ph

/-- Bytes of the replay store in use (R366). -/
def Dev.replayBytes (d : Dev) : Nat := (d.lnk.replay.map fun p => 32 + p.payload.length).sum

/-- A packet is kept for replay and handed to the transmitter, or held while the replay store is full (R366). -/
def Dev.sendOrHold (d : Dev) (p : Packet) : Dev :=
  if 2 ^ 24 < d.replayBytes + 32 + p.payload.length ∨ d.lnk.held ≠ [] then
    { d with lnk := { d.lnk with held := d.lnk.held ++ [p] } }
  else { d with lnk := { d.lnk with replay := d.lnk.replay ++ [p], sent := d.lnk.sent ++ [p] } }.transmit p

/-- The next sequence number of a destination and channel (R366). -/
def Dev.nextSeq (d : Dev) (dst channel : Nat) : Nat :=
  ((d.lnk.sendSeq.find? fun (x : Nat × Nat × Nat) => decide (x.1 = dst ∧ x.2.1 = channel)).map (·.2.2)).getD 0

/-- A packet is built, numbered for its destination and channel, kept for replay and handed to the transmitter
(R365, R366). -/
def Dev.sendPacket (d : Dev) (p : Packet) : Dev :=
  let seq := d.nextSeq p.dst p.channel
  let p := { p with src := d.deviceId, seq := seq, hops := 0, ts := d.now }
  let d := { d with lnk := { d.lnk with
      sendSeq := (d.lnk.sendSeq.filter fun (x : Nat × Nat × Nat) => !decide (x.1 = p.dst ∧ x.2.1 = p.channel)) ++
        [(p.dst, p.channel, (seq + 1) % 2 ^ 32)] } }
  d.sendOrHold p

/-- A NOTICE packet: channel 4 with a type, an argument and a payload padded to whole words (R365, R389). -/
def Dev.notice (d : Dev) (dst type tag : Nat) (payload : List Byte) : Dev :=
  d.sendPacket { dst := dst, channel := 4, type := type, tag := tag, payload := padWords payload }

/-- A NOTICE to every other device of the fabric. -/
def Dev.noticeAll (d : Dev) (type tag : Nat) (payload : List Byte) : Dev :=
  (d.lnk.joined.filter (· ≠ d.deviceId)).foldl (fun d dst => d.notice dst type tag payload) d

end Sys2Proof.Machine
end

