-- ==== Sys2Proof/Machine/Memory.lean ====
section
/-! DEFINITION. Virtual memory: page-table walks, cached translations, reads and writes by virtual address, and fault
records (R212-R217, R226, R227). -/

namespace Sys2Proof.Machine

/-- Why a walk or an access behind it failed (R216, R224, R227). -/
structure FaultInfo where
  cause : Nat
  level : Nat := 0
  entry : Nat := 0
  va : Nat := 0
  write : Bool := false
  body : Bool := false
  deriving DecidableEq, Repr

/-- The outcome of an access: a value, a fault, or an uncorrectable word (R216, R401). -/
inductive Acc (α : Type) where
  | ok (a : α)
  | fault (f : FaultInfo)
  | bad
  deriving DecidableEq, Repr

/-- The root of an address space: VALID and the level-0 table (R240). -/
def Dev.root (d : Dev) (space : Nat) : Option Nat :=
  let lo := d.reg (Off.mmuRootLo + 8 * space)
  if lo.testBit 0 then some (bits lo 31 16 * 2 ^ 16 + d.fld (Off.mmuRootHi + 8 * space) 19 0 * 2 ^ 32) else none

/-- The page size of a leaf at a level under a level-3 granule (R214). -/
def pageBytes (level : Nat) (g64 : Bool) : Nat :=
  match level with
  | 1 => 2 ^ 30
  | 2 => 2 ^ 21
  | _ => if g64 then 2 ^ 16 else 2 ^ 12

/-- The index of a virtual address in a table of a level (R214). -/
def tableIndex (level : Nat) (g64 : Bool) (va : Nat) : Nat :=
  match level with
  | 0 => bits va 51 39
  | 1 => bits va 38 30
  | 2 => bits va 29 21
  | _ => if g64 then bits va 20 16 else bits va 20 12

/-- The bytes of a table that an entry of a level points to (R214). -/
def tableBytes (level : Nat) (g64 : Bool) : Nat := if level = 2 ∧ g64 then 256 else 4096

/-- A table lies wholly in HBM or the staging SRAM (R213, R216). -/
def tablePlace (pa n : Nat) : Bool :=
  inOneMemory pa n && (memKind pa == some .hbm || memKind pa == some .staging)

/-- The levels of a walk from a table (R216). -/
def Dev.walkFrom (d : Dev) (r : Reader) (space va : Nat) (write : Bool) : Nat → Nat → Nat → Bool → Acc Tlb × Dev
  | 0, _, level, _ => (.fault ⟨3, level, 0, va, write, false⟩, d)
  | fuel + 1, table, level, g64 =>
    match d.readPa r (table + 8 * tableIndex level g64 va) 8 with
    | (none, d) => (.bad, d)
    | (some l, d) =>
      let e := ofLe l
      let leaf := decide (bits e 2 1 = 1)
      let fault (c : Nat) : Acc Tlb × Dev := (.fault ⟨c, level, e, va, write, false⟩, d)
      let reserved := decide (bits e 63 62 ≠ 0) || decide (bits e 59 52 ≠ 0) || decide (bits e 11 6 ≠ 0) ||
        (!leaf && e.testBit 5) || (e.testBit 4 && (leaf || decide (level ≠ 2))) || (!leaf && e.testBit 3)
      if !e.testBit 0 then fault 1
      else if reserved || decide (2 ≤ bits e 2 1) || decide (2 ≤ bits e 61 60) then fault 3
      else
        let addr := bits e 51 12 * 4096
        if !leaf then
          let g := decide (level = 2) && e.testBit 4
          if level = 3 ∨ bits e 61 60 ≠ 0 ∨ !tablePlace addr (tableBytes level g) then fault 3
          else d.walkFrom r space va write fuel addr (level + 1) g
        else
          let pb := pageBytes level g64
          if level = 0 ∨ addr % pb ≠ 0 ∨ (bits e 61 60 = 0 ∧ !inOneMemory addr pb) then fault 3
          else if write && !e.testBit 3 then fault 2
          else (.ok ⟨space, va / pb * pb, pb, bits e 61 60, addr, e.testBit 3, e.testBit 5⟩, d)

/-- A walk, counted in MMU_WALKS (R216, R217). -/
def Dev.walk (d : Dev) (r : Reader) (space va : Nat) (write : Bool) : Acc Tlb × Dev :=
  let d := d.bump64 Off.mmuWalksLo
  if va ≥ 2 ^ 52 then (.fault ⟨4, 0, 0, va, write, false⟩, d)
  else
    match d.root space with
    | none => (.fault ⟨5, 0, 0, va, write, false⟩, d)
    | some t => d.walkFrom r space va write 4 t 0 false

/-- The cached translation of an access (R217). -/
def Dev.cached (d : Dev) (space va : Nat) (write : Bool) : Option Tlb :=
  d.mmu.tlb.find? fun t =>
    decide (t.space = space) && decide (t.va ≤ va) && decide (va < t.va + t.bytes) && (!write || t.write)

/-- The translation of an access: cached, or by a walk (R217; which translations are kept is left open, log entry 9). -/
def Dev.translate (d : Dev) (r : Reader) (space va : Nat) (write : Bool) : Acc Tlb × Dev :=
  match d.cached space va write with
  | some t => (.ok t, d)
  | none => d.walk r space va write

/-- The pieces of a range, none crossing a 4 KiB boundary: address and length. -/
def pieces (va n : Nat) : List (Nat × Nat) :=
  if n = 0 then []
  else
    (List.range ((va + n - 1) / 4096 - va / 4096 + 1)).map fun i =>
      let a := if i = 0 then va else (va / 4096 + i) * 4096
      (a, min (va + n) ((va / 4096 + i + 1) * 4096) - a)

/-- Read one piece behind its translation. -/
def Dev.readPiece (d : Dev) (r : Reader) (space va n : Nat) : Acc (List Byte) × Dev :=
  match d.translate r space va false with
  | (.fault f, d) => (.fault f, d)
  | (.bad, d) => (.bad, d)
  | (.ok t, d) =>
    let a := t.pa + (va - t.va)
    if t.target = 1 then
      match d.readHost a n with
      | some l => (.ok l, d)
      | none => (.fault ⟨6, 0, 0, va, false, false⟩, d)
    else
      match d.readPa r a n with
      | (some l, d) => (.ok l, d)
      | (none, d) => (.bad, d)

/-- Read a range by virtual address. -/
def Dev.readVa (d : Dev) (r : Reader) (space va n : Nat) : Acc (List Byte) × Dev :=
  (pieces va n).foldl (fun (x : Acc (List Byte) × Dev) p =>
    match x.1 with
    | .ok l =>
      match x.2.readPiece r space p.1 p.2 with
      | (.ok l', d) => (.ok (l ++ l'), d)
      | y => y
    | _ => x) (.ok [], d)

/-- Write one piece behind its translation. A unit does not write a word that it changes in part and that is uncorrectable
(R399, R401). -/
def Dev.writePiece (d : Dev) (r : Reader) (space va : Nat) (l : List Byte) : Acc Unit × Dev :=
  match d.translate r space va true with
  | (.fault f, d) => (.fault f, d)
  | (.bad, d) => (.bad, d)
  | (.ok t, d) =>
    let a := t.pa + (va - t.va)
    if t.target = 1 then
      match d.writeHost a l with
      | some d => (.ok (), d)
      | none => (.fault ⟨6, 0, 0, va, true, false⟩, d)
    else
      match d.partBad a l.length with
      | w :: _ => (.bad, d.meetBad r w)
      | [] => (.ok (), d.writePa a l)

/-- Write a byte string by virtual address, piece by piece. -/
def Dev.writeVa (d : Dev) (r : Reader) (space va : Nat) (l : List Byte) : Acc Unit × Dev :=
  (pieces va l.length).foldl (fun (x : Acc Unit × Dev) p =>
    match x.1 with
    | .ok _ => x.2.writePiece r space p.1 ((l.drop (p.1 - va)).take p.2)
    | _ => x) (.ok (), d)

/-- Write several byte strings. -/
def Dev.writeAll (d : Dev) (r : Reader) (space : Nat) (ws : List (Nat × List Byte)) : Acc Unit × Dev :=
  ws.foldl (fun (x : Acc Unit × Dev) w =>
    match x.1 with
    | .ok _ => x.2.writeVa r space w.1 w.2
    | _ => x) (.ok (), d)

/-- Read several ranges, each with an address and a length. -/
def Dev.readAll (d : Dev) (r : Reader) (space : Nat) (rs : List (Nat × Nat)) : Acc (List (List Byte)) × Dev :=
  rs.foldl (fun (x : Acc (List (List Byte)) × Dev) w =>
    match x.1 with
    | .ok ls =>
      match x.2.readVa r space w.1 w.2 with
      | (.ok l, d) => (.ok (ls ++ [l]), d)
      | (.fault f, d) => (.fault f, d)
      | (.bad, d) => (.bad, d)
    | _ => x) (.ok [], d)

/-- The 64-byte image of a fault record (R227). -/
def FaultRec.bytes (f : FaultRec) : List Byte :=
  let b := le f.seq 4 ++ le f.cause 1 ++ le f.unitClass 1 ++ le f.unitIndex 1 ++
    le ((if f.write then 128 else 0) + 32 * f.level + f.space) 1 ++ le f.address 8 ++ le f.entry 8 ++ le f.ts 8 ++
    le f.graph 1 ++ [0] ++ le f.task 2 ++ le f.request 4 ++ le f.resolvedAt 8 ++ le f.outcome 1 ++ [0] ++
    le f.status 2 ++ List.replicate 8 0
  b ++ le (crc32c b) 4

/-- A fault record goes into the slot that has been free longest (R227). -/
def Dev.recordFault (d : Dev) (f : FaultRec) : Dev :=
  match d.mmu.slotOrder with
  | [] => d
  | slot :: free =>
    let seq := (d.mmu.seq + 1) % 2 ^ 32
    let f := { f with seq := seq, ts := d.now }
    let keep := f.outcome ≠ 0
    let d := { d with mmu := { d.mmu with seq := seq, faults := put d.mmu.faults slot f
                                          slotOrder := if keep then free ++ [slot] else free } }
    ((d.bumpWrap Off.mmuFaults).setBit Off.mmuStatus 2).setReg Off.mmuFaultLast (slot * 2 ^ 24 + seq % 2 ^ 24)

/-- A unit holds an unresolved fault (R226). -/
def Dev.unitHolds (d : Dev) (cls index : Nat) : Bool :=
  d.mmu.faults.any fun f => decide (f.2.outcome = 0) && decide (f.2.unitClass = cls) && decide (f.2.unitIndex = index)

/-- A pending record takes its outcome, and its slot becomes free (R227, R228). -/
def Dev.resolveFault (d : Dev) (slot outcome status : Nat) : Dev :=
  match look d.mmu.faults slot with
  | none => d
  | some f =>
    if f.outcome = 0 then
      { d with mmu := { d.mmu with
          faults := put d.mmu.faults slot { f with outcome := outcome, status := status, resolvedAt := d.now }
          slotOrder := d.mmu.slotOrder ++ [slot] } }
    else d

end Sys2Proof.Machine
end

