-- ==== Sys2Proof/Machine/Requests.lean ====
section
/-! DEFINITION. Tracked requests: token rings, end records and rollback (R313, R319-R324, R336). -/

namespace Sys2Proof.Machine

/-- The tracked request with an id. -/
def Dev.request (d : Dev) (id : Nat) : Option Request := d.srv.requests.find? fun r => decide (r.id = id)

/-- A tracked request changed. -/
def Dev.modRequest (d : Dev) (id : Nat) (f : Request → Request) : Dev :=
  { d with srv := { d.srv with requests := d.srv.requests.map fun r => if r.id = id then f r else r } }

/-- A token record (R320). -/
def tokenRecord (token position ts flags endReason edition status : Nat) : List Byte :=
  let b := le token 4 ++ le position 4 ++ le ts 8 ++ le (flags % 512 + endReason * 2 ^ 16) 4 ++ le edition 4 ++
    le status 2 ++ [0, 0]
  b ++ le (crc32c b) 4

/-- A request fails without an end record, because its ring cannot be written (R322). -/
def Dev.ringFailed (d : Dev) (id : Nat) : Dev :=
  (d.event 0x0980 { status := 0x0506, request := id, arg0 := id }).modRequest id fun r =>
    { r with state := .ended, endReason := 5, endStatus := 0x0506, pending := false }

/-- Records are appended to a request's ring: the records, then TAIL; the vector becomes due (R319, R322, R323). -/
def Dev.ringWrite (d : Dev) (id : Nat) (recs : List (List Byte)) : Dev :=
  match d.request id with
  | none => d
  | some r =>
    if r.ringEntries = 0 ∨ recs = [] then d
    else
      let go := recs.foldl (fun (x : Option Dev × Nat) rec =>
        (x.1.bind fun d => d.writeHost (r.ring + 64 + 32 * (x.2 % r.ringEntries)) rec, x.2 + 1)) (some d, r.ringTail)
      match go.1.bind fun d => d.writeHost r.ring (le go.2 8) with
      | none => d.ringFailed id
      | some d =>
        let v := 19 + r.seqSlot % 45
        let d := d.modRequest id fun r => { r with ringTail := go.2 }
        if d.srv.ringVectors.contains v then d
        else { d with srv := { d.srv with ringVectors := d.srv.ringVectors ++ [v] } }

/-- A request ends, with its end record (R320, R324). -/
def Dev.endRequest (d : Dev) (id reason status : Nat) : Dev :=
  match d.request id with
  | none => d
  | some r =>
    if r.state = .ended then d
    else
      let d := d.modRequest id fun r =>
        { r with state := .ended, endReason := reason, endStatus := status, pending := false }
      d.ringWrite id
        [tokenRecord 0xFFFFFFFF r.committed d.now 0 reason r.lastEdition (if reason = 5 then status else 0)]

/-- One occurrence of a token fewer in a count table (R316). -/
def uncount (c : List (Nat × Nat)) (t : Nat) : List (Nat × Nat) :=
  match look c t with
  | some n => if n ≤ 1 then del c t else put c t (n - 1)
  | none => c

/-- The counts of tokens in a request's count table, as they now stand, go to its memory (R17, R316). -/
def Dev.storeCounts (d : Dev) (id : Nat) (toks : List Nat) : Dev :=
  match d.request id with
  | none => d
  | some r =>
    match r.countAt with
    | none => d
    | some a => toks.foldl (fun d t => d.writePa (a + 2 * t) (le ((look r.counts t).getD 0) 2)) d

/-- The position after the last prompt position (R303). -/
def Request.promptEnd (r : Request) : Nat := r.prefixLen + r.promptTokens

/-- A request rolled back to committed length `q` with its tokens known through position `k` (R336). -/
def Request.rollback (r : Request) (q k : Nat) : Request :=
  if r.state = .ended ∧ (r.endReason = 4 ∨ r.endReason = 5) then r
  else
    let gone := r.known.filter fun t => decide (k < t.1)
    let redo := (List.range (k - q)).map (· + q)
    let ready := decide (redo = []) && decide (r.promptEnd ≤ k)
    { r with
      committed := q
      known := r.known.filter fun t => decide (t.1 ≤ k)
      recompute := redo
      prefillNext := min r.prefillNext k
      counts := gone.foldl (fun c t => uncount c t.2) r.counts
      emitted := r.emitted - gone.length
      tree := []
      accepted := []
      pending := ready && r.embeds
      state := if ready then .decode else .prefill
      endReason := 0 }

/-- Rows of a request that wait for composition at a position or beyond are dropped (R336). -/
def Dev.dropArrivals (d : Dev) (id q : Nat) : Dev :=
  let keep := d.srv.arrivals.filter fun w => !(decide (w.request = id) && decide (q ≤ w.position))
  { d with srv := { d.srv with arrivals := keep } }

/-- A request rolled back here: its count table and its waiting rows follow (R316, R336). -/
def Dev.rollTo (d : Dev) (id q k : Nat) : Dev :=
  let gone := (((d.request id).map (·.known)).getD []).filter fun t => decide (k < t.1)
  let tick := d.grf.tick
  ((d.modRequest id fun r => { r.rollback q k with inputTick := tick }).storeCounts id (gone.map (·.2))).dropArrivals id q

/-- A rollback decided here, told to every device of the fabric (R336, R389; log entry 30). -/
def Dev.rollbackRequest (d : Dev) (id q k : Nat) : Dev :=
  match d.request id with
  | none => d
  | some r =>
    if r.committed < q then d
    else (d.rollTo id q k).noticeAll 3 id (le id 4 ++ le q 4 ++ le k 4)

/-- The outputs of a request are reissued from position q + 1; one that ended by RETIRED or FAILED is not taken back (R127,
R336). -/
def Dev.reissue (d : Dev) (id q : Nat) : Dev :=
  match d.request id with
  | none => d
  | some r =>
    if r.committed < q ∨ (r.state = .ended ∧ (r.endReason = 4 ∨ r.endReason = 5)) then d
    else
      let last := r.known.foldl (fun a (x : Nat × Nat) => max a x.1) q
      let d := (d.rollbackRequest id q q).modRequest id fun r =>
        { r with reissueFrom := some (q + 1), reissueTo := max r.reissueTo last }
      (d.bump Off.srvReissues).setBit Off.srvStatus 6

/-- The committed length at which a row's request began the step: BASE_LEN, or L0 where node 0 carried a compaction (R203,
R313). -/
def StepRow.began (w : StepRow) : Nat := if w.acceptCount = 0 then w.baseLen else w.baseLen - 1 - w.acceptCount

/-- The highest position of a request whose token is known, on any device of its line: here, or as a decode or tree row of the
run says, whose input is the token at its BASE_LEN (R311, R313). -/
def Request.knownTo (r : Request) (rows : List StepRow) (q : Nat) : Nat :=
  (r.known.map (·.1) ++ (rows.filter fun w => decide (w.kind = 1 ∨ w.kind = 2)).map (·.baseLen)).foldl max q

/-- A run of a template's step or draft graph failed: its requests are rolled back, or end when their recomputation, which may
be known only by its rows, fails too (R313). -/
def Dev.runFailed (d : Dev) (tmpl slot status : Nat) : Dev :=
  match d.srv.templates.find? fun t => decide (t.index = tmpl) with
  | none => d
  | some t =>
    let draft := t.draft && decide (t.draftSlot = slot) && decide (t.draftRows ≠ [])
    let rows := if draft then t.draftRows else t.running
    let d := (d.bump Off.srvRunFailures).setBit Off.srvStatus 1
    let d := { d with srv := { d.srv with templates := d.srv.templates.map fun u =>
        if u.index ≠ tmpl then u else if draft then { u with draftRows := [] } else { u with running := [] } } }
    (rows.map (·.request)).dedup.foldl (fun d id =>
      match d.request id with
      | none => d
      | some r =>
        let mine := rows.filter fun w => decide (w.request = id)
        if r.failedOnce || mine.any fun w => decide (w.kind = 3) then d.endRequest id 5 status
        else
          let q := mine.foldl (fun a w => min a w.began) r.committed
          (d.rollbackRequest id q (r.knownTo mine q)).modRequest id fun r => { r with failedOnce := true }) d

end Sys2Proof.Machine
end

