-- ==== Sys2Proof/Machine/Completion.lean ====
section
/-! DEFINITION. Journal entries and completion records (R250, R252, R260, R261). -/

namespace Sys2Proof.Machine

/-- A mailbox. -/
def Dev.box (d : Dev) (m : Nat) : Mailbox := d.mbx.boxes.getD m {}

/-- A mailbox changed. -/
def Dev.modBox (d : Dev) (m : Nat) (f : Mailbox → Mailbox) : Dev :=
  { d with mbx := { d.mbx with boxes := upd d.mbx.boxes m f } }

/-- The control register of mailbox `m` (R270). -/
def mbxCtrlOff (m : Nat) : Nat := Off.mbxCtrlAdmin + 0x20 * m

/-- Entries of the completion ring of a mailbox; 0 where none is configured (R250, R270). -/
def Dev.ringSize (d : Dev) (m : Nat) : Nat :=
  if m = 0 then 64
  else
    let l := d.fld (mbxCtrlOff m) 4 0
    if l = 0 then 0 else 2 ^ l

/-- Completion records of the mailbox wait (R270). -/
def Dev.boxPaused (d : Dev) (m : Nat) : Bool := d.bitAt (mbxCtrlOff m) 31

/-- A completion record is written, CQ_TAIL advances and the vector is sent (R247, R250, R252). -/
def Dev.postRecord (d : Dev) (m : Nat) (body : List Byte) : Dev :=
  let b := d.box m
  let size := d.ringSize m
  if size = 0 then d
  else
    let n := b.tail % size
    let img := upd body 28 fun x => if b.phase then x ||| 1 else x
    let adv := fun (b : Mailbox) =>
      { b with tail := (b.tail + 1) % 2 ^ 32, phase := if n + 1 = size then !b.phase else b.phase }
    if m = 0 then
      (d.modBox 0 fun b => adv { b with ring :=
        ((List.range 32).foldl (fun r i => put r (32 * n + i) (img.getD i 0)) b.ring) }).vector 0
    else
      let base := d.fld (Off.mbxCqBaseLo + 0x20 * m) 31 12 * 4096 + 2 ^ 32 * d.reg (Off.mbxCqBaseHi + 0x20 * m)
      ((d.postHost (base + 32 * n) img).modBox m adv).vector m

/-- Records that PAUSE held back are written (R269). -/
def Dev.releaseRecords (d : Dev) (m : Nat) : Dev :=
  let w := (d.box m).waiting
  let d := d.modBox m fun b => { b with waiting := [] }
  w.foldl (fun d r => d.postRecord m r) d

/-- The completion record of a command, before its PHASE (R252). -/
def cmdRecord (h : CmdHdr) (status result now : Nat) : List Byte :=
  le h.seq 4 ++ le h.opcode 2 ++ le status 2 ++ le now 8 ++ le result 8 ++ le h.tag 4 ++
  [0, BitVec.ofNat 8 h.mbx, 0, 0]

/-- A completion record is due: written, or held by PAUSE. -/
def Dev.respond (d : Dev) (h : CmdHdr) (status result : Nat) : Dev :=
  let img := cmdRecord h status result d.now
  if d.boxPaused h.mbx then d.modBox h.mbx fun b => { b with waiting := b.waiting ++ [img] }
  else d.postRecord h.mbx img

/-- A command that was accepted completes: its journal entry is rewritten in place while it still stands, and its
completion record is posted unless it is silent and OK (R251, R260, R261). -/
def Dev.complete (d : Dev) (h : CmdHdr) (status result : Nat) : Dev :=
  let d := { d with mbx := { d.mbx with
      journal := d.mbx.journal.map fun (e : JournalRec) =>
        if e.j = h.j then { e with done := true, completedAt := d.now, status := status } else e
      openCmds := d.mbx.openCmds.filter fun c => decide (c.j ≠ h.j) } }
  let d := d.modBox h.mbx fun b => { b with outstanding := b.outstanding - 1 }
  if h.silent ∧ status = 0 then d else d.respond h status result

/-- The 64-byte image of a journal entry (R260). -/
def JournalRec.bytes (e : JournalRec) : List Byte :=
  let b := le e.seq 4 ++ le e.opcode 2 ++ le e.mailbox 1 ++ le (if e.done then 2 else 1) 1 ++ le e.acceptedAt 8 ++
    le e.completedAt 8 ++ le e.status 2 ++ [0, 0] ++ le e.tag 4 ++ le e.hostTs 8 ++ List.replicate 20 0
  b ++ le (crc32c b) 4

end Sys2Proof.Machine
end

