-- ==== Sys2Proof/Machine/TileState.lean ====
section
/-! DEFINITION. Tiles: physical and logical tiles and their states (R65, R85, R86), the device's own regions (R211), the
calibration epoch (R173), retirement (R98), and state changes and corrections taking effect (R86, R165, R172, R174). -/

namespace Sys2Proof.Machine

/-- A graph slot. -/
def Dev.slot (d : Dev) (i : Nat) : GraphSlot := d.grf.slots.getD i {}

/-- A graph slot changed. -/
def Dev.modSlot (d : Dev) (i : Nat) (f : GraphSlot → GraphSlot) : Dev :=
  { d with grf := { d.grf with slots := upd d.grf.slots i f } }

/-! ## Numbering (R65, R462) -/

/-- The home physical tile of a logical tile (R65). -/
def homeTile (l : Nat) : Nat := l / 6144 * 8192 + 792 * (l % 6144 / 768) + l % 768

/-- The die of a physical tile (R65). -/
def dieOf (p : Nat) : Nat := p / 8192

/-- The bank of a physical tile within its die (R65). -/
def bankOf (p : Nat) : Nat := p % 8192 / 792

/-- The power domain of a physical tile's bank (R462). -/
def bankDomain (p : Nat) : Nat := 8 * dieOf p + bankOf p

/-- The index names a physical tile (R65). -/
def physExists (p : Nat) : Bool := decide (p / 8192 < 4) && decide (p % 8192 ≤ 6335)

/-- The index is one of the spares of its bank (R65). -/
def isSpareIndex (p : Nat) : Bool := decide (768 ≤ p % 8192 % 792)

/-! ## The device's own regions (R211; log entry 60) -/

/-- Bytes of a trim bank's copy in the near store, two for each trim (R160, R161). -/
def trimBytes : Nat := 14400

/-- The near-store area of a physical tile: its outlier table, its statistics and the copy of its active bank (R70, R114,
R161, R211). -/
def tileArea (p : Nat) : Nat := 0x8000000000 + (p / 8192 * 6336 + p % 8192) * 98880

/-- The area of a tile's statistics (R70). -/
def statsArea (p : Nat) : Nat := tileArea p + 83968

/-- The area of the copy of a tile's active bank (R161). -/
def trimArea (p : Nat) : Nat := tileArea p + 84480

/-- The mirror of the outlier tables in the staging SRAM (R115). -/
def mirrorArea : Nat := 0xC000400000

/-- Bytes of one place of the audit queue: two shots of drive levels, and the codes of eight firings (R124). -/
def auditBytes : Nat := 32768

/-- The place of an audit entry in the staging SRAM (R124). -/
def auditArea (i : Nat) : Nat := 0xC014400000 + i * auditBytes

/-- What Damson keeps for the device, and gives to nobody: the areas of the physical tiles in the near store, and in the
staging SRAM the event recorder, the mirror, the term store, the audit queue and the saved states (R211, R408). -/
def deviceExtents : List (Nat × Nat) := [(0x8000000000, 25344 * 98880), (0xC000000000, 0x18000000)]

/-- A physical tile; a new device's usable tiles are FREE and its spares SPARE (R65, R85). -/
def Dev.phys (d : Dev) (p : Nat) : PhysTile :=
  (look d.pln.phys p).getD (if isSpareIndex p then { state := .spare } else {})

/-- A physical tile put in place. -/
def Dev.setPhys (d : Dev) (p : Nat) (t : PhysTile) : Dev := { d with pln := { d.pln with phys := put d.pln.phys p t } }

/-- A physical tile changed. -/
def Dev.modPhys (d : Dev) (p : Nat) (f : PhysTile → PhysTile) : Dev := d.setPhys p (f (d.phys p))

/-- A physical tile's state changed; the mirror is stale when the tile enters or leaves READY (R115). -/
def Dev.setPhysState (d : Dev) (p : Nat) (st : TileState) : Dev :=
  let was := (d.phys p).state
  let d := d.modPhys p fun t => { t with state := st }
  if (was == .ready) != (st == .ready) then { d with cur := { d.cur with mirrorStale := true } } else d

/-- The record of a logical tile of a live edition. -/
def Dev.log (d : Dev) (l : Nat) : Option LogTile := look d.pln.logical l

/-- A logical tile changed, where a live edition assigns it. -/
def Dev.modLog (d : Dev) (l : Nat) (f : LogTile → LogTile) : Dev :=
  match d.log l with
  | some t => { d with pln := { d.pln with logical := put d.pln.logical l (f t) } }
  | none => d

/-- The state of a logical tile: its physical tile's, or its own where none serves it (R85). -/
def Dev.tileState (d : Dev) (l : Nat) : TileState :=
  match d.log l with
  | none => .free
  | some t =>
    match t.phys with
    | some p => (d.phys p).state
    | none => t.state

/-- The code of a tile state (R85). -/
def TileState.code : TileState → Nat
  | .free => 0 | .programming => 1 | .uncalibrated => 2 | .ready => 3 | .suspect => 4 | .retired => 5 | .spare => 6
  | .digital => 7

/-- An operation names a logical tile. -/
def PlaneOp.names (o : PlaneOp) (l : Nat) : Bool := o.entries.any fun e => decide (e.logical = l)

/-- The running operation, or one that completes its tail, names the tile (R86). -/
def Dev.tileRunning (d : Dev) (l : Nat) : Bool :=
  (match d.pln.op with
    | some o => o.names l
    | none => false) || d.pln.tails.any fun o => o.names l

/-- No running or saved operation names the tile (R172). -/
def Dev.tileIdle (d : Dev) (l : Nat) : Bool := !d.tileRunning l && !(d.pln.saved.any fun o => o.names l)

/-- The temperature of a plane die in units of 0.25 °C: the highest reading of its eight sensors (R458, log entry 31). -/
def Dev.dieTemp (d : Dev) (die : Nat) : Int :=
  (List.range 8).foldl (fun a b => max a (signed (d.fld (Off.thmSensor + 4 * (24 + 8 * die + b)) 15 0) 16)) (-32768)

/-- A domain is off (R462). -/
def Dev.domainOff (d : Dev) (n : Nat) : Bool := bit d.pwr.stateOff n

/-! ## The calibration epoch (R173) -/

/-- The epoch after one more hub cycle with changes (R173). -/
def nextEpoch (e : Nat) : Nat := if e = 0xFFFFFFFF then 1 else e + 1

/-- The device epoch advances (R173). -/
def Dev.advanceEpoch (d : Dev) : Dev := d.setReg Off.calEpoch (nextEpoch (d.reg Off.calEpoch))

/-- A changed tile takes the device epoch as its own (R173). -/
def Dev.markEpoch (d : Dev) (l : Nat) : Dev :=
  let e := d.reg Off.calEpoch
  d.modLog l fun t => { t with epoch := e }

/-- Steps from one epoch to another, counted cyclically with 0 skipped (R173). -/
def epochDist (a b : Nat) : Nat :=
  if b = 0 then 0 else if a ≤ b then b - a else b + 0xFFFFFFFF - a

/-- A tile epoch was assigned after a latched one (R91, R173). -/
def epochAfter (latched now tile : Nat) : Bool :=
  decide (tile ≠ 0) && decide (0 < epochDist latched tile) && decide (epochDist latched tile ≤ epochDist latched now)

/-! ## Passes (R166, R169) -/

/-- A pass becomes pending; a second trigger leaves the larger (R169). -/
def Dev.makePending (d : Dev) (p kind : Nat) : Dev :=
  d.modPhys p fun t => { t with passDue := max t.passDue kind }

/-- A pass in progress on a tile ends or is abandoned: its slot is free, and its candidate bank and attempts are gone
(R166). -/
def Dev.abandonPass (d : Dev) (p : Nat) : Dev :=
  if d.cal.passes.any fun c => decide (c.phys = p) then
    { d with cal := { d.cal with passes := d.cal.passes.filter fun c => decide (c.phys ≠ p) } }.modPhys p fun t =>
      { t with attempts := 0, candidate := {} }
  else d

/-- The tile starts a program or is retired: its pass is abandoned and its pending pass dropped (R166). -/
def Dev.dropPasses (d : Dev) (p : Nat) : Dev :=
  (d.abandonPass p).modPhys p fun t =>
    { t with passDue := 0, attempts := 0, candidate := {}, waiting := false, warmTrack := false }

/-! ## Audits that end (R124, R126-R128) -/

/-- An audit captured from a run has completed; its failure is kept for the run's status (R128). -/
def Dev.auditDone (d : Dev) (e : AuditEntry) (failed : Bool) : Dev :=
  d.modSlot e.slot fun g =>
    if g.state = .running ∧ g.runId = e.runId then
      { g with audits := g.audits - 1, auditFailed := g.auditFailed || failed }
    else g

/-- One audit is skipped and counted (R124). -/
def Dev.skipAudit (d : Dev) : Dev := (d.bump Off.curAuditSkips).setBit Off.curStatus 5

/-- The queued audits of a tile that is programmed or retired are dropped and counted (R124). -/
def Dev.dropAudits (d : Dev) (l : Nat) : Dev :=
  let gone := d.cur.queue.filter fun e => decide (e.logical = l)
  let d := { d with cur := { d.cur with queue := d.cur.queue.filter fun e => decide (e.logical ≠ l) } }
  gone.foldl (fun d e => (d.auditDone e false).skipAudit) d

/-- A failed audit: its counts, its records and the change to SUSPECT due at the next tick (R127). A tile replaced under
R121 fails with `sat`. -/
def Dev.failAudit (d : Dev) (e : AuditEntry) (excess : Nat) (sat : Bool) : Dev :=
  let x := min excess 255
  let ed := match d.log e.logical with
    | some t => t.edition
    | none => 0
  let d := (d.bump Off.curAuditFailures).setReg Off.curAuditLast
    (2 ^ 31 + (if sat then 2 ^ 28 else x * 2 ^ 20) + e.logical)
  let d := (d.setBit Off.curStatus 4).signature (bitCode Off.curStatus 4)
    { arg0 := e.logical, arg1 := if sat then 0 else x, task := e.task, request := e.request, graph := e.slot }
    { severity := 0, source := 7, outcome := 3, tile := e.logical, syndrome := if sat then 0 else x, graph := e.slot
      task := e.task, request := e.request, edition := ed }
  let d := { d with cur := { d.cur with failing := d.cur.failing ++ [(e.logical, e.serial)] } }
  d.modLog e.logical fun t => { t with due := t.due ++ [.toSuspect] }

/-! ## Device programs and retirement (R98, R103) -/

/-- A program that the device makes on its own, from the recorded master copy (R98, R103, R353). DESIGN CHOICE (log entry
101): R112 and R113 speak of program tasks; a program of the device latches CUR_WEIGHT_CLIP as it is queued, and is not
subject to the count of R113. -/
def Dev.queueProgram (d : Dev) (l p : Nat) : Dev :=
  { d with pln := { d.pln with prog := d.pln.prog ++
      [{ slot := 16, todo := [(l, p)], clipReg := BitVec.ofNat 32 (d.reg Off.curWeightClip) }] } }

/-- The SPARE tiles of a die, in rising index. -/
def Dev.sparesOf (d : Dev) (die : Nat) : List Nat :=
  ((List.range 192).map fun i => die * 8192 + 792 * (i / 24) + 768 + i % 24).filter fun p =>
    decide ((d.phys p).state = .spare)

/-- Physical tiles that programs not yet started have taken. -/
def Dev.taken (d : Dev) : List Nat := d.pln.prog.flatMap fun t => t.todo.map (·.2)

/-- The FREE usable tiles of a die, in rising index (R348). -/
def Dev.freesOf (d : Dev) (die : Nat) : List Nat :=
  ((List.range 6144).map fun i => die * 8192 + 792 * (i / 768) + i % 768).filter fun p =>
    decide ((d.phys p).state = .free) && !d.taken.contains p

/-- A spare of the die is assigned to a logical tile and programmed from the master copy, or the tile stays DIGITAL for
want of one (R98). -/
def Dev.assignSpare (d : Dev) (l die : Nat) : Dev :=
  match d.sparesOf die with
  | [] => (d.modLog l fun t => { t with spare := none }).flagEvent Off.plnStatus 7 { arg0 := l }
  | q :: _ =>
    let n := d.fld Off.plnSpares (8 * die + 7) (8 * die)
    let d := d.setFld Off.plnSpares (8 * die + 7) (8 * die) (n - 1)
    let d := d.modPhys q fun t => { t with state := .free, logical := some l }
    (d.modLog l fun t => { t with spare := some q }).queueProgram l q

/-- A physical tile is retired (R98): its logical tile enters DIGITAL at the next tick and a spare of the die is
prepared for it. A tile retired during its promotion leaves its logical tile DIGITAL, with no spare, so that the next window
may take it again (R355). -/
def Dev.retireTile (d : Dev) (p : Nat) : Dev :=
  let lo := (d.phys p).logical
  let d := (d.dropPasses p).setPhysState p .retired
  let l := lo.getD 0xFFFFF
  let d := (d.dropAudits l).flagEvent Off.plnStatus 6 { arg0 := l }
  match lo with
  | none => d
  | some l =>
    let d := d.modPhys p fun t => { t with logical := none }
    match d.log l with
    | none => d
    | some t =>
      if t.phys = some p then (d.modLog l fun t => { t with due := t.due ++ [.toDigital] }).assignSpare l (dieOf p)
      else if isSpareIndex p then d.assignSpare l (dieOf p)
      else d.modLog l fun t => { t with spare := none }

/-! ## Corrections and state changes taking effect (R86, R165, R172, R174) -/

/-- The waiting bank of a tile becomes its active bank, with its records (R161, R163, R174). The caller has advanced the
epoch. -/
def Dev.applyBank (d : Dev) (p : Nat) : Dev :=
  let t := d.phys p
  let d := (d.zeroPa (trimArea p) trimBytes).setPhys p
    { t with active := t.candidate, nearCopy := t.candidate, nearCopyOk := true, candidate := {}, waiting := false
             warmTrack := false, temperature := t.waitTemp, gainMax := t.waitGain, grade := t.waitGrade
             count := min (t.count + 1) 0xFFFFFFFF, last := d.now }
  let d := (d.bump Off.calCount).setReg64 Off.calLastLo d.now
  match t.logical with
  | none => d
  | some l =>
    match d.log l with
    | none => d
    | some lt =>
      if lt.phys = some p then
        let d := d.markEpoch l
        if t.state = .uncalibrated then d.setPhysState p .ready else d
      else if lt.spare = some p then
        (d.setPhysState p .ready).modLog l fun x => { x with due := x.due ++ [.remap] }
      else d

/-- A physical tile becomes FREE and keeps its wear (R334, R353). -/
def Dev.freePhys (d : Dev) (p : Nat) : Dev :=
  ((d.dropPasses p).setPhysState p .free).modPhys p fun t =>
    { t with logical := none, levels := [], grade := 0 }

/-- A refresh of a tile is queued already. -/
def Dev.refreshQueued (d : Dev) (l p : Nat) : Bool :=
  d.pln.prog.any fun t => decide (t.slot = 16) && t.todo.contains (l, p)

/-- A change of R86 or R402 takes effect on a logical tile. The caller has advanced the epoch. -/
def Dev.applyChange (d : Dev) (l : Nat) (c : TileChange) : Dev :=
  match d.log l with
  | none => d
  | some t =>
    let suspect := fun (d : Dev) (p : Nat) =>
      ((d.setPhysState p .suspect).modPhys p fun x => { x with attempts := 0 }).makePending p 2 |>.markEpoch l
    match c with
    | .toSuspect =>
      match t.phys with
      | some p => if (d.phys p).state = .ready then suspect d p else d
      | none => d
    | .calSuspect =>
      match t.phys with
      | some p =>
        if (d.phys p).state = .ready then
          ((suspect d p).bump Off.calSuspects).flagEvent Off.calStatus 6 { arg0 := l }
        else d
      | none => d
    | .refresh =>
      match t.phys with
      | some p =>
        let d' := if (d.phys p).state = .ready then suspect d p else d
        if (d'.phys p).state = .suspect ∧ !d.refreshQueued l p then d'.queueProgram l p else d'
      | none => d
    | .toReady =>
      match t.phys with
      | some p =>
        if (d.phys p).state = .suspect then
          ((d.setPhysState p .ready).applyBank p).markEpoch l
        else d
      | none => d
    | .toDigital =>
      let d := match t.phys with
        | some p => if (d.phys p).state = TileState.retired then d else d.freePhys p
        | none => d
      (d.modLog l fun x => { x with phys := none, state := .digital }).markEpoch l
    | .remap =>
      match t.spare with
      | some q =>
        ({ d with cur := { d.cur with mirrorStale := true } }.modLog l fun x =>
          { x with phys := some q, spare := none }).markEpoch l
      | none => d
    | .damaged => d.modLog l fun x => { x with masterDamaged := true }

/-- A change counts for the epoch (R86, R173). -/
def TileChange.counts : TileChange → Bool
  | .damaged => false
  | _ => true

/-- A change has an effect on its tile as it now stands, so that the epoch advances for it (R173). -/
def Dev.takesEffect (d : Dev) (l : Nat) (c : TileChange) : Bool :=
  match d.log l with
  | none => false
  | some t =>
    let is := fun (st : TileState) => match t.phys with
      | some p => decide ((d.phys p).state = st)
      | none => false
    match c with
    | .toSuspect => is .ready
    | .calSuspect => is .ready
    | .refresh => is .ready
    | .toReady => is .suspect
    | .toDigital => true
    | .remap => t.spare.isSome
    | .damaged => false

/-- The changes held back by an operation take effect when it ends (R86, R90). -/
def Dev.applyHeld (d : Dev) (ls : List Nat) : Dev :=
  let due := ls.dedup.flatMap fun l =>
    match d.log l with
    | some t => if d.tileRunning l then [] else t.held.map fun c => (l, c)
    | none => []
  if due = [] then d
  else
    let d := if due.any fun x => d.takesEffect x.1 x.2 then d.advanceEpoch else d
    due.foldl (fun d x => (d.applyChange x.1 x.2).modLog x.1 fun t => { t with held := [] }) d

end Sys2Proof.Machine
end

