-- ==== Sys2Proof/Machine/Graphs.lean ====
section
/-! DEFINITION. What every engine does to graphs: task states, completions, failures and stops for faults
(R226-R230, R280-R283, R289). -/

namespace Sys2Proof.Machine

/-- The run state of a task. -/
def Dev.taskRun (d : Dev) (slot task : Nat) : TaskRun := (d.slot slot).run.getD task {}

/-- The header of a task. -/
def Dev.taskHdr (d : Dev) (slot task : Nat) : TaskHdr := (d.slot slot).tasks.getD task {}

/-- The progress of a task changed. -/
def Dev.setTask (d : Dev) (slot task : Nat) (st : TaskSt) : Dev :=
  d.modSlot slot fun g => { g with run := upd g.run task fun t => { t with st := st } }

/-- A unit has finished a task; the completion is counted by TASK_COMPLETE (R280). The task's quality flags are kept. -/
def Dev.endTask (d : Dev) (slot task flags : Nat) : Dev :=
  d.modSlot slot fun g => { g with run := upd g.run task fun t => { t with st := .ended, flags := t.flags ||| flags } }

/-- Quality flags of rows ORed into those that a task has gathered, by row of its M (R321). -/
def orRows (l : List (Nat × Nat)) (fs : List (Nat × Nat)) : List (Nat × Nat) :=
  fs.foldl (fun l f => if f.2 = 0 then l else put l f.1 ((look l f.1).getD 0 ||| f.2)) l

/-- Flags of consecutive rows from a first one on. -/
def rowsFrom (row : Nat) (fs : List Nat) : List (Nat × Nat) := fs.zipIdx.map fun f => (row + f.2, f.1)

/-- A unit has finished a task, with the flags that arose in rows of its M beside those of the whole task (R280, R321). -/
def Dev.endTaskRows (d : Dev) (slot task flags : Nat) (rows : List (Nat × Nat)) : Dev :=
  (d.endTask slot task flags).modSlot slot fun g =>
    { g with run := upd g.run task fun t => { t with rowFlags := orRows t.rowFlags rows } }

/-- LABEL of a task's header, which the event record of a fault names in ARG1 (R275, R408; log entry 111). -/
def Dev.taskLabel (d : Dev) (slot task : Nat) : Nat := (d.taskHdr slot task).label

/-- The request that a task's header names (R275). -/
def Dev.taskRequest (d : Dev) (slot task : Nat) : Nat := (d.taskHdr slot task).request

/-- Who reads, for a task of a unit (R226). -/
def Dev.reader (d : Dev) (cls index slot task : Nat) : Reader :=
  ⟨cls, index, slot, task, d.taskRequest slot task⟩

/-- RESULT of a GRAPH_RUN completion (R283). -/
def GraphSlot.result (g : GraphSlot) : Nat := g.done + 2 ^ 32 * g.overrunFrames

/-- A run is over: the GRAPH_RUN completes with the graph's status, a GRAPH_CANCEL that waits completes, and the slot
returns to LOADED (R257, R274, R283). -/
def Dev.finishRun (d : Dev) (slot status : Nat) : Dev :=
  let g := d.slot slot
  let d := match g.cmd with
    | some h => d.complete h status g.result
    | none => d
  let d := match g.cancel with
    | some h => d.complete h 0 0
    | none => d
  d.modSlot slot fun g => { g with state := .loaded, cmd := none, cancel := none, status := 0, ticks := 0,
                                   overran := false, audits := 0, auditFailed := false, template := none }

/-- Programming rounds that still hold tiles of a graph (R95). -/
def Dev.programming (d : Dev) (slot : Nat) : Bool :=
  d.pln.rounds.any fun r => r.owner.any fun o => decide (o.1 = slot)

/-- A check-value unit released by an engine (R222). -/
def Dev.releaseUnit (d : Dev) (e : Nat) : Dev :=
  { d with crc := d.crc.map fun u => if u.holder = some e then { u with holder := none } else u }

/-- The payload of an ABORT notice (R389). -/
def CollTask.abortPayload (c : CollTask) (status : Nat) : List Byte :=
  le (c.gx + 256 * c.gy + 65536 * c.gz) 4 ++ le c.tag 4 ++ le c.index 4 ++ le status 4

/-- The other members of a collective; the peer where it has no group (R381, R387). -/
def Dev.collOthers (d : Dev) (c : CollTask) : List Nat :=
  (if 1 ≤ c.kind ∧ c.kind ≤ 4 then groupMembers (d.groupAxes c.gx c.gy c.gz) else [c.peer]).filter fun m =>
    decide (m ≠ d.deviceId)

/-- A collective ends here in failure: it is counted (R387). -/
def Dev.countAbort (d : Dev) : Dev := (d.bump Off.lnkCollAborts).setBit Off.lnkStatus 6

/-- The collective tasks of a graph abort: an ABORT notice goes to every other member (R387). -/
def Dev.abortColls (d : Dev) (slot status : Nat) : Dev :=
  (d.grf.colls.filter fun c => decide (c.slot = slot)).foldl (fun d c =>
    (d.collOthers c).foldl (fun d m => d.notice m 4 c.tag (c.abortPayload status)) d.countAbort) d

/-- Every task of a graph stops and its running, saved and stopped states are discarded (R230). Tiles in started
programming rounds keep running to the end of their round (R95). -/
def Dev.discardTasks (d : Dev) (slot : Nat) : Dev :=
  let d := (d.dma.tasks.filter fun t => decide (t.slot = slot) && !t.saved).foldl (fun d t => d.releaseUnit t.engine) d
  let keepOp := fun (o : PlaneOp) => decide (o.slot ≠ slot)
  let keepTile := fun (t : Option OutTile) =>
    match t with
    | some o => if o.slot = slot then none else t
    | none => none
  { d with
    pln := { d.pln with
      op := match d.pln.op with
        | some o => if o.slot = slot then none else some o
        | none => none
      saved := d.pln.saved.filter keepOp
      tails := d.pln.tails.filter keepOp
      prog := d.pln.prog.filter fun p => decide (p.slot ≠ slot) }
    wde := { d.wde with tasks := d.wde.tasks.filter fun t => decide (t.slot ≠ slot),
                        tile0 := keepTile d.wde.tile0, tile1 := keepTile d.wde.tile1 }
    att := { d.att with tasks := d.att.tasks.filter fun t => decide (t.slot ≠ slot) }
    dma := { d.dma with tasks := d.dma.tasks.filter fun t => decide (t.slot ≠ slot) }
    grf := { d.grf with pip := d.grf.pip.filter fun p => decide (p.slot ≠ slot)
                        colls := d.grf.colls.filter fun c => decide (c.slot ≠ slot) } }

/-- Pending fault records of a graph take OUTCOME 4, with the status that the graph fails with (R227, R230). -/
def Dev.closeFaults (d : Dev) (slot status : Nat) : Dev :=
  (d.mmu.faults.filter fun f => decide (f.2.graph = slot)).foldl (fun d f => d.resolveFault f.1 4 status) d

/-- The logical tiles that a graph's plane operations name. -/
def Dev.tilesNamed (d : Dev) (slot : Nat) : List Nat :=
  (((match d.pln.op with
    | some o => [o]
    | none => []) ++ d.pln.saved ++ d.pln.tails).filter fun o => decide (o.slot = slot)).flatMap fun o =>
      o.entries.map (·.logical)

/-- A graph fails or is cancelled; what its operations held back takes effect, as they have ended (R90, R230, R274, R313,
R387). -/
def Dev.failGraph (d : Dev) (slot status : Nat) (arg2 : Nat := 0) : Dev :=
  let g := d.slot slot
  if g.state ≠ .running then d
  else
    let ls := d.tilesNamed slot
    let d := (((d.abortColls slot status).discardTasks slot).applyHeld ls).closeFaults slot status
    let d := d.event 0x0A80 { status := status, graph := slot, arg0 := slot, arg1 := g.label, arg2 := arg2 }
    let d := match g.template with
      | some t => d.runFailed t slot status
      | none => d
    if d.programming slot then d.modSlot slot fun g => { g with state := .stopping, status := status }
    else d.finishRun slot status

/-- A task whose body fails its checks is rejected, and its graph fails with that status (R282). -/
def Dev.rejectTask (d : Dev) (slot status : Nat) : Dev :=
  (d.setBit Off.grfStatus 5).failGraph slot status

/-- A graph whose programming rounds have ended stops being STOPPING (R274, R283). -/
def Dev.settle (d : Dev) (slot : Nat) : Dev :=
  let g := d.slot slot
  if g.state = .stopping ∧ !d.programming slot then d.finishRun slot g.status else d

/-- A unit of a task stops for a fault: a record goes to Damson, which fails the graph at once for every cause but
NOT_MAPPED and WRITE_PROTECT (R226-R228). A unit that holds an unresolved fault takes no second one: another task of it that
faults waits at its access until the first is resolved (log entry 108). -/
def Dev.unitFault (d : Dev) (cls index slot task space : Nat) (f : FaultInfo) : Dev :=
  let now := decide (f.cause = 1 ∨ f.cause = 2)
  let status := 0x0500 + f.cause
  if now && d.unitHolds cls index then d
  else
  let d := d.recordFault { cause := f.cause, unitClass := cls, unitIndex := index, write := f.write, level := f.level,
                           space := space, address := f.va, entry := f.entry, graph := slot, task := task,
                           request := d.taskRequest slot task,
                           outcome := if now then 0 else 2, status := if now then 0 else status,
                           resolvedAt := if now then 0 else d.now }
  if now then d
  else
    (d.event 0x0680 { status := status, graph := slot, task := task, request := d.taskRequest slot task,
                      arg0 := f.va, arg1 := d.taskLabel slot task }).failGraph slot status

/-- Words found uncorrectable in this frame: the requests of an adapter that holds one end (R402). -/
def Dev.damageAdapters (d : Dev) (words : List Nat) : Dev :=
  let hit := d.srv.adapters.filter fun a => words.any fun w => decide (a.base ≤ w + 31) && decide (w < a.base + a.bytes)
  let d := { d with srv := { d.srv with adapters := d.srv.adapters.map fun a =>
      if (hit.any fun h => decide (h.id = a.id)) then { a with damaged := true } else a } }
  hit.foldl (fun d a =>
    ((d.srv.requests.filter fun r => decide (r.adapter = some a.id)).map (·.id)).foldl
      (fun d id => d.endRequest id 5 0x0601) d) d

/-- A task met an uncorrectable word (R401); a loaded adapter that holds it fails its requests (R402). -/
def Dev.dataBad (d : Dev) (slot : Nat) : Dev := (d.damageAdapters d.evr.ueFrame).failGraph slot 0x0601

/-- A residue or parity mismatch in a unit's task (R403): its records, and the graph fails with LOGIC_CHECK. -/
def Dev.logicCheck (d : Dev) (cls index slot task : Nat) : Dev :=
  let req := d.taskRequest slot task
  let d := { d with evr := { d.evr with logicAt := put d.evr.logicAt cls d.now } }
  let d := (d.bump Off.evrLogicChecks).signature 0x0D82
    { status := 0x0602, task := task, request := req, graph := slot, arg1 := d.taskLabel slot task }
    { severity := 0, source := 11, outcome := 2, status := 0x0602, unitClass := cls, unitIndex := index,
      graph := slot, task := task, request := req }
  d.failGraph slot 0x0602

/-- The effective rank of a graph slot's task. -/
def Dev.rank (d : Dev) (slot : Nat) : Nat := (d.slot slot).rank

/-- The issue order of R281: higher rank first, then the earlier accepted run, then the lower task index. -/
def Dev.before (d : Dev) (a b : Nat × Nat) : Bool :=
  let ga := d.slot a.1
  let gb := d.slot b.1
  if ga.rank ≠ gb.rank then decide (gb.rank < ga.rank)
  else if a.1 ≠ b.1 then decide (ga.order < gb.order)
  else decide (a.2 < b.2)

/-- The first of a list of tasks in the issue order. -/
def Dev.firstTask (d : Dev) : List (Nat × Nat) → Option (Nat × Nat)
  | [] => none
  | t :: l =>
    match d.firstTask l with
    | none => some t
    | some u => if d.before u t then some u else some t

/-- The tasks with a progress in the running graphs, by slot and index. -/
def Dev.tasksIn (d : Dev) (st : TaskSt) : List (Nat × Nat) :=
  (List.range 16).flatMap fun i =>
    let g := d.slot i
    if g.state = .running then
      (List.range g.run.length).filterMap fun t => if (g.run.getD t {}).st = st then some (i, t) else none
    else []

/-- A rank that the protection rule holds back (R290). -/
def Dev.protectedOut (d : Dev) (rank : Nat) : Bool :=
  let p := d.fld Off.grfCtrl 10 8
  decide (p ≠ 0) && decide (rank < p) &&
    (d.grf.slots.any fun g => decide (g.state = .running) && decide (p ≤ g.rank))

/-- The engine issues and resumes no task: HOLD, or a service pause (R298, R429). -/
def Dev.issueHeld (d : Dev) : Bool := d.bitAt Off.grfCtrl 0 || d.grf.paused

/-- The address of a task's body (R275). -/
def Dev.bodyVa (d : Dev) (slot task : Nat) : Nat := (d.slot slot).base + 256 * task + 64

/-- Bytes have landed in an address space, by a BAR2 write or an inbound BULK packet: a RELAY task whose source holds them
notes the granules (R382). -/
def Dev.relayLanded (d : Dev) (space va n : Nat) : Dev :=
  let note := fun (c : CollTask) =>
    if c.kind = 7 ∧ c.space = space then
      let gs := (List.range ((c.count + 63) / 64)).filter fun g =>
        let a := c.src + 64 * g
        decide (va ≤ a) && decide (min (a + 64) (c.src + c.count) ≤ va + n) && !c.landed.contains g
      { c with landed := c.landed ++ gs }
    else c
  { d with grf := { d.grf with colls := d.grf.colls.map note } }

end Sys2Proof.Machine
end

