-- ==== Sys2Proof/Machine/Flags.lean ====
section
/-! DEFINITION. Quality flags (R320, R321) and the edge counts of R54-R59. -/

namespace Sys2Proof.Machine

/-- Quality-flag bits of a token record (R320). -/
def qClipped : Nat := 1
/-- NONFINITE. -/
def qNonfinite : Nat := 2
/-- OUTLIER_CLIPPED. -/
def qOutlier : Nat := 4
/-- ACC_CLIPPED. -/
def qAcc : Nat := 8
/-- KV_CLIPPED. -/
def qKv : Nat := 16
/-- COARSE_TILE. -/
def qCoarse : Nat := 32
/-- REFERENCE. -/
def qReference : Nat := 64

/-- What a conversion counts (R57). -/
structure EdgeCount where
  nonfinite : Nat := 0
  clipped : Nat := 0
  underflow : Nat := 0
  deriving DecidableEq, Repr

/-- Counts added. -/
def EdgeCount.add (a b : EdgeCount) : EdgeCount :=
  ⟨a.nonfinite + b.nonfinite, a.clipped + b.clipped, a.underflow + b.underflow⟩

/-- The quality flags that an edge's counts set; underflow sets none (R54-R56). -/
def EdgeCount.quality (c : EdgeCount) : Nat :=
  (if c.clipped = 0 then 0 else qClipped) ||| (if c.nonfinite = 0 then 0 else qNonfinite)

/-- One status bit set and one count raised, where there is something to count. -/
def Dev.countFlag (d : Dev) (status b counter n : Nat) : Dev :=
  if n = 0 then d else (d.bump counter n).setBit status b

/-- The counts of an edge enter its status registers: the plane edge at PLN_EDGE_STATUS, the wide-engine edge at
WDE_EDGE_STATUS (R58). No rule asks for an event record of it (log entry 22). -/
def Dev.edge (d : Dev) (status : Nat) (c : EdgeCount) : Dev :=
  let d := d.countFlag status 0 (status + 4) c.underflow
  let d := d.countFlag status 1 (status + 8) c.clipped
  d.countFlag status 2 (status + 12) c.nonfinite

/-- Clipped accumulations (R139). -/
def Dev.accClipped (d : Dev) (n : Nat) : Dev := d.countFlag Off.wdeStatus 4 Off.wdeAccClipped n

/-- The accumulation flag where something was clipped. -/
def accFlag (n : Nat) : Nat := if n = 0 then 0 else qAcc

/-- The quality flags of a row: of its clips and of what the edge counted for it. -/
def rowFlag (clips : Nat) (c : EdgeCount) : Nat := accFlag clips ||| c.quality

/-- rand64 of R314. -/
def mix64 (z : Nat) : Nat :=
  let z := (z ^^^ (z / 2 ^ 30)) * 0xBF58476D1CE4E5B9 % 2 ^ 64
  let z := (z ^^^ (z / 2 ^ 27)) * 0x94D049BB133111EB % 2 ^ 64
  z ^^^ (z / 2 ^ 31)

/-- The counter generator (R314). -/
def rand64 (k a b : Nat) : Nat := mix64 (mix64 ((k + a * 0x9E3779B97F4A7C15) % 2 ^ 64) ^^^ b % 2 ^ 64)

/-- The rounding mode of a 2-bit field at an element (R43, R44). -/
def roundingOf (field seed tensor index : Nat) : Rounding :=
  match field with
  | 1 => .zero
  | 2 => .stochastic (rand64 seed tensor index % 65536)
  | _ => .nearest

end Sys2Proof.Machine
end

