-- ==== Sys2Proof/Machine/Operands.lean ====
section
/-! DEFINITION. Operand arrays in memory: packing of every format (R33, R36, R342), reading through an edge (R56, R57),
block scales (R46, R48) and writing converted values. -/

namespace Sys2Proof.Machine

/-- `n` little-endian words of `k` bytes. -/
def leWords (k : Nat) : Nat → List Byte → List Nat
  | 0, _ => []
  | n + 1, l => ofLe (l.take k) :: leWords k n (l.drop k)

/-- The codes of `n` packed elements. -/
def codesOf (f : NumFmt) (n : Nat) (l : List Byte) : List Nat :=
  match f.bits with
  | 2 => (l.flatMap fun b => [b.toNat % 4, b.toNat / 4 % 4, b.toNat / 16 % 4, b.toNat / 64]).take n
  | 4 => (l.flatMap fun b => [b.toNat % 16, b.toNat / 16]).take n
  | 8 => (l.map (·.toNat)).take n
  | 16 => leWords 2 n l
  | _ => leWords 4 n l

/-- Bytes that `n` packed elements take. -/
def packedBytes (f : NumFmt) (n : Nat) : Nat := (n * f.bits + 7) / 8

/-- Groups of `k` elements, the last one shorter; `n` bounds the number of groups. -/
def groupsOf {α : Type} (k : Nat) : Nat → List α → List (List α)
  | 0, _ => []
  | _, [] => []
  | n + 1, l => l.take k :: groupsOf k n (l.drop k)

/-- Packed codes; bit 3 of an INT3 nibble is a copy of bit 2 (R342). -/
def packCodes (f : NumFmt) (cs : List Nat) : List Byte :=
  match f.bits with
  | 2 => (groupsOf 4 cs.length cs).map fun g =>
      BitVec.ofNat 8 ((g.reverse).foldl (fun a c => a * 4 + c % 4) 0)
  | 4 =>
    let fix := fun c => if f = .int3 then unsigned (signed c 3) 4 else c % 16
    (groupsOf 2 cs.length cs).map fun g => BitVec.ofNat 8 ((g.reverse).foldl (fun a c => a * 16 + fix c) 0)
  | 8 => cs.map (BitVec.ofNat 8 ·)
  | 16 => cs.flatMap fun c => le c 2
  | _ => cs.flatMap fun c => le c 4

/-- Bytes from one row's start to the next: whole 64-byte steps (R137, R342). -/
def rowStride (f : NumFmt) (n : Nat) : Nat := alignUp (packedBytes f n) 64

/-- One element as an edge reads it into a target format: its value, and 1 where it was non-finite or reserved (R56). -/
def edgeElem (f tgt : NumFmt) (scaleBad : Bool) (code : Nat) : Exact × Nat :=
  match f.decode code with
  | .num x => if scaleBad then (f.largest (code.testBit (f.bits - 1)), 1) else (x, 0)
  | .nonfinite neg => (if f.isMx then f.largest neg else tgt.largest neg, 1)
  | .reserved => ({}, 1)

/-- A row of elements as an edge reads it, with 1 for each one that was non-finite; an MX block with scale code 0xFF is 32 NaN elements (R56). -/
def edgeRow (f tgt : NumFmt) (scales : List Nat) (codes : List Nat) : List Exact × List Nat :=
  let r :=
    if f.isMx then
      ((groupsOf 32 codes.length codes).zipIdx).flatMap fun g =>
        g.1.map (edgeElem f tgt (decide (scales.getD g.2 127 = 255)))
    else codes.map (edgeElem f tgt false)
  (r.map (·.1), r.map (·.2))

/-- An element is zero; both zeros count (R35). -/
def Exact.isZero (x : Exact) : Bool := decide (x.num = 0)

/-- The elements of a reduction row with the groups of 32 that are all zero made absent, and the number of such groups
(R54). -/
def skipGroups (xs : List Exact) : List (Option Exact) × Nat :=
  let gs := groupsOf 32 xs.length xs
  (gs.flatMap fun g => if g.all Exact.isZero then g.map fun _ => none else g.map some,
   (gs.filter fun g => g.all Exact.isZero).length)

/-- The largest magnitude of a list. -/
def amaxOf (xs : List Exact) : Exact :=
  xs.foldl (fun a x => if a.absLe x then { x with neg := false } else a) {}

/-- The smallest k for which amax / 2^k does not exceed the format's largest element value (R48). -/
def mxExponent (f : NumFmt) (amax : Exact) : Int :=
  if amax.num = 0 then -127
  else
    let l := f.largest false
    let k := amax.log2 - l.log2 - 1
    let fits := fun (k : Int) => amax.absLe { l with ex := l.ex + k }
    if fits k then k else if fits (k + 1) then k + 1 else k + 2

/-- The UE8M0 code of a block scale, held to 0-254 (R48). -/
def mxCode (f : NumFmt) (amax : Exact) : Nat := (max 0 (min 254 (mxExponent f amax + 127))).toNat

/-- x / 2^(code - 127). -/
def unscale (code : Nat) (x : Exact) : Exact := { x with ex := x.ex - ((code : Int) - 127) }

/-- One value converted to a format: code and counts (R57). A bad element is a NaN or an infinity, read as some nonzero
value of its sign, or the TER2 code 0b10, read as 0. -/
def convertOne (f : NumFmt) (mode : Rounding) (bad : Bool) (x : Exact) : Nat × EdgeCount :=
  if bad then ((f.encode .nearest (if x.isZero then x else f.largest x.neg)).1, ⟨1, 0, 0⟩)
  else
    let r := f.encode mode x
    (r.1, ⟨0, if r.2 then 1 else 0, 0⟩)

/-- The counts of a list of conversions. -/
def sumCounts (l : List EdgeCount) : EdgeCount := l.foldl EdgeCount.add {}

/-- The code stands for a zero. -/
def codeZero (f : NumFmt) (c : Nat) : Bool :=
  match f.decode c with
  | .num x => x.isZero
  | _ => false

/-! ## Checks and accesses in sequence (R486) -/

/-- The outcome of a task's checks: a value, a rejection with its status, a fault or an uncorrectable word. -/
inductive Chk (α : Type) where
  | ok (a : α)
  | reject (status : Nat)
  | fault (f : FaultInfo)
  | bad
  deriving DecidableEq, Repr

/-- The next check or access, where the ones before it passed. -/
def Chk.thn {α β : Type} (x : Chk α × Dev) (k : α → Dev → Chk β × Dev) : Chk β × Dev :=
  match x.1 with
  | .ok a => k a x.2
  | .reject s => (.reject s, x.2)
  | .fault f => (.fault f, x.2)
  | .bad => (.bad, x.2)

/-- An access as a check. -/
def Acc.chk {α : Type} (x : Acc α × Dev) : Chk α × Dev :=
  match x.1 with
  | .ok a => (.ok a, x.2)
  | .fault f => (.fault f, x.2)
  | .bad => (.bad, x.2)

/-- The status of the first of a list of tests that fails, in order (R486). -/
def firstFail : List (Bool × Nat) → Option Nat
  | [] => none
  | (ok, s) :: l => if ok then firstFail l else some s

/-- A list of tests as a check. -/
def tests {α : Type} (l : List (Bool × Nat)) (a : α) (d : Dev) : Chk α × Dev :=
  match firstFail l with
  | none => (.ok a, d)
  | some s => (.reject s, d)

/-- A pending fault record stops a task (R226, R228). -/
def Dev.stopped (d : Dev) (slot task : Nat) : Bool :=
  d.mmu.faults.any fun f => decide (f.2.outcome = 0) && decide (f.2.graph = slot) && decide (f.2.task = task)

/-- A unit acts on the outcome of its checks or accesses: it goes on, rejects its task (R282), stops for the fault, which is
the graph engine's where the task's body met it (R226), or aborts the task (R401). -/
def Dev.act {α : Type} (x : Chk α × Dev) (cls index slot task space : Nat) (k : α → Dev → Dev) : Dev :=
  match x.1 with
  | .ok a => k a x.2
  | .reject s => x.2.rejectTask slot s
  | .fault f => if f.body then x.2.unitFault 8 0 slot task space f else x.2.unitFault cls index slot task space f
  | .bad => x.2.dataBad slot

/-- All bytes of a range are 0. -/
def zeroAt (l : List Byte) (o k : Nat) : Bool := decide (leAt l o k = 0)

/-- An address keeps an alignment. -/
def aligned (a k : Nat) : Bool := decide (a % k = 0)

/-- The graph engine reads a task body by virtual address (R226, R275, R276). -/
def Dev.readBody (d : Dev) (slot task n : Nat) : Chk (List Byte) × Dev :=
  match d.readVa (d.reader 8 0 slot task) (d.slot slot).space (d.bodyVa slot task) n with
  | (.ok l, d) => (.ok l, d)
  | (.fault f, d) => (.fault { f with body := true }, d)
  | (.bad, d) => (.bad, d)

/-- The issued task of a type whose body's first byte passes a test and that no fault holds (R276, R281). -/
def Dev.issuedWhere (d : Dev) (type : Nat) (p : Nat → Bool) : Option (Nat × Nat) :=
  d.firstTask ((d.tasksIn .issued).filter fun t =>
    decide ((d.taskHdr t.1 t.2).type = type) && !d.stopped t.1 t.2 &&
      match (d.readVa {} (d.slot t.1).space (d.bodyVa t.1 t.2) 1).1 with
      | .ok l => p (leAt l 0 1)
      | _ => p 0)

/-- The body of a task, as its issue finds it. -/
def Dev.peekBody (d : Dev) (slot task : Nat) : Option (List Byte) :=
  match (d.readVa {} (d.slot slot).space (d.bodyVa slot task) 64).1 with
  | .ok l => some l
  | _ => none

/-- The kind of unit that a task needs or holds: the sequencer 1, tile programming 9, the wide engine 2 for wide and
attention tasks, the pip cores 4 for pip and sample tasks, the DMA engines 5 and a collective engine 6. -/
def Dev.unitKind (d : Dev) (slot task : Nat) : Nat :=
  match (d.taskHdr slot task).type with
  | 1 =>
    let running := d.pln.prog.any fun p => decide (p.slot = slot) && decide (p.task = task)
    let kind := ((d.peekBody slot task).map fun l => leAt l 0 1 % 16).getD 0
    if running || decide (kind = 3) then 9 else 1
  | 3 => 2
  | 7 => 4
  | t => t

/-- The issue of plane tasks waits for a REFERENCE_SET (R257). -/
def Dev.heldByRef (d : Dev) (slot task : Nat) : Bool :=
  decide ((d.taskHdr slot task).type = 1) && d.mbx.refCmd.isSome

/-- A saved task may resume: the engine is not held, its rank is not protected out, and no task that is issued before it
waits for its unit (R289, R290). -/
def Dev.canResume (d : Dev) (slot task : Nat) : Bool :=
  let kind := d.unitKind slot task
  !d.issueHeld && !d.protectedOut (d.rank slot) && !d.stopped slot task &&
    !((d.tasksIn .ready ++ d.tasksIn .issued).any fun t =>
        d.before t (slot, task) && !(decide ((d.taskRun t.1 t.2).st = .ready) && d.heldByRef t.1 t.2) &&
          decide (d.unitKind t.1 t.2 = kind))

/-- No task but a saved one holds the wide engine (R157, R180). -/
def Dev.wideIdle (d : Dev) : Bool := (d.wde.tasks.all fun t => t.saved) && d.att.tasks.all fun t => t.saved

/-- No wide or attention task holds the wide engine or is on its way to it; one stopped for a fault has released it (R180,
R206, R281, R288; log entry 63). -/
def Dev.wideFree (d : Dev) : Bool :=
  d.wideIdle &&
    (d.tasksIn .issued).all fun t =>
      d.stopped t.1 t.2 || decide ((d.taskHdr t.1 t.2).type ≠ 2 ∧ (d.taskHdr t.1 t.2).type ≠ 3)

/-- The next tile slot goes to an audit: the queue holds entries and every AUDIT_STRIDE-th slot is theirs (R156). -/
def Dev.auditSlot (d : Dev) : Bool :=
  decide (d.cur.queue ≠ []) && decide (d.fld Off.wdeCtrl 11 8 ≤ d.wde.slotCount + 1)

/-- A running plane operation's adapter term waits for the engine: it comes first at a free tile (R156). -/
def Dev.adapterFirst (d : Dev) : Bool :=
  (d.pln.tails ++ (match d.pln.op with | some o => [o] | none => [])).any fun o => o.y.isNone && !d.stopped o.slot o.task

/-- An audit may take a free output tile: no adapter work comes first, and either the slot is an audit's or no wide task
asks for a tile (R156). -/
def Dev.auditMay (d : Dev) : Bool :=
  (d.wde.tile0.isNone || d.wde.tile1.isNone) && !d.adapterFirst && (d.auditSlot || d.wde.tasks.all fun t =>
    t.saved || d.stopped t.slot t.task || decide (t.total ≤ t.next))

/-- A task is marked for pre-emption (R289). -/
def Dev.marked (d : Dev) (slot task : Nat) : Bool := (d.taskRun slot task).marked

/-- A task's mark is taken away and its progress set. -/
def Dev.unmark (d : Dev) (slot task : Nat) (st : TaskSt) : Dev :=
  d.modSlot slot fun g => { g with run := upd g.run task fun t => { t with st := st, marked := false } }

end Sys2Proof.Machine
end

