-- ==== Sys2Proof/Machine/Epilogue.lean ====
section
/-! DEFINITION. The summation tree of the wide engine (R138, R139), the epilogue and adapter descriptors (R146, R150) and
the fused epilogue (R147-R149), which the wide engine and the plane accumulators share. -/

namespace Sys2Proof.Machine

/-! ## Pairwise summation (R138) -/

/-- One level of the tree: neighbours are paired, and a node with one absent child passes the other on. -/
def pairLevel {α : Type} (add : α → α → α) : List (Option α) → List (Option α)
  | a :: b :: l =>
    (match a, b with
      | some x, some y => some (add x y)
      | some x, none => some x
      | none, y => y) :: pairLevel add l
  | l => l

/-- The sum of up to 64 leaves in the order of R138; absent when every leaf is. -/
def pairwise {α : Type} (add : α → α → α) (l : List (Option α)) : Option α :=
  (((List.range 6).foldl (fun l _ => pairLevel add l) l).head?).join

/-- Products of two rows, absent where either element is. -/
def products (a b : List (Option Exact)) : List (Option Exact) :=
  a.zipWith (fun x y => match x, y with
    | some x, some y => some (x.mul y)
    | _, _ => none) b

/-- The MX factor of a subtree: 2^(ea + eb − 254) × f, where f is 2^`f` (R138). -/
def mxScale (f : Int) (ea eb : Nat) (v : Word × Nat) : Word × Nat :=
  let r := fpRound { fpVal v.1 with ex := (fpVal v.1).ex + ((ea : Int) + eb - 254 + f) }
  (r.1, v.2 + r.2)

/-- The exponent of the implied factor that an operand's format brings into f: −6 for MXINT8 (R138). -/
def NumFmt.unitEx (f : NumFmt) : Int := if f = .mxint8 then -6 else 0

/-- An element as the array multiplies it: its value without the implied factor of its format (R138). -/
def NumFmt.rawElem (f : NumFmt) (x : Option Exact) : Option Exact := x.map fun x => { x with ex := x.ex - f.unitEx }

/-- A scale code as the tree uses it: 0xFF counts as 254 (R56). -/
def scaleUse (c : Nat) : Nat := if c = 255 then 254 else c

/-- The sum of one K chunk in FP32, with its clips; absent when nothing is present (R138). `mx` is the exponent of the
factor f where an operand is MX, whose elements come without the implied factor of their format. -/
def chunkFp (mx : Option Int) (sa sb : List Nat) (a b : List (Option Exact)) : Option (Word × Nat) :=
  let ps := (products a b).map fun p => p.map fpRound
  let subs := (groupsOf 32 48 ps).zipIdx.map fun g =>
    (pairwise fpAdd g.1).map fun s =>
      match mx with
      | some f => mxScale f (scaleUse (sa.getD g.2 127)) (scaleUse (sb.getD g.2 127)) s
      | none => s
  pairwise fpAdd subs

/-- The sum of one K chunk of integers; absent when nothing is present (R138, R139). -/
def chunkInt (a b : List (Option Exact)) : Option Int :=
  let ps := (products a b).map fun p => p.map fun x => if x.neg then -(x.num : Int) else (x.num : Int)
  pairwise (· + ·) ((groupsOf 32 48 ps).map (pairwise (· + ·)))

/-- An INT32 accumulation, clipped at its range (R139). -/
def addInt32 (acc c : Int) : Int × Nat :=
  let z := acc + c
  if z > 2147483647 then (2147483647, 1) else if z < -2147483648 then (-2147483648, 1) else (z, 0)

/-- A chunk enters an accumulator; an absent chunk makes no addition (R138). -/
def accumulate (ints : Bool) (acc : Option Word) (cf : Option (Word × Nat)) (ci : Option Int) : Option Word × Nat :=
  if ints then
    match ci with
    | none => (acc, 0)
    | some c =>
      let r := addInt32 (signed (acc.getD 0).toNat 32) c
      (some (BitVec.ofInt 32 r.1), r.2)
  else
    match cf with
    | none => (acc, 0)
    | some c =>
      match acc with
      | none => (some c.1, c.2)
      | some a =>
        let r := fpAdd (a, 0) c
        (some r.1, r.2)

/-! ## Descriptors -/

/-- The epilogue descriptor (R146). -/
structure Epi where
  outFormat : NumFmt := .fp32
  act : Nat := 0
  scaleMode : Nat := 0
  rounding : Nat := 0
  biasFormat : Nat := 0
  wscalePresent : Bool := false
  outScale : Word := 0
  tensorId : Nat := 0
  wscale : Nat := 0
  bias : Nat := 0
  adapter : Nat := 0
  outScales : Nat := 0
  deriving DecidableEq, Repr

/-- The adapter descriptor (R150). -/
structure AdapterDesc where
  rank : Nat := 0
  format : NumFmt := .bf16
  gamma : Word := 0
  down : Nat := 0
  up : Nat := 0
  downScale : Word := 0
  upScale : Word := 0
  id : Nat := 0
  deriving DecidableEq, Repr

/-- A word of a byte string. -/
def wordAt (l : List Byte) (o : Nat) : Word := BitVec.ofNat 32 (leAt l o 4)

/-- The epilogue descriptor is checked (R146, R486). -/
def checkEpi (l : List Byte) (adapterBad : Bool) (d : Dev) : Chk Epi × Dev :=
  let fmt := NumFmt.ofCode (leAt l 0 1)
  let mode := bits (leAt l 1 1) 3 2
  let bias := leAt l 2 1
  let ws := bit (leAt l 3 1) 0
  let f := fmt.getD .fp32
  let e : Epi :=
    { outFormat := f
      act := bits (leAt l 1 1) 7 4
      scaleMode := mode
      rounding := bits (leAt l 1 1) 1 0
      biasFormat := bias
      wscalePresent := ws
      outScale := wordAt l 4
      tensorId := leAt l 8 4
      wscale := leAt l 0x10 8
      bias := leAt l 0x18 8
      adapter := leAt l 0x20 8
      outScales := leAt l 0x28 8 }
  tests [
    (decide (bits (leAt l 3 1) 7 1 = 0) && (decide (mode = 1) || zeroAt l 4 4) && zeroAt l 0x0C 4 &&
      (ws || zeroAt l 0x10 8) && (decide (bias ≠ 0) || zeroAt l 0x18 8) && (f.isMx || zeroAt l 0x28 8) &&
      zeroAt l 0x30 16, 0x0007),
    (fmt.isSome && decide (f ≠ .ue8m0), 0x000B),
    (decide (e.act < 8), 0x0303),
    (decide (mode < 3), 0x0303),
    (decide (e.rounding < 3), 0x000B),
    (decide (bias = 0) || decide (bias = 0x0C) || decide (bias = 0x0D), 0x000B),
    (decide (mode ≠ 1) || fpPosNormal e.outScale, 0x0303),
    (aligned e.wscale 64, 0x000C), (aligned e.bias 64, 0x000C), (aligned e.adapter 64, 0x000C),
    (aligned e.outScales 64, 0x000C),
    (f.isMx == decide (mode = 2), 0x0303),
    (!(adapterBad && decide (e.adapter ≠ 0)), 0x0303)] e d

/-- The adapter descriptor is checked against the operation's shape (R150, R486). -/
def checkAdapter (l : List Byte) (dIn dOut : Nat) (d : Dev) : Chk AdapterDesc × Dev :=
  let a : AdapterDesc :=
    { rank := leAt l 0 2
      format := if leAt l 2 1 = 6 then .e4m3 else .bf16
      gamma := wordAt l 0x0C
      down := leAt l 0x10 8
      up := leAt l 0x18 8
      downScale := wordAt l 0x20
      upScale := wordAt l 0x24
      id := leAt l 0x28 4 }
  tests [
    (zeroAt l 3 1 && zeroAt l 0x2C 20, 0x0007),
    (decide (1 ≤ a.rank) && decide (a.rank ≤ 256), 0x0304),
    (decide (leAt l 2 1 = 6) || decide (leAt l 2 1 = 0x0C), 0x000B),
    (aligned a.down 64, 0x000C), (aligned a.up 64, 0x000C),
    (decide (leAt l 4 4 = dIn), 0x0304), (decide (leAt l 8 4 = dOut), 0x0304)] a d

/-- The epilogue descriptor at an address is read and checked, and the adapter descriptor it names after it (R486). -/
def Dev.loadEpi (d : Dev) (r : Reader) (space va dIn dOut : Nat) (adapterBad : Bool) :
    Chk (Epi × Option AdapterDesc) × Dev :=
  Chk.thn (Acc.chk (d.readVa r space va 64)) fun l d =>
  Chk.thn (checkEpi l adapterBad d) fun e d =>
    if e.adapter = 0 then (.ok (e, none), d)
    else
      Chk.thn (Acc.chk (d.readVa r space e.adapter 64)) fun l d =>
      Chk.thn (checkAdapter l dIn dOut d) fun a d => (.ok (e, some a), d)

/-! ## Adapter terms (R151) -/

/-- A vector converted to the adapter's format with its scale: for FP8 the smallest power of two that fits, for BF16 1;
the codes' values, the scale and the counts. -/
def adapterVec (f : NumFmt) (xs : List (Exact × Bool)) : List Exact × Exact × EdgeCount :=
  let am := amaxOf ((xs.filter fun x => !x.2).map (·.1))
  let k : Int := if f = .e4m3 ∧ am.num ≠ 0 then mxExponent .e4m3 am else 0
  let cs := xs.map fun x => convertOne f .nearest x.2 { x.1 with ex := x.1.ex - k }
  let zero := fun (c : Nat × EdgeCount) => codeZero f c.1
  let gs := groupsOf 32 cs.length cs
  (cs.map fun c => match f.decode c.1 with
    | .num x => x
    | _ => {}, ⟨false, 1, 1, k⟩,
   (sumCounts (cs.map (·.2))).add ⟨0, 0, (gs.filter fun g => g.all zero).length⟩)

/-- FP32 product of a word and a power of two that FP32 may not hold, rounded once. -/
def scaleWord (v : Word × Nat) (s : Exact) : Word × Nat :=
  let r := fpRound ((fpVal v.1).mul s)
  (r.1, v.2 + r.2)

/-- A dot product in the order of R138, all its elements present but the skipped groups; +0 when nothing is present. -/
def dotFp (a b : List Exact) : Word × Nat :=
  let a := (skipGroups a).1
  let b := (skipGroups b).1
  let n := (a.length + 1535) / 1536
  let r := (List.range n).foldl (fun (acc : Option Word × Nat) q =>
    let s := accumulate false acc.1 (chunkFp none [] [] ((a.drop (1536 * q)).take 1536)
      ((b.drop (1536 * q)).take 1536)) none
    (s.1, acc.2 + s.2)) (none, 0)
  (r.1.getD 0, r.2)

/-- `n` rows of `k` elements of a row-major matrix (R137). -/
def Dev.readMatrix (d : Dev) (r : Reader) (space va : Nat) (f : NumFmt) (n k : Nat) :
    Chk (List (List Nat)) × Dev :=
  Chk.thn (Acc.chk (d.readAll r space ((List.range n).map fun i => (va + i * rowStride f k, packedBytes f k))))
    fun ls d => (.ok (ls.map (codesOf f k)), d)

/-- The values of matrix rows that cross the wide edge, and what it counts (R54, R56). -/
def edgeMatrix (f tgt : NumFmt) (m : List (List Nat)) : List (List Exact) × EdgeCount :=
  let r := m.map (edgeRow f tgt [])
  (r.map (·.1), ⟨(r.map fun x => x.2.sum).sum, 0, (r.map fun x => (skipGroups x.1).2).sum⟩)

/-- u of one input vector, with clips, and the counts of its conversion (R151). -/
def adapterU (a : AdapterDesc) (down : List (List Exact)) (xs : List (Exact × Bool)) : List (Word × Nat) × EdgeCount :=
  let (x', sx, cx) := adapterVec a.format xs
  (down.map fun row => fpMul (scaleWord (dotFp row x') sx) (a.downScale, 0), cx)

/-- A value as an edge converts it where an operand was a NaN or an infinity: non-finite, with the value's sign (log
entry 91). -/
def spoilt (bad : Bool) (x : Exact) : Exact × Bool := (if bad && x.isZero then { x with num := 1 } else x, bad)

/-- y of one vector u, with clips, and the counts of the conversion of u (R151). A DOWN_SCALE that is a NaN or an infinity
makes every element of u non-finite (log entry 91). -/
def adapterYs (a : AdapterDesc) (up : List (List Exact)) (u : List Word) : List (Word × Nat) × EdgeCount :=
  let (u', su, cu) := adapterVec a.format (u.map fun w => spoilt (fpBad a.downScale) (fpVal w))
  (up.map fun row => fpMul (scaleWord (dotFp row u') su) (a.upScale, 0), cu)

/-- What one half of an adapter term leaves: the vectors, the clips, what the edge counts for the vectors and for the matrix,
and the quality flags of each vector (R151, R321). -/
structure AdapterPart where
  vs : List (List Word) := []
  clips : Nat := 0
  vecs : EdgeCount := {}
  matrix : EdgeCount := {}
  rows : List Nat := []
  deriving DecidableEq, Repr

/-- The vectors of a part, each with its clips and counts. -/
def adapterPart (vs : List (List (Word × Nat) × EdgeCount)) (m : EdgeCount) : AdapterPart :=
  { vs := vs.map fun u => u.1.map (·.1), clips := (vs.map fun u => (u.1.map (·.2)).sum).sum
    vecs := sumCounts (vs.map (·.2)), matrix := m, rows := vs.map fun u => rowFlag (u.1.map (·.2)).sum u.2 }

/-- u of every input vector of an operation: the down matrix crosses the wide edge once (R151, R152). -/
def Dev.adapterDown (d : Dev) (r : Reader) (space : Nat) (a : AdapterDesc) (dIn : Nat) (xs : List (List (Exact × Bool))) :
    Chk AdapterPart × Dev :=
  Chk.thn (d.readMatrix r space a.down a.format a.rank dIn) fun dm d =>
    let (down, bd) := edgeMatrix a.format a.format dm
    (.ok (adapterPart (xs.map (adapterU a down)) bd), d)

/-- y of every vector u for the columns [c0, c0 + n), with clips, the counts of the conversions of u, and those of the up
matrix's rows that are read (R151, R152). -/
def Dev.adapterUp (d : Dev) (r : Reader) (space : Nat) (a : AdapterDesc) (c0 n : Nat) (us : List (List Word)) :
    Chk AdapterPart × Dev :=
  Chk.thn (d.readMatrix r space (a.up + c0 * rowStride a.format a.rank) a.format n a.rank) fun um d =>
    let (up, bu) := edgeMatrix a.format a.format um
    (.ok (adapterPart (us.map (adapterYs a up)) bu), d)

/-- The adapter term of one input vector: y with clips, and what the wide edge counts (R151). -/
def Dev.adapterY (d : Dev) (r : Reader) (space : Nat) (a : AdapterDesc) (dIn n : Nat) (xs : List (Exact × Bool)) :
    Chk (List Word × Nat × EdgeCount) × Dev :=
  Chk.thn (d.adapterDown r space a dIn [xs]) fun u d =>
  Chk.thn (d.adapterUp r space a 0 n u.vs) fun y d =>
    (.ok (y.vs.headD [], u.clips + y.clips, ((u.vecs.add u.matrix).add y.vecs).add y.matrix), d)

/-! ## Rows and tiles of the array (R134, R135, R140, R159) -/

/-- Element bits of a widened operand; MX elements run at the 8-bit rate (R134). -/
def classBits (f : NumFmt) : Nat := if f.isMx then 8 else f.bits

/-- N_t of an operand class (R134). -/
def classCols : Nat → Nat
  | 8 => 256
  | 16 => 64
  | _ => 16

/-- Columns of an output tile: N_t, or 8 N_t where K ≤ 192 runs packed (R135). -/
def packedCols (nt k : Nat) : Nat := nt * (if k ≤ 192 then 8 else 1)

/-- ceil(n / k). -/
def ceilDiv (n k : Nat) : Nat := (n + k - 1) / k

/-- The output tiles of an m × n product of depth k whose class has N_t columns, and the rows that its chunk passes take
(R135, R137). -/
def wideGrid (nt m n k : Nat) : Nat × Nat :=
  let cb := ceilDiv n (packedCols nt k)
  (ceilDiv m 512 * cb, m * cb * ceilDiv k 1536)

/-- Passes of a chunk pass through the b wide-engine blocks that are on, ceil(6 / b) (R140, R462). -/
def Dev.blockPasses (d : Dev) : Nat :=
  ceilDiv 6 (((List.range 6).filter fun i => !bit d.pwr.stateOff (32 + i)).length)

/-- The array takes rows, each in ceil(6 / b) passes, and tiles drain (R140, R159). -/
def Dev.wideWork (d : Dev) (tiles rows : Nat) : Dev :=
  (d.bump64 Off.wdeBusyLo (rows * d.blockPasses)).bump64 Off.wdeTilesLo tiles

/-! ## The fused epilogue (R147, R149) -/

/-- The epilogue up to the activation, for one value (R147): value and clips. A NaN or an infinity among the operands counts
as the largest finite value of its sign, and the value is written as a non-finite one (`epiBad`). -/
def epiValue (e : Epi) (v : Word × Nat) (ws : Option Word) (y : Option (Word × Word)) (bias : Option Word) :
    Word × Nat :=
  let v := match ws with
    | some w => fpMul v (w, 0)
    | none => v
  let v := match y with
    | some (g, y) => fpAdd v (fpMul (g, 0) (y, 0))
    | none => v
  let v := match bias with
    | some b => fpAdd v (b, 0)
    | none => v
  let r := activation e.act v.1
  (r.1, v.2 + r.2)

/-- A weight scale, γ, UP_SCALE or bias of a value is a NaN or an infinity: the value reaches the output edge as non-finite
(R56; DESIGN CHOICE, log entry 91: no rule gives the steps of R147 such an operand, nor the sign of their result). -/
def epiBad (ws : Option Word) (a : Option AdapterDesc) (bias : Option Word) : Bool :=
  (ws.map fpBad).getD false || (bias.map fpBad).getD false || (a.map fun a => fpBad a.gamma || fpBad a.upScale).getD false

/-- An integer accumulator stays an integer (R149). DEDUCED (log entry 98): R149 narrows it to an integer OUT_FORMAT only, so
with any other OUT_FORMAT it is converted to FP32 first, as R147 has it. -/
def epiInteger (e : Epi) (ints : Bool) : Bool :=
  ints && !e.wscalePresent && decide (e.adapter = 0) && decide (e.biasFormat = 0) && decide (e.act ≤ 1) &&
    decide (e.scaleMode = 0) && e.outFormat.isInt

/-- One row of outputs converted, each with a mark where it is non-finite: codes, MX scale codes and counts. `idx` is the
element index of the row's first column for stochastic rounding (R44, R49, R56, R147). -/
def epiConvert (e : Epi) (seed idx : Nat) (vs : List (Exact × Bool)) : List Nat × List Nat × EdgeCount :=
  let one := fun (bad : Bool) (x : Exact) (i : Nat) =>
    convertOne e.outFormat (roundingOf e.rounding seed e.tensorId (idx + i)) bad x
  if e.scaleMode = 2 then
    let gs := (groupsOf 32 vs.length vs).zipIdx
    let r := gs.map fun g =>
      let k := mxCode e.outFormat (amaxOf ((g.1.filter fun x => !x.2).map (·.1)))
      let cs := g.1.zipIdx.map fun x => one x.1.2 (unscale k x.1.1) (32 * g.2 + x.2)
      (k, cs)
    (r.flatMap fun g => g.2.map (·.1), r.map (·.1),
      (sumCounts (r.flatMap fun g => g.2.map (·.2))).add
        ⟨0, 0, (r.filter fun g => g.2.all fun c => codeZero e.outFormat c.1).length⟩)
  else
    let cs := vs.zipIdx.map fun x =>
      one x.1.2 (if e.scaleMode = 1 then x.1.1.div (fpVal e.outScale) else x.1.1) x.2
    (cs.map (·.1), [], sumCounts (cs.map (·.2)))

/-- The arrays that an epilogue reads for columns [c0, c0 + n): weight scales and biases (R146). -/
def Dev.epiArrays (d : Dev) (r : Reader) (space : Nat) (e : Epi) (c0 n : Nat) :
    Chk (List Word × List Word) × Dev :=
  let ws := if e.wscalePresent then [(e.wscale + 4 * c0, 4 * n)] else [(e.wscale, 0)]
  let bw := if e.biasFormat = 0x0C then 2 else 4
  let bs := if e.biasFormat = 0 then [(e.bias, 0)] else [(e.bias + bw * c0, bw * n)]
  Chk.thn (Acc.chk (d.readAll r space (ws ++ bs))) fun ls d =>
    let b := leWords bw n (ls.getD 1 [])
    (.ok (if e.wscalePresent then (leWords 4 n (ls.getD 0 [])).map (BitVec.ofNat 32 ·) else [],
      if e.biasFormat = 0 then []
      else if e.biasFormat = 0x0C then b.map fun x => BitVec.ofNat 32 (x * 65536) else b.map (BitVec.ofNat 32 ·)), d)

/-- One output row through the epilogue: accumulators in, bytes of the row's part and MX scale bytes out, with clips and
counts (R147, R149). -/
def epiRow (e : Epi) (ints : Bool) (a : Option AdapterDesc) (seed idx : Nat) (acc : List Word) (ws bias y : List Word) :
    List Byte × List Byte × Nat × EdgeCount :=
  let some? := fun (l : List Word) (i : Nat) => if l.isEmpty then none else some (l.getD i 0)
  if epiInteger e ints then
    let vs := acc.map fun a =>
      let z := signed a.toNat 32
      (Exact.ofInt (if e.act = 1 ∧ z < 0 then 0 else z), false)
    let (cs, _, ct) := epiConvert e seed idx vs
    (packCodes e.outFormat cs, [], 0, ct)
  else
    let vs := acc.zipIdx.map fun v =>
      epiValue e (if ints then fpOfInt (signed v.1.toNat 32) else v.1, 0) (some? ws v.2)
        ((some? y v.2).bind fun y => a.map fun a => (a.gamma, y)) (some? bias v.2)
    let (cs, sc, ct) := epiConvert e seed idx
      (vs.zipIdx.map fun v => spoilt (epiBad (some? ws v.2) a (some? bias v.2)) (fpVal v.1.1))
    (packCodes e.outFormat cs, sc.map (BitVec.ofNat 8 ·), (vs.map (·.2)).sum, ct)

end Sys2Proof.Machine
end

