-- ==== Sys2Proof/Machine/Tiles.lean ====
section
/-! DEFINITION. Master copies of tiles (R342-R344, R402) and the rows that a task concerns (R307, R321). -/

namespace Sys2Proof.Machine

/-! ## Master copies (R342-R344) -/

/-- The weight format of a code. -/
def weightFmt (c : Nat) : NumFmt := (NumFmt.ofCode c).getD .int4

/-- The level difference that an element code stands for in a slice (R50, R62, R342). -/
def levelOf (f : NumFmt) (slice code : Nat) : Int :=
  match f with
  | .ter2 => if code % 4 = 2 then 0 else signed code 2
  | .int3 => signed code 3
  | .int4 => signed code 4
  | .fp4 =>
    let m : Int := [0, 1, 2, 3, 4, 6, 8, 12].getD (code % 8) 0
    if code.testBit 3 then -m else m
  | _ =>
    let w := signed code 8
    if slice = 1 then w / 16 else if slice = 2 then w % 16 else w

/-- The level unit (R62); the shift of R50 carries that of a high slice (R141). -/
def levelUnit (f : NumFmt) : Word := if f = .fp4 then 0x3F000000 else 0x3F800000

/-- The master weight value of an element (R107). -/
def masterValue (f : NumFmt) (code : Nat) : Word :=
  (fpMul (fpOfInt (levelOf f 0 code), 0) (levelUnit f, 0)).1

/-- A page of device memory, or of host memory, that holds part of a master copy: host pages carry bit 60. -/
def hostPage : Nat := 2 ^ 60

/-- The pages that hold a range of virtual memory (R343). -/
def Dev.pagesOf (d : Dev) (r : Reader) (space va n : Nat) : Chk (List Nat) × Dev :=
  ((List.range ((va % 4096 + n + 4095) / 4096)).map fun i => va / 4096 * 4096 + 4096 * i).foldl
    (fun (x : Chk (List Nat) × Dev) a =>
      Chk.thn x fun l d =>
      Chk.thn (Acc.chk (d.translate r space a false)) fun t d =>
        (.ok (l ++ [t.pa + (a - t.va) + (if t.target = 1 then hostPage else 0)]), d)) (.ok [], d)

/-- The address in Damson's range at which a page of a master copy is mapped: device pages by their physical address, host
pages in the range's upper half (R212, R343; log entry 97). -/
def masterVa (page : Nat) : Nat :=
  if hostPage ≤ page then 0xFF80000000000 + page % 2 ^ 43 else 0xFF00000000000 + page

/-- Bytes of a master copy, by offset from its start; a host page whose access ends in error faults (R224, R343). -/
def Dev.readMaster (d : Dev) (r : Reader) (pages : List Nat) (off0 off n : Nat) : Chk (List Byte) × Dev :=
  (pieces (off0 + off) n).foldl (fun (x : Chk (List Byte) × Dev) p =>
    Chk.thn x fun l d =>
      let page := pages.getD (p.1 / 4096) 0
      let a := page % hostPage + p.1 % 4096
      if hostPage ≤ page then
        match d.readHost a p.2 with
        | some l' => (.ok (l ++ l'), d)
        | none => (.fault ⟨6, 0, 0, masterVa page + p.1 % 4096, false, false⟩, d)
      else
        match d.readPa r a p.2 with
        | (some l', d) => (.ok (l ++ l'), d)
        | (none, d) => (.bad, d)) (.ok [], d)

/-- Rows of a tile that hold weights (R63). -/
def LogTile.nrows (t : LogTile) : Nat := min 2048 (t.rows - 2048 * t.rowTile)

/-- Columns of a tile that hold weights (R63). -/
def LogTile.ncols (t : LogTile) : Nat := min 1024 (t.cols - 1024 * t.colTile)

/-- Offset in the master copy of a row of the tile. -/
def LogTile.rowOff (t : LogTile) (i : Nat) : Nat :=
  (2048 * t.rowTile + i) * rowStride (weightFmt t.format) t.cols + 1024 * t.colTile * (weightFmt t.format).bits / 8

/-- Bytes of one row that hold the tile's columns (R344). -/
def LogTile.rowBytes (t : LogTile) : Nat := packedBytes (weightFmt t.format) t.ncols

/-- The master bytes of every row of a tile (R344). -/
def Dev.masterRows (d : Dev) (r : Reader) (t : LogTile) : Chk (List (List Byte)) × Dev :=
  (List.range t.nrows).foldl (fun (x : Chk (List (List Byte)) × Dev) i =>
    Chk.thn x fun rows d =>
      Chk.thn (d.readMaster r t.pages t.masterOff (t.rowOff i) t.rowBytes) fun l d => (.ok (rows ++ [l]), d)) (.ok [], d)

/-- The element codes of every row of a tile, from its master copy. -/
def Dev.masterCodes (d : Dev) (r : Reader) (t : LogTile) : Chk (List (List Nat)) × Dev :=
  Chk.thn (d.masterRows r t) fun rows d => (.ok (rows.map (codesOf (weightFmt t.format) t.ncols)), d)

/-- The digest of a tile's master bytes (R344). -/
def Dev.masterDigest (d : Dev) (r : Reader) (t : LogTile) : Chk Nat × Dev :=
  Chk.thn (d.masterRows r t) fun rows d => (.ok (crcResult 64 true true (rows.foldl crc64Feed crc64Init)), d)

/-- The master bytes of a tile hold a physical word address. -/
def LogTile.holdsWord (t : LogTile) (w : Nat) : Bool :=
  (List.range t.nrows).any fun i =>
    (pieces (t.masterOff + t.rowOff i) t.rowBytes).any fun p =>
      let a := t.pages.getD (p.1 / 4096) hostPage + p.1 % 4096
      decide (a / 32 * 32 ≤ w) && decide (w < a + p.2)

/-- The words found uncorrectable in this frame damage the master copies that hold them (R402). -/
def Dev.damageMasters (d : Dev) (words : List Nat) : Dev :=
  let mark := fun (x : Nat × LogTile) =>
    if words.any (fun w => x.2.holdsWord w) && !x.2.due.contains .damaged then
      (x.1, { x.2 with due := x.2.due ++ [TileChange.damaged] })
    else x
  { d with pln := { d.pln with logical := d.pln.logical.map mark } }

/-- The uncorrectable words of device memory that a tile's master copy holds, read for Currant, an audit, reference mode,
a tier move or a digest, damage the copies that hold them (R402). -/
def Dev.masterBad (d : Dev) (t : LogTile) : Dev :=
  d.damageMasters (((d.upsets.map fun u => 32 * u.1).filter t.holdsWord).filter fun w =>
    match rsDecode (d.storedWord (w / 32)) with
    | .bad => true
    | _ => false)

/-- A read of a master copy; an uncorrectable word damages the copies that hold it (R402). -/
def Dev.masterChk {α : Type} (x : Chk α × Dev) (t : LogTile) : Chk α × Dev :=
  match x.1 with
  | .bad => (.bad, x.2.masterBad t)
  | _ => x

/-- What the cells of a tile should hold: the master's level differences, and ACHIEVED where the outlier table has an entry
(R102, R120). -/
def LogTile.achieved (t : LogTile) (codes : List (List Nat)) : List (List Int) :=
  t.outliers.foldl (fun m e => upd m e.row fun r => upd r e.col fun _ => e.achieved)
    (codes.map fun r => r.map (levelOf (weightFmt t.format) t.slice))

/-! ## A tile's tables and statistics in the near store (R70, R114, R115, R402) -/

/-- Bytes of a tile's outlier table (R114). -/
def LogTile.tableBytes (t : LogTile) : Nat := alignUp (64 + 4 * t.outliers.length) 64

/-- The 64-byte header of a tile's outlier table (R114). -/
def LogTile.tableHeader (t : LogTile) (p : Nat) : List Byte :=
  le t.edition 4 ++ le (p % 2 ^ 20) 4 ++
  le (t.outliers.length + 65536 * (t.outliers.filter (·.stuck)).length) 4 ++
  le (t.format + 256 * t.slice + 4096 * t.clip) 4 ++ List.replicate 48 0

/-- An entry of an outlier table (R114). -/
def OutlierEntry.word (e : OutlierEntry) : Nat :=
  (if e.stuck then 2 ^ 31 else 0) + e.row * 2 ^ 20 + e.col * 2 ^ 10 + unsigned e.master 5 * 32 + unsigned e.achieved 5

/-- The image of a tile's outlier table (R114). -/
def LogTile.tableImage (t : LogTile) (p : Nat) : List Byte :=
  let b := t.tableHeader p ++ t.outliers.flatMap fun e => le e.word 4
  b ++ List.replicate (t.tableBytes - b.length) 0

/-- Magnitudes, element by element, the larger of two lists of possibly different lengths. -/
def maxZip : List Nat → List Nat → List Nat
  | a :: l, b :: m => max a b :: maxZip l m
  | [], m => m
  | l, [] => l

/-- The level rows of a tile. -/
def PhysTile.levelRows (t : PhysTile) : List (List Int) := groupsOf (max t.tileCols 1) t.levels.length t.levels

/-- The columns of a matrix. -/
def transposeRows (n : Nat) (m : List (List Int)) : List (List Int) :=
  (List.range n).map fun c => m.map fun r => r.getD c 0

/-- The lines that an operation drives: rows, or columns in a transposed read (R87). -/
def PhysTile.lines (t : PhysTile) (transposed : Bool) : List (List Int) :=
  if transposed then transposeRows t.tileCols t.levelRows else t.levelRows

/-- Statistics m(k, j): for each group of 256 driven lines, the largest level magnitude in each group of 16 sensed lines
(R70, R88). -/
def PhysTile.stats (t : PhysTile) (transposed : Bool) : List (List Nat) :=
  (groupsOf 256 8 (t.lines transposed)).map fun g =>
    let line := g.foldl (fun a r => maxZip a (r.map Int.natAbs)) []
    (groupsOf 16 line.length line).map fun x => x.foldl max 0

/-- Two values of 4 bits in each byte, the first in the low half. -/
def nibbles : List Nat → List Byte
  | a :: b :: l => BitVec.ofNat 8 (a % 16 + 16 * (b % 16)) :: nibbles l
  | [a] => [BitVec.ofNat 8 (a % 16)]
  | [] => []

/-- The 512 bytes of a tile's statistics: the forward ones by row group and then converter, and the transposed ones by
column group and then 16-row group (R70, R88; the order is the model's, log entry 60). -/
def PhysTile.statsImage (t : PhysTile) : List Byte :=
  let cell := fun (tr : Bool) (k j : Nat) => ((t.stats tr).getD k []).getD j 0
  nibbles ((List.range 8).flatMap fun k => (List.range 64).map (cell false k)) ++
    nibbles ((List.range 4).flatMap fun k => (List.range 128).map (cell true k))

/-- A tile's outlier table and statistics are written to the near store as it is programmed (R70, R92, R114). -/
def Dev.writeTables (d : Dev) (l p : Nat) : Dev :=
  let d := match d.log l with
    | some t => d.writePa (tileArea p) (t.tableImage p)
    | none => d
  d.writePa (statsArea p) (d.phys p).statsImage

/-- A read of a tile's outlier table or statistics: a tile whose words are uncorrectable becomes SUSPECT at the next tick and
is refreshed (R402). -/
def Dev.areaChk (d : Dev) (r : Reader) (l pa n : Nat) : Chk Unit × Dev :=
  let x := d.checkPa r pa n
  if x.1 then (.ok (), x.2.2)
  else (.bad, x.2.2.modLog l fun t => if t.due.contains .refresh then t else { t with due := t.due ++ [.refresh] })

/-- A read of a tile's outlier table, in the mirror where it is mirrored (R115, R131). -/
def Dev.tableChk (d : Dev) (r : Reader) (l p : Nat) (t : LogTile) : Chk Unit × Dev :=
  if t.outliers = [] then (.ok (), d)
  else if t.mirrored then
    let x := d.checkPa r t.mirrorAt t.tableBytes
    (if x.1 then .ok () else .bad, x.2.2)
  else d.areaChk r l (tileArea p) t.tableBytes

/-- D in quarters: the base-10 logarithm of a time in ns taken in seconds, 0 below 1 s, rounded up to a multiple of
0.25 (R125). -/
def decadeQuarters (t : Nat) : Nat := ((List.range 80).find? fun n => decide (t ^ 4 ≤ 10 ^ (n + 36))).getD 80

/-- D and ΔT of a tile at a time and a temperature (R125). -/
def PhysTile.ages (t : PhysTile) (now : Nat) (temp : Int) : Nat × Nat :=
  (decadeQuarters (now - t.last), ((temp - 4 * t.temperature).natAbs + 3) / 4)

/-- A live edition is master-absent (R350). -/
def Dev.editionAbsent (d : Dev) (e : Nat) : Bool :=
  d.pln.logical.any fun x => decide (x.2.edition = e) && x.2.masterAbsent

/-! ## Rows that a task concerns (R307, R321) -/

/-- The rows whose gates name a task of a run (R306). -/
def Dev.taskGates (d : Dev) (slot task : Nat) (t : Template) : List Nat :=
  ((if t.stepSlot = slot then t.bindings else t.draftBindings).filter fun b =>
    decide (b.kind = 1) && decide (b.target = task)).map (·.row)

/-- A header or a gate ties a task of a run to rows (R307, R321). -/
def Dev.taskTied (d : Dev) (slot task : Nat) : Bool :=
  decide (d.taskRequest slot task ≠ 0xFFFFFFFF) ||
    match (d.slot slot).template.bind fun i => d.srv.templates.find? fun t => decide (t.index = i) with
    | none => true
    | some t => decide (d.taskGates slot task t ≠ [])

/-- The step rows that a task of a run concerns: those of the request its header names, else the row that gates it,
else every row of the run (R307, R321). -/
def Dev.taskRows (d : Dev) (slot task : Nat) : List StepRow :=
  let g := d.slot slot
  let req := d.taskRequest slot task
  match g.template.bind fun i => d.srv.templates.find? fun t => decide (t.index = i) with
  | none =>
    if req = 0xFFFFFFFF then []
    else match d.request req with
      | some r => [{ request := req, position := r.committed, baseLen := r.committed }]
      | none => []
  | some t =>
    if req ≠ 0xFFFFFFFF then t.running.filter fun w => decide (w.request = req)
    else
      let gates := d.taskGates slot task t
      if gates = [] then t.running else gates.filterMap fun i => t.running[i]?

end Sys2Proof.Machine
end

