-- ==== Sys2Proof/Machine/Plane.lean ====
section
/-! DEFINITION. The analogue plane: operations, the pre-check, step units, correction passes, the tail, adapter terms,
saves and resumptions (R45-R51, R66-R91, R106-R124, R141-R143, R152). -/

namespace Sys2Proof.Machine

/-! ## The input edge (R45-R49, R54-R56, R108-R111) -/

/-- One input element as the edge reads it: its value, whether it is non-finite, and 1 where it is counted as such (R56). -/
structure InElem where
  x : Exact := {}
  bad : Bool := false
  cnt : Nat := 0
  deriving DecidableEq, Repr

/-- The largest drive value of a drive format: Q of R46. -/
def driveQ : Nat → Nat
  | 1 => 1 | 2 => 3 | 5 => 112 | _ => 7

/-- Input shots of a drive format (R51). -/
def shotsOf (dfmt : Nat) : Nat := if dfmt = 5 then 2 else 1

/-- The drive level of a drive value in a shot (R51). -/
def shotLevel (dfmt shot : Nat) (v : Int) : Int :=
  if dfmt = 5 then (if shot = 0 then (v + 7) / 15 else v - 15 * ((v + 7) / 15)) else v

/-- Input elements from their codes; an MX block's elements carry its scale (R36, R56). -/
def inElems (f : NumFmt) (scales : List Nat) (codes : List Nat) : List InElem :=
  codes.zipIdx.map fun c =>
    let sc := if f.isMx then scales.getD (c.2 / 32) 127 else 127
    match f.decode c.1 with
    | .num x =>
      if f.isMx && decide (sc = 255) then ⟨{ neg := c.1.testBit (f.bits - 1) }, true, 1⟩
      else ⟨{ x with ex := x.ex + (sc : Int) - 127 }, false, 0⟩
    | .nonfinite neg => ⟨{ neg := neg }, true, 1⟩
    | .reserved => ⟨{}, false, 1⟩

/-- An input element as an adapter takes it: its value, and a mark where it is non-finite or reserved (R151). -/
def InElem.wide (e : InElem) : Exact × Bool := if e.bad then spoilt true e.x else (e.x, decide (e.cnt ≠ 0))

/-- The clip threshold T_b of a block, where it has a finite element (R108). -/
def threshold (alpha : Word) (es : List InElem) : Option Word :=
  let fin := es.filter fun e => !e.bad
  if fin = [] then none
  else
    let sum := fin.foldl (fun a e => (fpAdd (a, 0) ((fpRound { e.x with neg := false }).1, 0)).1) (0 : Word)
    some (fpMul (alpha, 0) (fpDiv (sum, 0) (fpOfInt fin.length, 0))).1

/-- Insert a candidate in rank order: larger magnitude first, then the lower index (R109). -/
def rankInsert (c : Nat × Exact) : List (Nat × Exact) → List (Nat × Exact)
  | [] => [c]
  | a :: l => if c.2.absLe a.2 then a :: rankInsert c l else c :: a :: l

/-- The outlier candidates of a block, ranked (R109). -/
def candidates (alpha : Word) (es : List InElem) : List (Nat × Exact) :=
  match threshold alpha es with
  | none => []
  | some t =>
    (es.zipIdx.filter fun e => !e.1.bad && !(e.1.x.absLe (fpVal t))).foldl (fun l e => rankInsert (e.2, e.1.x) l) []

/-- A dynamic drive scale (R46). DESIGN CHOICE (log entry 94): R46 gives no result for a quotient beyond the FP32 range, which
an MX block can have; s is then the largest FP32 value, and elements beyond ±Q × s are clipped and counted. -/
def driveScale (q : Nat) (amax : Exact) : Word :=
  if amax.num = 0 then 0x3F800000
  else
    let v := amax.div (Exact.ofInt q)
    if v.lt ⟨false, 1, 1, -126⟩ then BitVec.ofNat 32 (v.roundAt .up (-149)) else (fpRound v).1

/-- What the conversion of a drive block gives. -/
structure BlockOut where
  block : DriveBlock := {}
  clippedCand : Nat := 0
  passes : Nat := 1
  counts : EdgeCount := {}
  deriving DecidableEq, Repr

/-- One drive block through the edge: outliers leave the drive, the rest is scaled and rounded (R46, R47, R54-R56,
R109-R111, R117). -/
def convertBlock (q : Nat) (static : Option Word) (alpha : Word) (kmax : Nat) (strip : Bool) (es : List InElem) :
    BlockOut :=
  let cand := if strip then candidates alpha es else []
  let out := cand.take (32 * kmax)
  let excess := cand.drop (32 * kmax)
  let tb := (threshold alpha es).getD 0
  let es' := es.zipIdx.map fun e =>
    if out.any fun c => decide (c.1 = e.2) then { e.1 with x := {} }
    else if excess.any fun c => decide (c.1 = e.2) then { e.1 with x := { fpVal tb with neg := e.1.x.neg } }
    else e.1
  let s := match static with
    | some s => s
    | none => driveScale q (amaxOf ((es'.filter fun e => !e.bad).map (·.x)))
  let conv := es'.map fun e =>
    let sgn : Int := if e.x.neg then -1 else 1
    if e.bad then (sgn * q, 0)
    else
      let n := (e.x.div (fpVal s)).roundAt .nearest 0
      if q < n then (sgn * q, 1) else (sgn * n, 0)
  let vals := conv.map (·.1)
  { block := { scale := s, vals := vals
               stripped := out.map fun c => (c.1, (fpRound c.2).1) }
    clippedCand := excess.length
    passes := max 1 ((out.length + 31) / 32)
    counts := ⟨(es'.map (·.cnt)).sum, (conv.map (·.2)).sum, if vals.all (· = 0) then 1 else 0⟩ }

/-! ## The body and its tile list (R82, R83) -/

/-- The plane-operation body (R82). -/
def parsePlane (l : List Byte) : PlaneBody :=
  { kind := bits (leAt l 0 1) 3 0
    wfmt := leAt l 1 1
    ifmt := leAt l 2 1
    dfmt := leAt l 3 1
    forced := bits (leAt l 4 1) 5 3
    isStatic := bit (leAt l 4 1) 2
    scale := wordAt l 8
    tileCount := leAt l 0xC 4
    tileList := leAt l 0x10 8
    input := leAt l 0x18 8
    output := leAt l 0x20 8
    rows := leAt l 0x28 4
    cols := leAt l 0x2C 4
    epilogue := leAt l 0x30 8
    edition := leAt l 0x38 4 }

/-- Row tiles of an operation (R83). -/
def PlaneBody.rowTiles (b : PlaneBody) : Nat := (b.rows + 2047) / 2048
/-- Column tiles of an operation (R83). -/
def PlaneBody.colTiles (b : PlaneBody) : Nat := (b.cols + 1023) / 1024
/-- Slices that the weight format requires (R50, R83). -/
def PlaneBody.slices (b : PlaneBody) : Nat := if b.wfmt = 5 then 2 else 1
/-- A transposed read (R82). -/
def PlaneBody.transposed (b : PlaneBody) : Bool := decide (b.kind = 2)
/-- The input format. -/
def PlaneBody.inFmt (b : PlaneBody) : NumFmt := (NumFmt.ofCode b.ifmt).getD .fp32
/-- Elements of the input vector (R88). -/
def PlaneBody.inLen (b : PlaneBody) : Nat := if b.transposed then b.cols else b.rows
/-- Results (R88). -/
def PlaneBody.outLen (b : PlaneBody) : Nat := if b.transposed then b.rows else b.cols

/-- The checks of a plane body (R82, R74, R43, R486). -/
def checkPlane (l : List Byte) (d : Dev) : Chk PlaneBody × Dev :=
  let b := parsePlane l
  let prog := decide (b.kind = 3)
  let ifm := NumFmt.ofCode b.ifmt
  tests [
    (decide (bits (leAt l 0 1) 7 4 = 0) && decide (bits (leAt l 4 1) 7 6 = 0) && zeroAt l 5 3 && zeroAt l 0x3C 4 &&
      ((b.isStatic && !prog) || zeroAt l 8 4) &&
      (!prog || (decide (b.ifmt = 0) && decide (b.dfmt = 0) && decide (b.forced = 0) && !b.isStatic &&
        decide (b.output = 0) && decide (b.epilogue = 0))), 0x0007),
    (decide (1 ≤ b.kind) && decide (b.kind ≤ 3), 0x0101),
    (decide (1 ≤ b.wfmt) && decide (b.wfmt ≤ 5), 0x000B),
    (prog || (ifm.isSome && decide (ifm ≠ some .ue8m0)), 0x000B),
    (prog || decide (b.dfmt = 1) || decide (b.dfmt = 2) || decide (b.dfmt = 3) || decide (b.dfmt = 5), 0x000B),
    (decide (b.forced ≤ 4) && !(b.transposed && decide (3 ≤ b.forced)), 0x0101),
    (decide (bits (leAt l 4 1) 1 0 = 0), 0x000B),
    (!b.isStatic || fpPosNormal b.scale, 0x0101),
    (decide (1 ≤ b.tileCount) && decide (b.tileCount ≤ 24576), 0x0101),
    (aligned b.tileList 8, 0x000C),
    (b.ifmt < 8 || 0xA < b.ifmt || aligned b.input 64, 0x000C),
    (decide (1 ≤ b.rows) && decide (b.rows ≤ 131072), 0x0101),
    (decide (1 ≤ b.cols) && decide (b.cols ≤ 262144), 0x0101),
    (aligned b.epilogue 64, 0x000C),
    (decide (b.forced = 0) || d.bitAt Off.plnCtrl 1, 0x0103),
    (decide (b.tileCount = b.rowTiles * b.colTiles * b.slices), 0x0102)] b d

/-- A tile-list entry (R83). -/
def parseEntry (v : Nat) : TileEntry :=
  { logical := bits v 19 0, rowTile := bits v 37 32, colTile := bits v 47 40, slice := bits v 49 48 }

/-- The reserved bits of a tile-list entry are 0 (R83). -/
def entryReserved (v : Nat) : Bool :=
  decide (bits v 63 50 = 0) && decide (bits v 39 38 = 0) && decide (bits v 31 20 = 0)

/-- An INT8 low slice follows its high slice directly (R81). -/
def pairOrder : List TileEntry → Bool
  | a :: b :: l =>
    (if a.slice = 1 then decide (b.slice = 2 ∧ b.rowTile = a.rowTile ∧ b.colTile = a.colTile)
      else decide (b.slice ≠ 2)) && pairOrder (b :: l)
  | [a] => decide (a.slice ≠ 1)
  | [] => true

/-- The list names every combination once and no tile twice (R83). -/
def listOk (b : PlaneBody) (es : List TileEntry) : Bool :=
  (es.all fun e => decide (e.rowTile < b.rowTiles) && decide (e.colTile < b.colTiles) && decide (e.logical ≤ 24575) &&
    (if b.wfmt = 5 then decide (e.slice = 1 ∨ e.slice = 2) else decide (e.slice = 0))) &&
  decide ((es.map fun e => (e.rowTile, e.colTile, e.slice)).Nodup) && decide ((es.map (·.logical)).Nodup) &&
  (match es with
    | e :: _ => decide (e.slice ≠ 2)
    | [] => true) && pairOrder es

/-- The tile list is read and checked (R83). -/
def Dev.loadList (d : Dev) (r : Reader) (space : Nat) (b : PlaneBody) : Chk (List TileEntry) × Dev :=
  Chk.thn (Acc.chk (d.readVa r space b.tileList (8 * b.tileCount))) fun l d =>
    let ws := leWords 8 b.tileCount l
    let es := ws.map parseEntry
    tests [(ws.all entryReserved, 0x0007), (listOk b es, 0x0102)] es d

/-- The terms parked when those of the first `i` entries are complete: those that wait for an entry after them with the same
output tile and a lower input tile; a pair of INT8 slices forms one term (R141, R142). -/
def parkedAt (b : PlaneBody) (es : List TileEntry) (i : Nat) : Nat :=
  let key := fun (e : TileEntry) => if b.transposed then (e.rowTile, e.colTile) else (e.colTile, e.rowTile)
  let rest := (es.drop i).map key
  ((es.take i).filter fun e => decide (e.slice ≠ 2) && rest.any fun k => decide (k.1 = (key e).1) && decide (k.2 < (key e).2)).length

/-- The list entries that precede an entry of the same output tile with a lower input tile (R142). -/
def parkedCount (b : PlaneBody) : List TileEntry → Nat
  | [] => 0
  | e :: l =>
    let key := fun (e : TileEntry) => if b.transposed then (e.rowTile, e.colTile) else (e.colTile, e.rowTile)
    (if l.any fun f => decide ((key f).1 = (key e).1) && decide ((key f).2 < (key e).2) then 1 else 0) + parkedCount b l

/-- The checks of an operation against the state of its tiles (R84, R142, R350, R402). -/
def Dev.checkTiles (d : Dev) (b : PlaneBody) (es : List TileEntry) : Chk Unit × Dev :=
  let ref := d.bitAt Off.curCtrl 7
  let st := es.map fun e => (d.log e.logical, d.tileState e.logical)
  let r : Chk Unit × Dev := tests [
    (st.all fun t => match t.1 with
      | some x => decide (x.edition = b.edition)
      | none => true, 0x0104),
    (st.all fun t => decide (t.2 ≠ .free) && decide (t.2 ≠ .programming) && (ref || decide (t.2 ≠ .uncalibrated)),
      0x0105),
    (st.all fun t => match t.1.bind (·.phys) with
      | some p => !d.domainOff (bankDomain p)
      | none => true, 0x0106),
    (decide (4096 * parkedCount b es ≤ d.fld Off.wdeTermStore 6 0 * 2 ^ 20), 0x0302),
    (!d.editionAbsent b.edition, 0x0901),
    (st.all fun t => match t.1 with
      | some x => !x.masterDamaged
      | none => true, 0x0603)] () d
  match r.1 with
  | .reject s => (r.1, if s = 0x0302 then r.2.setBit Off.wdeStatus 5 else r.2)
  | _ => r

/-! ## The pre-check (R70-R75, R88) -/

/-- Groups of 256 driven lines in each phase (R72, R88). -/
def phaseSets (transposed : Bool) (p : Nat) : List (List Nat) :=
  if transposed then (if p = 1 then [[0, 1, 2, 3]] else [[0, 1], [2, 3]])
  else
    match p with
    | 1 => [[0, 1, 2, 3, 4, 5, 6, 7]]
    | 2 => [[0, 1, 2, 3], [4, 5, 6, 7]]
    | 3 => [[0, 1, 2], [3, 4, 5], [6, 7]]
    | _ => [[0, 1], [2, 3], [4, 5], [6, 7]]

/-- A(k) of a shot (R71). -/
def driveSums (levels : List Int) : List Nat := (groupsOf 256 8 levels).map fun g => (g.map Int.natAbs).sum

/-- The largest bound of a tile over the phases of a split and its sensed groups, for one shot (R71). -/
def boundOf (sets : List (List Nat)) (stats : List (List Nat)) (a : List Nat) : Nat :=
  (sets.map fun g =>
    ((List.range 128).map fun j => (g.map fun k => a.getD k 0 * (stats.getD k []).getD j 0).sum).foldl max 0).foldl max 0

/-- Full scale of a range code (R68). -/
def fullScale (g : Nat) : Nat := 57344 / 2 ^ g

/-- LSB of a range code (R68). -/
def lsbOf (g : Nat) : Nat := 448 / 2 ^ g

/-- The largest range code that holds a bound, else 0 (R73, R74). -/
def rangeOf (bound : Nat) : Nat := (([3, 2, 1].find? fun g => decide (bound ≤ fullScale g))).getD 0

/-! ## Latching an operation (R80, R81, R118) -/

/-- Groups of consecutive entries up to the cap; a pair of slices stays together (R81; with a cap of 1 a pair fires
together, log entry 32). -/
def formGroups (cap : Nat) : Nat → List (Nat × TileEntry) → List (List Nat)
  | 0, _ => []
  | _, [] => []
  | n + 1, l =>
    let g := l.take cap
    let split := match g.getLast?, l.drop cap with
      | some a, b :: _ => decide (a.2.slice = 1) && decide (b.2.slice = 2)
      | _, _ => false
    let k := if split then (if cap ≤ 1 then 2 else cap - 1) else cap
    (l.take k).map (·.1) :: formGroups cap n (l.drop k)

/-- Length of a drive block (R45). -/
def PlaneBody.blockLen (b : PlaneBody) : Nat := if b.transposed then 1024 else 2048

/-- The drive block of an entry (R45). -/
def PlaneOp.blockIdx (o : PlaneOp) (e : TileEntry) : Nat := if o.body.transposed then e.colTile else e.rowTile

/-- The output tile of an entry. -/
def PlaneOp.outIdx (o : PlaneOp) (e : TileEntry) : Nat := if o.body.transposed then e.rowTile else e.colTile

/-- The drive levels of an entry in a shot. -/
def PlaneOp.levels (o : PlaneOp) (e : TileEntry) (shot : Nat) : List Int :=
  ((o.drive.getD (o.blockIdx e) {}).vals).map (shotLevel o.body.dfmt shot)

/-- The bounds of every entry that has statistics, for a split (R71): by entry index. -/
def Dev.opBounds (d : Dev) (o : PlaneOp) (p : Nat) : List Nat :=
  o.entries.map fun e =>
    match (d.log e.logical).bind (·.phys) with
    | none => 0
    | some q =>
      let st := (d.phys q).stats o.body.transposed
      ((List.range (shotsOf o.body.dfmt)).map fun s =>
        boundOf (phaseSets o.body.transposed p) st (driveSums (o.levels e s))).foldl max 0

/-- The phases of an operation: forced, or the first split that passes (R72, R74, R88). -/
def Dev.opPhases (d : Dev) (o : PlaneOp) : Nat :=
  if o.body.forced ≠ 0 then o.body.forced
  else
    let ok := fun p => (d.opBounds o p).all fun x => decide (x ≤ 57344)
    if ok 1 then 1
    else if o.body.transposed then 2
    else if ok 2 then 2
    else if ok 3 then 3
    else 4

/-- The pre-check reads the statistics of every tile of the operation from the near store (R70, R402). -/
def Dev.readStats (d : Dev) (r : Reader) (o : PlaneOp) : Chk Unit × Dev :=
  o.entries.foldl (fun (x : Chk Unit × Dev) e =>
    Chk.thn x fun _ d =>
      match (d.log e.logical).bind (·.phys) with
      | some p => d.areaChk r e.logical (statsArea p) 512
      | none => (.ok (), d)) (.ok (), d)

/-- The active bank of an entry's tile (R162). -/
def Dev.bankOf (d : Dev) (e : TileEntry) : TrimBank :=
  match (d.log e.logical).bind (·.phys) with
  | some p => (d.phys p).active
  | none => {}

/-- What an operation latches as its first step unit starts: conversion, outliers, pre-check, cap, groups, banks and epoch
(R75, R80, R118, R162). The counts of the conversion come with it. -/
def Dev.latchSettings (d : Dev) (o : PlaneOp) : PlaneOp × EdgeCount :=
  let b := o.body
  let es := inElems b.inFmt o.mxScales o.elems
  let outs := (groupsOf b.blockLen (es.length + 1) es).map
    (convertBlock (driveQ b.dfmt) (if b.isStatic then some b.scale else none)
      (BitVec.ofNat 32 (d.reg Off.curActRatio)) (d.fld Off.curCtrl 2 0) (d.bitAt Off.curCtrl 5))
  let ref := d.bitAt Off.curCtrl 7
  let cap := min (d.fld Off.plnFiringCap 10 0) (1024 - 64 * d.pwr.level)
  let o := { o with
    drive := outs.map (·.block)
    clippedCand := (outs.map (·.clippedCand)).sum
    passes := (outs.map (·.passes)).foldl max 1
    fires := o.entries.map fun e => !ref && decide (d.tileState e.logical = .ready)
    cap := cap
    epoch := d.reg Off.calEpoch
    auditK := d.fld Off.curAuditCtrl 31 24
    reference := ref
    banks := o.entries.map d.bankOf
    groups := formGroups cap (o.entries.length + 1) (o.entries.zipIdx.map fun e => (e.2, e.1)) }
  let p := if ref then 1 else d.opPhases o
  ({ o with phases := p, ranges := if ref then o.entries.map fun _ => 0 else (d.opBounds o p).map rangeOf },
    sumCounts (outs.map (·.counts)))

/-- An operation latches its settings, once the statistics of its tiles have been read; in reference mode there is no
pre-check (R129). -/
def Dev.latchOp (d : Dev) (r : Reader) (o : PlaneOp) : Chk (PlaneOp × EdgeCount) × Dev :=
  Chk.thn (if d.bitAt Off.curCtrl 7 then (.ok (), d) else d.readStats r o) fun _ d => (.ok (d.latchSettings o), d)

/-! ## Starting an operation -/

/-- A fault of the plane sequencer or Currant is pending (R90, R131). -/
def Dev.seqFault (d : Dev) : Bool :=
  d.mmu.faults.any fun f => decide (f.2.outcome = 0) && decide (f.2.unitClass = 2 ∨ f.2.unitClass = 3)

/-- An operation saved for a fault keeps the sequencer until a tick pre-empts it (R90). -/
def Dev.faultSaved (d : Dev) (o : PlaneOp) : Bool := decide ((d.taskRun o.slot o.task).st = .running)

/-- The sequencer holds a fault, or waits for the operation that a fault stopped: no other operation starts (R90, R131). -/
def Dev.seqHeld (d : Dev) : Bool := d.seqFault || d.pln.saved.any d.faultSaved

/-- The body, the tile list, the tiles and the epilogue of an issued plane task pass their checks; an MX output lies on 64
bytes (R37). -/
def Dev.checkOp (d : Dev) (r : Reader) (slot task space : Nat) :
    Chk (PlaneBody × List TileEntry × Bool) × Dev :=
  Chk.thn (d.readBody slot task 64) fun l d =>
  Chk.thn (checkPlane l d) fun b d =>
  Chk.thn (d.loadList r space b) fun es d =>
  Chk.thn (d.checkTiles b es) fun _ d =>
  Chk.thn (d.loadEpi r space b.epilogue b.rows b.cols b.transposed) fun ea d =>
    tests [(!ea.1.outFormat.isMx || aligned b.output 64, 0x000C)] (b, es, ea.2.isNone) d

/-- The input vector of an operation: its element codes and, for an MX format, its scale codes, whose address no field of
the body carries (free values, log entry 33). -/
def Dev.readInput (d : Dev) (r : Reader) (space : Nat) (b : PlaneBody) : Chk (List Nat × List Nat) × Dev :=
  let n := b.inLen
  Chk.thn (Acc.chk (d.readVa r space b.input (packedBytes b.inFmt n))) fun l d =>
    let k := if b.inFmt.isMx then (n + 31) / 32 else 0
    let (sc, d) := d.drawBytes k
    (.ok (codesOf b.inFmt n l, sc.map (·.toNat)), d)

/-- The counts of an operation's outliers, made as it latches; an operation that latches again after a restart counts its
clipped candidates only where it has counted none (R116, R118, R132; log entry 95). -/
def Dev.countOutliers (d : Dev) (o : PlaneOp) : Dev :=
  let d := d.bumpWrap Off.curActStripped ((o.drive.map fun b => b.stripped.length).sum)
  if o.clippedCand = 0 ∨ o.counted then d
  else
    let d := ((d.bump Off.curActClipped o.clippedCand).bump Off.curOverflowOps).setBit Off.curStatus 3
    if d.cur.overflowFrame then d
    else
      { d with cur := { d.cur with overflowFrame := true } }.event (bitCode Off.curStatus 3)
        { task := o.task, graph := o.slot, request := d.taskRequest o.slot o.task, arg1 := o.clippedCand }

/-- The quality flags of an operation as it latches. -/
def PlaneOp.startFlags (o : PlaneOp) (ec : EdgeCount) : Nat :=
  ec.quality ||| (if o.clippedCand = 0 then 0 else qOutlier) ||| (if o.reference then qReference else 0)

/-- A forward or transposed operation takes the sequencer; it latches with its first step unit (R82-R84, R118). -/
def Dev.startPlane (d : Dev) (transposed : Bool) : Dev :=
  if d.pln.op.isSome || d.seqHeld then d
  else
    match d.issuedWhere 1 fun k => decide (k % 16 ≠ 3) && (decide (k % 16 = 2) == transposed) with
    | none => d
    | some (slot, task) =>
      let space := (d.slot slot).space
      let r := d.reader 2 0 slot task
      Dev.act (Chk.thn (d.checkOp r slot task space) fun x d =>
          Chk.thn (d.readInput r space x.1) fun y d => (.ok (x, y), d))
        2 0 slot task space fun x d =>
          let o : PlaneOp :=
            { slot := slot, task := task, space := space, body := x.1.1, entries := x.1.2.1, elems := x.2.1
              mxScales := x.2.2, y := if x.1.2.2 then some [] else none }
          ({ d with pln := { d.pln with op := some o } }).setTask slot task .running

/-- PLANE_FORWARD (R82). -/
def Dev.planeForward (d : Dev) : Dev := d.startPlane false

/-- PLANE_TRANSPOSED (R87). -/
def Dev.planeTransposed (d : Dev) : Dev := d.startPlane true

/-! ## Step units (R67-R79, R87, R106) -/

/-- The exact sums of the sensed lines over the driven lines of a phase (R102). -/
def phaseSums (t : PhysTile) (transposed : Bool) (set : List Nat) (levels : List Int) : List Int :=
  let n := if transposed then t.tileRows else t.tileCols
  (((t.lines transposed).zip levels).zipIdx).foldl (fun acc x =>
    if set.contains (x.2 / 256) && decide (x.1.2 ≠ 0) then acc.zipWith (fun a w => a + x.1.2 * w) x.1.1 else acc)
    (List.replicate n 0)

/-- The trims of a bank in the order of R160. -/
def trimImage (b : TrimBank) : List Int := b.thresholds ++ b.gains ++ b.offsets ++ b.delays ++ b.amplitudes

/-- The bound of the systematic error of a code, in thousandths of an LSB: that of R176 for a tile of Coarse grade, else that
of R102 for a sum, a number of decades in quarters and of degrees. -/
def systematicBound (grade lsb : Nat) (s : Int) (ages : Nat × Nat) : Nat :=
  if grade = 1 then 8000 else 300 + (4 * s.natAbs + lsb - 1) / lsb + 25 * ages.1 + 20 * ages.2

/-- The code of a column sum: its systematic error is a free value within `bound`, its random term a free value, and the
quantisation is to the nearest code of the converter's range (R68, R102; log entry 10). -/
def codeOf (trims : List Int) (draw idx lsb bound : Nat) (s : Int) : Int :=
  let e := max (-(bound : Int)) (min bound (Config.systematic trims draw idx)) + Config.randomTerm draw idx
  let v := 1000 * s + lsb * e
  let q := ((Exact.ofInt v).div (Exact.ofInt (1000 * lsb))).roundAt .nearest 0
  max (-128) (min 127 (if v < 0 then -(q : Int) else q))

/-- A saturated code (R76). -/
def saturated (q : Int) : Bool := decide (q = 127 ∨ q = -128)

/-- The drive levels of a phase are all 0: a zero slice (R77). -/
def zeroSlice (set : List Nat) (levels : List Int) : Bool :=
  levels.zipIdx.all fun x => !set.contains (x.2 / 256) || decide (x.1 = 0)

/-- One tile fires in one phase with a trim bank: its codes, with the draw of the noise taken (R102, R161). -/
def Dev.fireTile (d : Dev) (p : Nat) (bank : TrimBank) (transposed : Bool) (range : Nat) (set : List Nat)
    (levels : List Int) (entry shot phase : Nat) : CodeRec × Dev :=
  let t := d.phys p
  let lsb := lsbOf range
  let ages := t.ages d.now (d.dieTemp (dieOf p))
  ({ entry := entry, shot := shot, phase := phase
     codes := (phaseSums t transposed set levels).zipIdx.map fun s =>
       codeOf (trimImage bank) d.fresh s.2 lsb (systematicBound t.grade lsb s.1 ages) s.1 },
    { d with fresh := d.fresh + 1 })

/-- The codes that a step unit delivers, with its array steps and skipped firings (R77, R79). -/
def Dev.fireUnit (d : Dev) (o : PlaneOp) (group : List Nat) (shot : Nat) : List CodeRec × Nat × Nat × Dev :=
  (phaseSets o.body.transposed o.phases).zipIdx.foldl (fun (x : List CodeRec × Nat × Nat × Dev) ph =>
    let y := group.foldl (fun (y : List CodeRec × Nat × Dev) i =>
      let e := o.entries.getD i {}
      match (d.log e.logical).bind (·.phys) with
      | none => y
      | some p =>
        if !o.fires.getD i false then y
        else
          let lv := o.levels e shot
          if zeroSlice ph.1 lv then (y.1, y.2.1 + 1, y.2.2)
          else
            let (c, d) := y.2.2.fireTile p (o.banks.getD i {}) o.body.transposed (o.ranges.getD i 0) ph.1 lv i shot ph.2
            (y.1 ++ [c], y.2.1, d)) ([], 0, x.2.2.2)
    (x.1 ++ y.1, x.2.1 + (if y.1 = [] then 0 else if o.body.transposed then 2 else 1), x.2.2.1 + y.2.1, y.2.2))
    ([], 0, 0, d)

/-- A detected uncorrectable error on an internal bus (R90, R401). -/
def Dev.busError (d : Dev) (cls index slot task : Nat) : Dev :=
  let req := d.taskRequest slot task
  let d := (d.bump Off.evrUeCount).signature 0x0D80 { status := 0x0601, task := task, request := req, graph := slot }
    { severity := 0, source := 4, outcome := 2, status := 0x0601, unitClass := cls, unitIndex := index, graph := slot
      task := task, request := req }
  d.dataBad slot

/-- The next step unit of the running operation fires and delivers its codes (R76-R79, R106, R142). -/
def Dev.runUnit (d : Dev) (o : PlaneOp) : Dev :=
  let d := d.setFld Off.plnFiringCap 26 16 o.cap
  let shots := shotsOf o.body.dfmt
  let (cs, steps, skips, d) := d.fireUnit o (o.groups.getD (o.unit / shots) []) (o.unit % shots)
  let d := (d.bump64 Off.plnStepsLo steps).bumpWrap Off.plnZeroSkips skips
  let d := d.countFlag Off.plnStatus 4 Off.plnSaturatedColumns ((cs.map fun c => (c.codes.filter saturated).length).sum)
  let coarse := cs.any fun c =>
    match (d.log (o.entries.getD c.entry {}).logical).bind (·.phys) with
    | some p => decide ((d.phys p).grade = 1)
    | none => false
  let parked := parkedAt o.body o.entries ((o.groups.take ((o.unit + 1) / shots)).map (·.length)).sum
  let d := d.setFld Off.wdeTermPeak 15 0 (max (d.fld Off.wdeTermPeak 15 0) (min parked 0xFFFF))
  let o := { o with codes := o.codes ++ cs, unit := o.unit + 1
                    fired := (o.fired ++ cs.map (·.entry)).dedup
                    flags := o.flags ||| (if coarse then qCoarse else 0) }
  if o.unit < o.groups.length * shots then { d with pln := { d.pln with op := some o } }
  else { d with pln := { d.pln with op := none, tails := d.pln.tails ++ [o] } }

/-- The first step unit of an operation starts: it latches, and the counts and flags are those of what it latched (R80,
R116, R118, R162, R293). -/
def Dev.firstUnit (d : Dev) (o : PlaneOp) : Dev :=
  Dev.act (d.latchOp (d.reader 3 0 o.slot o.task) o) 3 0 o.slot o.task o.space fun x d =>
    let o := { x.1 with flags := x.1.startFlags x.2, started := true }
    let d := (d.edge Off.plnEdgeStatus x.2).countOutliers o
    d.runUnit { o with counted := o.counted || decide (o.clippedCand ≠ 0) }

/-- STEP_UNIT: the sequencer runs the next step unit of the running operation; it waits for a free context and for
confirmation firings (R79, R119, R126). A symbol corrected in the transfer of its codes is counted, and with an uncorrectable
word the task aborts (R400, R401; log entry 117). -/
def Dev.stepUnit (d : Dev) (transfer : Transfer) : Dev :=
  match d.pln.op with
  | none => d
  | some o =>
    if d.stopped o.slot o.task || d.marked o.slot o.task || decide (2 ≤ d.pln.tails.length) ||
        decide (d.cur.firings ≠ []) then d
    else if transfer = .bad then d.busError 2 0 o.slot o.task
    else
      let d := if transfer = .corrected then d.bumpWrap Off.evrCeBus else d
      if o.started then d.runUnit o else d.firstUnit o

/-! ## Correction passes and the tail (R106-R122, R141) -/

/-- The stripped channels of a correction pass, by block (R109). -/
def PlaneOp.passChannels (o : PlaneOp) (k : Nat) : List (Nat × Nat × Word) :=
  o.drive.zipIdx.flatMap fun b => ((b.1.stripped.drop (32 * k)).take 32).map fun c => (b.2, c.1, c.2)

/-- Every stripped channel in ascending channel index (R107). -/
def PlaneOp.channels (o : PlaneOp) : List (Nat × Nat × Word) :=
  o.drive.zipIdx.flatMap fun b =>
    (b.1.stripped.foldl (fun (l : List (Nat × Word)) c => put l c.1 c.2) []).map fun c => (b.2, c.1, c.2)

/-- The element codes of the master row, or column, of a stripped channel in one tile (R107, R109). -/
def Dev.channelCodes (d : Dev) (r : Reader) (transposed : Bool) (t : LogTile) (idx : Nat) : Chk (List Nat) × Dev :=
  let f := weightFmt t.format
  if transposed then
    (List.range t.nrows).foldl (fun (x : Chk (List Nat) × Dev) i =>
      Chk.thn x fun l d =>
        Chk.thn (d.readMaster r t.pages t.masterOff (t.rowOff i + idx * f.bits / 8) 1) fun bs d =>
          (.ok (l ++ [(codesOf f (8 / f.bits) bs).getD (idx % (8 / f.bits)) 0]), d)) (.ok [], d)
  else
    Chk.thn (d.readMaster r t.pages t.masterOff (t.rowOff idx) t.rowBytes) fun l d => (.ok (codesOf f t.ncols l), d)

/-- The entries whose tiles hold the master weights of a block, one for each output tile, in ascending output tile. -/
def PlaneOp.blockEntries (o : PlaneOp) (block : Nat) : List TileEntry :=
  let n := if o.body.transposed then o.body.rowTiles else o.body.colTiles
  (List.range n).filterMap fun c =>
    o.entries.find? fun e => decide (o.blockIdx e = block) && decide (o.outIdx e = c) && decide (e.slice ≠ 2)

/-- The master weight values of a channel across all outputs, with 2 slices held in one master (R107). -/
def Dev.channelRow (d : Dev) (r : Reader) (o : PlaneOp) (block idx : Nat) : Chk (List Word) × Dev :=
  (o.blockEntries block).foldl (fun (x : Chk (List Word) × Dev) e =>
    Chk.thn x fun l d =>
      match d.log e.logical with
      | none => (.ok l, d)
      | some t =>
        Chk.thn (Dev.masterChk (d.channelCodes r o.body.transposed t idx) t) fun cs d =>
          (.ok (l ++ cs.map (masterValue (weightFmt t.format))), d)) (.ok [], d)

/-- The operation that Currant works on next: the oldest tail, else the running operation, with a pass left (R119). -/
def Dev.passOp (d : Dev) : Option PlaneOp :=
  let left := fun (o : PlaneOp) => decide (o.passesDone < o.passes) && !d.stopped o.slot o.task
  match d.pln.tails.find? left with
  | some o => some o
  | none =>
    match d.pln.op with
    | some o => if o.started && left o then some o else none
    | none => none

/-- An operation changed, wherever it stands. -/
def Dev.modOp (d : Dev) (slot task : Nat) (f : PlaneOp → PlaneOp) : Dev :=
  let g := fun (o : PlaneOp) => if o.slot = slot ∧ o.task = task then f o else o
  { d with pln := { d.pln with op := d.pln.op.map g, saved := d.pln.saved.map g, tails := d.pln.tails.map g } }

/-- CORRECTION_PASS: a pass fetches the master rows of its stripped channels (R107, R119). -/
def Dev.correctionPass (d : Dev) : Dev :=
  match d.passOp with
  | none => d
  | some o =>
    let r := d.reader 3 0 o.slot o.task
    Dev.act ((o.passChannels o.passesDone).foldl (fun (x : Chk Unit × Dev) c =>
        Chk.thn x fun _ d => Chk.thn (d.channelRow r o c.1 c.2.1) fun _ d => (.ok (), d)) (.ok (), d))
      3 0 o.slot o.task o.space fun _ d => d.modOp o.slot o.task fun o => { o with passesDone := o.passesDone + 1 }

/-- The digital sum of a tile for each shot, from its master copy (R122). -/
def digitalSums (transposed : Bool) (f : NumFmt) (slice : Nat) (codes : List (List Nat)) (nrows ncols : Nat)
    (levels : List (List Int)) : List (List Int) :=
  let m := codes.map fun r => r.map (levelOf f slice)
  let t : PhysTile := { levels := m.flatten, tileRows := nrows, tileCols := ncols }
  levels.map fun lv => phaseSums t transposed (List.range 8) lv

/-- The weight-outlier term of a shot: (MASTER − ACHIEVED) × d, summed by sensed line (R106). -/
def outlierTerm (transposed : Bool) (n : Nat) (es : List OutlierEntry) (levels : List Int) : List Int :=
  es.foldl (fun acc e =>
    let (i, j) := if transposed then (e.col, e.row) else (e.row, e.col)
    upd acc j (· + (e.master - e.achieved) * levels.getD i 0)) (List.replicate n 0)

/-- Saturated codes of an entry (R121). -/
def PlaneOp.satCount (o : PlaneOp) (i : Nat) : Nat :=
  ((o.codes.filter fun c => decide (c.entry = i)).map fun c => (c.codes.filter saturated).length).sum

/-- A tile of the operation is served digitally (R84, R121, R122, R129). -/
def PlaneOp.digital (o : PlaneOp) (i : Nat) : Bool := !o.fires.getD i false || decide (64 < o.satCount i)

/-- The phase sums that the codes of a record stand for: their values, or where they are saturated the exact sums, which are
given (R106, R120). -/
def codeSums (lsb : Nat) (codes exact : List Int) : List Int :=
  codes.zipIdx.map fun c => if saturated c.1 then exact.getD c.2 0 else c.1 * lsb

/-- The exact phase sums of a record over the achieved levels, as the master copy and the outlier table give them (R102,
R120). -/
def exactSums (t : LogTile) (codes : List (List Nat)) (transposed : Bool) (phases phase : Nat) (levels : List Int) :
    List Int :=
  phaseSums { levels := (t.achieved codes).flatten, tileRows := t.nrows, tileCols := t.ncols } transposed
    ((phaseSets transposed phases).getD phase []) levels

/-- S_t of an entry, by shot (R106, R122). A tile that fired has its outlier table read, and its master copy where a code is
saturated. -/
def Dev.entrySums (d : Dev) (r : Reader) (o : PlaneOp) (i : Nat) : Chk (List (List Int)) × Dev :=
  let e := o.entries.getD i {}
  let tr := o.body.transposed
  match d.log e.logical with
  | none => (.ok [], d)
  | some t =>
    let n := if tr then t.nrows else t.ncols
    let lv := (List.range (shotsOf o.body.dfmt)).map (o.levels e)
    if o.digital i then
      Chk.thn (Dev.masterChk (d.masterCodes r t) t) fun cs d =>
        (.ok (digitalSums tr (weightFmt t.format) t.slice cs t.nrows t.ncols lv), d)
    else
      Chk.thn (d.tableChk r e.logical (t.phys.getD 0) t) fun _ d =>
      Chk.thn (if o.satCount i = 0 then (.ok [], d) else Dev.masterChk (d.masterCodes r t) t) fun cs d =>
        (.ok (lv.zipIdx.map fun s =>
          let w := outlierTerm tr n t.outliers s.1
          (o.codes.filter fun c => decide (c.entry = i) && decide (c.shot = s.2)).foldl (fun acc c =>
            acc.zipWith (· + ·) (codeSums (lsbOf (o.ranges.getD i 0)) c.codes
              (if c.codes.any saturated then exactSums t cs tr o.phases c.phase s.1 else []))) w), d)

/-- Every entry's S_t. -/
def Dev.allSums (d : Dev) (r : Reader) (o : PlaneOp) : Chk (List (List (List Int))) × Dev :=
  (List.range o.entries.length).foldl (fun (x : Chk (List (List (List Int))) × Dev) i =>
    Chk.thn x fun l d => Chk.thn (d.entrySums r o i) fun s d => (.ok (l ++ [s]), d)) (.ok [], d)

/-- X[c] of one block and output tile: slices and shots combined (R50, R51, R141). -/
def combine (o : PlaneOp) (sums : List (List (List Int))) (block out : Nat) : List Int :=
  let of := fun (slice : Nat) =>
    match (o.entries.zip sums).find? fun x =>
        decide (o.blockIdx x.1 = block) && decide (o.outIdx x.1 = out) && decide (x.1.slice = slice) with
    | some x => x.2
    | none => []
  let per := if o.body.wfmt = 5 then
      (of 1).zipWith (fun h l => h.zipWith (fun a b => 16 * a + b) l) (of 2)
    else of 0
  match per with
  | [s] => s
  | hi :: lo :: _ => hi.zipWith (fun a b => 15 * a + b) lo
  | [] => []

/-- The accumulator values of an operation before the epilogue, with clips (R141). -/
def accumulateOp (o : PlaneOp) (sums : List (List (List Int))) (a : List (Word × Nat)) : List (Word × Nat) :=
  let blocks := if o.body.transposed then o.body.colTiles else o.body.rowTiles
  let outs := if o.body.transposed then o.body.rowTiles else o.body.colTiles
  let vals := (List.range outs).flatMap fun c =>
    let terms := (List.range blocks).map fun b =>
      let f := fpMul ((o.drive.getD b {}).scale, 0) (levelUnit (weightFmt o.body.wfmt), 0)
      (combine o sums b c).map fun x =>
        let t := fpRound ((Exact.ofInt x).mul (fpVal f.1))
        (t.1, t.2 + f.2)
    terms.tail.foldl (fun acc t => acc.zipWith fpAdd t) (terms.headD [])
  vals.zipWith fpAdd a

/-- The activation term A[c], with clips (R107). -/
def Dev.activationTerm (d : Dev) (r : Reader) (o : PlaneOp) : Chk (List (Word × Nat)) × Dev :=
  (o.channels).foldl (fun (x : Chk (List (Word × Nat)) × Dev) c =>
    Chk.thn x fun acc d =>
    Chk.thn (d.channelRow r o c.1 c.2.1) fun ws d =>
      (.ok (acc.zipWith (fun a w => fpAdd a (fpMul (c.2.2, 0) (w, 0))) ws), d))
    (.ok (List.replicate o.body.outLen ((0 : Word), 0)), d)

/-- An operation's own results: bytes written, counts and clips. -/
structure TailOut where
  counts : EdgeCount := {}
  clips : Nat := 0
  deriving DecidableEq, Repr

/-- The tail: corrections and terms are summed, the epilogue runs and the output is written (R119, R141, R147). -/
def Dev.tailWork (d : Dev) (r : Reader) (o : PlaneOp) (y : List Word) : Chk TailOut × Dev :=
  let b := o.body
  Chk.thn (d.allSums r o) fun sums d =>
  Chk.thn (d.activationTerm r o) fun a d =>
  Chk.thn (d.loadEpi r o.space b.epilogue b.rows b.cols b.transposed) fun ea d =>
  Chk.thn (d.epiArrays r o.space ea.1 0 b.outLen) fun wb d =>
    let acc := accumulateOp o sums a
    let seed := (d.taskHdr o.slot o.task).seed
    let (bytes, scales, clips, ec) := epiRow ea.1 false ea.2 seed 0 (acc.map (·.1)) wb.1 wb.2 y
    Chk.thn (Acc.chk (d.writeAll r o.space ([(b.output, bytes)] ++
        if ea.1.scaleMode = 2 then [(ea.1.outScales, scales)] else []))) fun _ d =>
      (.ok { counts := ec, clips := (acc.map (·.2)).sum + clips }, d)

/-- A selected participation enters the audit queue, or is skipped; D and ΔT of R125 are those of the capture (R124). -/
def Dev.capture (d : Dev) (o : PlaneOp) (i serial : Nat) : Dev :=
  let e := o.entries.getD i {}
  if 512 ≤ d.cur.queue.length then d.skipAudit
  else
    let (ep, p) := match d.log e.logical with
      | some t => (t.epoch, t.phys.getD 0)
      | none => (0, 0)
    let temp := d.dieTemp (dieOf p)
    let ages := (d.phys p).ages d.now temp
    let a : AuditEntry :=
      { logical := e.logical, slot := o.slot, task := o.task, runId := (d.slot o.slot).runId
        transposed := o.body.transposed, phases := o.phases, range := o.ranges.getD i 0
        drives := (List.range (shotsOf o.body.dfmt)).map (o.levels e)
        codes := o.codes.filter fun c => decide (c.entry = i)
        epoch := ep, k := o.auditK, ts := d.now, temperature := temp
        request := d.taskRequest o.slot o.task, serial := serial, decades := ages.1, warmer := ages.2
        place := ((List.range 512).find? fun i => d.cur.queue.all fun a => decide (a.place ≠ i)).getD 0 }
    let d := d.zeroPa (auditArea a.place) auditBytes
    let d := { d with cur := { d.cur with queue := d.cur.queue ++ [a] } }
    let d := d.modSlot o.slot fun g => { g with audits := g.audits + 1 }
    d.setFld Off.curAuditQueue 25 16 (max (d.fld Off.curAuditQueue 25 16) d.cur.queue.length)

/-- Audits are selected: AUDIT_ENABLE, which Damson holds at 0 until the device enters READY (R123, R176). -/
def Dev.auditsOn (d : Dev) : Bool := d.bitAt Off.curCtrl 6 && decide (d.bring = .ready)

/-- A participation is counted, and selected when the count reaches the interval (R123, R127, R352). -/
def Dev.participate (d : Dev) (o : PlaneOp) (i : Nat) : Dev :=
  let l := (o.entries.getD i {}).logical
  let serial := d.cur.serial + 1
  let rows := (d.taskRows o.slot o.task).map fun w => (l, serial, w.request, w.position)
  let d := { d with cur := { d.cur with serial := serial, affected := d.cur.affected ++ rows } }
  let d := d.modLog l fun t => { t with uses := t.uses + 1 }
  if !d.auditsOn then d
  else
    let n := d.cur.participations + 1
    if d.fld Off.curAuditCtrl 12 0 ≤ n then
      ({ d with cur := { d.cur with participations := 0 } }).capture o i serial
    else { d with cur := { d.cur with participations := n } }

/-- A tile with more than 64 saturated codes is treated as having failed an audit, and so is its graph (R121, R128; log
entry 61). -/
def Dev.satDigital (d : Dev) (o : PlaneOp) (serial i : Nat) : Dev :=
  if o.fires.getD i false && decide (64 < o.satCount i) then
    let l := (o.entries.getD i {}).logical
    (((d.bump Off.curSatDigitalTiles).setBit Off.curStatus 6).failAudit
      { logical := l, slot := o.slot, task := o.task, request := d.taskRequest o.slot o.task, serial := serial }
      0 true).modSlot o.slot fun g => { g with auditFailed := true }
  else d

/-- What an operation counts when it completes (R76, R105, R120-R123, R132). -/
def Dev.countOp (d : Dev) (o : PlaneOp) : Dev :=
  let is := List.range o.entries.length
  let serial := d.cur.serial + 1
  let d := d.bump64 Off.plnOpsLo
  let d := if o.reference then d else d.measure fun h =>
    { h with winStep := h.winStep + o.phases * o.groups.length * shotsOf o.body.dfmt * (if o.body.transposed then 128 else 64) }
  let d := if o.reference then d else d.bump (Off.plnPhaseOps + 4 * (o.phases - 1))
  let d := if 2 ≤ o.passes then d.bump (Off.curPassOps + 4 * (o.passes - 2)) else d
  let d := d.bump Off.curSatRecomputed
    ((is.filter fun i => !o.digital i).map o.satCount).sum
  let d := (is.filter fun i => o.fired.contains i).foldl (fun d i => d.participate o i) d
  let d := (is.filter fun i => decide (d.tileState (o.entries.getD i {}).logical = .digital)).foldl
    (fun d i => d.modLog (o.entries.getD i {}).logical fun t => { t with uses := t.uses + 1 }) d
  is.foldl (fun d i => d.satDigital o serial i) d

/-- The output tiles and rows that the sums of an operation in reference mode take: for each tile its drive levels, one row a
shot, against its master levels (R129, R135). -/
def Dev.refGrid (d : Dev) (o : PlaneOp) : Nat × Nat :=
  o.entries.foldl (fun x e =>
    match d.log e.logical with
    | none => x
    | some t =>
      let g := if o.body.transposed then wideGrid 256 (shotsOf o.body.dfmt) t.nrows t.ncols
        else wideGrid 256 (shotsOf o.body.dfmt) t.ncols t.nrows
      (x.1 + g.1, x.2 + g.2)) (0, 0)

/-- The wide engine takes up the reference-mode sums of an operation at a free output tile, after adapter work and after the
wide tasks of its rank or a higher one that ask for a tile; HOLD stops them (R156, R159). -/
def Dev.refMay (d : Dev) (o : PlaneOp) : Bool :=
  !d.bitAt Off.wdeCtrl 0 && (d.wde.tile0.isNone || d.wde.tile1.isNone) && !d.adapterFirst &&
    d.wde.tasks.all fun t =>
      t.saved || d.stopped t.slot t.task || decide (t.total ≤ t.next) || decide (d.rank t.slot < d.rank o.slot)

/-- OPERATION_TAIL_END: the tail of the oldest operation whose passes are done completes; it waits for the adapter term, and
in reference mode for the sums of the wide engine; a residue mismatch aborts the task (R119, R129, R152, R156, R403). -/
def Dev.operationTailEnd (d : Dev) (mismatch : Bool) : Dev :=
  match d.pln.tails.find? fun o => decide (o.passes ≤ o.passesDone) && !d.stopped o.slot o.task with
  | none => d
  | some o =>
    if mismatch then d.logicCheck 3 0 o.slot o.task
    else if o.reference && !d.refMay o then d
    else
      match o.y with
      | none =>
        let (n, d) := d.drawNat
        d.bumpWrap Off.wdeAdapterWait n
      | some y =>
        let r := d.reader 3 0 o.slot o.task
        Dev.act (d.tailWork r o y) 3 0 o.slot o.task o.space fun x d =>
          let d := ((d.edge Off.plnEdgeStatus x.counts).accClipped x.clips).countOp o
          let d := if o.reference then d.wideWork (d.refGrid o).1 (d.refGrid o).2 else d
          let d := { d with pln := { d.pln with tails := d.pln.tails.filter fun p =>
            !(decide (p.slot = o.slot) && decide (p.task = o.task)) } }
          (d.endTask o.slot o.task (o.flags ||| o.yFlags ||| x.counts.quality ||| accFlag x.clips)).applyHeld
            (o.entries.map (·.logical))

/-! ## The adapter term of a plane operation (R152) -/

/-- ADAPTER_TERM: y of the first operation that waits for it is computed on the wide engine, which takes it up at a free
output tile before anything else; HOLD stops it (R151, R152, R156, R159). -/
def Dev.adapterTerm (d : Dev) : Dev :=
  if d.bitAt Off.wdeCtrl 0 || (d.wde.tile0.isSome && d.wde.tile1.isSome) then d
  else
    let run := match d.pln.op with
      | some o => [o]
      | none => []
    match (d.pln.tails ++ run ++ d.pln.saved).find? fun o => o.y.isNone && !d.stopped o.slot o.task with
    | none => d
    | some o =>
      let b := o.body
      let r := d.reader 4 0 o.slot o.task
      Dev.act (Chk.thn (d.loadEpi r o.space b.epilogue b.rows b.cols b.transposed) fun ea d =>
          match ea.2 with
          | none => (.ok (([], 0, {}), 0, 0), d)
          | some a =>
            let nt := classCols (classBits a.format)
            let down := wideGrid nt 1 a.rank b.rows
            let up := wideGrid nt 1 b.cols a.rank
            Chk.thn (d.adapterY r o.space a b.rows b.cols
                ((inElems b.inFmt o.mxScales o.elems).map InElem.wide)) fun y d =>
              (.ok (y, down.1 + up.1, down.2 + up.2), d))
        4 0 o.slot o.task o.space fun y d =>
          (((d.edge Off.wdeEdgeStatus y.1.2.2).accClipped y.1.2.1).wideWork y.2.1 y.2.2).modOp o.slot o.task fun o =>
            { o with y := some y.1.1, yFlags := accFlag y.1.2.1 ||| y.1.2.2.quality }

/-! ## Saves and resumptions (R90, R91, R95) -/

/-- Tiles of a program task in rounds (R94). -/
def Dev.roundTiles (d : Dev) (slot task : Nat) : Nat :=
  (d.pln.rounds.map fun r => (r.owner.filter fun o => decide (o = (slot, task))).length).sum

/-- PLANE_SAVE: the running operation is saved when it is marked or stopped for a fault; one stopped for a fault keeps the
sequencer, until a tick pre-empts it too; a marked program task stops at the end of its rounds (R90, R95). -/
def Dev.planeSave (d : Dev) : Dev :=
  let held := d.pln.prog.find? fun p =>
    decide (p.slot < 16) && !p.held && d.marked p.slot p.task && decide (d.roundTiles p.slot p.task = 0)
  let saveProg := match held with
    | none => d
    | some p =>
      ({ d with pln := { d.pln with prog := d.pln.prog.map fun (q : ProgTask) =>
          if q.slot = p.slot ∧ q.task = p.task then { q with held := true } else q } }).unmark p.slot p.task .saved
  match d.pln.op with
  | none =>
    match d.pln.saved.find? fun o => d.faultSaved o && d.marked o.slot o.task with
    | some o => d.unmark o.slot o.task .saved
    | none => saveProg
  | some o =>
    if d.marked o.slot o.task || d.stopped o.slot o.task then
      let d' := { d with pln := { d.pln with op := none, saved := d.pln.saved ++ [o] } }
      if d.marked o.slot o.task then d'.unmark o.slot o.task .saved else d'
    else saveProg

/-- A saved operation's tiles have received a correction or a state change since it started (R91, R173). -/
def Dev.needsRestart (d : Dev) (o : PlaneOp) : Bool :=
  o.started && o.entries.any fun e =>
    match d.log e.logical with
    | some t => epochAfter o.epoch (d.reg Off.calEpoch) t.epoch
    | none => false

/-- An operation leaves the list of saved operations. -/
def Dev.takeSaved (d : Dev) (o : PlaneOp) : Dev :=
  { d with pln := { d.pln with saved := d.pln.saved.filter fun p =>
      !(decide (p.slot = o.slot) && decide (p.task = o.task)) } }

/-- An operation restarts from its first step unit (R91): the input is read again, and all is latched anew as that unit
starts. Its adapter term, with that term's flags, is kept (R152). -/
def Dev.restartOp (d : Dev) (o : PlaneOp) : Dev :=
  let r := d.reader 2 0 o.slot o.task
  Dev.act (d.readInput r o.space o.body) 2 0 o.slot o.task o.space fun x d =>
    let o' := { o with elems := x.1, mxScales := x.2, started := false, unit := 0, codes := [], fired := []
                       passes := 1, passesDone := 0, flags := 0 }
    let d := (d.bump Off.plnRestarts).setBit Off.plnStatus 8
    let d := d.takeSaved o
    ({ d with pln := { d.pln with op := some o' } }).setTask o.slot o.task .running

/-- A saved operation takes the sequencer again: it restarts when its tiles have changed (R91). -/
def Dev.resumeOp (d : Dev) (o : PlaneOp) : Dev :=
  if d.needsRestart o then d.restartOp o
  else
    let d := d.takeSaved o
    ({ d with pln := { d.pln with op := some o } }).setTask o.slot o.task .running

/-- A held program task resumes with its next round (R95). -/
def Dev.resumeProg (d : Dev) : Dev :=
  match d.firstTask ((d.pln.prog.filter fun p => p.held && d.canResume p.slot p.task).map fun p => (p.slot, p.task)) with
  | none => d
  | some (slot, task) =>
    if d.pln.prog.any fun p => decide (p.slot < 16) && !p.held then d
    else
      ({ d with pln := { d.pln with prog := d.pln.prog.map fun (q : ProgTask) =>
          if q.slot = slot ∧ q.task = task then { q with held := false } else q } }).setTask slot task .running

/-- PLANE_RESUME: an operation that a fault stopped continues at once when its fault is resolved; else a saved operation
resumes in its order; else a held program task does (R90, R91, R95, R289). -/
def Dev.planeResume (d : Dev) : Dev :=
  if d.pln.op.isSome || d.seqFault then d.resumeProg
  else
    match d.pln.saved.find? fun o => d.faultSaved o && !d.marked o.slot o.task && !d.stopped o.slot o.task with
    | some o => d.resumeOp o
    | none =>
      if d.seqHeld then d.resumeProg
      else
        match d.firstTask ((d.pln.saved.filter fun o => d.canResume o.slot o.task).map fun o => (o.slot, o.task)) with
        | none => d.resumeProg
        | some (slot, task) =>
          match d.pln.saved.find? fun o => decide (o.slot = slot) && decide (o.task = task) with
          | none => d
          | some o => d.resumeOp o

/-- PLANE_FORWARD (R82). -/
def execPlaneForward (s : State) : Host.Outcome State Fault Refusal := lift Dev.planeForward s
/-- PLANE_TRANSPOSED (R87). -/
def execPlaneTransposed (s : State) : Host.Outcome State Fault Refusal := lift Dev.planeTransposed s
/-- STEP_UNIT (R79). -/
def execStepUnit (transfer : Transfer) (s : State) : Host.Outcome State Fault Refusal := lift (·.stepUnit transfer) s
/-- CORRECTION_PASS (R119). -/
def execCorrectionPass (s : State) : Host.Outcome State Fault Refusal := lift Dev.correctionPass s
/-- OPERATION_TAIL_END (R119). -/
def execOperationTailEnd (mismatch : Bool) (s : State) : Host.Outcome State Fault Refusal :=
  lift (·.operationTailEnd mismatch) s
/-- ADAPTER_TERM (R152). -/
def execAdapterTerm (s : State) : Host.Outcome State Fault Refusal := lift Dev.adapterTerm s
/-- PLANE_SAVE (R90). -/
def execPlaneSave (s : State) : Host.Outcome State Fault Refusal := lift Dev.planeSave s
/-- PLANE_RESUME (R91). -/
def execPlaneResume (s : State) : Host.Outcome State Fault Refusal := lift Dev.planeResume s

end Sys2Proof.Machine
end

