-- ==== Sys2Proof/Machine/RegWrite.lean ====
section
/-! DEFINITION. A write to a register, field by field under each field's class (R10-R12, R59, R485), and the values that
fields refuse. -/

namespace Sys2Proof.Machine

/-! ## Values that a write may carry (the field maps; R485) -/

/-- A value lies in a range. -/
def inRange (v lo hi : Nat) : Bool := decide (lo ≤ v) && decide (v ≤ hi)

/-- A field takes a value; otherwise it alone keeps its own (R485). -/
def fieldTakes (off lo v : Nat) : Bool :=
  if off = Off.hubRatioCtrl ∧ lo = 0 then decide (v ≠ 0)
  else if off = Off.plnFiringCap ∧ lo = 0 then inRange v 1 1024
  else if off = Off.plnProgLimit then (if lo = 16 then inRange v 1 64 else inRange v 8 16)
  else if off = Off.curCtrl ∧ lo = 0 then inRange v 1 4
  else if off = Off.curActRatio then inRange v 0x3F800000 0x47800000
  else if off = Off.curMirrorSize then decide (v ≤ 256)
  else if off = Off.wdeTermStore then decide (v ≤ 64)
  else if off = Off.wdeCtrl ∧ lo = 8 then decide (v ≠ 0)
  else if off = Off.calCtrl ∧ lo = 11 then inRange v 1 16
  else if off = Off.attCtrl ∧ lo = 0 then inRange v 16 1024
  else if off = Off.srvPrefill then decide (v ≤ 1024)
  else if off = Off.srvCompose then inRange v 100 100000
  else if off = Off.srvPark ∧ lo = 0 then decide (v ≠ 0)
  else if off = Off.srvVocab then inRange v 2 262144
  else if off = Off.lnkTimeout then inRange v 500 100000
  else if off = Off.lnkDigestFrames then decide (v ≠ 0)
  else if off = Off.thmCtrl ∧ lo = 0 then decide (v ≠ 0)
  else if off = Off.pwrLimit ∧ lo = 0 then inRange v 300 950
  else if off = Off.pwrPeriod then inRange v 10 1000
  else true

/-- The register at `off` is entry `base + k × stride` of a row of registers. -/
def isRow (off base stride n : Nat) : Bool :=
  decide (base ≤ off) && decide ((off - base) % stride = 0) && decide ((off - base) / stride < n)

/-- A temperature limit register takes a value: neither level above its own reset value, WARNING from 40 °C, and WARNING
below THROTTLE (R459). -/
def thmTakes (off v : Nat) : Bool :=
  let r := (resetOf off).toNat
  decide (bits v 15 8 ≤ bits r 15 8) && decide (bits v 7 0 ≤ bits r 7 0) && decide (40 ≤ bits v 7 0) &&
    decide (bits v 7 0 < bits v 15 8)

/-- A register takes a value; otherwise the write is ignored as a whole (R485). -/
def regTakes (off v : Nat) : Bool :=
  if off = Off.curWeightClip then
    inRange (bits v 15 12) 1 15 && inRange (bits v 11 8) 1 12 && inRange (bits v 7 4) 1 8 && inRange (bits v 3 0) 1 4
  else if off = Off.curAuditCtrl then inRange (bits v 31 24) 0x30 0xA0 && inRange (bits v 12 0) 64 4096
  else if off = Off.calPeriod then
    (decide (bits v 31 16 ≤ 8760)) && (decide (bits v 15 0 = 0) || decide (10 ≤ bits v 15 0))
  else if off = Off.calTrigger then inRange (bits v 15 8) 1 20 && inRange (bits v 7 0) 10 24
  else if isRow off Off.crcCtrl 0x40 8 then inRange (bits v 6 0) 1 64
  else if off = Off.hkaOpenCtrl then
    inRange (bits v 31 20) 256 4095 && inRange (bits v 19 10) 10 1000 && inRange (bits v 7 0) 1 255
  else if off / 0x10000 = 15 ∧ isRow off 0xF0100 0x10 32 = true then
    decide (bits v 28 27 ≠ 3) && decide (bits v 26 24 ≤ 4) && decide (bits v 15 0 ≠ 0)
  else if off = Off.hkaTestDac then decide (bits v 20 16 < 24)
  else if isRow off 0x100010 4 3 then thmTakes off v
  else true

/-! ## Idle blocks (the chapters' register rules) -/

/-- The plane is idle (R105). DEDUCED (log entry 102): a tile program is in progress, here and for PROG_BUSY, from the start of
its program task, or from the order of the device's own program, to the end of its last round, though no round of it may run
meanwhile. -/
def Dev.plnIdle (d : Dev) : Bool :=
  d.pln.op.isNone && d.pln.saved.isEmpty && d.pln.tails.isEmpty && d.pln.prog.isEmpty && d.pln.rounds.isEmpty

/-- Currant is idle (R130). -/
def Dev.curIdle (d : Dev) : Bool := d.plnIdle && d.cur.queue.isEmpty && d.cur.firings.isEmpty

/-- The block of a register is idle for its fields of class S. -/
def Dev.blockIdle (d : Dev) (off : Nat) : Bool :=
  match off / 0x10000 with
  | 1 => d.plnIdle
  | 2 => d.curIdle
  | 3 => d.wde.tasks.isEmpty && d.plnIdle
  | 4 => d.cal.passes.isEmpty
  | 5 => d.att.tasks.isEmpty
  | 9 => d.bitAt (mbxCtrlOff ((off - Off.mbxCtrlAdmin) / 0x20)) 31
  | 10 => d.grf.slots.all fun g => decide (g.state = .empty) || decide (g.state = .loaded)
  | 11 => d.srv.requests.isEmpty
  | 12 => d.grf.colls.isEmpty && d.lnk.replay.isEmpty
  | 13 => decide (d.reg Off.evrCperTail = d.reg Off.evrCperHead)
  | 14 => ((d.crc.getD ((off - 0xE0100) / 0x40) {}).holder).isNone
  | _ => true

/-- The CLASS_VIOLATION flag of a register's block: its status register and bit (R10). -/
def violationBit (off : Nat) : Nat × Nat :=
  match off / 0x10000 with
  | 1 => (Off.plnStatus, 3)
  | 2 => (Off.curStatus, 2)
  | 3 => (Off.wdeStatus, 3)
  | 4 => (Off.calStatus, 4)
  | 5 => (Off.attStatus, 3)
  | 9 => (Off.mbxStatus, 2)
  | 10 => (Off.grfStatus, 2)
  | 11 => (Off.srvStatus, 2)
  | 12 => (Off.lnkStatus, 3)
  | 13 => (Off.evrStatus, 1)
  | _ => (Off.crcStatus + (off - 0xE0100) / 0x40 * 0x40, 2)

/-! ## The write -/

/-- The word that reads of class F fields return: the shadow word written last, or the word in force (R10). -/
def Dev.shadowWord (d : Dev) (off : Nat) : Nat :=
  (((look d.late off).or (look d.shadow off)).map (·.toNat)).getD (d.reg off)

/-- A field's value as a write finds it: the shadow value for class F (R10). -/
def Dev.fieldNow (d : Dev) (off : Nat) (f : Field) : Nat :=
  match f.cls with
  | .f => bits (d.shadowWord off) f.hi f.lo
  | _ => d.fld off f.hi f.lo

/-- The fabric time of the next tick that is due: at the end of the frame in progress, at the first fabric tick of a fabric
that has just formed, or at the resume timestamp of a service pause (R284, R376, R429). -/
def Dev.nextTickAt (d : Dev) : Nat :=
  let t := d.grf.tickTime + 1000 * d.fld Off.grfFrame 27 16
  if d.grf.paused then (if d.grf.resumeAt = 0 then d.now + 1 else d.grf.resumeAt)
  else
    match d.lnk.formAt with
    | some (f, _, _) => if f ≤ t then max f d.grf.tickTime else t
    | none => t

/-- What happens now falls in the hub cycle of the tick that is due, or after it (R10, R274; log entry 2). -/
def Dev.inTick (d : Dev) : Bool := decide (d.nextTickAt ≤ d.now)

/-- The number of the tick at which what is frame-latched now takes effect (R10). -/
def Dev.dueTick (d : Dev) : Nat := d.grf.tick + if d.inTick then 2 else 1

/-- A field's value after a write of `v`: a value it refuses leaves it as it is (R485). -/
def Dev.fieldNext (d : Dev) (off v : Nat) (f : Field) : Nat :=
  let x := bits v f.hi f.lo
  if fieldTakes off f.lo x then x else d.fieldNow off f

/-- A shadow value; one written in the hub cycle of a tick waits for the tick that follows it (R10). -/
def Dev.setShadow (d : Dev) (off hi lo v : Nat) : Dev :=
  let w := BitVec.ofNat 32 (withBits (d.shadowWord off) hi lo v)
  if d.inTick then { d with late := put d.late off w } else { d with shadow := put d.shadow off w }

/-- Counts that writing 1 to a status bit sets to 0, and what else it restarts (R32, R59, and the field maps). -/
def Dev.clearHook (d : Dev) (off b : Nat) : Dev :=
  let zero := fun (l : List Nat) => l.foldl (fun (d : Dev) o => d.setReg o 0) d
  if off = Off.plnEdgeStatus ∨ off = Off.wdeEdgeStatus then zero [off + 4 + 4 * b]
  else if off = Off.hubRatioStatus then
    (if b ≤ 7 then { d with hub := { d.hub with restartWorst := upd d.hub.restartWorst b fun _ => true } } else d)
  else if off = Off.plnStatus then
    match b with
    | 4 => zero [Off.plnSaturatedColumns]
    | 5 => zero [Off.plnBudgetRejects]
    | 8 => zero [Off.plnRestarts]
    | _ => d
  else if off = Off.curStatus then
    match b with
    | 3 => zero [Off.curActClipped, Off.curOverflowOps]
    | 4 => (zero [Off.curAuditFailures]).setFld Off.curAuditLast 31 31 0
    | 5 => (zero [Off.curAuditSkips]).setFld Off.curAuditQueue 25 16 d.cur.queue.length
    | 6 => zero [Off.curSatDigitalTiles]
    | _ => d
  else if off = Off.wdeStatus then
    match b with
    | 4 => zero [Off.wdeAccClipped]
    | 5 => d.setReg Off.wdeTermPeak ((d.pln.op.map fun o =>
        parkedAt o.body o.entries ((o.groups.take (o.unit / shotsOf o.body.dfmt)).map (·.length)).sum).getD 0)
    | _ => d
  else if off = Off.calStatus then
    match b with
    | 5 => zero [Off.calAttemptsFailed]
    | 6 => zero [Off.calSuspects]
    | 7 => zero [Off.calRefreshes]
    | _ => d
  else if off = Off.attStatus then
    match b with
    | 4 => zero [Off.attKvClipped]
    | 6 => zero [Off.attShareOverflows]
    | 7 => zero [Off.attEmptyRows]
    | _ => d
  else if off = Off.mmuStatus then
    match b with
    | 3 => zero [Off.mmuFaultTimeouts]
    | 4 => zero [Off.mmuBar2Faults]
    | _ => d
  else if off = Off.dmaStatus then
    match b with
    | 0 => zero [Off.dmaCheckMismatches]
    | _ => zero [Off.dmaHostErrors]
  else if off = Off.mbxStatus then (if b = 3 then zero [Off.mbxBootDiscards] else d)
  else if off = Off.grfStatus then
    match b with
    | 3 => zero [Off.grfOverruns]
    | 4 => zero [Off.grfFrameLimits]
    | _ => d
  else if off = Off.srvStatus then
    match b with
    | 1 => zero [Off.srvRunFailures]
    | 4 => zero [Off.srvRingStalls]
    | 6 => zero [Off.srvReissues]
    | 7 => zero [Off.srvUnknownHandoffs]
    | 8 => zero [Off.srvLateStarts]
    | _ => d
  else if off = Off.lnkStatus then
    match b with
    | 5 => zero ((List.range 6).map fun p => Off.lnkPortFailures + 0x40 * p)
    | 6 => zero [Off.lnkCollAborts]
    | 7 => zero [Off.lnkDigestMismatches]
    | _ => d
  else if off = Off.evrStatus then
    match b with
    | 2 => zero [Off.evrLost]
    | 3 => zero [Off.evrCperLost]
    | _ => d
  else if off = Off.pwrStatus then (if b = 3 then d.setFld Off.pwrModule 31 16 0 else d)
  else if off = Off.hkaStatus then
    match b with
    | 3 => zero [Off.hkaLimitEvents]
    | 4 => zero [Off.hkaOpenEvents]
    | _ => d
  else d

/-- The bits that a write of 1 clears. -/
def Dev.clearBits (d : Dev) (off v : Nat) (f : Field) : Dev :=
  (List.range (f.hi + 1 - f.lo)).foldl (fun d i =>
    if v.testBit (f.lo + i) then (d.setFld off (f.lo + i) (f.lo + i) 0).clearHook off (f.lo + i) else d) d

/-- A write changes a field of class S. -/
def Dev.changesS (d : Dev) (off v : Nat) : Bool :=
  (fieldsOf off).any fun f => decide (f.cls = .s) && decide (d.fieldNext off v f ≠ d.fieldNow off f)

/-- A write carried out field by field (R10, R11). -/
def Dev.writeFields (d : Dev) (off v : Nat) : Dev :=
  (fieldsOf off).foldl (fun d' f =>
    match f.cls with
    | .s => d'.setFld off f.hi f.lo (d.fieldNext off v f)
    | .l => d'.setFld off f.hi f.lo (d.fieldNext off v f)
    | .f => d'.setShadow off f.hi f.lo (d.fieldNext off v f)
    | .w1c => d'.clearBits off v f
    | .ro => d') d

/-- A host write to a register: ignored as a whole, refused as a class violation, or carried out (R10, R11, R485). -/
def Dev.regWrite (d : Dev) (off v : Nat) : Dev :=
  if !regTakes off v then d
  else if d.changesS off v && !d.blockIdle off then
    d.flagEvent (violationBit off).1 (violationBit off).2 { arg0 := if off / 0x10000 = 14 then (off - 0xE0100) / 0x40 else 0 }
  else d.writeFields off v

/-- Shadow values take effect at a frame tick; those written in its own hub cycle wait for the next one (R10). -/
def Dev.applyShadows (d : Dev) : Dev :=
  let d' := d.shadow.foldl (fun (x : Dev) s =>
    (fieldsOf s.1).foldl (fun (x : Dev) f =>
      match f.cls with
      | .f => x.setFld s.1 f.hi f.lo (bits s.2.toNat f.hi f.lo)
      | _ => x) x) d
  { d' with shadow := d.late, late := [] }

/-- What a read of the register at `off` returns of the fields that stand in the register file: shadow values for fields
of class F (R10). -/
def Dev.fileRead (d : Dev) (off : Nat) : Nat :=
  (fieldsOf off).foldl (fun a f => a + d.fieldNow off f * 2 ^ f.lo) 0

end Sys2Proof.Machine
end

