-- ==== Sys2Proof/Machine/Arb.lean ====
section
/-! DEFINITION. The arbiters: requests, grants, burst limits, counters and their registers (R234-R239, R242). -/

namespace Sys2Proof.Machine

/-- Instances of a resource class (R234). -/
def arbInstances : Nat → Nat
  | 0 => 128 | 1 => 32 | 2 => 6 | 3 => 1 | _ => 0

/-- Requesters of a resource class (R236). -/
def arbRequesters : Nat → Nat
  | 0 => 25 | 1 => 22 | 2 => 19 | 3 => 5 | _ => 0

/-- A class, an instance and a requester of R234 and R236. -/
def arbNames (cls inst req : Nat) : Bool := decide (inst < arbInstances cls) && decide (req < arbRequesters cls)

/-- A setting put into a list. -/
def putConfig (l : List (Nat × Nat × Nat × Nat)) (cls req rank limit : Nat) : List (Nat × Nat × Nat × Nat) :=
  (l.filter fun c => !(decide (c.1 = cls) && decide (c.2.1 = req))) ++ [(cls, req, rank, limit)]

/-- An arbiter. -/
def Dev.arbInst (d : Dev) (cls inst : Nat) : ArbInst :=
  (d.arb.insts.find? fun a => decide (a.cls = cls) && decide (a.inst = inst)).getD { cls := cls, inst := inst }

/-- An arbiter put in place. -/
def Dev.setInst (d : Dev) (a : ArbInst) : Dev :=
  { d with arb := { d.arb with insts :=
      (d.arb.insts.filter fun b => !(decide (b.cls = a.cls) && decide (b.inst = a.inst))) ++ [a] } }

/-- The rank of a requester: the weight-fetch port stands at the rank of its present owner (R236). -/
def Dev.arbRank (d : Dev) (cls req : Nat) : Nat :=
  if cls = 0 ∧ req = 1 then
    match (d.arbInst 3 0).owner with
    | some o => (d.arbConfig 3 o).1
    | none => 0
  else (d.arbConfig cls req).1

/-- Counters of a requester at an instance (R239). -/
def Dev.arbCount (d : Dev) (cls inst req : Nat) : ArbCount :=
  (d.arb.counts.find? fun c => decide (c.cls = cls) && decide (c.inst = inst) && decide (c.req = req)).getD
    { cls := cls, inst := inst, req := req }

/-- Counters of a requester at an instance dropped. -/
def Dev.dropCount (d : Dev) (cls inst req : Nat) : Dev :=
  { d with arb := { d.arb with counts := d.arb.counts.filter fun c =>
      !(decide (c.cls = cls) && decide (c.inst = inst) && decide (c.req = req)) } }

/-- A grant after a wait is counted (R239). -/
def Dev.countGrant (d : Dev) (cls inst req wait : Nat) : Dev :=
  let c := d.arbCount cls inst req
  let c := { c with grants := min (c.grants + 1) (2 ^ 48 - 1), waits := min (c.waits + wait) (2 ^ 48 - 1)
                    longest := min (max c.longest wait) 0xFFFFFFFF }
  let d := d.dropCount cls inst req
  let d := { d with arb := { d.arb with counts := d.arb.counts ++ [c] } }
  if d.reg Off.arbWorst < min wait 0xFFFFFFFF then
    (d.setReg Off.arbWorst (min wait 0xFFFFFFFF)).setReg Off.arbWorstWho (cls * 2 ^ 24 + inst * 2 ^ 16 + req)
  else d

/-- The requester that an arbiter grants: the highest rank present, round-robin within it (R235). -/
def Dev.arbWinner (d : Dev) (a : ArbInst) : Option ArbReq :=
  let top := a.waiting.foldl (fun m w => max m (d.arbRank a.cls w.id)) 0
  let n := arbRequesters a.cls
  let last := (look a.last top).getD (n - 1)
  (a.waiting.filter fun w => decide (d.arbRank a.cls w.id = top)).foldl (fun (b : Option ArbReq) w =>
    match b with
    | none => some w
    | some v => if afterLast n last w.id < afterLast n last v.id then some w else some v) none

/-- An arbiter with the requesters that arrive waiting at it; the owner and those that wait already ask no second time
(R235). -/
def Dev.arbJoin (d : Dev) (cls inst : Nat) (arrivals : List (Nat × Bool)) : ArbInst :=
  let a := d.arbInst cls inst
  let new := ((arrivals.map (·.1)).filter fun q => decide (q < arbRequesters cls) && decide (a.owner ≠ some q) &&
    a.waiting.all fun w => decide (w.id ≠ q)).dedup
  { a with waiting := a.waiting ++ new.map fun q => { id := q, write := arrivals.contains (q, true), since := d.now } }

/-- An arbiter with a waiting requester granted (R235). -/
def Dev.arbGranted (d : Dev) (a : ArbInst) (w : ArbReq) : ArbInst :=
  { a with owner := some w.id, ownerWrites := w.write, grantedAt := d.now, waiting := a.waiting.filter fun v => decide (v.id ≠ w.id)
           last := put a.last (d.arbRank a.cls w.id) w.id }

/-- ARBITER_GRANT: new requesters join, each with whether its burst writes, and a free resource is granted at the hub-cycle
edge (R234, R235, R239). -/
def Dev.arbiterGrant (d : Dev) (cls inst : Nat) (arrivals : List (Nat × Bool)) : Dev :=
  if arbInstances cls ≤ inst then d
  else
    let a := d.arbJoin cls inst arrivals
    match a.owner, d.arbWinner a with
    | none, some w => (d.setInst (d.arbGranted a w)).countGrant cls inst w.id (d.now - w.since)
    | _, _ => d.setInst a

/-- Hub cycles that a burst of `n` beats holds a resource: a near-store bank takes longer for writes, and a link transmitter
on four lanes (R234). -/
def burstCycles (cls n : Nat) (write : Bool) (lanes : Nat) : Nat :=
  match cls with
  | 0 => (n + 1) / 2
  | 1 => if write then 32 * n else 4 * n
  | 2 => if lanes = 4 then (n + 1) / 2 else (n + 3) / 4
  | _ => n

/-- The direction of a burst at a near-store bank: reads of attention, outlier tables and adapters, writes of tile programs
and of trim-bank copies, and either of the others (R236). -/
def burstWrites (req : Nat) (write : Bool) : Bool :=
  if req ≤ 1 ∨ req = 3 then false else if req = 4 ∨ req = 21 then true else write

/-- BURST_LIMIT_EXPIRY: the owner's burst limit, of reads or writes, expires while it still requests; it joins the waiting
requesters (R234, R235). -/
def Dev.burstLimitExpiry (d : Dev) (cls inst : Nat) : Dev :=
  let a := d.arbInst cls inst
  match a.owner with
  | none => d
  | some q =>
    let lanes := (d.lnk.ports.getD inst {}).lanes
    let held := burstCycles cls (d.arbConfig cls q).2 (burstWrites q a.ownerWrites) lanes
    let d := { d with now := max d.now (a.grantedAt + held) }
    d.setInst { a with owner := none, waiting := a.waiting ++ [{ id := q, write := a.ownerWrites, since := d.now }] }

/-- REQUEST_DROP: a requester drops its request (R235). -/
def Dev.requestDrop (d : Dev) (cls inst req : Nat) : Dev :=
  if !arbNames cls inst req then d
  else
    let a := d.arbInst cls inst
    d.setInst { a with owner := if a.owner = some req then none else a.owner
                       waiting := a.waiting.filter fun w => decide (w.id ≠ req) }

/-- The selection of ARB_SELECT: class, instance, requester (R242). -/
def Dev.arbSelected (d : Dev) : Nat × Nat × Nat :=
  (d.fld Off.arbSelect 25 24, d.fld Off.arbSelect 22 16, d.fld Off.arbSelect 4 0)

/-- ARB_SELECT: the selected counters go into the snapshot registers; zeros where nothing is named (R242). -/
def Dev.arbSelect (d : Dev) (v : Nat) : Dev :=
  let d := d.writeFields Off.arbSelect v
  let (cls, inst, req) := d.arbSelected
  let c := if arbNames cls inst req then d.arbCount cls inst req else {}
  ((d.setReg64 Off.arbGrantsLo c.grants).setReg64 Off.arbWaitLo c.waits).setReg Off.arbLongest c.longest

/-- ARB_CLEAR_ALL (R242). -/
def Dev.arbClearAll (d : Dev) : Dev :=
  (({ d with arb := { d.arb with counts := [] } }).setReg Off.arbWorst 0).setReg Off.arbWorstWho 0

/-- ARB_CLEAR_SELECTED (R242). -/
def Dev.arbClearSelected (d : Dev) : Dev :=
  let (cls, inst, req) := d.arbSelected
  d.dropCount cls inst req

/-- Rank and burst limit as written last (R10). -/
def Dev.arbShadow (d : Dev) (cls req : Nat) : Nat × Nat :=
  ((findConfig d.arb.configLate cls req).or (findConfig d.arb.configDue cls req)).getD (d.arbConfig cls req)

/-- A write to ARB_REQ_CONFIG: rank and limit of the selected requester, from the next tick on. RANK is ignored for the
weight-fetch port at HBM channels, and keeps its value (R242, R485). -/
def Dev.arbConfigWrite (d : Dev) (v : Nat) : Dev :=
  let (cls, inst, req) := d.arbSelected
  if !arbNames cls inst req || !inRange (bits v 12 0) 1 4096 then d
  else
    let rank := if cls = 0 ∧ req = 1 then (d.arbShadow cls req).1 else bits v 30 28
    let put := fun l => putConfig l cls req rank (bits v 12 0)
    if d.inTick then { d with arb := { d.arb with configLate := put d.arb.configLate } }
    else { d with arb := { d.arb with configDue := put d.arb.configDue } }

/-- A read of ARB_REQ_CONFIG: the shadow value (R10, R242). -/
def Dev.arbConfigRead (d : Dev) : Nat :=
  let (cls, inst, req) := d.arbSelected
  if arbNames cls inst req then
    let c := d.arbShadow cls req
    c.1 * 2 ^ 28 + c.2
  else 0

/-- Settings written since the last tick take effect (R10). -/
def Dev.applyArb (d : Dev) : Dev :=
  { d with arb := { d.arb with
      config := d.arb.configDue.foldl (fun l c => putConfig l c.1 c.2.1 c.2.2.1 c.2.2.2) d.arb.config
      configDue := d.arb.configLate
      configLate := [] } }

/-- ARBITER_GRANT (R235). -/
def execArbiterGrant (cls inst : Nat) (arrivals : List (Nat × Bool)) (s : State) : Host.Outcome State Fault Refusal :=
  lift (·.arbiterGrant cls inst arrivals) s
/-- BURST_LIMIT_EXPIRY (R235). -/
def execBurstLimitExpiry (cls inst : Nat) (s : State) : Host.Outcome State Fault Refusal :=
  lift (·.burstLimitExpiry cls inst) s
/-- REQUEST_DROP (R235). -/
def execRequestDrop (cls inst req : Nat) (s : State) : Host.Outcome State Fault Refusal :=
  lift (·.requestDrop cls inst req) s
/-- ARB_SELECT (R242). -/
def execArbSelect (v : Word) (s : State) : Host.Outcome State Fault Refusal := hostWrite (·.arbSelect v.toNat) s
/-- ARB_CLEAR_ALL (R242). -/
def execArbClearAll (s : State) : Host.Outcome State Fault Refusal := hostWrite Dev.arbClearAll s
/-- ARB_CLEAR_SELECTED (R242). -/
def execArbClearSelected (s : State) : Host.Outcome State Fault Refusal := hostWrite Dev.arbClearSelected s

end Sys2Proof.Machine
end

