-- ==== Sys2Proof/Machine/Pages.lean ====
section
/-! DEFINITION. What Damson does with memory: allocation, page tables (R211-R215, R487), and the frames and pages of the
key-value cache (R197-R201, R303, R304). -/

namespace Sys2Proof.Machine

/-! ## Allocation (R211; the lowest free place is taken, log entry 40) -/

/-- A memory: base and bytes (R208). -/
def memRange : MemKind → Nat × Nat
  | .hbm => (0, 0x6000000000)
  | .near0 => (0x8000000000, 0xF0000000)
  | .near1 => (0x80F0000000, 0xF0000000)
  | .staging => (0xC000000000, 0x20000000)

/-- What is allocated: the device's own regions, and the extents that Damson has given out (R211). -/
def Dev.extents (d : Dev) : List (Nat × Nat) := deviceExtents ++ d.mmu.alloc

/-- A range touches nothing that is allocated. -/
def Dev.isFree (d : Dev) (a n : Nat) : Bool :=
  d.extents.all fun e => decide (e.1 + e.2 ≤ a) || decide (a + n ≤ e.1)

/-- The smallest of a list. -/
def leastOf (l : List Nat) : Option Nat :=
  l.foldl (fun m a => match m with
    | none => some a
    | some b => some (min a b)) none

/-- The lowest free place for `n` bytes at an alignment in a memory. -/
def Dev.findFree (d : Dev) (k : MemKind) (n al : Nat) : Option Nat :=
  let r := memRange k
  leastOf ((alignUp r.1 al :: d.extents.map fun e => alignUp (e.1 + e.2) al).filter fun a =>
    decide (r.1 ≤ a) && decide (a + n ≤ r.1 + r.2) && d.isFree a n)

/-- An extent allocated. -/
def Dev.allocMem (d : Dev) (k : MemKind) (n al : Nat) : Option (Nat × Dev) :=
  (d.findFree k n al).map fun a => (a, { d with mmu := { d.mmu with alloc := put d.mmu.alloc a n } })

/-- An extent in the near store: half 0 first; a half requested off holds nothing (R463). -/
def Dev.allocNear (d : Dev) (n al : Nat) : Option (Nat × Dev) :=
  let half := fun (k : MemKind) (dom : Nat) => if bit d.pwr.off dom then none else d.allocMem k n al
  match half .near0 42 with
  | some x => some x
  | none => half .near1 43

/-- An extent given back. -/
def Dev.freeMem (d : Dev) (a : Nat) : Dev := { d with mmu := { d.mmu with alloc := del d.mmu.alloc a } }

/-! ## Page tables (R213-R215, R487) -/

/-- The Damson range of space 0 (R212): base and bytes. -/
def damsonRange : Nat × Nat := (0xFF00000000000, 0x100000000000)

/-- The device address that reads a byte of device memory by its physical address, in Damson's range (R212, R329). -/
def damsonVa (pa : Nat) : Nat := damsonRange.1 + pa

/-- Cached translations dropped. -/
def Dev.dropTlb (d : Dev) (p : Tlb → Bool) : Dev :=
  { d with mmu := { d.mmu with tlb := d.mmu.tlb.filter fun t => !p t } }

/-- Cached translations of a range of an address space dropped (R218). -/
def Dev.dropRange (d : Dev) (space va n : Nat) : Dev :=
  d.dropTlb fun t => decide (t.space = space) && decide (t.va < va + n) && decide (va < t.va + t.bytes)

/-- A leaf entry (R215). -/
def leafBits (target addr : Nat) (write kv : Bool) : Nat :=
  3 + (if write then 8 else 0) + (if kv then 32 else 0) + target * 2 ^ 60 + addr % 2 ^ 52 / 4096 * 4096

/-- A table entry (R215). -/
def tableBits (addr : Nat) (g64 : Bool) : Nat := 1 + (if g64 then 16 else 0) + addr

/-- An entry written by Damson. -/
def Dev.putEntry (d : Dev) (a e : Nat) : Dev := d.writePa a (le e 8)

/-- An entry as Damson finds it. -/
def Dev.getEntry (d : Dev) (a : Nat) : Nat := ofLe (memLoad d.mem a 8)

/-- A new table of invalid entries in HBM. -/
def Dev.newTable (d : Dev) (n : Nat) : Option (Nat × Dev) :=
  (d.allocMem .hbm n n).map fun x => (x.1, x.2.zeroPa x.1 n)

/-- The level-0 table that Damson keeps for an address space (R213, R219). -/
def Dev.rootTable (d : Dev) (space : Nat) : Option Nat := look d.mmu.tables space

/-- MMU_ROOT_HI and MMU_ROOT_LO of a root: its table address plus 1, or 0 (R240). -/
def rootWords (x : Nat) : Nat := if x = 0 then 0 else bits (x - 1) 31 16 * 2 ^ 16 + 1 + bits (x - 1) 51 32 * 2 ^ 32

/-- The root written last for an address space and not yet in force (R10, R219). -/
def Dev.rootShadow (d : Dev) (space : Nat) : Option Nat :=
  (d.mmu.rootDue.reverse.find? fun x => decide (x.2.1 = space)).map (·.2.2)

/-- An address space gets its level-0 table, kept where it has one already; none without memory. -/
def Dev.makeRoot (d : Dev) (space : Nat) : Option (Nat × Dev) :=
  match d.rootTable space with
  | some t => some (t, d)
  | none => (d.newTable 65536).map fun x =>
      (x.1, { x.2 with mmu := { x.2.mmu with tables := put x.2.mmu.tables space x.1 } })

/-- The table of a level on the way to an address, built where it is missing; none without memory. -/
def Dev.descend (d : Dev) (va target : Nat) (want64 : Bool) : Nat → Nat → Nat → Bool → Option (Nat × Bool × Dev)
  | 0, table, _, g => some (table, g, d)
  | fuel + 1, table, level, g =>
    if level = target then some (table, g, d)
    else
      let a := table + 8 * tableIndex level g va
      let e := d.getEntry a
      if e.testBit 0 && decide (bits e 2 1 = 0) then
        d.descend va target want64 fuel (bits e 51 12 * 4096) (level + 1) (decide (level = 2) && e.testBit 4)
      else
        match d.newTable 4096 with
        | none => none
        | some (t, d) =>
          let g' := decide (level = 2) && want64
          (d.putEntry a (tableBits t g')).descend va target want64 fuel t (level + 1) g'

/-- A 64 KiB-granule table is rebuilt with the 4 KiB granule, and its region invalidated (R487). -/
def Dev.splitRegion (d : Dev) (space root va table : Nat) : Option (Nat × Dev) :=
  match d.newTable 4096 with
  | none => none
  | some (t, d) =>
    let d := (List.range 32).foldl (fun d i =>
      let e := d.getEntry (table + 8 * i)
      if e.testBit 0 then
        (List.range 16).foldl (fun (d : Dev) j => d.putEntry (t + 8 * (16 * i + j)) (e + 4096 * j)) d
      else d) d
    match d.descend va 2 false 4 root 0 false with
    | none => none
    | some (l2, _, d) =>
      some (t, ((d.putEntry (l2 + 8 * tableIndex 2 false va) (tableBits t false)).freeMem table).dropRange space
        (va / 2 ^ 21 * 2 ^ 21) (2 ^ 21))

/-- The leaf of a page is written; `leaf` gives the entry for an offset into the page. A 64 KiB page in a region of the
4 KiB granule is 16 leaves (R487). None where a table finds no memory. -/
def Dev.setLeaf (d : Dev) (space va page : Nat) (leaf : Nat → Nat) : Option Dev :=
  match d.rootTable space with
  | none => none
  | some root =>
    let target := if page = 2 ^ 30 then 1 else if page = 2 ^ 21 then 2 else 3
    match d.descend va target (decide (page = 65536)) 4 root 0 false with
    | none => none
    | some (t, g, d) =>
      if target < 3 ∨ (g = true ∧ page = 65536) then
        some (d.putEntry (t + 8 * tableIndex target (g && decide (target = 3)) va) (leaf 0))
      else if g then
        (d.splitRegion space root va t).map fun x => x.2.putEntry (x.1 + 8 * tableIndex 3 false va) (leaf 0)
      else if page = 65536 then
        some ((List.range 16).foldl (fun (d : Dev) j =>
          d.putEntry (t + 8 * (tableIndex 3 false va + j)) (leaf (4096 * j))) d)
      else some (d.putEntry (t + 8 * tableIndex 3 false va) (leaf 0))

/-- A page mapped. -/
def Dev.mapPage (d : Dev) (space va page target addr : Nat) (write kv : Bool) : Option Dev :=
  d.setLeaf space va page fun off => leafBits target (addr + off) write kv

/-- A page unmapped. -/
def Dev.unmapPage (d : Dev) (space va page : Nat) : Dev := (d.setLeaf space va page fun _ => 0).getD d

/-! ## KV frames (R199-R201): a frame is a 64 KiB-aligned block of device memory; one with no record is FREE, and so is
part of no extent (log entry 41) -/

/-- The record of a frame. -/
def Dev.frameRec (d : Dev) (pa : Nat) : Option KvFrame := d.att.frames.find? fun f => decide (f.pa = pa)

/-- A frame record changed. -/
def Dev.modFrame (d : Dev) (pa : Nat) (f : KvFrame → KvFrame) : Dev :=
  { d with att := { d.att with frames := d.att.frames.map fun k => if k.pa = pa then f k else k } }

/-- A FREE frame taken: PRIVATE, count 1 (R199). -/
def Dev.takeFrame (d : Dev) (near : Bool) : Option (Nat × Dev) :=
  (if near then d.allocNear 65536 65536 else d.allocMem .hbm 65536 65536).map fun x =>
    (x.1, { x.2 with att := { x.2.att with frames := x.2.att.frames ++ [{ pa := x.1, state := .priv, count := 1 }] } })

/-- One reference to a frame dropped; QUARANTINE when none is left (R199, R200). -/
def Dev.releaseFrame (d : Dev) (pa : Nat) : Dev :=
  d.modFrame pa fun k =>
    if k.count ≤ 1 then { k with state := .quarantine, count := 0, since := d.grf.tick }
    else { k with count := k.count - 1 }

/-- A quarantined frame becomes FREE (R199). -/
def Dev.freeFrame (d : Dev) (pa : Nat) : Dev :=
  ({ d with att := { d.att with frames := d.att.frames.filter fun k => decide (k.pa ≠ pa) } }).freeMem pa

/-- The KV page mapped at a virtual address. -/
def Dev.kvMapAt (d : Dev) (space va : Nat) : Option KvMap :=
  d.att.maps.find? fun m => decide (m.space = space) && decide (m.va = va)

/-- A frame mapped as a KV page; the change reaches cached translations at the next tick (R200). -/
def Dev.kvMap (d : Dev) (space va pa : Nat) (write : Bool) : Option Dev :=
  (d.mapPage space va 65536 0 pa write true).map fun d =>
    { d with att := { d.att with
        maps := (d.att.maps.filter fun m => !(decide (m.space = space) && decide (m.va = va))) ++ [⟨space, va, pa⟩]
        kvChanged := d.att.kvChanged ++ [(space, va)] } }

/-- A KV page unmapped and its frame released (R199). -/
def Dev.kvUnmap (d : Dev) (m : KvMap) : Dev :=
  let d := (d.unmapPage m.space m.va 65536).releaseFrame m.pa
  { d with att := { d.att with
      maps := d.att.maps.filter fun x => !(decide (x.space = m.space) && decide (x.va = m.va))
      kvChanged := d.att.kvChanged ++ [(m.space, m.va)] } }

/-- A frame's contents copied; false where a word of it is uncorrectable. -/
def Dev.copyFrame (d : Dev) (src dst : Nat) : Bool × Dev :=
  match d.readPa {} src 65536 with
  | (some l, d) => (true, d.writePa dst l)
  | (none, d) => (false, d)

/-- FREE frames of HBM: the 64 KiB blocks that nothing is allocated in (log entry 41). -/
def Dev.freeFrames (d : Dev) : Nat :=
  let r := d.mmu.alloc.foldl (fun (x : Nat × Nat) e =>
    let lo := max x.2 (e.1 / 65536)
    let hi := (e.1 + e.2 + 65535) / 65536
    if e.1 + e.2 ≤ 0x6000000000 ∧ lo < hi then (x.1 + (hi - lo), hi) else x) (0, 0)
  0x600000 - r.1

/-- Frames in a state. -/
def Dev.framesIn (d : Dev) (s : FrameState) : Nat := (d.att.frames.filter fun k => decide (k.state = s)).length

/-! ## Sequence ranges (R197) -/

/-- The range of a sequence slot. -/
def Dev.seqBase (d : Dev) (s : Nat) : Nat := d.fld Off.attKvWindow 1 0 * 2 ^ 50 + s * 2 ^ 38

/-- The sequence slot whose range holds an address. -/
def Dev.seqOf (d : Dev) (va : Nat) : Option Nat :=
  if va / 2 ^ 50 = d.fld Off.attKvWindow 1 0 then some (va % 2 ^ 50 / 2 ^ 38) else none

/-- The tracked request of a sequence slot. -/
def Dev.requestOfSeq (d : Dev) (s : Nat) : Option Request := d.srv.requests.find? fun r => decide (r.seqSlot = s)

/-- Damson maps KV pages of a sequence slot in an address space: not in space 0 where they would lie in its own range
(R212). -/
def Dev.kvOpen (d : Dev) (space s : Nat) : Bool :=
  !(decide (space = 0) && decide (damsonRange.1 ≤ d.seqBase s) && decide (d.seqBase s < damsonRange.1 + damsonRange.2))

/-- Where an attention task of a serving graph keeps its layer: address space, layer slot, stride in pages and entries per
page. -/
structure KvLayout where
  space : Nat
  layer : Nat
  stride : Nat
  perPage : Nat
  deriving DecidableEq, Repr

/-- The layouts of the attention tasks of the valid templates' step graphs (R197, R305; Damson learns the layer slots from
them, log entry 42). -/
def Dev.kvLayouts (d : Dev) : List KvLayout :=
  (d.srv.templates.flatMap fun t =>
    let g := d.slot t.stepSlot
    (List.range g.tasks.length).filterMap fun i =>
      if (d.taskHdr t.stepSlot i).type = 3 then
        match (d.readVa {} g.space (d.bodyVa t.stepSlot i) 128).1 with
        | .ok l =>
          let w := leAt l 6 2 * leAt l 2 1
          if w = 0 then none else some ⟨g.space, leAt l 0xC 2, leAt l 0x44 4, 32768 / w⟩
        | _ => none
      else none).dedup

/-- The virtual address of a layer's page `p`. -/
def Dev.kvPageVa (d : Dev) (s : Nat) (k : KvLayout) (p : Nat) : Nat :=
  d.seqBase s + (k.layer * k.stride + p) * 65536

/-- The pages of every slot up to a number are mapped in every layer, as far as FREE frames reach (R201). -/
def Dev.mapAhead (d : Dev) (s upTo : Nat) : Dev :=
  (d.kvLayouts.filter fun k => d.kvOpen k.space s).foldl (fun d k =>
    (List.range (min k.stride (upTo / max k.perPage 1 + 1))).foldl (fun d p =>
      let va := d.kvPageVa s k p
      if (d.kvMapAt k.space va).isSome then d
      else
        match d.takeFrame false with
        | none => d
        | some (pa, d') => (d'.kvMap k.space va pa true).getD d) d) d

/-- The lowest position that a KV page holds. -/
def Dev.pagePosition (d : Dev) (space va : Nat) : Nat :=
  let i := va % 2 ^ 38 / 65536
  match d.kvLayouts.find? fun k =>
      decide (k.space = space) && decide (k.layer * k.stride ≤ i) && decide (i < (k.layer + 1) * k.stride) with
  | some k => (i - k.layer * k.stride) * k.perPage
  | none => 0

/-- A KV page holds an uncorrectable word: the sequence's request is rolled back to the lowest position that the page
holds, and a new frame is mapped for the page (R402). -/
def Dev.kvLost (d : Dev) (space va q : Nat) : Dev :=
  let d := match (d.seqOf va).bind d.requestOfSeq with
    | none => d
    | some r => d.rollbackRequest r.id q (max q (r.known.foldl (fun a (x : Nat × Nat) => max a x.1) q))
  match d.kvMapAt space va with
  | none => d
  | some m =>
    match d.takeFrame (memKind m.pa != some MemKind.hbm) with
    | none => d.kvUnmap m
    | some (pa, d') =>
      match d'.kvMap space va pa true with
      | none => d.kvUnmap m
      | some d => d.releaseFrame m.pa

/-- A page moved to a new frame with its contents: copy on write (R199, R201), or a migration (R304). None where no frame
is FREE. -/
def Dev.kvMove (d : Dev) (m : KvMap) (near : Bool) : Option Dev :=
  match d.takeFrame near with
  | none => none
  | some (pa, d') =>
    let c := d'.copyFrame m.pa pa
    match c.2.kvMap m.space m.va pa true with
    | none => none
    | some d =>
      let d := d.releaseFrame m.pa
      some (if c.1 then d else d.kvLost m.space m.va (d.pagePosition m.space m.va))

/-- Copy on write of a shared page (R199). -/
def Dev.kvCopyOnWrite (d : Dev) (m : KvMap) : Option Dev :=
  (d.kvMove m false).map fun d => d.bumpWrap Off.attCowCopies

/-- A sequence attaches a page of a prefix: shared and read-only in both, or a private copy at a count of 65,535
(R199). -/
def Dev.kvAttach (d : Dev) (m : KvMap) (va : Nat) : Dev :=
  match d.frameRec m.pa with
  | none => d
  | some f =>
    if f.count = 65535 then
      let d := (d.bump Off.attShareOverflows).setBit Off.attStatus 6
      match d.takeFrame false with
      | none => d
      | some (pa, d') => ((d'.copyFrame m.pa pa).2.kvMap m.space va pa true).getD d
    else
      match (d.kvMap m.space m.va m.pa false).bind fun d => d.kvMap m.space va m.pa false with
      | none => d
      | some d => d.modFrame m.pa fun k => { k with state := .shared, count := k.count + 1 }

/-- A new sequence attaches the pages of a prefix of `n` positions in every layer slot: the full pages as shared pages,
and the page of its next append as a private copy (R199, R201, R303). -/
def Dev.kvAttachPrefix (d : Dev) (holder s n : Nat) : Dev :=
  (d.kvLayouts.filter fun k => d.kvOpen k.space s).foldl (fun d k =>
    (List.range (min k.stride (n / max k.perPage 1 + 1))).foldl (fun d p =>
      match d.kvMapAt k.space (d.kvPageVa holder k p) with
      | none => d
      | some m =>
        let va := d.kvPageVa s k p
        if (p + 1) * k.perPage ≤ n then d.kvAttach m va
        else if p * k.perPage < n then
          match d.takeFrame false with
          | none => d
          | some (pa, d') =>
            (((d'.copyFrame m.pa pa).2.kvMap k.space va pa true).map fun d => d.bumpWrap Off.attCowCopies 1).getD d
        else d) d) d

/-- Every KV page of a sequence slot is freed (R199, R337). -/
def Dev.kvFree (d : Dev) (s : Nat) : Dev :=
  (d.att.maps.filter fun m => decide (d.seqOf m.va = some s)).foldl (fun d m => d.kvUnmap m) d

/-- A task that names a sequence is running or saved (R200). -/
def Dev.seqBusy (d : Dev) (s : Nat) : Bool := d.att.tasks.any fun t => t.rows.any fun r => decide (r.seqSlot = s)

/-- PRIVATE pages of a sequence moved between HBM and the near store, at most `n` of them; the number moved (R304). -/
def Dev.kvMigrate (d : Dev) (s n : Nat) (near : Bool) : Nat × Dev :=
  let ms := d.att.maps.filter fun m =>
    decide (d.seqOf m.va = some s) && ((memKind m.pa == some MemKind.hbm) == near) &&
      ((d.frameRec m.pa).map (·.state) == some FrameState.priv)
  ms.foldl (fun (x : Nat × Dev) m =>
    if n ≤ x.1 then x
    else match x.2.kvMove m near with
      | none => x
      | some d => (x.1 + 1, d)) (0, d)

end Sys2Proof.Machine
end

