-- ==== Sys2Proof/Machine/Wide.lean ====
section
/-! DEFINITION. The wide engine: products, reductions, chunk passes, drains, adapter terms, saves and resumptions
(R133-R158). -/

namespace Sys2Proof.Machine

/-- The format an operand has after the first widening (R38). -/
def widen1 (f : NumFmt) : NumFmt :=
  match f with
  | .ter2 => .int8 | .int3 => .int8 | .int4 => .int8 | .fp4 => .e4m3 | g => g

/-- An integer operand beside one that is not: BF16 up to INT8, FP32 for INT16 (R40). -/
def floatOf (f other : NumFmt) : NumFmt :=
  if f.isInt && !other.isInt then (if classBits f ≤ 8 then .bf16 else .fp32) else f

/-- The format that an operand crosses the edge into, beside the other operand (R38, R40): an integer beside a floating-point
or MX operand is widened first, then the narrower of the two. -/
def widenBeside (f other : NumFmt) : NumFmt :=
  let g := floatOf (widen1 f) (widen1 other)
  let o := floatOf (widen1 other) (widen1 f)
  if !o.isMx && !g.isMx && decide (classBits g < classBits o) then o else g

/-- Columns of an output tile before packing (R134). -/
def tileCols (fa fb : NumFmt) : Nat :=
  classCols (max (classBits (widenBeside fa fb)) (classBits (widenBeside fb fa)))

/-- A format the wide engine takes as an operand (R38, R39). -/
def wideOperand (c : Nat) : Bool :=
  match NumFmt.ofCode c with
  | some .int32 => false
  | some .ue8m0 => false
  | some _ => true
  | none => false

/-- The formats of a body. -/
def WideBody.fa (b : WideBody) : NumFmt := (NumFmt.ofCode b.afmt).getD .fp32
/-- The format of B. -/
def WideBody.fb (b : WideBody) : NumFmt := (NumFmt.ofCode b.bfmt).getD .fp32
/-- Both operands are integers (R40). -/
def WideBody.ints (b : WideBody) : Bool := b.fa.isInt && b.fb.isInt
/-- The exponent of f where an operand is MX: −6 for each MXINT8 operand (R138). -/
def WideBody.mx (b : WideBody) : Option Int :=
  if b.fa.isMx || b.fb.isMx then some (b.fa.unitEx + b.fb.unitEx) else none
/-- Columns of an output tile, packed when K ≤ 192 (R135). -/
def WideBody.nt (b : WideBody) : Nat := packedCols (tileCols b.fa b.fb) b.k
/-- Column blocks of the output. -/
def WideBody.colBlocks (b : WideBody) : Nat := (b.n + b.nt - 1) / b.nt
/-- Row blocks of the output (R135). -/
def WideBody.rowBlocks (b : WideBody) : Nat := (b.m + 511) / 512
/-- K chunks (R135). -/
def WideBody.chunks (b : WideBody) : Nat := (b.k + 1535) / 1536

/-- The wide body (R136). -/
def parseWide (l : List Byte) : WideBody :=
  { kind := bits (leAt l 0 1) 3 0
    afmt := leAt l 1 1
    bfmt := leAt l 2 1
    reduce := bits (leAt l 3 1) 7 4
    bt := bit (leAt l 3 1) 0
    m := leAt l 4 4
    n := leAt l 8 4
    k := leAt l 0xC 4
    a := leAt l 0x10 8
    b := leAt l 0x18 8
    ascales := leAt l 0x20 8
    bscales := leAt l 0x28 8
    output := leAt l 0x30 8
    epilogue := leAt l 0x38 8 }

/-- The checks of a wide body (R136, R137, R486). -/
def checkWide (l : List Byte) (d : Dev) : Chk WideBody × Dev :=
  let b := parseWide l
  let red := decide (b.kind = 2)
  let amx := b.fa.isMx
  let bmx := !red && b.fb.isMx
  tests [
    (decide (bits (leAt l 0 1) 7 4 = 0) && decide (bits (leAt l 3 1) 3 1 = 0) &&
      (!red || (decide (b.bfmt = 0) && !b.bt && decide (b.b = 0) && decide (b.epilogue = 0))) &&
      (amx || decide (b.ascales = 0)) && (bmx || decide (b.bscales = 0)), 0x0007),
    (decide (b.kind = 1) || red, 0x0301),
    (wideOperand b.afmt, 0x000B),
    (red || wideOperand b.bfmt, 0x000B),
    (if red then decide (1 ≤ b.reduce) && decide (b.reduce ≤ 3) else decide (b.reduce = 0), 0x0301),
    (decide (1 ≤ b.m) && decide (b.m ≤ 65536), 0x0301),
    (if red then (if b.reduce = 3 then decide (1 ≤ b.n) && decide (b.n ≤ 64) else decide (b.n = 1))
      else decide (1 ≤ b.n) && decide (b.n ≤ 262144), 0x0301),
    (decide (1 ≤ b.k) && decide (b.k ≤ 1048576), 0x0301),
    (aligned b.a 64, 0x000C), (aligned b.b 64, 0x000C), (aligned b.ascales 8, 0x000C), (aligned b.bscales 8, 0x000C),
    (aligned b.output 64, 0x000C), (aligned b.epilogue 64, 0x000C),
    (!bmx || b.bt, 0x0301)] b d

/-- A task has started on its unit. -/
def Dev.startTask (d : Dev) (slot task : Nat) : Dev := d.setTask slot task .running

/-- WIDE_PRODUCT: the wide task issued first starts, its descriptors are checked and its output tiles counted (R136,
R137, R146, R150). -/
def Dev.wideProduct (d : Dev) : Dev :=
  if !d.wideIdle then d
  else
  match d.issuedWhere 2 fun k => k % 16 ≠ 2 with
  | none => d
  | some (slot, task) =>
    let space := (d.slot slot).space
    let r := d.reader 4 0 slot task
    Dev.act (Chk.thn (d.readBody slot task 64) fun l d =>
        Chk.thn (checkWide l d) fun b d =>
        Chk.thn (d.loadEpi r space b.epilogue b.k b.n false) fun ea d => (.ok (b, ea.2.isNone), d))
      4 0 slot task space fun x d =>
        let b := x.1
        let t : WideTask :=
          { slot := slot, task := task, space := space, body := b, total := b.colBlocks * b.rowBlocks
            us := if x.2 then some [] else none }
        ({ d with wde := { d.wde with tasks := d.wde.tasks ++ [t] } }).startTask slot task

/-- Rows of the A operand that cross the edge: values and counts per row, with the row's scale codes. -/
def Dev.readRows (d : Dev) (r : Reader) (space va scales : Nat) (f tgt : NumFmt) (row0 nrows k k0 kn : Nat) :
    Chk (List (List Exact × List Nat × List Nat)) × Dev :=
  let sb := (k + 31) / 32
  let rs := (List.range nrows).map fun i =>
    (va + (row0 + i) * rowStride f k + k0 * f.bits / 8, packedBytes f kn)
  let ss := if f.isMx then
      (List.range nrows).map fun i => (scales + (row0 + i) * sb + k0 / 32, (kn + 31) / 32)
    else []
  Chk.thn (Acc.chk (d.readAll r space rs)) fun ls d =>
  Chk.thn (Acc.chk (d.readAll r space ss)) fun sl d =>
    (.ok (ls.zipIdx.map fun l =>
      let sc := (sl.getD l.2 []).map (·.toNat)
      let e := edgeRow f tgt sc (codesOf f kn l.1)
      (e.1, e.2, sc)), d)

/-- Columns of the B operand for one K chunk: from rows of N when B is transposed, else from rows of K (R136). -/
def Dev.readCols (d : Dev) (r : Reader) (space : Nat) (b : WideBody) (c0 n k0 kn : Nat) :
    Chk (List (List Exact × List Nat × List Nat)) × Dev :=
  let tgt := widenBeside b.fb b.fa
  if b.bt then d.readRows r space b.b b.bscales b.fb tgt c0 n b.k k0 kn
  else
    let rs := (List.range kn).map fun i =>
      (b.b + (k0 + i) * rowStride b.fb b.n + c0 * b.fb.bits / 8, packedBytes b.fb n)
    Chk.thn (Acc.chk (d.readAll r space rs)) fun ls d =>
      let rows := ls.map fun l => (codesOf b.fb n l).map (edgeElem b.fb tgt false)
      (.ok ((List.range n).map fun c =>
        let col := rows.map fun row => row.getD c ({}, 0)
        (col.map (·.1), col.map (·.2), [])), d)

/-- The output tile after a chunk, with the clips of each row (R138, R139). -/
def foldChunk (b : WideBody) (acc : List (Option Word)) (as bs : List (List Exact × List Nat × List Nat)) :
    List (Option Word) × List Nat :=
  let a' := as.map fun a => ((skipGroups a.1).1.map b.fa.rawElem, a.2.2)
  let b' := bs.map fun x => ((skipGroups x.1).1.map b.fb.rawElem, x.2.2)
  let pairs := a'.flatMap fun a => b'.map fun x => (a, x)
  let r := (pairs.zip acc).map fun p =>
    if b.ints then accumulate true p.2 none (chunkInt p.1.1.1 p.1.2.1)
    else accumulate false p.2 (chunkFp b.mx p.1.1.2 p.1.2.2 p.1.1.1 p.1.2.1) none
  (r.map (·.1), (groupsOf bs.length as.length (r.map (·.2))).map (·.sum))

/-- What the wide edge counts for a chunk: non-finite elements and underflow blocks (R54, R56). -/
def chunkCounts (l : List (List Exact × List Nat × List Nat)) : EdgeCount :=
  sumCounts (l.map fun x => ⟨x.2.1.sum, 0, (skipGroups x.1).2⟩)

/-- A wide task changed. -/
def Dev.modWide (d : Dev) (slot task : Nat) (f : WideTask → WideTask) : Dev :=
  { d with wde := { d.wde with tasks := d.wde.tasks.map fun t =>
      if t.slot = slot ∧ t.task = task then f t else t } }

/-- The wide task that the engine serves: by rank and issue order among those that run (R156). -/
def Dev.wideNext (d : Dev) (p : WideTask → Bool) : Option WideTask :=
  (d.firstTask ((d.wde.tasks.filter fun t => !t.saved && !d.stopped t.slot t.task && p t).map fun t =>
    (t.slot, t.task))).bind fun k => d.wde.tasks.find? fun t => decide (t.slot = k.1) && decide (t.task = k.2)

/-- An output tile belongs to a task. -/
def OutTile.owns (o : OutTile) (t : WideTask) : Bool := decide (o.slot = t.slot) && decide (o.task = t.task)

/-- The filling tile of a task: 0 or 1. -/
def Dev.filling (d : Dev) (t : WideTask) : Option Nat :=
  let is := fun (o : Option OutTile) => match o with
    | some o => o.owns t && !o.draining
    | none => false
  if is d.wde.tile0 then some 0 else if is d.wde.tile1 then some 1 else none

/-- An output tile of the engine. -/
def Dev.outTile (d : Dev) (i : Nat) : Option OutTile := if i = 0 then d.wde.tile0 else d.wde.tile1

/-- An output tile put in place. -/
def Dev.setTile (d : Dev) (i : Nat) (o : Option OutTile) : Dev :=
  if i = 0 then { d with wde := { d.wde with tile0 := o } } else { d with wde := { d.wde with tile1 := o } }

/-- The next output tile of a task, in ascending column block and, within it, row block (R137). -/
def WideTask.newTile (t : WideTask) : OutTile :=
  let cb := t.next / t.body.rowBlocks
  let rb := t.next % t.body.rowBlocks
  let nr := min 512 (t.body.m - 512 * rb)
  let nc := min t.body.nt (t.body.n - t.body.nt * cb)
  { slot := t.slot, task := t.task, row0 := 512 * rb, col0 := t.body.nt * cb, nrows := nr, ncols := nc
    acc := List.replicate (nr * nc) none }

/-- A task can take a chunk pass: it fills a tile, or a tile is free and it has one to fill. -/
def Dev.canFill (d : Dev) (t : WideTask) : Bool :=
  (d.filling t).isSome || t.savedTile.isSome ||
    (decide (t.next < t.total) && (d.wde.tile0.isNone || d.wde.tile1.isNone) && !d.auditSlot && !d.adapterFirst)

/-- The tile a chunk pass fills: the task's filling tile, or a free one taken for its next output tile. -/
def Dev.takeTile (d : Dev) (t : WideTask) : Option (Nat × Dev) :=
  match d.filling t with
  | some i => some (i, d)
  | none =>
    let i := if d.wde.tile0.isNone then 0 else 1
    if (d.outTile i).isSome then none
    else if t.next < t.total then
      let d := { d with wde := { d.wde with slotCount := d.wde.slotCount + 1 } }
      some (i, (d.setTile i (some t.newTile)).modWide t.slot t.task fun t => { t with next := t.next + 1 })
    else none

/-- A task has an adapter (R150, R152). -/
def WideTask.hasAdapter (t : WideTask) : Bool := t.us ≠ some []

/-- The rows of A as the adapter takes them: each element with its block's scale, and a mark where it is non-finite or
reserved (R151). -/
def adapterRows (rows : List (List Exact × List Nat × List Nat)) : List (List (Exact × Bool)) :=
  rows.map fun row => row.1.zipIdx.map fun v =>
    ({ v.1 with ex := v.1.ex + (scaleUse (row.2.2.getD (v.2 / 32) 127) : Int) - 127 },
      decide (row.2.1.getD v.2 0 ≠ 0))

/-- The task's unit met a translation fault: it stops at the end of its chunk pass and its filling tile is saved, as for a
pre-emption (R157, R158). -/
def Dev.saveWide (d : Dev) (slot task : Nat) : Dev :=
  match d.wde.tasks.find? fun t => decide (t.slot = slot) && decide (t.task = task) with
  | none => d
  | some t =>
    if t.saved then d
    else
      let o := (d.filling t).bind d.outTile
      let d := match d.filling t with
        | some i => (d.bumpWrap Off.wdeDrainWaits).setTile i none
        | none => d
      (d.modWide slot task fun t => { t with saved := true, savedTile := o }).unmark slot task .saved

/-- A wide task acts on its accesses; a translation fault that Damson may resolve saves it (R158). -/
def Dev.wideAct {α : Type} (x : Chk α × Dev) (slot task space : Nat) (k : α → Dev → Dev) : Dev :=
  let d := Dev.act x 4 0 slot task space k
  if d.stopped slot task then d.saveWide slot task else d

/-- Before the first chunk pass of a wide product with an adapter, the array computes u for all M rows (R152). -/
def Dev.wideDown (d : Dev) (t : WideTask) : Dev :=
  let b := t.body
  let r := d.reader 4 0 t.slot t.task
  Dev.wideAct (Chk.thn (d.loadEpi r t.space b.epilogue b.k b.n false) fun ea d =>
      match ea.2 with
      | none => (.ok ({}, 0, 0), d)
      | some a =>
        Chk.thn (d.readRows r t.space b.a b.ascales b.fa b.fa 0 b.m b.k 0 b.k) fun rows d =>
        Chk.thn (d.adapterDown r t.space a b.k (adapterRows rows)) fun u d =>
          (.ok (u, wideGrid (classCols (classBits a.format)) b.m a.rank b.k), d))
    t.slot t.task t.space fun x d =>
      (((d.edge Off.wdeEdgeStatus (x.1.vecs.add x.1.matrix)).accClipped x.1.clips).wideWork x.2.1 x.2.2).modWide
        t.slot t.task fun t =>
          { t with us := some x.1.vs, flags := t.flags ||| x.1.matrix.quality
                   rowFlags := orRows t.rowFlags (rowsFrom 0 x.1.rows) }

/-- The last chunk pass of a tile with an adapter computes y for its rows and columns, with K = r (R152). Counts of what
crosses the edge again for another tile are taken once (log entry 93). -/
def Dev.wideUp (d : Dev) (t : WideTask) (i : Nat) (o : OutTile) : Dev :=
  let b := t.body
  let r := d.reader 4 0 t.slot t.task
  Dev.wideAct (Chk.thn (d.loadEpi r t.space b.epilogue b.k b.n false) fun ea d =>
      match ea.2 with
      | none => (.ok ({}, 0), d)
      | some a =>
        Chk.thn (d.adapterUp r t.space a o.col0 o.ncols (((t.us.getD []).drop o.row0).take o.nrows)) fun y d =>
          (.ok (y, (wideGrid (classCols (classBits a.format)) o.nrows o.ncols a.rank).2), d))
    t.slot t.task t.space fun x d =>
      let ec := (if o.col0 = 0 then x.1.vecs else {}).add (if o.row0 = 0 then x.1.matrix else {})
      ((((d.edge Off.wdeEdgeStatus ec).accClipped x.1.clips).wideWork 0 x.2).setTile i
        (some { o with y := x.1.vs, draining := true })).modWide t.slot t.task fun t =>
          { t with flags := t.flags ||| x.1.matrix.quality
                   rowFlags := orRows t.rowFlags (rowsFrom o.row0 x.1.rows) }

/-- The rows of a tile stream against its next K chunk (R135, R138). The edge counts an operand's blocks and elements once,
though they cross again for the other tiles of its row or column of tiles (log entry 93). -/
def Dev.wideChunk (d : Dev) (t : WideTask) (i : Nat) (o : OutTile) : Dev :=
  let b := t.body
  let k0 := 1536 * o.chunk
  let kn := min 1536 (b.k - k0)
  let r := d.reader 4 0 t.slot t.task
  Dev.wideAct (Chk.thn (d.readRows r t.space b.a b.ascales b.fa (widenBeside b.fa b.fb) o.row0 o.nrows b.k k0 kn)
      fun as d => Chk.thn (d.readCols r t.space b o.col0 o.ncols k0 kn) fun bs d => (.ok (as, bs), d))
    t.slot t.task t.space fun x d =>
      let (acc, clips) := foldChunk b o.acc x.1 x.2
      let rows := (clips.zip x.1).map fun c => rowFlag c.1 (chunkCounts [c.2])
      let ec := (if o.col0 = 0 then chunkCounts x.1 else {}).add (if o.row0 = 0 then chunkCounts x.2 else {})
      let d := ((d.edge Off.wdeEdgeStatus ec).accClipped clips.sum).wideWork 0 o.nrows
      let row0 := o.row0
      let o := { o with acc := acc, chunk := o.chunk + 1
                        draining := decide (b.chunks ≤ o.chunk + 1) && !t.hasAdapter }
      (d.setTile i (some o)).modWide t.slot t.task fun t =>
        { t with flags := t.flags ||| (chunkCounts x.2).quality, rowFlags := orRows t.rowFlags (rowsFrom row0 rows) }

/-- CHUNK_PASS: the rows of the filling tile stream against its next K chunk, or the adapter's part of the task runs; a
residue mismatch aborts the task (R135, R138, R152, R403). -/
def Dev.chunkPass (d : Dev) (mismatch : Bool) : Dev :=
  if d.bitAt Off.wdeCtrl 0 then d
  else
    match d.wideNext fun t => !d.marked t.slot t.task && d.canFill t with
    | none =>
      if d.wde.tile0.isSome && d.wde.tile1.isSome && (d.wideNext fun t => decide (t.next < t.total)).isSome then
        let (n, d) := d.drawNat
        d.bumpWrap Off.wdeStallCycles n
      else d
    | some t =>
      if mismatch then d.logicCheck 4 0 t.slot t.task
      else if t.us.isNone then d.wideDown t
      else
        match d.takeTile t with
        | none => d
        | some (i, d) =>
          match d.outTile i with
          | none => d
          | some o => if o.chunk < t.body.chunks then d.wideChunk t i o else d.wideUp t i o

/-- A tile whose drain is due: the first that drains. -/
def Dev.drainTile (d : Dev) : Option (Nat × OutTile) :=
  let due := fun (o : Option OutTile) => match o with
    | some o => o.draining && !d.stopped o.slot o.task
    | none => false
  if due d.wde.tile0 then d.wde.tile0.map fun o => (0, o)
  else if due d.wde.tile1 then d.wde.tile1.map fun o => (1, o)
  else none

/-- A drained tile of 16 columns that holds the first half of an MX output block waits for the other half (R36, R48). -/
def halfBlock (e : Epi) (b : WideBody) (o : OutTile) : Bool :=
  decide (e.scaleMode = 2) && decide (b.nt = 16) && decide (o.col0 % 32 = 0) && decide (o.col0 + 16 < b.n)

/-- A tile joined to the half block that waits beside it. -/
def joinHalf (t : WideTask) (o : OutTile) : OutTile :=
  match t.halves.find? fun h => decide (h.row0 = o.row0) && decide (h.col0 + 16 = o.col0) with
  | none => o
  | some h =>
    { o with
      col0 := h.col0
      ncols := h.ncols + o.ncols
      acc := (List.range o.nrows).flatMap fun j =>
        (h.acc.drop (j * h.ncols)).take h.ncols ++ (o.acc.drop (j * o.ncols)).take o.ncols
      y := h.y.zipWith (· ++ ·) o.y }

/-- TILE_DRAIN: the tile drains through the epilogue and its outputs are written; the task ends with its last tile
(R144-R149, R156). -/
def Dev.tileDrain (d : Dev) : Dev :=
  match d.drainTile with
  | none => d
  | some (i, o) =>
    match d.wde.tasks.find? fun t => o.owns t with
    | none => d.setTile i none
    | some t =>
      let b := t.body
      let o := joinHalf t o
      let r := d.reader 4 0 t.slot t.task
      let seed := (d.taskHdr t.slot t.task).seed
      Dev.wideAct (Chk.thn (d.loadEpi r t.space b.epilogue b.k b.n false) fun ea d =>
          Chk.thn (d.epiArrays r t.space ea.1 o.col0 o.ncols) fun wb d =>
            let e := ea.1
            let rows := (List.range o.nrows).map fun j =>
              let acc := ((o.acc.drop (j * o.ncols)).take o.ncols).map fun a => a.getD 0
              epiRow e b.ints ea.2 seed ((o.row0 + j) * b.n + o.col0) acc wb.1 wb.2 (o.y.getD j [])
            let outs := if halfBlock e b o then [] else rows.zipIdx.map fun w =>
              (b.output + (o.row0 + w.2) * rowStride e.outFormat b.n + o.col0 * e.outFormat.bits / 8, w.1.1)
            let scs := if e.scaleMode = 2 ∧ !halfBlock e b o then
                rows.zipIdx.map fun w => (e.outScales + (o.row0 + w.2) * ((b.n + 31) / 32) + o.col0 / 32, w.1.2.1)
              else []
            Chk.thn (Acc.chk (d.writeAll r t.space (outs ++ scs))) fun _ d =>
              (.ok (if halfBlock e b o then ([], true) else (rows.map fun w => (w.2.2.1, w.2.2.2), false)), d))
        t.slot t.task t.space fun y d =>
          let keep := if y.2 then t.halves ++ [o] else t.halves
          let d := ((d.edge Off.wdeEdgeStatus (sumCounts (y.1.map (·.2)))).accClipped (y.1.map (·.1)).sum).bump64 Off.wdeTilesLo
          let d := (d.bumpWrap Off.wdeDrainWaits).setTile i none
          let fl := orRows t.rowFlags (rowsFrom o.row0 (y.1.map fun x => rowFlag x.1 x.2))
          if t.drained + 1 = t.total then
            ({ d with wde := { d.wde with tasks := d.wde.tasks.filter fun u => !o.owns u } }).endTaskRows t.slot t.task t.flags fl
          else d.modWide t.slot t.task fun t => { t with drained := t.drained + 1, rowFlags := fl, halves := keep }

/-- The greater of two values in TOPK order: descending value, then ascending index (R153). -/
def topkBefore (a b : Word × Nat) : Bool := fpLt b.1 a.1 || (!fpLt a.1 b.1 && decide (a.2 < b.2))

/-- Insert into a list in TOPK order, keeping at most `k`. -/
def topkInsert (k : Nat) (x : Word × Nat) : List (Word × Nat) → List (Word × Nat)
  | [] => [x].take k
  | y :: l => if topkBefore x y then (x :: y :: l).take k else (y :: topkInsert (k - 1) x l).take k

/-- A reduction element in FP32: an MX element under its block's scale, clipped and counted beyond the FP32 range (R139,
R153). -/
def reduceElem (f : NumFmt) (sc : List Nat) (x : Exact × Nat) : Word × Nat :=
  fpRound (if f.isMx then { x.1 with ex := x.1.ex + (scaleUse (sc.getD (x.2 / 32) 127) : Int) - 127 } else x.1)

/-- The result of a reduction row (R153, R154): its bytes and clips. -/
def reduceRow (b : WideBody) (xs : List Exact) (sc : List Nat) : List Byte × Nat :=
  let rs := xs.zipIdx.map (reduceElem b.fa sc)
  let ws := rs.map (·.1)
  let clips := (rs.map (·.2)).sum
  match b.reduce with
  | 1 =>
    let one := xs.map fun _ => some (Exact.ofInt 1)
    let vs := (skipGroups xs).1.map b.fa.rawElem
    let mx := if b.fa.isMx then some b.fa.unitEx else none
    let r := (List.range b.chunks).foldl (fun (acc : Option Word × Nat) q =>
      let c := chunkFp mx (sc.drop (48 * q)) [] ((vs.drop (1536 * q)).take 1536) ((one.drop (1536 * q)).take 1536)
      let s := accumulate false acc.1 c none
      (s.1, acc.2 + s.2)) (none, 0)
    (le (r.1.getD 0).toNat 4, r.2)
  | 2 => (le ((ws.tail.foldl fpMax (ws.headD 0)).toNat) 4, clips)
  | _ =>
    let top := ws.zipIdx.foldl (fun t x => topkInsert b.n x t) []
    let pad := List.replicate (b.n - top.length) ((0xFF7FFFFF : Word), 0xFFFFFFFF)
    ((top ++ pad).flatMap fun x => le x.1.toNat 4 ++ le x.2 4, clips)

/-- WIDE_REDUCTION: a reduction reads its rows through the wide edge, which counts as for every wide operand, and writes one
result per row (R54, R153-R155). DESIGN CHOICE (log entry 16): its rows stream past the array, and WDE_BUSY does not count
them. -/
def Dev.wideReduction (d : Dev) : Dev :=
  if !d.wideIdle then d
  else
  match d.issuedWhere 2 fun k => k % 16 = 2 with
  | none => d
  | some (slot, task) =>
    let space := (d.slot slot).space
    let r := d.reader 4 0 slot task
    Dev.act (Chk.thn (d.readBody slot task 64) fun l d =>
        Chk.thn (checkWide l d) fun b d =>
        Chk.thn (d.readRows r space b.a b.ascales b.fa b.fa 0 b.m b.k 0 b.k) fun rows d =>
          let outs := rows.map fun x => reduceRow b x.1 x.2.2
          let size := if b.reduce = 3 then 8 * b.n else 4
          Chk.thn (Acc.chk (d.writeAll r space (outs.zipIdx.map fun o => (b.output + o.2 * alignUp size 64, o.1.1))))
            fun _ d => (.ok ((outs.zip rows).map fun x => (x.1.2, chunkCounts [x.2])), d))
      4 0 slot task space fun x d =>
        ((d.edge Off.wdeEdgeStatus (sumCounts (x.map (·.2)))).accClipped (x.map (·.1)).sum).endTaskRows slot task 0
          (rowsFrom 0 (x.map fun y => rowFlag y.1 y.2))

/-- WIDE_SAVE: a marked wide task saves the accumulators of its filling tile, once the tree has landed its products; a
draining tile completes its drain (R144, R157). -/
def Dev.wideSave (d : Dev) : Dev :=
  match d.wideNext fun t => d.marked t.slot t.task with
  | none => d
  | some t => d.saveWide t.slot t.task

/-- WIDE_RESUME: a saved task continues from its next chunk once the engine is free (R157, R289). -/
def Dev.wideResume (d : Dev) : Dev :=
  if !d.wideFree then d
  else
  match d.firstTask ((d.wde.tasks.filter fun t => t.saved && d.canResume t.slot t.task).map fun t => (t.slot, t.task)) with
  | none => d
  | some (slot, task) =>
    match d.wde.tasks.find? fun t => decide (t.slot = slot) && decide (t.task = task) with
    | none => d
    | some t =>
      let free := d.wde.tile0.isNone || d.wde.tile1.isNone
      if t.savedTile.isSome && !free then d
      else
        let d := match t.savedTile with
          | some o => d.setTile (if d.wde.tile0.isNone then 0 else 1) (some o)
          | none => d
        (d.modWide slot task fun t => { t with saved := false, savedTile := none }).setTask slot task .running

/-- A wide-engine command. -/
def execWideProduct (s : State) : Host.Outcome State Fault Refusal := lift Dev.wideProduct s
/-- WIDE_REDUCTION (R153). -/
def execWideReduction (s : State) : Host.Outcome State Fault Refusal := lift Dev.wideReduction s
/-- CHUNK_PASS (R135). -/
def execChunkPass (mismatch : Bool) (s : State) : Host.Outcome State Fault Refusal := lift (·.chunkPass mismatch) s
/-- TILE_DRAIN (R144). -/
def execTileDrain (s : State) : Host.Outcome State Fault Refusal := lift Dev.tileDrain s
/-- WIDE_SAVE (R157). -/
def execWideSave (s : State) : Host.Outcome State Fault Refusal := lift Dev.wideSave s
/-- WIDE_RESUME (R157). -/
def execWideResume (s : State) : Host.Outcome State Fault Refusal := lift Dev.wideResume s

end Sys2Proof.Machine
end

