-- ==== Sys2Proof/Machine/Attention.lean ====
section
/-! DEFINITION. Attention: the checks of a task, rotation, appends and compaction, the fixed-order merge, the backward
pass, saves and resumptions, and the end of a frame's quarantine (R179-R207). -/

namespace Sys2Proof.Machine

/-! ## The body and the row table (R181, R191) -/

/-- The attention body (R181). -/
def parseAtt (l : List Byte) : AttBody :=
  { mode := bits (leAt l 0 1) 3 0
    append := bit (leAt l 1 1) 2
    interleaved := bit (leAt l 1 1) 1
    packed := bit (leAt l 1 1) 0
    headDim := leAt l 2 1
    ropePairs := leAt l 3 1
    qHeads := leAt l 4 2
    kvHeads := leAt l 6 2
    m := leAt l 8 4
    layerSlot := leAt l 0xC 2
    rowTable := leAt l 0x10 8
    q := leAt l 0x18 8
    newKv := leAt l 0x20 8
    output := leAt l 0x28 8
    kvScales := leAt l 0x30 8
    freq := leAt l 0x38 8
    softmax := wordAt l 0x40
    layerStride := leAt l 0x44 4
    stats := leAt l 0x48 8
    gradOut := leAt l 0x50 8
    gradKv := leAt l 0x58 8
    fwdOut := leAt l 0x60 8 }

/-- Elements of one entry's keys: KV_HEADS × HEAD_DIM. -/
def AttBody.width (b : AttBody) : Nat := b.kvHeads * b.headDim

/-- Entries per page: E of R197. -/
def AttBody.perPage (b : AttBody) : Nat := 32768 / max b.width 1

/-- The checks of an attention body, in a graph of a channel: its fields, then what relates them, in the chapter's order
(R181, R192, R196, R197, R486). -/
def checkAtt (l : List Byte) (channel : Nat) (d : Dev) : Chk AttBody × Dev :=
  let b := parseAtt l
  let back := decide (b.mode = 3)
  tests [
    (decide (bits (leAt l 0 1) 7 4 = 0) && decide (bits (leAt l 1 1) 7 3 = 0) && zeroAt l 0xE 2 &&
      (b.append || decide (b.newKv = 0)) && (decide (b.ropePairs ≠ 0) || decide (b.freq = 0)) &&
      (decide (b.mode = 2) || back || decide (b.stats = 0)) &&
      (back || (decide (b.gradOut = 0) && decide (b.gradKv = 0) && decide (b.fwdOut = 0))) && zeroAt l 0x68 24, 0x0007),
    (decide (1 ≤ b.mode) && decide (b.mode ≤ 3), 0x0401),
    (decide (b.headDim = 64) || decide (b.headDim = 128), 0x0401),
    (decide (b.ropePairs ≤ b.headDim / 2), 0x0401),
    (decide (1 ≤ b.qHeads) && decide (b.qHeads ≤ 1024), 0x0401),
    (decide (1 ≤ b.kvHeads) && decide (b.kvHeads ≤ 64), 0x0401),
    (decide (1 ≤ b.m) && decide (b.m ≤ 8192), 0x0401),
    (decide (b.layerSlot ≤ 255), 0x0401),
    (aligned b.rowTable 64, 0x000C), (aligned b.q 64, 0x000C), (aligned b.newKv 64, 0x000C),
    (aligned b.output 64, 0x000C), (aligned b.kvScales 64, 0x000C), (aligned b.freq 64, 0x000C),
    (fpPosNormal b.softmax, 0x0401),
    (decide (1 ≤ b.layerStride) && decide (b.layerStride ≤ 4194304), 0x0401),
    (aligned b.stats 64, 0x000C), (aligned b.gradOut 64, 0x000C), (aligned b.gradKv 64, 0x000C),
    (aligned b.fwdOut 64, 0x000C),
    (decide (b.qHeads % b.kvHeads = 0), 0x0401),
    (decide (b.width = 2 ^ Nat.log2 b.width) && decide (128 ≤ b.width) && decide (b.width ≤ 8192), 0x0401),
    (!b.packed || decide (channel = 1) || decide (channel = 2), 0x0403),
    (!back || !b.append, 0x0402),
    (decide ((b.layerSlot + 1) * b.layerStride ≤ 4194304), 0x0405)] b d

/-- A row record (R191). -/
def parseRow (l : List Byte) : RowRec :=
  let path := leAt l 0x14 12 % 2 ^ 90
  { slot := leAt l 0 4
    position := leAt l 4 4
    baseLen := leAt l 8 4
    seqSlot := bits (leAt l 0xC 4) 27 16
    segment := leAt l 0xC 2
    node := leAt l 0x10 1 % 128
    parent := leAt l 0x11 1 % 128
    acceptCount := leAt l 0x12 1 % 16
    acceptPath := (List.range 15).map fun i => bits path (6 * i + 5) (6 * i) }

/-- The reserved fields of a row record are 0 (R191). -/
def rowReserved (l : List Byte) : Bool :=
  let r := parseRow l
  let used := if r.node = 0 then r.acceptCount else 0
  decide (bits (leAt l 0xC 4) 31 28 = 0) && decide (leAt l 0x10 1 < 128) && decide (leAt l 0x11 1 < 128) &&
    decide (leAt l 0x12 1 < 16) && zeroAt l 0x13 1 && decide (leAt l 0x1F 1 < 4) &&
    (r.acceptPath.drop used).all fun n => decide (n = 0)

/-- The tests of one row record's fields, in order (R191, R486). -/
def rowFields (r : RowRec) : List (Bool × Nat) :=
  [(decide (r.slot < 4194368), 0x0404), (decide (r.position < 4194304), 0x0404),
   (decide (r.baseLen ≤ 4194304), 0x0404),
   (decide (r.node ≤ 63) || decide (r.node = 0x7F), 0x0401),
   ((decide (r.parent ≤ 63) || decide (r.parent = 0x7F)) &&
     (!(decide (r.node = 0) || decide (r.node = 0x7F)) || decide (r.parent = 0x7F)), 0x0401),
   (decide (r.node = 0) || decide (r.acceptCount = 0), 0x0401)]

/-- No two of a list are equal. -/
def allDistinct : List (Nat × Nat) → Bool
  | [] => true
  | a :: l => !l.contains a && allDistinct l

/-- A tree as it is scanned: sequence slot, base length, next node, and each node's depth. -/
structure TreeScan where
  seq : Nat := 0
  base : Nat := 0
  next : Nat := 0
  depth : List Nat := []
  deriving DecidableEq, Repr

/-- The rows of the trees of a task agree with R202. -/
def treesOk : List RowRec → TreeScan → Bool
  | [], _ => true
  | r :: rs, t =>
    if r.node = 0x7F then treesOk rs {}
    else if r.node = 0 then
      decide (r.slot = r.baseLen) && decide (r.position = r.baseLen) && treesOk rs ⟨r.seqSlot, r.baseLen, 1, [0]⟩
    else
      let dep := t.depth.getD r.parent 0 + 1
      decide (r.node = t.next) && decide (r.seqSlot = t.seq) && decide (r.baseLen = t.base) &&
        decide (r.parent < r.node) && decide (dep ≤ 15) && decide (r.slot = r.baseLen + r.node) &&
        decide (r.position = r.baseLen + dep) && treesOk rs { t with next := t.next + 1, depth := t.depth ++ [dep] }

/-- A node's ancestors and itself: `rs` holds the records of the tree before the node, newest first (R202). -/
def ancestors : List RowRec → RowRec → List Nat
  | [], r => [r.node]
  | p :: rs, r => if p.node = r.parent then r.node :: ancestors rs p else ancestors rs r

/-- The entries of the accepted path ascend, starting above 0, and the previous step's base is a position (R203, log
entry 43). -/
def pathOk (r : RowRec) : Bool :=
  if r.node = 0 then
    decide (r.acceptCount < r.baseLen ∨ r.acceptCount = 0) &&
      ((r.acceptPath.take r.acceptCount).foldl (fun (x : Bool × Nat) n => (x.1 && decide (x.2 < n), n)) (true, 0)).1
  else true

/-- The slots that a row names: its own, the last it sees in the cache, and those its accepted path copies from (R197,
R203). -/
def rowSlots (r : RowRec) : List Nat :=
  r.slot :: (r.baseLen - 1) :: if r.node = 0 then
    (r.acceptPath.take r.acceptCount).map fun n => r.baseLen - 1 - r.acceptCount + n
  else []

/-- The rules that relate the rows of a task to its body and to one another, in the chapter's order (R189-R192, R196, R197,
R202, R203). -/
def rowRelations (b : AttBody) (rs : List RowRec) : List (Bool × Nat) :=
  let out := fun (r : RowRec) => decide (r.node = 0x7F)
  [(allDistinct (rs.map fun r => (r.seqSlot, r.slot)), 0x0402),
   (b.packed || rs.all fun r => !out r || decide (r.slot = r.position), 0x0402),
   (b.packed || rs.all fun r => rs.all fun s => decide (r.seqSlot ≠ s.seqSlot) || decide (r.segment = s.segment), 0x0402),
   (!b.packed || rs.all out, 0x0402),
   (!b.packed || rs.all fun r => decide (r.baseLen = 0), 0x0402),
   (decide (b.mode ≠ 3) || rs.all fun r => decide (r.baseLen = 0), 0x0402),
   (rs.all fun r => (rowSlots r).all fun n => decide (n < b.layerStride * b.perPage), 0x0405),
   (treesOk rs {}, 0x0402),
   (rs.all pathOk, 0x0402)]

/-- The row table is read and checked (R191, R486). -/
def Dev.loadRows (d : Dev) (r : Reader) (space : Nat) (b : AttBody) : Chk (List RowRec) × Dev :=
  Chk.thn (Acc.chk (d.readVa r space b.rowTable (32 * b.m))) fun l d =>
    let recs := groupsOf 32 b.m l
    let rs := recs.map parseRow
    tests ([(recs.all rowReserved, 0x0007)] ++ rs.flatMap rowFields ++ rowRelations b rs) rs d

/-! ## Rotation (R185) -/

/-- The angle of a pair at a position. -/
def ropeAngle (p : Nat) (w : Word) : Exact := (Exact.ofInt p).mul (fpVal w)

/-- The partner of an element and whether it is the second of its pair; none outside the rotated pairs. -/
def ropePair (b : AttBody) (i : Nat) : Option (Nat × Nat × Bool) :=
  if b.interleaved then (if i / 2 < b.ropePairs then some (i / 2, if i % 2 = 0 then i + 1 else i - 1, i % 2 == 1) else none)
  else
    let h := b.headDim / 2
    if i % h < b.ropePairs then some (i % h, if i < h then i + h else i - h, decide (h ≤ i)) else none

/-- A head vector rotated at a position, or rotated back (R185, R196); with clips. -/
def rope (b : AttBody) (omega : List Word) (p : Nat) (back : Bool) (xs : List Word) : List Word × Nat :=
  let cs := (omega.take b.ropePairs).map fun w => (fpSinCos true (ropeAngle p w), fpSinCos false (ropeAngle p w))
  let r := xs.zipIdx.map fun x =>
    match ropePair b x.2 with
    | none => (x.1, 0)
    | some (i, j, second) =>
      let (c, s0) := cs.getD i (0x3F800000, 0)
      let s := if back then fpNeg s0 else s0
      let y := xs.getD j 0
      if second then fpAdd (fpMul (y, 0) (s, 0)) (fpMul (x.1, 0) (c, 0))
      else
        let t := fpMul (y, 0) (s, 0)
        fpAdd (fpMul (x.1, 0) (c, 0)) (fpNeg t.1, t.2)
  (r.map (·.1), (r.map (·.2)).sum)

/-- An entry of FREQ that is NaN, infinite or negative counts as 0 (R185). -/
def freqBad (w : Word) : Bool := fpBad w || (decide (w.toNat ≥ 2 ^ 31) && decide (w.toNat ≠ 2 ^ 31))

/-- A query head vector: its E4M3 codes and its scale (R183). -/
def queryCodes (b : AttBody) (omega : List Word) (p : Nat) (xs : List Word) : List Nat × Word :=
  let v := (rope b omega p false xs).1.map fpVal
  let am := amaxOf v
  let k : Int := if am.num = 0 then 0 else mxExponent .e4m3 am
  (v.map fun x => (NumFmt.e4m3.encode .nearest { x with ex := x.ex - k }).1, (fpRound ⟨false, 1, 1, k⟩).1)

/-- The value of an E4M3 code as the edge reads it (R56). -/
def e4m3Val (c : Nat) : Exact := (edgeElem .e4m3 .e4m3 false c).1

/-- A key vector rotated at its position and halved: the values of its E4M3 codes (R184). -/
def keyVals (b : AttBody) (omega : List Word) (p : Nat) (codes : List Nat) : List Exact :=
  ((rope b omega p false (codes.map fun c => (fpRound (e4m3Val c)).1)).1).map fun w =>
    let x := fpVal w
    e4m3Val (NumFmt.e4m3.encode .nearest { x with ex := x.ex - 1 }).1

/-! ## Visible keys (R190) -/

/-- The rows' own entries count as written: the task appends them, or its forward task did (R189, R196, log entry 44). -/
def AttBody.rowsWritten (b : AttBody) : Bool := b.append || decide (b.mode = 3)

/-- A row's entry is visible to another row of the task: a tree is the rows of one sequence slot and one base length (R190,
R202). -/
def rowSees (rs : List RowRec) (r s : RowRec) : Bool :=
  decide (s.seqSlot = r.seqSlot) && decide (s.segment = r.segment) &&
    (if r.node = 0x7F then decide (s.node = 0x7F) && decide (s.position ≤ r.position)
     else
      let tree := (rs.filter fun t =>
        decide (t.seqSlot = r.seqSlot) && decide (t.baseLen = r.baseLen) && decide (t.node < r.node)).reverse
      decide (s.node ≠ 0x7F) && decide (s.baseLen = r.baseLen) && (ancestors tree r).contains s.node)

/-- The slot of the key that a row sees at a position. -/
def keySlot (b : AttBody) (rs : List RowRec) (r : RowRec) (p : Nat) : Option Nat :=
  if p < r.baseLen then some p
  else if b.rowsWritten then (rs.find? fun s => decide (s.position = p) && rowSees rs r s).map (·.slot)
  else none

/-- A number put into an ascending list once. -/
def insertAsc (a : Nat) : List Nat → List Nat
  | [] => [a]
  | x :: l => if a < x then a :: x :: l else if a = x then x :: l else x :: insertAsc a l

/-- The blocks of 32 positions that hold a visible key of some row, ascending (R194). -/
def attBlocks (b : AttBody) (rs : List RowRec) : List Nat :=
  let n := rs.foldl (fun a r => max a ((r.baseLen + 31) / 32)) 0
  if b.rowsWritten then rs.foldl (fun l r => insertAsc (r.position / 32) l) (List.range n) else List.range n

/-- The slots of a row's visible keys in a block, one for each of 32 positions. -/
def blockSlots (b : AttBody) (rs : List RowRec) (r : RowRec) (blk : Nat) : List (Option Nat) :=
  (List.range 32).map fun i => keySlot b rs r (32 * blk + i)

/-- The virtual address of the page that holds a slot's entry (R197). -/
def Dev.entryPage (d : Dev) (b : AttBody) (seq slot : Nat) : Nat :=
  d.seqBase seq + (b.layerSlot * b.layerStride + slot / b.perPage) * 65536

/-- The offset in its page of a slot's key; its value lies 32,768 bytes on (R197). -/
def entryOff (b : AttBody) (slot : Nat) : Nat := slot % b.perPage * b.width

/-- The pages that a block needs. -/
def Dev.blockPages (d : Dev) (b : AttBody) (rs : List RowRec) (blk : Nat) : List Nat :=
  (rs.flatMap fun r => (blockSlots b rs r blk).filterMap fun s => s.map fun s => d.entryPage b r.seqSlot s).dedup

/-- A dot product in FP32 in the order of R138, with clips: elements of an aligned group of 32 zeros are absent (R54), and the
result is +0 where no product is present. -/
def dotAll (a b : List Exact) : Word × Nat :=
  (chunkFp none [] [] (skipGroups a).1 (skipGroups b).1).getD (0, 0)

/-! ## Starting a task -/

/-- A task of the unit changed. -/
def Dev.modAtt (d : Dev) (slot task : Nat) (f : AttTask → AttTask) : Dev :=
  { d with att := { d.att with tasks := d.att.tasks.map fun t => if t.slot = slot ∧ t.task = task then f t else t } }

/-- A task saved: it stops at the end of its block and releases the engine (R180, R206). -/
def Dev.saveAtt (d : Dev) (slot task : Nat) : Dev :=
  (d.modAtt slot task fun t => { t with saved := true }).unmark slot task .saved

/-- An attention task acts on its accesses; a translation fault that Damson may resolve saves it (R206). -/
def Dev.attAct {α : Type} (x : Chk α × Dev) (slot task space : Nat) (k : α → Dev → Dev) : Dev :=
  let d := Dev.act x 5 0 slot task space k
  if d.stopped slot task then d.saveAtt slot task else d

/-- The row table of a task is read, unless it has been (R182, R191). -/
def Dev.attRows (d : Dev) (r : Reader) (t : AttTask) : Chk AttTask × Dev :=
  if 1 ≤ t.stage then (.ok t, d)
  else Chk.thn (d.loadRows r t.space t.body) fun rs d =>
    let b := t.body
    let zero := List.replicate b.headDim 0
    let t := if b.mode = 3 then
        { t with stage := 1, rows := rs, blocks := attBlocks b rs, dq := List.replicate (b.m * b.qHeads) zero
                 dk := List.replicate (b.m * b.kvHeads) zero, dv := List.replicate (b.m * b.kvHeads) zero }
      else
        { t with stage := 1, rows := rs, blocks := attBlocks b rs, merge := List.replicate (b.m * b.qHeads) { o := zero } }
    (.ok t, d.modAtt t.slot t.task fun _ => t)

/-- The scales and frequencies of a task: KV_SCALES, and FREQ with its bad entries as 0 and their number (R185, R188). -/
def Dev.loadScales (d : Dev) (r : Reader) (space : Nat) (b : AttBody) : Chk (List Word × List Word × Nat) × Dev :=
  Chk.thn (Acc.chk (d.readVa r space b.kvScales (8 * b.kvHeads))) fun sl d =>
    let kvs := (leWords 4 (2 * b.kvHeads) sl).map (BitVec.ofNat 32 ·)
    Chk.thn (tests [(kvs.all fpPosNormal, 0x0401)] () d) fun _ d =>
    Chk.thn (if b.ropePairs = 0 then (.ok [], d) else Acc.chk (d.readVa r space b.freq (4 * b.ropePairs))) fun fl d =>
      let fr := (leWords 4 b.ropePairs fl).map (BitVec.ofNat 32 ·)
      (.ok (kvs, fr.map fun w => if freqBad w then 0 else w, (fr.filter freqBad).length), d)

/-- The queries of a task: the FP8 codes and the scale of each row and head, with what the edge counts, and the flags of each
row (R54, R56, R183, R321). -/
def Dev.loadQueries (d : Dev) (r : Reader) (t : AttTask) (omega : List Word) :
    Chk (List (List Nat × Word) × EdgeCount × List Nat) × Dev :=
  let b := t.body
  Chk.thn (Acc.chk (d.readVa r t.space b.q (2 * b.m * b.qHeads * b.headDim))) fun ql d =>
    let es := (leWords 2 (b.m * b.qHeads * b.headDim) ql).map fun c => edgeElem .bf16 .fp32 false c
    let qs := (groupsOf b.headDim (b.m * b.qHeads) (es.map fun e => (fpRound e.1).1)).zipIdx.map fun h =>
      queryCodes b omega (t.rows.getD (h.2 / b.qHeads) {}).position h.1
    (.ok (qs, ⟨(es.map (·.2)).sum, 0, (qs.map fun q => (skipGroups (q.1.map e4m3Val)).2).sum⟩,
      (groupsOf (b.qHeads * b.headDim) b.m es).map fun row => rowFlag 0 ⟨(row.map (·.2)).sum, 0, 0⟩), d)

/-- What a backward task reads at its start: dO, the forward output for D, and STATS; with the codes of dO, D and the
statistics, the clips and what the edge counts (R196). -/
def Dev.loadGrads (d : Dev) (r : Reader) (t : AttTask) :
    Chk (List (List Nat) × List Word × List (Word × Word) × Nat × EdgeCount) × Dev :=
  let b := t.body
  let n := b.m * b.qHeads
  Chk.thn (Acc.chk (d.readVa r t.space b.gradOut (n * b.headDim))) fun gl d =>
  Chk.thn (Acc.chk (d.readVa r t.space b.fwdOut (2 * n * b.headDim))) fun fl d =>
  Chk.thn (Acc.chk (d.readVa r t.space b.stats (8 * n))) fun sl d =>
    let go := groupsOf b.headDim n (gl.map (·.toNat))
    let gv := go.map (·.map (edgeElem .e5m2 .fp32 false))
    let fv := (groupsOf b.headDim n (leWords 2 (n * b.headDim) fl)).map (·.map (edgeElem .bf16 .fp32 false))
    let ds := gv.zipWith (fun g f => dotAll (g.map (·.1)) (f.map (·.1))) fv
    let sw := (leWords 8 n sl).map fun w => (BitVec.ofNat 32 w, BitVec.ofNat 32 (w / 2 ^ 32))
    let bad := ((gv ++ fv).map fun v => (v.map (·.2)).sum).sum + ((sw.flatMap fun w => [w.1, w.2]).filter fpBad).length
    (.ok (go, ds.map (·.1), sw, (ds.map (·.2)).sum,
      ⟨bad, 0, ((gv ++ fv).map fun v => (skipGroups (v.map (·.1))).2).sum⟩), d)

/-- The arrays of a task are read, unless they have been, with what the edges count (R56, R182, R183, R185, R188, R196). -/
def Dev.attArrays (d : Dev) (r : Reader) (t : AttTask) : Chk AttTask × Dev :=
  if 2 ≤ t.stage then (.ok t, d)
  else
    Chk.thn (d.loadScales r t.space t.body) fun s d =>
    Chk.thn (d.loadQueries r t s.2.1) fun q d =>
    Chk.thn (if t.body.mode = 3 then d.loadGrads r t else (.ok ([], [], [], 0, {}), d)) fun g d =>
      let all := (⟨s.2.2, 0, 0⟩ : EdgeCount).add g.2.2.2.2
      let clips := g.2.2.2.1
      let t := { t with stage := 2, kvs := s.1, omega := s.2.1, q8 := q.1.map (·.1), sq := q.1.map (·.2), gradOut := g.1
                        dsum := g.2.1, stats := g.2.2.1, flags := t.flags ||| rowFlag clips all
                        rowFlags := orRows t.rowFlags (rowsFrom 0 q.2.2) }
      (.ok t, ((d.edge Off.wdeEdgeStatus (all.add q.2.1)).accClipped clips).modAtt t.slot t.task fun _ => t)

/-- The body of a task read and checked (R181, R182, R486). -/
def Dev.loadAtt (d : Dev) (slot task : Nat) : Chk AttTask × Dev :=
  let g := d.slot slot
  Chk.thn (d.readBody slot task 128) fun l d =>
  Chk.thn (checkAtt l g.channel d) fun b d =>
    (.ok { slot := slot, task := task, space := g.space, body := b }, d)

/-- What a task does before it reads a page: copies of accepted entries, then the appends, in order. -/
inductive PrepStep where
  /-- An entry of a sequence copied from one slot to another (R203). -/
  | copy (seq src dst : Nat)
  /-- A row's entry appended (R189). -/
  | append (row : Nat)
  deriving DecidableEq, Repr

/-- The copies and appends of a task, in order; a copy onto itself is none (R189, R203). -/
def prepSteps (b : AttBody) (rs : List RowRec) : List PrepStep :=
  (if b.mode = 3 then [] else
    rs.flatMap fun r =>
      if r.node = 0 then
        let l0 := r.baseLen - 1 - r.acceptCount
        ((r.acceptPath.take r.acceptCount).zipIdx.filter fun n => decide (n.1 ≠ n.2 + 1)).map fun n =>
          PrepStep.copy r.seqSlot (l0 + n.1) (l0 + n.2 + 1)
      else []) ++
  (if b.append then (List.range rs.length).map PrepStep.append else [])

/-- The entry of a slot read: key bytes and value bytes. -/
def Dev.readEntry (d : Dev) (r : Reader) (t : AttTask) (seq slot : Nat) : Chk (List Byte × List Byte) × Dev :=
  let a := d.entryPage t.body seq slot + entryOff t.body slot
  Chk.thn (Acc.chk (d.readVa r t.space a t.body.width)) fun k d =>
  Chk.thn (Acc.chk (d.readVa r t.space (a + 32768) t.body.width)) fun v d => (.ok (k, v), d)

/-- The entry of a slot written. -/
def Dev.writeEntry (d : Dev) (r : Reader) (t : AttTask) (seq slot : Nat) (k v : List Byte) : Chk Unit × Dev :=
  let a := d.entryPage t.body seq slot + entryOff t.body slot
  Acc.chk (d.writeAll r t.space [(a, k), (a + 32768, v)])

/-- A row's new entry converted under the static scales of its heads (R187). -/
def newEntry (b : AttBody) (kvs : List Word) (codes : List Nat) : List Byte × List Byte × EdgeCount :=
  let one := fun (x : Nat × Nat) =>
    let s := kvs.getD (x.2 / b.headDim) 0x3F800000
    let e := edgeElem .bf16 .bf16 false x.1
    convertOne .e4m3 .nearest (decide (e.2 ≠ 0)) (e.1.div (fpVal s))
  let r := codes.zipIdx.map one
  let bs := r.map fun c => BitVec.ofNat 8 c.1
  (bs.take b.width, bs.drop b.width, sumCounts (r.map (·.2)))

/-- One copy or append of a task, with the flags of a row (R187, R189, R203, R321). -/
def Dev.prepStep (d : Dev) (r : Reader) (t : AttTask) : PrepStep → Chk (Nat × Nat) × Dev
  | .copy seq src dst =>
    Chk.thn (d.readEntry r t seq src) fun e d =>
    Chk.thn (d.writeEntry r t seq dst e.1 e.2) fun _ d => (.ok (0, 0), d.bumpWrap Off.attCompacted)
  | .append i =>
    let b := t.body
    let row := t.rows.getD i {}
    Chk.thn (Acc.chk (d.readVa r t.space (b.newKv + i * (4 * b.width)) (4 * b.width))) fun l d =>
      let e := newEntry b t.kvs (leWords 2 (2 * b.width) l)
      Chk.thn (d.writeEntry r t row.seqSlot row.slot e.1 e.2.1) fun _ d =>
        let d := (d.edge Off.plnEdgeStatus e.2.2).countFlag Off.attStatus 4 Off.attKvClipped e.2.2.clipped
        (.ok (i, e.2.2.quality ||| (if e.2.2.clipped = 0 then 0 else qKv)), d)

/-- The copies and appends that a task has left, one after another, until one stops it; each is counted as it is done, so
that a task stopped for a fault goes on after the last one done (R206). -/
def Dev.prepare (d : Dev) (r : Reader) (t : AttTask) : List PrepStep → Chk Unit × Dev
  | [] => (.ok (), d)
  | p :: ps =>
    Chk.thn (d.prepStep r t p) fun fl d =>
      (d.modAtt t.slot t.task fun t => { t with prep := t.prep + 1, rowFlags := orRows t.rowFlags [fl] }).prepare r t ps

/-! ## The fixed-order merge (R186, R194) -/

/-- e^x of an FP32 value, rounded to FP32 (R194). -/
def fpExp (x : Word) : Word := (fpRound (expVal (fpVal x))).1

/-- The factor of a row's head (R186). -/
def scoreFactor (b : AttBody) (sq sk : Word) : Word :=
  (fpMul (fpMul (fpMul (sq, 0) (sk, 0)) (0x40000000, 0)) (b.softmax, 0)).1

/-- A key or value of a block: the position, and the codes of a head's key and value. -/
structure BlockKey where
  pos : Nat
  key : List Exact
  val : List Exact
  deriving DecidableEq, Repr

/-- The scores of a block's keys, with clips (R186). -/
def blockScores (b : AttBody) (q8 : List Nat) (sq sk : Word) (ks : List (Option BlockKey)) : List (Option (Word × Nat)) :=
  let q := q8.map e4m3Val
  ks.map fun k => k.map fun k => fpMul (dotAll q k.key) (scoreFactor b sq sk, 0)

/-- One block enters the merge of a row and head, with clips: the products of a block of 32 positions whose probabilities, or
whose values of an element, are all zero are absent (R54, R194; log entry 106). -/
def mergeBlock (b : AttBody) (q8 : List Nat) (sq sk sv : Word) (m : Merge) (ks : List (Option BlockKey)) : Merge × Nat :=
  let ss := blockScores b q8 sq sk ks
  match ss.filterMap id with
  | [] => (m, 0)
  | s :: rest =>
    let mb := rest.foldl (fun a x => fpMax a x.1) s.1
    let c0 := (s.2 + (rest.map (·.2)).sum)
    let up := m.started && fpLt m.m mb
    let mNew := if !m.started || up then mb else m.m
    let l0 : Word × Nat := if up then fpMul (m.l, 0) (fpExp (fpAdd (m.m, 0) (fpNeg mb, 0)).1, 0) else (m.l, 0)
    let o0 : List (Word × Nat) := m.o.map fun x =>
      if up then fpMul (x, 0) (fpExp (fpAdd (m.m, 0) (fpNeg mb, 0)).1, 0) else (x, 0)
    let p8 := ss.map fun s => s.map fun s =>
      e4m3Val (NumFmt.e4m3.encode .nearest
        (fpVal (fpMul (fpExp (fpAdd (s.1, 0) (fpNeg mNew, 0)).1, 0) (0x43800000, 0)).1)).1
    let l1 := fpAdd l0 ((pairwise fpAdd (p8.map fun p => p.map fpRound)).getD (0, 0))
    let pz := (p8.filterMap id).all Exact.isZero
    let o1 := o0.zipIdx.map fun x =>
      let vs := (ks.filterMap id).map fun (k : BlockKey) => k.val.getD x.2 {}
      let terms := p8.zipWith (fun p k => match p, k with
        | some p, some (k : BlockKey) => some (fpRound (p.mul (k.val.getD x.2 {})))
        | _, _ => none) ks
      if pz || vs.all Exact.isZero then x.1 else fpAdd x.1 (fpMul ((pairwise fpAdd terms).getD (0, 0)) (sv, 0))
    ({ started := true, m := mNew, l := l1.1, o := o1.map (·.1) }, c0 + l1.2 + (o1.map (·.2)).sum)

/-- The codes of a head's key and value in a page. -/
def pageEntry (b : AttBody) (page : List Byte) (slot g : Nat) : List Nat × List Nat :=
  let o := entryOff b slot + g * b.headDim
  (((page.drop o).take b.headDim).map (·.toNat), ((page.drop (32768 + o)).take b.headDim).map (·.toNat))

/-- The keys and values of a KV head that a row sees in a block, from the pages in the merge buffer. -/
def Dev.blockKeys (d : Dev) (t : AttTask) (buf : List (Nat × List Byte)) (r : RowRec) (g blk : Nat) :
    List (Option BlockKey) :=
  (blockSlots t.body t.rows r blk).zipIdx.map fun s => s.1.map fun slot =>
    let page := (look buf (d.entryPage t.body r.seqSlot slot)).getD []
    let e := pageEntry t.body page slot g
    ⟨32 * blk + s.2, keyVals t.body t.omega (32 * blk + s.2) e.1, e.2.map e4m3Val⟩

/-- Row groups of a task: at most 64 query rows each (R180). -/
def AttBody.groups (b : AttBody) : Nat := (b.m + 63) / 64

/-- One block merged into every head of the rows of the group in turn, with the clips of each row (R180, R194, R198). -/
def Dev.mergeRows (d : Dev) (t : AttTask) (blk : Nat) : List Merge × List Nat :=
  let b := t.body
  let r := t.merge.zipIdx.map fun m =>
    let i := m.2 / b.qHeads
    let g := m.2 % b.qHeads * b.kvHeads / b.qHeads
    if i / 64 = t.group then
      mergeBlock b (t.q8.getD m.2 []) (t.sq.getD m.2 0) (t.kvs.getD g 0) (t.kvs.getD (b.kvHeads + g) 0) m.1
        (d.blockKeys t t.buffer (t.rows.getD i {}) g blk)
    else (m.1, 0)
  (r.map (·.1), (groupsOf b.qHeads b.m (r.map (·.2))).map (·.sum))

/-- The entries that a row sees in a block: sequence slot, slot and position. -/
def rowEntries (t : AttTask) (blk : Nat) (r : RowRec) : List (Nat × Nat × Nat) :=
  (blockSlots t.body t.rows r blk).zipIdx.filterMap fun s => s.1.map fun n => (r.seqSlot, n, 32 * blk + s.2)

/-- What the edge counts for one entry as it is read: non-finite codes, and groups of zeros of its keys as they enter the
products (R54, R56; log entry 106). -/
def Dev.entryCounts (d : Dev) (t : AttTask) (e : Nat × Nat × Nat) : EdgeCount :=
  let page := (look t.buffer (d.entryPage t.body e.1 e.2.1)).getD []
  sumCounts ((List.range t.body.kvHeads).map fun g =>
    let x := pageEntry t.body page e.2.1 g
    ⟨((x.1 ++ x.2).filter fun c => decide (c % 128 = 127)).length, 0,
     (skipGroups (keyVals t.body t.omega e.2.2 x.1)).2⟩)

/-- What the edge counts for the entries that a block's rows see, each entry once (R54, R56). -/
def Dev.blockCounts (d : Dev) (t : AttTask) (blk : Nat) : EdgeCount :=
  sumCounts (((t.rows.flatMap (rowEntries t blk)).dedup).map (d.entryCounts t))

/-- The flags of each row that a block's entries set (R56, R321). -/
def Dev.blockFlags (d : Dev) (t : AttTask) (blk : Nat) : List Nat :=
  t.rows.map fun r => rowFlag 0 (sumCounts ((rowEntries t blk r).map (d.entryCounts t)))

/-- The outputs of a task: one row's bytes per query row, its statistics, and what the edge counts for it (R193, R194). -/
def attOutputs (t : AttTask) : List (List Byte) × List (List Byte) × List EdgeCount :=
  let one := fun (m : Merge) =>
    let cs := m.o.map fun o =>
      if m.started then convertOne .bf16 .nearest false (fpVal (fpDiv (o, 0) (m.l, 0)).1) else (0, {})
    (cs.flatMap fun c => le c.1 2, sumCounts (cs.map (·.2)))
  let r := t.merge.map one
  ((groupsOf t.body.qHeads t.body.m r).map fun row => row.flatMap (·.1),
   (groupsOf t.body.qHeads t.body.m t.merge).map fun row => row.flatMap fun m =>
     if m.started then le m.m.toNat 4 ++ le m.l.toNat 4 else List.replicate 8 0,
   (groupsOf t.body.qHeads t.body.m r).map fun row => sumCounts (row.map (·.2)))

/-! ## Gradients (R196) -/

/-- Gradients under way: dQ per row and head, dK and dV per row and KV head, and clips. -/
structure Grads where
  dq : List (List Word)
  dk : List (List Word)
  dv : List (List Word)
  clips : Nat := 0
  deriving DecidableEq, Repr

/-- acc[i] + ((a × x[i]) × s) × t, element by element, with clips. -/
def addScaled (acc : List Word) (a : Word) (xs : List Exact) (s t : Word) : List Word × Nat :=
  let r := acc.zipWith (fun o x => fpAdd (o, 0) (fpMul (fpMul (fpMul (a, 0) (fpRound x)) (s, 0)) (t, 0))) xs
  (r.map (·.1), (r.map (·.2)).sum)

/-- One key of one row and head enters the gradients (R196). `z` stands for a quotient by l = 0 (log entry 3). -/
def gradKey (t : AttTask) (z : Word) (i h g : Nat) (dO : List Exact) (D m l : Word) (k : BlockKey) (gr : Grads) : Grads :=
  let b := t.body
  let n := i * b.qHeads + h
  let q := (t.q8.getD n []).map e4m3Val
  let sq := t.sq.getD n 0
  let sk := t.kvs.getD g 0
  let sv := t.kvs.getD (b.kvHeads + g) 0
  let s := fpMul (dotAll q k.key) (scoreFactor b sq sk, 0)
  let e := fpMul (fpExp (fpAdd (s.1, 0) (fpNeg m, 0)).1, 0) (0x43800000, 0)
  let p : Word × Nat := if (fpVal l).num = 0 then (z, 0) else fpDiv e (l, 0)
  let dp := fpMul (dotAll dO k.val) (sv, 0)
  let ds := fpMul p (fpAdd dp (fpNeg D, 0))
  let sk2 := fpMul (sk, 0) (0x40000000, 0)
  let row := t.rows.findIdx fun r => decide (r.position = k.pos) && rowSees t.rows (t.rows.getD i {}) r
  let kn := row * b.kvHeads + g
  let dq := addScaled (gr.dq.getD n []) ds.1 k.key sk2.1 b.softmax
  let dk := addScaled (gr.dk.getD kn []) ds.1 q sq b.softmax
  let dv := (gr.dv.getD kn []).zipWith (fun o x => fpAdd (o, 0) (fpMul p (fpRound x))) dO
  { dq := upd gr.dq n fun _ => dq.1
    dk := upd gr.dk kn fun _ => dk.1
    dv := upd gr.dv kn fun _ => dv.map (·.1)
    clips := gr.clips + s.2 + dp.2 + ds.2 + dq.2 + dk.2 + (dv.map (·.2)).sum }

/-- One block enters the gradients of the rows of the group in turn: rows ascending, heads ascending within a row, keys
ascending within a head (R180, R196). `z` stands for a quotient by l = 0 (log entry 3). -/
def Dev.gradRows (d : Dev) (t : AttTask) (z : Word) (blk : Nat) : Grads :=
  let b := t.body
  (List.range (b.m * b.qHeads)).foldl (fun (gr : Grads) n =>
    let i := n / b.qHeads
    let h := n % b.qHeads
    let g := h * b.kvHeads / b.qHeads
    if i / 64 = t.group then
      let dO := (t.gradOut.getD n []).map fun c => (edgeElem .e5m2 .fp32 false c).1
      let st := t.stats.getD n (0, 0)
      ((d.blockKeys t t.buffer (t.rows.getD i {}) g blk).filterMap id).foldl
        (fun gr k => gradKey t z i h g dO (t.dsum.getD n 0) st.1 st.2 k gr) gr
    else gr) { dq := t.dq, dk := t.dk, dv := t.dv }

/-- A gradient vector converted to FP8 E5M2 (R196). -/
def gradBytes (ws : List Word) : List Byte × EdgeCount :=
  let r := ws.map fun w => convertOne .e5m2 .nearest false (fpVal w)
  (r.map fun c => BitVec.ofNat 8 c.1, sumCounts (r.map (·.2)))

/-- The outputs of a backward task: dQ, and per row dK for all KV heads and then dV (R196); with counts and clips. -/
def gradOutputs (t : AttTask) : List Byte × List Byte × EdgeCount × Nat :=
  let b := t.body
  let back := fun (n : Nat) (v : List Word) => rope b t.omega (t.rows.getD n {}).position true v
  let dq := t.dq.zipIdx.map fun v => back (v.2 / b.qHeads) v.1
  let dk := t.dk.zipIdx.map fun v => back (v.2 / b.kvHeads) v.1
  let qb := gradBytes (dq.flatMap (·.1))
  let kb := (List.range b.m).map fun i => gradBytes
    ((((dk.map (·.1)).drop (i * b.kvHeads)).take b.kvHeads).flatten ++ ((t.dv.drop (i * b.kvHeads)).take b.kvHeads).flatten)
  (qb.1, kb.flatMap (·.1), qb.2.add (sumCounts (kb.map (·.2))), (dq.map (·.2)).sum + (dk.map (·.2)).sum)

/-! ## A task in progress -/

/-- What a task has left to do before its blocks: reads of its start, copies or appends. -/
def AttTask.early (t : AttTask) : Bool := decide (t.stage < 2) || decide (t.prep < (prepSteps t.body t.rows).length)

/-- The pages of a task's first block left have all arrived. -/
def Dev.blockReady (d : Dev) (t : AttTask) : Bool :=
  match t.blocks with
  | [] => false
  | blk :: _ => (d.blockPages t.body t.rows blk).all fun p => (look t.buffer p).isSome

/-- The task after the row group in turn of its first block: the next group, or the next block and the pages that later blocks
need (R180, R195). -/
def Dev.groupDone (d : Dev) (t : AttTask) : AttTask :=
  if t.group + 1 < t.body.groups then { t with group := t.group + 1 }
  else
    let rest := t.blocks.tail
    let later := rest.flatMap fun k => d.blockPages t.body t.rows k
    { t with group := 0, blocks := rest, buffer := t.buffer.filter fun p => later.contains p.1 }

/-- One row group of the first block left enters the merge, or the gradients, once the block's pages have arrived; the edge
counts the block's entries with its first group (R180, R195, R196). -/
def Dev.mergeUnit (d : Dev) (slot task : Nat) : Dev :=
  match d.att.tasks.find? fun t => decide (t.slot = slot) && decide (t.task = task) with
  | none => d
  | some t =>
    match t.blocks with
    | [] => d
    | blk :: _ =>
      if !d.blockReady t then d
      else
        let ec := if t.group = 0 then d.blockCounts t blk else {}
        let fl := if t.group = 0 then d.blockFlags t blk else []
        let (z, d) := d.draw
        let (u, clips) := if t.body.mode = 3 then
            let gr := d.gradRows t z blk
            ({ t with dq := gr.dq, dk := gr.dk, dv := gr.dv, flags := t.flags ||| accFlag gr.clips }, gr.clips)
          else
            let m := d.mergeRows t blk
            ({ t with merge := m.1, rowFlags := orRows t.rowFlags (rowsFrom 0 (m.2.map accFlag)) }, m.2.sum)
        let u := { u with rowFlags := orRows u.rowFlags (rowsFrom 0 fl) }
        ((d.edge Off.wdeEdgeStatus ec).accClipped clips).modAtt slot task fun _ => d.groupDone u

/-- What a task writes at its end, with clips and what the edge counts: for each row, or for the whole of a backward task
(R193, R194, R196). -/
def attWrites (t : AttTask) : List (Nat × List Byte) × List EdgeCount × Nat :=
  let b := t.body
  if b.mode = 3 then
    let g := gradOutputs t
    ([(b.output, g.1), (b.gradKv, g.2.1)], [g.2.2.1], g.2.2.2)
  else
    let o := attOutputs t
    (o.1.zipIdx.map (fun x => (b.output + x.2 * (2 * b.qHeads * b.headDim), x.1)) ++
      (if b.mode = 2 then o.2.1.zipIdx.map fun x => (b.stats + x.2 * (8 * b.qHeads), x.1) else []), o.2.2, 0)

/-- Rows of a forward task that saw no key (R193). -/
def emptyRows (t : AttTask) : Nat :=
  if t.body.mode = 3 then 0
  else ((groupsOf t.body.qHeads t.body.m t.merge).filter fun row => row.all fun m => !m.started).length

/-- A task with no block left writes its outputs and ends (R193, R194, R196). -/
def Dev.attFinish (d : Dev) (slot task : Nat) : Dev :=
  match d.att.tasks.find? fun t => decide (t.slot = slot) && decide (t.task = task) with
  | none => d
  | some t =>
    if t.blocks ≠ [] ∨ t.early then d
    else
      let w := attWrites t
      Dev.attAct (Acc.chk (d.writeAll (d.reader 5 0 slot task) t.space w.1)) slot task t.space fun _ d =>
        let ec := sumCounts w.2.1
        let d := ((d.countFlag Off.attStatus 7 Off.attEmptyRows (emptyRows t)).edge Off.wdeEdgeStatus ec).accClipped w.2.2
        let fl := if t.body.mode = 3 then [] else rowsFrom 0 (w.2.1.map EdgeCount.quality)
        let all := if t.body.mode = 3 then rowFlag w.2.2 ec else 0
        ({ d with att := { d.att with tasks := d.att.tasks.filter fun u => !(decide (u.slot = slot) && decide (u.task = task)) } }).endTaskRows
          slot task (t.flags ||| all) (orRows t.rowFlags fl)

/-- The reads of a task's start, its copies and its appends that are left are done; then a task without blocks ends (R182,
R189, R203). -/
def Dev.attGo (d : Dev) (slot task : Nat) : Dev :=
  match d.att.tasks.find? fun t => decide (t.slot = slot) && decide (t.task = task) with
  | none => d
  | some t =>
    let r := d.reader 5 0 slot task
    Dev.attAct (Chk.thn (d.attRows r t) fun t d => Chk.thn (d.attArrays r t) fun t d =>
        d.prepare r t ((prepSteps t.body t.rows).drop t.prep)) slot task t.space
      fun _ d => d.attFinish slot task

/-- The attention task issued first, of the forward or of the backward modes, is checked and starts, once no other task holds
the engine (R180, R182, R281). -/
def Dev.attStart (d : Dev) (back : Bool) : Dev :=
  if !d.wideIdle then d
  else
    match d.issuedWhere 3 fun k => decide (k % 16 = 3) == back with
    | none => d
    | some (slot, task) =>
      Dev.act (d.loadAtt slot task) 5 0 slot task (d.slot slot).space fun t d =>
        (({ d with att := { d.att with tasks := d.att.tasks ++ [t] } }).startTask slot task).attGo slot task

/-- ATTENTION_FORWARD: a forward task starts; it compacts and appends (R182, R189, R194, R203). -/
def Dev.attentionForward (d : Dev) : Dev := d.attStart false

/-- ATTENTION_BACKWARD: a backward task starts; its gradients form as its pages arrive (R182, R196, R198). -/
def Dev.attentionBackward (d : Dev) : Dev := d.attStart true

/-- The attention task that the unit serves: by rank and issue order among those that run (R180). -/
def Dev.attNext (d : Dev) (p : AttTask → Bool) : Option AttTask :=
  (d.firstTask ((d.att.tasks.filter fun t => !t.saved && !d.stopped t.slot t.task && p t).map fun t =>
    (t.slot, t.task))).bind fun k => d.att.tasks.find? fun t => decide (t.slot = k.1) && decide (t.task = k.2)

/-- An attention task has read a KV page (R28, R198). -/
def Dev.countPage (d : Dev) : Dev :=
  (d.bump64 Off.attPagesReadLo).measure fun h => { h with winKv := h.winKv + 65536 }

/-- The next page of a task, in ascending block order, that it has not read (R198). -/
def Dev.nextPage (d : Dev) (t : AttTask) : Option Nat :=
  (t.blocks.flatMap fun k => d.blockPages t.body t.rows k).find? fun p => !t.pagesRead.contains p

/-- PAGE_ARRIVAL: the next page of the running task arrives, is read once, and a row group of the block whose turn has come is
merged; where its pages are there already, its next row group is (R180, R194, R195, R198; log entry 107). A task stopped in the
reads of its start, in its copies, appends or outputs goes on with those first. Under HOLD no block starts (R207). -/
def Dev.pageArrival (d : Dev) : Dev :=
  match d.attNext fun t => !d.marked t.slot t.task with
  | none => d
  | some t =>
    if t.early || decide (t.blocks = []) then d.attGo t.slot t.task
    else if d.bitAt Off.attCtrl 16 && decide (t.group = 0) then d
    else if d.blockReady t then (d.mergeUnit t.slot t.task).attFinish t.slot t.task
    else
      match d.nextPage t with
      | none => d
      | some va =>
        match d.readVa (d.reader 5 0 t.slot t.task) t.space va 65536 with
        | (.ok l, d) =>
          let d := d.countPage.modAtt t.slot t.task fun t =>
            { t with pagesRead := t.pagesRead ++ [va], buffer := t.buffer ++ [(va, l)] }
          (d.mergeUnit t.slot t.task).attFinish t.slot t.task
        | (.fault f, d) => Dev.attAct (α := Unit) (.fault f, d) t.slot t.task t.space fun _ d => d
        | (.bad, d) =>
          (d.dataBad t.slot).kvLost t.space va ((va % 2 ^ 38 / 65536 - t.body.layerSlot * t.body.layerStride) * t.body.perPage)

/-! ## Saves, resumptions and quarantine -/

/-- ATTENTION_SAVE: a marked task stops at the end of its block and saves its merge state (R180). -/
def Dev.attentionSave (d : Dev) : Dev :=
  match d.attNext fun t => d.marked t.slot t.task with
  | none => d
  | some t => d.saveAtt t.slot t.task

/-- ATTENTION_RESUME: a saved task continues from its saved block (R195, R289). -/
def Dev.attentionResume (d : Dev) : Dev :=
  if !d.wideFree then d
  else
  match d.firstTask ((d.att.tasks.filter fun t => t.saved && d.canResume t.slot t.task).map fun t => (t.slot, t.task)) with
  | none => d
  | some (slot, task) => (d.modAtt slot task fun t => { t with saved := false }).setTask slot task .running

/-- QUARANTINE_END: a frame in quarantine since tick t is FREE from tick t + 2 on (R199, R200). The frame is named by its
physical address in units of 64 KiB. -/
def Dev.quarantineEnd (d : Dev) (frame : Nat) : Dev :=
  match d.frameRec (65536 * frame) with
  | none => d
  | some k => if k.state = .quarantine ∧ k.since + 2 ≤ d.grf.tick then d.freeFrame (65536 * frame) else d

/-- ATTENTION_FORWARD (R194). -/
def execAttentionForward (s : State) : Host.Outcome State Fault Refusal := lift Dev.attentionForward s
/-- ATTENTION_BACKWARD (R196). -/
def execAttentionBackward (s : State) : Host.Outcome State Fault Refusal := lift Dev.attentionBackward s
/-- PAGE_ARRIVAL (R195). -/
def execPageArrival (s : State) : Host.Outcome State Fault Refusal := lift Dev.pageArrival s
/-- ATTENTION_SAVE (R180). -/
def execAttentionSave (s : State) : Host.Outcome State Fault Refusal := lift Dev.attentionSave s
/-- ATTENTION_RESUME (R289). -/
def execAttentionResume (s : State) : Host.Outcome State Fault Refusal := lift Dev.attentionResume s
/-- QUARANTINE_END (R199). -/
def execQuarantineEnd (frame : Nat) (s : State) : Host.Outcome State Fault Refusal := lift (·.quarantineEnd frame) s

end Sys2Proof.Machine
end

