-- ==== Sys2Proof/Machine/Currant.lean ====
section
/-! DEFINITION. Currant's audits and the mirror of the outlier tables (R115, R123-R128). -/

namespace Sys2Proof.Machine

/-! ## The mirror (R114, R115) -/

/-- A placed table is written to its place in the mirror's part of the staging SRAM (R115). -/
def Dev.placeTable (d : Dev) (t : LogTile) : Dev := d.writePa t.mirrorAt (t.tableImage (t.phys.getD 0))

/-- The mirror is rebuilt at a tick: tables of READY tiles in ascending logical tile, those that do not fit passed over
(R115). -/
def Dev.rebuildMirror (d : Dev) : Dev :=
  let space := d.fld Off.curMirrorSize 8 0 * 2 ^ 20
  let r := d.pln.logical.foldl (fun (x : List (Nat × LogTile) × Nat × Nat) e =>
    if d.tileState e.1 = .ready ∧ e.2.outliers ≠ [] then
      let n := e.2.tableBytes
      if x.2.1 + n ≤ space then
        (x.1 ++ [(e.1, { e.2 with mirrored := true, mirrorAt := mirrorArea + x.2.1 })], x.2.1 + n, x.2.2)
      else (x.1 ++ [(e.1, { e.2 with mirrored := false })], x.2.1, x.2.2 + 1)
    else (x.1 ++ [(e.1, { e.2 with mirrored := false })], x.2.1, x.2.2)) ([], 0, 0)
  let d := { d with pln := { d.pln with logical := r.1 }, cur := { d.cur with mirrorStale := false } }
  let d := (r.1.filter fun e => e.2.mirrored).foldl (fun d e => d.placeTable e.2) d
  let d := (d.setReg Off.curMirrorUsed ((r.2.1 + 1023) / 1024)).setReg Off.curMirrorOut r.2.2
  if r.2.2 = 0 then d else d.setBit Off.curStatus 7

/-! ## The tolerance (R125) -/

/-- σ_g in hundredths of an LSB (R125). -/
def sigmaOf : Nat → Nat
  | 0 => 25 | 1 => 30 | 2 => 40 | _ => 55

/-- By how much |q − E / LSB| exceeds τ, in LSB rounded up; 0 where it does not (R125). `d4` is D in quarters, `dt` ΔT in
whole degrees, `k` the value of K in sixteenths. -/
def missExcess (g k d4 dt : Nat) (q e : Int) : Nat :=
  let lsb := lsbOf g
  let lhs := 8000 * (q * lsb - e).natAbs
  let rhs := 6400 * lsb + 32 * e.natAbs + 200 * d4 * lsb + 160 * dt * lsb + 5 * k * sigmaOf g * lsb
  if lhs ≤ rhs then 0 else (lhs - rhs + 8000 * lsb - 1) / (8000 * lsb)

/-- The columns of a record that miss against their exact sums, with the excess of each (R125). -/
def missesOf (g k d4 dt : Nat) (codes sums : List Int) : List (Nat × Nat) :=
  (codes.zip sums).zipIdx.filterMap fun x =>
    if saturated x.1.1 then none
    else
      let m := missExcess g k d4 dt x.1.1 x.1.2
      if m = 0 then none else some (x.2, m)

/-- The misses of a record, judged by sums over the master copy with ACHIEVED where the outlier table has an entry (R120,
R125). -/
def recordMisses (e : AuditEntry) (t : LogTile) (master : List (List Nat)) (d4 dt : Nat) (c : CodeRec) : List (Nat × Nat) :=
  missesOf e.range e.k d4 dt c.codes (exactSums t master e.transposed e.phases c.phase (e.drives.getD c.shot []))

/-! ## Audits (R125-R127) -/

/-- A failure of the tile waits for its tick, or may follow from a pending firing of it: what the failure affects stays
affected (R126, R127). -/
def Dev.failurePending (d : Dev) (l : Nat) : Bool :=
  (d.cur.failing.any fun f => decide (f.1 = l)) || d.cur.firings.any fun f => decide (f.audit.logical = l)

/-- A passed audit: earlier outputs of the tile are no longer affected by a later failure, unless an earlier audit of it has
failed or may still fail (R127). -/
def Dev.passAudit (d : Dev) (e : AuditEntry) : Dev :=
  let d := d.auditDone e false
  if d.failurePending e.logical then d
  else
    { d with cur := { d.cur with affected := d.cur.affected.filter fun a =>
        !(decide (a.1 = e.logical) && decide (a.2.1 ≤ e.serial)) } }

/-- The audit fails without a firing: the tile has received a correction since capture, or is no longer READY (R126). -/
def Dev.auditStale (d : Dev) (e : AuditEntry) : Bool :=
  match d.log e.logical with
  | some t => decide (t.epoch ≠ e.epoch) || decide (d.tileState e.logical ≠ .ready)
  | none => true

/-- The output tiles of an audit, and the rows that they take: its records are the rows, the sensed lines the columns and
the driven lines the depth of a product of the 8-bit class (R134, R135; log entry 64). -/
def LogTile.auditGrid (t : LogTile) (e : AuditEntry) : Nat × Nat :=
  if e.transposed then wideGrid 256 (max e.codes.length 1) t.nrows t.ncols
  else wideGrid 256 (max e.codes.length 1) t.ncols t.nrows

/-- The entry in the staging SRAM, the tile's outlier table and its master copy, as an audit reads them (R124, R125). -/
def Dev.auditReads (d : Dev) (e : AuditEntry) (t : LogTile) : Chk (List (List Nat)) × Dev :=
  let r : Reader := { cls := 4, graph := e.slot, task := e.task, request := e.request }
  let x := d.checkPa r (auditArea e.place) auditBytes
  Chk.thn (if x.1 then .ok () else .bad, x.2.2) fun _ d =>
  Chk.thn (d.tableChk r e.logical (t.phys.getD 0) t) fun _ d =>
    Dev.masterChk (d.masterCodes r t) t

/-- An audit ends without a judgement, and is counted as skipped (R124, R158). DESIGN CHOICE (log entry 96): R125 gives no
outcome for an audit whose reads meet an uncorrectable word or a host page that ends in error; it is not counted in
CUR_AUDITS, and fails no graph. -/
def Dev.dropAudit (d : Dev) (e : AuditEntry) : Dev := (d.auditDone e false).skipAudit

/-- An audit whose products are complete is judged (R125, R126). -/
def Dev.judgeAudit (d : Dev) (e : AuditEntry) (t : LogTile) : Dev :=
  match d.auditReads e t with
  | (.ok master, d) =>
    let d := d.bump64 Off.curAuditsLo
    let ms := e.codes.flatMap fun c =>
      (recordMisses e t master e.decades e.warmer c).map fun m => (m.1, c.shot, m.2)
    if ms = [] then d.passAudit e
    else
      let worst := (ms.map (·.2.2)).foldl max 0
      let d := d.bump Off.curAuditMisses
      if d.auditStale e then (d.failAudit e worst false).auditDone e true
      else
        { d with cur := { d.cur with firings := d.cur.firings ++
            [{ audit := e, shots := (ms.map (·.2.1)).dedup, cols := (ms.map fun m => (m.1, m.2.1)).dedup
               missExcess := worst }] } }
  | (_, d) => d.dropAudit e

/-- AUDIT_RUN: one tile slot of the wide engine goes to the oldest entry of the queue, which is judged at its last one (R125,
R126, R156). -/
def Dev.auditRun (d : Dev) : Dev :=
  match d.cur.queue with
  | [] => d
  | e :: rest =>
    if d.bitAt Off.wdeCtrl 0 || !d.auditMay then d
    else
      let d := { d with cur := { d.cur with queue := rest }, wde := { d.wde with slotCount := 0 } }
      match d.log e.logical with
      | none => d.dropAudit e
      | some t =>
        let g := t.auditGrid e
        let d := (d.bumpWrap Off.wdeAuditTiles).wideWork 1 (g.2 / max g.1 1)
        let e := { e with tilesDone := e.tilesDone + 1 }
        if e.tilesDone < g.1 then { d with cur := { d.cur with queue := e :: rest } } else d.judgeAudit e t

/-- A confirmation firing fires one shot with the tile's active bank: its records (R126). -/
def Dev.fireShot (d : Dev) (e : AuditEntry) (p shot : Nat) : List CodeRec × Dev :=
  let lv := e.drives.getD shot []
  (phaseSets e.transposed e.phases).zipIdx.foldl (fun (x : List CodeRec × Dev) ph =>
    if zeroSlice ph.1 lv then x
    else
      let (c, d) := x.2.fireTile p (d.phys p).active e.transposed e.range ph.1 lv 0 shot ph.2
      (x.1 ++ [c], d)) ([], d)

/-- The array steps of a number of phases (R67, R87). -/
def stepsOf (transposed : Bool) (n : Nat) : Nat := if transposed then 2 * n else n

/-- One shot of a pending firing has fired, and its codes are judged again with D and ΔT of the firing (R125, R126). -/
def Dev.confirmShot (d : Dev) (f : Firing) (t : LogTile) (p shot : Nat) (shots : List Nat) : Dev :=
  let e := f.audit
  let (cs, d) := d.fireShot e p shot
  let d := d.bump64 Off.plnStepsLo (stepsOf e.transposed cs.length)
  let (d4, dt) := (d.phys p).ages d.now (d.dieTemp (dieOf p))
  match d.auditReads e t with
  | (.ok master, d) =>
    let again := cs.flatMap fun c => (recordMisses e t master d4 dt c).filter fun m => f.cols.contains (m.1, shot)
    let f := { f with shots := shots, failed := f.failed || decide (again ≠ [])
                      excess := (again.map (·.2)).foldl max f.excess }
    if shots ≠ [] then { d with cur := { d.cur with firings := f :: d.cur.firings } }
    else if f.failed then (d.failAudit e f.excess false).auditDone e true
    else d.passAudit e
  | (_, d) => d.dropAudit e

/-- CONFIRMATION_FIRING: the oldest pending firing runs one shot between step units, and its codes are judged again
(R126). -/
def Dev.confirmationFiring (d : Dev) : Dev :=
  match d.cur.firings with
  | [] => d
  | f :: rest =>
    let e := f.audit
    let d := { d with cur := { d.cur with firings := rest } }
    let fail := (d.failAudit e f.missExcess false).auditDone e true
    match d.log e.logical, f.shots with
    | some t, shot :: shots =>
      match t.phys with
      | some p => if d.auditStale e then fail else d.confirmShot f t p shot shots
      | none => fail
    | _, _ => fail

/-- The outputs affected by a failed audit are reissued when its tile has become SUSPECT (R127, R336). -/
def Dev.reissueAffected (d : Dev) : Dev :=
  let waits := fun (f : Nat × Nat) =>
    match d.log f.1 with
    | some t => t.due.contains .toSuspect || t.held.contains .toSuspect
    | none => false
  let ready := d.cur.failing.filter fun f => !waits f
  let hit := d.cur.affected.filter fun a => ready.any fun f => decide (f.1 = a.1) && decide (f.2 ≤ a.2.1)
  let d := { d with cur := { d.cur with
      failing := d.cur.failing.filter waits
      affected := d.cur.affected.filter fun a => !(ready.any fun f => decide (f.1 = a.1)) } }
  ((hit.map (·.2.2.1)).dedup).foldl (fun d id =>
    let ps := (hit.filter fun a => decide (a.2.2.1 = id)).map (·.2.2.2)
    d.reissue id (ps.foldl min (ps.headD 0))) d

/-- AUDIT_RUN (R125). -/
def execAuditRun (s : State) : Host.Outcome State Fault Refusal := lift Dev.auditRun s
/-- CONFIRMATION_FIRING (R126). -/
def execConfirmationFiring (s : State) : Host.Outcome State Fault Refusal := lift Dev.confirmationFiring s

end Sys2Proof.Machine
end

