-- ==== Sys2Proof/Machine/Programs.lean ====
section
/-! DEFINITION. Tile programming: program tasks, rounds, write-and-verify, edition records, re-attach, the endurance
window and the tile snapshot (R92-R97, R105, R112-R114, R343, R348, R351). -/

namespace Sys2Proof.Machine

/-! ## Read-only master pages (R343) -/

/-- WRITE is cleared in every mapping of a physical page, and cached translations of it are dropped (R343). -/
def Dev.protectPage (d : Dev) (pa : Nat) : Dev :=
  if hostPage ≤ pa then d
  else
    (d.mmu.maps.foldl (fun d m =>
      (m.pages.zipIdx).foldl (fun d p =>
        if m.memory < 3 ∧ p.1 ≤ pa ∧ pa < p.1 + m.page then
          (d.mapPage m.space (m.va + p.2 * m.page) m.page 0 p.1 false m.kv).getD d
        else d) d) d).dropTlb fun t => decide (t.target = 0) && decide (t.pa ≤ pa) && decide (pa < t.pa + t.bytes)

/-- A page of device memory that holds part of a master copy is mapped read-only in space 0, in Damson's range (R212,
R343). -/
def Dev.exposePage (d : Dev) (pa : Nat) : Dev :=
  if hostPage ≤ pa then d else (d.mapPage 0 (damsonVa pa) 4096 0 pa false false).getD d

/-- The pages of device memory that hold the master copies of recorded editions (R343, R349). -/
def Pln.masterPages (p : Pln) : List Nat :=
  ((p.logical.flatMap fun x => x.2.pages).filter fun a => decide (a < 2 ^ 60)).dedup

/-- A block of memory holds part of the master copy of a live edition, so that it stays allocated (R343). -/
def Dev.masterHeld (d : Dev) (a n : Nat) : Bool :=
  d.pln.logical.any fun x => x.2.pages.any fun p => decide (a ≤ p) && decide (p < a + n)

/-- Pages that no edition names any more lose their place in Damson's range of space 0 (R343). -/
def Dev.hidePages (d : Dev) (ps : List Nat) : Dev :=
  (ps.filter fun a => decide (a < 2 ^ 60) && !d.masterHeld a 4096).dedup.foldl (fun d a =>
    (d.unmapPage 0 (damsonVa a) 4096).dropRange 0 (damsonVa a) 4096) d

/-- The edition record of a tile is written, and the pages that hold its master copy become read-only (R343). -/
def Dev.recordEdition (d : Dev) (l : Nat) (t : LogTile) : Dev :=
  let d := { d with pln := { d.pln with logical := put d.pln.logical l t } }
  let used := t.pages.zipIdx.filter fun p =>
    (List.range t.nrows).any fun i =>
      decide ((t.masterOff + t.rowOff i) / 4096 ≤ p.2) && decide (p.2 * 4096 < t.masterOff + t.rowOff i + t.rowBytes)
  used.foldl (fun d p => (d.protectPage p.1).exposePage p.1) d

/-! ## Clip levels (R112) -/

/-- The clip level of a format and slice under a value of CUR_WEIGHT_CLIP (R112). DESIGN CHOICE (log entry 100): a TER2 weight
is never clipped and has no clip level; the CLIP field of its table header, which R114 gives no value, is then 1, the
largest level that a TER2 weight takes. -/
def clipOf (reg : Word) (f : NumFmt) (slice : Nat) : Nat :=
  match f with
  | .ter2 => 1
  | .int3 => bits reg.toNat 3 0
  | .fp4 => bits reg.toNat 11 8
  | _ => if slice = 2 then bits reg.toNat 15 12 else bits reg.toNat 7 4

/-- A level clamped to the clip level (R112). -/
def clampLevel (c : Nat) (m : Int) : Int := max (-(c : Int)) (min c m)

/-- Clipped entries of a tile (R112-R114). -/
def clippedEntries (c : Nat) (m : List (List Int)) : List OutlierEntry :=
  m.zipIdx.flatMap fun r => r.1.zipIdx.filterMap fun x =>
    if clampLevel c x.1 = x.1 then none
    else some { row := r.2, col := x.2, master := x.1, achieved := clampLevel c x.1 }

/-! ## Starting a program task (R95, R97, R113, R348) -/

/-- A logical tile as a program task records it (R343). -/
def newLog (b : PlaneBody) (e : TileEntry) (pages : List Nat) (off : Nat) : LogTile :=
  { state := .programming, edition := b.edition, format := b.wfmt, slice := e.slice, rows := b.rows, cols := b.cols
    rowTile := e.rowTile, colTile := e.colTile, masterOff := off, pages := pages }

/-- The task is a re-attach of a master-absent edition, or of master-damaged tiles alone (R351, R402). -/
def Dev.isReattach (d : Dev) (b : PlaneBody) (es : List TileEntry) : Bool :=
  d.editionAbsent b.edition ||
    es.all fun e => match d.log e.logical with
      | some t => decide (t.edition = b.edition) && t.masterDamaged
      | none => false

/-- Where each tile of a list goes: its home, the lowest FREE usable tile of its die, or nowhere (R348). -/
def Dev.placeTiles (d : Dev) (es : List TileEntry) : List (TileEntry × Option Nat) :=
  (es.foldl (fun (x : List (TileEntry × Option Nat) × List Nat) e =>
    let home := homeTile e.logical
    let ok := fun (p : Nat) => decide ((d.phys p).state = .free) && !d.taken.contains p && !x.2.contains p
    let p := if ok home then some home else (d.freesOf (e.logical / 6144)).find? ok
    (x.1 ++ [(e, p)], match p with
      | some p => x.2 ++ [p]
      | none => x.2)) ([], [])).1

/-- The clipped entries of every tile stay within the budget (R113); a bad word aborts. -/
def Dev.countClipped (d : Dev) (r : Reader) (b : PlaneBody) (es : List TileEntry) (pages : List Nat) (off : Nat)
    (reg : Word) : Chk Unit × Dev :=
  es.foldl (fun (x : Chk Unit × Dev) e =>
    Chk.thn x fun _ d =>
      let t := newLog b e pages off
      let f := weightFmt b.wfmt
      Chk.thn (Dev.masterChk (d.masterCodes r t) t) fun cs d =>
        let m := cs.map fun row => row.map (levelOf f e.slice)
        tests [(decide ((clippedEntries (clipOf reg f e.slice) m).length ≤ 16875), 0x0201)] () d) (.ok (), d)

/-- Tile programs that a task charges: those placed on a tile that is not worn out (R96, R97). -/
def Dev.charged (d : Dev) (ps : List (TileEntry × Option Nat)) : Nat :=
  (ps.filter fun p => match p.2 with
    | some q => decide ((d.phys q).wear < 10000000)
    | none => false).length

/-- The digest of a tile's master bytes for its record; a read that fails leaves the digest recorded (R344). -/
def Dev.recordDigest (d : Dev) (r : Reader) (t : LogTile) : Nat × Dev :=
  match d.masterDigest r t with
  | (.ok g, d) => (g, d)
  | (_, d) => (t.digest, d)

/-- A tile that no physical tile serves is recorded; it enters DIGITAL at the next tick (R348). -/
def Dev.placeNowhere (d : Dev) (r : Reader) (l : Nat) (t : LogTile) : Dev :=
  let (g, d) := d.recordDigest r t
  d.recordEdition l { t with digest := g, due := [.toDigital] }

/-- A worn-out tile is retired and a spare takes its place (R96, R98). -/
def Dev.placeWorn (d : Dev) (r : Reader) (l p : Nat) (t : LogTile) : Dev :=
  let (g, d) := d.recordDigest r t
  let d := d.recordEdition l { t with digest := g, phys := some p }
  (d.modPhys p fun x => { x with logical := some l }).retireTile p

/-- The checked form of a program task: body, list, pages and offset of the master copy. -/
structure ProgSetup where
  body : PlaneBody := {}
  entries : List TileEntry := []
  pages : List Nat := []
  off : Nat := 0
  deriving DecidableEq, Repr

/-- The body and tile list of an issued program task, and the pages of its master copy. -/
def Dev.loadProg (d : Dev) (r : Reader) (slot task space : Nat) : Chk ProgSetup × Dev :=
  Chk.thn (d.readBody slot task 64) fun l d =>
  Chk.thn (checkPlane l d) fun b d =>
  Chk.thn (d.loadList r space b) fun es d =>
    (.ok { body := b, entries := es, off := b.input % 4096 }, d)

/-- The pages of the master copy that a program task names. -/
def Dev.loadPages (d : Dev) (r : Reader) (space : Nat) (p : ProgSetup) : Chk ProgSetup × Dev :=
  Chk.thn (d.pagesOf r space p.body.input (p.body.rows * rowStride (weightFmt p.body.wfmt) p.body.cols)) fun ps d =>
    (.ok { p with pages := ps }, d)

/-- PLANE_PROGRAM: a program task is checked, its tiles are placed and its rounds queued (R95, R97, R112, R113, R348). DESIGN
CHOICE (log entry 99): no rule orders the tests of R113 and R97; a task that fails both is rejected with
WEIGHT_OUTLIER_BUDGET, and is not counted in PLN_BUDGET_REJECTS. -/
def Dev.planeProgram (d : Dev) : Dev :=
  if d.pln.prog.any fun p => decide (p.slot < 16) && !p.held then d
  else
    match d.issuedWhere 1 fun k => decide (k % 16 = 3) with
    | none => d
    | some (slot, task) =>
      let space := (d.slot slot).space
      let r := d.reader 2 0 slot task
      let reg := BitVec.ofNat 32 (d.reg Off.curWeightClip)
      match (d.loadProg r slot task space).1 with
      | .ok p0 =>
        if d.isReattach p0.body p0.entries then d
        else
          let exceeds := fun (d : Dev) (ps : List (TileEntry × Option Nat)) =>
            decide (d.charged ps ≠ 0) && decide (d.reg Off.plnBudget < d.reg Off.plnBudgetUsed + d.charged ps)
          Dev.act (Chk.thn (d.loadProg r slot task space) fun p d =>
              Chk.thn (tests [(p.entries.all fun e => (d.log e.logical).isNone, 0x0107)] p d) fun p d =>
              Chk.thn (d.loadPages r space p) fun p d =>
              Chk.thn (d.countClipped r p.body p.entries p.pages p.off reg) fun _ d =>
                let ps := d.placeTiles p.entries
                if exceeds d ps then
                  (.reject 0x0108, (d.bump Off.plnBudgetRejects).setBit Off.plnStatus 5)
                else (.ok (p, ps), d))
            2 0 slot task space fun x d =>
              let (p, ps) := x
              let d := ps.foldl (fun d e =>
                let t := newLog p.body e.1 p.pages p.off
                match e.2 with
                | none => d.placeNowhere r e.1.logical t
                | some q => if (d.phys q).wear < 10000000 then d else d.placeWorn r e.1.logical q t) d
              let todo := ps.filterMap fun e => match e.2 with
                | some q => if (d.phys q).state = .retired then none else some (e.1.logical, q)
                | none => none
              if todo = [] then d.endTask slot task 0
              else
                let t : ProgTask :=
                  { slot := slot, task := task, clipReg := reg, body := p.body, entries := p.entries
                    pages := p.pages, masterOff := p.off, todo := todo }
                ({ d with pln := { d.pln with prog := d.pln.prog ++ [t] } }).setTask slot task .running
      | _ =>
        Dev.act (d.loadProg r slot task space) 2 0 slot task space fun _ d => d

/-! ## Rounds (R92-R94, R96) -/

/-- The record of a tile whose program starts: a program task's new one, or the one that stands (R98, R103). -/
def Dev.progLog (d : Dev) (p : ProgTask) (l q : Nat) : Option LogTile :=
  if p.slot = 16 then d.log l
  else (p.entries.find? fun e => decide (e.logical = l)).map fun e =>
    { newLog p.body e p.pages p.masterOff with phys := some q }

/-- A device program waits for its edition's master copy (R350), and for a tile that a demotion has not freed yet (R353). -/
def Dev.progBlocked (d : Dev) (p : ProgTask) (l q : Nat) : Bool :=
  decide (p.slot = 16) && ((decide ((d.phys q).state = .ready) && decide ((d.phys q).logical ≠ some l)) ||
    match d.log l with
    | some t => d.editionAbsent t.edition
    | none => true)

/-- The physical tile serves the logical tile as SUSPECT or UNCALIBRATED, and a refresh leaves it so (R103, R171, R175; log
entry 62). -/
def Dev.serving (d : Dev) (l q : Nat) : Bool :=
  (match d.log l with
    | some t => decide (t.phys = some q)
    | none => false) && decide ((d.phys q).state = .suspect ∨ (d.phys q).state = .uncalibrated)

/-- One tile's program starts: wear, budget, levels to reach and clipped entries (R96, R97, R112, R114, R166). -/
def Dev.startTile (d : Dev) (p : ProgTask) (l q : Nat) (t : LogTile) (m : List (List Int)) : Dev :=
  let f := weightFmt t.format
  let c := clipOf p.clipReg f t.slice
  let d := (d.dropAudits l).dropPasses q
  let d := if p.slot = 16 ∧ d.serving l q = true then d else d.setPhysState q .programming
  let d := d.modPhys q fun x =>
    { x with wear := min (x.wear + 1) 0xFFFFFFFF, logical := some l, tileRows := t.nrows, tileCols := t.ncols
             levels := m.flatten.map (clampLevel c), grade := 0 }
  let d := d.bump Off.plnBudgetUsed
  { d with pln := { d.pln with logical := put d.pln.logical l { t with clip := c, outliers := clippedEntries c m } } }

/-- A tile leaves the list of a program task. -/
def Dev.takeTodo (d : Dev) (p : ProgTask) (l q : Nat) : Dev :=
  { d with pln := { d.pln with prog := d.pln.prog.map fun (x : ProgTask) =>
      if x.slot = p.slot ∧ x.task = p.task then { x with todo := x.todo.filter fun y => decide (y ≠ (l, q)) } else x } }

/-- A tile leaves its program task for the round of its die; a bad master word aborts a host's task, and one that faults keeps
the tile for a later round (R94, R224, R401). A device program whose master copy cannot be read is given up. -/
def Dev.enterRound (d : Dev) (die : Nat) (p : ProgTask) (l q : Nat) : Dev :=
  match d.progLog p l q with
  | none => d.takeTodo p l q
  | some t =>
    let start := fun (cs : List (List Nat)) (d : Dev) =>
      let d := (d.takeTodo p l q).startTile p l q t (cs.map fun row => row.map (levelOf (weightFmt t.format) t.slice))
      { d with pln := { d.pln with rounds := d.pln.rounds.map fun (x : Round) =>
          if x.die = die then { x with tiles := x.tiles ++ [(l, q)], owner := x.owner ++ [(p.slot, p.task)] } else x } }
    if p.slot = 16 then
      match Dev.masterChk (d.masterCodes { cls := 2 } t) t with
      | (.ok cs, d) => start cs d
      | (_, d) => d.takeTodo p l q
    else if !d.pln.prog.any (fun x => decide (x.slot = p.slot) && decide (x.task = p.task)) || d.stopped p.slot p.task then d
    else
      Dev.act (Dev.masterChk (d.masterCodes (d.reader 2 0 p.slot p.task) t) t) 2 0 p.slot p.task (d.slot p.slot).space start

/-- Program tasks that hold no tile any more are over: a host's completes, a device's is dropped (R95). -/
def Dev.closeProgs (d : Dev) : Dev :=
  let done := d.pln.prog.filter fun p => decide (p.todo = []) && decide (d.roundTiles p.slot p.task = 0)
  let d := { d with pln := { d.pln with prog := d.pln.prog.filter fun p =>
      !(decide (p.todo = []) && decide (d.roundTiles p.slot p.task = 0)) } }
  done.foldl (fun d p => if p.slot = 16 then d else d.endTask p.slot p.task 0) d

/-- A round that no tile has entered does not run. -/
def Dev.dropEmpty (d : Dev) (die : Nat) : Dev :=
  { d with pln := { d.pln with rounds := d.pln.rounds.filter fun r => decide (r.die ≠ die) || decide (r.tiles ≠ []) } }

/-- PROGRAM_ROUND_START: a round starts on a die that runs none, unless HOLD_PROGRAMS is 1; device programs come first
(R94, R95; log entry 34). -/
def Dev.programRoundStart (d : Dev) (die : Nat) : Dev :=
  if d.bitAt Off.plnCtrl 2 || d.pln.rounds.any (fun r => decide (r.die = die)) then d
  else
    let runs := fun (p : ProgTask) =>
      decide (p.slot = 16) || (!p.held && !d.marked p.slot p.task && !d.stopped p.slot p.task)
    let todo := ((d.pln.prog.filter fun p => decide (p.slot = 16)) ++ (d.pln.prog.filter fun p =>
        decide (p.slot < 16) && runs p)).flatMap fun p =>
      (p.todo.filter fun x => decide (dieOf x.2 = die) && !d.progBlocked p x.1 x.2).map fun x => (p, x)
    let now := todo.take (d.fld Off.plnProgLimit 22 16)
    if now = [] then d
    else
      let d := { d with pln := { d.pln with rounds := d.pln.rounds ++ [({ die := die } : Round)] } }
      (now.foldl (fun (d : Dev) x => d.enterRound die x.1 x.2.1 x.2.2) d).dropEmpty die

/-- The stuck cells of a tile after at most so many pulses a row, by row and column, each with the level difference of its
pair of cells (R60, R92, R93, log entry 11). -/
def stuckCells (draw pulses nrows ncols : Nat) : List (Nat × Nat × Int) :=
  (List.range nrows).flatMap fun r => (List.range ncols).filterMap fun c =>
    (Config.stuckCell draw pulses r c).map fun a => (r, c, clampLevel 15 a)

/-- A stuck cell enters the outlier table; an entry that is both clipped and stuck is one entry (R114). -/
def addStuck (levels : List Int) (ncols : Nat) (tab : List (Nat × OutlierEntry)) (s : Nat × Nat × Int) :
    List (Nat × OutlierEntry) :=
  let k := 1024 * s.1 + s.2.1
  let m := match look tab k with
    | some e => e.master
    | none => levels.getD (s.1 * ncols + s.2.1) 0
  put tab k { stuck := true, row := s.1, col := s.2.1, master := m, achieved := s.2.2 }

/-- One tile's program ends: stuck cells, table, statistics and record; a tile with too many is retired (R92, R93, R95,
R169). -/
def Dev.endTile (d : Dev) (l q : Nat) : Dev :=
  match d.log l with
  | none => d.modPhys q fun x => { x with state := .free, logical := none }
  | some t =>
    let ss := stuckCells d.fresh (d.fld Off.plnProgLimit 4 0) t.nrows t.ncols
    let d := { d with fresh := d.fresh + 1 }
    let ph := d.phys q
    let tab := ss.foldl (addStuck ph.levels t.ncols) (t.outliers.map fun e => (1024 * e.row + e.col, e))
    let levels := ss.foldl (fun v s => upd v (s.1 * t.ncols + s.2.1) fun _ => s.2.2) ph.levels
    let (g, d) := d.recordDigest { cls := 2 } t
    let d := d.modPhys q fun x => { x with levels := levels, stuckCount := ss.length, programmedAt := d.now, decades := 0 }
    let d := (d.recordEdition l { t with outliers := tab.map (·.2), digest := g }).writeTables l q
    if 4096 < ss.length ∨ 20971 < tab.length then d.retireTile q
    else
      let d := if (d.phys q).state = .programming then d.setPhysState q .uncalibrated else d
      d.makePending q (if d.cal.powerup then 3 else 2)

/-- PROGRAM_ROUND_END: the round of a die completes (R92-R95). -/
def Dev.programRoundEnd (d : Dev) (die : Nat) : Dev :=
  match d.pln.rounds.find? fun r => decide (r.die = die) with
  | none => d
  | some rd =>
    let d := { d with pln := { d.pln with rounds := d.pln.rounds.filter fun r => decide (r.die ≠ die) } }
    let d := (rd.tiles.foldl (fun d x => d.endTile x.1 x.2) d).closeProgs
    ((rd.owner.map (·.1)).dedup.filter fun s => decide (s < 16)).foldl (fun d s => d.settle s) d

/-! ## Re-attach (R351) -/

/-- Every named tile has a record of the edition that agrees with its entry, and its digest matches (R351). -/
def Dev.matchMasters (d : Dev) (r : Reader) (p : ProgSetup) : Chk Unit × Dev :=
  p.entries.foldl (fun (x : Chk Unit × Dev) e =>
    Chk.thn x fun _ d =>
      match d.log e.logical with
      | none => (.reject 0x0902, d)
      | some t =>
        if t.edition ≠ p.body.edition ∨ t.format ≠ p.body.wfmt ∨ t.slice ≠ e.slice ∨ t.rowTile ≠ e.rowTile ∨
            t.colTile ≠ e.colTile then (.reject 0x0902, d)
        else
          Chk.thn (d.masterDigest r { t with pages := p.pages, masterOff := p.off }) fun g d =>
            if g = t.digest then (.ok (), d) else (.reject 0x0902, d)) (.ok (), d)

/-- RE_ATTACH: a program task for a master-absent edition, or for master-damaged tiles, records the new master pages where
every digest matches (R351, R402). -/
def Dev.reAttach (d : Dev) : Dev :=
  match d.issuedWhere 1 fun k => decide (k % 16 = 3) with
  | none => d
  | some (slot, task) =>
    let space := (d.slot slot).space
    let r := d.reader 2 0 slot task
    match (d.loadProg r slot task space).1 with
    | .ok p0 =>
      if !d.isReattach p0.body p0.entries then d
      else
        Dev.act (Chk.thn (d.loadProg r slot task space) fun p d =>
            Chk.thn (d.loadPages r space p) fun p d =>
            Chk.thn (d.matchMasters r p) fun _ d => (.ok p, d))
          2 0 slot task space fun p d =>
            (p.entries.foldl (fun d e =>
              match d.log e.logical with
              | none => d
              | some t => d.recordEdition e.logical
                  { t with pages := p.pages, masterOff := p.off, masterAbsent := false, masterDamaged := false }) d).endTask
              slot task 0
    | _ => d

/-! ## The endurance window and the tile snapshot (R97, R105) -/

/-- The endurance window in ns (R97). -/
def enduranceWindow : Nat := 86400 * 10 ^ 9

/-- ENDURANCE_WINDOW_START: the fabric timestamp reaches the next window boundary, and PLN_BUDGET_USED returns to 0
(R97). -/
def Dev.enduranceWindowStart (d : Dev) : Dev :=
  ({ d with now := alignUp d.now enduranceWindow }).setReg Off.plnBudgetUsed 0

/-- The snapshot of a tile: PLN_TILE_INFO, WEAR, EDITION and STUCK (R105). -/
def Dev.tileSnapshot (d : Dev) (physical : Bool) (i : Nat) : Nat × Nat × Nat × Nat :=
  if physical then
    if physExists i then
      let t := d.phys i
      let ed := match t.logical.bind d.log with
        | some x => x.edition
        | none => 0
      (t.state.code * 2 ^ 20 + t.logical.getD 0xFFFFF, t.wear, ed, t.stuckCount)
    else (0, 0, 0, 0)
  else if 24575 < i then (0, 0, 0, 0)
  else
    match d.log i with
    | none => (0xFFFFF, 0, 0, 0)
    | some x =>
      let t := match x.phys with
        | some p => d.phys p
        | none => {}
      ((d.tileState i).code * 2 ^ 20 + x.phys.getD 0xFFFFF, t.wear, x.edition, t.stuckCount)

/-- PLN_TILE_SELECT: a write takes the snapshot in the following hub cycle (R105). -/
def Dev.plnTileSelect (d : Dev) (v : Word) : Dev :=
  let i := bits v.toNat 19 0
  let s := d.tileSnapshot (v.toNat.testBit 31) i
  ((((d.setReg Off.plnTileSelect (withBits (withBits 0 19 0 i) 31 31 (bits v.toNat 31 31))).setReg Off.plnTileInfo
    s.1).setReg Off.plnTileWear s.2.1).setReg Off.plnTileEdition s.2.2.1).setReg Off.plnTileStuck s.2.2.2

/-- PLANE_PROGRAM (R95). -/
def execPlaneProgram (s : State) : Host.Outcome State Fault Refusal := lift Dev.planeProgram s
/-- PROGRAM_ROUND_START (R94). -/
def execProgramRoundStart (die : Nat) (s : State) : Host.Outcome State Fault Refusal := lift (·.programRoundStart die) s
/-- PROGRAM_ROUND_END (R92). -/
def execProgramRoundEnd (die : Nat) (s : State) : Host.Outcome State Fault Refusal := lift (·.programRoundEnd die) s
/-- RE_ATTACH (R351). -/
def execReAttach (s : State) : Host.Outcome State Fault Refusal := lift Dev.reAttach s
/-- ENDURANCE_WINDOW_START (R97). -/
def execEnduranceWindowStart (s : State) : Host.Outcome State Fault Refusal := lift Dev.enduranceWindowStart s
/-- PLN_TILE_SELECT (R105). -/
def execPlnTileSelect (v : Word) (s : State) : Host.Outcome State Fault Refusal := hostWrite (·.plnTileSelect v) s

end Sys2Proof.Machine
end

