-- ==== Sys2Proof/Machine/Calibration.lean ====
section
/-! DEFINITION. Calibration: triggers, passes, their acceptance and failure, and the tile snapshot (R163-R178). -/

namespace Sys2Proof.Machine

/-- All triggers of R169 are active (R170). -/
def Dev.background (d : Dev) : Bool := d.bitAt Off.calCtrl 1

/-- A TRACK or FINE trigger that applies to tiles of Fine grade, at its due time (R169, R170). -/
def Dev.fineTrigger (d : Dev) (p kind due : Nat) : Dev :=
  let d := { d with now := max d.now due }
  if d.background && decide ((d.phys p).grade = 2) then d.makePending p kind else d

/-- PASS_PENDING_DECADE: 10 s, 100 s, 1,000 s or 10,000 s have passed since the tile's last program (R169). -/
def Dev.passPendingDecade (d : Dev) (p : Nat) : Dev :=
  let t := d.phys p
  if 4 ≤ t.decades ∨ t.logical = none then d
  else
    (d.modPhys p fun t => { t with decades := t.decades + 1 }).fineTrigger p 1
      (t.programmedAt + 10 ^ (t.decades + 1) * 10 ^ 9)

/-- PASS_PENDING_TRACK_PERIOD: TRACK_SECONDS have passed since the last accepted pass (R169). -/
def Dev.passPendingTrackPeriod (d : Dev) (p : Nat) : Dev :=
  let n := d.fld Off.calPeriod 15 0
  if n = 0 ∨ (d.phys p).logical = none then d else d.fineTrigger p 1 ((d.phys p).passedAt + n * 10 ^ 9)

/-- PASS_PENDING_FINE_PERIOD: FINE_HOURS have passed since the last accepted FINE pass (R169). -/
def Dev.passPendingFinePeriod (d : Dev) (p : Nat) : Dev :=
  let n := d.fld Off.calPeriod 31 16
  if n = 0 ∨ (d.phys p).logical = none then d else d.fineTrigger p 2 ((d.phys p).fineAt + n * 3600 * 10 ^ 9)

/-- The temperature trigger of every tile of a die (R169). -/
def Dev.tempTrigger (d : Dev) (die : Nat) : Dev :=
  let delta := 4 * d.fld Off.calTrigger 15 8
  let now := d.dieTemp die
  ((d.pln.phys.map (·.1)).filter fun p => decide (dieOf p = die)).foldl (fun d p =>
    let t := d.phys p
    if t.grade = 2 ∧ d.background ∧ delta ≤ (now - 4 * t.temperature).natAbs then d.makePending p 1 else d) d

/-- The rank of a tile's pending pass in the start order: SUSPECT, UNCALIBRATED, FINE, TRACK (R170). -/
def passRank (t : PhysTile) : Nat :=
  match t.state with
  | .suspect => 0
  | .uncalibrated => 1
  | _ => if 2 ≤ t.passDue then 2 else 3

/-- The tile is being programmed, or waits to be programmed by the device for the logical tile it holds: its pass comes after
(R103, R171). -/
def Dev.programDue (d : Dev) (p : Nat) : Bool :=
  (d.pln.rounds.any fun r => r.tiles.any fun x => decide (x.2 = p)) ||
    d.pln.prog.any fun t => decide (t.slot = 16) && t.todo.any fun x =>
      decide (x.2 = p) && decide ((d.phys p).logical = some x.1)

/-- The pending pass that starts next on a die: by rank, then the lower logical tile (R170). In reference mode a pass
starts only on a tile that is not READY (R168); a TRACK pass only on a tile of Fine grade, or in place of the passes of a warm
reset (R163, R177); the tile's bank is on (R463), and its candidate bank holds no accepted pass that waits (R161). -/
def Dev.nextPass (d : Dev) (die : Nat) : Option Nat :=
  let ref := d.bitAt Off.curCtrl 7
  let can := fun (x : Nat × PhysTile) =>
    decide (dieOf x.1 = die) && decide (x.2.passDue ≠ 0) && !(d.cal.passes.any fun c => decide (c.phys = x.1)) &&
      decide (x.2.state = .suspect ∨ x.2.state = .uncalibrated ∨ (x.2.state = .ready ∧ !ref)) && !x.2.waiting &&
      (decide (x.2.passDue ≠ 1) || decide (x.2.grade = 2) || x.2.warmTrack) &&
      !d.domainOff (bankDomain x.1) && !d.programDue x.1
  let key := fun (x : Nat × PhysTile) => passRank x.2 * 2 ^ 20 + x.2.logical.getD 0xFFFFF
  ((d.pln.phys.filter can).foldl (fun (b : Option (Nat × Nat)) x =>
    match b with
    | none => some (key x, x.1)
    | some y => if key x < y.1 then some (key x, x.1) else b) none).map (·.2)

/-- PASS_START: a pending pass starts on a die with a free slot, unless HOLD is 1 (R163, R170). -/
def Dev.passStart (d : Dev) (die : Nat) : Dev :=
  let mine := (d.cal.passes.filter fun c => decide (dieOf c.phys = die)).map (·.cslot)
  match (List.range (d.fld Off.calCtrl 15 11)).find? fun i => !mine.contains i, d.nextPass die with
  | some i, some p =>
    if d.bitAt Off.calCtrl 0 ∨ d.bring = .rom ∨ d.bring = .fw ∨ d.bring = .hold ∨ d.bring = .recovery then d
    else
      let c : CalPass := { phys := p, kind := (d.phys p).passDue, cslot := i, startedAt := d.now }
      ({ d with cal := { d.cal with passes := d.cal.passes ++ [c] } }).modPhys p fun t =>
        { t with passDue := 0, attempts := 0 }
  | _, _ => d

/-- A step unit is ready to start (R79, R167). -/
def Dev.unitReady (d : Dev) : Bool :=
  match d.pln.op with
  | some o => !d.stopped o.slot o.task && !d.marked o.slot o.task && decide (d.pln.tails.length < 2)
  | none => false

/-- CALIBRATION_STEP: one step fires the tiles in calibration slots, the lowest slots up to the firing cap, when no step
unit is ready to start (R167, R168). DESIGN CHOICE (log entry 104): R168 orders by slot number, and no rule orders the equal
slots of different dies; those of a slot number fire in the order in which their passes started. -/
def Dev.calibrationStep (d : Dev) : Dev :=
  if d.unitReady ∨ d.cal.passes = [] then d
  else
    let cap := min (d.fld Off.plnFiringCap 10 0) (1024 - 64 * d.pwr.level)
    let order := (List.range 16).flatMap fun i => (d.cal.passes.filter fun c => decide (c.cslot = i)).map (·.phys)
    let fires := order.take cap
    let ps := d.cal.passes.map fun (c : CalPass) => if fires.contains c.phys then { c with steps := c.steps + 1 } else c
    let d := { d with cal := { d.cal with passes := ps }, pln := { d.pln with calFired := d.pln.calFired + 1 } }
    d.bump64 Off.plnStepsLo

/-- A calibration cycle has failed (R164). -/
def Dev.cycleFailed (d : Dev) (p : Nat) : Dev :=
  let t := d.phys p
  let l := t.logical.getD 0xFFFFF
  match t.state with
  | .uncalibrated =>
    ((((d.setPhysState p .suspect).makePending p 2).modPhys p fun t => { t with attempts := 0 }).bump
      Off.calSuspects).flagEvent Off.calStatus 6 { arg0 := l }
  | .suspect => d.retireTile p
  | _ => (d.modPhys p fun t => { t with attempts := 0 }).modLog l fun x => { x with due := x.due ++ [.calSuspect] }

/-- An attempt failed: it is counted and retried, and the fourth fails the cycle (R164). -/
def Dev.attemptFailed (d : Dev) (c : CalPass) : Dev :=
  let d := (d.bump Off.calAttemptsFailed).setBit Off.calStatus 5
  let n := (d.phys c.phys).attempts + 1
  if n < 4 then
    ({ d with cal := { d.cal with passes := d.cal.passes.map fun (x : CalPass) =>
        if x.phys = c.phys then { x with startedAt := d.now, steps := 0 } else x } }).modPhys c.phys fun t =>
      { t with attempts := n }
  else (d.abandonPass c.phys).cycleFailed c.phys

/-- The logical tile that a physical tile serves (R65). -/
def Dev.serves (d : Dev) (p : Nat) : Option Nat :=
  match (d.phys p).logical with
  | none => none
  | some l =>
    match d.log l with
    | some t => if t.phys = some p then some l else none
    | none => none

/-- The largest magnitude of the column gains of a bank, in their steps. -/
def maxGain (b : TrimBank) : Nat := (b.gains.map Int.natAbs).foldl max 0

/-- The candidate bank of a pass: a COARSE pass leaves the row drivers as they are, and a TRACK pass the thresholds too
(R163). -/
def candidateOf (kind : Nat) (active trims : TrimBank) : TrimBank :=
  match kind with
  | 1 => { active with gains := trims.gains, offsets := trims.offsets }
  | 3 => { active with thresholds := trims.thresholds, gains := trims.gains, offsets := trims.offsets }
  | _ => trims

/-- The repeat measurement agrees: every trimmed quantity lies within ±0.4 LSB of its target (R164). -/
def agrees (r : PassReading) : Bool := r.residuals.all fun x => decide (x.natAbs ≤ 40)

/-- An accepted pass: it takes effect at once on an idle tile while IDLE_APPLY is 1, else at a tick, and with the return to
READY on a SUSPECT tile (R165, R172). -/
def Dev.acceptPass (d : Dev) (c : CalPass) (r : PassReading) : Dev :=
  let p := c.phys
  let bank := candidateOf c.kind (d.phys p).active r.trims
  let d := (d.abandonPass p).modPhys p fun t =>
    { t with attempts := 0, candidate := bank, waiting := true, waitTemp := r.temperature
             waitGain := maxGain bank * 25 / 128, waitGrade := if c.kind = 3 then 1 else 2, passedAt := d.now
             fineAt := if c.kind = 2 then d.now else t.fineAt }
  let d := if c.kind = 3 then d.makePending p 2 else d
  let suspect := decide ((d.phys p).state = .suspect)
  match d.serves p with
  | none => if !suspect && d.bitAt Off.calCtrl 2 then d.advanceEpoch.applyBank p else d
  | some l =>
    if suspect then d.modLog l fun x => { x with due := x.due ++ [.toReady] }
    else if d.tileIdle l && d.bitAt Off.calCtrl 2 then d.advanceEpoch.applyBank p
    else d

/-- A tile is sent to refresh (R103, R171): the pass is not applied. -/
def Dev.countRefresh (d : Dev) (p : Nat) : Dev :=
  ((d.abandonPass p).bump Off.calRefreshes).setBit Off.calStatus 7

/-- PASS_MEASUREMENT_END: the repeat measurement of a pass is judged. A READY tile beyond the refresh threshold becomes
SUSPECT at a tick and is refreshed; another tile beyond the gain trim range is UNCALIBRATED and refreshed (R101, R103, R164,
R171, R172). -/
def Dev.passMeasurementEnd (d : Dev) (p : Nat) (r : PassReading) : Dev :=
  match d.cal.passes.find? fun c => decide (c.phys = p) with
  | none => d
  | some c =>
    if !agrees r then d.attemptFailed c
    else
      let st := (d.phys p).state
      let gain := maxGain (candidateOf c.kind (d.phys p).active r.trims)
      if st = .ready ∧ 4096 * d.fld Off.calTrigger 7 0 < 100 * gain then
        match d.serves p with
        | some l => (d.countRefresh p).modLog l fun x => { x with due := x.due ++ [.refresh] }
        | none => d.countRefresh p
      else if st ≠ .ready ∧ 1024 < gain then
        let d := ((d.countRefresh p).setPhysState p .uncalibrated).makePending p 2
        match (d.phys p).logical with
        | some l => if d.refreshQueued l p then d else d.queueProgram l p
        | none => d
      else d.acceptPass c r

/-- A SUSPECT tile's accepted pass takes effect with its return to READY, and not before (R165). -/
def Dev.returnsReady (d : Dev) (l : Nat) : Bool :=
  match d.log l with
  | some t => t.due.contains .toReady || t.held.contains .toReady
  | none => false

/-- The accepted passes that wait for a tick take effect on idle tiles; the caller has advanced the epoch when there is
one (R172). -/
def Dev.waitingTiles (d : Dev) : List Nat :=
  (d.pln.phys.filter fun x => x.2.waiting && match d.serves x.1 with
    | some l => d.tileIdle l && !d.returnsReady l
    | none => true).map (·.1)

/-! ## The live set and power-up (R175, R177, R178) -/

/-- The physical tiles of the live set, with their logical tiles (R175). -/
def Dev.liveSet (d : Dev) : List (Nat × Nat) :=
  d.pln.logical.filterMap fun x => x.2.phys.map fun p => (x.1, p)

/-- A live tile counts as done at a grade (R175). -/
def Dev.gradeDone (d : Dev) (g : Nat) : Bool :=
  d.liveSet.all fun x =>
    let t := d.phys x.2
    decide (g ≤ t.grade) || decide (t.state = .suspect) || decide (t.state = .retired)

/-- A tile takes its active bank from its copy in the near store; a copy with an uncorrectable word cannot be used (R166,
R177, R402). -/
def Dev.loadCopy (d : Dev) (p : Nat) : Bool × Dev :=
  let x := d.checkPa {} (trimArea p) trimBytes
  (x.1 && (d.phys p).nearCopyOk, x.2.2)

/-- A live tile is UNCALIBRATED from a reset; after a warm reset a tile of Fine grade with an intact copy keeps its bank and
gets a TRACK pass, every other COARSE and FINE (R173, R175, R177). -/
def Dev.uncalibrateTile (d : Dev) (warm : Bool) (p : Nat) : Dev :=
  if (d.phys p).state = .retired then d
  else
    let (ok, d) := if warm then d.loadCopy p else (false, d)
    let track := ok && decide ((d.phys p).grade = 2)
    (d.setPhysState p .uncalibrated).modPhys p fun t =>
      { t with grade := 0, attempts := 0, waiting := false, candidate := {}, warmTrack := track
               passDue := if track then 1 else 3
               count := if warm then t.count else 0
               last := if warm then t.last else 0
               temperature := if warm then t.temperature else 0
               gainMax := if warm then t.gainMax else 0
               active := if ok then t.nearCopy else {}
               nearCopy := if ok then t.nearCopy else {}
               nearCopyOk := ok }

/-- Every live tile is UNCALIBRATED from a reset, and every tile epoch is 0 (R173, R175, R177). -/
def Dev.uncalibrate (d : Dev) (warm : Bool) : Dev :=
  let d := { d with cal := { d.cal with passes := [], powerup := true } }
  let d := d.liveSet.foldl (fun d x => d.uncalibrateTile warm x.2) d
  { d with pln := { d.pln with logical := d.pln.logical.map fun x => (x.1, { x.2 with epoch := 0, held := [] }) } }

/-- CAL_TILE_SELECT: a write takes a snapshot (R178). -/
def Dev.calTileSelect (d : Dev) (v : Word) : Dev :=
  let l := bits v.toNat 19 0
  let d := d.setReg Off.calTileSelect l
  let s : Nat × Nat × Nat × Nat :=
    if 24575 < l then (0, 0, 0, 0)
    else
      match d.log l with
      | none => (0, 0, 0, 0)
      | some x =>
        let t := match x.phys with
          | some p => d.phys p
          | none => {}
        (t.grade * 2 ^ 30 + t.passDue * 2 ^ 28 + min t.attempts 3 * 2 ^ 24 + t.temperature % 256 * 2 ^ 16 +
          min t.gainMax 200 * 2 ^ 8, x.epoch, t.count, t.last)
  (((d.setReg Off.calTileStatus s.1).setReg Off.calTileEpoch s.2.1).setReg Off.calTileCount s.2.2.1).setReg64
    Off.calTileLastLo s.2.2.2

/-- PASS_PENDING_DECADE (R169). -/
def execPassPendingDecade (tile : Nat) (s : State) : Host.Outcome State Fault Refusal := lift (·.passPendingDecade tile) s
/-- PASS_PENDING_TRACK_PERIOD (R169). -/
def execPassPendingTrackPeriod (tile : Nat) (s : State) : Host.Outcome State Fault Refusal :=
  lift (·.passPendingTrackPeriod tile) s
/-- PASS_PENDING_FINE_PERIOD (R169). -/
def execPassPendingFinePeriod (tile : Nat) (s : State) : Host.Outcome State Fault Refusal :=
  lift (·.passPendingFinePeriod tile) s
/-- PASS_START (R170). -/
def execPassStart (die : Nat) (s : State) : Host.Outcome State Fault Refusal := lift (·.passStart die) s
/-- CALIBRATION_STEP (R167). -/
def execCalibrationStep (s : State) : Host.Outcome State Fault Refusal := lift Dev.calibrationStep s
/-- PASS_MEASUREMENT_END (R164). -/
def execPassMeasurementEnd (tile : Nat) (r : PassReading) (s : State) : Host.Outcome State Fault Refusal :=
  lift (·.passMeasurementEnd tile r) s
/-- CAL_TILE_SELECT (R178). -/
def execCalTileSelect (v : Word) (s : State) : Host.Outcome State Fault Refusal := hostWrite (·.calTileSelect v) s

end Sys2Proof.Machine
end

