-- ==== Sys2Proof/Machine/Crc.lean ====
section
/-! DEFINITION. The check-value units (R413-R416, R418). -/

namespace Sys2Proof.Machine

/-- A check-value unit. -/
def Dev.crcUnit (d : Dev) (n : Nat) : CrcUnit := d.crc.getD n {}

/-- A check-value unit changed. -/
def Dev.modCrc (d : Dev) (n : Nat) (f : CrcUnit → CrcUnit) : Dev := { d with crc := upd d.crc n f }

/-- WIDTH of a unit (R418). -/
def Dev.crcWidth (d : Dev) (n : Nat) : Nat := d.fld (Off.crcCtrl + 0x40 * n) 6 0

/-- POLY of a unit. -/
def Dev.crcPoly (d : Dev) (n : Nat) : Nat := d.reg64 (Off.crcPolyLo + 0x40 * n)

/-- INIT of a unit. -/
def Dev.crcInit (d : Dev) (n : Nat) : Nat := d.reg64 (Off.crcInitLo + 0x40 * n)

/-- The result that a unit shows (R413). -/
def Dev.crcOut (d : Dev) (n : Nat) : Nat :=
  crcResult (d.crcWidth n) (d.bitAt (Off.crcCtrl + 0x40 * n) 9) (d.bitAt (Off.crcCtrl + 0x40 * n) 10) (d.crcUnit n).r

/-- A write to a unit takes effect, or is ignored while a DMA task holds the unit (R416). -/
def Dev.crcTake (d : Dev) (n : Nat) (f : CrcUnit → CrcUnit) : Dev :=
  if (d.crcUnit n).holder.isSome then d.setBit (Off.crcStatus + 0x40 * n) 3 else d.modCrc n f

/-- Bytes fed to a unit (R413, R414). -/
def Dev.crcFeed (d : Dev) (n : Nat) (l : List Byte) : Dev :=
  d.crcTake n fun u =>
    { u with r := l.foldl (crcByte (d.crcWidth n) (d.crcPoly n) (d.bitAt (Off.crcCtrl + 0x40 * n) 8)) u.r }

/-- CRC_CMD.RESTART loads INIT (R413). -/
def Dev.crcRestart (d : Dev) (n : Nat) : Dev := d.crcTake n fun u => { u with r := d.crcInit n % 2 ^ d.crcWidth n }

/-- A write to the low half is held until the high half is written (R415). -/
def Dev.crcValueLo (d : Dev) (n v : Nat) : Dev := d.modCrc n fun u => { u with heldLo := v }

/-- A write to the high half loads both halves (R415). -/
def Dev.crcValueHi (d : Dev) (n v : Nat) : Dev :=
  d.crcTake n fun u => { u with r := (u.heldLo + 2 ^ 32 * v) % 2 ^ d.crcWidth n }

/-- CRC_FEED_B (R414). -/
def execCrcFeedB (n : Nat) (v : Word) (s : State) : Host.Outcome State Fault Refusal :=
  hostWrite (·.crcFeed n (le v.toNat 1)) s
/-- CRC_FEED_H (R414). -/
def execCrcFeedH (n : Nat) (v : Word) (s : State) : Host.Outcome State Fault Refusal :=
  hostWrite (·.crcFeed n (le v.toNat 2)) s
/-- CRC_FEED_W (R414). -/
def execCrcFeedW (n : Nat) (v : Word) (s : State) : Host.Outcome State Fault Refusal :=
  hostWrite (·.crcFeed n (le v.toNat 4)) s
/-- CRC_RESTART (R413). -/
def execCrcRestart (n : Nat) (s : State) : Host.Outcome State Fault Refusal := hostWrite (·.crcRestart n) s
/-- CRC_VALUE_LO (R415). -/
def execCrcValueLo (n : Nat) (v : Word) (s : State) : Host.Outcome State Fault Refusal := hostWrite (·.crcValueLo n v.toNat) s
/-- CRC_VALUE_HI (R415). -/
def execCrcValueHi (n : Nat) (v : Word) (s : State) : Host.Outcome State Fault Refusal := hostWrite (·.crcValueHi n v.toNat) s

end Sys2Proof.Machine
end

