-- ==== Sys2Proof/Machine/Mmu.lean ====
section
/-! DEFINITION. The MMU's commands: walks, the resolution of faults, invalidations, the fault snapshot and accesses
through BAR2 (R216-R218, R226-R231, R240). -/

namespace Sys2Proof.Machine

/-! ## Walks -/

/-- The task that a unit works on, by unit class and index (R226). -/
def Dev.unitTask (d : Dev) (cls index : Nat) : Option (Nat × Nat) :=
  match cls with
  | 1 => (d.dma.tasks.find? fun t => decide (t.engine = index) && !t.saved).map fun t => (t.slot, t.task)
  | 2 => d.pln.op.map fun o => (o.slot, o.task)
  | 3 => (d.pln.tails[index]?).map fun o => (o.slot, o.task)
  | 4 => (d.wideNext fun _ => true).map fun t => (t.slot, t.task)
  | 5 => (d.att.tasks.find? fun t => !t.saved && !d.stopped t.slot t.task).map fun t => (t.slot, t.task)
  | 6 => (d.grf.pip.find? fun p => decide (p.core = index)).map fun p => (p.slot, p.task)
  | 7 => (d.grf.colls.find? fun c => !d.stopped c.slot c.task).map fun c => (c.slot, c.task)
  | 8 => d.firstTask (d.tasksIn .ready)
  | _ => none

/-- A BAR2 access is refused for a fault: its record, its count and its event (R231, R233). -/
def Dev.bar2Fault (d : Dev) (space : Nat) (f : FaultInfo) : Dev :=
  let d := d.recordFault { cause := f.cause, unitClass := 9, unitIndex := 0, write := f.write, level := f.level,
                           space := space, address := f.va, entry := f.entry, graph := 0xFF, task := 0
                           request := 0xFFFFFFFF, outcome := 5, resolvedAt := d.now }
  ((d.bump Off.mmuBar2Faults).setBit Off.mmuStatus 4).event 0x0680 { arg0 := f.va }

/-- Translations that the second-level cache holds (R217). -/
def cacheSize : Nat := 16384

/-- A translation enters the caches; where they are full, which one it replaces is a free value (R217, log entries 3 and
9). -/
def Dev.cacheTlb (d : Dev) (t : Tlb) : Dev :=
  if d.mmu.tlb.length < cacheSize then { d with mmu := { d.mmu with tlb := d.mmu.tlb ++ [t] } }
  else
    let (n, d) := d.drawNat
    { d with mmu := { d.mmu with tlb := d.mmu.tlb.eraseIdx (n % d.mmu.tlb.length) ++ [t] } }

/-- WALK_COMPLETE: the walk of a unit's access ends: its translation enters the caches, or it faults (R216, R217,
R226). -/
def Dev.walkComplete (d : Dev) (cls index space va : Nat) (write : Bool) : Dev :=
  match d.unitTask cls index with
  | none =>
    match d.walk { cls := cls, index := index } space va write with
    | (.ok t, d) => d.cacheTlb t
    | (.fault f, d) => if cls = 9 then d.bar2Fault space f else d
    | (.bad, d) => d
  | some (slot, task) =>
    if d.stopped slot task then d
    else
      match d.walk (d.reader cls index slot task) space va write with
      | (.ok t, d) => d.cacheTlb t
      | (.fault f, d) => d.unitFault cls index slot task space f
      | (.bad, d) => d.dataBad slot

/-! ## Resolving faults (R228, R229) -/

/-- A pending fault record. -/
def Dev.pendingFault (d : Dev) (slot : Nat) : Option FaultRec :=
  (look d.mmu.faults slot).filter fun f => decide (f.outcome = 0)

/-- The access of a record is possible now. -/
def Dev.accessible (d : Dev) (f : FaultRec) : Bool :=
  match (d.walk {} f.space f.address f.write).1 with
  | .ok _ => true
  | _ => false

/-- The address of a record is that of a KV page of a tracked request's sequence, in an address space and a layer where Damson
maps its pages (R197, R201, R212). -/
def Dev.kvManaged (d : Dev) (f : FaultRec) : Bool :=
  match d.seqOf f.address with
  | none => false
  | some s => (d.requestOfSeq s).isSome && d.kvLayouts.any fun k => decide (k.space = f.space) && d.kvOpen k.space s &&
      decide (k.layer * k.stride ≤ f.address % 2 ^ 38 / 65536) && decide (f.address % 2 ^ 38 / 65536 < (k.layer + 1) * k.stride)

/-- Damson makes the access of a record possible: it maps a FREE frame, or copies a shared page on write (R199, R201,
R228). None where it cannot. -/
def Dev.makePossible (d : Dev) (f : FaultRec) : Option Dev :=
  let va := f.address / 65536 * 65536
  if d.accessible f then some d
  else if !d.kvManaged f then none
  else
    match d.kvMapAt f.space va with
    | none => if f.cause = 1 then (d.takeFrame false).bind fun x => x.2.kvMap f.space va x.1 true else none
    | some m => if (d.frameRec m.pa).map (·.state) = some .shared then d.kvCopyOnWrite m else none

/-- FAULT_RESUME: Damson makes the access possible and the stopped unit resumes (R228). -/
def Dev.faultResume (d : Dev) (slot : Nat) : Dev :=
  match d.pendingFault slot with
  | none => d
  | some f =>
    match d.makePossible f with
    | none => d
    | some d => (d.resolveFault slot 1 0).setReg Off.mmuFaultResolve slot

/-- A KV page of a record needs a frame, and none is FREE (R201, R228). -/
def Dev.kvStarved (d : Dev) (f : FaultRec) : Bool :=
  d.kvManaged f && decide (f.cause = 1 ∨ f.cause = 2) && decide (d.freeFrames = 0)

/-- FAULT_FAIL: Damson fails the graph of a record: with the status it writes, which is KV_NO_MEMORY where a KV page finds no
FREE frame, or with the name of the cause (R201, R228, R240). -/
def Dev.faultFail (d : Dev) (slot status : Nat) : Dev :=
  match d.pendingFault slot with
  | none => d
  | some f =>
    let written := if status = 0 ∧ d.kvStarved f then 0x0406 else status
    let st := if written = 0 then 0x0500 + f.cause else written
    let d := (d.resolveFault slot 2 st).setReg Off.mmuFaultResolve (2 ^ 31 + written % 65536 * 256 + slot)
    let e : EventRec := { status := st, graph := f.graph, task := f.task, request := f.request, arg0 := f.address,
                           arg1 := d.taskLabel f.graph f.task }
    let d := d.event 0x0680 e
    (if st = 0x0406 then d.flagEvent Off.attStatus 5 e else d).failGraph f.graph st

/-- FAULT_TIMEOUT: a record still pending 200 µs after its timestamp fails its graph (R229). -/
def Dev.faultTimeout (d : Dev) (slot : Nat) : Dev :=
  match d.pendingFault slot with
  | none => d
  | some f =>
    let d := { d with now := max d.now (f.ts + 200000) }
    let d := ((d.resolveFault slot 3 0x0507).bump Off.mmuFaultTimeouts).setBit Off.mmuStatus 3
    (d.event 0x0680 { status := 0x0507, graph := f.graph, task := f.task, request := f.request
                      arg0 := f.address, arg1 := d.taskLabel f.graph f.task }).failGraph f.graph 0x0507

/-! ## Invalidations (R218) -/

/-- A write of GO: an invalidation of a scope starts, or is refused while one is in progress. -/
def Dev.invalidate (d : Dev) (scope space : Nat) (p : Tlb → Bool) : Dev :=
  let d := (d.setFld Off.mmuInvCtrl 2 0 scope).setFld Off.mmuInvCtrl 11 8 space
  if d.mmu.inv then d.setBit Off.mmuStatus 5
  else ({ d with mmu := { d.mmu with inv := true } }).dropTlb p

/-- The SPACE field as it stands: scopes 0 and 4 leave it (R240). -/
def Dev.invSpace (d : Dev) : Nat := d.fld Off.mmuInvCtrl 11 8

/-- INVALIDATE_ALL (R218). -/
def Dev.invalidateAll (d : Dev) : Dev := d.invalidate 0 d.invSpace fun _ => true

/-- INVALIDATE_SPACE (R218). -/
def Dev.invalidateSpace (d : Dev) (sp : Nat) : Dev := d.invalidate 1 sp fun t => decide (t.space = sp)

/-- INVALIDATE_RANGE: `base` and `pages` are those of MMU_INV_BASE and MMU_INV_PAGES, in units of 4 KiB; with no page the GO
is ignored (R218, R240). -/
def Dev.invalidateRange (d : Dev) (sp base pages : Nat) : Dev :=
  let d := ((d.setReg Off.mmuInvBaseLo (base * 4096 % 2 ^ 32)).setReg Off.mmuInvBaseHi (base * 4096 / 2 ^ 32)).setReg
    Off.mmuInvPages pages
  if pages = 0 then (d.setFld Off.mmuInvCtrl 2 0 2).setFld Off.mmuInvCtrl 11 8 sp
  else d.invalidate 2 sp fun t =>
    decide (t.space = sp) && decide (t.va < (base + pages) * 4096) && decide (base * 4096 < t.va + t.bytes)

/-- INVALIDATE_KV_SPACE (R218). -/
def Dev.invalidateKvSpace (d : Dev) (sp : Nat) : Dev := d.invalidate 3 sp fun t => decide (t.space = sp) && t.kv

/-- INVALIDATE_KV_ALL (R218). -/
def Dev.invalidateKvAll (d : Dev) : Dev := d.invalidate 4 d.invSpace fun t => t.kv

/-- INVALIDATION_COMPLETE (R218). -/
def Dev.invalidationComplete (d : Dev) : Dev := { d with mmu := { d.mmu with inv := false } }

/-! ## The fault snapshot and BAR2 -/

/-- MMU_FAULT_READ: the slot's record goes into MMU_FAULT_DATA; a slot never written holds free bytes (R240, log entry
3). -/
def Dev.mmuFaultRead (d : Dev) (v : Nat) : Dev :=
  let slot := v % 256
  let d := d.setReg Off.mmuFaultRead slot
  let (l, d) := match look d.mmu.faults slot with
    | some f => (f.bytes, d)
    | none => d.drawBytes 64
  (List.range 16).foldl (fun (d : Dev) i => d.setReg (Off.mmuFaultData + 4 * i) (leAt l (4 * i) 4)) d

/-- A BAR2 access is refused for an uncorrectable word (R231). -/
def Dev.bar2Bad (d : Dev) : Dev := (d.bump Off.mmuBar2Faults).setBit Off.mmuStatus 4

/-- The translations of a range's pieces, or the first that faults. -/
def Dev.translateAll (d : Dev) (r : Reader) (space : Nat) (write : Bool) (ps : List (Nat × Nat)) :
    Acc (List (Nat × Nat × Nat × Nat)) × Dev :=
  ps.foldl (fun (x : Acc (List (Nat × Nat × Nat × Nat)) × Dev) p =>
    match x.1 with
    | .ok l =>
      match x.2.translate r space p.1 write with
      | (.ok t, d) => (.ok (l ++ [(t.target, t.pa + (p.1 - t.va), p.1, p.2)]), d)
      | (.fault f, d) => (.fault f, d)
      | (.bad, d) => (.bad, d)
    | _ => x) (.ok [], d)

/-- A BAR2 answer. -/
def Dev.answerBar2 (d : Dev) (a : Option (List Byte)) : Dev := { d with env := { d.env with bar2 := d.env.bar2 ++ [a] } }

/-- BAR2_ACCESS: a host access through BAR2, translated at base plus offset; a fault or an uncorrectable word refuses it.
An access beyond the size of BAR2 is none of the function's (R231, R240, R244). -/
def Dev.bar2Access (d : Dev) (write : Bool) (off len : Nat) (data : List Byte) : Dev :=
  let space := d.fld Off.mmuBar2Ctrl 3 0
  let va := (d.reg64 Off.mmuBar2BaseLo + off) % 2 ^ 64
  let r : Reader := { cls := 9, index := 0 }
  if 2 ^ d.env.bar2Size < off + (if write then data.length else len) then d
  else if write then
    match d.translateAll r space true (pieces va data.length) with
    | (.fault f, d) => d.bar2Fault space f
    | (.bad, d) => d.bar2Bad
    | (.ok ts, d) =>
      let bad := (ts.filter fun t => decide (t.1 = 0)).flatMap fun t => d.partBad t.2.1 t.2.2.2
      match bad with
      | w :: _ => (d.meetBad r w).bar2Bad
      | [] =>
        match d.writeVa r space va data with
        | (.fault f, _) => d.bar2Fault space f
        | (_, d) => d.relayLanded space va data.length
  else
    match d.readVa r space va len with
    | (.ok l, d) => d.answerBar2 (some l)
    | (.fault f, d) => (d.bar2Fault space f).answerBar2 none
    | (.bad, d) => d.bar2Bad.answerBar2 none

/-- WALK_COMPLETE (R216). -/
def execWalkComplete (cls index space va : Nat) (write : Bool) (s : State) : Host.Outcome State Fault Refusal :=
  lift (·.walkComplete cls index space va write) s
/-- FAULT_FAIL (R228). -/
def execFaultFail (slot status : Nat) (s : State) : Host.Outcome State Fault Refusal := lift (·.faultFail slot status) s
/-- FAULT_TIMEOUT (R229). -/
def execFaultTimeout (slot : Nat) (s : State) : Host.Outcome State Fault Refusal := lift (·.faultTimeout slot) s
/-- INVALIDATE_ALL (R218). -/
def execInvalidateAll (s : State) : Host.Outcome State Fault Refusal := hostWrite Dev.invalidateAll s
/-- INVALIDATE_SPACE (R218). -/
def execInvalidateSpace (sp : Nat) (s : State) : Host.Outcome State Fault Refusal := hostWrite (·.invalidateSpace sp) s
/-- INVALIDATE_RANGE (R218). -/
def execInvalidateRange (sp base pages : Nat) (s : State) : Host.Outcome State Fault Refusal :=
  hostWrite (·.invalidateRange sp base pages) s
/-- INVALIDATE_KV_SPACE (R218). -/
def execInvalidateKvSpace (sp : Nat) (s : State) : Host.Outcome State Fault Refusal := hostWrite (·.invalidateKvSpace sp) s
/-- INVALIDATE_KV_ALL (R218). -/
def execInvalidateKvAll (s : State) : Host.Outcome State Fault Refusal := hostWrite Dev.invalidateKvAll s
/-- INVALIDATION_COMPLETE (R218). -/
def execInvalidationComplete (s : State) : Host.Outcome State Fault Refusal := lift Dev.invalidationComplete s
/-- MMU_FAULT_READ (R240). -/
def execMmuFaultRead (v : Word) (s : State) : Host.Outcome State Fault Refusal := hostWrite (·.mmuFaultRead v.toNat) s
/-- BAR2_ACCESS (R231). -/
def execBar2Access (write : Bool) (off len : Nat) (data : List Byte) (s : State) : Host.Outcome State Fault Refusal :=
  hostWrite (·.bar2Access write off len data) s

end Sys2Proof.Machine
end

