-- ==== Sys2Proof/Machine/Dma.lean ====
section
/-! DEFINITION. The DMA engines: copies, fills, check values, transfer units, saves and resumptions (R220-R225). -/

namespace Sys2Proof.Machine

/-- Check bytes of a chunk: W of R222. -/
def DmaTask.w (t : DmaTask) : Nat := (t.width + 7) / 8

/-- A DMA body as a task of an engine (R220). -/
def parseDma (l : List Byte) : DmaTask :=
  { fill := decide (bits (leAt l 0 1) 3 0 = 2)
    unit := bits (leAt l 1 1) 6 4
    mode := bits (leAt l 1 1) 1 0
    chunk := leAt l 4 4
    src := leAt l 8 8
    dst := leAt l 0x10 8
    rowBytes := leAt l 0x18 4
    rows := leAt l 0x1C 4
    srcStride := leAt l 0x20 8
    dstStride := leAt l 0x28 8 }

/-- The settings of the check unit that a task names, read at its start (R222). -/
def Dev.withUnit (d : Dev) (t : DmaTask) : DmaTask :=
  { t with width := d.crcWidth t.unit, poly := d.crcPoly t.unit, init := d.crcInit t.unit % 2 ^ d.crcWidth t.unit
           reflIn := d.bitAt (Off.crcCtrl + 0x40 * t.unit) 8, reflOut := d.bitAt (Off.crcCtrl + 0x40 * t.unit) 9
           inv := d.bitAt (Off.crcCtrl + 0x40 * t.unit) 10 }

/-- The checks of a DMA body (R220, R223, R486). -/
def checkDma (l : List Byte) (d : Dev) : Chk DmaTask × Dev :=
  let t := d.withUnit (parseDma l)
  let kind := bits (leAt l 0 1) 3 0
  let m0 := decide (t.mode = 0)
  let one := decide (t.rows = 1)
  tests [
    (decide (bits (leAt l 0 1) 7 4 = 0) && !bit (leAt l 1 1) 7 && decide (bits (leAt l 1 1) 3 2 = 0) && zeroAt l 2 2 &&
      (!m0 || (decide (t.unit = 0) && decide (t.chunk = 0))) &&
      (!(t.fill || one) || decide (t.srcStride = 0)) && (!one || decide (t.dstStride = 0)) && zeroAt l 0x30 16, 0x0007),
    (decide (kind = 1) || decide (kind = 2), 0x0508),
    (decide (t.mode ≠ 3), 0x0508),
    (m0 || inRange t.chunk 64 16777216, 0x0508),
    (decide (1 ≤ t.rowBytes), 0x0508),
    (inRange t.rows 1 65536, 0x0508),
    (!t.fill || m0, 0x0508),
    (m0 || one, 0x0508),
    (decide (t.mode ≠ 2) || decide (t.rowBytes % (t.chunk + t.w) = 0) || decide (t.w < t.rowBytes % (t.chunk + t.w)), 0x0508)]
    t d

/-- A task runs on an engine; a saved one has released it (R225, R289). -/
def DmaTask.on (t : DmaTask) (e : Nat) : Bool := decide (t.engine = e) && !t.saved

/-- The lowest free engine. -/
def Dev.freeEngine (d : Dev) : Option Nat := (List.range 16).find? fun e => d.dma.tasks.all fun t => !t.on e

/-- A DMA task changed, by its engine. -/
def Dev.modDma (d : Dev) (e : Nat) (f : DmaTask → DmaTask) : Dev :=
  { d with dma := { d.dma with tasks := d.dma.tasks.map fun t => if t.on e then f t else t } }

/-- The task of an engine. -/
def Dev.dmaTask (d : Dev) (e : Nat) : Option DmaTask := d.dma.tasks.find? (·.on e)

/-- A task takes its check unit with a running value, or waits for it; a wait is counted (R222). -/
def Dev.takeUnit (d : Dev) (e r : Nat) : Dev :=
  match d.dmaTask e with
  | none => d
  | some t =>
    if t.mode = 0 then d
    else if (d.crcUnit t.unit).holder.isNone then
      (d.modCrc t.unit fun u => { u with holder := some e, r := r }).modDma e fun t =>
        { t with holds := true, waits := false }
    else if t.waits then d
    else (d.bumpWrap Off.dmaCheckWaits).modDma e fun t => { t with waits := true, savedR := r }

/-- A DMA task starts on an engine. -/
def Dev.dmaStart (d : Dev) (fill : Bool) : Dev :=
  match d.issuedWhere 5 (fun k => (k % 16 == 2) == fill), d.freeEngine with
  | some (slot, task), some e =>
    let space := (d.slot slot).space
    Dev.act (Chk.thn (d.readBody slot task 64) checkDma) 1 e slot task space fun t d =>
      let t := { t with engine := e, slot := slot, task := task, space := space }
      (({ d with dma := { d.dma with tasks := d.dma.tasks ++ [t] } }).startTask slot task).takeUnit e t.init
  | _, _ => d

/-- DMA_COPY (R220). -/
def Dev.dmaCopy (d : Dev) : Dev := d.dmaStart false

/-- DMA_FILL (R220). -/
def Dev.dmaFill (d : Dev) : Dev := d.dmaStart true

/-- CHECK_UNIT_ACQUIRE: a waiting task takes its check unit once it is released (R222, R225). -/
def Dev.checkUnitAcquire (d : Dev) (e : Nat) : Dev :=
  match d.dmaTask e with
  | some t => if t.waits then d.takeUnit e t.savedR else d
  | none => d

/-- A byte of the destination lies where the source does, or in two destination rows: it is unpredictable (R221). -/
def DmaTask.overlaps (t : DmaTask) (row a : Nat) : Bool :=
  (!t.fill && (List.range t.rows).any fun r =>
    decide (t.src + r * t.srcStride ≤ a) && decide (a < t.src + r * t.srcStride + t.rowBytes)) ||
  (List.range t.rows).any fun r =>
    decide (r ≠ row) && decide (t.dst + r * t.dstStride ≤ a) && decide (a < t.dst + r * t.dstStride + t.rowBytes)

/-- Free bytes put where the destination overlaps (R221, log entry 3). -/
def Dev.unpredictable (d : Dev) (t : DmaTask) (a : Nat) (l : List Byte) : List Byte × Dev :=
  if (List.range l.length).any fun i => t.overlaps t.row (a + i) then
    let (f, d) := d.drawBytes l.length
    ((l.zip f).zipIdx.map fun b => if t.overlaps t.row (a + b.2) then b.1.2 else b.1.1, d)
  else (l, d)

/-- Bytes left before the next 4 KiB boundary. -/
def toBoundary (a : Nat) : Nat := 4096 - a % 4096

/-- Payload bytes left in the chunk in progress, or in the row where no check bytes move (R223). -/
def DmaTask.payLeft (t : DmaTask) : Nat :=
  match t.mode with
  | 1 => min (t.chunk - t.inChunk) (t.rowBytes - t.pos)
  | 2 => min (t.chunk - t.inChunk) (t.rowBytes - t.pos - (t.w - t.chk))
  | _ => t.rowBytes - t.pos

/-- The next transfer unit: payload bytes, and check bytes of the chunk that they complete. It crosses no 4 KiB boundary of its
source or destination (R221, R223). -/
def DmaTask.unitBytes (t : DmaTask) : Nat × Nat :=
  let s := if t.fill then 4096 else toBoundary (t.src + t.row * t.srcStride + t.pos)
  let a := toBoundary (t.dst + t.row * t.dstStride + t.outPos)
  let n := min t.payLeft (min s a)
  let room := if t.mode = 1 then a - n else s - n
  (n, if t.mode = 0 ∨ n < t.payLeft then 0 else min (t.w - t.chk) room)

/-- The chunk in progress ends with a unit: its payload and its check bytes have moved (R223). -/
def DmaTask.endsChunk (t : DmaTask) : Bool :=
  decide (t.mode ≠ 0) && decide (t.payLeft ≤ t.unitBytes.1) && decide (t.w ≤ t.chk + t.unitBytes.2)

/-- The engine's task ends: its check unit is released, and it is complete (R222). -/
def Dev.dmaEnd (d : Dev) (t : DmaTask) : Dev :=
  (({ d with dma := { d.dma with tasks := d.dma.tasks.filter fun u => !u.on t.engine } }).releaseUnit t.engine).endTask
    t.slot t.task 0

/-- Progress after a unit; the next row starts where a row ends, and the task ends with its last row (R221). -/
def Dev.dmaAdvance (d : Dev) (t : DmaTask) : Dev :=
  if t.pos < t.rowBytes ∨ t.inChunk ≠ 0 then d.modDma t.engine fun _ => t
  else if t.row + 1 < t.rows then d.modDma t.engine fun _ => { t with row := t.row + 1, pos := 0, outPos := 0 }
  else d.dmaEnd t

/-- A fault of an engine; one that a PCIe error caused is counted (R224, R226). -/
def Dev.dmaFault (d : Dev) (t : DmaTask) (f : FaultInfo) : Dev :=
  let d := if f.cause = 6 then (d.bump Off.dmaHostErrors).setBit Off.dmaStatus 1 else d
  d.unitFault 1 t.engine t.slot t.task t.space f

/-- A failing chunk: its payload stays written, and the task ends with CHECK_MISMATCH (R223). -/
def Dev.dmaMismatch (d : Dev) (t : DmaTask) : Dev :=
  ((d.bump Off.dmaCheckMismatches).flagEvent Off.dmaStatus 0
    { status := 0x0509, graph := t.slot, task := t.task, request := d.taskRequest t.slot t.task
      arg0 := t.dst + t.row * t.dstStride + t.outPos }).failGraph t.slot 0x0509

/-- The source and the destination of an engine's next unit are translated before its first beat (R221): whether each lies in
host memory. -/
def Dev.translateUnit (d : Dev) (r : Reader) (t : DmaTask) : Acc (Bool × Bool) × Dev :=
  let k := t.unitBytes
  let s := if t.fill ∨ (k.1 = 0 ∧ t.mode = 1) then (Acc.ok none, d)
    else match d.translate r t.space (t.src + t.row * t.srcStride + t.pos) false with
      | (.ok x, d) => (.ok (some x), d)
      | (.fault f, d) => (.fault f, d)
      | (.bad, d) => (.bad, d)
  match s with
  | (.fault f, d) => (.fault f, d)
  | (.bad, d) => (.bad, d)
  | (.ok x, d) =>
    let host := (x.map fun (x : Tlb) => decide (x.target = 1)).getD false
    if k.1 = 0 ∧ t.mode = 2 then (.ok (host, false), d)
    else
      match d.translate r t.space (t.dst + t.row * t.dstStride + t.outPos) true with
      | (.ok y, d) => (.ok (host, decide (y.target = 1)), d)
      | (.fault f, d) => (.fault f, d)
      | (.bad, d) => (.bad, d)

/-- The source bytes of an engine's next unit: payload, and check bytes to compare (R220, R223). -/
def Dev.readUnit (d : Dev) (r : Reader) (t : DmaTask) : Acc (List Byte × List Byte) × Dev :=
  let k := t.unitBytes
  if t.fill then (.ok ((List.range k.1).map fun i => BitVec.ofNat 8 (t.src / 2 ^ (8 * ((t.pos + i) % 8))), []), d)
  else
    match d.readVa r t.space (t.src + t.row * t.srcStride + t.pos) (k.1 + if t.mode = 2 then k.2 else 0) with
    | (.ok l, d) => (.ok (l.take k.1, l.drop k.1), d)
    | (.fault f, d) => (.fault f, d)
    | (.bad, d) => (.bad, d)

/-- An engine acts on an access: it goes on, stops for the fault, or aborts its task (R224, R226, R401). -/
def Dev.dmaAct {α : Type} (x : Acc α × Dev) (t : DmaTask) (k : α → Dev → Dev) : Dev :=
  match x.1 with
  | .ok a => k a x.2
  | .fault f => x.2.dmaFault t f
  | .bad => x.2.dataBad t.slot

/-- TRANSFER_UNIT: an engine's next unit is translated, read, checked and written (R221-R224). Where both translations
succeed, the walks they took are those of the read and the write that follow, and count once. -/
def Dev.transferUnit (d : Dev) (e : Nat) : Dev :=
  match d.dmaTask e with
  | none => d
  | some t =>
    if d.bitAt Off.dmaCtrl 0 || t.waits || d.stopped t.slot t.task || d.marked t.slot t.task then d
    else
      let r := d.reader 1 e t.slot t.task
      Dev.dmaAct (d.translateUnit r t) t fun _ _ => Dev.dmaAct (d.readUnit r t) t fun x d =>
        let k := t.unitBytes
        let a := t.dst + t.row * t.dstStride + t.outPos
        let run := if t.mode = 0 then 0 else x.1.foldl (crcByte t.width t.poly t.reflIn) (d.crcUnit t.unit).r
        let out := crcResult t.width t.reflOut t.inv run
        let tail := if t.mode = 1 then ((le out t.w).drop t.chk).take k.2 else []
        let (bytes, d) := d.unpredictable t a (x.1 ++ tail)
        Dev.dmaAct (d.writeVa r t.space a bytes) t fun _ d =>
          let ends := t.endsChunk
          let got := t.chkIn ++ x.2
          let d := d.bump64 Off.dmaBytesLo bytes.length
          let d := if t.mode = 0 then d else d.modCrc t.unit fun u => { u with r := if ends then t.init else run }
          if t.mode = 2 ∧ ends ∧ ofLe got ≠ out then d.dmaMismatch t
          else
            d.dmaAdvance { t with pos := t.pos + k.1 + (if t.mode = 2 then k.2 else 0)
                                  outPos := t.outPos + bytes.length
                                  inChunk := if ends ∨ t.mode = 0 then 0 else t.inChunk + k.1
                                  chk := if ends then 0 else t.chk + k.2
                                  chkIn := if ends then [] else got }

/-- HOST_ACCESS: a PCIe access of an engine's next unit ends in error (R224). -/
def Dev.hostAccess (d : Dev) (e : Nat) : Dev :=
  match d.dmaTask e with
  | none => d
  | some t =>
    let s := t.src + t.row * t.srcStride + t.pos
    let a := t.dst + t.row * t.dstStride + t.outPos
    if d.bitAt Off.dmaCtrl 0 || t.waits || d.stopped t.slot t.task || d.marked t.slot t.task then d
    else
      Dev.dmaAct (d.translateUnit (d.reader 1 e t.slot t.task) t) t fun x d =>
        if x.1 then d.dmaFault t ⟨6, 0, 0, s, false, false⟩
        else if x.2 then d.dmaFault t ⟨6, 0, 0, a, true, false⟩
        else d

/-- A saved task changed, by its graph and index. -/
def Dev.modSaved (d : Dev) (slot task : Nat) (f : DmaTask → DmaTask) : Dev :=
  let mine := fun (t : DmaTask) => t.saved && decide (t.slot = slot) && decide (t.task = task)
  { d with dma := { d.dma with tasks := d.dma.tasks.map fun t => if mine t then f t else t } }

/-- DMA_SAVE: a marked task saves its position and its check unit's running value at a unit boundary, and releases the check
unit and its engine (R225, R289). -/
def Dev.dmaSave (d : Dev) (e : Nat) : Dev :=
  match d.dmaTask e with
  | none => d
  | some t =>
    if !d.marked t.slot t.task then d
    else
      let r := if t.holds then (d.crcUnit t.unit).r else t.savedR
      ((d.releaseUnit e).modDma e fun t => { t with saved := true, holds := false, waits := false, savedR := r }).unmark
        t.slot t.task .saved

/-- DMA_RESUME: the first in the issue order of the saved tasks that ran on an engine takes that engine, or where another task
has it the lowest free one; it takes its check unit again, waiting if it must, and continues (R222, R225, R289; log entry
105). -/
def Dev.dmaResume (d : Dev) (e : Nat) : Dev :=
  let own := if d.dma.tasks.any (·.on e) then d.freeEngine else some e
  match own, d.firstTask ((d.dma.tasks.filter fun t =>
      t.saved && decide (t.engine = e) && d.canResume t.slot t.task).map fun t => (t.slot, t.task)) with
  | some n, some (slot, task) =>
    let d := (d.modSaved slot task fun t => { t with saved := false, engine := n }).setTask slot task .running
    d.takeUnit n (((d.dmaTask n).map (·.savedR)).getD 0)
  | _, _ => d

/-- DMA_COPY (R220). -/
def execDmaCopy (s : State) : Host.Outcome State Fault Refusal := lift Dev.dmaCopy s
/-- DMA_FILL (R220). -/
def execDmaFill (s : State) : Host.Outcome State Fault Refusal := lift Dev.dmaFill s
/-- CHECK_UNIT_ACQUIRE (R222). -/
def execCheckUnitAcquire (e : Nat) (s : State) : Host.Outcome State Fault Refusal := lift (·.checkUnitAcquire e) s
/-- TRANSFER_UNIT (R221). -/
def execTransferUnit (e : Nat) (s : State) : Host.Outcome State Fault Refusal := lift (·.transferUnit e) s
/-- HOST_ACCESS (R224). -/
def execHostAccess (e : Nat) (s : State) : Host.Outcome State Fault Refusal := lift (·.hostAccess e) s
/-- DMA_SAVE (R225). -/
def execDmaSave (e : Nat) (s : State) : Host.Outcome State Fault Refusal := lift (·.dmaSave e) s
/-- DMA_RESUME (R225). -/
def execDmaResume (e : Nat) (s : State) : Host.Outcome State Fault Refusal := lift (·.dmaResume e) s

end Sys2Proof.Machine
end

