-- ==== Sys2Proof/Machine/Collective.lean ====
section
/-! DEFINITION. The collective body, its checks and the ports it uses (R381-R383). -/

namespace Sys2Proof.Machine

/-- A collective body (R381). -/
def parseColl (l : List Byte) : CollTask :=
  { op := leAt l 0 1 / 16, kind := leAt l 0 1 % 16, format := leAt l 1 1, handoff := bit (leAt l 2 1) 0
    gx := leAt l 4 1, gy := leAt l 5 1, gz := leAt l 6 1, peer := leAt l 8 2, tag := leAt l 0xA 2
    count := leAt l 0xC 4, src := leAt l 0x10 8, dst := leAt l 0x18 8 }

/-- A reduction (R381). -/
def CollTask.reduces (c : CollTask) : Bool := decide (c.kind = 1) || decide (c.kind = 2)

/-- A kind that names a group (R381). -/
def CollTask.grouped (c : CollTask) : Bool := decide (1 ≤ c.kind) && decide (c.kind ≤ 4)

/-- The axis orders of a task's group (R383). -/
def Dev.collAxes (d : Dev) (c : CollTask) : List (List Nat) := d.groupAxes c.gx c.gy c.gz

/-- The members of a task's group, in canonical order (R383). -/
def Dev.collMembers (d : Dev) (c : CollTask) : List Nat := groupMembers (d.collAxes c)

/-- A device is cut or expelled (R381, R392). -/
def Dev.memberLost (d : Dev) (id : Nat) : Bool :=
  !d.present id || d.lnk.expelledSet.contains id || (decide (id = d.deviceId) && d.lnk.expelled)

/-- The checks of a collective body (R381, R486). -/
def checkColl (l : List Byte) (d : Dev) : Chk CollTask × Dev :=
  let c := parseColl l
  let ms := d.collMembers c
  let lens := decide (c.gx < 2 ^ d.lnk.nx) && decide (c.gy < 2 ^ d.lnk.ny) && decide (c.gz < 2 ^ d.lnk.nz)
  tests
    [((c.reduces || decide (c.op = 0) || !(decide (1 ≤ c.kind) && decide (c.kind ≤ 7))) &&
        decide (leAt l 2 1 < 2) && zeroAt l 3 1 && zeroAt l 7 1 &&
        (c.grouped || (decide (c.gx = 0) && decide (c.gy = 0) && decide (c.gz = 0))) &&
        (decide (c.kind ≠ 6) || (decide (c.src = 0) && decide (c.dst = 0))) && zeroAt l 0x20 32, 0x0007),
     (!c.reduces || decide (c.op ≤ 1), 0x0A07),
     (decide (1 ≤ c.kind) && decide (c.kind ≤ 7), 0x0A07),
     (!c.reduces || decide (c.format = 0xB ∨ c.format = 0xC ∨ c.format = 0xD ∨ c.format = 0xF), 0x000B),
     (c.reduces || decide (c.format = 0), 0x0A07),
     (decide (c.kind = 5) || !c.handoff, 0x0A07),
     (!c.grouped || (decide (c.gx ≠ 0) && decide (c.gx < 2 ^ d.lnk.nx)), 0x0A07),
     (!c.grouped || (decide (c.gy ≠ 0) && decide (c.gy < 2 ^ d.lnk.ny)), 0x0A07),
     (!c.grouped || (decide (c.gz ≠ 0) && decide (c.gz < 2 ^ d.lnk.nz)), 0x0A07),
     (decide (c.kind = 1 ∨ c.kind = 2 ∨ c.kind = 3) || d.inPlan c.peer, 0x0A07),
     (decide (1 ≤ c.count) && (!c.reduces || decide (c.count ≤ 2 ^ 28)), 0x0A07),
     (decide (c.src % 64 = 0), 0x000C),
     (decide (c.dst % 64 = 0), 0x000C),
     (!c.grouped || (lens && decide (2 ≤ ms.length) && ms.contains d.deviceId), 0x0A07),
     (decide (c.kind ≠ 4) || ms.contains c.peer, 0x0A07),
     (if c.grouped then ms.all fun m => !d.memberLost m else !d.memberLost c.peer, 0x0A05)]
    c d

/-- The member beside this one in an axis order, by a step of 1 up or down its canonical order. -/
def Dev.chainNext (d : Dev) (c : CollTask) (axis : Nat) (up : Bool) : Option Nat :=
  let o := (d.collAxes c).getD axis []
  let me := coordOf axis d.deviceId
  let i := o.findIdx (· == me)
  if up then (o[i + 1]?).map fun x => withCoord axis d.deviceId x
  else if i = 0 then none else (o[i - 1]?).map fun x => withCoord axis d.deviceId x

/-- The ports that a collective uses: those toward its peer, or toward the members beside this one on its chains
(R291, R385). -/
def Dev.collPorts (d : Dev) (c : CollTask) : List Nat :=
  if c.grouped then
    ((List.range 3).flatMap fun a =>
      ([d.chainNext c a true, d.chainNext c a false].filterMap id).filterMap d.route).dedup
  else if c.kind = 6 then [] else ((d.route c.peer).map fun p => [p]).getD []

/-- A port on which a collective is running (R291). -/
def Dev.portBusy (d : Dev) (p : Nat) : Bool := d.grf.colls.any fun c => (d.collPorts c).contains p

end Sys2Proof.Machine
end

