-- ==== Sys2Proof/Machine/Engine.lean ====
section
/-! DEFINITION. The graph engine: loading, running, cancelling and unloading graphs (R271-R277), issue and completion of
tasks (R280-R283, R288-R290, R307), pip tasks (R278, R279) and frame counts (R285, R287). -/

namespace Sys2Proof.Machine

/-! ## Loading (R272-R277) -/

/-- What a command answers: its status, its RESULT where the manual states one, and the device after it. -/
structure Answer where
  status : Nat
  result : Option Nat
  dev : Dev

/-- A command carried out. -/
def Dev.yes (d : Dev) (result : Nat := 0) : Answer := ⟨0, some result, d⟩

/-- A command refused. -/
def Dev.no (d : Dev) (status : Nat) : Answer := ⟨status, none, d⟩

/-- A command refused with a RESULT. -/
def Dev.noAt (d : Dev) (status result : Nat) : Answer := ⟨status, some result, d⟩

/-- A command completes with its answer; a RESULT that the manual does not state is a free value (R252, log entry 3). -/
def Answer.finish (a : Answer) (h : CmdHdr) : Dev :=
  match a.result with
  | some r => a.dev.complete h a.status r
  | none =>
    let (r, d) := a.dev.drawNat
    d.complete h a.status r

/-- Two accesses joined: the first fault, else an uncorrectable word, else both results (R273). -/
def Acc.join {α β γ : Type} (f : α → β → γ) : Acc α → Acc β → Acc γ
  | .fault g, _ => .fault g
  | _, .fault g => .fault g
  | .ok a, .ok b => .ok (f a b)
  | _, _ => .bad

/-- Ranges are read, each to its end; a fault counts before an uncorrectable word (R273). -/
def Dev.readEach (d : Dev) (r : Reader) (space : Nat) (rs : List (Nat × Nat)) : Acc (List (List Byte)) × Dev :=
  rs.foldl (fun (x : Acc (List (List Byte)) × Dev) w =>
    let y := (pieces w.1 w.2).foldl (fun (y : Acc (List Byte) × Dev) p =>
      let z := y.2.readPiece r space p.1 p.2
      (Acc.join (· ++ ·) y.1 z.1, z.2)) (.ok [], x.2)
    (Acc.join (fun ls l => ls ++ [l]) x.1 y.1, y.2)) (.ok [], d)

/-- The tests of a graph descriptor, in order (R272, R273). -/
def descTests (l : List Byte) (space : Nat) : List (Bool × Nat) :=
  let edges := leAt l 0xC 4
  let a := leAt l 4 2
  let limit := leAt l 0xA 2
  [(decide (bits a 15 9 = 0) && decide (bits a 7 6 = 0) && !bit a 3 && decide (leAt l 6 2 < 16) &&
      (decide (edges ≠ 0) || zeroAt l 0x18 8) && zeroAt l 0x24 28, 0x0007),
   (inRange (leAt l 0 4) 1 65536, 0x0701),
   (decide (bits a 5 4 ≠ 3), 0x0701),
   (decide (leAt l 6 1 % 16 = space), 0x0701),
   (decide (limit = 0) || decide (leAt l 8 2 ≤ limit), 0x0701),
   (decide (edges ≤ 1048576), 0x0701),
   (aligned (leAt l 0x10 8) 256, 0x000C),
   (aligned (leAt l 0x18 8) 64, 0x000C)]

/-- A task header (R275). -/
def parseHdr (l : List Byte) : TaskHdr :=
  { type := leAt l 0 1, preds := leAt l 2 2, succFirst := leAt l 4 4, succCount := leAt l 8 2, request := leAt l 0xC 4
    seed := leAt l 0x10 8, label := leAt l 0x18 4 }

/-- The status of a task header that is refused (R273, R275). -/
def hdrStatus (l : List Byte) : Option Nat :=
  firstFail [(zeroAt l 1 1 && zeroAt l 0xA 2 && zeroAt l 0x1C 36, 0x0007), (inRange (leAt l 0 1) 1 7, 0x0702)]

/-- The successors of a task (R277). -/
def TaskHdr.successors (h : TaskHdr) (edges : List Nat) : List Nat := (edges.drop h.succFirst).take h.succCount

/-- The edges of task `i` keep R277. -/
def edgesOk (hs : List TaskHdr) (edges : List Nat) (i : Nat) : Bool :=
  let h := hs.getD i {}
  decide (h.succFirst + h.succCount ≤ edges.length) &&
    ((h.successors edges).all fun e => decide (i < e) && decide (e < hs.length)) &&
    decide (h.preds = (hs.map fun g => (g.successors edges).count i).sum)

/-- The first task for which a test gives a status, with its index. -/
def firstBad (l : List (Option Nat)) : Option (Nat × Nat) :=
  (l.zipIdx.find? fun x => x.1.isSome).map fun x => (x.1.getD 0, x.2)

/-- GRAPH_LOAD (R273). -/
def Dev.graphLoad (d : Dev) (slot space desc : Nat) : Answer :=
  let r : Reader := { cls := 8, index := 0 }
  if (d.slot slot).state ≠ .empty then d.no 0x0704
  else if !aligned desc 64 then d.no 0x000C
  else
    match d.readEach r space [(desc, 64)] with
    | (.fault f, d) => d.no (0x0500 + f.cause)
    | (.bad, d) => d.no 0x0601
    | (.ok l, d) =>
      let l := l.headD []
      match firstFail (descTests l space) with
      | some s => d.no s
      | none =>
        let n := leAt l 0 4
        let base := leAt l 0x10 8
        let ne := leAt l 0xC 4
        match d.readEach r space ((List.range n).map (fun i => (base + 256 * i, 64)) ++ [(leAt l 0x18 8, 2 * ne)]) with
        | (.fault f, d) => d.no (0x0500 + f.cause)
        | (.bad, d) => d.no 0x0601
        | (.ok ls, d) =>
          let hs := (ls.take n).map parseHdr
          let edges := leWords 2 ne (ls.getD n [])
          match firstBad ((ls.take n).map hdrStatus) with
          | some (s, i) => d.noAt s i
          | none =>
            match (List.range n).find? fun i => !edgesOk hs edges i with
            | some i => d.noAt 0x0703 i
            | none =>
              (d.modSlot slot fun g =>
                { state := .loaded, startNow := bit (leAt l 4 2) 8, channel := bits (leAt l 4 2) 5 4
                  rank := leAt l 4 1 % 8, space := space, frames := leAt l 8 2, limit := leAt l 0xA 2
                  label := leAt l 0x20 4, base := base, tasks := hs, edges := edges, runId := g.runId }).yes

/-! ## Running (R274, R280) -/

/-- A loaded graph armed for a run: every task waits for its predecessors (R280). -/
def GraphSlot.arm (g : GraphSlot) (order : Nat) (isVoid : Nat → Bool) : GraphSlot :=
  { g with
    run := g.tasks.zipIdx.map fun h => { left := h.1.preds, isVoid := isVoid h.2 }
    done := 0, order := order, runId := g.runId + 1, ticks := 0, overran := false, overrunFrames := 0, status := 0
    audits := 0, auditFailed := false }

/-- The tasks with no predecessor left become ready (R280). -/
def readyRuns (l : List TaskRun) : List TaskRun :=
  l.map fun t => if t.left = 0 ∧ t.st = .waiting then { t with st := .ready } else t

/-- The graph of a slot becomes RUNNING (R274, R286). -/
def Dev.startGraph (d : Dev) (slot : Nat) : Dev :=
  d.modSlot slot fun g => { g with state := .running, ticks := 0, run := readyRuns g.run }

/-- The next GRAPH_RUN in the order of acceptance (R281). -/
def Dev.takeOrder (d : Dev) : Dev := { d with grf := { d.grf with order := d.grf.order + 1 } }

/-- GRAPH_RUN, by slot state; none where the command completes only with its graph (R274, R257). -/
def Dev.graphRun (d : Dev) (h : CmdHdr) (slot : Nat) : Option Nat × Dev :=
  match (d.slot slot).state with
  | .empty => (some 0x0705, d)
  | .loaded =>
    let n := d.grf.order
    let d := d.takeOrder.modSlot slot fun g =>
      { g.arm n (fun _ => false) with state := .waiting, cmd := some h, template := none, acceptedAt := d.now }
    (none, if (d.slot slot).startNow then d.startGraph slot else d)
  | _ => (some 0x0706, d)

/-- GRAPH_CANCEL; none where it completes only when every task has stopped (R274). -/
def Dev.graphCancel (d : Dev) (h : CmdHdr) (slot : Nat) : Option Nat × Dev :=
  match (d.slot slot).state with
  | .waiting => (some 0, d.finishRun slot 0x0013)
  | .running => (none, (d.modSlot slot fun g => { g with cancel := some h }).failGraph slot 0x0013)
  | _ => (some 0, d)

/-- GRAPH_UNLOAD (R274). -/
def Dev.graphUnload (d : Dev) (slot : Nat) : Answer :=
  match (d.slot slot).state with
  | .empty | .loaded => (d.modSlot slot fun g => { runId := g.runId }).yes
  | _ => d.no 0x0706

/-! ## Completion (R280, R283) -/

/-- A task is complete: it is counted, and its successors lose a predecessor (R280, R298). -/
def Dev.completeTask (d : Dev) (slot task : Nat) : Dev :=
  let succ := (d.taskHdr slot task).successors (d.slot slot).edges
  (d.modSlot slot fun g =>
    let run := upd g.run task fun t => { t with st := .complete }
    let run := succ.foldl (fun r i => upd r i fun t => { t with left := t.left - 1 }) run
    { g with done := g.done + 1, run := readyRuns run }).bump64 Off.grfTasksLo

/-- TASK_COMPLETE: a task that its unit has finished completes (R280). -/
def Dev.taskComplete (d : Dev) : Dev :=
  match d.firstTask (d.tasksIn .ended) with
  | some (slot, task) => d.completeTask slot task
  | none => d

/-- The graph of a slot has completed: every task, and every audit captured from it (R283). -/
def GraphSlot.finished (g : GraphSlot) : Bool :=
  decide (g.state = .running) && (g.run.all fun t => decide (t.st = .complete)) && decide (g.audits = 0)

/-! ## Pip cores (R278, R279) -/

/-- A pip body (R278). -/
structure PipBody where
  cores : Nat
  clusters : Nat
  limit : Nat
  entry : Nat
  argument : Nat

/-- The cores of a set of clusters. -/
def clusterCores (clusters : Nat) : List Nat := (List.range 128).filter fun c => bit clusters (c / 32)

/-- The powered cores of a set of clusters (R463). -/
def Dev.poweredCores (d : Dev) (clusters : Nat) : List Nat :=
  (clusterCores clusters).filter fun c => !d.domainOff (38 + c / 32)

/-- The free cores of a set of clusters, in rising number (R279). -/
def Dev.freeCores (d : Dev) (clusters : Nat) : List Nat :=
  (d.poweredCores clusters).filter fun c => d.grf.pip.all fun p => decide (p.core ≠ c) || p.saved

/-- The checks of a pip body (R278, R463). -/
def checkPip (l : List Byte) (d : Dev) : Chk PipBody × Dev :=
  let b : PipBody := ⟨leAt l 0 1, leAt l 1 1 % 16, leAt l 2 2, leAt l 8 8, leAt l 0x10 8⟩
  tests
    [(decide (leAt l 1 1 < 16) && zeroAt l 4 4 && zeroAt l 0x18 40, 0x0007),
     (inRange b.cores 1 128, 0x0708), (decide (b.clusters ≠ 0), 0x0708), (aligned b.entry 4, 0x0708),
     (decide (b.cores ≤ (d.poweredCores b.clusters).length), 0x0C01)] b d

/-- The cores and clusters that a pip or sample task's body asks for, as its issue finds them. -/
def Dev.coresAsked (d : Dev) (slot task : Nat) : Option (Nat × Nat) :=
  match (d.readVa {} (d.slot slot).space (d.bodyVa slot task) 64).1 with
  | .ok l =>
    if (d.taskHdr slot task).type = 4 then some (leAt l 0 1, leAt l 1 1 % 16)
    else some (leAt l 1 1, leAt l 2 1 % 16)
  | _ => none

/-- A task's cores are free, or it would be rejected or fault (R279). -/
def Dev.coresFree (d : Dev) (slot task : Nat) : Bool :=
  match d.coresAsked slot task with
  | some (n, cl) => decide (n ≤ (d.freeCores cl).length) || decide ((d.poweredCores cl).length < n)
  | none => true

/-- PIP_TASK_START: the pip task issued first whose cores are free starts on all of them together (R279). -/
def Dev.pipTaskStart (d : Dev) : Dev :=
  match d.firstTask ((d.tasksIn .issued).filter fun t =>
      decide ((d.taskHdr t.1 t.2).type = 4) && !d.stopped t.1 t.2 && d.coresFree t.1 t.2) with
  | none => d
  | some (slot, task) =>
    Dev.act (Chk.thn (d.readBody slot task 64) checkPip) 8 0 slot task (d.slot slot).space fun b d =>
      let cs := (d.freeCores b.clusters).take b.cores
      let new := cs.zipIdx.map fun (x : Nat × Nat) =>
        ({ core := x.1, slot := slot, task := task, rank := x.2, argument := b.argument, cores := b.cores
           entry := b.entry, limit := b.limit, clusters := b.clusters } : PipCore)
      ({ d with grf := { d.grf with pip := d.grf.pip ++ new } }).startTask slot task

/-- The core that runs a task, by number. -/
def Dev.pipCore (d : Dev) (core : Nat) : Option PipCore :=
  d.grf.pip.find? fun p => decide (p.core = core) && !p.saved

/-- A core changed or dropped. -/
def Dev.modPip (d : Dev) (core : Nat) (f : PipCore → Option PipCore) : Dev :=
  { d with grf := { d.grf with pip := d.grf.pip.filterMap fun p => if p.core = core ∧ !p.saved then f p else some p } }

/-- One access of a core's code: a byte written, or with none a byte read or fetched. Addresses below 0x40000 are the core's own
memory, which is not translated (R279). -/
def Dev.pipAccess (d : Dev) (p : PipCore) (a : Nat × Option Byte) : Acc Unit × Dev :=
  let r := d.reader 6 p.core p.slot p.task
  let space := (d.slot p.slot).space
  match a.2 with
  | some b =>
    if a.1 < 0x40000 then
      (.ok (), d.modPip p.core fun p => some { p with own := put p.own a.1 b })
    else d.writeVa r space a.1 [b]
  | none =>
    if a.1 < 0x40000 then (.ok (), d)
    else
      match d.readVa r space a.1 1 with
      | (.ok _, d) => (.ok (), d)
      | (.fault f, d) => (.fault f, d)
      | (.bad, d) => (.bad, d)

/-- PIP_CORE_EXIT: a core ends by ecall with a0 = `result`, its code having made `accesses` since its last event, in order; at
one that faults it stops, and the command is given again from there (R226). The task completes when every core has ended with
0 (R279). -/
def Dev.pipCoreExit (d : Dev) (core result : Nat) (accesses : List (Nat × Option Byte)) : Dev :=
  match d.pipCore core with
  | none => d
  | some p =>
    if d.stopped p.slot p.task then d
    else
      let space := (d.slot p.slot).space
      match accesses.foldl (fun (x : Acc Unit × Dev) a =>
          match x.1 with
          | .ok _ => x.2.pipAccess p a
          | _ => x) (.ok (), d) with
      | (.fault f, d) => d.unitFault 6 core p.slot p.task space f
      | (.bad, d) => d.dataBad p.slot
      | (.ok _, d) =>
        if result ≠ 0 then d.failGraph p.slot 0x070A result
        else
          let d := d.modPip core fun _ => none
          let left := d.grf.pip.filter fun q => decide (q.slot = p.slot) && decide (q.task = p.task)
          if left = [] then d.endTask p.slot p.task 0
          else if d.marked p.slot p.task && left.all fun q => q.saved then d.unmark p.slot p.task .saved
          else d

/-- PIP_EXCEPTION: a core raised an exception other than a translation fault (R279). -/
def Dev.pipException (d : Dev) (core : Nat) : Dev :=
  match d.pipCore core with
  | none => d
  | some p => d.failGraph p.slot 0x0709

/-- PIP_QUANTUM_END: a core's quantum ends; the limit fails the graph, and a marked task saves (R279, R289, R292). -/
def Dev.pipQuantumEnd (d : Dev) (core : Nat) : Dev :=
  match d.pipCore core with
  | none => d
  | some p =>
    let d := d.modPip core fun p => some { p with quanta := p.quanta + 1 }
    if p.limit ≠ 0 ∧ p.limit ≤ p.quanta + 1 then d.failGraph p.slot 0x070B
    else if d.marked p.slot p.task then
      let d := d.modPip core fun p => some { p with saved := true }
      if d.grf.pip.all fun q => !(decide (q.slot = p.slot) && decide (q.task = p.task)) || q.saved then
        d.unmark p.slot p.task .saved
      else d
    else d

/-- A saved pip task takes free cores again, in rising number (R289). -/
def Dev.pipResume (d : Dev) (slot task : Nat) : Dev :=
  let mine := fun (p : PipCore) => decide (p.slot = slot) && decide (p.task = task)
  match d.grf.pip.find? mine with
  | none => d
  | some p =>
    let free := d.freeCores p.clusters
    let back := (d.grf.pip.filter mine).zipIdx.map fun (x : PipCore × Nat) =>
      { x.1 with saved := false, core := free.getD x.2 0 }
    ({ d with grf := { d.grf with pip := d.grf.pip.filter (fun p => !mine p) ++ back } }).setTask slot task .running

/-- A saved pip task's cores are free. -/
def Dev.pipCanResume (d : Dev) (slot task : Nat) : Bool :=
  let mine := d.grf.pip.filter fun p => decide (p.slot = slot) && decide (p.task = task)
  match mine with
  | p :: _ => decide (mine.length ≤ (d.freeCores p.clusters).length)
  | [] => false

/-! ## Reference mode (R130, R257) -/

/-- A REFERENCE_SET that waits is carried out once Currant is idle (R257). -/
def Dev.refSettle (d : Dev) : Dev :=
  match d.mbx.refCmd with
  | none => d
  | some (h, e) =>
    if !d.curIdle then d
    else
      (({ d with mbx := { d.mbx with refCmd := none } }).setFld Off.curCtrl 7 7 (if e then 1 else 0)).complete h 0 0

/-! ## Issue (R281, R288-R290) -/

/-- An issued task of a type waits to start. -/
def Dev.anyIssued (d : Dev) (type : Nat) : Bool :=
  (d.tasksIn .issued).any fun t => decide ((d.taskHdr t.1 t.2).type = type)

/-- A task issued to the sequencer, or to programming, has not started. -/
def Dev.planeIssued (d : Dev) (kind : Nat) : Bool := (d.tasksIn .issued).any fun t => decide (d.unitKind t.1 t.2 = kind)

/-- A unit for a task is free (R281): the sequencer runs one operation at a time (R79) and program tasks run beside it (R95);
the wide engine takes one wide or attention task (R180, R288); a collective needs its ports (R291). -/
def Dev.unitFree (d : Dev) (slot task : Nat) : Bool :=
  match (d.taskHdr slot task).type with
  | 1 =>
    let kind := ((d.peekBody slot task).map fun l => leAt l 0 1 % 16).getD 0
    if kind = 3 then !d.planeIssued 9 && !d.pln.prog.any fun p => decide (p.slot < 16) && !p.held
    else !d.planeIssued 1 && d.pln.op.isNone && !d.seqHeld
  | 2 => d.wideFree
  | 3 => d.wideFree
  | 4 => d.coresFree slot task
  | 7 => !d.anyIssued 7 && d.coresFree slot task
  | 5 =>
    decide ((d.dma.tasks.filter fun t => !t.saved).length +
      ((d.tasksIn .issued).filter fun t => decide ((d.taskHdr t.1 t.2).type = 5)).length < 16)
  | 6 =>
    !d.anyIssued 6 && match d.peekBody slot task with
      | some l => (d.collPorts (parseColl l)).all fun p => !d.portBusy p
      | none => true
  | _ => true

/-- A saved task that comes before this one in the issue order takes the sequencer or the wide engine first (R289). -/
def Dev.savedFirst (d : Dev) (slot task : Nat) : Bool :=
  let kind := d.unitKind slot task
  decide (kind = 1 ∨ kind = 2 ∨ kind = 5 ∨ kind = 9) && (d.tasksIn .saved).any fun t =>
    decide (d.unitKind t.1 t.2 = kind) && d.before t (slot, task) && d.canResume t.1 t.2

/-- A task may be issued now (R281, R289, R290, R298). -/
def Dev.mayIssue (d : Dev) (slot task : Nat) : Bool :=
  !d.issueHeld && !d.protectedOut (d.rank slot) && d.unitFree slot task && !d.heldByRef slot task &&
    !d.savedFirst slot task

/-- Saved pip tasks that may resume (R289). -/
def Dev.pipSaved (d : Dev) : List (Nat × Nat) :=
  (d.tasksIn .saved).filter fun t =>
    decide ((d.taskHdr t.1 t.2).type = 4) && d.canResume t.1 t.2 && d.pipCanResume t.1 t.2

/-- TASK_ISSUE: the first task in the issue order that may be issued goes to its unit; a void task completes at once; a saved
pip task resumes here (R281, R289, R307). -/
def Dev.taskIssue (d : Dev) : Dev :=
  let d := d.refSettle
  let can := (d.tasksIn .ready).filter fun t => (d.taskRun t.1 t.2).isVoid || d.mayIssue t.1 t.2
  match d.firstTask (can ++ d.pipSaved) with
  | none => d
  | some (slot, task) =>
    if (d.taskRun slot task).st = .saved then d.pipResume slot task
    else if (d.taskRun slot task).isVoid then d.completeTask slot task
    else d.setTask slot task .issued

/-! ## Frames (R285, R287) -/

/-- The overrun check of a running graph: at its FRAMES-th tick it has overrun; from then on each tick adds an overrun
frame (R287). -/
def Dev.graphOverrun (d : Dev) (slot : Nat) : Dev :=
  let g := d.slot slot
  if g.state ≠ .running ∨ g.frames = 0 ∨ g.ticks < g.frames ∨ g.overran then d
  else
    ((d.modSlot slot fun g => { g with overran := true }).bump Off.grfOverruns).flagEvent Off.grfStatus 3
      { graph := slot, arg0 := slot, arg1 := g.label }

/-- The limit check: at its LIMIT_FRAMES-th tick a graph fails with FRAME_LIMIT (R287). -/
def Dev.frameLimit (d : Dev) (slot : Nat) : Dev :=
  let g := d.slot slot
  if g.state ≠ .running ∨ g.limit = 0 ∨ g.ticks < g.limit then d
  else ((d.bump Off.grfFrameLimits).setBit Off.grfStatus 4).failGraph slot 0x0707

/-- Step 7 of a tick for one graph (R286, R287). -/
def Dev.countTick (d : Dev) (slot : Nat) : Dev :=
  if (d.slot slot).state ≠ .running then d
  else
    let d := d.modSlot slot fun g => { g with ticks := g.ticks + 1 }
    let d := d.graphOverrun slot
    let d := d.modSlot slot fun g =>
      if g.overran then { g with overrunFrames := min (g.overrunFrames + 1) 65535 } else g
    d.frameLimit slot

/-- A frame-length change is asked for: at the next tick outside a formed fabric, at tick N + 16 on every device of one
(R285). -/
def Dev.askFrame (d : Dev) (us at_ : Nat) : Dev :=
  let at_ := if d.grf.frameAt = 0 then at_ else d.grf.frameAt
  (({ d with grf := { d.grf with frameAt := at_, frameNext := us } }).setReg64 Off.grfFrameAtLo at_).setBit Off.grfStatus 6

/-- GRF_FRAME_REQUEST: a write to GRF_FRAME.REQUEST (R285). The notice that carries it is Bramble's (R389). -/
def Dev.grfFrameRequest (d : Dev) (v : Nat) : Dev :=
  let us := bits v 11 0
  let formed := d.lnk.formed && !d.lnk.outOfPlan
  if !inRange us 8 4000 ∨ (formed ∧ d.deviceId ≠ 0) then d
  else
    let d := d.setFld Off.grfFrame 11 0 us
    if formed then
      let d := d.askFrame us (d.grf.tick + 17)
      d.noticeAll 0xB us (le us 4 ++ le d.grf.frameAt 8)
    else d.askFrame us (d.grf.tick + 1)

/-- TASK_ISSUE (R281). -/
def execTaskIssue (s : State) : Host.Outcome State Fault Refusal := lift Dev.taskIssue s
/-- TASK_COMPLETE (R280). -/
def execTaskComplete (s : State) : Host.Outcome State Fault Refusal := lift Dev.taskComplete s
/-- PIP_TASK_START (R279). -/
def execPipTaskStart (s : State) : Host.Outcome State Fault Refusal := lift Dev.pipTaskStart s
/-- PIP_CORE_EXIT (R279). -/
def execPipCoreExit (core result : Nat) (accesses : List (Nat × Option Byte)) (s : State) : Host.Outcome State Fault Refusal :=
  lift (·.pipCoreExit core result accesses) s
/-- PIP_EXCEPTION (R279). -/
def execPipException (core : Nat) (s : State) : Host.Outcome State Fault Refusal := lift (·.pipException core) s
/-- PIP_QUANTUM_END (R292). -/
def execPipQuantumEnd (core : Nat) (s : State) : Host.Outcome State Fault Refusal := lift (·.pipQuantumEnd core) s
/-- GRAPH_OVERRUN (R287). -/
def execGraphOverrun (slot : Nat) (s : State) : Host.Outcome State Fault Refusal := lift (·.graphOverrun slot) s
/-- FRAME_LIMIT (R287). -/
def execFrameLimit (slot : Nat) (s : State) : Host.Outcome State Fault Refusal := lift (·.frameLimit slot) s
/-- GRF_FRAME_REQUEST (R285). -/
def execGrfFrameRequest (v : Word) (s : State) : Host.Outcome State Fault Refusal := hostWrite (·.grfFrameRequest v.toNat) s

end Sys2Proof.Machine
end

