-- ==== Sys2Proof/Machine/Control.lean ====
section
/-! DEFINITION. The command interface: mailboxes, doorbells, the tests of a command, the journal, and the commands of the
interface itself (R246-R262, R266-R270). -/

namespace Sys2Proof.Machine

/-! ## Bring-up states (R266, R267) -/

/-- The code of a bring-up state (R266). -/
def Bringup.code : Bringup → Nat
  | .rom => 0 | .fw => 1 | .hold => 2 | .link => 3 | .digital => 4 | .coarse => 5 | .ready => 6 | .recovery => 7

/-- A change of bring-up state: its status bit, its event record and vector 17 (R267). -/
def Dev.setBring (d : Dev) (b : Bringup) (reason : Nat := 0) : Dev :=
  ({ d with bring := b, holdReason := reason, since := d.now }.flagEvent Off.mbxStatus 0
    { arg0 := b.code, arg1 := reason }).vector 17

/-- HOLD, LINK, DIGITAL, COARSE and READY (R257). -/
def Dev.isOpen (d : Dev) : Bool := decide (2 ≤ d.bring.code) && decide (d.bring.code ≤ 6)

/-- DIGITAL, COARSE and READY (R257). -/
def Dev.isFormed (d : Dev) : Bool := decide (4 ≤ d.bring.code) && decide (d.bring.code ≤ 6)

/-! ## Doorbells (R249, R268) -/

/-- The mailbox is open (R253, R266): every mailbox in the open states, the admin mailbox alone in RECOVERY. -/
def Dev.boxOpen (d : Dev) (m : Nat) : Bool := d.isOpen || (decide (d.bring = .recovery) && decide (m = 0))

/-- DOORBELL_WRITE (R246, R249, R268). -/
def Dev.doorbellWrite (d : Dev) (m size v : Nat) : Dev :=
  let t := v % 32
  if size ≠ 4 ∨ 17 ≤ m then d
  else if 16 < (t + 32 - (d.box m).consumed) % 32 then d.setBit Off.mbxStatus 4
  else d.modBox m fun b => { b with doorbell := t, booting := !d.boxOpen m }

/-- A mailbox opens: the slots rung during boot are discarded and counted (R268), and its expected number is 0 (R254). -/
def Dev.openBox (d : Dev) (m : Nat) : Dev :=
  let b := d.box m
  let n := (b.doorbell + 32 - b.consumed) % 32
  let d := if n = 0 then d else (d.bump Off.mbxBootDiscards n).setBit Off.mbxStatus 3
  d.modBox m fun b => { b with consumed := b.doorbell, expected := 0, rewritten := [] }

/-- MBX_CQ_HEAD: a value below the current head or above the tail is ignored (R270). -/
def Dev.mbxCqHead (d : Dev) (m v : Nat) : Dev :=
  let b := d.box m
  if (b.tail + 2 ^ 32 - b.head) % 2 ^ 32 < (v + 2 ^ 32 - b.head) % 2 ^ 32 then d
  else d.modBox m fun b => { b with head := v }

/-- MBX_CTRL: PAUSE takes its value; a SIZE_LOG2 that the field takes and that changes it needs an idle mailbox, and starts
the ring anew (R10, R270, R485). Records that PAUSE held are written when it is cleared. -/
def Dev.mbxCtrl (d : Dev) (m v : Nat) : Dev :=
  let off := mbxCtrlOff m
  let size := v % 32
  let takes := decide (1 ≤ m) && (decide (size = 0) || inRange size 6 16) && decide (size ≠ d.fld off 4 0)
  if 17 ≤ m then d
  else if takes && !d.boxPaused m then d.flagEvent Off.mbxStatus 2 { arg0 := m }
  else
    let d := if takes then
        (d.setFld off 4 0 size).modBox m fun b => { b with head := 0, tail := 0, phase := true }
      else d
    let d := d.setFld off 31 31 (v / 2 ^ 31)
    if bit v 31 then d else d.releaseRecords m

/-! ## The tests of a command (R250, R253, R254) -/

/-- What a command of R257 needs: the admin mailbox, its body bytes, the reserved bits of its body outside the fields listed
as (first bit, width), and the states that take it. -/
structure CmdSpec where
  admin : Bool
  bytes : Nat
  fields : List (Nat × Nat)
  states : Dev → Bool

/-- The state the admission floor names, from which on REQUEST_ADMIT is admitted (R257, R263). -/
def Dev.admits (d : Dev) : Bool := d.isFormed && decide (d.hub.floorState ≤ d.bring.code)

/-- LINK, DIGITAL, COARSE and READY. -/
def Dev.linkOn (d : Dev) : Bool := decide (3 ≤ d.bring.code) && decide (d.bring.code ≤ 6)

/-- The commands of R257, with their bodies. In HOLD only eight of them are admitted, and in RECOVERY five (R257, R436). -/
def cmdSpec : Nat → Option CmdSpec
  | 0x0001 => some ⟨true, 16, [(0, 8), (8, 8), (16, 1), (32, 32), (64, 64)], fun _ => true⟩
  | 0x0002 => some ⟨true, 8, [(0, 64)], fun _ => true⟩
  | 0x0003 => some ⟨true, 16, [(0, 64), (64, 32)], Dev.isOpen⟩
  | 0x0004 => some ⟨true, 16, [(0, 64), (64, 32), (96, 1)], Dev.isOpen⟩
  | 0x0005 => some ⟨true, 0, [], fun _ => true⟩
  | 0x0010 => some ⟨true, 8, [(0, 4), (8, 1)], Dev.linkOn⟩
  | 0x0011 => some ⟨true, 32, [(0, 6), (8, 4), (64, 64), (128, 64), (192, 64)], Dev.linkOn⟩
  | 0x0012 => some ⟨true, 24, [(0, 4), (64, 64), (128, 64)], Dev.linkOn⟩
  | 0x0020 => some ⟨true, 8, [(0, 20), (30, 2), (32, 32)], Dev.linkOn⟩
  | 0x0021 => some ⟨true, 4, [(0, 1)], fun d => decide (5 ≤ d.bring.code) && decide (d.bring.code ≤ 6)⟩
  | 0x0030 => some ⟨true, 16, [(0, 64), (64, 32), (96, 8)], fun _ => true⟩
  | 0x0031 => some ⟨true, 0, [], fun _ => true⟩
  | 0x0032 => some ⟨true, 0, [], Dev.isOpen⟩
  | 0x0040 => some ⟨true, 4, [(0, 1)], Dev.linkOn⟩
  | 0x0041 => some ⟨true, 4, [(0, 3), (4, 3), (8, 3)], Dev.isFormed⟩
  | 0x0050 => some ⟨true, 4, [(0, 32)], Dev.isFormed⟩
  | 0x0051 => some ⟨true, 4, [(0, 32)], Dev.isFormed⟩
  | 0x0100 => some ⟨false, 16, [(0, 8), (64, 64)], Dev.linkOn⟩
  | 0x0101 => some ⟨false, 4, [(0, 4)], Dev.isFormed⟩
  | 0x0102 => some ⟨false, 4, [(0, 4)], Dev.linkOn⟩
  | 0x0103 => some ⟨false, 4, [(0, 4)], Dev.linkOn⟩
  | 0x0110 => some ⟨false, 64, [(0, 32), (32, 32), (64, 2), (96, 32), (128, 64), (192, 64), (256, 32), (288, 32), (320, 64),
      (384, 64), (448, 32)], Dev.admits⟩
  | 0x0111 => some ⟨false, 4, [(0, 32)], Dev.isFormed⟩
  | 0x0120 => some ⟨false, 32, [(0, 32), (32, 2), (64, 64), (128, 64)], Dev.linkOn⟩
  | 0x0121 => some ⟨false, 4, [(0, 32)], Dev.linkOn⟩
  | 0x01FF => some ⟨false, 0, [], Dev.linkOn⟩
  | _ => none

/-- The bits of a body that lie in no field are 0 (R13, R253). -/
def bodyReserved (s : CmdSpec) (body : List Byte) : Bool :=
  let n := ofLe (body.take s.bytes)
  decide (n = (s.fields.map fun f => n / 2 ^ f.1 % 2 ^ f.2 * 2 ^ f.1).sum)

/-- Damson may take a command of a mailbox: the mailbox is open, no service pause runs, Damson is not halted (R403), the ring
has room, and FENCE waits for the commands before it (R250, R251, R269). -/
def Dev.takeable (d : Dev) (m : Nat) (fence : Bool) : Bool :=
  let b := d.box m
  d.boxOpen m && decide (m < 17) && !d.grf.paused && !d.evr.fatal && !(fence && decide (b.outstanding ≠ 0)) &&
    decide (b.outstanding + b.waiting.length + (b.tail + 2 ^ 32 - b.head) % 2 ^ 32 < d.ringSize m)

/-- A journal entry of a command accepted; entry J overwrites entry J - 8,192. In RECOVERY none is written (R260, R261,
R436). -/
def Dev.journal (d : Dev) (h : CmdHdr) : CmdHdr × Dev :=
  let h := { h with j := d.mbx.nextJ }
  let e : JournalRec := { j := h.j, seq := h.seq, opcode := h.opcode, mailbox := h.mbx, acceptedAt := d.now, tag := h.tag
                          hostTs := h.hostTs }
  let keep := d.mbx.journal.filter fun x => decide (h.j < x.j + 8192)
  let js := if d.bring = .recovery then d.mbx.journal else keep ++ [e]
  let n := if d.bring = .recovery then d.mbx.nextJ else d.mbx.nextJ + 1
  (h, { d with mbx := { d.mbx with journal := js, nextJ := n, openCmds := d.mbx.openCmds ++ [h] } }.modBox h.mbx
    fun b => { b with outstanding := b.outstanding + 1 })

/-- The status of the tests of R253 that follow the journal entry. -/
def Dev.cmdStatus (d : Dev) (h : CmdHdr) : Option Nat :=
  let hello := decide (h.opcode = 1)
  let recovery := decide (d.bring = .recovery)
  let known := [0x0001, 0x0002, 0x0005, 0x0030, 0x0031]
  firstFail
    [(hello || recovery || decide (d.mbx.version ≠ 0), 0x0002),
     (hello || decide (h.version = d.mbx.version) || (recovery && decide (d.mbx.version = 0)), 0x0003),
     ((cmdSpec h.opcode).isSome, 0x0004)] |>.or <|
  match cmdSpec h.opcode with
  | none => some 0x0004
  | some s => firstFail
    [(!s.admin || decide (h.mbx = 0), 0x0005),
     (decide (h.bodyBytes = s.bytes), 0x0006),
     (!h.reservedNz, 0x0007),
     (if recovery then known.contains h.opcode
      else if d.bring = .hold then (known ++ [0x0003, 0x0004, 0x0032]).contains h.opcode
      else s.states d, 0x0009)]

/-- A command is taken: the sequence test, the journal entry, and the other tests of R253. The header comes back, with its
journal entry, where the command is to be carried out. -/
def Dev.accept (d : Dev) (h : CmdHdr) : Option CmdHdr × Dev :=
  let hello := decide (h.opcode = 1)
  let b := d.box h.mbx
  if !d.boxOpen h.mbx then (none, d.modBox h.mbx fun b => { b with booting := true })
  else if !d.takeable h.mbx h.fence then (none, d)
  else if !hello && decide (h.seq ≠ b.expected) then
    (none, (d.setBit Off.mbxStatus 1).respond h 0x0008 b.expected)
  else
    let d := if hello then d else d.modBox h.mbx fun b => { b with expected := (b.expected + 1) % 2 ^ 32 }
    let (h, d) := d.journal h
    match d.cmdStatus h with
    | some st => (none, (d.no st).finish h)
    | none => (some h, d)

/-- A command of an opcode, taken and carried out on the device. -/
def Dev.command (d : Dev) (h : CmdHdr) (opcode : Nat) (k : CmdHdr → Dev → Dev) : Dev :=
  match d.accept { h with opcode := opcode } with
  | (none, d) => d
  | (some h, d) => k h d

/-- A command of an opcode, taken and carried out on the whole state. -/
def State.command (s : State) (h : CmdHdr) (opcode : Nat) (k : CmdHdr → State → State) : State :=
  match s.dev.accept { h with opcode := opcode } with
  | (none, d) => { s with dev := d }
  | (some h, d) => k h { s with dev := d }

/-! ## The commands of the interface (R255, R257) -/

/-- HELLO (R255). -/
def Dev.doHello (d : Dev) (h : CmdHdr) (minV maxV : Nat) (resetSeq : Bool) (seqBase : Nat) : Dev :=
  let result (v : Nat) : Nat := v + 2 ^ 8 + 2 ^ 16 + d.bring.code * 2 ^ 24
  if minV ≤ 1 ∧ 1 ≤ maxV then
    let d := { d with mbx := { d.mbx with version := 1 } }
    let d := if resetSeq then
        { d with mbx := { d.mbx with boxes := d.mbx.boxes.map fun (b : Mailbox) => { b with expected := seqBase } } }
      else d
    d.complete h 0 (result 1)
  else { d with mbx := { d.mbx with version := 0 } }.complete h 0x0003 (result 0)

/-- RESET_WARM: the completion is posted, and the device resets within 1 ms (R257). -/
def Dev.doResetWarm (d : Dev) (h : CmdHdr) : Dev :=
  let d := d.complete h 0 0
  { d with mbx := { d.mbx with resetDue := true } }

/-- A loaded graph uses an address space (R257). -/
def Dev.spaceInUse (d : Dev) (space : Nat) : Bool :=
  d.grf.slots.any fun g => decide (g.state ≠ .empty) && decide (g.space = space)

/-- SPACE_SET: the new root waits for its tick, at which the command completes (R219, R257). -/
def Dev.doSpaceSet (d : Dev) (h : CmdHdr) (space : Nat) (enable : Bool) : Dev :=
  let wait (t : Nat) (d : Dev) : Dev :=
    { d with mmu := { d.mmu with rootDue := d.mmu.rootDue ++ [(d.dueTick, space, t)]
                                 spaceCmds := d.mmu.spaceCmds ++ [(d.dueTick, h)] } }
  if space = 0 ∨ 15 < space then (d.no 0x000A).finish h
  else if d.spaceInUse space then (d.no 0x0014).finish h
  else if !enable then wait 0 d
  else
    match d.makeRoot space with
    | none => (d.no 0x0011).finish h
    | some (t, d) => wait (t + 1) d

/-- Page bytes of a PAGE_SIZE code (R257). -/
def pageOf (code : Nat) : Nat := [4096, 65536, 2 ^ 21, 2 ^ 30].getD (code % 4) 4096

/-- Two ranges meet. -/
def meets (a n b m : Nat) : Bool := decide (a < b + m) && decide (b < a + n)

/-- HOST_BASE of MAP is reserved but for MEMORY 3 (R13, R257). -/
def mapReserved (memory hostBase : Nat) : Bool := decide (memory ≠ 3) && decide (hostBase ≠ 0)

/-- The pages of a range: allocated one by one, or those of host memory. -/
def Dev.allocPages (d : Dev) (memory page hostBase : Nat) (n : Nat) : Option (List Nat × Dev) :=
  if memory = 3 then some ((List.range n).map fun i => hostBase + page * i, d)
  else
    (List.range n).foldl (fun (x : Option (List Nat × Dev)) _ =>
      x.bind fun (l, d) =>
        (match memory with
          | 0 => d.allocMem .hbm page page
          | 1 => d.allocNear page page
          | _ => d.allocMem .staging page page).map fun (a, d) => (l ++ [a], d)) (some ([], d))

/-- MAP. The fields are tested in their order in the body, and then the relations in the order in which R257 names them:
NO_MEMORY, MAP_OVERLAP, SPACE_DISABLED, and the ranges of VA (R257, R486, R487; log entry 27). -/
def Dev.doMap (d : Dev) (space memory pageSize : Nat) (write kv : Bool) (va bytes hostBase : Nat) : Answer :=
  let page := pageOf pageSize
  let win := d.fld Off.attKvWindow 1 0 * 2 ^ 50
  let room := [0x6000000000, 0x1E0000000, 0x20000000].getD memory (2 ^ 64)
  let fields := firstFail
    [(decide (va < 2 ^ 52), 0x000A),
     (aligned va page, 0x000C),
     (decide (1 ≤ bytes), 0x000A),
     (aligned bytes page, 0x000C),
     (decide (memory ≠ 3) || aligned hostBase page, 0x000C)]
  let relations := firstFail
    [(d.mmu.maps.all fun m => !(decide (m.space = space) && meets va bytes m.va m.bytes), 0x0012),
     ((d.root space).isSome, 0x0505),
     (decide (va + bytes ≤ 2 ^ 52) && !meets va bytes win (2 ^ 50) &&
        !(decide (space = 0) && meets va bytes damsonRange.1 damsonRange.2), 0x000A)]
  match fields with
  | some st => d.no st
  | none =>
    match (if bytes ≤ room then d.allocPages memory page hostBase (bytes / page) else none), relations with
    | none, _ => d.no 0x0011
    | some _, some st => d.no st
    | some (pages, d'), none =>
      let go := pages.zipIdx.foldl (fun (x : Option Dev) p =>
        x.bind fun d => d.mapPage space (va + page * p.2) page (if memory = 3 then 1 else 0) p.1 write kv) (some d')
      match go with
      | none => d.no 0x0011
      | some d =>
        let m : MapRec := { space := space, va := va, bytes := bytes, page := page, memory := memory, write := write
                            kv := kv, pages := pages }
        ({ d with mmu := { d.mmu with maps := d.mmu.maps ++ [m] } }).yes

/-- UNMAP: the range is exactly a union of earlier MAPs; its translations are invalidated, and its memory is free at the
second frame tick after that (R218, R257). -/
def Dev.doUnmap (d : Dev) (space va bytes : Nat) : Answer :=
  let mine := d.mmu.maps.filter fun m =>
    decide (m.space = space) && decide (va ≤ m.va) && decide (m.va + m.bytes ≤ va + bytes)
  if space = 0 ∧ meets va bytes damsonRange.1 damsonRange.2 = true then d.no 0x000A
  else if bytes = 0 ∨ (mine.map (·.bytes)).sum ≠ bytes then d.no 0x0501
  else
    let d := mine.foldl (fun d m =>
      (List.range (m.bytes / m.page)).foldl (fun d i => d.unmapPage space (m.va + m.page * i) m.page) d) d
    let freed := (mine.filter fun m => decide (m.memory ≠ 3)).flatMap fun m =>
      m.pages.map fun a => (d.grf.tick + 2, a, m.page)
    ({ d with mmu := { d.mmu with
        maps := d.mmu.maps.filter fun m => !mine.contains m
        freeing := d.mmu.freeing ++ freed } }.dropRange space va bytes).yes

/-- CALIBRATE: the pass becomes pending on the live tiles of the range (R169, R257). -/
def Dev.doCalibrate (d : Dev) (first pass count : Nat) : Answer :=
  if !inRange pass 1 3 ∨ 24576 < first + count then d.no 0x000A
  else
    let ps := (d.liveSet.filter fun x => decide (first ≤ x.1) && decide (x.1 < first + count)).map (·.2)
    (ps.foldl (fun d p => d.makePending p pass) d).yes ps.length

/-- REFERENCE_SET: it waits until Currant is idle, and holds the issue of plane tasks until then (R257). -/
def Dev.doReferenceSet (d : Dev) (h : CmdHdr) (enable : Bool) : Dev :=
  { d with mbx := { d.mbx with refCmd := some (h, enable) } }.refSettle

/-! ## Meanings -/

/-- DOORBELL_WRITE (R249). -/
def execDoorbellWrite (m size : Nat) (v : Word) (s : State) : Host.Outcome State Fault Refusal :=
  hostWrite (·.doorbellWrite m size v.toNat) s
/-- MBX_CQ_HEAD (R270). -/
def execMbxCqHead (m : Nat) (v : Word) (s : State) : Host.Outcome State Fault Refusal := hostWrite (·.mbxCqHead m v.toNat) s
/-- MBX_CTRL (R270). -/
def execMbxCtrl (m : Nat) (v : Word) (s : State) : Host.Outcome State Fault Refusal := hostWrite (·.mbxCtrl m v.toNat) s
/-- HELLO (R255). HOST_ID is the host's own and changes nothing. -/
def execHello (h : CmdHdr) (minV maxV : Nat) (resetSeq : Bool) (seqBase hostId : Nat) (s : State) :
    Host.Outcome State Fault Refusal :=
  let _ := hostId
  lift (·.command h 0x0001 fun h d => d.doHello h minV maxV resetSeq seqBase) s
/-- RESET_WARM (R257). -/
def execResetWarm (h : CmdHdr) (s : State) : Host.Outcome State Fault Refusal :=
  lift (·.command h 0x0005 fun h d => d.doResetWarm h) s
/-- SPACE_SET (R257). -/
def execSpaceSet (h : CmdHdr) (space : Nat) (enable : Bool) (s : State) : Host.Outcome State Fault Refusal :=
  lift (·.command h 0x0010 fun h d => d.doSpaceSet h space enable) s
/-- MAP (R257). -/
def execMap (h : CmdHdr) (space memory pageSize : Nat) (write kv : Bool) (va bytes hostBase : Nat) (s : State) :
    Host.Outcome State Fault Refusal :=
  let h := { h with reservedNz := h.reservedNz || mapReserved memory hostBase }
  lift (·.command h 0x0011 fun h d => (d.doMap space memory pageSize write kv va bytes hostBase).finish h) s
/-- UNMAP (R257). -/
def execUnmap (h : CmdHdr) (space va bytes : Nat) (s : State) : Host.Outcome State Fault Refusal :=
  lift (·.command h 0x0012 fun h d => (d.doUnmap space va bytes).finish h) s
/-- CALIBRATE (R169). -/
def execCalibrate (h : CmdHdr) (first pass count : Nat) (s : State) : Host.Outcome State Fault Refusal :=
  lift (·.command h 0x0020 fun h d => (d.doCalibrate first pass count).finish h) s
/-- REFERENCE_SET (R257). -/
def execReferenceSet (h : CmdHdr) (enable : Bool) (s : State) : Host.Outcome State Fault Refusal :=
  lift (·.command h 0x0021 fun h d => d.doReferenceSet h enable) s
/-- GRAPH_LOAD (R273). -/
def execGraphLoad (h : CmdHdr) (slot space descriptor : Nat) (s : State) : Host.Outcome State Fault Refusal :=
  lift (·.command h 0x0100 fun h d => (d.graphLoad slot space descriptor).finish h) s
/-- A command that is refused, or that completes only later. -/
def Dev.orLater (x : Option Nat × Dev) (h : CmdHdr) : Dev :=
  match x.1 with
  | some 0 => x.2.complete h 0 0
  | some st => (x.2.no st).finish h
  | none => x.2
/-- GRAPH_RUN (R274). -/
def execGraphRun (h : CmdHdr) (slot : Nat) (s : State) : Host.Outcome State Fault Refusal :=
  lift (·.command h 0x0101 fun h d => Dev.orLater (d.graphRun h slot) h) s
/-- GRAPH_CANCEL (R274). -/
def execGraphCancel (h : CmdHdr) (slot : Nat) (s : State) : Host.Outcome State Fault Refusal :=
  lift (·.command h 0x0102 fun h d => Dev.orLater (d.graphCancel h slot) h) s
/-- GRAPH_UNLOAD (R274). -/
def execGraphUnload (h : CmdHdr) (slot : Nat) (s : State) : Host.Outcome State Fault Refusal :=
  lift (·.command h 0x0103 fun h d => (d.graphUnload slot).finish h) s
/-- NOP (R257). -/
def execNop (h : CmdHdr) (s : State) : Host.Outcome State Fault Refusal :=
  lift (·.command h 0x01FF fun h d => d.complete h 0 0) s

end Sys2Proof.Machine
end

