-- ==== Sys2Proof/Machine/Serving.lean ====
section
/-! DEFINITION. Serving requests: admission and retirement (R300-R303, R337), parking (R304), templates and their bindings
(R305-R307), composition of steps (R308-R312), adapters (R329, R330) and weight editions (R332-R335). -/

namespace Sys2Proof.Machine

/-! ## Tokens of a request -/

/-- The token of a request at a position, where it is known here (R301, R303, R336). -/
def Request.tokenAt (r : Request) (p : Nat) : Option Nat :=
  if p < r.prefixLen then r.prefixTokens[p]?
  else if p < r.promptEnd then r.prompt[p - r.prefixLen]?
  else look r.known p

/-- One more occurrence of a token, held at 65,535 (R316). -/
def countToken (c : List (Nat × Nat)) (t : Nat) : List (Nat × Nat) := put c t (min ((look c t).getD 0 + 1) 65535)

/-- The block's penalties differ from their neutral values, so that counts are kept (R316). -/
def Sampling.counts (s : Sampling) : Bool :=
  !(decide ((fpVal s.frequency).num = 0) && decide ((fpVal s.presence).num = 0) && decide (s.repetition = 0x3F800000))

/-- The valid template that names an edition (R305, R312). -/
def Dev.template (d : Dev) (edition : Nat) : Option Template :=
  d.srv.templates.find? fun t => decide (t.edition = edition)

/-- A valid template changed. -/
def Dev.modTemplate (d : Dev) (i : Nat) (f : Template → Template) : Dev :=
  { d with srv := { d.srv with templates := d.srv.templates.map fun t => if t.index = i then f t else t } }

/-! ## The sampling block (R315) -/

/-- A sampling block. -/
def parseSampling (l : List Byte) : Sampling :=
  { temperature := wordAt l 0, topP := wordAt l 4, frequency := wordAt l 8, presence := wordAt l 0xC
    repetition := wordAt l 0x10, topK := leAt l 0x14 1, countPrompt := bit (leAt l 0x15 1) 0, width := leAt l 0x16 1
    depth := leAt l 0x17 1, stop := (leWords 4 8 (l.drop 0x20)).take (leAt l 0x18 1) }

/-- A finite FP32 value in a closed range. -/
def fpWithin (w lo hi : Word) : Bool := !fpBad w && !fpLt w lo && !fpLt hi w

/-- The tests of a sampling block (R315): reserved fields, then ranges. -/
def samplingTests (l : List Byte) (va : Nat) (speculate : Bool) : List (Bool × Nat) :=
  let s := parseSampling l
  let n := leAt l 0x18 1
  [(decide (leAt l 0x15 1 < 2) && zeroAt l 0x19 7 && (speculate || (zeroAt l 0x16 1 && zeroAt l 0x17 1)) &&
      (decide (8 < n) || ((leWords 4 8 (l.drop 0x20)).drop n).all fun t => decide (t = 0)), 0x0007),
   (aligned va 64 &&
      ((!fpBad s.temperature && decide ((fpVal s.temperature).num = 0)) || fpWithin s.temperature 0x3C23D70A 0x42C80000) &&
      fpWithin s.topP 0x00000001 0x3F800000 && fpWithin s.frequency 0xC0000000 0x40000000 &&
      fpWithin s.presence 0xC0000000 0x40000000 && fpWithin s.repetition 0x3F800000 0x41000000 &&
      inRange s.topK 1 64 && decide (n ≤ 8) &&
      (!speculate || (inRange s.width 1 8 && inRange s.depth 1 15 && decide (1 + s.width * s.depth ≤ 64))), 0x0805)]

/-! ## Admission (R300, R301, R303) -/

/-- Bytes that Damson reads for a command, or the status of the fault cause; no fault record is written (R301). -/
def Dev.fetch (d : Dev) (va n : Nat) : Except Nat (List Byte) × Dev :=
  match d.readVa {} 0 va n with
  | (.ok l, d) => (.ok l, d)
  | (.fault f, d) => (.error (0x0500 + f.cause), d)
  | (.bad, d) => (.error 0x0601, d)

/-- Whether a read that was needed ended well, with the status it ends with otherwise. -/
def fetchTest (needed : Bool) (x : Except Nat (List Byte)) : Bool × Nat :=
  match x with
  | .ok _ => (true, 0)
  | .error s => (!needed, s)

/-- The bytes read, none where the read failed. -/
def fetched (x : Except Nat (List Byte)) : List Byte :=
  match x with
  | .ok l => l
  | .error _ => []

/-- The lowest sequence slot that no tracked request holds (R301). -/
def Dev.freeSeq (d : Dev) : Nat :=
  ((List.range 4096).find? fun s => !(d.srv.requests.any fun r => decide (r.seqSlot = s))).getD 0

/-- The first tests of REQUEST_ADMIT, those that need no memory (R301; log entry 46 for a releasing current edition). -/
def Dev.admitTests (d : Dev) (b : AdmitBody) (plen : Nat) : List (Bool × Nat) :=
  let t := d.template d.srv.current
  let ok := match t with
    | some t => !b.speculate || !t.embeds || t.draft
    | none => false
  [(!d.bitAt Off.plnCtrl 0, 0x0109), (decide (b.id ≠ 0xFFFFFFFF), 0x000A), ((d.request b.id).isNone, 0x0801),
   (decide (d.srv.requests.length < 4096), 0x0803), (ok, 0x0813), (!d.srv.releasing.contains d.srv.current, 0x0812),
   (decide (b.promptTokens ≠ 0) && decide (b.maxTokens ≤ 4194304), 0x000A),
   (decide (plen + b.promptTokens + b.maxTokens ≤ 4194304), 0x0404)]

/-- The tree shapes that R315 allows: TREE_WIDTH and TREE_DEPTH. -/
def treeShapes : List (Nat × Nat) :=
  ((List.range 8).flatMap fun w => (List.range 15).map fun k => (w + 1, k + 1)).filter fun x => decide (1 + x.1 * x.2 ≤ 64)

/-- The tree shape of a request on an embedding device that does not read its sampling block: R300 says of no way in which it
comes to know it, so that it is a free one of those allowed (R315, R325; log entry 110). -/
def Dev.freeShape (d : Dev) : Sampling × Dev :=
  let (n, d) := d.drawNat
  let x := treeShapes.getD (n % treeShapes.length) (1, 1)
  ({ width := x.1, depth := x.2 }, d)

/-- Memory for the prompt copy and the count table: their extents (R301, R316). -/
def Dev.admitMemory (d : Dev) (prompt counts : Bool) (n : Nat) : Option (Option Nat × Option Nat × Dev) :=
  let size := alignUp (2 * d.fld Off.srvVocab 18 0) 64
  let p : Option (Option Nat × Dev) :=
    if prompt then (d.allocMem .hbm (alignUp (4 * n) 64) 64).map fun x => (some x.1, x.2) else some (none, d)
  p.bind fun p =>
    if !counts then some (p.1, none, p.2)
    else
      (match p.2.allocNear size 64 with
        | some x => some x
        | none => p.2.allocMem .hbm size 64).map fun (x : Nat × Dev) => (p.1, some x.1, x.2)

/-- The ring's header as the device writes it at admission (R319). -/
def Dev.ringStart (d : Dev) (id : Nat) : Dev :=
  match d.request id with
  | none => d
  | some r =>
    if r.ringEntries = 0 then d
    else
      match (d.writeHost r.ring (List.replicate 8 0)).bind fun d => d.writeHost (r.ring + 16) (List.replicate 48 0) with
      | some d => d
      | none => d.ringFailed id

/-- REQUEST_ADMIT (R301, R303): the tests in order, then the request as it is tracked. -/
def Dev.admission (d : Dev) (b : AdmitBody) : Answer :=
  let cur := d.srv.current
  let holder := if b.pfx = 0xFFFFFFFF then none else d.request b.pfx
  let plen := (holder.map Request.promptEnd).getD 0
  let embeds := ((d.template cur).map (·.embeds)).getD false
  let samples := ((d.template cur).map (·.samples)).getD false
  match firstFail ((!samples || aligned b.ring 4096, 0x000A) :: d.admitTests b plen) with
  | some s => d.no s
  | none =>
    let (blk, d) := if samples then d.fetch b.sampling 64 else (.ok [], d)
    let (smp, d) := if samples then (parseSampling (fetched blk), d)
      else if embeds && b.speculate then d.freeShape else ({}, d)
    let reads := embeds || (samples && smp.countPrompt)
    let (pr, d) := if reads then d.fetch b.prompt (4 * b.promptTokens) else (.ok [], d)
    let toks := if reads then leWords 4 b.promptTokens (fetched pr) else []
    let adapter := if b.adapter = 0xFFFFFFFF then none else d.srv.adapters.find? fun a => decide (a.id = b.adapter)
    let vocab := d.fld Off.srvVocab 18 0
    match firstFail
      ([fetchTest reads pr, (toks.all fun t => decide (t ≠ 0xFFFFFFFF) && decide (t < vocab), 0x000A),
        (!samples || (decide (b.ringEntries = 2 ^ Nat.log2 b.ringEntries) && inRange b.ringEntries 64 65536), 0x0804),
        fetchTest samples blk] ++
       (if samples then samplingTests (fetched blk) b.sampling b.speculate else []) ++
       [(decide (b.pfx = 0xFFFFFFFF) || (holder.any fun r => decide (r.maxTokens = 0)), 0x0806),
        (holder.all fun r => decide (r.state = .ended) && decide (r.endReason = 6), 0x0807),
        (holder.all fun r => decide (r.edition = cur), 0x0808),
        (decide (b.adapter = 0xFFFFFFFF) || adapter.isSome, 0x0809),
        (adapter.all fun a => decide (a.edition = cur), 0x080E)]) with
    | some s => d.no s
    | none =>
      let counts := samples && smp.counts
      match d.admitMemory reads counts b.promptTokens with
      | none => d.no 0x0011
      | some (pAt, cAt, d) =>
        let pfxToks := (holder.map fun h => h.prefixTokens ++ h.prompt).getD []
        let r : Request :=
          { id := b.id, seqSlot := d.freeSeq, order := d.srv.admitted, adapter := adapter.map (·.id), follow := b.follow
            speculate := b.speculate, maxTokens := b.maxTokens, seed := b.seed, ring := if samples then b.ring else 0
            ringEntries := if samples then b.ringEntries else 0, promptTokens := b.promptTokens, prompt := toks
            prefixLen := plen, prefixTokens := pfxToks, sampling := smp, edition := cur, lastEdition := cur
            committed := plen, prefillNext := plen, rings := 64, promptAt := pAt, countAt := cAt
            madeOf := (holder.map fun h => h.seqSlot + 1).getD 0, embeds := embeds, samples := samples
            counts := if counts && smp.countPrompt then (pfxToks ++ toks).foldl countToken [] else []
            inputTick := d.grf.tick, lastStep := d.grf.tick }
        let d := { d with srv := { d.srv with requests := d.srv.requests ++ [r], admitted := d.srv.admitted + 1 } }
        let d := match holder with
          | some h => d.kvAttachPrefix h.seqSlot r.seqSlot plen
          | none => d
        let d := match cAt with
          | some a => (d.writePa a (List.replicate (2 * vocab) 0)).storeCounts b.id (r.counts.map Prod.fst)
          | none => d
        ((d.mapAhead r.seqSlot (plen + 64)).ringStart b.id).yes cur

/-! ## Retirement (R337) -/

/-- REQUEST_RETIRE: the request leaves composition at once; RESULT is the tokens emitted so far (R337). -/
def Dev.retire (d : Dev) (id : Nat) : Answer :=
  match d.request id with
  | none => d.no 0x0802
  | some r =>
    let tick := d.grf.tick
    ((d.modRequest id fun r =>
      if r.retiring then r else { r with retiring := true, retireTick := tick }).dropArrivals id 0).yes r.emitted

/-- A run composed or in progress holds rows of the request. -/
def Dev.inRun (d : Dev) (id : Nat) : Bool :=
  d.srv.templates.any fun t => (t.rows ++ t.running ++ t.draftRows).any fun w => decide (w.request = id)

/-- Retirement takes effect at the next tick, or when the run that holds the request's rows completes (R337). -/
def Dev.retireEffect (d : Dev) (id : Nat) : Dev :=
  match d.request id with
  | none => d
  | some r =>
    if !r.retiring ∨ d.grf.tick ≤ r.retireTick ∨ d.inRun id ∨ d.seqBusy r.seqSlot then d
    else
      let d := (d.endRequest id 4 0).kvFree r.seqSlot
      let d := (r.promptAt.toList ++ r.countAt.toList).foldl (fun d a => d.freeMem a) d
      { d with srv := { d.srv with requests := d.srv.requests.filter fun r => decide (r.id ≠ id) } }

/-! ## Adapters (R329, R330) -/

/-- The header and the descriptors of an adapter image keep R329. -/
def imageOk (l : List Byte) (bytes : Nat) : Bool :=
  let n := leAt l 0 4
  decide (64 ≤ bytes) && inRange n 1 1024 && zeroAt l 8 56 && decide (64 + 64 * n ≤ bytes) &&
    (List.range n).all fun i =>
      let p := (l.drop (64 + 64 * i)).take 64
      zeroAt p 3 1 && zeroAt p 0x2C 20 && decide (leAt p 0x10 8 < bytes) && decide (leAt p 0x18 8 < bytes)

/-- An adapter image with the offsets of its descriptors replaced by device addresses (R329). -/
def placeImage (l : List Byte) (base : Nat) : List Byte :=
  (List.range (leAt l 0 4)).foldl (fun l i =>
    let o := 64 + 64 * i
    let fix := fun (l : List Byte) (k : Nat) =>
      l.take (o + k) ++ le (damsonVa (base + leAt l (o + k) 8)) 8 ++ l.drop (o + k + 8)
    fix (fix l 0x10) 0x18) l

/-- ADAPTER_LOAD (R330). -/
def Dev.adapterLoad (d : Dev) (id memory source bytes : Nat) : Answer :=
  match firstFail [(decide (id ≠ 0xFFFFFFFF) && decide (memory ≤ 1), 0x000A),
      (!(d.srv.adapters.any fun a => decide (a.id = id)), 0x080A), (decide (d.srv.adapters.length < 1024), 0x080B)] with
  | some s => d.no s
  | none =>
    match d.fetch source bytes with
    | (.error s, d) => d.no s
    | (.ok l, d) =>
      if !imageOk l bytes then d.no 0x080D
      else
        match if memory = 0 then d.allocMem .hbm (alignUp bytes 4096) 4096 else d.allocNear (alignUp bytes 4096) 4096 with
        | none => d.no 0x0011
        | some (a, d) =>
          let d := d.writePa a (placeImage l a)
          let x : Adapter := { id := id, edition := leAt l 4 4, points := leAt l 0 4, base := a, bytes := bytes }
          ({ d with srv := { d.srv with adapters := d.srv.adapters ++ [x] } }).yes

/-- ADAPTER_UNLOAD: its memory is free at the second tick after that (R330, R402). -/
def Dev.adapterUnload (d : Dev) (id : Nat) : Answer :=
  match d.srv.adapters.find? fun a => decide (a.id = id) with
  | none => d.no 0x0809
  | some a =>
    if !a.damaged && (d.srv.requests.any fun r => decide (r.adapter = some id)) then d.no 0x080C
    else
      ({ d with srv := { d.srv with
          adapters := d.srv.adapters.filter fun a => decide (a.id ≠ id)
          adapterFree := d.srv.adapterFree ++ [(d.grf.tick + 2, a.base, a.bytes)] } }).yes

/-- An adapter's image mapped read-only in an address space, page by page (R306, R329). -/
def Dev.exposeAdapter (d : Dev) (space : Nat) (a : Adapter) : Dev :=
  (List.range (alignUp a.bytes 4096 / 4096)).foldl (fun d i =>
    let pa := a.base + 4096 * i
    (d.mapPage space (damsonVa pa) 4096 0 pa false false).getD d) d

/-! ## Editions (R332-R335) -/

/-- The logical tiles of an edition. -/
def Dev.editionTiles (d : Dev) (e : Nat) : List Nat :=
  (d.pln.logical.filter fun x => decide (x.2.edition = e)).map (·.1)

/-- The end of the frame in progress by the local count (R284). -/
def Dev.nextTick (d : Dev) : Nat := d.grf.tickTime + 1000 * d.fld Off.grfFrame 27 16

/-- EDITION_SWITCH (R333). -/
def Dev.editionSwitch (d : Dev) (e : Nat) : Answer :=
  let ts := d.editionTiles e
  match firstFail [(decide (ts ≠ []), 0x080F),
      (ts.all fun l => decide (d.tileState l ≠ .programming) && decide (d.tileState l ≠ .uncalibrated), 0x0810),
      ((d.template e).isSome, 0x0813)] with
  | some s => d.no s
  | none =>
    if e = d.srv.current then ⟨0, none, d⟩
    else { d with srv := { d.srv with switchDue := some e } }.yes d.nextTick

/-- EDITION_RELEASE (R334). -/
def Dev.editionRelease (d : Dev) (e : Nat) : Answer :=
  if e = d.srv.current then d.no 0x0811
  else if d.editionTiles e = [] then d.no 0x080F
  else if d.srv.releasing.contains e then d.yes
  else { d with srv := { d.srv with releasing := d.srv.releasing ++ [e] } }.yes

/-- An edition flip takes effect at the tick (R286, R333). -/
def Dev.flipEdition (d : Dev) : Dev :=
  match d.srv.switchDue with
  | none => d
  | some e => { d with srv := { d.srv with current := e, switchDue := none } }

/-- Nothing keeps a releasing edition: no request pins it, no row carries it, no run names it (R334). -/
def Dev.editionFree (d : Dev) (e : Nat) : Bool :=
  let row := fun (w : StepRow) => decide (w.edition = e)
  !(d.srv.requests.any fun r => decide (r.edition = e)) && !(d.srv.arrivals.any row) &&
    !(d.srv.templates.any fun t => (t.rows ++ t.running ++ t.draftRows).any row) &&
    !((d.pln.op.toList ++ d.pln.saved ++ d.pln.tails).any fun o => decide (o.body.edition = e)) &&
    !(d.pln.prog.any fun p => decide (p.body.edition = e))

/-- The tiles of releasing editions that nothing keeps become FREE, and their master pages leave Damson's range (R334, R343). -/
def Dev.releaseEditions (d : Dev) : Dev :=
  let done := d.srv.releasing.filter d.editionFree
  let pages := (d.pln.logical.filter fun x => done.contains x.2.edition).flatMap fun x => x.2.pages
  let d := (done.flatMap d.editionTiles).foldl (fun d l =>
    match d.log l with
    | none => d
    | some t =>
      let mine := t.spare.toList.filter fun p => decide ((d.phys p).logical = some l)
      let d := (t.phys.toList ++ mine).foldl (fun d p => d.freePhys p) (d.dropAudits l)
      { d with pln := { d.pln with
          logical := del d.pln.logical l
          prog := d.pln.prog.map fun (p : ProgTask) =>
            if p.slot = 16 then { p with todo := p.todo.filter fun x => decide (x.1 ≠ l) } else p } }.closeProgs) d
  { d with srv := { d.srv with releasing := d.srv.releasing.filter fun e => !done.contains e } }.hidePages pages

/-! ## Templates (R305, R306) -/

/-- A binding entry (R306). -/
def parseBinding (l : List Byte) : Binding :=
  { target := leAt l 0 8, kind := leAt l 8 1, row := leAt l 0xA 2, argument := leAt l 0xC 4 }

/-- A binding entry keeps R306 in a graph of `tasks` tasks. -/
def bindingOk (l : List Byte) (capacity tasks : Nat) : Bool :=
  let b := parseBinding l
  zeroAt l 9 1 && inRange b.kind 1 5 && decide (b.row < capacity) && (decide (b.kind = 5) || decide (b.argument = 0)) &&
    (decide (b.kind ≠ 1) || decide (b.target < tasks))

/-- Binding entries read by Damson; none where a read fails or an entry breaks R306. -/
def Dev.readBindings (d : Dev) (va n capacity tasks : Nat) : Option (List Binding) × Dev :=
  match d.fetch va (16 * n) with
  | (.ok l, d) =>
    let es := groupsOf 16 n l
    (if es.all fun e => bindingOk e capacity tasks then some (es.map parseBinding) else none, d)
  | (.error _, d) => (none, d)

/-- A template record, as read: the template, and whether its fields keep R305. -/
def parseTemplate (i : Nat) (l : List Byte) : Template × Bool :=
  let f := leAt l 5 1
  let draft := bit f 2
  ({ index := i, edition := leAt l 0 4, stepSlot := leAt l 4 1 % 16, draftSlot := leAt l 4 1 / 16, embeds := bit f 0
     samples := bit f 1, draft := draft, capacity := leAt l 6 2, stepTable := leAt l 0x18 8 },
   decide (f < 8) && (draft || (decide (leAt l 4 1 < 16) && zeroAt l 0x20 8)) && inRange (leAt l 6 2) 1 1024 &&
     decide (leAt l 8 2 ≤ 4096) && decide (leAt l 0xA 2 ≤ 4096) && zeroAt l 0xC 4 && aligned (leAt l 0x10 8) 16 &&
     aligned (leAt l 0x18 8) 64 && zeroAt l 0x28 24)

/-- The record of template `i` as it stands; none where it is invalid (R305). -/
def Dev.readTemplate (d : Dev) (i : Nat) : Option Template × Dev :=
  let lo := d.reg (Off.srvTemplateLo + 8 * i)
  let va := bits lo 31 6 * 64 + 2 ^ 32 * d.fld (Off.srvTemplateHi + 8 * i) 19 0
  match d.fetch va 64 with
  | (.error _, d) => (none, d)
  | (.ok l, d) =>
    let (t, ok) := parseTemplate i l
    let loaded := fun (s : Nat) => decide ((d.slot s).state = .loaded)
    let others := d.srv.templates.filter fun u => decide (u.index ≠ i)
    if !ok || !loaded t.stepSlot || (t.draft && !loaded t.draftSlot) || (others.any fun u => decide (u.edition = t.edition))
    then (none, d)
    else
      match d.readBindings (leAt l 0x10 8) (leAt l 8 2) t.capacity (d.slot t.stepSlot).tasks.length with
      | (none, d) => (none, d)
      | (some bs, d) =>
        if !t.draft then (some { t with bindings := bs }, d)
        else
          match d.readBindings (leAt l 0x20 8) (leAt l 0xA 2) t.capacity (d.slot t.draftSlot).tasks.length with
          | (none, d) => (none, d)
          | (some ds, d) => (some { t with bindings := bs, draftBindings := ds }, d)

/-- Template `i` after its register has taken effect: absent, valid or invalid (R305). A run in progress keeps its rows. -/
def Dev.setTemplate (d : Dev) (i : Nat) : Dev :=
  let old := d.srv.templates.find? fun t => decide (t.index = i)
  let others := d.srv.templates.filter fun t => decide (t.index ≠ i)
  if !d.bitAt (Off.srvTemplateLo + 8 * i) 0 then { d with srv := { d.srv with templates := others } }
  else
    match d.readTemplate i with
    | (none, d) =>
      ({ d with srv := { d.srv with templates := others } }).flagEvent Off.srvStatus 3 { arg0 := i }
    | (some t, d) =>
      let t := match old with
        | some o => { t with rows := o.rows, composedAt := o.composedAt, forTick := o.forTick, running := o.running
                             draftRows := o.draftRows }
        | none => t
      { d with srv := { d.srv with templates := others ++ [t] } }

/-- The templates whose registers have shadow values that take effect at this tick. -/
def Dev.templatesDue (d : Dev) : List Nat :=
  (List.range 4).filter fun i =>
    (look d.shadow (Off.srvTemplateLo + 8 * i)).isSome || (look d.shadow (Off.srvTemplateHi + 8 * i)).isSome

/-! ## Step tables and bindings (R306, R311) -/

/-- A row record of a step table (R311). -/
def stepRowBytes (w : StepRow) : List Byte :=
  le w.request 4 ++ le w.position 4 ++ le w.token 4 ++
    le (w.seqSlot + 2 ^ 16 * w.kind + (if w.sample then 2 ^ 18 else 0)) 4 ++ le w.node 1 ++ le w.parent 1 ++ [0, 0] ++
    le w.flags 4 ++ le w.baseLen 4 ++ [0, 0, 0, 0]

/-- A step table (R311). -/
def stepTableBytes (edition tick : Nat) (rows : List StepRow) : List Byte :=
  le rows.length 2 ++ [0, 0] ++ le edition 4 ++ le tick 8 ++ List.replicate 48 0 ++
    rows.flatMap stepRowBytes

/-- A row of a step table, as a sample task reads it (R311). -/
def parseStepRow (l : List Byte) : StepRow :=
  let f := leAt l 0xC 4
  { request := leAt l 0 4, position := leAt l 4 4, token := leAt l 8 4, seqSlot := f % 4096, kind := bits f 17 16
    sample := bit f 18, node := leAt l 0x10 1 % 128, parent := leAt l 0x11 1 % 128, flags := leAt l 0x14 4
    baseLen := leAt l 0x18 4 }

/-- An accepted path in the layout of R191: six bits for each entry. -/
def pathBits (p : List Nat) : Nat := (p.take 15).zipIdx.foldl (fun a (x : Nat × Nat) => a + x.1 % 64 * 64 ^ x.2) 0

/-- The attention row record of a step row (R191, R202, R203). -/
def attRowBytes (w : StepRow) : List Byte :=
  le (if w.node = 0x7F then w.position else w.baseLen + w.node) 4 ++ le w.position 4 ++ le w.baseLen 4 ++
    le (w.seqSlot * 2 ^ 16) 4 ++ le w.node 1 ++ le w.parent 1 ++ le w.acceptCount 1 ++ [0] ++
    le (pathBits (w.acceptPath.take w.acceptCount)) 12

/-- Damson writes bytes for the runner, in address space 0 as in all its own accesses; what faults is not written (R212, log
entry 45). -/
def Dev.damsonPut (d : Dev) (va : Nat) (l : List Byte) : Dev := (d.writeVa {} 0 va l).2

/-- The address that an ADAPTER binding writes (R306). -/
def Dev.pointVa (d : Dev) (w : StepRow) (point : Nat) : Option (Adapter × Nat) :=
  ((d.request w.request).bind (·.adapter)).bind fun id =>
    (d.srv.adapters.find? fun a => decide (a.id = id)).bind fun a =>
      if point < a.points then some (a, damsonVa (a.base + 64 + 64 * point)) else none

/-- One binding entry carried out for a run's rows, whose graph lies in an address space (R306). -/
def Dev.bind (d : Dev) (space : Nat) (rows : List StepRow) (b : Binding) : Dev :=
  match b.kind with
  | 2 => d.damsonPut b.target (le rows.length 4)
  | 3 => rows.zipIdx.foldl (fun d x => d.damsonPut (b.target + 32 * x.2) (attRowBytes x.1)) d
  | 4 => d.damsonPut b.target (le ((rows[b.row]?).map (·.token) |>.getD 0) 4)
  | 5 =>
    match (rows[b.row]?).bind fun w => d.pointVa w b.argument with
    | none => d.damsonPut b.target (le 0 8)
    | some (a, va) => (d.exposeAdapter space a).damsonPut b.target (le va 8)
  | _ => d

/-- The step table is written and the bindings are carried out in array order; TOKEN is 0xFFFF_FFFF on a device that neither
embeds nor samples (R306, R308, R311). -/
def Dev.writeStep (d : Dev) (t : Template) (slot tick : Nat) (bs : List Binding) (rows : List StepRow) : Dev :=
  let space := (d.slot slot).space
  let rows := if t.embeds || t.samples then rows else rows.map fun w => { w with token := 0xFFFFFFFF }
  let d := d.damsonPut t.stepTable (stepTableBytes t.edition tick rows)
  bs.foldl (fun d b => d.bind space rows b) d

/-- A task is void in a run of `n` rows (R306, R307). -/
def voidIn (bs : List Binding) (n task : Nat) : Bool :=
  bs.any fun b => decide (b.kind = 1) && decide (b.target = task) && decide (n ≤ b.row)

/-- A graph of a template starts for its rows (R286, R308). -/
def Dev.startRun (d : Dev) (t : Template) (slot : Nat) (bs : List Binding) (rows : List StepRow) : Dev :=
  let n := d.grf.order
  (d.takeOrder.modSlot slot fun g =>
    { g.arm n (voidIn bs rows.length) with cmd := none, template := some t.index }).startGraph slot

/-! ## Trees (R325, R328) -/

/-- The depth to which a request is drafted: no node passes the last position (log entry 47). -/
def Request.draftDepth (r : Request) : Nat := min r.sampling.depth (4194303 - r.committed)

/-- The request's next step carries a tree: full size, or a probe is due (R325, R328). -/
def Dev.wantsTree (d : Dev) (t : Template) (r : Request) : Bool :=
  r.embeds && r.speculate && t.draft && d.bitAt Off.srvCtrl 1 && (r.full || r.probing || decide (64 ≤ r.sinceZero)) &&
    decide (0 < r.draftDepth)

/-- Its tree is drafted to its full depth. -/
def Dev.treeDone (d : Dev) (t : Template) (r : Request) : Bool :=
  !d.wantsTree t r || decide (r.sampling.width * r.draftDepth ≤ r.tree.length)

/-- Free entries of the request's ring, as this device knows them (R309). -/
def Request.room (r : Request) : Nat := if r.samples then r.ringEntries - (r.ringTail - r.ringHead) else r.rings

/-! ## Composition (R308-R312) -/

/-- Rows that enter a step together, with their place in the order of R309. -/
structure Offer where
  group : Nat
  arrived : Nat
  order : Nat
  rows : List StepRow

/-- The order of R309: group, tick of arrival, admission order, position. -/
def Offer.key (o : Offer) : List Nat := [o.group, o.arrived, o.order, (o.rows.headD {}).position]

/-- Lexicographic order. -/
def lexLt : List Nat → List Nat → Bool
  | a :: as, b :: bs => decide (a < b) || (decide (a = b) && lexLt as bs)
  | [], _ :: _ => true
  | _, [] => false

/-- An element put in its place in a list in order; behind its equals. -/
def insertBy {α : Type} (lt : α → α → Bool) (a : α) : List α → List α
  | [] => [a]
  | b :: l => if lt a b then a :: b :: l else b :: insertBy lt a l

/-- A list put in order, equals kept in theirs. -/
def sortBy {α : Type} (lt : α → α → Bool) (l : List α) : List α := l.foldl (fun s a => insertBy lt a s) []

/-- A row of the request's next step (R311). -/
def Request.row (r : Request) (kind position edition : Nat) : StepRow :=
  { request := r.id, position := position, token := (r.tokenAt position).getD 0xFFFFFFFF, seqSlot := r.seqSlot
    kind := kind, baseLen := r.committed, edition := edition, arrived := r.inputTick }

/-- The nodes of a request's verify tree (R202, R325); `depths` are those of the nodes made so far. -/
def Request.treeRows (r : Request) (edition : Nat) : List StepRow :=
  let w0 : StepRow := { r.row 2 r.committed edition with
    node := 0, sample := true, acceptCount := r.accepted.length, acceptPath := r.accepted }
  let go := r.tree.foldl (fun (x : List StepRow × List Nat) (n : Nat × Nat × Nat) =>
    let dep := x.2.getD n.2.1 0 + 1
    (x.1 ++ [{ r.row 2 (r.committed + dep) edition with node := n.1, parent := n.2.1, token := n.2.2, sample := true }],
     x.2 ++ [dep])) ([w0], [0])
  go.1

/-- The edition of the request's next row, on its embedding device (R312). -/
def Dev.rowEdition (d : Dev) (r : Request) : Nat := if r.follow then d.srv.current else r.edition

/-- Rows that a request offers on its embedding device, prefill rows apart: positions to be recomputed in the edition that each
had, and no tree while SRV_CTRL.SPECULATE is 0 (R308, R309, R328, R335, R336). -/
def Dev.offersOf (d : Dev) (r : Request) : List Offer :=
  let e := d.rowEdition r
  if r.state = .ended ∨ r.retiring ∨ d.inRun r.id then []
  else if r.recompute ≠ [] then
    r.recompute.map fun p => ⟨0, r.inputTick, r.order, [r.row 3 p ((look r.editions p).getD e)]⟩
  else if r.state = .decode ∧ r.pending then
    let r := if d.bitAt Off.srvCtrl 1 then r else { r with tree := [] }
    if !((d.template e).all fun t => d.treeDone t r) then []
    else if r.speculate then [⟨1, r.inputTick, r.order, r.treeRows e⟩]
    else [⟨1, r.inputTick, r.order, [{ r.row 1 r.committed e with sample := true }]⟩]
  else []

/-- The tokens that an offer can emit, plus the entry kept in reserve (R309, R322). -/
def Request.roomNeeded (r : Request) (o : Offer) : Nat := if o.rows.length = 1 then 2 else r.sampling.depth + 2

/-- The prefill rows of the step, oldest request first, at most `budget` (R310). -/
def Dev.prefillRows (d : Dev) : List Request → Nat → List Offer
  | [], _ => []
  | r :: rs, budget =>
    let e := d.rowEdition r
    let can := decide (r.state = .prefill) && decide (r.recompute = []) && !r.retiring && !d.inRun r.id
    let n := if can then min budget (r.promptEnd - r.prefillNext) else 0
    let mine := (List.range n).map fun i =>
      let p := r.prefillNext + i
      let last := decide (p + 1 = r.promptEnd) && decide (r.maxTokens ≠ 0)
      (⟨2, r.inputTick, r.order, [{ r.row 0 p e with sample := last }]⟩ : Offer)
    mine ++ d.prefillRows rs (budget - n)

/-- The order group of an arrived row's kind (R309). -/
def kindGroup (kind : Nat) : Nat := match kind with
  | 0 => 2
  | 3 => 0
  | _ => 1

/-- Rows that have arrived from upstream; the nodes of one tree together (R308, R309). -/
def Dev.arrivalOffers (d : Dev) : List Offer :=
  let order := fun (id : Nat) => ((d.request id).map (·.order)).getD 0
  let live := d.srv.arrivals.filter fun w => (d.request w.request).any fun r => decide (r.state ≠ .ended) && !r.retiring
  let singles := (live.filter fun w => decide (w.kind ≠ 2)).map fun w =>
    (⟨kindGroup w.kind, w.arrived, order w.request, [w]⟩ : Offer)
  let trees := ((live.filter fun w => decide (w.kind = 2)).map (·.request)).dedup.map fun id =>
    let ws := live.filter fun w => decide (w.kind = 2) && decide (w.request = id)
    (⟨1, (ws.headD {}).arrived, order id, ws⟩ : Offer)
  singles ++ trees

/-- Offers taken for a template until CAPACITY is reached (R309). -/
def takeOffers : List Offer → Nat → List StepRow
  | [], _ => []
  | o :: os, left => if o.rows.length ≤ left then o.rows ++ takeOffers os (left - o.rows.length) else takeOffers os left

/-- Rows of an embedding device's request that entered a step leave its queue. -/
def Request.entered (r : Request) (rows : List StepRow) (tick : Nat) : Request :=
  let mine := rows.filter fun w => decide (w.request = r.id)
  if mine = [] then r
  else
    let taken := (mine.filter fun w => decide (w.kind = 3)).map (·.position)
    let decode := mine.any fun w => decide (w.kind = 1 ∨ w.kind = 2)
    { r with
      recompute := r.recompute.filter fun p => !taken.contains p
      prefillNext := r.prefillNext + (mine.filter fun w => decide (w.kind = 0)).length
      pending := r.pending && !decode
      accepted := if decode then [] else r.accepted
      tree := if decode && mine.length = 1 then [] else r.tree
      editions := mine.foldl (fun l w => put l w.position w.edition) r.editions
      lastStep := tick
      lastEdition := (mine.headD {}).edition }

/-- A template takes no rows: its run has not completed, or its step for the tick is composed (R308). -/
def Template.busy (t : Template) (tick : Nat) : Bool :=
  decide (t.rows ≠ []) || decide (t.running ≠ []) || decide (t.draftRows ≠ []) || decide (tick ≤ t.forTick)

/-- The step of one template is composed (R308, R309, R311). -/
def Dev.composeFor (d : Dev) (offers : List Offer) (t : Template) : Dev :=
  let tick := d.grf.tick + 1
  if t.busy tick then d
  else
    let rows := takeOffers (offers.filter fun o => decide ((o.rows.headD {}).edition = t.edition)) t.capacity
    let at_ := d.now + 100 + 4 * rows.length + t.bindings.length
    if rows = [] then d.modTemplate t.index fun t => { t with forTick := tick }
    else
      let d := d.modTemplate t.index fun t => { t with rows := rows, composedAt := at_, forTick := tick }
      let keep := fun (w : StepRow) => !rows.any fun x =>
        decide (x.request = w.request) && decide (x.position = w.position) && decide (x.node = w.node)
      let d := { d with srv := { d.srv with
          arrivals := d.srv.arrivals.filter keep
          requests := d.srv.requests.map fun (r : Request) => r.entered rows tick } }
      d.writeStep t t.stepSlot tick t.bindings rows

/-- Rows whose edition this device has no template for, or does not hold, end their requests (R312, R335). -/
def Dev.absentEditions (d : Dev) (offers : List Offer) : Dev :=
  ((offers.flatMap (·.rows)).filter fun w =>
      (d.template w.edition).isNone || decide (d.editionTiles w.edition = [])).map (·.request) |>.dedup |>.foldl
    (fun d id => (d.event 0x0B80 { status := 0x0812, request := id, arg0 := id }).endRequest id 5 0x0812) d

/-- A request held back for ring room is counted when the wait begins (R309). -/
def Dev.stallOf (d : Dev) (held : List Nat) : Dev :=
  let fresh := (d.srv.requests.filter fun r => held.contains r.id && !r.stalled).length
  let d := if fresh = 0 then d else (d.bump Off.srvRingStalls fresh).setBit Off.srvStatus 4
  { d with srv := { d.srv with requests := d.srv.requests.map fun r => { r with stalled := held.contains r.id } } }

/-- STEP_COMPOSE: at SRV_COMPOSE.LEAD before the next tick, Damson composes its step from the inputs that have arrived
(R308-R312). -/
def Dev.stepCompose (d : Dev) : Dev :=
  if d.bitAt Off.srvCtrl 0 ∨ d.grf.paused ∨ d.evr.fatal ∨ d.lnk.expelled ∨ !d.isFormed then d
  else
    let d := { d with now := max d.now (d.nextTick - d.fld Off.srvCompose 16 0) }
    let mine := d.srv.requests.filter (·.embeds)
    let all := mine.flatMap fun r => (d.offersOf r).map fun o => (r, o)
    let short := fun (x : Request × Offer) => decide (x.2.group = 1) && decide (x.1.room < x.1.roomNeeded x.2)
    let d := d.stallOf ((all.filter short).map (·.1.id))
    let offers := sortBy (fun a b => lexLt a.key b.key)
      ((all.filter fun x => !short x).map (·.2) ++ d.prefillRows mine (d.fld Off.srvPrefill 10 0) ++ d.arrivalOffers)
    let d := d.absentEditions offers
    d.srv.templates.foldl (fun d t => d.composeFor offers t) d

/-- RUN_START: a composed run starts at its tick, after step 8 of R286, or late when composition ends after it (R308). -/
def Dev.runStart (d : Dev) (i : Nat) : Dev :=
  match d.srv.templates.find? fun t => decide (t.index = i) with
  | none => d
  | some t =>
    if t.rows = [] ∨ d.grf.tick < t.forTick ∨ (d.slot t.stepSlot).state ≠ .loaded then d
    else
      let d := if d.grf.tickTime < t.composedAt then
          ({ d with now := max d.now t.composedAt }.bump Off.srvLateStarts).setBit Off.srvStatus 8
        else d
      (d.startRun t t.stepSlot t.bindings t.rows).modTemplate i fun t => { t with rows := [], running := t.rows }

/-! ## Parking (R304), rings at a tick (R322, R323) -/

/-- The request that a tick parks: the longest without a step, at least SRV_PARK.FRAMES (R304). -/
def Dev.parkNext (d : Dev) : Option Request :=
  let can := d.srv.requests.filter fun r =>
    !r.parked && decide (r.lastStep + d.fld Off.srvPark 15 0 ≤ d.grf.tick) && !d.seqBusy r.seqSlot
  (sortBy (fun (a b : Request) => decide (a.lastStep < b.lastStep)) can).head?

/-- Frames moved for parked requests, at most 1,024 in all (64 MiB). -/
def Dev.moveParked (d : Dev) (near : Bool) (rs : List Request) : Dev :=
  (rs.foldl (fun (x : Nat × Dev) r =>
    if x.2.seqBusy r.seqSlot then x
    else
      let m := x.2.kvMigrate r.seqSlot (1024 - x.1) near
      let left := m.2.att.maps.any fun k =>
        decide (m.2.seqOf k.va = some r.seqSlot) && (memKind k.pa != some MemKind.hbm)
      (x.1 + m.1, if near || left then m.2 else m.2.modRequest r.id fun r => { r with parked := false })) (0, d)).2

/-- Parking at a tick (R304). -/
def Dev.parkStep (d : Dev) : Dev :=
  let low := 1024 * d.fld Off.srvPark 31 16
  let free := d.freeFrames
  if free < low then
    let d := match d.parkNext with
      | some r => d.modRequest r.id fun r => { r with parked := true }
      | none => d
    d.moveParked true (d.srv.requests.filter (·.parked))
  else if 2 * low < free then
    d.moveParked false (sortBy (fun (a b : Request) => decide (b.lastStep < a.lastStep)) (d.srv.requests.filter (·.parked)))
  else d

/-- HEAD of a ring read at a tick: of a request held back here, or whose room reported is short (R309, R322). -/
def Dev.pollRing (d : Dev) (r : Request) : Dev :=
  if !r.samples ∨ r.state = .ended ∨ !(r.stalled || decide (r.rings < 17)) then d
  else
    match d.readHost (r.ring + 8) 8 with
    | none => d
    | some l => d.modRequest r.id fun r => { r with ringHead := max r.ringHead (min (ofLe l) r.ringTail) }

/-- The ring vectors of the frame (R323). -/
def Dev.sendRingVectors (d : Dev) : Dev :=
  let vs := d.srv.ringVectors
  let d := { d with srv := { d.srv with ringVectors := [] } }
  if d.bitAt Off.srvCtrl 2 then vs.foldl (fun d v => d.vector v) d else d

/-! ## SRV_REQUEST_SELECT (R339) -/

/-- The code of a request's state (R302). -/
def ReqState.code : ReqState → Nat
  | .prefill => 1 | .decode => 2 | .ended => 3

/-- SRV_REQUEST_STATE of a request (R339). -/
def Request.stateWord (r : Request) (spec : Bool) : Nat :=
  r.seqSlot * 2 ^ 20 + r.endReason * 2 ^ 16 + (if r.parked then 256 else 0) +
    (if !r.speculate then 0 else if r.full && spec then 16 else 32) + (if r.follow then 8 else 0) + r.state.code

/-- SRV_REQUEST_SELECT: a snapshot of a tracked request; an untracked one reads 0 (R339). -/
def Dev.srvRequestSelect (d : Dev) (v : Nat) : Dev :=
  let ws := match d.request v with
    | none => [0, 0, 0, 0, 0]
    | some r => [r.stateWord (d.bitAt Off.srvCtrl 1), r.committed, r.emitted, if r.follow then r.lastEdition else r.edition,
                 if r.endReason = 5 then r.endStatus else 0]
  ws.zipIdx.foldl (fun d x => d.setReg (Off.srvRequestState + 4 * x.2) x.1) (d.setReg Off.srvRequestSelect v)

/-! ## Meanings -/

/-- REQUEST_ADMIT (R301). -/
def execRequestAdmit (h : CmdHdr) (b : AdmitBody) (s : State) : Host.Outcome State Fault Refusal :=
  lift (·.command h 0x0110 fun h d => (d.admission b).finish h) s
/-- REQUEST_RETIRE (R337). -/
def execRequestRetire (h : CmdHdr) (id : Nat) (s : State) : Host.Outcome State Fault Refusal :=
  lift (·.command h 0x0111 fun h d => (d.retire id).finish h) s
/-- RETIRE_EFFECT (R337). -/
def execRetireEffect (id : Nat) (s : State) : Host.Outcome State Fault Refusal := lift (·.retireEffect id) s
/-- ADAPTER_LOAD (R330). -/
def execAdapterLoad (h : CmdHdr) (id memory source bytes : Nat) (s : State) : Host.Outcome State Fault Refusal :=
  lift (·.command h 0x0120 fun h d => (d.adapterLoad id memory source bytes).finish h) s
/-- ADAPTER_UNLOAD (R330). -/
def execAdapterUnload (h : CmdHdr) (id : Nat) (s : State) : Host.Outcome State Fault Refusal :=
  lift (·.command h 0x0121 fun h d => (d.adapterUnload id).finish h) s
/-- EDITION_SWITCH (R333). -/
def execEditionSwitch (h : CmdHdr) (edition : Nat) (s : State) : Host.Outcome State Fault Refusal :=
  lift (·.command h 0x0050 fun h d => (d.editionSwitch edition).finish h) s
/-- EDITION_RELEASE (R334). -/
def execEditionRelease (h : CmdHdr) (edition : Nat) (s : State) : Host.Outcome State Fault Refusal :=
  lift (·.command h 0x0051 fun h d => (d.editionRelease edition).finish h) s
/-- STEP_COMPOSE (R308). -/
def execStepCompose (s : State) : Host.Outcome State Fault Refusal := lift Dev.stepCompose s
/-- RUN_START (R308). -/
def execRunStart (template : Nat) (s : State) : Host.Outcome State Fault Refusal := lift (·.runStart template) s
/-- SRV_REQUEST_SELECT (R339). -/
def execSrvRequestSelect (v : Word) (s : State) : Host.Outcome State Fault Refusal := hostWrite (·.srvRequestSelect v.toNat) s

end Sys2Proof.Machine
end

