-- ==== Sys2Proof/Machine/Sampling.lean ====
section
/-! DEFINITION. Sampling and speculation: the draw (R314-R317), sample tasks (R318), token records (R319-R324), trees
(R325-R328), token and rollback notices (R336, R389) and the completion of runs (R283, R313). -/

namespace Sys2Proof.Machine

/-! ## The draw (R314, R317) -/

/-- A candidate: token index and value. -/
abbrev Cand := Nat × Word

/-- A product rounded to FP32. -/
def mulW (a b : Word) : Word := (fpMul (a, 0) (b, 0)).1
/-- A sum rounded to FP32. -/
def addW (a b : Word) : Word := (fpAdd (a, 0) (b, 0)).1
/-- A difference rounded to FP32. -/
def subW (a b : Word) : Word := addW a (fpNeg b)
/-- A quotient rounded to FP32. -/
def divW (a b : Word) : Word := (fpDiv (a, 0) (b, 0)).1

/-- The penalised value of a candidate whose token has count `c` (R317). -/
def penalised (s : Sampling) (v : Word) (c : Nat) : Word :=
  if c = 0 then v
  else
    let v := subW (subW v (mulW s.frequency (fpOfInt c))) s.presence
    if fpLt 0 v then divW v s.repetition else mulW v s.repetition

/-- The order of candidates: value descending, ties by ascending token (R317, R325). -/
def candBefore (a b : Cand) : Bool := fpLt b.2 a.2 || (!fpLt a.2 b.2 && decide (a.1 < b.1))

/-- Running sums of a list of FP32 values, in order. -/
def runningSums : List Word → Word → List Word
  | [], _ => []
  | e :: es, acc => addW acc e :: runningSums es (addW acc e)

/-- The shortest prefix whose running sum reaches a bound; the whole list where none does (R317). -/
def reachPrefix (bound : Word) : List (Nat × Word) → List (Nat × Word)
  | [] => []
  | x :: xs => if fpLt x.2 bound then x :: reachPrefix bound xs else [x]

/-- u of R314: the top 24 bits of the generator, scaled by 2^-24. -/
def drawU (seed position : Nat) : Word := (fpRound ⟨false, rand64 seed position 0 / 2 ^ 40, 1, -24⟩).1

/-- The token drawn from 64 candidates at a position, with the counts of R317. -/
def drawToken (s : Sampling) (seed position : Nat) (count : Nat → Nat) (cs : List Cand) : Nat :=
  let ws := sortBy candBefore (cs.map fun c => (c.1, penalised s c.2 (count c.1)))
  let first := (ws.headD (0, 0)).1
  if (fpVal s.temperature).num = 0 then first
  else
    let zs := (ws.take s.topK).map fun c => (c.1, divW c.2 s.temperature)
    let z0 := (zs.headD (0, 0)).2
    let es := zs.map fun c => fpExp (subW c.2 z0)
    let sums := runningSums es 0
    let kept := reachPrefix (mulW s.topP (sums.getLastD 0)) ((zs.map (·.1)).zip sums)
    let target := mulW (drawU seed position) ((kept.getLastD (0, 0)).2)
    match kept.find? fun c => fpLt target c.2 with
    | some c => c.1
    | none => (kept.getLastD (first, 0)).1

/-- TOPK records (R153): token indices and values. -/
def parseCands (l : List Byte) : List Cand := (groupsOf 8 64 l).map fun r => (leAt r 4 4, wordAt r 0)

/-- The tokens of the nodes from node 1 down to a node, itself included (R317). -/
def pathTokens (rows : List StepRow) : Nat → StepRow → List Nat
  | 0, _ => []
  | fuel + 1, w =>
    if w.node = 0x7F ∨ w.node = 0 then []
    else
      w.token :: match rows.find? fun x => decide (x.request = w.request) && decide (x.node = w.parent) with
        | some p => pathTokens rows fuel p
        | none => []

/-- The token drawn for a row of a step table; none for a row without SAMPLE or of an untracked request (R317, R318). -/
def Dev.drawRow (d : Dev) (rows : List StepRow) (w : StepRow) (cands : List Cand) (counts : List (Nat × Nat)) : Option Nat :=
  if !w.sample then none
  else
    (d.request w.request).map fun r =>
      let path := pathTokens rows 64 w
      drawToken r.sampling r.seed (w.position + 1) (fun t => (look counts t).getD 0 + path.count t) cands

/-! ## Verification (R326) -/

/-- The accepted nodes of a tree with their tokens, and the last token drawn: drawing starts at a node and continues at the
child that carries the token drawn (R326). -/
def verifyFrom (ws : List (StepRow × Option Nat)) : Nat → Nat → List (Nat × Nat) × Option Nat
  | 0, _ => ([], none)
  | fuel + 1, node =>
    match ws.find? fun x => decide (x.1.node = node) with
    | none => ([], none)
    | some (_, none) => ([], none)
    | some (_, some t) =>
      match ws.find? fun x => decide (x.1.parent = node) && decide (x.1.node ≠ node) && decide (x.1.token = t) with
      | none => ([], some t)
      | some c =>
        let r := verifyFrom ws fuel c.1.node
        ((c.1.node, t) :: r.1, r.2)

/-- A token to be emitted: position, token, accepted draft, and the flags of the row it was drawn from. -/
structure Emit where
  position : Nat
  token : Nat
  draft : Bool
  flags : Nat

/-- What the rows of one request emit in a step: accepted nodes, tokens (R317, R326). -/
def emitsOf (ws : List (StepRow × Option Nat)) (flags : StepRow → Nat) : List Nat × List Emit :=
  match ws.find? fun x => decide (x.1.node = 0) with
  | some x =>
    let v := verifyFrom ws 65 0
    let l := x.1.position
    let at_ := fun (n : Nat) => ((ws.find? fun y => decide (y.1.node = n)).map fun y => flags y.1).getD 0
    let from_ := 0 :: v.1.map (·.1)
    (v.1.map (·.1),
     (v.1.zipIdx.map fun y => ⟨l + y.2 + 1, y.1.2, true, at_ (from_.getD y.2 0)⟩) ++
       (v.2.toList.map fun t => ⟨l + v.1.length + 1, t, false, at_ (from_.getLastD 0)⟩))
  | none =>
    ([], ws.filterMap fun x => x.2.map fun t => ⟨x.1.position + 1, t, false, flags x.1⟩)

/-- The reason for which a request ends at an emitted token; 0 where it goes on (R324). -/
def endAt (r : Request) (e : Emit) (emitted : Nat) : Nat :=
  if r.sampling.stop.contains e.token then 1
  else if emitted = r.maxTokens then 2
  else if e.position = 4194303 then 3 else 0

/-- The tokens emitted up to the one that ends the request, and that end (R324). -/
def emitUntil (r : Request) : List Emit → Nat → List Emit × Nat
  | [], _ => ([], 0)
  | e :: es, n =>
    match endAt r e (n + 1) with
    | 0 =>
      let x := emitUntil r es (n + 1)
      (e :: x.1, x.2)
    | k => ([e], k)

/-- The tree size after a verify step: `drafted` draft nodes, `accepted` of them accepted, `emitted` tokens (R328). The
second component says that the size fell to zero. -/
def Request.judge (r : Request) (drafted accepted emitted : Nat) : Request × Bool :=
  if !r.speculate then (r, false)
  else if drafted = 0 then (if r.full then r else { r with sinceZero := r.sinceZero + emitted }, false)
  else if !r.full then
    ({ r with probing := false, sinceZero := 0, rejections := 0, full := decide (0 < accepted) }, false)
  else if 0 < accepted then ({ r with rejections := 0 }, false)
  else if r.rejections + 1 < 8 then ({ r with rejections := r.rejections + 1 }, false)
  else ({ r with rejections := 0, full := false, sinceZero := 0 }, true)

/-- A verify step judged, with its count of collapses (R328). -/
def Dev.judge (d : Dev) (id drafted accepted emitted : Nat) : Dev :=
  match d.request id with
  | none => d
  | some r =>
    let j := r.judge drafted accepted emitted
    let d := d.modRequest id fun _ => j.1
    if j.2 then (d.bumpWrap Off.srvSpecCollapses).setBit Off.srvStatus 5 else d

/-! ## Tokens (R389) -/

/-- What a TOKEN notice carries (R389). -/
structure TokenNotice where
  id : Nat
  position : Nat
  token : Nat
  accepted : Nat
  room : Nat
  path : List Nat
  reason : Nat

/-- The one word of a TOKEN notice (R389). -/
def tokenWord (t : TokenNotice) : List Byte :=
  le t.id 4 ++ le t.position 4 ++ le t.token 4 ++ le (t.accepted % 16 + 2 ^ 8 * min t.room 65535) 4 ++
    le (pathBits t.path) 12 ++ le (t.reason % 16) 4

/-- A TOKEN notice read (R389). -/
def parseToken (l : List Byte) : TokenNotice :=
  let n := leAt l 0xC 4
  let p := leAt l 0x10 12
  { id := leAt l 0 4, position := leAt l 4 4, token := leAt l 8 4, accepted := n % 16, room := bits n 23 8
    path := (List.range (n % 16)).map fun i => bits p (6 * i + 5) (6 * i), reason := leAt l 0x1C 4 % 16 }

/-- The tokens of the accepted nodes of a request's tree, with their positions (R203, R326). -/
def Request.acceptedTokens (r : Request) (t : TokenNotice) : List (Nat × Nat) :=
  let base := t.position - t.accepted - 1
  t.path.zipIdx.filterMap fun x =>
    (r.tree.find? fun (n : Nat × Nat × Nat) => decide (n.1 = x.1)).map fun n => (base + x.2 + 1, n.2.2)

/-- A request as a token reaches a device that does not draw its tokens (R309, R336, R389). -/
def Request.tokenCame (r : Request) (t : TokenNotice) (tick : Nat) : Request :=
  let toks := if r.embeds then r.acceptedTokens t ++ [(t.position, t.token)] else []
  { r with
    committed := t.position
    known := toks.foldl (fun k x => put k x.1 x.2) r.known
    emitted := r.emitted + t.accepted + 1
    accepted := t.path
    tree := []
    rings := t.room
    state := if t.reason = 0 then .decode else .ended
    endReason := t.reason
    pending := r.embeds && decide (t.reason = 0)
    inputTick := tick }

/-! ## Drafting (R325, R328) -/

/-- A request that its tree keeps from its next step (R325). -/
def Dev.needsDraft (d : Dev) (t : Template) (r : Request) : Bool :=
  decide (r.state = .decode) && r.pending && !r.retiring && decide (r.recompute = []) &&
    decide (d.rowEdition r = t.edition) && !d.treeDone t r

/-- The chain node that is drafted next: node 0, or the first child at the depth reached (R325). -/
def Request.chainRow (r : Request) (edition : Nat) : StepRow :=
  let w := r.sampling.width
  let depth := r.tree.length / max w 1
  let node := if depth = 0 then 0 else 1 + w * (depth - 1)
  let n := (r.tree.find? fun (x : Nat × Nat × Nat) => decide (x.1 = node)).getD (0, 0x7F, (r.tokenAt r.committed).getD 0)
  { r.row 2 (r.committed + depth) edition with node := node, parent := n.2.1, token := n.2.2 }

/-- The draft graph runs once for the chain nodes that are due (R325); a request's first draft at size zero is its probe
(R328). -/
def Dev.draftNext (d : Dev) (i : Nat) : Dev :=
  match d.srv.templates.find? fun t => decide (t.index = i) with
  | none => d
  | some t =>
    let due := (d.srv.requests.filter fun r => d.needsDraft t r).take t.capacity
    if !t.draft ∨ due = [] ∨ t.rows ≠ [] ∨ t.running ≠ [] ∨ t.draftRows ≠ [] ∨ (d.slot t.draftSlot).state ≠ .loaded ∨
        d.bitAt Off.srvCtrl 0 ∨ d.grf.paused ∨ d.lnk.expelled then d
    else
      let probes := due.filter fun r => !r.full && !r.probing
      let d := if probes = [] then d else d.bumpWrap Off.srvSpecProbes probes.length
      let ids := probes.map (·.id)
      let d := ids.foldl (fun d id => d.modRequest id fun r => { r with probing := true }) d
      let rows := due.map fun r => r.chainRow t.edition
      let d := d.writeStep t t.draftSlot (d.grf.tick + 1) t.draftBindings rows
      (d.startRun t t.draftSlot t.draftBindings rows).modTemplate i fun t => { t with draftRows := rows }

/-- Drafting goes on wherever it can. -/
def Dev.draftAll (d : Dev) : Dev := d.srv.templates.foldl (fun d t => d.draftNext t.index) d

/-- A TOKEN notice reaches a device that tracks its request: its embedding device queues the next input; a notice with no
new token reports ring room alone (R309, R338, R389). -/
def Dev.tokenArrived (d : Dev) (t : TokenNotice) : Dev :=
  match d.request t.id with
  | none => d
  | some r =>
    if r.state = .ended then d
    else if t.token = 0xFFFFFFFF ∨ (t.position ≤ r.committed ∧ (look r.known t.position).isSome) then
      d.modRequest t.id fun r => { r with rings := t.room }
    else if r.pending ∨ r.recompute ≠ [] then d
    else
      let tick := d.grf.tick
      let drafted := r.tree.length
      let d := d.modRequest t.id fun r => r.tokenCame t tick
      let d := d.mapAhead r.seqSlot (t.position + 64)
      (if r.embeds then d.judge t.id drafted t.accepted (t.accepted + 1) else d).draftAll

/-! ## Sample tasks (R318) -/

/-- A sample body (R318). -/
structure SampleBody where
  mode : Nat
  cores : Nat
  clusters : Nat
  table : Nat
  candidates : Nat
  out : Nat

/-- The checks of a sample body (R279, R318, R463). -/
def checkSample (l : List Byte) (d : Dev) : Chk SampleBody × Dev :=
  let b : SampleBody := ⟨leAt l 0 1 % 16, leAt l 1 1, leAt l 2 1 % 16, leAt l 8 8, leAt l 0x10 8, leAt l 0x18 8⟩
  tests
    [(decide (leAt l 0 1 < 16) && decide (leAt l 2 2 < 16) && zeroAt l 4 4 && zeroAt l 0x20 32, 0x0007),
     (decide (b.mode = 1 ∨ b.mode = 2), 0x0814), (inRange b.cores 1 128, 0x0814), (decide (b.clusters ≠ 0), 0x0814),
     (decide (b.cores ≤ (d.poweredCores b.clusters).length), 0x0C01)] b d

/-- What a sample task reads: its body, the edition and the rows of the step table, the candidates of each row, and their
counts. -/
structure SampleInput where
  body : SampleBody
  edition : Nat
  rows : List StepRow
  cands : List (List Cand)
  counts : List (List (Nat × Nat))

/-- The counts of a row's candidates read from its request's count table: tokens and counts (R316, R317). -/
def Dev.readCounts (d : Dev) (r : Reader) (w : StepRow) (cs : List Cand) : Chk (List (Nat × Nat)) × Dev :=
  match if w.sample then (d.request w.request).bind (·.countAt) else none with
  | none => (.ok [], d)
  | some a =>
    cs.foldl (fun (x : Chk (List (Nat × Nat)) × Dev) c => Chk.thn x fun l d =>
      match d.readPa r (a + 2 * c.1) 2 with
      | (some b, d) => (.ok (l ++ [(c.1, ofLe b)]), d)
      | (none, d) => (.bad, d)) (.ok [], d)

/-- The counts that every row of a step needs. -/
def Dev.allCounts (d : Dev) (r : Reader) (ws : List (StepRow × List Cand)) : Chk (List (List (Nat × Nat))) × Dev :=
  ws.foldl (fun (x : Chk (List (List (Nat × Nat))) × Dev) w => Chk.thn x fun ls d =>
    Chk.thn (d.readCounts r w.1 w.2) fun l d => (.ok (ls ++ [l]), d)) (.ok [], d)

/-- A sample task's inputs are read. -/
def Dev.sampleInput (d : Dev) (slot task : Nat) : Chk SampleInput × Dev :=
  let r := d.reader 6 0 slot task
  let space := (d.slot slot).space
  Chk.thn (Chk.thn (d.readBody slot task 64) checkSample) fun b d =>
  Chk.thn (Acc.chk (d.readVa r space b.table 64)) fun h d =>
    let n := leAt h 0 2
    Chk.thn (Acc.chk (d.readVa r space (b.table + 64) (32 * n))) fun rs d =>
    Chk.thn (Acc.chk (d.readVa r space b.candidates (512 * n))) fun cs d =>
      let rows := (groupsOf 32 n rs).map parseStepRow
      let cands := (groupsOf 512 n cs).map parseCands
      Chk.thn (d.allCounts r (rows.zip cands)) fun ks d => (.ok ⟨b, leAt h 4 4, rows, cands, ks⟩, d)

/-- Two rows of a step are one: request, position and node. -/
def StepRow.same (x w : StepRow) : Bool :=
  decide (x.request = w.request) && decide (x.position = w.position) && decide (x.node = w.node)

/-- The quality flags of a row: those it carries, and those of the tasks of the run that concern it; of a task that no header or
gate ties to rows, row r of its M is row r of the step table (R307, R321). -/
def Dev.rowFlags (d : Dev) (slot : Nat) (w : StepRow) : Nat :=
  let g := d.slot slot
  (List.range g.run.length).foldl (fun a t =>
    let x := g.run.getD t {}
    let rows := d.taskRows slot t
    let own := (rows.zipIdx.filter fun y => y.1.same w).foldl (fun a y => a ||| (look x.rowFlags y.2).getD 0) 0
    let all := x.rowFlags.foldl (fun a y => a ||| y.2) 0
    if !rows.any (·.same w) then a
    else a ||| x.flags ||| (if d.taskTied slot t then all else own)) w.flags

/-- The token records of a step's emissions (R320, R336). -/
def Request.records (r : Request) (es : List Emit) (edition now : Nat) : List (List Byte) :=
  es.map fun e =>
    let again := r.reissueFrom.any fun q => decide (q ≤ e.position) && decide (e.position ≤ r.reissueTo)
    tokenRecord e.token e.position now (e.flags % 128 + (if again then 128 else 0) + (if e.draft then 256 else 0)) 0
      edition 0

/-- The request after its emissions on its sampling device (R316, R324, R336). -/
def Request.emittedAll (r : Request) (es : List Emit) (reason : Nat) (path : List Nat) (tick : Nat) : Request :=
  { r with
    known := es.foldl (fun k e => put k e.position e.token) r.known
    counts := if r.sampling.counts then es.foldl (fun c e => countToken c e.token) r.counts else r.counts
    emitted := r.emitted + es.length
    committed := (es.getLast?.map (·.position)).getD r.committed
    accepted := path
    tree := []
    state := if reason = 0 then .decode else .ended
    endReason := reason
    pending := r.embeds && decide (reason = 0)
    inputTick := tick
    reissueFrom := if (es.any fun e => decide (r.reissueTo ≤ e.position)) then none else r.reissueFrom }

/-- The position of the next token to be drawn for a request (R303, R326, R336). -/
def Request.nextPosition (r : Request) : Nat := r.known.foldl (fun a x => max a (x.1 + 1)) r.promptEnd

/-- One request's rows of a step: its tokens are emitted, its records written, and the token goes to the embedding device with
the reason for which the request has ended, a ring that cannot be written among them (R319-R326, R389; log entry 48 for the
devices that hear of it). -/
def Dev.emitRequest (d : Dev) (edition slot id : Nat) (ws : List (StepRow × Option Nat)) : Dev :=
  match d.request id with
  | none => d
  | some r =>
    let (path, es) := emitsOf ws (d.rowFlags slot)
    let drafted := (ws.filter fun x => decide (x.1.node ≠ 0x7F) && decide (x.1.node ≠ 0)).length
    if r.state = .ended ∨ (es.head?.map (·.position)) ≠ some r.nextPosition then d
    else
      let (es, reason) := emitUntil r es r.emitted
      let path := path.take es.length
      let recs := r.records es edition d.now
      let last := (es.getLastD ⟨0, 0, false, 0⟩)
      let fin := if reason = 0 then [] else [tokenRecord 0xFFFFFFFF last.position d.now 0 reason r.lastEdition 0]
      let tick := d.grf.tick
      let d := (d.modRequest id fun r => r.emittedAll es reason path tick).storeCounts id (es.map (·.token))
      let d := if (ws.any fun x => decide (x.1.node = 0)) then
          (d.bumpWrap Off.srvSpecSteps).bumpWrap Off.srvSpecAccepted path.length
        else d
      let d := d.judge id drafted path.length es.length
      let d := (d.ringWrite id (recs ++ fin)).bump64 Off.srvTokensLo es.length
      let room := ((d.request id).map Request.room).getD 0
      let reason := ((d.request id).map (·.endReason)).getD reason
      if r.embeds then d
      else
        (d.modRequest id fun r => { r with rings := room }).noticeAll 2 id
          (tokenWord ⟨id, last.position, last.token, path.length, room, path, reason⟩)

/-- SAMPLE_AND_VERIFY: the sample task issued first in MODE 1, or whose body is refused, draws, verifies and completes
(R317, R318, R326). -/
def Dev.sampleAndVerify (d : Dev) : Dev :=
  match d.issuedWhere 7 fun b => decide (b % 16 ≠ 2) with
  | none => d
  | some (slot, task) =>
    let space := (d.slot slot).space
    Dev.act (Chk.thn (d.sampleInput slot task) fun x d =>
        let ts := (x.rows.zip (x.cands.zip x.counts)).map fun y => (y.1, d.drawRow x.rows y.1 y.2.1 y.2.2)
        let out := ts.flatMap fun y => le (y.2.getD 0xFFFFFFFF) 4
        Chk.thn (Acc.chk (d.writeVa (d.reader 6 0 slot task) space x.body.out out)) fun _ d => (.ok (x.edition, ts), d))
      6 0 slot task space fun x d =>
        let ids := (x.2.filter fun y => y.2.isSome).map (·.1.request) |>.dedup
        let d := ids.foldl (fun d id =>
          d.emitRequest x.1 slot id (x.2.filter fun y => decide (y.1.request = id))) d
        (d.endTask slot task 0).draftAll

/-- The children of a chain node: its draft's top tokens, numbered in creation order (R325). -/
def Request.drafted (r : Request) (w : StepRow) (cs : List Cand) : Request :=
  let n := r.tree.length
  let kids := ((sortBy candBefore cs).take r.sampling.width).zipIdx.map fun c => (n + 1 + c.2, w.node, c.1.1)
  { r with tree := r.tree ++ kids }

/-- DRAFT: the sample task issued first in MODE 2 creates the children of the chain nodes (R325). Its rows carry no SAMPLE, so
that TOKENS_OUT holds 0xFFFF_FFFF for each (R318). -/
def Dev.draft (d : Dev) : Dev :=
  match d.issuedWhere 7 fun b => decide (b % 16 = 2) with
  | none => d
  | some (slot, task) =>
    let space := (d.slot slot).space
    Dev.act (Chk.thn (d.sampleInput slot task) fun x d =>
        let out := x.rows.flatMap fun _ => le 0xFFFFFFFF 4
        Chk.thn (Acc.chk (d.writeVa (d.reader 6 0 slot task) space x.body.out out)) fun _ d => (.ok x, d))
      6 0 slot task space fun x d =>
        ((x.rows.zip x.cands).foldl (fun (d : Dev) y =>
          d.modRequest y.1.request fun r =>
            if r.pending ∧ r.committed = y.1.baseLen then r.drafted y.1 y.2 else r) d).endTask slot task 0

/-! ## Completion of runs (R283, R303, R336) -/

/-- A request's rows of a run that completed (R303, R336). -/
def Request.ran (r : Request) (rows : List StepRow) : Request :=
  let mine := rows.filter fun w => decide (w.request = r.id)
  if mine = [] ∨ r.state = .ended then r
  else
    let next := mine.foldl (fun a w =>
      if w.node ≠ 0x7F ∧ w.node ≠ 0 then a else if w.position ≤ a then max a (w.position + 1) else a) r.committed
    let due := decide (r.recompute = []) && decide (r.promptEnd ≤ next)
    { r with
      committed := next
      failedOnce := r.failedOnce && !due
      state := if due then .decode else .prefill
      pending := r.pending || (r.embeds && due && (look r.known next).isSome) }

/-- The rows of a step run are committed: prefix holders end, pages are mapped ahead (R201, R303). -/
def Dev.runDone (d : Dev) (rows : List StepRow) : Dev :=
  let d := { d with srv := { d.srv with requests := d.srv.requests.map fun (r : Request) => r.ran rows } }
  (rows.map (·.request)).dedup.foldl (fun d id =>
    match d.request id with
    | none => d
    | some r =>
      let d := d.mapAhead r.seqSlot (r.committed + 64)
      if r.maxTokens = 0 ∧ r.state ≠ .ended ∧ r.promptEnd ≤ r.committed then d.endRequest id 6 0 else d) d

/-- GRAPH_COMPLETE: a graph whose tasks and audits have all completed completes, with OK or AUDIT_FAILED (R128, R283). -/
def Dev.graphComplete (d : Dev) (slot : Nat) : Dev :=
  let g := d.slot slot
  if !g.finished then d
  else
    let d := d.finishRun slot (if g.auditFailed then 0x0202 else 0)
    match g.template.bind fun i => d.srv.templates.find? fun t => decide (t.index = i) with
    | none => d
    | some t =>
      if t.draft ∧ t.draftSlot = slot ∧ t.draftRows ≠ [] then
        (d.modTemplate t.index fun t => { t with draftRows := [] }).draftNext t.index
      else
        ((d.modTemplate t.index fun t => { t with running := [] }).runDone t.running).draftNext t.index

/-- Ring room that has appeared, where the room reported may be short of a step's, is reported to the embedding device by a
notice with no token (R309, R322; log entry 48). -/
def Dev.reportRoom (d : Dev) (r : Request) : Dev :=
  let need := if r.speculate then r.sampling.depth + 2 else 2
  if !r.samples ∨ r.embeds ∨ r.state = .ended ∨ need ≤ r.rings ∨ r.room ≤ r.rings then d
  else
    (d.modRequest r.id fun r => { r with rings := r.room }).noticeAll 2 r.id
      (tokenWord ⟨r.id, r.committed, 0xFFFFFFFF, 0, r.room, [], 0⟩)

/-- ROLLBACK: a rollback decided on another device; the lower q applies. One with positions to recompute follows a failed run
(R313, R336, R338, R389). -/
def Dev.rollbackCame (d : Dev) (l : List Byte) : Dev :=
  let id := leAt l 0 4
  let q := leAt l 4 4
  match d.request id with
  | none => d
  | some r =>
    if r.committed < q then d
    else
      let k := leAt l 8 4
      ((d.rollTo id q k).modRequest id fun r => { r with failedOnce := r.failedOnce || decide (q < k) }).draftAll

/-- SAMPLE_AND_VERIFY (R317). -/
def execSampleAndVerify (s : State) : Host.Outcome State Fault Refusal := lift Dev.sampleAndVerify s
/-- DRAFT (R325). -/
def execDraft (s : State) : Host.Outcome State Fault Refusal := lift Dev.draft s
/-- TOKEN (R389). -/
def execToken (p : Packet) (s : State) : Host.Outcome State Fault Refusal :=
  lift (·.tokenArrived (parseToken p.payload)) s
/-- ROLLBACK (R336). -/
def execRollback (p : Packet) (s : State) : Host.Outcome State Fault Refusal := lift (·.rollbackCame p.payload) s
/-- GRAPH_COMPLETE (R283). -/
def execGraphComplete (slot : Nat) (s : State) : Host.Outcome State Fault Refusal := lift (·.graphComplete slot) s

end Sys2Proof.Machine
end

