-- ==== Sys2Proof/Machine/CollRun.lean ====
section
/-! DEFINITION. Collectives: their streams, passes and results (R381-R387), and the landing of BULK and HANDOFF data
(R382, R386, R388). What packets of these channels hold inside is the model's own (log entry 51). -/

namespace Sys2Proof.Machine

/-! ## Streams (R385, R386) -/

/-- A collective task changed. -/
def Dev.modColl (d : Dev) (slot task : Nat) (f : CollTask → CollTask) : Dev :=
  { d with grf := { d.grf with colls := d.grf.colls.map fun c => if c.slot = slot ∧ c.task = task then f c else c } }

/-- A collective task in progress. -/
def Dev.coll (d : Dev) (slot task : Nat) : Option CollTask :=
  d.grf.colls.find? fun c => decide (c.slot = slot) && decide (c.task = task)

/-- Group and TAG of a task, as one number. -/
def CollTask.key (c : CollTask) : Nat := c.gx + 256 * c.gy + 65536 * c.gz + 2 ^ 24 * c.tag

/-- ADDRESS of a task's packets: its group and its order index (R382, log entry 51). -/
def CollTask.address (c : CollTask) : Nat := c.gx + 256 * c.gy + 65536 * c.gz + 2 ^ 24 * c.index

/-- The fields in which the members of one collective agree (R382). -/
def CollTask.header (c : CollTask) : List Byte :=
  le (c.kind + 16 * c.op) 1 ++ le c.format 1 ++ [0, 0] ++ le c.gx 1 ++ le c.gy 1 ++ le c.gz 1 ++ [0] ++ le c.peer 2 ++
    le c.tag 2 ++ le c.count 4

/-- A byte string in pieces of 4 KiB (R385). -/
def piecesOf (l : List Byte) : List (Nat × List Byte) :=
  (List.range ((l.length + 4095) / 4096)).map fun i => (4096 * i, (l.drop (4096 * i)).take 4096)

/-- The payload of an END packet: the stream's digest and its bytes (R386). -/
def endPayload (l : List Byte) : List Byte := padWords (le (crc64 l) 8 ++ le l.length 8)

/-- A stream is sent to a member: what the members agree on, the payload in 4 KiB packets, and its END packet (R385,
R386). -/
def Dev.sendStream (d : Dev) (c : CollTask) (dst sid : Nat) (l : List Byte) : Dev :=
  let p : Packet := { dst := dst, channel := 2, space := c.space, tag := c.tag + 2 ^ 16 * sid, address := c.address }
  let d := d.sendPacket { p with type := 0, payload := padWords c.header }
  let d := (piecesOf l).foldl (fun d x => d.sendPacket { p with type := 1, payload := padWords x.2 }) d
  d.sendPacket { p with type := 2, payload := endPayload l }

/-- A stream that a task has received wholly. -/
def CollTask.stream (c : CollTask) (sid : Nat) : Option Stream :=
  c.streams.find? fun s => decide (s.sid = sid) && s.ended

/-- A stream digest mismatched (R386). -/
def Dev.digestBad (d : Dev) (port status graph task : Nat) (req : Nat) : Dev :=
  ((d.bump Off.lnkDigestMismatches).setBit Off.lnkStatus 7).signature (bitCode Off.lnkStatus 7)
    { arg0 := port, status := status, graph := graph, task := task, request := req }
    { severity := 0, source := 8, outcome := 4, status := status, unitClass := 7, unitIndex := port, location := port
      graph := graph, task := task, request := req }

/-- The port from which a device's packets come. -/
def Dev.portFrom (d : Dev) (id : Nat) : Nat := (d.route id).getD 0

/-! ## Arithmetic of reductions (R384) -/

/-- Bytes of one element of a reduction. -/
def CollTask.size (c : CollTask) : Nat := if c.format = 0xB ∨ c.format = 0xC then 2 else 4

/-- A contribution as it enters the fold, with its non-finite elements (R384). -/
def CollTask.widen (c : CollTask) (l : List Byte) : List Word × Nat :=
  let codes := leWords c.size c.count l
  if c.format = 0xF then (codes.map (BitVec.ofNat 32), 0)
  else
    let xs := codes.map fun k => edgeElem ((NumFmt.ofCode c.format).getD .fp32) .fp32 false k
    (xs.map fun x => (fpRound x.1).1, (xs.map (·.2)).sum)

/-- One term taken into the fold, with its clips (R384). -/
def CollTask.term (c : CollTask) (a b : Word) : Word × Nat :=
  if c.format = 0xF then
    if c.op = 1 then (if a.toInt < b.toInt then b else a, 0)
    else
      let r := addInt32 a.toInt b.toInt
      (BitVec.ofInt 32 r.1, r.2)
  else if c.op = 1 then (if fpLt a b then b else a, 0)
  else fpAdd (a, 0) (b, 0)

/-- The fold of what came before with the own terms. -/
def CollTask.fold (c : CollTask) (before own : List Word) : List Word × Nat :=
  let r := (before.zip own).map fun x => c.term x.1 x.2
  (r.map (·.1), (r.map (·.2)).sum)

/-- The result of a fold in FORMAT, with its clips (R384). -/
def CollTask.narrow (c : CollTask) (ws : List Word) : List Byte × Nat :=
  if c.format = 0xF then (ws.flatMap fun w => le w.toNat 4, 0)
  else
    let f := (NumFmt.ofCode c.format).getD .fp32
    let xs := ws.map fun w => f.encode .nearest (fpVal w)
    (xs.flatMap fun x => le x.1 c.size, (xs.filter (·.2)).length)

/-- Values of a reduction as a stream carries them. -/
def wordsBytes (ws : List Word) : List Byte := ws.flatMap fun w => le w.toNat 4

/-- The values of a received stream. -/
def Stream.words (s : Stream) : List Word := (leWords 4 (s.bytes.length / 4) s.bytes).map (BitVec.ofNat 32)

/-- Clips and non-finite contributions counted, and the flags of the task (R384). -/
def Dev.collCount (d : Dev) (slot task clips acc nonfinite : Nat) : Dev :=
  let d := if clips + acc = 0 then d else d.bumpWrap Off.lnkCollClipped (clips + acc)
  let d := if nonfinite = 0 then d else d.bumpWrap Off.lnkCollNonfinite nonfinite
  let f := (if clips = 0 then 0 else qClipped) + (if acc = 0 then 0 else qAcc) + (if nonfinite = 0 then 0 else qNonfinite)
  d.modColl slot task fun c => { c with flags := c.flags ||| f }

/-! ## Passes (R385) -/

/-- A collective task is complete. -/
def Dev.collEnd (d : Dev) (c : CollTask) : Dev :=
  ({ d with grf := { d.grf with colls := d.grf.colls.filter fun x => !(decide (x.slot = c.slot) && decide (x.task = c.task)) } }).endTask
    c.slot c.task c.flags

/-- Who reads and writes for a collective. -/
def Dev.collReader (d : Dev) (c : CollTask) : Reader := d.reader 7 ((d.collPorts c).headD 0) c.slot c.task

/-- Bytes written for a collective; it stops where the write faults (R387). -/
def Dev.collWrite (d : Dev) (c : CollTask) (va : Nat) (l : List Byte) (k : Dev → Dev) : Dev :=
  match d.writeVa (d.collReader c) c.space va l with
  | (.ok _, d) => k d
  | (.fault f, d) => d.unitFault 7 ((d.collPorts c).headD 0) c.slot c.task c.space f
  | (.bad, d) => d.dataBad c.slot

/-- Bytes read for a collective. -/
def Dev.collRead (d : Dev) (c : CollTask) (va n : Nat) (k : List Byte → Dev → Dev) : Dev :=
  match d.readVa (d.collReader c) c.space va n with
  | (.ok l, d) => k l d
  | (.fault f, d) => d.unitFault 7 ((d.collPorts c).headD 0) c.slot c.task c.space f
  | (.bad, d) => d.dataBad c.slot

/-- The block of a REDUCE_SCATTER that a canonical position receives: first element and elements (R382). -/
def CollTask.block (c : CollTask) (m p : Nat) : Nat × Nat :=
  let b := (c.count + m - 1) / m
  (min (p * b) c.count, min ((p + 1) * b) c.count - min (p * b) c.count)

/-- The result of a reduction: written, and for a REDUCE_SCATTER sent to its owners (R382, R384, R385). -/
def Dev.reduceEnd (d : Dev) (c : CollTask) (ws : List Word) : Dev :=
  let ms := d.collMembers c
  let x := c.narrow ws
  let put := fun (d : Dev) (l : List Byte) => d.collWrite c c.dst l fun d =>
    let d := d.collCount c.slot c.task x.2 0 0
    ((d.coll c.slot c.task).map fun c => d.collEnd c).getD d
  if c.kind = 1 then put d x.1
  else
    let mine := c.block ms.length (ms.findIdx (· == d.deviceId))
    let slice := fun (b : Nat × Nat) => (x.1.drop (b.1 * c.size)).take (b.2 * c.size)
    let d' := put d (slice mine)
    if (d'.coll c.slot c.task).isSome then d'
    else
      ms.zipIdx.foldl (fun d m =>
        if m.1 = d.deviceId then d else d.sendStream c m.1 6 (slice (c.block ms.length m.2))) d'

/-- One move of a reduction; none while it waits. Steps 0, 2 and 4 are the reduce passes of the axes, 1, 3 and 5 their
broadcast passes, 6 the result, 7 the wait for a block (R385). -/
def Dev.reduceMove (d : Dev) (c : CollTask) : Option Dev :=
  let axis := c.step / 2
  let order := (d.collAxes c).getD axis []
  let k := order.length
  let i := order.findIdx (· == coordOf axis d.deviceId)
  let go := fun (d : Dev) (n : Nat) (w : List Word) => d.modColl c.slot c.task fun c => { c with step := n, work := w }
  let up := fun (d : Dev) (w : List Word) =>
    match d.chainNext c axis true with
    | some m => d.sendStream c m (2 * axis) (wordsBytes w)
    | none => d
  let down := fun (d : Dev) (w : List Word) =>
    match d.chainNext c axis false with
    | some m => d.sendStream c m (2 * axis + 1) (wordsBytes w)
    | none => d
  let passed := if c.kind = 1 then c.step + 1 else 7
  if c.step = 6 then some (d.reduceEnd c c.work)
  else if c.step = 7 then
    (c.stream 6).map fun s => d.collWrite c c.dst s.bytes fun d => d.collEnd c
  else if k ≤ 1 then some (go d (2 * axis + 2) c.work)
  else if c.step % 2 = 0 then
    if i = 0 then some (up (go d passed c.work) c.work)
    else
      (c.stream (2 * axis)).map fun s =>
        let r := c.fold s.words c.work
        let d := d.collCount c.slot c.task 0 r.2 0
        if i + 1 < k then up (go d passed r.1) r.1
        else if c.kind = 1 then down (go d (2 * axis + 2) r.1) r.1
        else go d (2 * axis + 2) r.1
  else
    (c.stream (2 * axis + 1)).map fun s => down (go d (2 * axis + 2) s.words) s.words

/-- Where a member passes on a stream of the member at a canonical position: away from its source along its own line, and into
the lines of the axes behind (R385, log entry 51). -/
def Dev.treeTargets (d : Dev) (c : CollTask) (src : Nat) : List Nat :=
  let axes := d.collAxes c
  let idx := fun (a id : Nat) => (axes.getD a []).findIdx (· == coordOf a id)
  (List.range 3).flatMap fun a =>
    if (List.range 3).any fun b => decide (a < b) && decide (idx b d.deviceId ≠ idx b src) then []
    else
      let me := idx a d.deviceId
      let s := idx a src
      (if s ≤ me then (d.chainNext c a true).toList else []) ++ (if me ≤ s then (d.chainNext c a false).toList else [])

/-- A contribution lands and is passed on (R382, R385). -/
def Dev.gatherLand (d : Dev) (c : CollTask) (p : Nat) (l : List Byte) : Dev :=
  let src := (d.collMembers c).getD p 0
  d.collWrite c (if c.kind = 3 then c.dst + p * c.count else c.dst) l fun d =>
    let d := d.modColl c.slot c.task fun c => { c with done := true, sent := c.sent ++ [p] }
    (d.treeTargets c src).foldl (fun d m => d.sendStream c m (8 + p) l) d

/-- One move of an ALL_GATHER or a BROADCAST; none while it waits (R385). -/
def Dev.gatherMove (d : Dev) (c : CollTask) : Option Dev :=
  let ms := d.collMembers c
  let me := ms.findIdx (· == d.deviceId)
  if !c.done && (decide (c.kind = 3) || decide (c.peer = d.deviceId)) then
    some (d.collRead c c.src c.count fun l d => d.gatherLand c me l)
  else if decide (c.sent.length = if c.kind = 3 then ms.length else 1) then some (d.collEnd c)
  else
    (c.streams.find? fun s => s.ended && decide (8 ≤ s.sid) && !c.sent.contains (s.sid - 8)).map fun s =>
      d.gatherLand c (s.sid - 8) s.bytes

/-- Every packet of a stream up to a sequence number is acknowledged (R366). -/
def Dev.acked (d : Dev) (dst channel seq : Nat) : Bool :=
  !((d.lnk.replay ++ d.lnk.held).any fun p =>
    decide (p.dst = dst) && decide (p.channel = channel) && decide (p.seq ≤ seq))

/-- The head of a hand-off: ROWS, the tick number and the row records with their editions (R311, R388). -/
def Dev.handHead (d : Dev) (slot : Nat) : List Byte :=
  let rows := ((d.slot slot).template.bind fun i => d.srv.templates.find? fun t => decide (t.index = i)).map (·.running)
    |>.getD []
  le rows.length 2 ++ List.replicate 6 0 ++ le d.grf.tick 8 ++ List.replicate 48 0 ++
    rows.flatMap fun w => (stepRowBytes { w with flags := d.rowFlags slot w }).take 28 ++ le w.edition 4

/-- The data packets of a SEND: padding of the last one stands in the upper half of TAG (log entry 51);
a BULK packet requests as the DMA engine numbered as its graph slot modulo 16 (R367, log entry 112). -/
def Dev.sendData (d : Dev) (c : CollTask) (channel type dst : Nat) (l : List Byte) : Dev :=
  (piecesOf l).foldl (fun d x =>
    let pad := alignUp x.2.length 32 - x.2.length
    d.sendPacket { dst := c.peer, channel := channel, type := type, space := c.space, tag := c.tag + 2 ^ 16 * pad
                   address := if channel = 1 then dst else dst + x.1, payload := padWords x.2
                   engine := if channel = 3 then c.slot % 16 else 0 }) d

/-- An END packet to the peer, whose sequence number is kept (R386). -/
def Dev.sendEnd (d : Dev) (c : CollTask) (channel type : Nat) (l : List Byte) : Dev :=
  let n := d.nextSeq c.peer channel
  (d.sendPacket { dst := c.peer, channel := channel, type := type, space := c.space, tag := c.tag, address := c.dst
                  payload := endPayload l, engine := if channel = 3 then c.slot % 16 else 0 }).modColl c.slot c.task fun c => { c with done := true, lastSeq := some n }

/-- Hand-off bytes of a critical-path bound: those through a port of 4 lanes count twice, as it has half the raw rate (R28). -/
def Dev.countHandoff (d : Dev) (c : CollTask) (n : Nat) : Dev :=
  let lanes := match d.route c.peer with
    | some p => (d.port (d.physPort p)).lanes
    | none => 8
  d.measure fun h => { h with winHand := h.winHand + (if lanes = 4 then 2 * n else n) }

/-- The packets of a SEND, each read and sent in turn, and its END packet; where a read faults, those sent stand (R226, R386,
R388). -/
def Dev.sendPieces (d : Dev) (slot task : Nat) : Nat → Dev
  | 0 => d
  | fuel + 1 =>
    match d.coll slot task with
    | none => d
    | some c =>
      let channel := if c.handoff then 1 else 3
      if c.pos = c.count ∧ c.pend = [] then
        (if c.handoff then d.countHandoff c c.count else d).sendEnd c channel 2 c.out
      else
        let n := min (4096 - c.pend.length) (c.count - c.pos)
        d.collRead c (c.src + c.pos) n fun l d =>
          let x := c.pend ++ l
          let d := d.sendData c channel 1 (if c.handoff then c.dst else c.dst + c.out.length) (x.take 4096)
          (d.modColl slot task fun c =>
            { c with pos := c.pos + n, pend := x.drop 4096, out := c.out ++ x.take 4096 }).sendPieces slot task fuel

/-- One move of a SEND: its data goes out; it is complete when the data has landed, which its acknowledgement says (R366,
R382, R388). -/
def Dev.sendMove (d : Dev) (c : CollTask) : Option Dev :=
  match c.lastSeq with
  | some n => if d.acked c.peer (if c.handoff then 1 else 3) n then some (d.collEnd c) else none
  | none =>
    let head := if c.handoff && decide (c.pos = 0 ∧ c.pend = []) && decide (c.out = []) then d.handHead c.slot else c.pend
    some ((d.modColl c.slot c.task fun c => { c with pend := head }).sendPieces c.slot c.task
      ((c.count + head.length) / 4096 + 2))

/-- One move of a RECEIVE: the next SEND of its peer and TAG has landed wholly (R382). -/
def Dev.receiveMove (d : Dev) (c : CollTask) : Option Dev :=
  if d.lnk.sends.contains (c.peer, c.tag) then
    some (({ d with lnk := { d.lnk with sends := d.lnk.sends.erase (c.peer, c.tag) } }).collEnd c)
  else none

/-- The 4 KiB units of a RELAY. -/
def CollTask.units (c : CollTask) : Nat := (c.count + 4095) / 4096

/-- The unit's granules have all landed (R382). -/
def CollTask.unitLanded (c : CollTask) (u : Nat) : Bool :=
  (List.range 64).all fun g => decide ((c.count + 63) / 64 ≤ 64 * u + g) || c.landed.contains (64 * u + g)

/-- One move of a RELAY: a unit that has landed is sent on; with every unit sent it is complete (R382). -/
def Dev.relayMove (d : Dev) (c : CollTask) : Option Dev :=
  match (List.range c.units).find? fun u => !c.sent.contains u && c.unitLanded u with
  | some u =>
    let n := min 4096 (c.count - 4096 * u)
    some (d.collRead c (c.src + 4096 * u) n fun l d =>
      let d := (d.sendData c 3 3 (c.dst + 4096 * u) l).modColl c.slot c.task fun c =>
        { c with sent := c.sent ++ [u], streams := match c.streams with
            | s :: _ => [{ s with bytes := s.bytes ++ l }]
            | [] => [{ src := d.deviceId, bytes := l }] }
      match d.coll c.slot c.task with
      | none => d
      | some c =>
        if c.sent.length < c.units then d
        else
          let d := d.sendEnd c 3 4 ((c.streams.head?.map (·.bytes)).getD [])
          d.collEnd c)
  | none => none

/-- One move of a collective task (R382, R385); RELAY units move by RELAY_UNIT. -/
def Dev.collMove (d : Dev) (c : CollTask) : Option Dev :=
  if d.stopped c.slot c.task then none
  else
    match c.kind with
    | 5 => d.sendMove c
    | 6 => d.receiveMove c
    | 7 => none
    | 3 | 4 => d.gatherMove c
    | _ =>
      if c.done then d.reduceMove c
      else
        some (d.collRead c c.src (c.count * c.size) fun l d =>
          let w := c.widen l
          (d.modColl c.slot c.task fun c => { c with done := true, work := w.1 }).collCount c.slot c.task 0 0 w.2)

/-- A collective moves until it waits, stops or ends. -/
def Dev.collRun (d : Dev) (slot task : Nat) : Nat → Dev
  | 0 => d
  | fuel + 1 =>
    match d.coll slot task with
    | none => d
    | some c =>
      match d.collMove c with
      | none => d
      | some d => d.collRun slot task fuel

/-- Moves that bring any collective to where it waits. -/
def collFuel : Nat := 2048

/-! ## Members that disagree, fail or leave (R382, R387) -/

/-- A collective fails here: its graph fails with a status, which its members learn (R387). -/
def Dev.collFail (d : Dev) (c : CollTask) (status : Nat) : Dev := d.failGraph c.slot status

/-- A collective is ended by another member's ABORT notice: COLLECTIVE_ABORTED (R387). -/
def Dev.collAborted (d : Dev) (c : CollTask) : Dev :=
  let keep := d.grf.colls.filter fun x => !(decide (x.slot = c.slot) && decide (x.task = c.task))
  ({ d with grf := { d.grf with colls := keep } }.countAbort).failGraph c.slot 0x0A0A

/-- A COLLECTIVE packet belongs to a task. -/
def CollTask.owns (c : CollTask) (p : Packet) : Bool :=
  decide (p.channel = 2) && c.grouped && decide (p.tag % 65536 = c.tag) && decide (p.address = c.address)

/-- An ABORT notice concerns a task: its group, TAG and order index, or the peer and TAG (R387, R389). -/
def CollTask.abortedBy (c : CollTask) (p : Packet) : Bool :=
  let l := p.payload
  decide (p.channel = 4) && decide (p.type = 4) && decide (leAt l 4 4 = c.tag) &&
    if c.grouped then decide (leAt l 0 4 = c.gx + 256 * c.gy + 65536 * c.gz) && decide (leAt l 8 4 = c.index)
    else decide (p.src = c.peer) && decide (leAt l 0 4 = 0)

/-- A packet of a stream reaches its task: the members' fields, the payload, or the END packet with its digest (R382,
R386). -/
def Dev.collPacket (d : Dev) (c : CollTask) (p : Packet) : Dev :=
  let sid := p.tag / 65536
  let now := d.now
  let d := d.modColl c.slot c.task fun c => { c with lastPacketAt := now }
  let on := fun (d : Dev) (f : Stream → Stream) => d.modColl c.slot c.task fun c =>
    { c with streams := c.streams.map fun s => if s.sid = sid then f s else s }
  match p.type with
  | 0 =>
    if p.payload.take 16 = c.header then
      d.modColl c.slot c.task fun c => { c with streams := c.streams ++ [{ src := p.src, sid := sid }] }
    else d.collFail c 0x0A08
  | 1 => on d fun s => { s with bytes := s.bytes ++ p.payload }
  | _ =>
    let n := leAt p.payload 8 8
    match c.streams.find? fun s => decide (s.sid = sid) with
    | none => d
    | some s =>
      if crc64 (s.bytes.take n) = leAt p.payload 0 8 then on d fun s => { s with bytes := s.bytes.take n, ended := true }
      else (d.digestBad (d.portFrom p.src) 0x0A0B c.slot c.task (d.taskRequest c.slot c.task)).collFail c 0x0A0B

/-- A packet or notice is for a task of a group that has not started here (R382). -/
def Dev.awaitsStart (d : Dev) (p : Packet) : Bool :=
  let l := p.payload
  if p.channel = 2 then
    decide ((look d.lnk.collIndex (p.address % 2 ^ 24 + 2 ^ 24 * (p.tag % 65536))).getD 0 ≤ p.address / 2 ^ 24)
  else
    decide (leAt l 0 4 ≠ 0) &&
      decide ((look d.lnk.collIndex (leAt l 0 4 + 2 ^ 24 * leAt l 4 4)).getD 0 ≤ leAt l 8 4)

/-- A packet or an ABORT notice meets the task it is for, waits for that task to start, or comes too late (R382, R387). -/
def Dev.collDeliver (d : Dev) (p : Packet) : Dev :=
  match d.grf.colls.find? fun c => c.owns p || c.abortedBy p with
  | none => if d.awaitsStart p then { d with lnk := { d.lnk with collWait := d.lnk.collWait ++ [p] } } else d
  | some c =>
    if p.channel = 4 then d.collAborted c
    else (d.collPacket c p).collRun c.slot c.task collFuel

/-! ## Starting a collective (R381, R382) -/

/-- The order index of the next task of a group and TAG (R382). -/
def Dev.collOrder (d : Dev) (c : CollTask) : Nat := (look d.lnk.collIndex c.key).getD 0

/-- A collective task starts: its body is checked, its index counted, and the packets that waited for it delivered (R381,
R382). -/
def Dev.collStart (d : Dev) (kind : Nat → Bool) : Dev :=
  match d.issuedWhere 6 kind with
  | none => d
  | some (slot, task) =>
    let space := (d.slot slot).space
    Dev.act (Chk.thn (d.readBody slot task 64) checkColl) 7 0 slot task space fun c d =>
      let c := { c with slot := slot, task := task, space := space, index := d.collOrder c, lastPacketAt := d.now }
      let d := ({ d with
        lnk := { d.lnk with collIndex := put d.lnk.collIndex c.key (c.index + 1) }
        grf := { d.grf with colls := d.grf.colls ++ [c] } }).setTask slot task .running
      let mine := d.lnk.collWait.filter fun p => c.owns p || c.abortedBy p
      let d := { d with lnk := { d.lnk with collWait := d.lnk.collWait.filter fun p => !(c.owns p || c.abortedBy p) } }
      let d := mine.foldl (fun (d : Dev) p => if (d.coll slot task).isSome then d.collDeliver p else d) d
      if ((d.collOthers c).any fun m => (d.route m).isNone) then d.collFail c 0x0A06 else d.collRun slot task collFuel

/-! ## Landing (R382, R386, R388) -/

/-- The key of an inbound stream. -/
def inKey (p : Packet) : Nat :=
  p.tag % 65536 + 65536 * (p.channel + 8 * (if 3 ≤ p.type then 1 else 0))

/-- The payload of a data packet without its padding (log entry 51). -/
def packetData (p : Packet) : List Byte := p.payload.take (p.payload.length - p.tag / 65536 % 32)

/-- An inbound stream takes more payload (R386). -/
def Dev.inboundAdd (d : Dev) (p : Packet) : Dev :=
  let is := fun (s : Stream) => decide (s.src = p.src) && decide (s.sid = inKey p)
  let ss := d.lnk.inbound
  let new := if ss.any is then ss.map fun s => if is s then { s with bytes := s.bytes ++ packetData p } else s
    else ss ++ [{ src := p.src, sid := inKey p, bytes := packetData p }]
  { d with lnk := { d.lnk with inbound := new } }

/-- An inbound stream ends: whether its digest matches (R386). -/
def Dev.inboundEnd (d : Dev) (p : Packet) : Bool × Dev :=
  let is := fun (s : Stream) => decide (s.src = p.src) && decide (s.sid = inKey p)
  let l := ((d.lnk.inbound.find? is).map (·.bytes)).getD []
  let d := { d with lnk := { d.lnk with inbound := d.lnk.inbound.filter fun s => !is s } }
  if crc64 l = leAt p.payload 0 8 then (true, d)
  else
    let d := d.digestBad (d.portFrom p.src) 0x0A0B 0xFF 0xFFFF 0xFFFFFFFF
    (false, d.notice p.src 4 (p.tag % 65536) (le 0 4 ++ le (p.tag % 65536) 4 ++ le 0 4 ++ le 0x0A0B 4))

/-- Bytes land at a virtual address, or the engine stops for a fault (R226, R387): a landing that Damson can make possible
waits, any other ends the source's task (log entry 52). An engine that holds an unresolved fault records no second one, and the
packet waits. The first component says that the bytes were taken. -/
def Dev.land (d : Dev) (p : Packet) (va : Nat) (l : List Byte) : Bool × Dev :=
  let port := d.portFrom p.src
  match d.writeVa { cls := 7, index := port } p.space va l with
  | (.ok _, d) => (true, d.relayLanded p.space va l.length)
  | (.bad, d) => (true, d)
  | (.fault f, d) =>
    let wait := decide (f.cause = 1 ∨ f.cause = 2)
    let status := 0x0500 + f.cause
    let d := if d.unitHolds 7 port then d else d.recordFault
      { cause := f.cause, unitClass := 7, unitIndex := port, write := f.write, level := f.level, space := p.space
        address := f.va, entry := f.entry, graph := 0xFF, outcome := if wait then 0 else 2
        status := if wait then 0 else status, resolvedAt := if wait then 0 else d.now }
    if wait || d.unitHolds 7 port then (false, d)
    else (true, d.notice p.src 4 (p.tag % 65536) (le 0 4 ++ le (p.tag % 65536) 4 ++ le 0 4 ++ le status 4))

/-- A RECEIVE that waits for this source has heard from it. -/
def Dev.heardFrom (d : Dev) (p : Packet) : Dev :=
  let now := d.now
  let note := fun (c : CollTask) =>
    if c.kind = 6 ∧ c.peer = p.src ∧ c.tag = p.tag % 65536 then { c with lastPacketAt := now } else c
  { d with grf := { d.grf with colls := d.grf.colls.map note } }

/-- A SEND has landed wholly: a RECEIVE may meet it (R382). -/
def Dev.sendLanded (d : Dev) (p : Packet) : Dev :=
  let d := { d with lnk := { d.lnk with sends := d.lnk.sends ++ [(p.src, p.tag % 65536)] } }
  match d.grf.colls.find? fun c => decide (c.kind = 6) && decide (c.peer = p.src) && decide (c.tag = p.tag % 65536) with
  | none => d
  | some c => d.collRun c.slot c.task collFuel

/-- A BULK packet: data lands, and the END packet is checked. The first component says that the packet was taken (R382,
R386). -/
def Dev.bulkIn (d : Dev) (p : Packet) : Bool × Dev :=
  let d := d.heardFrom p
  if p.type = 1 ∨ p.type = 3 then
    let x := d.land p p.address (packetData p)
    (x.1, if x.1 then x.2.inboundAdd p else x.2)
  else
    let x := d.inboundEnd p
    (true, if x.1 && decide (p.type = 2) then x.2.sendLanded p else x.2)

/-- The row records of a hand-off go to Damson; rows of requests that are not tracked are discarded, each request counted
(R300, R308, R388). -/
def Dev.rowsArrive (d : Dev) (head : List Byte) : Dev :=
  let n := leAt head 0 2
  let tick := d.grf.tick
  let rows := (groupsOf 32 n (head.drop 64)).map fun l =>
    let w := parseStepRow l
    let r := d.request w.request
    let carry := decide (w.node = 0)
    { w with
      edition := leAt l 0x1C 4, arrived := tick, seqSlot := (r.map (·.seqSlot)).getD w.seqSlot
      acceptCount := if carry then ((r.map (·.accepted.length)).getD 0) else 0
      acceptPath := if carry then ((r.map (·.accepted)).getD []) else [] }
  let lost := ((rows.map (·.request)).dedup).filter fun id => (d.request id).isNone
  let d := lost.foldl (fun d id => (d.bump Off.srvUnknownHandoffs).flagEvent Off.srvStatus 7 { request := id, arg0 := id }) d
  let live := rows.filter fun w => (d.request w.request).any fun r => decide (r.state ≠ .ended) && !r.retiring
  { d with srv := { d.srv with arrivals := d.srv.arrivals ++ live } }

/-- HANDOFF_RECEIVE: the first bytes of a hand-off go to Damson and the rest lands at DESTINATION; with its END packet the rows
have arrived. The first component says that the packet was taken (R388). -/
def Dev.handoffIn (d : Dev) (p : Packet) : Bool × Dev :=
  let d := d.heardFrom p
  let is := fun (h : Hand) => decide (h.src = p.src) && decide (h.tag = p.tag % 65536)
  let h : Hand := (d.srv.hands.find? is).getD { src := p.src, tag := p.tag % 65536 }
  let rest := d.srv.hands.filter fun h => !is h
  if p.type = 1 then
    let l := packetData p
    let need := if h.head.length < 2 then 64 + 32 * leAt l 0 2 else 64 + 32 * leAt h.head 0 2
    let k := min l.length (need - h.head.length)
    let body := l.drop k
    let x := if body = [] then (true, d) else d.land p (p.address + h.landed) body
    if x.1 then
      (true, ({ x.2 with srv := { x.2.srv with hands := rest ++
        [{ h with head := h.head ++ l.take k, landed := h.landed + body.length }] } }).inboundAdd p)
    else (false, x.2)
  else
    let x := ({ d with srv := { d.srv with hands := rest } }).inboundEnd p
    (true, if x.1 then (x.2.rowsArrive h.head).sendLanded p else x.2)

/-- Packets whose landing stopped for a fault, and those behind them from the same source and channel, are tried again in
order (R226, R387). -/
def Dev.landAgain (d : Dev) : Dev :=
  let ps := d.lnk.landWait
  ps.foldl (fun d p =>
    let behind := d.lnk.landWait.any fun q => decide (q.src = p.src) && decide (q.channel = p.channel)
    let x := if behind then (false, d) else if p.channel = 1 then d.handoffIn p else d.bulkIn p
    if x.1 then x.2 else { x.2 with lnk := { x.2.lnk with landWait := x.2.lnk.landWait ++ [p] } })
    { d with lnk := { d.lnk with landWait := [] } }

/-- A data packet that lands, or waits behind one that could not (R226). -/
def Dev.landIn (d : Dev) (p : Packet) : Dev :=
  ({ d with lnk := { d.lnk with landWait := d.lnk.landWait ++ [p] } }).landAgain

/-- Every collective that may move moves (R366, R387). -/
def Dev.collPump (d : Dev) : Dev :=
  let d := if d.lnk.landWait = [] then d else d.landAgain
  (d.grf.colls.map fun c => (c.slot, c.task)).foldl (fun d x => d.collRun x.1 x.2 collFuel) d

/-! ## Timeouts and relay units (R382, R387) -/

/-- A running collective that waits for a member upstream (R387). -/
def CollTask.waits (c : CollTask) : Bool := decide (c.kind ≠ 5) && decide (c.kind ≠ 7)

/-- COLLECTIVE_TIMEOUT: the collective that has waited longest for its upstream member reaches the timeout (R232, R387). -/
def Dev.collectiveTimeout (d : Dev) : Dev :=
  let ws := d.grf.colls.filter fun c => c.waits && !d.stopped c.slot c.task
  match sortBy (fun (a b : CollTask) => decide (a.lastPacketAt < b.lastPacketAt)) ws with
  | [] => d
  | c :: _ =>
    let d := { d with now := max d.now (c.lastPacketAt + 1000 * d.reg Off.lnkTimeout) }
    d.collFail c 0x0A09

/-- RELAY_UNIT: a 4 KiB unit of a RELAY whose granules have all landed is sent on (R382). -/
def Dev.relayUnit (d : Dev) : Dev :=
  match (d.grf.colls.filter fun c => decide (c.kind = 7) && !d.stopped c.slot c.task).findSome? d.relayMove with
  | some d => d
  | none => d

/-- A graph fails because a device is gone: the requests of its run end FAILED (R390). -/
def Dev.failMember (d : Dev) (slot : Nat) : Dev :=
  let rows := ((d.slot slot).template.bind fun i => d.srv.templates.find? fun t => decide (t.index = i)).map (·.running)
    |>.getD []
  ((rows.map (·.request)).dedup).foldl (fun d id => d.endRequest id 5 0x0A05) (d.failGraph slot 0x0A05)

/-- Collectives with a member that is lost abort (R387, R390, R392). -/
def Dev.abortLost (d : Dev) : Dev :=
  let lost := d.grf.colls.filter fun c => (d.collOthers c).any d.memberLost || d.lnk.expelled
  ((lost.map (·.slot)).dedup).foldl (fun d slot => d.failMember slot) d

/-- Collectives that a link's failure leaves without a route abort (R387). -/
def Dev.abortUnroutable (d : Dev) : Dev :=
  let lost := d.grf.colls.filter fun c => (d.collOthers c).any fun (m : Nat) => d.present m && (d.route m).isNone
  ((lost.map (·.slot)).dedup).foldl (fun d slot => d.failGraph slot 0x0A06) d

/-- ALL_REDUCE: it starts, or a body of no kind of R381 is rejected (R381, R384). -/
def execAllReduce (s : State) : Host.Outcome State Fault Refusal :=
  lift (·.collStart fun b => !decide (2 ≤ b % 16 ∧ b % 16 ≤ 7)) s
/-- REDUCE_SCATTER (R382, R384). -/
def execReduceScatter (s : State) : Host.Outcome State Fault Refusal := lift (·.collStart fun b => decide (b % 16 = 2)) s
/-- ALL_GATHER (R382). -/
def execAllGather (s : State) : Host.Outcome State Fault Refusal := lift (·.collStart fun b => decide (b % 16 = 3)) s
/-- BROADCAST (R382). -/
def execBroadcast (s : State) : Host.Outcome State Fault Refusal := lift (·.collStart fun b => decide (b % 16 = 4)) s
/-- SEND (R382, R388). -/
def execSend (s : State) : Host.Outcome State Fault Refusal := lift (·.collStart fun b => decide (b % 16 = 5)) s
/-- RECEIVE (R382). -/
def execReceive (s : State) : Host.Outcome State Fault Refusal := lift (·.collStart fun b => decide (b % 16 = 6)) s
/-- RELAY (R382). -/
def execRelay (s : State) : Host.Outcome State Fault Refusal := lift (·.collStart fun b => decide (b % 16 = 7)) s
/-- RELAY_UNIT (R382). -/
def execRelayUnit (s : State) : Host.Outcome State Fault Refusal := lift Dev.relayUnit s
/-- COLLECTIVE_TIMEOUT (R387). -/
def execCollectiveTimeout (s : State) : Host.Outcome State Fault Refusal := lift Dev.collectiveTimeout s
/-- HANDOFF_RECEIVE (R388). -/
def execHandoffReceive (p : Packet) (s : State) : Host.Outcome State Fault Refusal :=
  lift (·.landIn { p with channel := 1 }) s
/-- ABORT (R387). -/
def execAbort (p : Packet) (s : State) : Host.Outcome State Fault Refusal :=
  lift (·.collDeliver { p with channel := 4, type := 4 }) s
/-- FAULT_RESUME: the stopped task goes on, and with it a collective or a landing (R228, R387). -/
def execFaultResume (slot : Nat) (s : State) : Host.Outcome State Fault Refusal :=
  lift (fun d => (d.faultResume slot).collPump) s

end Sys2Proof.Machine
end

