-- ==== Sys2Proof/Machine/Delivery.lean ====
section
/-! DEFINITION. End-to-end delivery (R366), refusals and losses (R268, R371, R378), the notices that Damson's peers send
(R389), and the entry into the states of service (R175, R267, R268). -/

namespace Sys2Proof.Machine

/-! ## Acknowledgements (R366) -/

/-- Sequence number `a` lies before `b`, modulo 2^32. -/
def seqBefore (a b : Nat) : Bool :=
  let x := (b + 2 ^ 32 - a % 2 ^ 32) % 2 ^ 32
  decide (0 < x) && decide (x < 2 ^ 31)

/-- The value kept for a device and channel. -/
def pairVal (l : List (Nat × Nat × Nat)) (dev ch : Nat) : Nat :=
  ((l.find? fun x => decide (x.1 = dev) && decide (x.2.1 = ch)).map (·.2.2)).getD 0

/-- The value kept for a device and channel changed. -/
def setPair (l : List (Nat × Nat × Nat)) (dev ch v : Nat) : List (Nat × Nat × Nat) :=
  (l.filter fun x => !(decide (x.1 = dev) && decide (x.2.1 = ch))) ++ [(dev, ch, v)]

/-- A cumulative acknowledgement goes to a source (R366, R389). It takes no sequence number and is not kept for replay (log
entry 51). -/
def Dev.sendAck (d : Dev) (src ch : Nat) : Dev :=
  let n := (pairVal d.lnk.recvNext src ch + 2 ^ 32 - 1) % 2 ^ 32
  let p : Packet := { dst := src, src := d.deviceId, channel := 4, type := 1, ts := d.now
                      payload := padWords (le src 2 ++ le ch 2 ++ le n 4) }
  { d with lnk := { d.lnk with ackDue := setPair d.lnk.ackDue src ch 0, sent := d.lnk.sent ++ [p] } }.transmit p

/-- E2E_ACK: packets delivered from a source are acknowledged, where any wait for it (R366). -/
def Dev.e2eAck (d : Dev) (src ch : Nat) : Dev := if pairVal d.lnk.ackDue src ch = 0 then d else d.sendAck src ch

/-- Packets held while the replay store was full are sent (R366). -/
def Dev.releaseHeld (d : Dev) : Dev :=
  let ps := d.lnk.held
  ps.foldl (fun d p => d.sendOrHold p) { d with lnk := { d.lnk with held := [] } }

/-- An acknowledgement arrives: the packets it covers leave the replay store (R366). -/
def Dev.ackCame (d : Dev) (src : Nat) (l : List Byte) : Dev :=
  let ch := leAt l 2 2
  let n := leAt l 4 4
  let gone := fun (p : Packet) => decide (p.dst = src) && decide (p.channel = ch) && !seqBefore n p.seq
  ({ d with lnk := { d.lnk with
      replay := d.lnk.replay.filter fun p => !gone p
      retryAt := d.lnk.retryAt.filter fun x => !(decide (x.1 = src) && decide (x.2.1 = ch) && !seqBefore n x.2.2.1) } }.releaseHeld).collPump

/-- Packets sent again from the replay store (R366). -/
def Dev.resend (d : Dev) (ps : List Packet) : Dev :=
  if ps = [] then d else ps.foldl (fun d p => d.transmit p) (d.bumpWrap Off.lnkE2eReplays ps.length)

/-- E2E_REPLAY: a source that has had no acknowledgement for 100 µs resends every packet that is not acknowledged (R366). -/
def Dev.e2eReplay (d : Dev) (dst ch : Nat) : Dev :=
  let ps := d.lnk.replay.filter fun p => decide (p.dst = dst) && decide (p.channel = ch)
  match ps with
  | [] => d
  | p :: _ => { d with now := max d.now (p.ts + 100000) }.resend ps

/-- Packets whose hint has passed are sent again (R371). -/
def Dev.flushRetries (d : Dev) : Dev :=
  let due := d.lnk.retryAt.filter fun (x : Nat × Nat × Nat × Nat) => decide (x.2.2.2 ≤ d.now)
  if due = [] then d
  else
    let ps := d.lnk.replay.filter fun p =>
      due.any fun x => decide (x.1 = p.dst) && decide (x.2.1 = p.channel) && decide (x.2.2.1 = p.seq)
    ({ d with lnk := { d.lnk with retryAt := d.lnk.retryAt.filter fun x => decide (d.now < x.2.2.2) } }).resend ps

/-- RETRY_AFTER: the packet stays in the replay store and is sent again after the hint (R371). -/
def Dev.retryAfter (d : Dev) (dst ch seq hint : Nat) : Dev :=
  if d.lnk.replay.any fun p => decide (p.dst = dst) && decide (p.channel = ch) && decide (p.seq = seq) then
    { d with lnk := { d.lnk with retryAt := d.lnk.retryAt ++ [(dst, ch, seq, d.now + 1000 * hint)] } }
  else d

/-! ## Losses (R378) -/

/-- A NOTICE that a packet was discarded where its route ended (R378, R389). -/
def Dev.sendLost (d : Dev) (p : Packet) (status : Nat) : Dev :=
  if p.channel = 4 ∧ (p.type = 1 ∨ p.type = 6) then d
  else d.notice p.src 6 p.dst (le p.seq 4 ++ le p.channel 4 ++ le status 4 ++ le p.dst 4)

/-- The status of a destination that cannot be reached (R378, R394). -/
def Dev.lostStatus (d : Dev) (dst : Nat) : Nat := if d.present dst then 0x0A06 else 0x0A05

/-- LOST: a packet of this device was discarded; the task that sent it ends with the status (R378, R390). -/
def Dev.lost (d : Dev) (dst ch seq status : Nat) : Dev :=
  let is := fun (p : Packet) => decide (p.dst = dst) && decide (p.channel = ch) && decide (p.seq = seq)
  match d.lnk.replay.find? is with
  | none => d
  | some p =>
    let d := { d with lnk := { d.lnk with replay := d.lnk.replay.filter fun p => !is p } }
    let mine := fun (c : CollTask) =>
      c.owns p || (decide (c.kind = 5 ∨ c.kind = 7) && decide (c.peer = dst) && decide (c.tag = p.tag % 65536) &&
        decide (ch = 1 ∨ ch = 3))
    match d.grf.colls.find? mine with
    | none => d
    | some c => if status = 0x0A05 then d.failMember c.slot else d.collFail c status

/-- Packets of this device to destinations that are cut are discarded as lost (R378, R390). -/
def Dev.dropLost (d : Dev) : Dev :=
  (d.lnk.replay.filter fun p => !d.present p.dst).foldl (fun d p => d.lost p.dst p.channel p.seq 0x0A05) d

/-! ## Delivery (R366) -/

/-- The data and Damson's notices of a packet, delivered once (R364, R389). Hand-offs to an expelled device are discarded
(R392). -/
def Dev.deliverData (d : Dev) (p : Packet) : Dev :=
  let l := p.payload
  match p.channel with
  | 1 => if d.lnk.expelled then d.sendLost p 0x0A05 else d.landIn p
  | 2 => d.collDeliver p
  | 3 => d.landIn p
  | _ =>
    match p.type with
    | 1 => d.ackCame p.src l
    | 2 => d.tokenArrived (parseToken l)
    | 3 => d.rollbackCame l
    | 4 => d.collDeliver p
    | 5 => d.retryAfter p.src (leAt l 4 4) (leAt l 0 4) (leAt l 8 4)
    | 6 => d.lost (leAt l 0xC 4) (leAt l 4 4) (leAt l 0 4) (leAt l 8 4)
    | 0xB => d.askFrame (leAt l 0 4) (leAt l 4 8)
    | _ => d

/-- A packet was delivered: the next number is expected, and after 64 packets an acknowledgement goes out (R366). -/
def Dev.took (d : Dev) (p : Packet) : Dev :=
  let n := pairVal d.lnk.ackDue p.src p.channel + 1
  let d := { d with lnk := { d.lnk with
      recvNext := setPair d.lnk.recvNext p.src p.channel ((p.seq + 1) % 2 ^ 32)
      ackDue := setPair d.lnk.ackDue p.src p.channel n } }
  if 64 ≤ n then d.sendAck p.src p.channel else d

/-- Packets of the reorder store that have become next are delivered (R366). -/
def Dev.drainReorder (deliver : Dev → Packet → Dev) (src ch : Nat) : Nat → Dev → Dev
  | 0, d => d
  | fuel + 1, d =>
    let n := pairVal d.lnk.recvNext src ch
    let is := fun (p : Packet) => decide (p.src = src) && decide (p.channel = ch) && decide (p.seq = n)
    match d.lnk.reorder.find? is with
    | none => d
    | some p =>
      let d := { d with lnk := { d.lnk with reorder := d.lnk.reorder.filter fun p => !is p } }
      Dev.drainReorder deliver src ch fuel (deliver (d.took p) p)

/-- A packet for this device: delivered in SEQUENCE order and exactly once (R366). -/
def Dev.receiveWith (deliver : Dev → Packet → Dev) (d : Dev) (p : Packet) : Dev :=
  if p.channel = 4 ∧ p.type = 1 then deliver d p
  else
    let n := pairVal d.lnk.recvNext p.src p.channel
    if p.seq = n then Dev.drainReorder deliver p.src p.channel 1024 (deliver (d.took p) p)
    else if seqBefore p.seq n then (d.bumpWrap Off.lnkDuplicates).sendAck p.src p.channel
    else if (d.lnk.reorder.any fun q => decide (q.src = p.src) && decide (q.channel = p.channel) && decide (q.seq = p.seq)) then d
    else if d.lnk.reorder.length < 1024 then { d with lnk := { d.lnk with reorder := d.lnk.reorder ++ [p] } }
    else d

/-! ## Early requests (R268) -/

/-- A higher-layer request before DIGITAL: buffered, up to 64, or refused with RETRY_AFTER, whose hint is at least 1,000 µs
(R268, R371). -/
def Dev.earlyRequest (d : Dev) (p : Packet) : Dev :=
  if d.lnk.early.length < 64 then { d with lnk := { d.lnk with early := d.lnk.early ++ [p] } }
  else
    let (n, d) := d.drawNat
    (d.bumpWrap Off.lnkRetryRefusals).notice p.src 5 p.seq (le p.seq 4 ++ le p.channel 4 ++ le (min (max 1000 n) 0xFFFFFFFF) 4)

/-- The buffered requests are served in order of arrival (R268). -/
def Dev.serveEarly (d : Dev) : Dev :=
  let ps := d.lnk.early
  ps.foldl (fun d p => d.receiveWith Dev.deliverData p) { d with lnk := { d.lnk with early := [] } }

/-- The device answers early requests by buffering them (R268). -/
def Dev.isEarly (d : Dev) : Bool := decide (d.bring = .fw ∨ d.bring = .hold ∨ d.bring = .link)

/-! ## States of service (R130, R175, R176, R267) -/

/-- The state that the grades of the live tiles allow; READY with an empty live set (R175, R266). -/
def Dev.gradeState (d : Dev) : Bringup := if d.gradeDone 2 then .ready else if d.gradeDone 1 then .coarse else .digital

/-- A state of service is entered: Damson sets reference mode in DIGITAL and clears it on leaving that state (R130, R176). -/
def Dev.enterState (d : Dev) (b : Bringup) : Dev :=
  let d := if b = .digital then d.setFld Off.curCtrl 7 7 1
    else if d.bring = .digital then d.setFld Off.curCtrl 7 7 0 else d
  let d := if b = .ready then { d with cal := { d.cal with powerup := false } } else d
  d.setBring b

/-- The fabric is formed: the device leaves LINK, and serves what it buffered (R266-R268). -/
def Dev.leaveLink (d : Dev) : Dev := if d.bring = .link then (d.enterState d.gradeState).serveEarly else d

/-- E2E_ACK (R366). -/
def execE2eAck (src channel : Nat) (s : State) : Host.Outcome State Fault Refusal := lift (·.e2eAck src channel) s
/-- E2E_REPLAY (R366). -/
def execE2eReplay (dst channel : Nat) (s : State) : Host.Outcome State Fault Refusal := lift (·.e2eReplay dst channel) s
/-- RETRY_AFTER (R371). -/
def execRetryAfter (dst channel seq hint : Nat) (s : State) : Host.Outcome State Fault Refusal :=
  lift (·.retryAfter dst channel seq hint) s
/-- LOST (R378). -/
def execLost (dst channel seq status : Nat) (s : State) : Host.Outcome State Fault Refusal :=
  lift (·.lost dst channel seq status) s

end Sys2Proof.Machine
end

