-- ==== Sys2Proof/Machine/Fabric.lean ====
section
/-! DEFINITION. The fabric: ports, training and link-level HELLO (R358, R369, R370), the plan check (R372-R374), plan reports
and formation (R375, R376), cuts and rejoining (R390), the failure of a link (R363, R379), time (R377), replica digests
(R392), packets and flits received (R360-R366), and the peer snapshot (R393). -/

namespace Sys2Proof.Machine

/-! ## CONTROL flits and link-level HELLO (R360, R369) -/

/-- A CONTROL flit is sent on a port; while 512 flits are not acknowledged none goes out (R360, R362). -/
def Dev.sendControl (d : Dev) (port : Nat) (words : List (List Byte)) : Dev :=
  d.modPort port fun t =>
    if 512 ≤ t.retry.length then t
    else
      let seq := (t.txSeq + 1) % 2 ^ 16
      let (ch, n, t) := t.giveBack
      { t with
        txSeq := seq
        nak := false
        retry := t.retry ++ [(seq, flitBytes 2 0 words false t.nak ch n t.rxSeq seq)] }

/-- The highest fabric-layer version that the link firmware supports (R370). -/
def Dev.flvMax (d : Dev) : Nat := if 0x01040000 ≤ d.lnk.linkFw then 2 else 1

/-- The 64 bytes of a link-level HELLO (R369). -/
def Dev.helloBytes (d : Dev) (serial : List Byte) (port : Nat) : List Byte :=
  le 0x4C485753 4 ++ le 1 1 ++ le 1 1 ++ le 1 1 ++ le d.flvMax 1 ++ le (port + 16 * (d.port port).lanes) 1 ++
  le d.bring.code 1 ++ le d.deviceId 2 ++ le d.lnk.linkFw 4 ++ le d.lnk.planId 8 ++ le d.now 8 ++
  (serial ++ List.replicate 16 0).take 16 ++ le d.env.straps.toNat 2 ++ le (if d.lnk.swap then 1 else 0) 1 ++
  List.replicate 13 0

/-- A link-level HELLO is sent as two CONTROL words (R369). -/
def Dev.sendHello (d : Dev) (serial : List Byte) (port : Nat) : Dev :=
  let l := d.helloBytes serial port
  d.sendControl port [l.take 32, l.drop 32]

/-- A link-level HELLO of a peer from its 64 bytes (R369). -/
def parseHello (l : List Byte) : PeerHello :=
  { llvMin := leAt l 4 1, llvMax := leAt l 5 1, flvMin := leAt l 6 1, flvMax := leAt l 7 1, port := leAt l 8 1 % 8
    lanes := leAt l 8 1 / 16, state := leAt l 9 1 % 16, deviceId := leAt l 0xA 2, linkFw := leAt l 0xC 4
    planId := leAt l 0x10 8, serial := (l.drop 0x20).take 16 }

/-! ## The plan check (R372-R374) -/

/-- A port is enabled (R393). -/
def Dev.portEnabled (d : Dev) (p : Nat) : Bool := d.bitAt Off.lnkCtrl p

/-- The logical port that a physical port plays (R374). -/
def Dev.logicalPort (d : Dev) (p : Nat) : Nat := if (d.port p).remapped then otherPort p else p

/-- Lanes that the plan expects of a hop: 8 within a cube, else those of the axis (R372). -/
def Dev.lanesExpected (d : Dev) (id port : Nat) : Nat :=
  match d.neighbour id port with
  | some n => if cubeOf id = cubeOf n then 8 else d.lnk.hopLanes.getD (port / 2) 8
  | none => 8

/-- The report held from a device (R375). -/
def Dev.reportOf (d : Dev) (id : Nat) : Option Report := d.lnk.reports.find? fun r => decide (r.device = id)

/-- The peer's logical port, with the exchange of roles that it has reported (R374, log entry 54). -/
def Dev.peerLogical (d : Dev) (peer port : Nat) : Nat :=
  if ((d.reportOf peer).any fun r => bit r.remapped (port / 2)) then otherPort port else port

/-- Both ends' ranges of versions meet (R370). -/
def Dev.versionsMeet (d : Dev) (h : PeerHello) : Bool :=
  decide (h.llvMin ≤ 1) && decide (1 ≤ h.llvMax) && decide (h.flvMin ≤ d.flvMax) && decide (1 ≤ h.flvMax)

/-- The outcome of the plan check of a logical port for a peer, by its device and port (R373). SWAPPED is tested before
MISCABLED, whose condition it otherwise lies in (log entry 53). -/
def Dev.placeOutcome (d : Dev) (q lanes peer peerPort : Nat) : Nat :=
  let me := d.deviceId
  match d.neighbour me q with
  | none => 7
  | some n =>
    if peer = n ∧ peerPort = otherPort q then (if lanes < d.lanesExpected me q then 3 else 1)
    else if (peer = n ∧ peerPort / 2 = q / 2) ∨ d.neighbour me (otherPort q) = some peer then 4
    else 5

/-- The plan outcome of a port for a peer's HELLO (R373). -/
def Dev.planOutcome (d : Dev) (p : Nat) (h : PeerHello) : Nat :=
  let q := d.logicalPort p
  if d.neighbour d.deviceId q = none then 7
  else if h.planId ≠ d.lnk.planId then 8
  else if !d.versionsMeet h then 9
  else d.placeOutcome q (d.port p).lanes h.deviceId (d.peerLogical h.deviceId h.port)

/-- An outcome with which a port goes UP (R373). -/
def outcomeUp (o : Nat) : Bool := decide (o = 1 ∨ o = 3)

/-- A port reaches its plan outcome: any but OK and UNUSED sets PLAN_FAULT and is recorded, with the peer's port and the
first bytes of its serial number (R373, log entry 55). -/
def Dev.setOutcome (d : Dev) (p outcome : Nat) : Dev :=
  let d := d.modPort p fun t => { t with plan := outcome }
  if outcome = 1 ∨ outcome = 2 then d
  else
    let t := d.port p
    (d.setBit Off.lnkStatus 4).event 0x1380 { arg0 := p, arg1 := t.peerPort, arg2 := leAt t.peerSerial 0 8 }

/-- The state that a plan outcome gives a port (R373). -/
def outcomeState (o : Nat) : PortState :=
  if outcomeUp o then .up else if o = 2 then .off else if o = 6 then .down else .isolated

/-- An axis whose two ports are both SWAPPED here, and whose exchange of roles makes both OK (R374). On a ring of two
devices whose both cables are crossed, the lower device exchanges its roles (log entry 54). -/
def Dev.swapWorks (d : Dev) (axis : Nat) : Bool :=
  let ok := fun (p : Nat) =>
    let t := d.port p
    outcomeUp (d.placeOutcome (otherPort p) t.lanes t.peerId (d.peerLogical t.peerId t.peerPort))
  ok (2 * axis) && ok (2 * axis + 1) && (decide (2 < d.axisLen axis) || decide (d.deviceId < (d.port (2 * axis)).peerId))

/-- SWAPPED on both ports of an axis here. -/
def Dev.swappedAxis (d : Dev) (axis : Nat) : Bool :=
  decide ((d.port (2 * axis)).plan = 4) && decide ((d.port (2 * axis + 1)).plan = 4)

/-- The axes that are swapped are remapped, or become MISCABLED where the exchange does not make them OK (R374). -/
def Dev.resolveSwaps (d : Dev) : Dev :=
  (List.range 3).foldl (fun d axis =>
    if !d.swappedAxis axis then d
    else
      let p := 2 * axis
      if d.swapWorks axis then
        let set := fun (d : Dev) (p : Nat) =>
          let t := d.port p
          let o := d.placeOutcome (otherPort p) t.lanes t.peerId (d.peerLogical t.peerId t.peerPort)
          (d.modPort p fun t => { t with remapped := true, state := .up }).setOutcome p o
        set (set d p) (p + 1)
      else if d.axisLen axis = 2 ∧ (d.port p).peerId < d.deviceId then d
      else (d.setOutcome p 5).setOutcome (p + 1) 5) d

/-- Swaps are remapped where the plan accepts them (R372, R374). -/
def Dev.settleSwaps (d : Dev) : Dev := if d.lnk.swap then d.resolveSwaps else d

/-- SWAPPED ports whose peer has exchanged its roles are checked again (R374, log entry 54). -/
def Dev.recheckSwapped (d : Dev) (peer : Nat) : Dev :=
  (List.range 6).foldl (fun d p =>
    let t := d.port p
    if t.plan ≠ 4 ∨ t.peerId ≠ peer then d
    else
      let o := d.placeOutcome (d.logicalPort p) t.lanes peer (d.peerLogical peer t.peerPort)
      if outcomeUp o then (d.modPort p fun t => { t with state := .up }).setOutcome p o else d) d

/-! ## The sync tree (R377) -/

/-- The sync tree is rebuilt: the parent is the neighbour on the shortest UP path to the leader, ties to the lower port; a
depth above 22 hops sets SYNC_FAULT (R377). -/
def Dev.rebuildSync (d : Dev) : Dev :=
  let me := d.deviceId
  let root := { d with lnk := { d.lnk with parent := 7, depth := 0, offBad := none } }
  if !d.lnk.formed ∨ d.lnk.leader = me then root
  else
    match d.distance me d.lnk.leader with
    | none => root
    | some k =>
      let p := (List.range 6).find? fun p => d.hopUsable me p && match d.neighbour me p with
        | some n => decide (d.distance n d.lnk.leader = some (k - 1))
        | none => false
      let d := { d with lnk := { d.lnk with parent := p.getD 7, depth := k } }
      if 22 < k then d.flagEvent Off.lnkStatus 10 { arg1 := k } else d

/-! ## Routes that change (R379) -/

/-- Packets whose route has changed since `old` are sent again from the replay store (R366, R379, R390). -/
def Dev.replayMoved (d old : Dev) : Dev :=
  d.resend (d.lnk.replay.filter fun p => d.present p.dst && (d.route p.dst != old.route p.dst))

/-! ## Reports and formation (R375, R376) -/

/-- The bytes of a plan report (R375, log entry 51). -/
def reportBytes (r : Report) : List Byte :=
  le r.device 2 ++ (List.range 6).flatMap (fun i => le (r.outcomes.getD i 0) 1) ++ le r.counter 8 ++ le r.tick 8 ++
  le r.flvMax 1 ++ le r.remapped 1 ++ (List.range 6).flatMap fun i => le (r.peers.getD i 0xFFFF) 2

/-- A plan report from its bytes. -/
def parseReport (l : List Byte) : Report :=
  { device := leAt l 0 2, outcomes := (List.range 6).map fun i => leAt l (2 + i) 1, counter := leAt l 8 8
    tick := leAt l 0x10 8, flvMax := leAt l 0x18 1, remapped := leAt l 0x19 1
    peers := (List.range 6).map fun i => leAt l (0x1A + 2 * i) 2 }

/-- A report goes to the neighbours on the UP ports (R375). -/
def Dev.flood (d : Dev) (r : Report) : Dev :=
  let ns := (List.range 6).filterMap fun q =>
    if (d.port (d.physPort q)).state = .up then d.neighbour d.deviceId q else none
  (ns.dedup.filter (· ≠ r.device)).foldl (fun d n => d.notice n 7 0 (reportBytes r)) d

/-- A report is kept in place of an older one of its device. -/
def Dev.keepReport (d : Dev) (r : Report) : Dev :=
  { d with lnk := { d.lnk with reports := (d.lnk.reports.filter fun x => decide (x.device ≠ r.device)) ++ [r] } }

/-- The outcome that a device reports for a logical port. -/
def Dev.reported (d : Dev) (id q : Nat) : Nat := ((d.reportOf id).map fun r => r.outcomes.getD q 0).getD 0

/-- SWAPPED outcomes that acceptance of swaps resolves: of a device SWAPPED on both ports of the axis, or toward such a device
(R374). -/
def Dev.swapResolved (d : Dev) (accept : Bool) (id q : Nat) : Bool :=
  let both := fun (i : Nat) => decide (d.reported i q = 4) && decide (d.reported i (otherPort q) = 4)
  accept && (both id || both (((d.reportOf id).map fun r => r.peers.getD q 0xFFFF).getD 0xFFFF))

/-- A reported outcome refuses formation (R373). -/
def Dev.refusing (d : Dev) (accept : Bool) (id q : Nat) : Bool :=
  let o := d.reported id q
  decide (o = 5 ∨ o = 7 ∨ o = 8) || (decide (o = 4) && !d.swapResolved accept id q)

/-- The cubes that formation cuts: those of a MISSING or VERSION peer and those of an unreported device (R375). -/
def Dev.cubesToCut (d : Dev) : List Nat :=
  (d.planDevices.flatMap fun id =>
    if (d.reportOf id).isNone then [cubeOf id]
    else (List.range 6).filterMap fun q =>
      if d.reported id q = 6 ∨ d.reported id q = 9 then (d.neighbour id q).map cubeOf else none).dedup

/-- A hop is UP by both ends' reports. -/
def Dev.reportedUp (d : Dev) (accept : Bool) (id q : Nat) : Bool :=
  outcomeUp (d.reported id q) || (decide (d.reported id q = 4) && d.swapResolved accept id q)

/-- Devices of `among` reached from those of `seen` over hops that satisfy `up`. -/
def Dev.reachable (d : Dev) (up : Nat → Nat → Bool) (among : List Nat) : Nat → List Nat → List Nat
  | 0, seen => seen
  | fuel + 1, seen =>
    let next := (seen.flatMap fun id => (List.range 6).filterMap fun q =>
      match d.neighbour id q with
      | some n => if up id q && among.contains n && !seen.contains n then some n else none
      | none => none).dedup
    if next = [] then seen else d.reachable up among fuel (seen ++ next)

/-- The devices form one part over UP hops (R375). -/
def Dev.connected (d : Dev) (accept : Bool) (ids : List Nat) : Bool :=
  match ids with
  | [] => false
  | a :: _ => (d.reachable (d.reportedUp accept) ids 512 [a]).length == ids.length

/-- A cut map as 64 bits. -/
def cubeMap (cubes : List Nat) : Nat := (cubes.dedup.map fun c => 2 ^ c).sum

/-- The cubes of a cut map. -/
def cubesOf (m : Nat) : List Nat := (List.range 64).filter fun c => bit m c

/-- VERIFY is set and the digest rotation starts anew (R392). -/
def Dev.startVerify (d : Dev) : Dev :=
  { d.setBit Off.lnkCtrl 8 with
    lnk := { d.lnk with digestNext := 0, digestIndex := 0, digests := [] } }

/-- Logical ports of this device that are UP, as a mask (R378, log entry 50). -/
def Dev.upMask (d : Dev) : Nat := ((List.range 6).map fun q =>
  if (d.port (d.physPort q)).state = .up then 2 ^ q else 0).sum

/-- The other devices of the fabric learn which ports are UP (R378, R389, log entry 50). -/
def Dev.tellPorts (d : Dev) : Dev := d.noticeAll 0xE 0 (le d.upMask 8)

/-- UP ports that face a cut cube are isolated, every UP port of a cut device too (R390). -/
def Dev.isolateCut (d : Dev) : Dev :=
  let me := d.deviceId
  (List.range 6).foldl (fun d q =>
    let p := d.physPort q
    let cut := !d.present me || match d.neighbour me q with
      | some n => !d.present n
      | none => false
    if (d.port p).state = .up ∧ cut then d.modPort p fun t => { t with state := .isolated, queue := [] } else d) d

/-- Isolated ports between present devices whose outcome allows it are UP again (R375). -/
def Dev.reopenPorts (d : Dev) : Dev :=
  let me := d.deviceId
  (List.range 6).foldl (fun d q =>
    let p := d.physPort q
    let t := d.port p
    let ok := d.present me && match d.neighbour me q with
      | some n => d.present n
      | none => false
    if t.state = .isolated ∧ outcomeUp t.plan ∧ ok then d.modPort p fun t => { t with state := .up } else d) d

/-- The bytes of a FORM notice (R376, log entry 51): T_f, N_f, the leader's time, frame length, fabric-layer version, cut map
and acceptance of swaps. -/
def formBytes (tf nf time frame flv cut : Nat) (accept : Bool) : List Byte :=
  le tf 8 ++ le nf 8 ++ le time 8 ++ le frame 4 ++ le flv 4 ++ le cut 8 ++ le (if accept then 1 else 0) 8

/-- The FORM notice takes effect: the counter advances to the leader's time, the first fabric tick is set, and the device is a
member of the fabric (R370, R375, R376, R392). -/
def Dev.applyForm (d : Dev) (leader : Nat) (l : List Byte) : Dev :=
  if d.lnk.outOfPlan then d
  else
    let cut := leAt l 0x20 8
    let d := { d with
      now := max d.now (leAt l 0x10 8)
      lnk := { d.lnk with
        formed := true
        leader := leader
        flv := leAt l 0x1C 4
        cut := cut
        swap := d.lnk.swap || decide (leAt l 0x28 1 = 1)
        formAt := some (leAt l 0 8, leAt l 8 8, leAt l 0x18 4)
        joined := d.planDevices.filter fun id => !bit cut (cubeOf id) } }
    ((d.settleSwaps.isolateCut.reopenPorts).startVerify.rebuildSync).leaveLink

/-- Formation by the leader: its counter, the first fabric tick, and the FORM notice (R376). -/
def Dev.formAs (d : Dev) (accept : Bool) (cubes : List Nat) : Dev :=
  let left := d.planDevices.filter fun id => !cubes.contains (cubeOf id)
  let rs := d.lnk.reports.filter fun r => left.contains r.device
  let now := max d.now ((rs.map (·.counter)).foldl max 0 + 100000000)
  let d := { d with now := now }
  let tf := alignUp (now + 5000000) 1000
  let nf := max d.grf.tick ((rs.map (·.tick)).foldl max 0) + 16
  let flv := (rs.map (·.flvMax)).foldl min d.flvMax
  let l := formBytes tf nf now (d.fld Off.grfFrame 27 16) flv (cubeMap cubes) accept
  ((left.filter (· ≠ d.deviceId)).foldl (fun d id => d.notice id 8 0 l) d).applyForm d.deviceId l

/-- The lowest present device with an UP port by its report (R375). -/
def Dev.leaderOf (d : Dev) (ids : List Nat) : Nat :=
  (ids.find? fun id => (List.range 6).any fun q => outcomeUp (d.reported id q)).getD (ids.headD 0xFFFF)

/-- The fabric forms by itself once the leader holds a report of every device and no outcome stands against it (R375). -/
def Dev.autoForm (d : Dev) : Dev :=
  let ids := d.planDevices
  let fine := ids.all fun id => (d.reportOf id).isSome && (List.range 6).all fun q =>
    decide (d.reported id q ≠ 6) && decide (d.reported id q ≠ 9) && decide (d.reported id q ≠ 0) && !d.refusing false id q
  if d.bring = .link ∧ !d.lnk.formed ∧ !d.lnk.outOfPlan ∧ fine ∧ d.leaderOf ids = d.deviceId then d.formAs false [] else d

/-- Once every port has its outcome, the device reports them (R375). -/
def Dev.reportPlan (d : Dev) : Dev :=
  let ts := (List.range 6).map fun q => d.port (d.physPort q)
  if d.lnk.outOfPlan || ts.any fun t => decide (t.plan = 0) then d
  else
    let r : Report :=
      { device := d.deviceId, outcomes := ts.map (·.plan), counter := d.now, tick := d.grf.tick, flvMax := d.flvMax
        peers := ts.map (·.peerId)
        remapped := ((List.range 3).map fun a => if (d.port (2 * a)).remapped then 2 ^ a else 0).sum }
    let d := (d.keepReport r).flood r
    let d := (d.lnk.reports.filter fun x => decide (x.device ≠ r.device)).foldl (fun d x => d.flood x) d
    d.autoForm

/-- PLAN_REPORT: a plan report is kept and flooded on (R375). -/
def Dev.planReport (d : Dev) (r : Report) : Dev :=
  if d.lnk.reports.contains r ∨ r.device = d.deviceId then d
  else
    let had := (List.range 6).map fun p => (d.port p).plan
    let d := ((d.keepReport r).flood r).recheckSwapped r.device
    if (List.range 6).map (fun p => (d.port p).plan) = had then d.autoForm else d.reportPlan

/-! ## Ports (R358, R363, R371-R373) -/

/-- Entry into FW: every enabled port listens (R358). -/
def Dev.portsListen (d : Dev) : Dev :=
  (List.range 6).foldl (fun d p =>
    if d.portEnabled p then d.modPort p fun t => { t with state := .listen } else d) d

/-- Entry into LINK: the plan takes effect, every enabled port trains, and a plan of one device forms at once (R372, R375). -/
def Dev.portsTrain (d : Dev) : Dev :=
  let out : Bool := !d.inPlan d.deviceId
  let d := { d with lnk := { d.lnk with outOfPlan := out } }
  let d : Dev := (List.range 6).foldl (fun d p =>
    if !d.portEnabled p then d
    else d.modPort p fun t => { t with state := if out then .isolated else .training, plan := 0, lanes := 0 }) d
  if !out && decide (d.lnk.nx * d.lnk.ny * d.lnk.nz = 1) then d.formAs false [] else d

/-- PORT_TRAINING: lane training of a port ends at 8 or 4 lanes, or fails; a trained port sends HELLO (R358, R369). -/
def Dev.portTraining (d : Dev) (serial : List Byte) (p lanes : Nat) : Dev :=
  if (d.port p).state ≠ .training then d
  else if lanes = 4 ∨ lanes = 8 then
    (d.modPort p fun t => { t with state := .check, lanes := lanes, goodAt := d.now }).sendHello serial p
  else d.modPort p fun t => { t with state := .down, lanes := 0 }

/-- PORT_RETRAIN: a DOWN port attempts training every 100 ms; where it passes, the plan check runs again (R358). -/
def Dev.portRetrain (d : Dev) (serial : List Byte) (p lanes : Nat) : Dev :=
  if (d.port p).state ≠ .down ∨ !d.portEnabled p then d
  else if lanes = 4 ∨ lanes = 8 then
    (d.modPort p fun t =>
      { t with state := .check, lanes := lanes, goodAt := d.now, retry := [], resends := 0, nak := false, dropping := false
               words := [[], [], [], []], credits := [256, 256, 256, 32], owed := [0, 0, 0, 0] }).sendHello serial p
  else d

/-- What a peer's HELLO says is kept (R369, R393). -/
def Dev.learnPeer (d : Dev) (p : Nat) (h : PeerHello) : Dev :=
  d.modPort p fun t =>
    { t with peerId := h.deviceId, peerPort := h.port, peerSerial := h.serial, peerFlvMax := h.flvMax }

/-- The plan check of a port that has trained (R370, R373, R374). -/
def Dev.checkPort (d : Dev) (p : Nat) (h : PeerHello) : Dev :=
  let o := d.planOutcome p h
  let meet := d.versionsMeet h
  let me := d.deviceId
  let faces := match d.neighbour me (d.logicalPort p) with
    | some n => d.present n
    | none => false
  let st := if outcomeUp o ∧ (!faces ∨ !d.present me) then PortState.isolated else outcomeState o
  let d := (d.modPort p fun t =>
    { t with llv := if meet then 1 else 0, flv := if meet then min d.flvMax h.flvMax else 0, state := st, rxSeq := t.rxSeq }).setOutcome p o
  let d := (d.settleSwaps).reportPlan
  if d.lnk.formed ∧ st = .up then (d.tellPorts).rebuildSync else d

/-- LINK_HELLO: before LINK it is answered; on a trained port it runs the plan check (R369-R373). -/
def Dev.linkHello (d : Dev) (serial : List Byte) (p : Nat) (h : PeerHello) : Dev :=
  match (d.port p).state with
  | .listen => (d.learnPeer p h).sendHello serial p
  | .check => (d.learnPeer p h).checkPort p h
  | .isolated => d.learnPeer p h
  | _ => d

/-- PLAN_CHECK_TIMEOUT: no training within 20 ms of LINK entry makes a port UNUSED or MISSING (R373). -/
def Dev.planCheckTimeout (d : Dev) (p : Nat) : Dev :=
  let t := d.port p
  if t.plan ≠ 0 ∨ !(decide (t.state = .training) || decide (t.state = .down)) then d
  else
    let d := if d.bring = .link then { d with now := max d.now (d.since + 20000000) } else d
    let o := if d.neighbour d.deviceId (d.logicalPort p) = none then 2 else 6
    ((d.modPort p fun t => { t with state := outcomeState o }).setOutcome p o).reportPlan

/-- A port stops carrying traffic: what it held is sent again over other routes (R363, R366). -/
def Port.stopped (t : Port) : Port :=
  { t with state := .down, queue := [], retry := [], words := [[], [], [], []], resends := 0, nak := false, dropping := false }

/-- LINK_FAILURE: the port goes DOWN, or in fabric version 2 retrains on the half of its lanes that passes (R363, R379,
R387). `half` is 0 where neither half passes. -/
def Dev.linkFailure (d : Dev) (p half : Nat) : Dev :=
  let st := (d.port p).state
  if !(decide (st = .up) || decide (st = .check) || decide (st = .isolated)) then d
  else
    let old := d
    let d := (d.bump (Off.lnkPortFailures + 0x40 * p)).flagEvent Off.lnkStatus 5 { arg0 := p }
    if d.lnk.flv = 2 ∧ half ≠ 0 ∧ st = .up then
      ((d.modPort p fun t => { t with lanes := 4, resends := 0, goodAt := d.now }).setOutcome p 3).reportPlan
    else
      let d := d.modPort p Port.stopped
      if d.lnk.formed ∧ st = .up then (((d.tellPorts).replayMoved old).rebuildSync).abortUnroutable else d

/-! ## Cuts and rejoining (R375, R390) -/

/-- The time of a tick to come, with the frame length in force at each tick before it (R284). -/
def Dev.tickAt (d : Dev) (n : Nat) : Nat :=
  (List.range (n - d.grf.tick)).foldl (fun t i =>
    t + 1000 * (if d.grf.frameAt ≠ 0 ∧ d.grf.frameAt ≤ d.grf.tick + i then d.grf.frameNext else d.fld Off.grfFrame 27 16))
    d.grf.tickTime

/-- The cubes that a cut takes: those asked for, and every cube left unconnected to the leader's part (R390). -/
def Dev.cutClosure (d : Dev) (cubes : List Nat) : List Nat :=
  let d' := { d with lnk := { d.lnk with cut := cubeMap (cubesOf d.lnk.cut ++ cubes) } }
  let left := d'.planDevices.filter d'.present
  let root := if left.contains d.lnk.leader then [d.lnk.leader] else left.take 1
  let kept := d'.reachable d'.hopUsable left 512 root
  (cubes ++ ((left.filter fun id => !kept.contains id).map cubeOf)).dedup

/-- A cut or a rejoining is set for a tick on every device (R389, R390). -/
def Dev.announce (d : Dev) (join : Bool) (tick : Nat) (cubes : List Nat) : Dev :=
  let d := d.noticeAll 9 (if join then 1 else 0) (le tick 8 ++ le (cubeMap cubes) 8)
  let due := cubes.map fun c => (tick, c)
  if join then { d with lnk := { d.lnk with joinDue := d.lnk.joinDue ++ due } }
  else { d with lnk := { d.lnk with cutDue := d.lnk.cutDue ++ due } }

/-- FABRIC_CUT (R390). It takes effect at tick N + 2, N the first tick after the decision. -/
def Dev.fabricCut (d : Dev) (cx cy cz : Nat) : Answer :=
  let c := cx + 4 * cy + 16 * cz
  let known := decide (cx < 4) && decide (cy < 4) && decide (cz < 4) && d.planDevices.any fun id => decide (cubeOf id = c)
  if !known ∨ d.cubeCut c then d.no 0x0A03
  else
    let cs := d.cutClosure [c]
    let left := d.planDevices.filter fun id => d.present id && !cs.contains (cubeOf id)
    if left = [] ∨ cs.contains (cubeOf d.deviceId) then d.no 0x0A04
    else (d.announce false (d.grf.tick + 3) cs).yes (d.tickAt (d.grf.tick + 3))

/-- DEVICE_SILENT_CUT: the leader cuts the cube of a device that stops answering (R390). -/
def Dev.deviceSilentCut (d : Dev) (id : Nat) : Dev :=
  if !d.lnk.formed ∨ d.lnk.leader ≠ d.deviceId ∨ id = d.deviceId ∨ !d.present id then d
  else d.announce false (d.grf.tick + 3) (d.cutClosure [cubeOf id])

/-- Cubes are cut at their tick (R390). -/
def Dev.applyCut (d : Dev) (cubes : List Nat) : Dev :=
  let old := d
  let cubes := cubes.filter fun c => !d.cubeCut c
  if cubes = [] then d
  else
    let d := cubes.foldl (fun d c => d.event 0x1381 { arg0 := c, arg1 := 1 }) d
    let d := { d with lnk := { d.lnk with cut := cubeMap (cubesOf d.lnk.cut ++ cubes) } }
    let joined := d.lnk.joined.filter d.present
    let leader := if joined.contains d.lnk.leader then d.lnk.leader else joined.headD d.lnk.leader
    let d := { d with lnk := { d.lnk with joined := joined, leader := leader } }
    ((((d.isolateCut).rebuildSync).startVerify.dropLost).abortLost).replayMoved old

/-- Cubes rejoin at their tick (R375, R390). -/
def Dev.applyJoin (d : Dev) (cubes : List Nat) : Dev :=
  let cubes := cubes.filter fun c => d.cubeCut c
  if cubes = [] then d
  else
    let d := cubes.foldl (fun d c => d.event 0x1381 { arg0 := c }) d
    let d := { d with lnk := { d.lnk with cut := cubeMap ((cubesOf d.lnk.cut).filter fun c => !cubes.contains c) } }
    let d := { d with lnk := { d.lnk with joined := d.planDevices.filter d.present } }
    (d.reopenPorts.rebuildSync).startVerify

/-- The cuts and rejoinings due at a tick (R390). -/
def Dev.applyCuts (d : Dev) : Dev :=
  let due := fun (x : Nat × Nat) => decide (x.1 ≤ d.grf.tick)
  let cs := (d.lnk.cutDue.filter due).map (·.2)
  let js := (d.lnk.joinDue.filter due).map (·.2)
  (({ d with lnk := { d.lnk with
      cutDue := d.lnk.cutDue.filter fun x => !due x
      joinDue := d.lnk.joinDue.filter fun x => !due x } }).applyCut cs).applyJoin js

/-- Cut cubes whose devices all report OK or DEGRADED (or UNUSED) rejoin, at a tick at least 5 ms ahead (R375, R376). -/
def Dev.rejoin (d : Dev) : Answer :=
  let cubes := (cubesOf d.lnk.cut).filter fun c =>
    (d.planDevices.filter fun id => decide (cubeOf id = c)).all fun id =>
      (d.reportOf id).isSome && (List.range 6).all fun q => decide (1 ≤ d.reported id q) && decide (d.reported id q ≤ 3)
  let ids := d.planDevices.filter fun id => cubes.contains (cubeOf id)
  if ids = [] then d.yes
  else
    let frame := d.fld Off.grfFrame 27 16
    let k := (d.now + 5000000 - d.grf.tickTime + 1000 * frame - 1) / (1000 * frame)
    let n := d.grf.tick + k
    let cut := cubeMap ((cubesOf d.lnk.cut).filter fun c => !cubes.contains c)
    let l := formBytes (d.tickAt n) n d.now frame d.lnk.flv cut false
    let d := d.announce true n cubes
    (ids.foldl (fun d id => d.notice id 8 0 l) d).yes ids.length

/-- FABRIC_FORM by the reports that this device holds (R375): its answer, with the fabric formed here where this device leads,
or the leader asked to form it. -/
def Dev.fabricForm (d : Dev) (accept : Bool) : Answer :=
  let bad := d.planDevices.find? fun id => (List.range 6).any fun q => d.refusing accept id q
  let cubes := d.cubesToCut
  let left := d.planDevices.filter fun id => !cubes.contains (cubeOf id)
  match bad with
  | some id => d.noAt 0x0A01 id
  | none =>
    if d.lnk.formed then d.rejoin
    else if !d.connected accept left then d.no 0x0A02
    else if d.leaderOf left = d.deviceId then (d.formAs accept cubes).yes left.length
    else (d.notice (d.leaderOf left) 0xF (if accept then 1 else 0) []).yes left.length

/-! ## Time (R377) -/

/-- SYNC_EXCHANGE: on the port toward the parent, the offset is half the difference of the two one-way times, and the counter
slews toward the parent by at most 5 ns in the 100 µs; it never moves backward (R377). -/
def Dev.syncExchange (d : Dev) (p t1 t2 t3 t4 : Nat) : Dev :=
  let st := (d.port p).state
  if !(decide (st = .up) || decide (st = .isolated)) then d
  else
    let d := (d.sendControl p [le d.now 8 ++ le t4 8 ++ List.replicate 16 0]).modPort p fun t => { t with goodAt := d.now }
    if st ≠ .up ∨ d.logicalPort p ≠ d.lnk.parent then d
    else
      let off : Int := ((t2 : Int) - t1 - ((t4 : Int) - t3)) / 2
      let now := d.now + (min off 5).toNat
      let bad := decide (2 < off.natAbs)
      let since := if bad then some (d.lnk.offBad.getD d.now) else none
      let d := { d with now := now, lnk := { d.lnk with offset := off, offBad := since } }
      if bad && decide ((since.getD now) + 1000000 ≤ now) && !d.bitAt Off.lnkStatus 10 then
        d.flagEvent Off.lnkStatus 10 { arg0 := p, arg1 := off.natAbs }
      else d

/-! ## Replica digests (R391, R392) -/

/-- The replica class of a device (R372). -/
def Dev.replicaClass (d : Dev) (id : Nat) : Nat := d.lnk.classes.getD (d.planDevices.findIdx (· == id)) 0

/-- A DIGEST_SPLIT found by the leader (R392). -/
def Dev.digestSplit (d : Dev) : Dev := d.flagEvent Off.lnkStatus 8

/-- A device is expelled (R392). The expelled device takes part in no collective from then on. -/
def Dev.expelDevice (d : Dev) (id : Nat) : Dev :=
  let d := { d with lnk := { d.lnk with expelledSet := (d.lnk.expelledSet ++ [id]).dedup } }
  let d := if id = d.deviceId ∧ !d.lnk.expelled then
      { d with lnk := { d.lnk with expelled := true } }.signature (bitCode Off.lnkStatus 9) { arg0 := id }
        { severity := 0, source := 10, outcome := 5 }
    else d
  d.abortLost

/-- EXPEL: the notice expels a device, or reports a split where its argument is 1 (R389, R392, log entry 51). -/
def Dev.expelNotice (d : Dev) (p : Packet) : Dev :=
  if p.channel ≠ 4 ∨ p.type ≠ 0xD then d
  else if p.tag = 1 then d.digestSplit
  else d.expelDevice (leAt p.payload 0 2)

/-- The leader's verdict on the reports of one edition, slice and class (R392). -/
def Dev.verdict (d : Dev) (rs : List DigestRep) : Dev :=
  let crcs := rs.map (·.crc)
  let major := crcs.find? fun c => decide (crcs.length < 2 * crcs.count c)
  let split := fun (d : Dev) => rs.foldl (fun d r =>
    if r.device = d.deviceId then d.digestSplit else d.notice r.device 0xD 1 []) d
  if crcs.dedup.length ≤ 1 then d
  else if rs.length = 2 then split d
  else
    match major with
    | none => split d
    | some c => (rs.filter fun r => decide (r.crc ≠ c)).foldl (fun d r =>
        (d.noticeAll 0xD 0 (le r.device 8)).expelDevice r.device) d

/-- DIGEST_REPORT: the leader compares the slices of one edition and index once every member of the replica class that is in the
fabric has reported (R392). -/
def Dev.digestReport (d : Dev) (r : DigestRep) : Dev :=
  let k := d.replicaClass r.device
  if d.lnk.leader ≠ d.deviceId ∨ !d.lnk.formed ∨ k = 0 ∨ !d.lnk.joined.contains r.device then d
  else
    let same := fun (x : DigestRep) => decide (x.edition = r.edition) && decide (x.slice = r.slice) &&
      decide (d.replicaClass x.device = k)
    let all := (d.lnk.digests.filter fun x => !(same x && decide (x.device = r.device))) ++ [r]
    let rs := all.filter same
    let wanted := d.lnk.joined.filter fun id => decide (d.replicaClass id = k) && !d.lnk.expelledSet.contains id
    if (wanted.all fun id => rs.any fun x => decide (x.device = id)) then
      { d with lnk := { d.lnk with digests := all.filter fun x => !same x } }.verdict rs
    else { d with lnk := { d.lnk with digests := all } }

/-- One tile digest recomputed; a difference from the edition record is handled as a damaged master copy (R392, R402). -/
def Dev.digestTile (d : Dev) (l : Nat) : Nat × Dev :=
  match d.log l with
  | none => (0, d)
  | some t =>
    match Dev.masterChk (d.masterDigest { cls := 3 } t) t with
    | (.ok g, d) =>
      if g = t.digest then (g, d)
      else
        let (o, d) := d.drawNat
        let d := d.signature 0x0C80 { arg0 := l, status := 0x0601 }
          { severity := 0, source := 9, outcome := o % 256, status := 0, tile := l, edition := t.edition }
        (g, d.modLog l fun t => { t with due := t.due ++ [.damaged] })
    | (_, d) => (0, d)

/-- The next `n` tiles of a rotation that wraps at the last. -/
def rotation (ts : List Nat) (start n : Nat) : List Nat :=
  if ts = [] then [] else (List.range n).map fun i => ts.getD ((start + i) % ts.length) 0

/-- DIGEST_SLICE: every DIGEST_FRAMES frames, the digests of the next 64 tiles of the current edition go to the leader; VERIFY is
cleared after a full rotation (R392, log entry 56). -/
def Dev.digestSlice (d : Dev) : Dev :=
  let frames := max 1 (d.fld Off.lnkDigestFrames 15 0)
  if !d.bitAt Off.lnkCtrl 8 ∨ !d.isFormed ∨ d.grf.tick % frames ≠ 0 ∨ (d.lnk.digestTick = d.grf.tick ∧ d.grf.tick ≠ 0) then d
  else
    let ts := d.editionTiles d.srv.current
    let slice := d.lnk.digestIndex
    let run := (rotation ts (64 * slice) 64).foldl (fun (x : List Byte × Dev) l =>
      let (g, d) := x.2.digestTile l
      (x.1 ++ le g 8, d)) ([], d)
    let d := run.2
    let next := d.lnk.digestNext + 64
    let d := { d with lnk := { d.lnk with digestTick := d.grf.tick, digestIndex := slice + 1, digestNext := next } }
    let d := if ts.length ≤ next then d.setFld Off.lnkCtrl 8 8 0 else d
    let r : DigestRep := { device := d.deviceId, edition := d.srv.current, slice := slice, crc := crc64 run.1 }
    if ts = [] then d
    else if d.lnk.leader = d.deviceId then d.digestReport r
    else d.notice d.lnk.leader 0xC 0 (le r.device 4 ++ le r.edition 4 ++ le r.slice 8 ++ le r.crc 8)

/-! ## Bramble's notices (R389) -/

/-- A notice of Bramble that comes before the fabric has formed or while the device waits for it (R371). -/
def isFormation (p : Packet) : Bool :=
  decide (p.channel = 4) && (decide (p.type = 1) || decide (7 ≤ p.type))

/-- A pause tick is named here (R429). -/
def Dev.setPause (d : Dev) (p who : Nat) : Dev := { d with grf := { d.grf with pauseAt := some p, pauser := who } }

/-- The leader names a pause tick P = N + 4 to every device, N the first tick after the request; while one is named, a request
waits for the next pause (R429, R431, log entry 51). -/
def Dev.namePause (d : Dev) (who : Nat) : Dev :=
  if d.grf.pauseAt.isSome then { d with grf := { d.grf with pauseWait := d.grf.pauseWait ++ [who] } }
  else (d.noticeAll 0xA 1 (le (d.grf.tick + 5) 8 ++ le who 8)).setPause (d.grf.tick + 5) who

/-- A service pause is asked for: of the leader in a formed fabric, else at the next tick (R429). -/
def Dev.askPause (d : Dev) : Dev :=
  if d.lnk.formed && !d.lnk.outOfPlan then
    if d.lnk.leader = d.deviceId then d.namePause d.deviceId else d.notice d.lnk.leader 0xA 0 []
  else d.setPause (d.grf.tick + 1) d.deviceId

/-- The leader names the resume timestamp, 1 ms after the swap ends (R429). -/
def Dev.nameResume (d : Dev) : Dev :=
  let t := d.now + 1000000
  { d.noticeAll 0xA 3 (le t 8) with grf := { (d.noticeAll 0xA 3 (le t 8)).grf with resumeAt := t } }

/-- A notice of a service pause: a request, a pause tick, the end of a swap, or a resume timestamp (R429, log entry 51). -/
def Dev.pauseNotice (d : Dev) (p : Packet) : Dev :=
  match p.tag with
  | 0 => d.namePause p.src
  | 1 => d.setPause (leAt p.payload 0 8) (leAt p.payload 8 8)
  | 2 => d.nameResume
  | _ => { d with grf := { d.grf with resumeAt := leAt p.payload 0 8 } }

/-- Bramble's notices take effect (R375, R376, R389, R390, R392, R429). -/
def Dev.formation (d : Dev) (p : Packet) : Dev :=
  let l := p.payload
  match p.type with
  | 7 => d.planReport (parseReport l)
  | 8 => d.applyForm p.src l
  | 9 =>
    let due := (cubesOf (leAt l 8 8)).map fun c => (leAt l 0 8, c)
    if p.tag = 1 then { d with lnk := { d.lnk with joinDue := d.lnk.joinDue ++ due } }
    else { d with lnk := { d.lnk with cutDue := d.lnk.cutDue ++ due } }
  | 0xA => d.pauseNotice p
  | 0xC => d.digestReport { device := leAt l 0 4, edition := leAt l 4 4, slice := leAt l 8 8, crc := leAt l 0x10 8 }
  | 0xD => d.expelNotice p
  | 0xE =>
    let old := d
    let d := { d with lnk := { d.lnk with portMasks := put d.lnk.portMasks p.src (leAt l 0 8) } }
    if d.lnk.formed then ((d.replayMoved old).rebuildSync).abortUnroutable else d
  | 0xF => (d.fabricForm (decide (p.tag = 1))).dev
  | _ => d.deliverData p

/-- A packet is delivered to the part of the device it is for. -/
def Dev.deliver (d : Dev) (p : Packet) : Dev := if isFormation p then d.formation p else d.deliverData p

/-- FORM: a FORM notice (R376). -/
def Dev.formNotice (d : Dev) (p : Packet) : Dev := if p.channel = 4 ∧ p.type = 8 then d.applyForm p.src p.payload else d

/-! ## Packets received (R365, R366, R378) -/

/-- The header keeps R365. -/
def headerOk (p : Packet) : Bool :=
  inRange p.channel 1 4 && decide (p.type < 32) && decide (p.space < 16) && decide (p.payload.length ≤ 4096) &&
  decide (p.payload.length % 32 = 0)

/-- A packet for another device is relayed, a BULK packet as DMA engine 0, or discarded where its route ends (R365, R367,
R378). -/
def Dev.relayOn (d : Dev) (p : Packet) : Dev :=
  let p := { p with hops := p.hops + 1, engine := 0 }
  if 32 ≤ p.hops then d.bumpWrap Off.lnkHopDrops
  else if (d.route p.dst).isSome then d.transmit p
  else d.sendLost p (d.lostStatus p.dst)

/-- A formation notice while the device answers early requests: one that stands behind buffered requests takes effect at once,
and is delivered again, without effect, in its turn (R268, R371). -/
def Dev.earlyFormation (d : Dev) (p : Packet) : Dev :=
  let n := pairVal d.lnk.recvNext p.src p.channel
  let d := if p.seq = n ∨ p.type = 1 then d else d.formation p
  d.receiveWith Dev.deliver p

/-- PACKET_RECEIVE: a packet is delivered once and in order, relayed onward, buffered before DIGITAL, or discarded (R268, R365,
R366, R371, R378). -/
def Dev.packetReceive (d : Dev) (p : Packet) : Dev :=
  if d.bring = .rom ∨ d.bring = .recovery then d
  else if !headerOk p then d.bumpWrap Off.lnkBadPackets
  else if p.dst ≠ d.deviceId then d.relayOn p
  else if d.isEarly then (if isFormation p then d.earlyFormation p else d.earlyRequest p)
  else d.receiveWith Dev.deliver p

/-- EARLY_LINK_REQUEST: a higher-layer packet before DIGITAL (R268). -/
def Dev.earlyLinkRequest (d : Dev) (port : Nat) (p : Packet) : Dev :=
  if !d.isEarly ∨ isFormation p ∨ p.dst ≠ d.deviceId ∨ !headerOk p ∨ (d.port port).state = .off then d else d.earlyRequest p

/-! ## Flits received (R359-R362, R364) -/

/-- A code word after correction: its data, and the symbols corrected; none where it is uncorrectable (R362). -/
def flitWord (v : List Byte) (n : Nat) : Option (List Byte × Nat) :=
  match rsDecode v with
  | .good => some (v.take n, 0)
  | .corrected _ v => some (v.take n, 1)
  | .bad => none

/-- A bad flit: it is discarded, and a NAK is due (R362). -/
def Dev.badFlit (d : Dev) (p : Nat) : Dev :=
  let d := if (d.port p).nak then d else d.bumpWrap (Off.lnkPortNaks + 0x40 * p)
  d.modPort p fun t => { t with nak := true, dropping := true }

/-- What a header acknowledges, asks to be sent again and gives back (R360, R362, R364). -/
def Port.heard (t : Port) (nak : Bool) (creditCh credits ack : Nat) : Port :=
  let left := t.retry.filter fun f => !decide ((ack + 2 ^ 16 - f.1) % 2 ^ 16 < 2 ^ 15)
  { t with
    retry := left
    resends := if left.length < t.retry.length then 0 else if nak && decide (left ≠ []) then t.resends + 1 else t.resends
    resent := if nak then t.resent + left.length else t.resent
    credits := if creditCh = 0 then t.credits
      else upd t.credits (creditCh - 1) fun c => min (c + credits) ([256, 256, 256, 32].getD (creditCh - 1) 0) }

/-- Whole packets of a channel's words, in order; what is left waits for more words (R360). -/
def takePackets : Nat → List (List Byte) → List Packet × List (List Byte)
  | 0, ws => ([], ws)
  | fuel + 1, ws =>
    match ws with
    | [] => ([], [])
    | h :: _ =>
      let n := leAt h 6 1 + 1
      if ws.length < n then ([], ws)
      else
        let r := takePackets fuel (ws.drop n)
        (parsePacket (ws.take n) :: r.1, r.2)

/-- The words of a good DATA flit, whose buffer is free once they are taken (R360, R364, R365). -/
def Dev.dataWords (d : Dev) (p channel : Nat) (continues : Bool) (ws : List (List Byte)) : Dev :=
  let had := if continues then (d.port p).words.getD (channel - 1) [] else []
  let r := takePackets 8 (had ++ ws)
  let d := d.modPort p fun t => { t with words := upd t.words (channel - 1) fun _ => r.2, owed := upd t.owed (channel - 1) (· + 1) }
  r.1.foldl (fun d k => d.packetReceive k) (d.bump64 (Off.lnkPortRxLo + 0x40 * p))

/-- FLIT_RECEIVE: a flit is corrected and checked; a good one acknowledges, gives back credits and delivers its words, a bad one
is discarded and NAKed (R359-R362, R364). -/
def Dev.flitReceive (d : Dev) (serial : List Byte) (p : Nat) (l : List Byte) : Dev :=
  let st := (d.port p).state
  if l.length ≠ 256 ∨ st = .off ∨ st = .down ∨ st = .training then d
  else
    match flitWord (l.take 11) 8 with
    | none => d.badFlit p
    | some (h, c0) =>
      let f := ofLe h
      let kind := bits f 63 60
      let ch := bits f 59 57
      let n := bits f 56 54
      let seq := bits f 23 8
      let ws := (List.range n).map fun i => flitWord ((l.drop (11 + 35 * i)).take 35) 32
      let d := d.bumpWrap (Off.lnkPortCorrected + 0x40 * p) (c0 + (ws.map fun w => (w.map (·.2)).getD 0).sum)
      let t := d.port p
      let want := if kind = 0 then t.rxSeq else (t.rxSeq + 1) % 2 ^ 16
      if ws.any Option.isNone ∨ 2 < kind then d.badFlit p
      else if seq ≠ want then (if t.dropping then d else d.badFlit p)
      else
        let d := d.modPort p fun t =>
          ({ t with dropping := false, goodAt := d.now, rxSeq := seq }).heard (bit f 51) (bits f 50 48) (bits f 47 40)
            (bits f 39 24)
        let d := d.pumpPort p
        let words := ws.filterMap fun w => w.map (·.1)
        match kind with
        | 1 => if st = .up ∧ inRange ch 1 4 then d.dataWords p ch (bit f 53) words else d
        | 2 => if n = 2 ∧ leAt (words.headD []) 0 4 = 0x4C485753 then d.linkHello serial p (parseHello words.flatten) else d
        | _ => d

/-! ## LNK_PEER_SELECT (R393) -/

/-- LNK_PEER_SELECT: a snapshot of the peer's serial number; 6 and 7 make it read 0 (R393). -/
def Dev.lnkPeerSelect (d : Dev) (v : Nat) : Dev :=
  let n := v % 8
  let l := if n < 6 then (d.port n).peerSerial else []
  (List.range 4).foldl (fun d i => d.setReg (Off.lnkPeerSerial + 4 * i) (leAt l (4 * i) 4)) (d.setFld Off.lnkPeerSelect 2 0 n)

/-! ## Meanings -/

/-- PORT_TRAINING (R358). -/
def execPortTraining (port lanes : Nat) (s : State) : Host.Outcome State Fault Refusal :=
  lift (·.portTraining s.flash.serial port lanes) s
/-- PORT_RETRAIN (R358). -/
def execPortRetrain (port lanes : Nat) (s : State) : Host.Outcome State Fault Refusal :=
  lift (·.portRetrain s.flash.serial port lanes) s
/-- LINK_HELLO (R369). -/
def execLinkHello (port : Nat) (h : PeerHello) (s : State) : Host.Outcome State Fault Refusal :=
  lift (·.linkHello s.flash.serial port h) s
/-- PLAN_CHECK_TIMEOUT (R373). -/
def execPlanCheckTimeout (port : Nat) (s : State) : Host.Outcome State Fault Refusal := lift (·.planCheckTimeout port) s
/-- PLAN_REPORT (R375). -/
def execPlanReport (r : Report) (s : State) : Host.Outcome State Fault Refusal := lift (·.planReport r) s
/-- FORM (R376). -/
def execForm (p : Packet) (s : State) : Host.Outcome State Fault Refusal := lift (·.formNotice p) s
/-- FLIT_RECEIVE (R362). -/
def execFlitReceive (port : Nat) (bytes : List Byte) (s : State) : Host.Outcome State Fault Refusal :=
  lift (·.flitReceive s.flash.serial port bytes) s
/-- LINK_FAILURE (R363). -/
def execLinkFailure (port half : Nat) (s : State) : Host.Outcome State Fault Refusal := lift (·.linkFailure port half) s
/-- PACKET_RECEIVE (R366). -/
def execPacketReceive (p : Packet) (s : State) : Host.Outcome State Fault Refusal := lift (·.packetReceive p) s
/-- SYNC_EXCHANGE (R377). -/
def execSyncExchange (port t1 t2 t3 t4 : Nat) (s : State) : Host.Outcome State Fault Refusal :=
  lift (·.syncExchange port t1 t2 t3 t4) s
/-- DEVICE_SILENT_CUT (R390). -/
def execDeviceSilentCut (device : Nat) (s : State) : Host.Outcome State Fault Refusal := lift (·.deviceSilentCut device) s
/-- DIGEST_SLICE (R392). -/
def execDigestSlice (s : State) : Host.Outcome State Fault Refusal := lift Dev.digestSlice s
/-- DIGEST_REPORT (R392). -/
def execDigestReport (r : DigestRep) (s : State) : Host.Outcome State Fault Refusal := lift (·.digestReport r) s
/-- EXPEL (R392). -/
def execExpel (p : Packet) (s : State) : Host.Outcome State Fault Refusal := lift (·.expelNotice p) s
/-- LNK_PEER_SELECT (R393). -/
def execLnkPeerSelect (v : Word) (s : State) : Host.Outcome State Fault Refusal := hostWrite (·.lnkPeerSelect v.toNat) s
/-- EARLY_LINK_REQUEST (R268). -/
def execEarlyLinkRequest (port : Nat) (p : Packet) (s : State) : Host.Outcome State Fault Refusal :=
  lift (·.earlyLinkRequest port p) s
/-- FABRIC_FORM (R375). -/
def execFabricForm (h : CmdHdr) (acceptSwap : Bool) (s : State) : Host.Outcome State Fault Refusal :=
  lift (·.command h 0x0040 fun h d => (d.fabricForm acceptSwap).finish h) s
/-- FABRIC_CUT (R390). -/
def execFabricCut (h : CmdHdr) (cx cy cz : Nat) (s : State) : Host.Outcome State Fault Refusal :=
  lift (·.command h 0x0041 fun h d => (d.fabricCut cx cy cz).finish h) s

end Sys2Proof.Machine
end

