-- ==== Sys2Proof/Machine/Reset.lean ====
section
/-! DEFINITION. Resets, power and the shut-down latch: what a warm reset and a power cycle keep (R177, R262, R349, R350,
R408, R431, R461, R476-R480). -/

namespace Sys2Proof.Machine

/-! ## The plane after a reset (R175, R177, R349, R350) -/

/-- The tiles of rounds in progress, each with the program task that owns it. -/
def Dev.inRounds (d : Dev) : List ((Nat × Nat) × Nat × Nat) := d.pln.rounds.flatMap fun r => r.tiles.zip r.owner

/-- The tiles of host programs that a reset cuts short: they have no edition record yet (R343). -/
def Dev.cutPrograms (d : Dev) : List (Nat × Nat) :=
  (d.inRounds.filter fun x => decide (x.2.1 < 16)).map (·.1)

/-- The device's own programs that a reset cuts short, and those not begun; one whose tile still serves another logical
tile is given up (R98, R103, R353). -/
def Dev.ownPrograms (d : Dev) : List (Nat × Nat) :=
  let cut := (d.inRounds.filter fun x => decide (x.2.1 = 16)).map (·.1)
  let todo := (d.pln.prog.filter fun p => decide (p.slot = 16)).flatMap (·.todo)
  (cut ++ todo).filter fun x => decide ((d.phys x.2).logical = some x.1)

/-- A physical tile after a reset: its pass is abandoned. One whose host program was cut short is FREE, and one whose own
program was is programmed again. -/
def physAfter (freed again : List Nat) (x : Nat × PhysTile) : Nat × PhysTile :=
  let t : PhysTile := { x.2 with passDue := 0, attempts := 0, candidate := {}, waiting := false, warmTrack := false }
  (x.1,
    if freed.contains x.1 then
      { t with state := .free, logical := none, levels := [], grade := 0 }
    else if again.contains x.1 && decide (t.state = .programming) then { t with state := .free }
    else t)

/-- A logical tile after a reset: its record stands, and what Damson alone kept of it starts anew. -/
def Dev.logAfter (d : Dev) (own : List (Nat × Nat)) (cold : Bool) (x : Nat × LogTile) : Nat × LogTile :=
  let t := x.2
  let phys : Option Nat := match t.phys with
    | some p => if (d.phys p).state = .retired then none else some p
    | none => none
  let spare : Option Nat := match t.spare with
    | some q => if own.contains (x.1, q) || decide ((d.phys q).state = .uncalibrated ∨ (d.phys q).state = .ready ∨
        (d.phys q).state = .suspect) && decide ((d.phys q).logical = some x.1) then some q else none
    | none => none
  (x.1, { t with
    due := [], held := [], uses := 0, mirrored := false, epoch := 0, phys := phys, spare := spare
    state := if phys = none then .digital else t.state
    masterAbsent := t.masterAbsent || cold })

/-- The plane after a reset: levels, records, wear and retirements are kept (R349, R350); a spare or a promoted tile that
waits in calibration is calibrated anew (R98). -/
def Dev.plnAfter (d : Dev) (cold : Bool) : Pln :=
  let cut := d.cutPrograms
  let own := d.ownPrograms
  let logical := (d.pln.logical.filter fun x => !(cut.map (·.1)).contains x.1).map (d.logAfter own cold)
  let spares := (logical.filterMap fun x => x.2.spare).filter fun q => !(own.map (·.2)).contains q
  let phys := (d.pln.phys.map (physAfter (cut.map (·.2)) (own.map (·.2)))).map fun (x : Nat × PhysTile) =>
    if spares.contains x.1 then (x.1, { x.2 with state := .uncalibrated, passDue := 2, grade := 0 })
    else if cold then (x.1, { x.2 with programmedAt := 0, passedAt := 0, fineAt := 0 })
    else x
  { phys := phys
    logical := logical
    prog := own.map fun x => { slot := 16, todo := [x], clipReg := 0xFC84 } }

/-! ## The whole device after a reset -/

/-- Registers that a reset keeps, in part: their offsets and the bits kept (R98, R178, R368, R433, R461). -/
def keptRegs (cold : Bool) : List (Nat × Nat) :=
  [(Off.plnSpares, 0xFFFFFFFF), (Off.lnkFabric, 0xFFFF), (Off.thmLastShutdown, 0xFFFFFFFF)] ++
  if cold then []
  else [(Off.calCount, 0xFFFFFFFF), (Off.calLastLo, 0xFFFFFFFF), (Off.calLastHi, 0xFFFFFFFF), (Off.hubFwStatus, 0x10)]

/-- The near store holds a physical address. -/
def inNear (pa : Nat) : Bool := memKind pa == some .near0 || memKind pa == some .near1

/-- The device after a reset. A warm reset keeps memory, the recorder and the fabric counter; a power cycle loses them, but
for the near store, whose outlier tables stand until a tile is programmed again (R17, R26, R114, R349, R350, R408; log entry
103). -/
def Dev.afterReset (d : Dev) (cold : Bool) : Dev :=
  let pln := d.plnAfter cold
  let evr : Evr := { boot := d.evr.boot, cperIds := d.evr.cperIds }
  let now := if cold then 0 else d.now
  let base : Dev :=
    { now := now
      fresh := d.fresh
      since := now
      mem := if cold then d.mem.filter fun c => inNear c.1 else d.mem
      upsets := if cold then d.upsets.filter fun u => inNear (32 * u.1) else d.upsets
      host := d.host
      pln := pln
      mmu := { seq := if cold then 0 else d.mmu.seq
               alloc := if cold then [] else pln.masterPages.foldl (fun l a => put l a 4096) []
               freeing := if cold then [] else pln.masterPages.map fun a => (0, a, 4096) }
      mbx := { recoveryDue := d.mbx.recoveryDue }
      lnk := { linkFw := d.lnk.linkFw }
      evr := if cold then evr else { evr with records := d.evr.records, nextSeq := d.evr.nextSeq, queue := d.evr.queue,
                                              recent := d.evr.recent, detections := d.evr.detections }
      env := d.env }
  let kept := (keptRegs cold).foldl (fun (x : Dev) k =>
    x.setReg k.1 ((d.reg k.1 &&& k.2) ||| ((resetOf k.1).toNat &&& (0xFFFFFFFF - k.2)))) base
  kept.uncalibrate (!cold)

/-- A warm reset may land in the write of the newest event record, which takes less than 1 µs: that record is then cleared,
and its SEQUENCE is not used again (R411, R412). Whether it does is a free value (log entry 3). -/
def Dev.tornRecord (d : Dev) : Dev :=
  match d.evr.records.getLast? with
  | none => d
  | some e =>
    if e.ts ≤ d.now ∧ d.now < e.ts + 1000 then
      let (n, d) := d.drawNat
      if n % 2 = 0 then d else { d with evr := { d.evr with records := d.evr.records.dropLast } }
    else d

/-- Power or a reset input may cut a persistent configuration write short, where it comes before time has passed since the
command was taken: before the counter is raised or after it, with no marker, or in the marker's own write, with its first
bytes only. Where it does is a free value (R265, R269, R479; log entries 3 and 92). -/
def State.cutWrite (s : State) : State :=
  if s.flash.writeAt ≠ some s.dev.now then s
  else
    let (n, d) := s.dev.drawNat
    let f := s.flash
    let erased : List Byte := List.replicate 64 0xFF
    let f : Flash := match n % 4 with
      | 0 => { f with marker := erased, counters := upd f.counters 0 fun _ => f.before }
      | 1 => { f with marker := erased }
      | 2 => { f with marker := (f.marker.take (1 + n / 4 % 63) ++ erased).take 64 }
      | _ => f
    { s with dev := d, flash := { f with writeAt := none } }

/-- The copy of a selector whose write was cut short is invalid, and the other copy is in force (R421). -/
def FwComp.torn (c : FwComp) : FwComp :=
  { c with
    activeB := c.other.activeB, isPending := c.other.isPending, attempts := c.other.attempts, selSeq := c.other.seq
    confirmed := !c.other.isPending, selAt := none }

/-- Power loss or a reset may cut a write of firmware short, where no time has passed since it: of a selector, whose previous
copy then stays in force, or of a slot, which is then invalid. Whether it does is a free value (R421, R431; log entries 3 and
92). -/
def State.cutFirmware (s : State) : State :=
  let now := s.dev.now
  let s := (List.range s.fw.comps.length).foldl (fun (s : State) i =>
    if ((s.fw.comps.getD i {}).selAt) ≠ some now then s
    else
      let (n, d) := s.dev.drawNat
      { s with dev := d, fw := { s.fw with comps := if n % 2 = 0 then s.fw.comps else upd s.fw.comps i FwComp.torn } }) s
  match s.fw.stagedAt with
  | none => s
  | some (t, i, b) =>
    if t ≠ now then s
    else
      let (n, d) := s.dev.drawNat
      let lose := fun (c : FwComp) =>
        if b then { c with slotB := { c.slotB with valid := false } } else { c with slotA := { c.slotA with valid := false } }
      { s with dev := d, fw := { s.fw with comps := if n % 2 = 0 then s.fw.comps else upd s.fw.comps (i - 1) lose } }

/-- The state after a reset: flash is kept, and with it firmware slots, selectors and counters; a power cycle alone clears
the recovery reason, the JTAG unlock and ERASED (R421, R431, R437, R438, R446, R447). -/
def State.afterReset (s : State) (cold : Bool) : State :=
  { s with
    dev := (if cold then s.dev else s.dev.tornRecord).afterReset cold
    fw := { comps := s.fw.comps, flashBad := s.fw.flashBad }
    sec := if cold then {} else { reason := s.sec.reason, jtag := s.sec.jtag, erased := s.sec.erased } }

/-- ROM starts: MBX_BOOT counts it (R270, R479), and tick 0 falls (R284). -/
def Dev.romStart (d : Dev) : Dev :=
  { d with
    evr := { d.evr with boot := min (d.evr.boot + 1) 0xFFFFFFFF }
    grf := { d.grf with tick := 0, tickTime := d.now } }

/-- No reset input is asserted. -/
def Dev.released (d : Dev) : Bool := !d.env.perst && !d.env.modRst

/-- A warm reset: configuration requests are answered throughout, and the change of state into ROM is reported (R266,
R267). -/
def State.warmReset (s : State) : State :=
  let was := s.dev.bring
  let s := s.cutFirmware.afterReset false
  let d := ({ s.dev with env := { s.dev.env with configRetry := false } }).romStart
  { s with dev := if was = .rom then d else d.setBring .rom }

/-- A reset input is asserted: it holds the device in reset; with the latch set it is ignored (R478-R480). -/
def State.assertReset (s : State) (perst : Bool) : State :=
  if !s.dev.env.powered || s.flash.latch then s
  else
    let was := s.dev.bring
    let s := s.cutWrite.cutFirmware.afterReset false
    let d := if was = .rom then s.dev else s.dev.flagEvent Off.mbxStatus 0
    { s with dev := { d with env := { d.env with
        perst := d.env.perst || perst, modRst := d.env.modRst || !perst, configRetry := true } } }

/-- The device identifier of the cube-position straps (R368, R473). -/
def strapId (st : BitVec 9) : Nat :=
  let n := st.toNat
  (2 * bits n 1 0 + bits n 6 6) + 8 * (2 * bits n 3 2 + bits n 7 7) + 64 * (2 * bits n 5 4 + bits n 8 8)

/-- The last reset input is released: straps are sampled and ROM starts once (R473, R479). -/
def State.releaseReset (s : State) (straps : BitVec 9) (recovery : Bool) : State :=
  if s.dev.released || !s.dev.env.powered || s.flash.latch then s
  else
    let d := { s.dev with env := { s.dev.env with perst := false, modRst := false, straps := straps, recovery := recovery } }
    { s with dev := (d.setFld Off.lnkFabric 15 0 (strapId straps)).romStart }

/-- THM_LAST_SHUTDOWN as the flash record gives it (R461, R468). -/
def shutdownWord (r : Option (Nat × Int)) : Nat :=
  match r with
  | none => 0
  | some (n, t) => 2 ^ 31 + n % 128 * 2 ^ 16 + unsigned t 16

/-- Both rails are in tolerance: power-up. The shut-down record of a latch that has been cleared is reported once (R461,
R476). -/
def State.powerUp (s : State) : State :=
  if s.dev.env.powered || s.flash.latch then s
  else
    let d := { s.dev with env := { s.dev.env with powered := true, pwrgd := true, links := true, configRetry := true } }
    let d := d.setReg Off.thmLastShutdown (shutdownWord s.flash.shutdown)
    let d := if s.flash.shutdownNew then
        match s.flash.shutdown with
        | some (n, t) => d.flagEvent Off.thmStatus 8 { arg0 := n, arg1 := unsigned t 64 }
        | none => d
      else d
    { s with dev := if d.released then d.romStart else d, flash := { s.flash with shutdownNew := false } }

/-- Power is off: everything but flash is lost (R350, R461, R477). -/
def State.powerLost (s : State) : State :=
  let s := s.cutWrite.cutFirmware.afterReset true
  { s with dev := { s.dev with env := { s.dev.env with powered := false, pwrgd := false, links := false, configRetry := true } } }

/-- Shut-down level of a sensor, in units of 0.25 °C (R458, R459). -/
def Dev.shutdownLevel (d : Dev) (n : Nat) : Int :=
  4 * d.fld (if n < 24 then Off.thmLevelsHub else if n < 56 then Off.thmLevelsPlane else Off.thmLevelsHbm) 23 16

/-- THERMAL_SHUTDOWN: a sensor's comparator trips; the latch is set and written to flash, and power goes off (R461,
R480). -/
def State.thermalShutdown (s : State) (n : Nat) (reading : Int) : State :=
  if !s.dev.env.powered || s.flash.latch || decide (72 ≤ n) || decide (reading < s.dev.shutdownLevel n) then s
  else
    let s := s.powerLost
    { s with
      dev := { s.dev with env := { s.dev.env with thermtrip := true, powered := true } }
      flash := { s.flash with latch := true, shutdown := some (n, reading), shutdownNew := true } }

/-- Both rails stay below 2 V for 1 s: the latch is cleared, and the module is off (R480). -/
def State.latchClear (s : State) : State :=
  let s := if s.dev.env.powered then s.powerLost else s
  { s with
    dev := { s.dev with env := { s.dev.env with thermtrip := false, powered := false, pwrgd := false, links := false } }
    flash := { s.flash with latch := false } }

/-- WARM_RESET: the reset that RESET_WARM, an update, recovery or DEVICE_ERROR made due (R257, R403, R430). -/
def execWarmReset (s : State) : Host.Outcome State Fault Refusal :=
  .next (if s.dev.mbx.resetDue then s.warmReset else s)
/-- PERST_ASSERT (R478). -/
def execPerstAssert (s : State) : Host.Outcome State Fault Refusal := .next (s.assertReset true)
/-- MODULE_RST_ASSERT (R478). -/
def execModuleRstAssert (s : State) : Host.Outcome State Fault Refusal := .next (s.assertReset false)
/-- RESET_DEASSERT (R479). -/
def execResetDeassert (straps : BitVec 9) (recovery : Bool) (s : State) : Host.Outcome State Fault Refusal :=
  .next (s.releaseReset straps recovery)
/-- POWER_UP (R476). -/
def execPowerUp (s : State) : Host.Outcome State Fault Refusal := .next s.powerUp
/-- POWER_FAIL (R477). -/
def execPowerFail (s : State) : Host.Outcome State Fault Refusal :=
  .next (if s.dev.env.powered then s.powerLost else s)
/-- THERMAL_SHUTDOWN (R461). -/
def execThermalShutdown (n : Nat) (reading : Int) (s : State) : Host.Outcome State Fault Refusal :=
  .next (s.thermalShutdown n reading)
/-- SHUTDOWN_LATCH_CLEAR (R480). -/
def execShutdownLatchClear (s : State) : Host.Outcome State Fault Refusal := .next s.latchClear

end Sys2Proof.Machine
end

