-- ==== Sys2Proof/Machine/Store.lean ====
section
/-! DEFINITION. The configuration store: its tests, its settings taking effect at LINK, and the commands that identify the
device and read and write the store (R257, R258, R263-R265, R372, R469). -/

namespace Sys2Proof.Machine

/-! ## Settings (R263) -/

/-- The settings records: tag and value; none where a record runs past the end. -/
def settingsOf : Nat → List Byte → Option (List (Nat × List Byte))
  | _, [] => some []
  | 0, _ => none
  | fuel + 1, l =>
    let n := leAt l 2 2
    if l.length < 4 + n then none
    else (settingsOf fuel (l.drop (4 + (n + 3) / 4 * 4))).map fun r => (leAt l 0 2, (l.drop 4).take n) :: r

/-- The value of a setting, where it is present; of several records of one tag the last counts. -/
def setting (ss : List (Nat × List Byte)) (tag : Nat) : Option (List Byte) :=
  ss.foldl (fun a s => if s.1 = tag then some s.2 else a) none

/-- A numeric setting, or its default. -/
def settingNat (ss : List (Nat × List Byte)) (tag dflt : Nat) : Nat := ((setting ss tag).map ofLe).getD dflt

/-- The bytes of a setting, or its default. -/
def settingBytes (ss : List (Nat × List Byte)) (tag : Nat) (dflt : List Nat) : List Nat :=
  ((setting ss tag).map fun l => l.map (·.toNat)).getD dflt

/-- Domains that may be requested off together: none beyond 49, and not every wide-engine block or pip cluster (R463). -/
def domainsOk (v : Nat) : Bool := decide (v < 2 ^ 50) && decide (bits v 37 32 ≠ 63) && decide (bits v 41 38 ≠ 15)

/-- One entry of tag 0x0405: HKA_SEQ, HKA_LIMIT and 4 reserved bytes (R469). -/
def hkaOk (i : Nat) (l : List Byte) : Bool :=
  let v := leAt l (12 * i) 4
  let w := leAt l (12 * i + 4) 4
  decide (bits v 23 22 = 0) && regTakes (Off.hkaSeq + 16 * i) v && decide (bits w 31 28 = 0) &&
    decide (bits w 15 12 = 0) && decide (leAt l (12 * i + 8) 4 = 0)

/-- A setting has its length and lies in its range (R263, R285, R339, R356, R372, R469). A tag of no chapter is ignored. -/
def settingOk (devices : Nat) (s : Nat × List Byte) : Bool :=
  let n := s.2.length
  let v := ofLe s.2
  let num := fun (k lo hi : Nat) => decide (n = k) && inRange v lo hi
  match s.1 with
  | 0x0001 => num 1 4 6
  | 0x0101 => decide (n = 3) && s.2.all fun b => inRange b.toNat 1 8
  | 0x0102 => num 8 1 (2 ^ 64 - 1)
  | 0x0103 => decide (n = 3) && s.2.all fun b => decide (b = 4 ∨ b = 8)
  | 0x0104 => num 1 0 1
  | 0x0105 => decide (n = 2 * devices)
  | 0x0106 => num 4 500 100000
  | 0x0107 => num 2 1 65535
  | 0x0201 => num 2 8 4000
  | 0x0202 => num 1 0 7
  | 0x0301 => num 2 0 1024
  | 0x0302 => num 4 100 100000
  | 0x0303 => num 4 2 262144
  | 0x0304 => num 2 1 65535
  | 0x0401 => num 2 300 950
  | 0x0402 => num 2 10 1000
  | 0x0403 => num 1 1 15
  | 0x0404 => decide (n = 8) && domainsOk v
  | 0x0405 => decide (n = 336) && (List.range 28).all fun i => hkaOk i s.2
  | 0x0501 => num 2 0 65535
  | 0x0502 => num 4 1 (2 ^ 32 - 1)
  | 0x0503 => num 4 0 (2 ^ 32 - 1)
  | 0x0504 => num 2 1 4096
  | 0x0505 => num 1 1 100
  | _ => true

/-- The settings of a blob; none where they do not fit in front of the signature (R263). -/
def blobSettings (b : List Byte) : Option (List (Nat × List Byte)) :=
  let n := leAt b 0x10 4
  if leAt b 8 4 < 0x40 + n + 512 then none else settingsOf n ((b.drop 0x40).take n)

/-- Devices of the plan that settings name (R372). -/
def settingDevices (ss : List (Nat × List Byte)) : Nat := (settingBytes ss 0x0101 [1, 1, 1]).foldl (· * ·) 1

/-! ## The tests of the store (R264, R265) -/

/-- MAGIC, FORMAT and the header of a blob (R263). -/
def blobFormat (b : List Byte) : Bool :=
  let n := leAt b 8 4
  decide (leAt b 0 4 = 0x46435753) && decide (leAt b 4 2 = 1) && decide (leAt b 6 2 = 0) && inRange n 1024 65536 &&
    decide (n % 64 = 0) && decide (n ≤ b.length) && decide (leAt b 0x14 8 = 0) && decide (leAt b 0x1C 8 = 0) &&
    decide (leAt b 0x24 28 = 0)

/-- The signature of a blob verifies under a key (R263). -/
def blobSigned (key : Nat) (b : List Byte) : Bool :=
  let n := leAt b 8 4 - 512
  Config.verifies key (b.take n) ((b.drop n).take 512)

/-- Every setting lies in its range (R264). -/
def blobContent (b : List Byte) : Bool :=
  match blobSettings b with
  | none => false
  | some ss => ss.all (settingOk (settingDevices ss))

/-- The commit marker of a blob (R263). -/
def markerOf (b : List Byte) : List Byte :=
  let m := le 0x4D435753 4 ++ le (leAt b 0xC 4) 4 ++ le (leAt b 8 4) 4 ++ le (crc32c (b.take (leAt b 8 4))) 4 ++
    List.replicate 44 0
  m ++ le (crc32c m) 4

/-- The marker area is erased (R263). -/
def markerErased (m : List Byte) : Bool := decide (m = List.replicate 64 0xFF)

/-- A marker is whole and belongs to the blob (R263, R264). -/
def markerOk (b m : List Byte) : Bool :=
  decide (leAt m 0 4 = 0x4D435753) && decide (leAt m 4 4 = leAt b 0xC 4) && decide (leAt m 8 4 = leAt b 8 4) &&
    ((m.drop 0x10).take 44).all (· == 0) && decide (leAt m 0x3C 4 = crc32c (m.take 60))

/-- The key that verifies configurations and erase requests: the owner record's, or the Olmoa default (R440). -/
def State.configKey (s : State) : Nat := s.flash.ownerKey.getD Config.olmoaKey

/-- The hold reason of the store; none where every test passes (R264). -/
def State.storeReason (s : State) : Option Nat :=
  let b := s.flash.config
  let m := s.flash.marker
  firstFail
    [(!markerErased m, 1),
     (markerOk b m, 2),
     (decide (leAt m 0xC 4 = crc32c (b.take (leAt b 8 4))), 3),
     (blobFormat b, 4),
     (blobSigned s.configKey b, 5),
     (decide (leAt b 0xC 4 = s.flash.counters.getD 0 0), 6),
     (blobContent b, 7)]

/-! ## Settings taking effect at LINK (R263, R372, R463, R469) -/

/-- Housekeeping entries 4-31 as tag 0x0405 gives them. -/
def Dev.loadHka (d : Dev) (l : List Byte) : Dev :=
  (List.range 28).foldl (fun d i =>
    (d.setReg (Off.hkaSeq + 16 * i) (leAt l (12 * i) 4)).setReg (Off.hkaLimit + 16 * i) (leAt l (12 * i + 4) 4)) d

/-- The settings take effect. -/
def Dev.applySettings (d : Dev) (serial : List Byte) (ss : List (Nat × List Byte)) : Dev :=
  let dims := settingBytes ss 0x0101 [1, 1, 1]
  let frame := settingNat ss 0x0201 50
  let off := settingNat ss 0x0404 0
  let planId := match setting ss 0x0102 with
    | some l => ofLe l
    | none => Config.planOfSerial serial
  let classes := match setting ss 0x0105 with
    | some l => (List.range (l.length / 2)).map fun i => leAt l (2 * i) 2
    | none => []
  let d := { d with
    lnk := { d.lnk with
      nx := dims.getD 0 1, ny := dims.getD 1 1, nz := dims.getD 2 1, planId := planId
      hopLanes := settingBytes ss 0x0103 [8, 8, 8], swap := decide (settingNat ss 0x0104 0 = 1), classes := classes }
    hub := { d.hub with
      floorState := settingNat ss 0x0001 4
      cfgTier := [settingNat ss 0x0501 20000, settingNat ss 0x0502 64, settingNat ss 0x0503 8, settingNat ss 0x0504 64,
                  settingNat ss 0x0505 50] }
    pwr := { d.pwr with off := off } }
  let d := ((d.setFld Off.lnkFabric 18 16 (dims.getD 0 1 - 1)).setFld Off.lnkFabric 22 20 (dims.getD 1 1 - 1)).setFld
    Off.lnkFabric 26 24 (dims.getD 2 1 - 1)
  let d := (d.setReg Off.lnkTimeout (settingNat ss 0x0106 2000)).setReg Off.lnkDigestFrames (settingNat ss 0x0107 1000)
  let d := ((d.setFld Off.grfFrame 27 16 frame).setFld Off.grfFrame 11 0 frame).setFld Off.grfCtrl 10 8
    (settingNat ss 0x0202 4)
  let d := ((d.setFld Off.srvPrefill 10 0 (settingNat ss 0x0301 16)).setFld Off.srvCompose 16 0
    (settingNat ss 0x0302 500)).setFld Off.srvVocab 18 0 (settingNat ss 0x0303 131072)
  let d := d.setFld Off.srvPark 15 0 (settingNat ss 0x0304 2000)
  let d := ((d.setFld Off.pwrLimit 9 0 (settingNat ss 0x0401 950)).setFld Off.pwrPeriod 9 0
    (settingNat ss 0x0402 20)).setFld Off.thmCtrl 3 0 (settingNat ss 0x0403 8)
  let d := (d.setReg Off.pwrOffLo (off % 2 ^ 32)).setReg Off.pwrOffHi (off / 2 ^ 32)
  match setting ss 0x0405 with
  | some l => d.loadHka l
  | none => d

/-- A blob takes effect, and the device enters LINK (R264-R266, R372). -/
def State.enterLink (s : State) (blob : List Byte) : State :=
  let b := blob.take (leAt blob 8 4)
  let d := s.dev.applySettings s.flash.serial ((blobSettings b).getD [])
  let d := { d with hub := { d.hub with cfgGen := leAt b 0xC 4, cfgBlob := b } }
  { s with dev := (d.setBring .link).portsTrain }

/-! ## IDENTIFY, CONFIG_READ and CONFIG_WRITE (R257, R258, R265) -/

/-- The image in a slot of a component: slot B where `b`. -/
def FwComp.slot (c : FwComp) (b : Bool) : FwImage := if b then c.slotB else c.slotA

/-- The 16-byte version record of a component (R447). -/
def State.versionRecord (s : State) (i : Nat) : List Byte :=
  let c := s.fw.comps.getD (i - 1) {}
  let flag := fun (b : Bool) (k : Nat) => if b then 2 ^ k else 0
  let other := c.slot (!c.activeB)
  le (i + flag c.activeB 8 + flag c.confirmed 9 + flag (decide (s.fw.staged = some i)) 10 + flag c.settingsReset 11 +
    flag c.fellBack 12) 4 ++ le (c.slot c.activeB).version 4 ++ le (s.flash.counters.getD i 0) 4 ++
    le (if other.valid then other.version else 0) 4

/-- The ordering number in ASCII (R484). -/
def orderingNumber : List Byte := [0x53, 0x57, 0x41, 0x31, 0x2D, 0x33, 0x38, 0x34, 0x2D, 0x4C, 0x31]

/-- Bytes padded with zeros to a length. -/
def padTo (l : List Byte) (n : Nat) : List Byte := (l ++ List.replicate n 0).take n

/-- The identity page (R258). -/
def State.identityPage (s : State) : List Byte :=
  let d := s.dev
  padTo (padTo orderingNumber 16 ++ padTo s.flash.serial 16 ++ le (if d.lnk.formed then d.deviceId else 0xFFFF) 2 ++
    [1, 1] ++ le d.evr.boot 4 ++ le 24576 4 ++ le (d.reg Off.plnSpares) 4 ++ le 0x6000000000 8 ++ le 0x1E0000000 8 ++
    ((List.range 8).flatMap fun i => s.versionRecord (i + 1)) ++ le d.hub.cfgGen 4) 4096

/-- IDENTIFY (R258). -/
def State.doIdentify (s : State) (h : CmdHdr) (buffer : Nat) : State :=
  let a : Answer :=
    if !aligned buffer 4096 then s.dev.no 0x000A
    else
      match s.dev.writeHost buffer s.identityPage with
      | some d => d.yes 4096
      | none => s.dev.no 0x0506
  { s with dev := a.finish h }

/-- CONFIG_READ: the stored blob, where the store passes its tests (R257). -/
def State.doConfigRead (s : State) (h : CmdHdr) (buffer bytes : Nat) : State :=
  let b := s.flash.config
  let n := leAt b 8 4
  let a : Answer :=
    if !aligned buffer 4096 then s.dev.no 0x000A
    else
      match s.storeReason with
      | some r => s.dev.noAt 0x000F r
      | none =>
        if bytes < n then s.dev.no 0x000A
        else
          match s.dev.writeHost buffer (b.take n) with
          | some d => d.yes n
          | none => s.dev.no 0x0506
  { s with dev := a.finish h }

/-- The status of a blob that a write would use: tests 3 to 7 of R264, with a generation above the counter (R265). Outside the
approved mode no signature verifies (R445; log entry 119). -/
def State.blobStatus (s : State) (b : List Byte) (bytes : Nat) : Option Nat :=
  let rest := blobFormat b && decide (leAt b 8 4 = bytes) && decide (s.flash.counters.getD 0 0 < leAt b 0xC 4) &&
    blobContent b
  if !rest then some 0x000F else if !s.sec.approved || !blobSigned s.configKey b then some 0x0010 else none

/-- A counter of R438 raised to a value; it is only ever raised, and held at 0xFFFF_FFFF. -/
def Flash.raise (f : Flash) (i v : Nat) : Flash :=
  { f with counters := upd f.counters i fun c => max c (min v 0xFFFFFFFF) }

/-- CONFIG_WRITE (R265). In HOLD the blob takes effect at once. -/
def State.doConfigWrite (s : State) (h : CmdHdr) (source bytes : Nat) (persist : Bool) : State :=
  let refuse := fun (st : Nat) => { s with dev := (s.dev.no st).finish h }
  let hold := decide (s.dev.bring = .hold)
  if !aligned source 4096 then refuse 0x000A
  else if !persist && !hold then refuse 0x0009
  else if 65536 < bytes then refuse 0x000F
  else
    match s.dev.readHost source bytes with
    | none => refuse 0x0506
    | some b =>
      match s.blobStatus b bytes with
      | some st => refuse st
      | none =>
        let gen := leAt b 0xC 4
        let done := fun (s : State) => { s with dev := s.dev.complete h 0 gen }
        if !persist then done (s.enterLink b)
        else
          let f : Flash := { s.flash with marker := List.replicate 64 0xFF, config := b }
          if s.fw.flashBad then { s with flash := f, dev := (s.dev.no 0x0B0C).finish h }
          else
            let s := { s with flash := { f.raise 0 gen with
              marker := markerOf b, writeAt := some s.dev.now, before := s.flash.counters.getD 0 0 } }
            done (if hold then s.enterLink b else s)

/-- IDENTIFY (R258). -/
def execIdentify (h : CmdHdr) (buffer : Nat) (s : State) : Host.Outcome State Fault Refusal :=
  .next (s.command h 0x0002 fun h s => s.doIdentify h buffer)
/-- CONFIG_READ (R257). -/
def execConfigRead (h : CmdHdr) (buffer bytes : Nat) (s : State) : Host.Outcome State Fault Refusal :=
  .next (s.command h 0x0003 fun h s => s.doConfigRead h buffer bytes)
/-- CONFIG_WRITE (R265). -/
def execConfigWrite (h : CmdHdr) (source bytes : Nat) (persist : Bool) (s : State) : Host.Outcome State Fault Refusal :=
  .next (s.command h 0x0004 fun h s => s.doConfigWrite h source bytes persist)

end Sys2Proof.Machine
end

