-- ==== Sys2Proof/Machine/Erase.lean ====
section
/-! DEFINITION. Secure erase of weights (R443, R444). -/

namespace Sys2Proof.Machine

/-- A tile after the erase: a programmed one holds level 0 everywhere, with its wear counted, and its calibration is gone
with the near store; retirements and spare assignments stand (R443). -/
def erasedTile (x : Nat × PhysTile) : Nat × PhysTile :=
  let t := x.2
  let kept := decide (t.state = .retired ∨ t.state = .spare)
  let t : PhysTile := { t with
    logical := none, nearCopy := {}, nearCopyOk := false, active := {}, candidate := {}, waiting := false, grade := 0
    passDue := 0, attempts := 0, stuckCount := 0 }
  (x.1, { t with
    state := if kept then t.state else .free
    wear := if t.levels = [] then t.wear else min (t.wear + 1) 0xFFFFFFFF
    levels := t.levels.map fun _ => 0 })

/-- Steps 3 to 6 of the erase: tiles, memories and edition records go, counter 10 is raised, the marker is cleared and
the event recorded. A counter write that fails leaves the marker (R439, R443). -/
def State.eraseAll (s : State) : State :=
  let d := { s.dev with
    pln := { s.dev.pln with phys := s.dev.pln.phys.map erasedTile, logical := [], prog := [], rounds := [], op := none
                            saved := [], tails := [] }
    mem := []
    upsets := [] }
  if s.fw.flashBad then { s with dev := d }
  else
    let f := s.flash.raise 10 (s.flash.counters.getD 10 0 + 1)
    { s with
      dev := d.event (bitCode Off.hubSecStatus 3) { arg1 := f.counters.getD 10 0 }
      sec := { s.sec with erased := true }
      flash := { f with eraseMarker := false } }

end Sys2Proof.Machine
end

