-- ==== Sys2Proof/Machine/Housekeeping.lean ====
section
/-! DEFINITION. The housekeeping ADC: sequence entries, limits, urgent conversions, open-wire tests and the test DAC
(R449-R457, R468). -/

namespace Sys2Proof.Machine

/-! ## Entries (R451, R452) -/

/-- The settings of entry `n` as an HKA_SEQ word; entries 0-3 are fixed (R452, R468). -/
def Dev.seqWord (d : Dev) (n : Nat) : Nat :=
  let fixed := fun (conv avg input : Nat) =>
    2 ^ 31 + conv * 2 ^ 29 + avg * 2 ^ 24 + input * 2 ^ 16 + d.fld Off.pwrPeriod 9 0
  match n with
  | 0 => fixed 3 4 25
  | 1 => fixed 0 0 24
  | 2 => fixed 1 0 26
  | 3 => fixed 1 0 27
  | n => d.reg (Off.hkaSeq + 16 * (n - 4))

/-- The limits of entry `n`: LOW and HIGH (R468). -/
def Dev.hkaLimits (d : Dev) (n : Nat) : Nat × Nat :=
  if n < 4 then (0, 4095) else (d.fld (Off.hkaLimit + 16 * (n - 4)) 11 0, d.fld (Off.hkaLimit + 16 * (n - 4)) 27 16)

/-- The result register of entry `n` (R468). -/
def resultOff (n : Nat) : Nat := Off.hkaResult + 16 * n

/-- The run state of an entry. -/
def Dev.entry (d : Dev) (n : Nat) : HkaEntry := d.hka.entries.getD n {}

/-- The run state of an entry changed. -/
def Dev.modEntry (d : Dev) (n : Nat) (f : HkaEntry → HkaEntry) : Dev :=
  { d with hka := { d.hka with entries := upd d.hka.entries n f } }

/-- A converter converts (R468): 0 ADC0, 1 ADC1. -/
def Dev.convBusy (d : Dev) (c : Nat) : Bool := if c = 0 then d.hka.busy0 else d.hka.busy1

/-- A converter made busy or free. -/
def Dev.setBusy (d : Dev) (c : Nat) (b : Bool) : Dev :=
  { d with hka := if c = 0 then { d.hka with busy0 := b } else { d.hka with busy1 := b } }

/-- A pass in progress uses a converter. -/
def HkaEntry.holds (e : HkaEntry) (c : Nat) : Bool := e.running && (decide (e.conv = c) || decide (e.conv = 3))

/-- The converters that a pass takes if it can start: 0, 1 or 3 for both; "either" prefers ADC0 (R451). -/
def Dev.takes (d : Dev) (conv : Nat) : Option Nat :=
  let free := fun c => !d.convBusy c
  match conv with
  | 0 => if free 0 then some 0 else none
  | 1 => if free 1 then some 1 else none
  | 2 => if free 0 then some 0 else if free 1 then some 1 else none
  | _ => if free 0 && free 1 then some 3 else none

/-- A due entry starts its pass where its converter is free and no test of it runs; one that has been disabled is no longer
due (R451, R455). -/
def Dev.tryStart (d : Dev) (n : Nat) : Dev :=
  let e := d.entry n
  let w := d.seqWord n
  if !e.due || e.running || e.testing then d
  else if !bit w 31 then d.modEntry n fun e => { e with due := false }
  else
    match d.takes (bits w 30 29) with
    | none => d
    | some c =>
      let d := d.modEntry n fun e => { e with due := false, running := true, seq := w, conv := c }
      let d := if c = 1 then d else d.setBusy 0 true
      if c = 0 then d else d.setBusy 1 true

/-- Due entries start in ascending order (R451). -/
def Dev.startDue (d : Dev) : Dev := (List.range 32).foldl Dev.tryStart d

/-- SEQUENCE_ENTRY_DUE: an enabled entry falls due; one that is due already counts one pass (R451). -/
def Dev.entryDue (d : Dev) (n : Nat) : Dev :=
  if 32 ≤ n ∨ !bit (d.seqWord n) 31 ∨ !d.env.pwrgd then d else (d.modEntry n fun e => { e with due := true }).startDue

/-! ## Urgent conversions (R454) -/

/-- The register of an urgent result. -/
def urgentOff (c : Nat) : Nat := Off.hkaUrgentResult + 4 * c

/-- An urgent request that waits on a converter starts, with its wait since GO, at most 1 µs (R454). -/
def Dev.urgentStart (d : Dev) (c : Nat) : Dev :=
  if d.hka.urgent.any fun u => decide (u.1 = c) && u.2.2.2.isNone then
    let go := d.hka.urgent.map fun (u : Nat × Nat × Nat × Option Nat) =>
      if u.1 = c ∧ u.2.2.2.isNone then (u.1, u.2.1, u.2.2.1, some (min (d.now - u.2.2.1) 1000)) else u
    ({ d with hka := { d.hka with urgent := go } }).setBusy c true
  else d

/-- A pass of several samples holds a converter: an urgent conversion comes between two of them (R454). -/
def Dev.inBurst (d : Dev) (c : Nat) : Bool := d.hka.entries.any fun e => e.holds c && decide (bits e.seq 26 24 ≠ 0)

/-- URGENT_CONVERSION: a GO is refused while a request of its converter is pending, and starts at once on an idle converter;
in the middle of a pass of several samples its wait, at most 1 µs, is a free value (R454, log entry 3). -/
def Dev.urgentGo (d : Dev) (v : Nat) : Dev :=
  let c := bits v 8 8
  let input := bits v 5 0
  let d := d.setReg Off.hkaUrgent (v % 2 ^ 31 &&& 0x13F)
  if !bit v 31 then d
  else if d.hka.urgent.any fun u => decide (u.1 = c) then d.setBit Off.hkaStatus 5
  else
    let d := d.setFld (urgentOff c) 31 31 0
    let ask := fun (d : Dev) (w : Option Nat) => { d with hka := { d.hka with urgent := d.hka.urgent ++ [(c, input, d.now, w)] } }
    if !d.convBusy c then (ask d (some 1)).setBusy c true
    else if d.inBurst c then
      let (w, d) := d.drawNat
      ask d (some (w % 1001))
    else ask d none

/-- URGENT_DONE: the result and the wait are written with DONE, and the converter is free for what is due (R454). -/
def Dev.urgentDone (d : Dev) (c code : Nat) : Dev :=
  match d.hka.urgent.find? fun u => decide (u.1 = c) && u.2.2.2.isSome with
  | none => d
  | some u =>
    let v := if 57 ≤ u.2.1 then 0 else code % 4096
    let d := d.setReg (urgentOff c) (2 ^ 31 + u.2.2.2.getD 0 * 2 ^ 16 + v)
    let d := { d with hka := { d.hka with urgent := d.hka.urgent.filter fun x => decide (x.1 ≠ c) } }
    (d.setBusy c (d.hka.entries.any fun e => e.holds c)).startDue

/-! ## Passes (R449, R451, R453, R457) -/

/-- The mean of a pass's samples, rounded to nearest with ties to even (R451). -/
def meanCode (l : List Nat) : Nat :=
  let s := (l.map (· % 4096)).sum
  let n := l.length
  let q := s / n
  let r := s % n
  if 2 * r < n then q else if n < 2 * r then q + 1 else q + q % 2

/-- The test DAC drives an input (R457). -/
def Dev.dacDrives (d : Dev) (input : Nat) : Bool :=
  d.bitAt Off.hkaTestDac 31 && decide (input = d.fld Off.hkaTestDac 20 16)

/-- The result of a pass is written, and judged against the entry's limits unless the test DAC drives the input
(R453, R457, R468). -/
def Dev.writeResult (d : Dev) (n v passes : Nat) (test : Bool) : Dev :=
  let off := resultOff n
  let was := d.bitAt off 29
  let lim := d.hkaLimits n
  let out := if test then was else decide (v < lim.1) || decide (lim.2 < v)
  let flag := fun (b : Bool) (k : Nat) => if b then 2 ^ k else 0
  let d := d.setReg off (2 ^ 31 + flag (d.bitAt off 30) 30 + flag out 29 + flag test 28 + passes % 4096 * 2 ^ 16 + v)
  if out && !was && !test then (d.bump Off.hkaLimitEvents).flagEvent Off.hkaStatus 3 { arg0 := n, arg1 := v } else d

/-- CONVERSION_COMPLETE: a pass has taken its samples (R451). -/
def Dev.conversionComplete (d : Dev) (n : Nat) (samples : List Nat) : Dev :=
  let e := d.entry n
  if !e.running || decide (samples.length ≠ 2 ^ bits e.seq 26 24) then d
  else
    let input := bits e.seq 21 16
    let test := d.dacDrives input
    let v := if 57 ≤ input then 0 else meanCode samples
    let passes := e.passes + 1
    let probe := decide (bits e.seq 28 27 ≠ 0) && decide (input < 24) && !test &&
      decide (passes % d.fld Off.hkaOpenCtrl 7 0 = 0)
    let d := (d.writeResult n v passes test).modEntry n fun e => { e with running := false, passes := passes, testing := probe }
    let urgent := fun (c : Nat) => d.hka.urgent.any fun u => decide (u.1 = c) && u.2.2.2.isSome
    let release := fun (d : Dev) (c : Nat) => if e.holds c then (d.setBusy c (urgent c)).urgentStart c else d
    (release (release d 0) 1).startDue

/-- OPEN_WIRE_TEST: the pull-up and pull-down codes decide; a finding counts when the input was connected before
(R455, R456). -/
def Dev.openWireTest (d : Dev) (n u v : Nat) : Dev :=
  if !(d.entry n).testing then d
  else
    let off := resultOff n
    let was := d.bitAt off 30
    let isOpen := decide (v + d.fld Off.hkaOpenCtrl 31 20 ≤ u)
    let d := (d.modEntry n fun e => { e with testing := false }).setFld off 30 30 (if isOpen then 1 else 0)
    let d := if isOpen then { d with thm := { d.thm with badAt := d.now } } else d
    let d := if isOpen && !was then (d.bump Off.hkaOpenEvents).flagEvent Off.hkaStatus 4 { arg0 := n, arg1 := u - v } else d
    d.startDue

/-- SEQUENCE_ENTRY_DUE (R451). -/
def execSequenceEntryDue (n : Nat) (s : State) : Host.Outcome State Fault Refusal := lift (·.entryDue n) s
/-- CONVERSION_COMPLETE (R451). -/
def execConversionComplete (n : Nat) (samples : List Nat) (s : State) : Host.Outcome State Fault Refusal :=
  lift (·.conversionComplete n samples) s
/-- OPEN_WIRE_TEST (R455). -/
def execOpenWireTest (n u d : Nat) (s : State) : Host.Outcome State Fault Refusal := lift (·.openWireTest n u d) s
/-- URGENT_CONVERSION (R454). -/
def execUrgentConversion (v : Word) (s : State) : Host.Outcome State Fault Refusal := hostWrite (·.urgentGo v.toNat) s
/-- URGENT_DONE (R454). -/
def execUrgentDone (conv code : Nat) (s : State) : Host.Outcome State Fault Refusal := lift (·.urgentDone conv code) s
/-- TEST_DAC (R457). -/
def execTestDac (v : Word) (s : State) : Host.Outcome State Fault Refusal := hostWrite (·.regWrite Off.hkaTestDac v.toNat) s

end Sys2Proof.Machine
end

