-- ==== Sys2Proof/Machine/Firmware.lean ====
section
/-! DEFINITION. Boot and firmware update: slots and selectors, the boot order, update packages, staging, activation, the
service pause, confirmation and fallback, and recovery (R420-R436, R439, R446, R447). -/

namespace Sys2Proof.Machine

/-! ## Slots and selectors (R421-R424) -/

/-- A firmware component, 1-8 (R420). -/
def State.comp (s : State) (i : Nat) : FwComp := s.fw.comps.getD (i - 1) {}

/-- A firmware component changed. -/
def State.modComp (s : State) (i : Nat) (f : FwComp → FwComp) : State :=
  { s with fw := { s.fw with comps := upd s.fw.comps (i - 1) f } }

/-- A counter of R438. -/
def State.counter (s : State) (i : Nat) : Nat := s.flash.counters.getD i 0

/-- The selector written to the other copy, which takes the next sequence number and is in force from then on (R421). -/
def FwComp.write (c : FwComp) (b isPending : Bool) (attempts now : Nat) : FwComp :=
  { c with
    other := { seq := c.selSeq, activeB := c.activeB, isPending := c.isPending, attempts := c.attempts }
    activeB := b, isPending := isPending, attempts := attempts, selSeq := c.selSeq + 1, selAt := some now }

/-- A component's selector names a slot anew (R421). -/
def State.select (s : State) (i : Nat) (b isPending : Bool) : State :=
  s.modComp i fun c => { c.write b isPending 0 s.dev.now with confirmed := !isPending }

/-- The image that the selector names. -/
def FwComp.active (c : FwComp) : FwImage := c.slot c.activeB

/-- A slot verifies under R423. -/
def State.verified (s : State) (m : FwImage) : Bool := m.valid && decide (s.counter 9 ≤ m.keyIndex)

/-- A slot may boot: it verifies, and its SVN is not below the component's counter (R424). -/
def State.boots (s : State) (i : Nat) (m : FwImage) : Bool := s.verified m && decide (s.counter i ≤ m.svn)

/-- A firmware status bit of HUB_FW_STATUS is set, with its event (R409). -/
def State.fwEvent (s : State) (b i : Nat) : State :=
  { s with dev := s.dev.flagEvent Off.hubFwStatus b { arg0 := i } }

/-- An attempt to boot a PENDING slot is counted, and at the third the selector returns to the other slot (R424). -/
def State.countAttempt (s : State) (i : Nat) : State :=
  let c := s.comp i
  if !c.isPending then s
  else if c.attempts + 1 < 3 then s.modComp i fun c => c.write c.activeB true (c.attempts + 1) s.dev.now
  else ((s.select i (!c.activeB) false).modComp i fun c => { c with fellBack := true, shadow := none }).fwEvent 4 i

/-- A component's slot is chosen at boot; false where both slots fail (R424). -/
def State.chooseSlot (s : State) (i : Nat) : Bool × State :=
  let s := s.countAttempt i
  let c := s.comp i
  if s.boots i c.active then (true, s)
  else
    let s := s.fwEvent 3 i
    if s.boots i (c.slot (!c.activeB)) then (true, s.select i (!c.activeB) false) else (false, s)

/-- An image whose settings area has a format that it cannot read starts from default settings (R434). -/
def State.checkSettings (s : State) (i : Nat) : State :=
  let c := s.comp i
  let m := c.active
  if i < 2 ∨ 7 < i then s
  else if m.settingsMin ≤ c.settingsFmt ∧ c.settingsFmt ≤ m.settingsFormat then
    s.modComp i fun c => { c with settingsReset := false }
  else
    (s.modComp i fun c =>
      if c.isPending then { c with settingsReset := true, shadow := some [] }
      else { c with settingsReset := true, settings := [], settingsFmt := m.settingsFormat }).fwEvent 5 i

/-- The components that wait for confirmation, in code order. -/
def State.pendingComps (s : State) : List Nat := ((List.range 8).map (· + 1)).filter fun i => (s.comp i).isPending

/-- A confirmation window of 120 s starts, where a component waits for confirmation (R432). -/
def State.startWindow (s : State) : State :=
  match s.pendingComps with
  | [] => s
  | i :: _ => { s with fw := { s.fw with confirming := some i, windowEnd := s.dev.now + 120 * 10 ^ 9, health := 0 } }

/-! ## Boot (R264, R266, R422, R435, R444, R446) -/

/-- RECOVERY is entered: its reason, and the admin mailbox opens (R266, R435, R436). -/
def State.enterRecovery (s : State) (reason : Nat) : State :=
  let d := s.dev
  let d := { d with env := { d.env with configRetry := false }, mbx := { d.mbx with recoveryDue := false } }
  { s with dev := (d.setBring .recovery).openBox 0, sec := { s.sec with reason := reason } }

/-- BOOT_ROM: self-tests, the PUF secret, and the loader's slot (R422, R424, R435, R446). -/
def State.bootRom (s : State) (selftest : Bool) : State :=
  if s.dev.bring ≠ .rom ∨ s.sec.keys ≠ none ∨ !s.running then s
  else if !selftest then s.enterRecovery 4
  else
    let s := { s with sec := { s.sec with keys := some Config.pufKeys, selftestOk := true, approved := !s.sec.jtag } }
    if s.dev.env.recovery then s.enterRecovery 1
    else if s.dev.mbx.recoveryDue then s.enterRecovery 2
    else
      match s.chooseSlot 1 with
      | (true, s) => s
      | (false, s) => s.enterRecovery 3

/-- The components 2-8 choose their slots in code order; false at the first whose slots both fail (R422, R424). -/
def State.chooseSlots (s : State) : List Nat → Bool × State
  | [] => (true, s)
  | i :: l =>
    match s.chooseSlot i with
    | (true, s) => s.chooseSlots l
    | (false, s) => (false, s)

/-- Damson firmware takes over: link firmware is loaded, address space 0 has its root, and the master pages are mapped
read-only in it (R212, R343, R349). -/
def State.loadFirmware (s : State) : State :=
  let d := s.dev
  let d := { d with lnk := { d.lnk with linkFw := (s.comp 6).active.version }, env := { d.env with configRetry := false } }
  let d := match d.makeRoot 0 with
    | some (t, d) => d.setReg64 Off.mmuRootLo (t + 1)
    | none => d
  { s with dev := d.pln.masterPages.foldl Dev.exposePage d }

/-- ENTER_FW: an erase that was cut short is completed first; the slots of components 2-8 are chosen and loaded, and the
device enters FW with its ports at LISTEN (R266, R422, R424, R434, R444). -/
def State.enterFw (s : State) : State :=
  if s.dev.bring ≠ .rom ∨ s.sec.keys = none ∨ !s.running then s
  else
    let s := if s.flash.eraseMarker then s.eraseAll else s
    match s.chooseSlots [2, 3, 4, 5, 6, 7, 8] with
    | (false, s) => s.enterRecovery 3
    | (true, s) =>
      let s := ([2, 3, 4, 5, 6, 7].foldl State.checkSettings s).loadFirmware.startWindow
      { s with dev := (s.dev.setBring .fw).portsListen }

/-- STORE_CHECK: the store decides between HOLD and LINK, and the mailboxes open (R264, R266, R268). -/
def State.storeCheck (s : State) : State :=
  if s.dev.bring ≠ .fw then s
  else
    let s := match s.storeReason with
      | some r => { s with dev := s.dev.setBring .hold r }
      | none => s.enterLink s.flash.config
    { s with dev := (List.range 17).foldl Dev.openBox s.dev }

/-! ## Update packages (R420, R425-R428) -/

/-- Slot size of a component (R420). -/
def slotBytes : Nat → Nat
  | 1 => 2 ^ 20
  | 2 => 32 * 2 ^ 20
  | 3 => 16 * 2 ^ 20
  | 4 => 4 * 2 ^ 20
  | 5 => 4 * 2 ^ 20
  | 6 => 8 * 2 ^ 20
  | 7 => 2 * 2 ^ 20
  | _ => 4096

/-- A COMPAT entry of a manifest, as a range of versions (R425). -/
def compatAt (m : List Byte) (i : Nat) : Nat × Nat := (leAt m (0xA0 + 8 * (i - 1)) 4, leAt m (0xA4 + 8 * (i - 1)) 4)

/-- The first test of a package: fields, ranges, reserved fields and its length (R425, R427). -/
def manifestOk (m : List Byte) (bytes : Nat) : Bool :=
  let c := leAt m 6 1
  let delta := leAt m 0x14 4
  decide (leAt m 0 4 = 0x4D465753) && decide (leAt m 4 2 = 1) && inRange c 1 8 && inRange (leAt m 7 1) 0 3 &&
    inRange (leAt m 0x10 4) 1 (slotBytes c) && inRange delta 8 (slotBytes c + 2 ^ 20) &&
    (if c = 2 then decide (leAt m 0x1C 1 ≤ leAt m 0x1D 1) else decide (leAt m 0x1C 2 = 0)) &&
    (if c = 8 then inRange (leAt m 0x1E 2) 0 3 else decide (leAt m 0x1E 2 = 0)) &&
    (decide (c = 8) || decide (compatAt m c = (0, 0))) && decide (compatAt m 8 = (0, 0)) &&
    zeroAt m 0x100 0x300 && decide (bytes = 2048 + delta)

/-- The key of a manifest is a root key of the ROM, and its signature verifies under it (R423). -/
def manifestSigned (m : List Byte) : Bool :=
  let key := (m.drop 0x400).take 512
  decide ((Config.sha512 key).toNat = Config.romDigest (leAt m 7 1)) &&
    Config.verifies (ofLe key) (m.take 0x600) ((m.drop 0x600).take 512)

/-- The base bytes of a COPY record; none beyond the base image (R426). -/
def copyBytes (base : List Byte) (off n : Nat) : Option (List Byte) :=
  if off + n ≤ base.length then some ((base.drop off).take n) else none

/-- The image that delta records give; none where a record is malformed (R426). -/
def applyDelta (base : Option (List Byte)) : Nat → List Byte → List Byte → Option (List Byte)
  | _, [], out => some out
  | 0, _, _ => none
  | fuel + 1, l, out =>
    let n := leAt l 4 4
    let pad := (n + 7) / 8 * 8
    if l.length < 8 ∨ leAt l 1 3 ≠ 0 then none
    else
      match leAt l 0 1 with
      | 1 =>
        if l.length < 16 then none
        else
          match (base.bind fun b => copyBytes b (leAt l 8 8) n) with
          | some x => applyDelta base fuel (l.drop 16) (out ++ x)
          | none => none
      | 2 =>
        if l.length < 8 + pad ∨ ((l.drop (8 + n)).take (pad - n)).any (· != 0) then none
        else applyDelta base fuel (l.drop (8 + pad)) (out ++ (l.drop 8).take n)
      | 3 => applyDelta base fuel (l.drop 8) (out ++ List.replicate n 0)
      | _ => none

/-- A version lies in a COMPAT range. -/
def compatible (v : Nat) (r : Nat × Nat) : Bool := decide (r.1 ≤ v) && decide (v ≤ r.2)

/-- The compatibility of a package with the active components (R428). -/
def State.compatStatus (s : State) (m : List Byte) (c : Nat) : Option Nat :=
  let others := ((List.range 7).map (· + 1)).filter (· ≠ c)
  let v := leAt m 8 4
  match others.find? fun i => !compatible (s.comp i).active.version (compatAt m i) with
  | some i => some (if i < c then 0x0B08 else 0x0B09)
  | none =>
    if c = 8 then none
    else if (((List.range 8).map (· + 1)).filter (· ≠ c)).all fun i =>
        compatible v ((s.comp i).active.compat.getD (c - 1) (0, 0xFFFFFFFF)) then none
    else some 0x0B09

/-- The image and manifest of a package, as a slot holds them. -/
def imageOf (m image : List Byte) : FwImage :=
  { valid := true, keyIndex := leAt m 7 1, version := leAt m 8 4, svn := leAt m 0xC 4, hash := leAt m 0x20 64
    bytes := image, compat := (List.range 8).map fun i => compatAt m (i + 1), settingsFormat := leAt m 0x18 2
    settingsMin := leAt m 0x1A 2, handMin := leAt m 0x1C 1, handMax := leAt m 0x1D 1, keyFloor := leAt m 0x1E 2 }

/-- Tests 1 to 8 of R427; in RECOVERY tests 6 and 8 are not made, and a delta is refused in the place of test 7 (R436; log entry
118). -/
def State.stageTests (s : State) (m : List Byte) (bytes component : Nat) : Option Nat :=
  let c := leAt m 6 1
  let svn := leAt m 0xC 4
  let base := leAt m 0x60 64
  let recovery := decide (s.dev.bring = .recovery)
  let busy := decide (s.pendingComps ≠ []) || (s.fw.staged.any (· != component)) || s.fw.activating.isSome
  (firstFail
    [(manifestOk m bytes, 0x0B01),
     (decide (c = component), 0x0B01),
     (decide (s.counter 9 ≤ leAt m 7 1), 0x0B03),
     (manifestSigned m, 0x0B02),
     (decide (s.counter c ≤ svn) && !(decide (c = 8) && decide (svn = s.counter 8)), 0x0B04),
     (recovery || !busy, 0x0B0A),
     (decide (base = 0) || !recovery && decide (base = (s.comp c).active.hash), 0x0B05)]).or
    (if recovery then none else s.compatStatus m c)

/-- The slot that a stage writes: the inactive one, or in RECOVERY one that fails verification (R427, R436). -/
def State.stageSlot (s : State) (i : Nat) : Bool :=
  let c := s.comp i
  if s.dev.bring = .recovery ∧ s.verified (c.slot (!c.activeB)) ∧ !s.verified c.active then c.activeB else !c.activeB

/-- A slot's contents replaced. -/
def FwComp.fill (c : FwComp) (b : Bool) (m : FwImage) : FwComp :=
  if b then { c with slotB := m } else { c with slotA := m }

/-- FW_STAGE (R427, R436). Firmware verification does not run outside the approved mode (R445; log entry 119). -/
def State.doFwStage (s : State) (h : CmdHdr) (source bytes component : Nat) : State :=
  let refuse := fun (s : State) (st : Nat) => { s with dev := (s.dev.no st).finish h }
  let recovery := decide (s.dev.bring = .recovery)
  if !aligned source 4096 ∨ !inRange component 1 8 then refuse s 0x000A
  else if (recovery ∧ s.sec.reason = 4) ∨ !s.sec.approved then refuse s 0x0B0F
  else if bytes < 2048 ∨ 2048 + 33 * 2 ^ 20 < bytes then refuse s 0x0B01
  else
    match s.dev.readHost source bytes with
    | none => refuse s 0x0506
    | some l =>
      let m := l.take 2048
      match s.stageTests m bytes component with
      | some st => refuse s st
      | none =>
        let b := s.stageSlot component
        let base := if leAt m 0x60 64 = 0 then none else some (s.comp component).active.bytes
        let out := applyDelta base (l.length / 8 + 1) (l.drop 2048) []
        let image := out.getD []
        let lost := { s.modComp component fun c => c.fill b { c.slot b with valid := false } with
          fw := { (s.modComp component fun c => c.fill b { c.slot b with valid := false }).fw with
            staged := s.fw.staged.filter (· != component) } }
        if out = none ∨ image.length ≠ leAt m 0x10 4 then refuse lost 0x0B06
        else if (Config.sha512 image).toNat ≠ leAt m 0x20 64 then refuse lost 0x0B07
        else if s.fw.flashBad then refuse lost 0x0B0C
        else
          let s := s.modComp component fun c => c.fill b (imageOf m image)
          let s := { s with fw := { s.fw with stagedAt := some (s.dev.now, component, b) } }
          let fw := if recovery then
              { s.fw with written := (s.fw.written.filter fun w => decide (w.1 ≠ component)) ++ [(component, b)] }
            else { s.fw with staged := some component }
          { s with fw := fw, dev := s.dev.complete h 0 (leAt m 8 4) }

/-! ## Activation (R429, R430, R436, R440) -/

/-- The selector names the staged slot, PENDING. -/
def State.switchPending (s : State) (i : Nat) : State :=
  let s := s.select i (!(s.comp i).activeB) true
  { s with fw := { s.fw with staged := none } }

/-- An image confirms: its counter, its settings and its event; an owner record brings its key and KEY_FLOOR (R432, R438,
R440). -/
def State.confirm (s : State) (i : Nat) : State :=
  let m := (s.comp i).active
  let f := s.flash.raise i m.svn
  let f : Flash := if i = 8 then { f.raise 9 m.keyFloor with ownerKey := some (leAt m.bytes 4 512) } else f
  let s := s.modComp i fun c =>
    { c with isPending := false, confirmed := true, fellBack := false, settings := c.shadow.getD c.settings
             settingsFmt := if c.shadow.isSome then m.settingsFormat else c.settingsFmt, shadow := none }
  { s with flash := f, dev := s.dev.event 0x0080 { arg0 := i, arg1 := m.version } }

/-- The hand-over record of the running Damson firmware suits the staged image (R430). -/
def State.handsOver (s : State) : Bool :=
  let c := s.comp 2
  inRange c.active.handMax (c.slot (!c.activeB)).handMin (c.slot (!c.activeB)).handMax

/-- A warm reset is due (R257, R430). -/
def State.dueReset (s : State) : State := { s with dev := { s.dev with mbx := { s.dev.mbx with resetDue := true } } }

/-- FW_ACTIVATE outside RECOVERY (R429, R430). -/
def State.activateStaged (s : State) (h : CmdHdr) : State :=
  match s.fw.staged with
  | none => { s with dev := (s.dev.no 0x0B0B).finish h }
  | some i =>
    if s.fw.flashBad then { s with dev := (s.dev.no 0x0B0C).finish h }
    else
      let done := fun (s : State) (r : Nat) => { s with dev := s.dev.complete h 0 r }
      if i = 1 then done (s.switchPending 1) 0
      else if i = 8 then done ((s.switchPending 8).confirm 8) 0
      else if s.dev.bring = .hold ∨ (i = 2 ∧ !s.handsOver) then (done (s.switchPending i) (2 ^ 63)).dueReset
      else
        { s with
          fw := { s.fw with staged := none, activating := some i, reverting := false, activateCmd := some h }
          dev := s.dev.askPause }

/-- The slot of a component that would boot after RECOVERY: the one written, or the one that verifies (R436). -/
def State.wouldBoot (s : State) (i : Nat) : Option (Bool × FwImage) :=
  let c := s.comp i
  let pick := match s.fw.written.find? fun w => decide (w.1 = i) with
    | some w => [w.2, c.activeB, !c.activeB]
    | none => [c.activeB, !c.activeB]
  (pick.find? fun b => s.boots i (c.slot b)).map fun b => (b, c.slot b)

/-- The images of a set meet every COMPAT entry of one another (R428, R436). -/
def allCompatible (ms : List (Nat × FwImage)) : Bool :=
  ms.all fun a => ms.all fun b =>
    decide (a.1 = b.1) || decide (b.1 = 8) || compatible b.2.version (a.2.compat.getD (b.1 - 1) (0, 0xFFFFFFFF))

/-- FW_ACTIVATE in RECOVERY (R436). -/
def State.activateRecovery (s : State) (h : CmdHdr) : State :=
  let refuse := fun (st : Nat) => { s with dev := (s.dev.no st).finish h }
  let ms := ((List.range 8).map (· + 1)).filterMap fun i => (s.wouldBoot i).map fun m => (i, m.2)
  if s.dev.env.recovery then refuse 0x0B0E
  else if ms.length < 8 then refuse 0x0B0D
  else if !allCompatible ms then refuse 0x0B09
  else
    let s := s.fw.written.foldl (fun s w => s.select w.1 w.2 true) s
    ({ s with dev := s.dev.complete h 0 0 }).dueReset

/-- FW_ACTIVATE (R429, R436). -/
def State.doFwActivate (s : State) (h : CmdHdr) : State :=
  if s.dev.bring = .recovery then s.activateRecovery h else s.activateStaged h

/-- FW_RECOVERY: the completion is posted, and a warm reset into RECOVERY is due (R435). -/
def State.doFwRecovery (s : State) (h : CmdHdr) : State :=
  let d := s.dev.complete h 0 0
  { s with dev := { d with mbx := { d.mbx with resetDue := true, recoveryDue := true } } }

/-! ## The service pause (R429) -/

/-- A running task is pre-empted at a pause; collectives complete (R289, R291, R429). -/
def Dev.quiesce (d : Dev) : Dev :=
  let ts := (d.tasksIn .running).filter fun t =>
    decide ((d.taskHdr t.1 t.2).type ≠ 6) && !((d.slot t.1).run.getD t.2 {}).marked
  let d := ts.foldl (fun (d : Dev) t =>
    d.modSlot t.1 fun g => { g with run := upd g.run t.2 fun r => { r with marked := true } }) d
  let d := d.bumpWrap Off.grfPreemptions ts.length
  let d := d.cal.passes.foldl (fun (d : Dev) c => (d.abandonPass c.phys).makePending c.phys c.kind) d
  { d with lnk := { d.lnk with ports := d.lnk.ports.map fun p => { p with wasUp := decide (p.state = .up), wasPlan := p.plan } } }

/-- PAUSE_TICK: at tick P the device stops issuing and pre-empts; the activating device switches its selector and swaps
(R429, R433). -/
def State.pauseTick (s : State) : State :=
  match s.dev.grf.pauseAt with
  | none => s
  | some p =>
    if s.dev.grf.paused ∨ s.dev.grf.tick < p then s
    else
      let d := { s.dev with grf := { s.dev.grf with paused := true, pauseStart := s.dev.grf.tickTime, resumeAt := 0 } }
      let s := { s with dev := d.quiesce }
      match s.fw.activating with
      | some i =>
        if d.grf.pauser = d.deviceId then
          let s := s.select i (!(s.comp i).activeB) (!s.fw.reverting)
          { s with fw := { s.fw with swapping := some i } }
        else s
      | none => s

/-- The device is quiesced: nothing runs, no fault is pending and no round or pass is in progress (R429). -/
def Dev.quiesced (d : Dev) : Bool :=
  (d.tasksIn .running).isEmpty && d.grf.colls.isEmpty && d.pln.rounds.isEmpty && d.cal.passes.isEmpty &&
    d.mmu.faults.all fun f => decide (f.2.outcome ≠ 0)

/-- The swap time of a component in ns (R420). -/
def swapTime : Nat → Nat
  | 2 => 34000000
  | 3 => 12000000
  | 4 => 6000000
  | 5 => 6000000
  | 6 => 20000000
  | 7 => 8000000
  | _ => 0

/-- SWAP_END: the new image runs, its confirmation window starts, and the resume timestamp is named (R429, R432). -/
def State.swapEnd (s : State) : State :=
  match s.fw.swapping with
  | none => s
  | some i =>
    if !s.dev.quiesced then s
    else
      let d := { s.dev with now := max s.dev.now (s.dev.grf.pauseStart + swapTime i) }
      let d := if i = 6 then { d with lnk := { d.lnk with linkFw := (s.comp 6).active.version } } else d
      let s := ({ s with dev := d, fw := { s.fw with swapping := none } }).checkSettings i
      let s := if s.fw.reverting then s else s.startWindow
      let d := s.dev
      let apart := d.lnk.formed && !d.lnk.outOfPlan && decide (d.lnk.leader ≠ d.deviceId)
      { s with dev := if apart then d.notice d.lnk.leader 0xA 2 [] else d.nameResume }

/-! ## Confirmation and fallback (R420, R432, R433, R439) -/

/-- The start of the confirmation window. -/
def State.windowStart (s : State) : Nat := s.fw.windowEnd - 120 * 10 ^ 9

/-- The time that must pass from the start of the window until `ns` have gone by since an event, or since that start
(R420; log entry 118). -/
def State.clearAfter (s : State) (event ns : Nat) : Nat := (event - s.windowStart) + ns

/-- The last LOGIC_CHECK of a unit class. -/
def Dev.lastLogicCheck (d : Dev) (cls : Nat) : Nat := (look d.evr.logicAt cls).getD 0

/-- Every active sequence entry has a valid result, from an input that is connected (R420, R456, R468). -/
def Dev.entriesValid (d : Dev) : Bool :=
  (List.range 32).all fun n => !bit (d.seqWord n) 31 || (d.bitAt (resultOff n) 31 && !d.bitAt (resultOff n) 30)

/-- The health condition of a component, and the time from the window's start after which it can hold (R420). -/
def State.healthy (s : State) : Nat → Bool × Nat
  | 1 => (!(s.comp 2).isPending, 0)
  | 2 => (decide (1000 ≤ s.fw.health), 0)
  | 3 => (decide (1000 ≤ s.fw.health), 0)
  | 4 => (true, s.clearAfter (s.dev.lastLogicCheck 2) (60 * 10 ^ 9))
  | 5 => (true, s.clearAfter (s.dev.lastLogicCheck 3) (60 * 10 ^ 9))
  | 6 => (decide (s.dev.now ≤ s.windowStart + 5 * 10 ^ 9) &&
      s.dev.lnk.ports.all fun p => !p.wasUp || decide (p.state = .up ∧ p.plan = p.wasPlan), 0)
  | 7 => ((s.dev.thm.sensors.all fun t => decide (t.bad = 0)) && s.dev.entriesValid,
      s.clearAfter s.dev.thm.badAt (10 * 10 ^ 9))
  | _ => (true, 0)

/-- The next component in confirmation, in the same window. -/
def State.nextConfirming (s : State) (i : Nat) : State :=
  { s with fw := { s.fw with confirming := (s.pendingComps.filter (· ≠ i)).head?, counterRetry := false } }

/-- FW_CONFIRM: the image whose window runs confirms when its health condition holds; a counter write that fails is retried
at each tick (R432, R439). -/
def State.fwConfirm (s : State) : State :=
  match s.fw.confirming with
  | none => s
  | some i =>
    let (ok, after) := s.healthy i
    let now := max s.dev.now (s.windowStart + after)
    if !ok ∨ s.fw.windowEnd < now then s
    else
      let s := { s with dev := { s.dev with now := now } }
      if s.fw.flashBad then { s with fw := { s.fw with counterRetry := true } }
      else (s.confirm i).nextConfirming i

/-- CONFIRMATION_WINDOW_END: the image is rejected, and the previous slot is activated: at once, by a warm reset, or through
a pause (R433). -/
def State.windowOver (s : State) : State :=
  match s.fw.confirming with
  | none => s
  | some i =>
    let s := { s with dev := { s.dev with now := max s.dev.now s.fw.windowEnd } }
    let s := (s.modComp i fun c => { c with fellBack := true, shadow := none }).fwEvent 4 i
    let s := s.nextConfirming i
    let back := (s.select i (!(s.comp i).activeB) false).modComp i fun c => { c with fellBack := true }
    if i = 2 then back.dueReset
    else if i = 1 ∨ i = 8 then back
    else
      { s with
        fw := { s.fw with activating := some i, reverting := true, activateCmd := none }
        dev := s.dev.askPause }

/-! ## The version records (R447) -/

/-- HUB_FW_SELECT: a snapshot of a component's version record (R447). -/
def State.fwSelect (s : State) (v : Nat) : State :=
  let i := v % 16
  let l := if inRange i 1 8 then s.versionRecord i else []
  let put4 := fun (d : Dev) (k : Nat) => d.setReg (Off.hubFwRecord + 4 * k) (leAt l (4 * k) 4)
  { s with dev := (List.range 4).foldl put4 (s.dev.setReg Off.hubFwSelect i) }

/-- FW_STAGE (R427). -/
def execFwStage (h : CmdHdr) (source bytes component : Nat) (s : State) : Host.Outcome State Fault Refusal :=
  .next (s.command h 0x0030 fun h s => s.doFwStage h source bytes component)
/-- FW_ACTIVATE (R429). -/
def execFwActivate (h : CmdHdr) (s : State) : Host.Outcome State Fault Refusal :=
  .next (s.command h 0x0031 fun h s => s.doFwActivate h)
/-- FW_RECOVERY (R435). -/
def execFwRecovery (h : CmdHdr) (s : State) : Host.Outcome State Fault Refusal :=
  .next (s.command h 0x0032 fun h s => s.doFwRecovery h)
/-- BOOT_ROM (R422). -/
def execBootRom (selftest : Bool) (s : State) : Host.Outcome State Fault Refusal := .next (s.bootRom selftest)
/-- ENTER_FW (R266). -/
def execEnterFw (s : State) : Host.Outcome State Fault Refusal := .next s.enterFw
/-- STORE_CHECK (R264). -/
def execStoreCheck (s : State) : Host.Outcome State Fault Refusal := .next s.storeCheck
/-- PAUSE_TICK (R429). -/
def execPauseTick (s : State) : Host.Outcome State Fault Refusal := .next s.pauseTick
/-- SWAP_END (R429). -/
def execSwapEnd (s : State) : Host.Outcome State Fault Refusal := .next s.swapEnd
/-- FW_CONFIRM (R432). -/
def execFwConfirm (s : State) : Host.Outcome State Fault Refusal := .next s.fwConfirm
/-- CONFIRMATION_WINDOW_END (R433). -/
def execConfirmationWindowEnd (s : State) : Host.Outcome State Fault Refusal := .next s.windowOver
/-- HUB_FW_SELECT (R447). -/
def execHubFwSelect (v : Word) (s : State) : Host.Outcome State Fault Refusal :=
  .next (if s.running then s.fwSelect v.toNat else s)

end Sys2Proof.Machine
end

