-- ==== Sys2Proof/Machine/Tiers.lean ====
section
/-! DEFINITION. Tier moves: promotion and demotion of tiles by use at the end of a tier window (R352-R355). -/

namespace Sys2Proof.Machine

/-- A setting of R356 in force: 0 TIER_FRAMES, 1 PROMOTE_USES, 2 DEMOTE_USES, 3 TIER_MOVES, 4 TIER_SHARE. -/
def Dev.tierCfg (d : Dev) (i : Nat) : Nat := d.hub.cfgTier.getD i 0

/-- No tier move starts (R354). -/
def Dev.movesHeld (d : Dev) : Bool := d.bitAt Off.plnCtrl 2 || d.bitAt Off.curCtrl 7 || d.bitAt Off.plnCtrl 0

/-- The candidates of a die: DIGITAL tiles used often enough, in descending count, ties to the lower tile (R353). -/
def Dev.candidates (d : Dev) (die : Nat) : List (Nat × Nat) :=
  let can := d.pln.logical.filter fun x =>
    decide (x.1 / 6144 = die) && x.2.phys.isNone && x.2.spare.isNone && decide (x.2.state = .digital) &&
    decide (d.tierCfg 1 ≤ x.2.uses) && !d.editionAbsent x.2.edition && !d.srv.releasing.contains x.2.edition
  sortBy (fun (a b : Nat × Nat) => decide (b.2 < a.2)) (can.map fun x => (x.1, x.2.uses))

/-- The READY tile of a die that a candidate may displace: the lowest count, ties to the higher tile, at most DEMOTE_USES and
below the candidate's (R353). -/
def Dev.toDemote (d : Dev) (die uses : Nat) : Option (Nat × Nat × Nat) :=
  let can := d.pln.logical.filterMap fun x =>
    match x.2.phys with
    | some p =>
      if dieOf p = die ∧ (d.phys p).state = .ready ∧ !(x.2.due ++ x.2.held).contains .toDigital ∧
          !d.editionAbsent x.2.edition ∧ !d.srv.releasing.contains x.2.edition then some (x.1, p, x.2.uses) else none
    | none => none
  let low := can.foldl (fun (b : Option (Nat × Nat × Nat)) x =>
    match b with
    | none => some x
    | some y => if x.2.2 ≤ y.2.2 then some x else b) none
  low.filter fun x => decide (x.2.2 ≤ d.tierCfg 2) && decide (x.2.2 < uses)

/-- A promotion starts on a physical tile (R353). -/
def Dev.promote (d : Dev) (l p uses : Nat) : Dev :=
  let d := (d.modLog l fun t => { t with spare := some p }).queueProgram l p
  { d with srv := { d.srv with tierMoves := d.srv.tierMoves + 1 } }.event 0x0180 { arg0 := l, arg1 := uses, arg2 := p }

/-- One candidate: a FREE tile of its die, or one that a demotion frees; otherwise it waits for the next window
(R353, R354). -/
def Dev.moveTile (d : Dev) (die : Nat) (c : Nat × Nat) : Dev :=
  let used := d.reg Off.plnBudgetUsed + d.srv.tierMoves
  if d.tierCfg 3 ≤ d.srv.tierMoves ∨ d.tierCfg 4 * d.reg Off.plnBudget ≤ 100 * used then d
  else
    match d.freesOf die with
    | p :: _ => (d.modPhys p fun t => { t with logical := some c.1 }).promote c.1 p c.2
    | [] =>
      match d.toDemote die c.2 with
      | none => d
      | some (l, p, uses) =>
        let d := d.modLog l fun t => { t with due := t.due ++ [.toDigital] }
        (d.event 0x0181 { arg0 := l, arg1 := uses, arg2 := p }).promote c.1 p c.2

/-- TIER_WINDOW_END: tiles are promoted and demoted by use, and the counts restart (R352-R354). -/
def Dev.tierWindowEnd (d : Dev) : Dev :=
  if d.tierCfg 0 = 0 ∨ d.srv.tierFrames < d.tierCfg 0 then d
  else
    let d := { d with srv := { d.srv with tierMoves := 0, tierFrames := 0 } }
    let d := if d.movesHeld then d
      else (List.range 4).foldl (fun d die => (d.candidates die).foldl (fun d c => d.moveTile die c) d) d
    { d with
      srv := { d.srv with tierMoves := 0 }
      pln := { d.pln with logical := d.pln.logical.map fun x => (x.1, { x.2 with uses := 0 }) } }

/-- TIER_WINDOW_END (R353). -/
def execTierWindowEnd (s : State) : Host.Outcome State Fault Refusal := lift Dev.tierWindowEnd s

end Sys2Proof.Machine
end

