-- ==== Sys2Proof/Machine/Commands.lean ====
section
/-! DEFINITION. Damson takes a command from a slot: the mailbox whose turn it is, the header and the body, and the command
carried out (R249-R253, R257, R259). -/

namespace Sys2Proof.Machine

/-- The header of a slot, as R251 lays it out. -/
def parseHeader (m : Nat) (l : List Byte) : CmdHdr :=
  let f := leAt l 3 1
  let op := leAt l 0 2
  let body := (l.drop 64).take 192
  let clean := decide (f / 4 = 0) && zeroAt l 0x18 40 && (match cmdSpec op with
    | some c => bodyReserved c body
    | none => true) && !(decide (op = 0x0011) && mapReserved (bits (leAt body 0 1) 5 4) (leAt body 0x18 8))
  { mbx := m, opcode := op, version := leAt l 2 1, fence := bit f 1, silent := bit f 0, seq := leAt l 4 4
    hostTs := leAt l 8 8, bodyBytes := leAt l 0x10 4, tag := leAt l 0x14 4, reservedNz := !clean }

/-- The 256 bytes of a command slot; a byte that the host never wrote reads 0. -/
def Mailbox.slot (b : Mailbox) (i : Nat) : List Byte := (List.range 256).map fun k => (look b.slots (256 * i + k)).getD 0

/-- The next slot of a mailbox was written again after its doorbell (R249). -/
def Dev.slotRewritten (d : Dev) (m : Nat) : Bool := (d.box m).rewritten.contains ((d.box m).consumed % 16)

/-- The command in the next slot of a mailbox; free bytes where the host wrote the slot again after its doorbell (R249, log
entry 3). -/
def Dev.nextSlot (d : Dev) (m : Nat) : List Byte :=
  if d.slotRewritten m then (d.drawBytes 256).1 else (d.box m).slot ((d.box m).consumed % 16)

/-- Damson may take the next command of a mailbox: a slot waits, and R250, R251, R253 and R269 allow it. -/
def Dev.mayTake (d : Dev) (m : Nat) : Bool :=
  decide ((d.box m).doorbell ≠ (d.box m).consumed) && d.takeable m (parseHeader m (d.nextSlot m)).fence

/-- The mailbox served next: in turn, after the one served last (R259). -/
def Dev.turn (d : Dev) : Option Nat := ((List.range 17).map fun i => (d.mbx.served + 1 + i) % 17).find? d.mayTake

/-- The body of REQUEST_ADMIT (R257). -/
def parseAdmit (b : List Byte) : AdmitBody :=
  { id := leAt b 0 4, adapter := leAt b 4 4, follow := bit (leAt b 8 1) 0, speculate := bit (leAt b 8 1) 1
    maxTokens := leAt b 0xC 4, seed := leAt b 0x10 8, ring := leAt b 0x18 8, ringEntries := leAt b 0x20 4
    promptTokens := leAt b 0x24 4, prompt := leAt b 0x28 8, sampling := leAt b 0x30 8, pfx := leAt b 0x38 4 }

/-- The commands that act on the device alone, by opcode and body (R257). -/
def Dev.cmdEffect (d : Dev) (h : CmdHdr) (b : List Byte) : Dev :=
  let slot := leAt b 0 1 % 16
  match h.opcode with
  | 0x0001 => d.doHello h (leAt b 0 1) (leAt b 1 1) (bit (leAt b 2 1) 0) (leAt b 4 4)
  | 0x0005 => d.doResetWarm h
  | 0x0010 => d.doSpaceSet h slot (bit (leAt b 1 1) 0)
  | 0x0011 =>
    (d.doMap slot (bits (leAt b 0 1) 5 4) (leAt b 1 1 % 4) (bit (leAt b 1 1) 2) (bit (leAt b 1 1) 3) (leAt b 8 8)
      (leAt b 0x10 8) (leAt b 0x18 8)).finish h
  | 0x0012 => (d.doUnmap slot (leAt b 8 8) (leAt b 0x10 8)).finish h
  | 0x0020 => (d.doCalibrate (bits (leAt b 0 4) 19 0) (bits (leAt b 0 4) 31 30) (leAt b 4 4)).finish h
  | 0x0021 => d.doReferenceSet h (bit (leAt b 0 1) 0)
  | 0x0040 => (d.fabricForm (bit (leAt b 0 1) 0)).finish h
  | 0x0041 => (d.fabricCut (bits (leAt b 0 2) 2 0) (bits (leAt b 0 2) 6 4) (bits (leAt b 0 2) 10 8)).finish h
  | 0x0050 => (d.editionSwitch (leAt b 0 4)).finish h
  | 0x0051 => (d.editionRelease (leAt b 0 4)).finish h
  | 0x0100 => (d.graphLoad slot (bits (leAt b 0 1) 7 4) (leAt b 8 8)).finish h
  | 0x0101 => Dev.orLater (d.graphRun h slot) h
  | 0x0102 => Dev.orLater (d.graphCancel h slot) h
  | 0x0103 => (d.graphUnload slot).finish h
  | 0x0110 => (d.admission (parseAdmit b)).finish h
  | 0x0111 => (d.retire (leAt b 0 4)).finish h
  | 0x0120 => (d.adapterLoad (leAt b 0 4) (leAt b 4 1 % 4) (leAt b 8 8) (leAt b 0x10 8)).finish h
  | 0x0121 => (d.adapterUnload (leAt b 0 4)).finish h
  | _ => d.complete h 0 0

/-- A command carried out, by opcode and body (R257). -/
def State.cmdEffect (s : State) (h : CmdHdr) (b : List Byte) : State :=
  match h.opcode with
  | 0x0002 => s.doIdentify h (leAt b 0 8)
  | 0x0003 => s.doConfigRead h (leAt b 0 8) (leAt b 8 4)
  | 0x0004 => s.doConfigWrite h (leAt b 0 8) (leAt b 8 4) (bit (leAt b 0xC 1) 0)
  | 0x0030 => s.doFwStage h (leAt b 0 8) (leAt b 8 4) (leAt b 0xC 1)
  | 0x0031 => s.doFwActivate h
  | 0x0032 => s.doFwRecovery h
  | _ => { s with dev := s.dev.cmdEffect h b }

/-- COMMAND_TAKE: the next command of the mailbox whose turn it is leaves its slot, is checked and is carried out
(R249-R259). -/
def State.commandTake (s : State) : State :=
  if !s.running then s
  else
    match s.dev.turn with
    | none => s
    | some m =>
      let l := s.dev.nextSlot m
      let d := if s.dev.slotRewritten m then (s.dev.drawBytes 256).2 else s.dev
      let d := { d with mbx := { d.mbx with served := m } }.modBox m fun b =>
        { b with consumed := (b.consumed + 1) % 32, rewritten := b.rewritten.filter (· ≠ b.consumed % 16) }
      match d.accept (parseHeader m l) with
      | (none, d) => { s with dev := d }
      | (some h, d) => ({ s with dev := d }).cmdEffect h ((l.drop 64).take 192)

/-- COMMAND_TAKE (R253). -/
def execCommandTake (s : State) : Host.Outcome State Fault Refusal := .next s.commandTake

end Sys2Proof.Machine
end

