-- ==== Sys2Proof/Machine/Power.lean ====
section
/-! DEFINITION. Temperature sensors, the power governor, power domains and the telemetry page (R458-R467). -/

namespace Sys2Proof.Machine

/-! ## Sensors (R458-R460) -/

/-- The class of a sensor: 0 hub, 1 plane, 2 HBM (R458). -/
def sensorClass (n : Nat) : Nat := if n < 24 then 0 else if n < 56 then 1 else 2

/-- The sensors of a class (R458). -/
def classSensors (c : Nat) : List Nat := (List.range 72).filter fun n => decide (sensorClass n = c)

/-- The register of a sensor. -/
def sensorOff (n : Nat) : Nat := Off.thmSensor + 4 * n

/-- The warning and throttle levels of a class, in units of 0.25 °C (R459). -/
def Dev.levels (d : Dev) (c : Nat) : Int × Int :=
  let off := Off.thmLevelsHub + 4 * c
  (4 * d.fld off 7 0, 4 * d.fld off 15 8)

/-- A level with hysteresis: reached at or above it, cleared below its clear level (R459). -/
def levelNow (was : Bool) (reading level clear : Int) : Bool :=
  if level ≤ reading then true else if reading < level - clear then false else was

/-- A sensor of a class stands at throttle, or is FAULT, which holds its class there (R460). -/
def Dev.classThrottle (d : Dev) (c : Nat) : Bool :=
  (classSensors c).any fun n => d.bitAt (sensorOff n) 18 || d.bitAt (sensorOff n) 19

/-- A sensor of a class stands at warning. -/
def Dev.classWarning (d : Dev) (c : Nat) : Bool := (classSensors c).any fun n => d.bitAt (sensorOff n) 17

/-- THM_ACTIVE follows the sensors; a class that enters warning or throttle sets its bit and records the event (R460). -/
def Dev.judgeClass (d : Dev) (c n reading : Nat) : Dev :=
  let w := d.classWarning c
  let t := d.classThrottle c
  let hadW := d.bitAt Off.thmActive c
  let hadT := d.bitAt Off.thmActive (3 + c)
  let num := fun (b : Bool) => if b then 1 else 0
  let d := (d.setFld Off.thmActive c c (num w)).setFld Off.thmActive (3 + c) (3 + c) (num t)
  let d := if w && !hadW then d.flagEvent Off.thmStatus (1 + c) { arg0 := n, arg1 := reading } else d
  if t && !hadT then d.flagEvent Off.thmStatus (4 + c) { arg0 := n, arg1 := reading } else d

/-- SENSOR_SAMPLE: a reading in units of 0.25 °C, or none that is valid (R458-R460). Plane-die temperatures feed the
triggers of calibration (R169). -/
def Dev.sensorSample (d : Dev) (n : Nat) (reading : Option Int) : Dev :=
  if 72 ≤ n ∨ !d.env.pwrgd then d
  else
    let off := sensorOff n
    let c := sensorClass n
    let (warn, throttle) := d.levels c
    let bad := (d.thm.sensors.getD n {}).bad
    let setBad := fun (d : Dev) (k : Nat) =>
      { d with thm := { d.thm with sensors := upd d.thm.sensors n fun t => { t with bad := k } } }
    match reading with
    | none =>
      let d := setBad { d with thm := { d.thm with badAt := d.now } } (bad + 1)
      if bad + 1 < 3 ∨ d.bitAt off 19 then d
      else ((d.setBit off 19).flagEvent Off.thmStatus 7 { arg0 := n }).judgeClass c n 0
    | some r =>
      let num := fun (b : Bool) (k : Nat) => if b then 2 ^ k else 0
      let w := levelNow (d.bitAt off 17) r warn 16
      let t := levelNow (d.bitAt off 18) r throttle 24
      let d := setBad d 0
      let d := d.setReg off (num t 18 + num w 17 + num (decide (throttle - 20 ≤ r)) 16 + unsigned r 16)
      let d := d.judgeClass c n (unsigned r 64)
      if c = 1 then d.tempTrigger ((n - 24) / 8) else d

/-! ## The governor (R464, R465) -/

/-- The last result of an entry (R464). -/
def Dev.lastCode (d : Dev) (n : Nat) : Nat := d.fld (resultOff n) 11 0

/-- Module power in µW: 16 mV × 6 mA and 4 mV × 2 mA per code product (R449, R464). -/
def Dev.powerMicro (d : Dev) : Nat := 96 * d.lastCode 1 * d.lastCode 0 + 8 * d.lastCode 2 * d.lastCode 3

/-- The limit in force in W (R464). -/
def Dev.powerLimit (d : Dev) : Nat := min (d.fld Off.pwrLimit 9 0) (d.fld Off.pwrLimit 25 16)

/-- The governor's floor (R465). -/
def Dev.floorLevel (d : Dev) : Nat :=
  if d.classThrottle 0 || d.classThrottle 1 || d.classThrottle 2 then d.fld Off.thmCtrl 3 0 else 0

/-- The level after a period (R465). -/
def nextLevel (l p limit floor : Nat) : Nat :=
  let l := if limit * 1000000 < p then min 15 (l + 1) else if p < limit * 950000 then l - 1 else l
  max l floor

/-- GOVERNOR_PERIOD: P is computed, and the level adjusted; during a service pause the limits keep their values
(R431, R464-R466). A board limit takes effect here (R482). -/
def Dev.governorPeriod (d : Dev) : Dev :=
  if !d.env.pwrgd then d
  else
    let d := match d.pwr.boardDue with
      | some w => { d.setFld Off.pwrLimit 25 16 w with pwr := { d.pwr with boardDue := none } }
      | none => d
    let p := d.powerMicro
    let d := d.setReg Off.pwrModule (max (d.fld Off.pwrModule 31 16) (p / 1000000) * 2 ^ 16 + min (p / 100000) 65535)
    let floor := d.floorLevel
    let was := d.pwr.level
    let l := if d.grf.paused then was else nextLevel was p d.powerLimit floor
    let d := { d with pwr := { d.pwr with level := l } }
    let d := d.setReg Off.pwrGovernor ((1024 - 64 * l) * 2 ^ 16 + floor % 16 * 2 ^ 8 + l)
    let d := if l = 0 then d else d.bumpWrap Off.pwrLimitedPeriods
    if was = 0 ∧ l ≠ 0 then d.flagEvent Off.pwrStatus 3 { arg1 := l } else d

/-! ## Power domains (R462, R463) -/

/-- A near-store half holds an allocated region (R211, R463): an extent, or in half 0 the outlier tables and bank copies of
programmed tiles (log entry 60). -/
def Dev.halfAllocated (d : Dev) (half : Nat) : Bool :=
  (decide (half = 0) && d.pln.phys.any fun x => x.2.logical.isSome) ||
    d.mmu.alloc.any fun e => memKind e.1 == some (if half = 0 then MemKind.near0 else MemKind.near1)

/-- A set of domains requested off is refused (R463). -/
def Dev.refusesOff (d : Dev) (v : Nat) : Bool :=
  decide (bits v 37 32 = 63) || decide (bits v 41 38 = 15) || (bit v 42 && d.halfAllocated 0) || (bit v 43 && d.halfAllocated 1)

/-- PWR_OFF_LO and PWR_OFF_HI (R463). -/
def Dev.pwrOffWrite (d : Dev) (hi : Bool) (v : Nat) : Dev :=
  let off := if hi then withBits d.pwr.off 49 32 (v % 2 ^ 18) else withBits d.pwr.off 31 0 v
  if d.refusesOff off then d.setBit Off.pwrStatus 4
  else
    let d := { d with pwr := { d.pwr with off := off } }
    (d.setReg Off.pwrOffLo (off % 2 ^ 32)).setReg Off.pwrOffHi (off / 2 ^ 32)

/-- An operation, running, saved or in its tail, names a tile of a plane bank (R463). -/
def Dev.bankBusy (d : Dev) (n : Nat) : Bool :=
  let ops := (match d.pln.op with
    | some o => [o]
    | none => []) ++ d.pln.saved ++ d.pln.tails
  ops.any fun o => o.entries.any fun e =>
    match d.log e.logical with
    | some t => match t.phys with
      | some p => decide (bankDomain p = n)
      | none => false
    | none => false

/-- The wait condition of a domain has cleared (R463). -/
def Dev.domainQuiet (d : Dev) (n : Nat) : Bool :=
  if n < 32 then !d.bankBusy n && !(d.pln.rounds.any fun r => r.tiles.any fun x => decide (bankDomain x.2 = n))
  else if n < 38 then d.wde.tasks.isEmpty
  else if n < 42 then d.grf.pip.all fun p => decide (p.core / 32 ≠ n - 38)
  else if n < 44 then !d.halfAllocated (n - 42)
  else !d.portBusy (d.logicalPort (n - 44))

/-- The physical tiles of a plane bank that differ from a new device's. -/
def Dev.bankTiles (d : Dev) (n : Nat) : List Nat := (d.pln.phys.map (·.1)).filter fun p => decide (bankDomain p = n)

/-- DOMAIN_SWITCH_OFF: a domain requested off switches off once its wait condition has cleared (R463). The near store is of
phase-change cells, and keeps what it holds (R17; log entry 103). -/
def Dev.domainSwitchOff (d : Dev) (n : Nat) : Dev :=
  if 50 ≤ n ∨ !bit d.pwr.off n ∨ bit d.pwr.stateOff n ∨ !d.domainQuiet n then d
  else
    let d := { d with pwr := { d.pwr with stateOff := withBits d.pwr.stateOff n n 1 } }
    if n < 32 then (d.bankTiles n).foldl Dev.abandonPass d
    else if 44 ≤ n then
      let p := n - 44
      let d := if (d.port p).state = .up then d.linkFailure p 0 else d
      d.modPort p fun t => { t with state := .off, lanes := 0 }
    else d

/-- A tile whose bank is on again takes its active bank from the near-store copy, and a tile of Fine grade gets a TRACK pass
where all triggers are active; one whose copy cannot be read becomes UNCALIBRATED and gets a FINE pass (R166, R169, R170,
R402). -/
def Dev.reloadBank (d : Dev) (p : Nat) : Dev :=
  let (ok, d) := d.loadCopy p
  if ok then (d.modPhys p fun t => { t with active := t.nearCopy }).fineTrigger p 1 0
  else if (d.phys p).nearCopyOk then
    ((d.setPhysState p .uncalibrated).modPhys p fun t => { t with active := {}, nearCopyOk := false, grade := 0 }).makePending
      p 2
  else d

/-- DOMAIN_ON: a domain no longer requested off is ready after its on time: a bank reloads its trims and gets a TRACK pass
(R166), a port listens or trains (R358, R462). -/
def Dev.domainOn (d : Dev) (n : Nat) : Dev :=
  if 50 ≤ n ∨ bit d.pwr.off n ∨ !bit d.pwr.stateOff n then d
  else
    let d := { d with pwr := { d.pwr with stateOff := withBits d.pwr.stateOff n n 0 } }
    if n < 32 then
      (d.bankTiles n).foldl (fun (d : Dev) p =>
        let t := d.phys p
        if t.logical = none ∨ t.state = .free ∨ t.state = .programming then d else d.reloadBank p) d
    else if 44 ≤ n then
      let p := n - 44
      if !d.portEnabled p then d
      else if d.bring = .fw ∨ d.bring = .hold then d.modPort p fun t => { t with state := .listen }
      else if d.linkOn then
        d.modPort p fun t => { t with state := if d.lnk.outOfPlan then .isolated else .training, plan := 0, lanes := 0 }
      else d
    else d

/-! ## Telemetry (R467) -/

/-- The hottest reading of a class (R467). -/
def Dev.hottestOf (d : Dev) (c : Nat) : Nat :=
  unsigned ((classSensors c).foldl (fun (a : Int) n => max a (signed (d.fld (sensorOff n) 15 0) 16)) (-32768)) 16

/-- The telemetry page with a SEQUENCE (R467). -/
def Dev.telemetryPage (d : Dev) (q : Nat) : List Byte :=
  let head := le q 4 ++ le 0 4 ++ le d.now 8 ++ le (d.fld Off.pwrModule 15 0) 4 ++ le d.pwr.level 1 ++
    le (d.fld Off.pwrGovernor 11 8) 1 ++ (List.range 3).flatMap fun c => le (d.hottestOf c) 2
  let pad := fun (l : List Byte) (n : Nat) => (l ++ List.replicate n 0).take n
  let sensors := (List.range 72).flatMap fun n => le (d.fld (sensorOff n) 15 0) 2
  let results := (List.range 32).flatMap fun n => le (d.reg (resultOff n)) 4
  pad (pad (pad head 0x40 ++ sensors) 0x100 ++ results ++ le d.pwr.stateOff 8) 0xFFC ++ le q 4

/-- TELEMETRY_REFRESH: the page is rewritten; SEQUENCE is odd meanwhile, and even again afterwards (R467). -/
def Dev.telemetryRefresh (d : Dev) : Dev :=
  let q := (d.pwr.telemetrySeq + 2) % 2 ^ 32
  { d with pwr := { d.pwr with telemetry := d.telemetryPage q, telemetrySeq := q } }

/-- SENSOR_SAMPLE (R458). -/
def execSensorSample (n : Nat) (reading : Option Int) (s : State) : Host.Outcome State Fault Refusal :=
  lift (·.sensorSample n reading) s
/-- GOVERNOR_PERIOD (R465). -/
def execGovernorPeriod (s : State) : Host.Outcome State Fault Refusal := lift Dev.governorPeriod s
/-- PWR_OFF (R463). -/
def execPwrOff (hi : Bool) (v : Word) (s : State) : Host.Outcome State Fault Refusal := hostWrite (·.pwrOffWrite hi v.toNat) s
/-- DOMAIN_SWITCH_OFF (R463). -/
def execDomainSwitchOff (n : Nat) (s : State) : Host.Outcome State Fault Refusal := lift (·.domainSwitchOff n) s
/-- DOMAIN_ON (R462). -/
def execDomainOn (n : Nat) (s : State) : Host.Outcome State Fault Refusal := lift (·.domainOn n) s
/-- TELEMETRY_REFRESH (R467): the page stops while the housekeeping firmware is swapped (R466). -/
def execTelemetryRefresh (s : State) : Host.Outcome State Fault Refusal :=
  .next (if !s.dev.env.pwrgd ∨ s.dev.bring = .rom ∨ s.fw.swapping = some 7 then s
    else { s with dev := s.dev.telemetryRefresh })

end Sys2Proof.Machine
end

