-- ==== Sys2Proof/Machine/Module.lean ====
section
/-! DEFINITION. Management over SMBus: the Olmoa messages of the MCTP endpoint, which runs from the auxiliary rail and
answers in every state (R476, R482). An answer is its completion code and its data (log entry 57). -/

namespace Sys2Proof.Machine

/-- The 7-bit SMBus address of the MCTP endpoint, from the straps BX, BY and BZ as sampled (R474). -/
def Dev.smbAddress (d : Dev) : Nat :=
  let n := d.env.straps.toNat
  0x40 + bits n 6 6 + 2 * bits n 7 7 + 4 * bits n 8 8

/-- An MCTP answer, given at the endpoint's own address (R474). -/
def Dev.mctp (d : Dev) (l : List Byte) : Dev := { d with env := { d.env with mctp := d.env.mctp ++ [(d.smbAddress, l)] } }

/-- ERROR_INVALID_DATA: the request has no effect (R482). -/
def Dev.mctpInvalid (d : Dev) : Dev := d.mctp [0x02]

/-- MBX_STATE (R270). -/
def Dev.mbxStateWord (d : Dev) : Nat := d.holdReason % 16 * 2 ^ 24 + d.mbx.version % 256 * 2 ^ 16 + d.bring.code

/-- GET_TELEMETRY: a piece of 256 bytes (R482). -/
def Dev.getTelemetry (d : Dev) (piece : Nat) : Dev :=
  if 16 ≤ piece then d.mctpInvalid
  else d.mctp (0 :: padTo (d.pwr.telemetry.drop (256 * piece)) 256)

/-- GET_CPER: the index-th newest record since power-up, or none (R482). -/
def Dev.getCper (d : Dev) (serial : List Byte) (i : Nat) : Dev :=
  if 64 ≤ i then d.mctpInvalid
  else
    match d.evr.recent[i]? with
    | some c => d.mctp (0 :: c.bytes serial)
    | none => d.mctp [0]

/-- SET_BOARD_LIMIT: it takes effect at the next governor period; 0 clears the limit (R464, R482). -/
def Dev.setBoardLimit (d : Dev) (w : Nat) : Dev :=
  if w ≠ 0 ∧ !inRange w 300 950 then d.mctpInvalid
  else { d with pwr := { d.pwr with boardDue := some (if w = 0 then 950 else w) } }.mctp [0]

/-- GET_SHUTDOWN: the latch, the sensor and the reading that tripped (R482). -/
def State.getShutdown (s : State) : State :=
  let r := s.flash.shutdown.getD (0, 0)
  { s with dev := s.dev.mctp ([0, if s.flash.latch then 1 else 0] ++ le r.1 1 ++ le (unsigned r.2 16) 2) }

/-- GET_IDENTITY: ordering number, serial number and MBX_STATE (R482). -/
def State.getIdentity (s : State) : State :=
  let st := if s.dev.env.powered then s.dev.mbxStateWord else 0
  { s with dev := s.dev.mctp (0 :: (padTo orderingNumber 16 ++ padTo s.flash.serial 16 ++ le st 4)) }

/-- GET_TELEMETRY (R482). -/
def execGetTelemetry (piece : Nat) (s : State) : Host.Outcome State Fault Refusal := lift (·.getTelemetry piece) s
/-- GET_CPER (R482). -/
def execGetCper (i : Nat) (s : State) : Host.Outcome State Fault Refusal := lift (·.getCper s.flash.serial i) s
/-- SET_BOARD_LIMIT (R482). -/
def execSetBoardLimit (w : Nat) (s : State) : Host.Outcome State Fault Refusal := lift (·.setBoardLimit w) s
/-- GET_SHUTDOWN (R482). -/
def execGetShutdown (s : State) : Host.Outcome State Fault Refusal := .next s.getShutdown
/-- GET_IDENTITY (R482). -/
def execGetIdentity (s : State) : Host.Outcome State Fault Refusal := .next s.getIdentity

end Sys2Proof.Machine
end

