-- ==== Sys2Proof/Machine/Ratios.lean ====
section
/-! DEFINITION. Limit ratios: their windows, encodings and status bits (R28-R32). -/

namespace Sys2Proof.Machine

/-- `n / m` rounded to nearest, ties to even. -/
def divNearest (n m : Nat) : Nat :=
  let q := n / m
  let r := n % m
  if 2 * r < m then q else if m < 2 * r then q + 1 else q + q % 2

/-- A ratio as the fields hold it: 12 fraction bits, at most 0xFFFF (R31). -/
def ratioCode (num den : Nat) : Nat := min (divNearest (4096 * num) den) 0xFFFF

/-- A window updates a ratio: LAST, and WORST as the worst since its restart (R32). `i` numbers the ratio, and `low` holds
where a lower value is worse. -/
def Dev.updateRatio (d : Dev) (off i : Nat) (low : Bool) (v : Nat) : Dev :=
  let was := d.fld off 31 16
  let worst := if d.hub.restartWorst.getD i true then v else if low then min was v else max was v
  { d.setReg off (worst * 2 ^ 16 + v) with
    hub := { d.hub with restartWorst := upd d.hub.restartWorst i fun _ => false } }

/-- The KV ratio of a window: 8.2 TB/s is 8,200 bytes in a ns; the factor is 0.90 (R28, R29). -/
def Dev.kvRatio (d : Dev) (m : RatioMeas) : Dev :=
  if m.kvTime = 0 ∨ d.hub.winKv = 0 then d
  else
    let n := d.hub.winKv
    let den := 8200 * m.kvTime
    let d := d.updateRatio Off.hubRatioKv 0 true (ratioCode n den)
    if 100 * n < 90 * den then d.flagEvent Off.hubRatioStatus 0 { arg1 := ratioCode n den } else d

/-- The critical-path bound of the window's shares, in 131,200ths of a ns: array steps, KV bytes at 8,200 bytes in a ns and
hand-off bytes at the raw 128 bytes in a ns (R28). -/
def Hub.bound (h : Hub) : Nat := 131200 * h.winStep + 16 * h.winKv + 1025 * h.winHand

/-- The latency ratio of a window: the factor is 2.00, and 16.0 or more is clipped and counted (R28-R31). DEDUCED (log entry
80): a ratio below 16.0 that rounds to 0x10000 reads 0xFFFF, the largest value of its field, and is no clip. -/
def Dev.latencyRatio (d : Dev) (m : RatioMeas) : Dev :=
  let den := d.hub.bound
  let num := 131200 * m.latTime
  if m.latTime = 0 ∨ den = 0 then d
  else
    let d := d.updateRatio Off.hubRatioLatency 1 false (ratioCode num den)
    let d := if 16 * den ≤ num then (d.bump Off.hubRatioClips).setBit Off.hubRatioStatus 8 else d
    if 2 * den < num then d.flagEvent Off.hubRatioStatus 1 { arg1 := ratioCode num den } else d

/-- The link ratio of port `p`: 117.5 bytes in a ns on 8 lanes and 58.75 on 4 (R361); the factor is 0.94 (R28, R29). -/
def Dev.linkRatio (d : Dev) (m : RatioMeas) (p : Nat) : Dev :=
  let time := m.linkTime.getD p 0
  if time = 0 then d
  else
    let n := 4 * d.hub.winLink.getD p 0
    let den := (if (d.port p).lanes = 4 then 235 else 470) * time
    let d := d.updateRatio (Off.hubRatioLink + 4 * p) (2 + p) true (ratioCode n den)
    if 100 * n < 94 * den then d.flagEvent Off.hubRatioStatus (2 + p) { arg0 := p, arg1 := ratioCode n den } else d

/-- RATIO_WINDOW_END: in READY, with ENABLE 1, the ratios with qualifying activity are updated and judged (R30). -/
def Dev.ratioWindowEnd (d : Dev) (m : RatioMeas) : Dev :=
  if d.hub.frames < d.fld Off.hubRatioCtrl 7 0 then d
  else
    let d := { d with hub := { d.hub with frames := 0 } }
    let d := if d.bring ≠ .ready ∨ !d.bitAt Off.hubRatioCtrl 8 then d
      else (List.range 6).foldl (fun d p => d.linkRatio m p) ((d.kvRatio m).latencyRatio m)
    { d with hub := { d.hub with winKv := 0, winStep := 0, winHand := 0, winLink := List.replicate 6 0 } }

/-- RATIO_WINDOW_END (R30). -/
def execRatioWindowEnd (m : RatioMeas) (s : State) : Host.Outcome State Fault Refusal := lift (·.ratioWindowEnd m) s

end Sys2Proof.Machine
end

