-- ==== Sys2Proof/Machine/Security.lean ====
section
/-! DEFINITION. The security functions: attestation over SPDM, secure erase, the JTAG unlock and the counters' window
(R437-R447). The manual gives the answers' content; their framing is SPDM's own (log entry 57). -/

namespace Sys2Proof.Machine

/-! ## Answers (R441) -/

/-- SPDM is served in every state but ROM, while the module runs (R441). -/
def State.spdmServed (s : State) : Bool := s.running && decide (s.dev.bring ≠ .rom)

/-- An answer is given. -/
def State.answer (s : State) (l : List Byte) : State :=
  { s with dev := { s.dev with env := { s.dev.env with answers := s.dev.env.answers ++ [l] } } }

/-- An ERROR answer (log entry 57). -/
def State.spdmError (s : State) (code : Byte) : State := s.answer [0x7F, code]

/-- A message answered where SPDM is served. -/
def State.spdm (s : State) (k : State → State) : State := if s.spdmServed then k s else s

/-- A free byte string and the state with the draws taken. -/
def State.freeBytes (s : State) (n : Nat) : List Byte × State :=
  ((s.dev.drawBytes n).1, { s with dev := (s.dev.drawBytes n).2 })

/-- An answer signed by the identity key over the request's nonce and the answer; nothing is signed outside the approved
mode (R441, R445, R446). -/
def State.signedAnswer (s : State) (nonce body : List Byte) : State :=
  if s.sec.approved then
    let (mine, s) := s.freeBytes 32
    s.answer (body ++ mine ++ Config.sign s.dev.fresh (nonce ++ body ++ mine))
  else s.spdmError 5

/-- The digest of the certificate chain of slot 0 (R441). -/
def chainDigest : List Byte := le (Config.sha512 Config.certificateChain).toNat 64

/-! ## Measurements (R442) -/

/-- HUB_SEC_STATUS (R447). -/
def State.secStatus (s : State) : Nat :=
  let flag := fun (b : Bool) (k : Nat) => if b then 2 ^ k else 0
  16 * (s.sec.reason % 16) + flag s.sec.erased 3 + flag s.sec.jtag 2 + flag s.sec.selftestOk 1 + flag s.sec.approved 0

/-- The live editions, in ascending order (R442). -/
def Dev.liveEditions (d : Dev) : List Nat :=
  (d.pln.logical.foldl (fun (l : List (Nat × Unit)) x => put l x.2.edition ()) []).map (·.1)

/-- The digest of an edition (R344). -/
def Dev.editionDigest (d : Dev) (e : Nat) : Nat :=
  crc64 ((d.pln.logical.filter fun x => decide (x.2.edition = e)).flatMap fun x => le x.2.digest 8)

/-- The content and the type of a measurement (R442). -/
def State.measured (s : State) (i : Nat) : Nat × List Byte :=
  if i = 1 then (0, Config.romImage)
  else if i ≤ 9 then
    let c := s.comp (i - 1)
    let m := c.active
    (1, le m.hash 64 ++ le m.version 4 ++ le m.svn 4 ++ le (if c.activeB then 1 else 0) 1 ++ le (if c.isPending then 1 else 0) 1)
  else if i = 10 then (3, s.dev.hub.cfgBlob ++ le s.dev.hub.cfgGen 4)
  else if i = 11 then (2, (List.range 11).flatMap fun k => le (s.counter k) 4)
  else if i = 12 then (2, le s.secStatus 4 ++ le (if s.dev.env.recovery then 1 else 0) 1)
  else (3, s.dev.liveEditions.flatMap fun e => le e 4 ++ le (s.dev.editionDigest e) 8)

/-- The indices served: in RECOVERY 1 and 12 only (R441). -/
def State.measurements (s : State) : List Nat :=
  if s.dev.bring = .recovery then [1, 12] else (List.range 13).map (· + 1)

/-- A measurement block: index, specification, size, type, size and digest (R442). -/
def State.measurementBlock (s : State) (i : Nat) : List Byte :=
  let m := s.measured i
  le i 1 ++ [1] ++ le 67 2 ++ le m.1 1 ++ le 64 2 ++ le (Config.sha512 m.2).toNat 64

/-- GET_MEASUREMENTS: index 0 asks for their number, 0xFF for all of them (R442). -/
def State.getMeasurements (s : State) (nonce : List Byte) (index : Nat) : State :=
  let l := s.measurements
  if index = 0 then s.signedAnswer nonce (le l.length 1)
  else if index = 0xFF then s.signedAnswer nonce (l.flatMap s.measurementBlock)
  else if l.contains index then s.signedAnswer nonce (s.measurementBlock index)
  else s.spdmError 1

/-! ## Secure erase (R443) -/

/-- ERASE_NONCE: a fresh 32-byte nonce (R443). -/
def State.eraseNonce (s : State) : State :=
  let (l, s) := s.freeBytes 32
  { s with sec := { s.sec with nonce := some (ofLe l, s.dev.now) } }.answer l

/-- The time at which an erase nonce expires (R443). -/
def nonceEnd (n : Nat × Nat) : Nat := n.2 + 60 * 10 ^ 9

/-- ERASE_NONCE_EXPIRY (R443). -/
def State.nonceExpiry (s : State) : State :=
  match s.sec.nonce with
  | none => s
  | some n => { s with dev := { s.dev with now := max s.dev.now (nonceEnd n) }, sec := { s.sec with nonce := none } }

/-- ERASE_WEIGHTS: the nonce is used up; a request that verifies erases, and the device resets (R443). A counter write that
fails makes the request fail, and the marker stays (R439). -/
def State.eraseWeights (s : State) (sig : List Byte) : State :=
  match s.sec.nonce with
  | none => s.spdmError 1
  | some n =>
    let ok := decide (s.dev.now < nonceEnd n) &&
      Config.verifies s.configKey (le n.1 32 ++ s.flash.serial ++ [0x45, 0x52, 0x41, 0x53, 0x45]) sig
    let s := { s with sec := { s.sec with nonce := none } }
    if !ok then s.spdmError 1
    else
      let s := ({ s with flash := { s.flash with eraseMarker := true } }).eraseAll
      (if s.flash.eraseMarker then s.spdmError 5 else s.answer []).warmReset

/-! ## JTAG (R446) -/

/-- JTAG_UNLOCK: in RECOVERY a token that Olmoa signed for this serial number and a fresh nonce opens debug, clears the
keys and leaves the approved mode (R446). -/
def State.jtagUnlock (s : State) (token : List Byte) : State :=
  if s.dev.bring ≠ .recovery ∨ !s.running then s
  else
    let (nonce, s) := s.freeBytes 32
    if Config.verifies Config.olmoaKey (s.flash.serial ++ nonce) token then
      { s with sec := { s.sec with jtag := true, keys := none, approved := false } }
    else s

/-! ## Meanings -/

/-- GET_VERSION: SPDM 1.2 (R441). -/
def execGetVersion (s : State) : Host.Outcome State Fault Refusal := .next (s.spdm fun s => s.answer [0x12])
/-- GET_CAPABILITIES: CTExponent 16, and CERT_CAP, CHAL_CAP and MEAS_CAP with signature (R441). -/
def execGetCapabilities (s : State) : Host.Outcome State Fault Refusal := .next (s.spdm fun s => s.answer (16 :: le 0x16 4))
/-- NEGOTIATE_ALGORITHMS: TPM_ALG_RSAPSS_4096 to sign, TPM_ALG_SHA_512 for hashes and measurements (R441). -/
def execNegotiateAlgorithms (s : State) : Host.Outcome State Fault Refusal :=
  .next (s.spdm fun s => s.answer (le 0x40 4 ++ le 0x4 4 ++ le 0x8 4))
/-- GET_DIGESTS: slot 0 alone holds a chain (R441). -/
def execGetDigests (s : State) : Host.Outcome State Fault Refusal := .next (s.spdm fun s => s.answer (1 :: chainDigest))
/-- GET_CERTIFICATE (R441). -/
def execGetCertificate (offset length : Nat) (s : State) : Host.Outcome State Fault Refusal :=
  .next (s.spdm fun s => s.answer ((Config.certificateChain.drop offset).take length))
/-- CHALLENGE (R441). -/
def execChallenge (nonce : List Byte) (s : State) : Host.Outcome State Fault Refusal :=
  .next (s.spdm fun s => s.signedAnswer nonce chainDigest)
/-- GET_MEASUREMENTS (R442). -/
def execGetMeasurements (nonce : List Byte) (index : Nat) (s : State) : Host.Outcome State Fault Refusal :=
  .next (s.spdm fun s => s.getMeasurements nonce index)
/-- ERASE_NONCE (R443). -/
def execEraseNonce (s : State) : Host.Outcome State Fault Refusal := .next (s.spdm State.eraseNonce)
/-- ERASE_NONCE_EXPIRY (R443). -/
def execEraseNonceExpiry (s : State) : Host.Outcome State Fault Refusal := .next s.nonceExpiry
/-- ERASE_WEIGHTS (R443). -/
def execEraseWeights (sig : List Byte) (s : State) : Host.Outcome State Fault Refusal :=
  .next (s.spdm fun s => s.eraseWeights sig)
/-- JTAG_UNLOCK (R446). -/
def execJtagUnlock (token : List Byte) (s : State) : Host.Outcome State Fault Refusal := .next (s.jtagUnlock token)
/-- HUB_SEC_COUNTER_SELECT: HUB_SEC_COUNTER then shows that counter (R447). -/
def execHubSecCounterSelect (v : Word) (s : State) : Host.Outcome State Fault Refusal :=
  hostWrite (fun d => d.setReg Off.hubSecCounterSelect (bits v.toNat 3 0)) s

end Sys2Proof.Machine
end

