-- ==== Sys2Proof/Machine/Readout.lean ====
section
/-! DEFINITION. What a host read of BAR0 returns: the register file with the read-only fields that stand elsewhere in the
state, the journal, the event window, the mailbox pages and the telemetry page (R105, R245-R248, R260, R411, R467), and the
latching of high halves. -/

namespace Sys2Proof.Machine

/-- A bit as a number. -/
def one (b : Bool) : Nat := if b then 1 else 0

/-- The code of a port state (R358). -/
def PortState.code : PortState → Nat
  | .off => 0 | .listen => 1 | .training => 2 | .check => 3 | .up => 4 | .isolated => 5 | .down => 6

/-- The code of a slot state (R298). -/
def SlotState.code : SlotState → Nat
  | .empty => 0 | .loaded => 1 | .waiting => 2 | .running => 3 | .stopping => 4

/-- A set of numbers as a bit map. -/
def bitMap (l : List Nat) : Nat := (l.map fun i => 2 ^ i).sum

/-- The halves of a 64-bit value in the registers at `lo` and `lo + 4`. -/
def halves (off lo v : Nat) : List (Nat × Nat × Nat) :=
  if off = lo then [(31, 0, v)] else if off = lo + 4 then [(31, 0, v / 2 ^ 32)] else []

/-- Read-only fields of HUB_ registers (R447). -/
def State.hubFields (s : State) (off : Nat) : List (Nat × Nat × Nat) :=
  if off = Off.hubFwStatus then
    [(15, 12, s.pendingComps.headD 0), (11, 8, s.fw.staged.getD 0), (2, 2, one s.dev.grf.paused), (1, 1, 0),
     (0, 0, one s.fw.confirming.isSome)]
  else if off = Off.hubFwConfirmLeft then
    [(16, 0, if s.fw.confirming.isSome then (s.fw.windowEnd - s.dev.now) / 10 ^ 6 else 0)]
  else if off = Off.hubSecStatus then [(31, 0, s.secStatus)]
  else if off = Off.hubSecCounter then
    [(31, 0, if s.dev.reg Off.hubSecCounterSelect < 11 then s.counter (s.dev.reg Off.hubSecCounterSelect) else 0)]
  else []

/-- Read-only fields of PLN_, CUR_ and WDE_ registers (R105, R132, R159). -/
def Dev.planeFields (d : Dev) (off : Nat) : List (Nat × Nat × Nat) :=
  if off = Off.curCtrl then (if d.bring = .ready then [] else [(6, 6, 0)])
  else if off = Off.plnStatus then
    [(2, 2, one (!d.pln.prog.isEmpty || !d.pln.rounds.isEmpty)), (1, 1, one (!d.pln.saved.isEmpty)),
     (0, 0, one (d.pln.op.isSome || !d.pln.tails.isEmpty))]
  else if off = Off.curStatus then
    [(1, 1, one (!d.cur.queue.isEmpty || !d.cur.firings.isEmpty)), (0, 0, one (d.bitAt Off.curCtrl 7))]
  else if off = Off.curAuditQueue then [(9, 0, d.cur.queue.length)]
  else if off = Off.wdeStatus then
    [(2, 2, one (d.wde.tasks.any (·.saved))), (1, 1, one d.wde.tile1.isSome), (0, 0, one d.wde.tile0.isSome)]
  else []

/-- Read-only fields of CAL_, ATT_, MMU_, DMA_ and ARB_ registers (R178, R207, R240-R242). -/
def Dev.memoryFields (d : Dev) (off : Nat) : List (Nat × Nat × Nat) :=
  let live := d.liveSet.map fun x => d.phys x.2
  let grade := fun (g : Nat) => (live.filter fun t => decide (t.grade = g)).length
  if off = Off.calStatus then
    let begun := decide (3 ≤ d.bring.code) && decide (d.bring.code ≤ 6)
    [(2, 2, one (begun && d.gradeDone 2)), (1, 1, one (begun && d.gradeDone 1)), (0, 0, one (!d.cal.passes.isEmpty))]
  else if off = Off.calProgress then [(31, 16, grade 2), (15, 0, grade 1)]
  else if off = Off.calLive then
    [(31, 16, (d.pln.phys.filter fun x => decide (x.2.passDue ≠ 0)).length), (15, 0, live.length)]
  else if off = Off.attStatus then
    [(1, 1, one (d.att.tasks.any (·.saved))), (0, 0, one (d.att.tasks.any fun t => !t.saved))]
  else if off = Off.mmuStatus then
    [(23, 16, (d.mmu.faults.filter fun f => decide (f.2.outcome = 0)).length), (0, 0, one d.mmu.inv)]
  else if off = Off.dmaEngines then
    let held := fun (t : DmaTask) => t.saved || d.stopped t.slot t.task
    [(31, 16, bitMap ((d.dma.tasks.filter held).map (·.engine))),
     (15, 0, bitMap ((d.dma.tasks.filter fun t => !held t).map (·.engine)))]
  else if off = Off.arbReqConfig then [(31, 0, d.arbConfigRead)]
  else if isRow off Off.mmuRootLo 8 16 then
    match d.rootShadow ((off - Off.mmuRootLo) / 8) with
    | some x => [(31, 0, rootWords x)]
    | none => []
  else if isRow off Off.mmuRootHi 8 16 then
    match d.rootShadow ((off - Off.mmuRootHi) / 8) with
    | some x => [(31, 0, rootWords x / 2 ^ 32)]
    | none => []
  else []

/-- Read-only fields of MBX_ registers (R270). -/
def Dev.mbxFields (d : Dev) (off : Nat) : List (Nat × Nat × Nat) :=
  let m := (off - Off.mbxCtrlAdmin) / 0x20
  let b := d.box m
  if off = Off.mbxState then [(31, 0, d.mbxStateWord)]
  else if off = Off.mbxBoot then [(31, 0, d.evr.boot)]
  else if off < Off.mbxCtrlAdmin then halves off Off.mbxStateSinceLo d.since ++ halves off Off.mbxJournalNextLo d.mbx.nextJ
  else if 17 ≤ m then []
  else
    match (off - Off.mbxCtrlAdmin) % 0x20 with
    | 0x00 => if m = 0 then [(4, 0, 6)] else []
    | 0x0C => [(31, 0, b.head)]
    | 0x10 => [(31, 0, b.tail)]
    | 0x14 => [(31, 16, one b.booting), (12, 8, b.doorbell), (4, 0, b.consumed)]
    | 0x18 => [(31, 0, b.expected)]
    | 0x1C => [(16, 0, b.outstanding)]
    | _ => []

/-- Read-only fields of GRF_ and SRV_ registers (R298, R339). -/
def Dev.graphFields (d : Dev) (off : Nat) : List (Nat × Nat × Nat) :=
  let n := (off - Off.grfSlotState) / 0x10
  let g := d.slot n
  if off = Off.grfStatus then
    [(0, 0, one (d.grf.slots.any fun g => decide (g.state = .running) || decide (g.state = .stopping)))]
  else if Off.grfTickLo ≤ off ∧ off ≤ Off.grfTickTimeHi then
    halves off Off.grfTickLo d.grf.tick ++ halves off Off.grfTickTimeLo d.grf.tickTime
  else if Off.grfSlotState ≤ off ∧ off < Off.grfSlotState + 0x100 then
    match (off - Off.grfSlotState) % 0x10 with
    | 0x0 => [(31, 16, g.overrunFrames), (15, 12, g.space), (9, 8, g.channel), (6, 4, g.rank), (2, 0, g.state.code)]
    | 0x4 => [(16, 0, g.done)]
    | 0x8 => [(16, 0, if g.state = .empty then 0 else g.tasks.length)]
    | 0xC => [(31, 0, g.label)]
    | _ => []
  else if off = Off.srvStatus then
    [(0, 0, one (d.srv.templates.any fun t => !t.running.isEmpty || !t.draftRows.isEmpty))]
  else if off = Off.srvEdition then [(31, 0, d.srv.current)]
  else if off = Off.srvRequests then
    [(28, 16, (d.srv.requests.filter (·.parked)).length), (12, 0, d.srv.requests.length)]
  else []

/-- The lowest link-layer version in use on an UP port; 0 where none is (R393). -/
def Dev.lowestLlv (d : Dev) : Nat :=
  match (d.lnk.ports.filter fun p => decide (p.state = .up)).map (·.llv) with
  | [] => 0
  | v :: vs => vs.foldl min v

/-- Read-only fields of LNK_ registers (R393). -/
def Dev.linkFields (d : Dev) (off : Nat) : List (Nat × Nat × Nat) :=
  let p := d.lnk.ports.getD ((off - Off.lnkPortState) / 0x40) {}
  if off = Off.lnkStatus then
    [(9, 9, one d.lnk.expelled), (1, 1, one d.lnk.outOfPlan), (0, 0, one d.lnk.formed)]
  else if off = Off.lnkLeader then [(31, 24, d.lowestLlv), (23, 16, d.lnk.flv), (15, 0, d.lnk.leader)]
  else if off = Off.lnkSync then [(31, 29, d.lnk.parent), (15, 0, unsigned (max (-32767) (min d.lnk.offset 32767)) 16)]
  else if Off.lnkCutMapLo ≤ off ∧ off ≤ Off.lnkCutMapHi then halves off Off.lnkCutMapLo d.lnk.cut
  else if Off.lnkPortState ≤ off ∧ off < Off.lnkPortState + 0x180 then
    match (off - Off.lnkPortState) % 0x40 with
    | 0 => [(31, 28, p.plan), (23, 16, p.flv), (15, 8, p.llv), (7, 4, p.lanes), (3, 3, one p.remapped), (2, 0, p.state.code)]
    | 4 => [(18, 16, p.peerPort), (15, 0, p.peerId)]
    | _ => []
  else []

/-- Read-only fields of EVR_ and CRC_ registers (R415, R417, R418). -/
def Dev.checkFields (d : Dev) (off : Nat) : List (Nat × Nat × Nat) :=
  let n := (off - Off.crcCtrl) / 0x40
  if off = Off.evrStatus then [(0, 0, one (decide (65536 ≤ d.evr.records.length)))]
  else if off = Off.evrCount then [(16, 0, d.evr.records.length)]
  else if off = Off.evrNextSequence then [(31, 0, d.evr.nextSeq)]
  else if off = Off.evrCperQueued then [(6, 0, d.evr.queue.length)]
  else if Off.crcCtrl ≤ off ∧ n < 8 then
    match (off - Off.crcCtrl) % 0x40 with
    | 0x18 => [(31, 0, (d.crcUnit n).r % 2 ^ d.crcWidth n)]
    | 0x1C => [(31, 0, (d.crcUnit n).r % 2 ^ d.crcWidth n / 2 ^ 32)]
    | 0x20 => [(31, 0, d.crcOut n)]
    | 0x24 => [(31, 0, d.crcOut n / 2 ^ 32)]
    | 0x34 => [(1, 1, one (d.crcUnit n).holder.isSome)]
    | _ => []
  else []

/-- Read-only fields of HKA_ and PWR_ registers (R452, R468). -/
def Dev.powerFields (d : Dev) (off : Nat) : List (Nat × Nat × Nat) :=
  let n := (off - Off.hkaSeqFixed) / 0x10
  if off = Off.hkaStatus then [(1, 1, one d.hka.busy1), (0, 0, one d.hka.busy0)]
  else if Off.hkaSeqFixed ≤ off ∧ n < 4 then
    match (off - Off.hkaSeqFixed) % 0x10 with
    | 0 => [(31, 0, d.seqWord n)]
    | 4 => [(27, 16, 4095), (11, 0, 0)]
    | _ => []
  else if off = Off.pwrStatus then [(1, 1, one (decide (d.pwr.off ≠ d.pwr.stateOff))), (0, 0, one (decide (0 < d.pwr.level)))]
  else if Off.pwrStateLo ≤ off ∧ off ≤ Off.pwrStateHi then halves off Off.pwrStateLo d.pwr.stateOff
  else []

/-- The read-only fields of the register at `off` that stand outside the register file: high bit, low bit, value. -/
def State.roFields (s : State) (off : Nat) : List (Nat × Nat × Nat) :=
  match off / 0x10000 with
  | 0 => s.hubFields off
  | 1 | 2 | 3 => s.dev.planeFields off
  | 4 | 5 | 6 | 7 | 8 => s.dev.memoryFields off
  | 9 => s.dev.mbxFields off
  | 10 | 11 => s.dev.graphFields off
  | 12 => s.dev.linkFields off
  | 13 | 14 => s.dev.checkFields off
  | 15 | 17 => s.dev.powerFields off
  | _ => []

/-- The register at `off` as it stands now; 0 where the map has none (R12, R246). -/
def State.liveReg (s : State) (off : Nat) : Nat :=
  if (rowOf off).isNone then 0
  else (s.roFields off).foldl (fun v f => withBits v f.1 f.2.1 (f.2.2 % 2 ^ (f.1 + 1 - f.2.1))) (s.dev.fileRead off)

/-- A register as a host read returns it: a high half that its low half has latched reads as latched (R105). -/
def State.readReg (s : State) (off : Nat) : Nat :=
  match s.dev.latched.find? fun l => decide (l.off = off) with
  | some l => l.value.toNat
  | none => s.liveReg off

/-- Four bytes of a list as a word; 0 beyond its end. -/
def wordOf (l : List Byte) (i : Nat) : Nat := leAt l i 4

/-- A word of a mailbox page (R248). -/
def Dev.readPage (d : Dev) (m o : Nat) : Nat :=
  let b := d.box m
  let word := fun (l : List (Nat × Byte)) (o : Nat) => ofLe ((List.range 4).map fun i => (look l (o + i)).getD 0)
  if o < 0x1000 then word b.slots o
  else if o = 0x1000 then b.doorbell
  else if m = 0 ∧ 0x2000 ≤ o ∧ o < 0x2800 then word b.ring (o - 0x2000)
  else 0

/-- A word of the journal: the newest entry of its place (R260). -/
def Dev.readJournal (d : Dev) (o : Nat) : Nat :=
  match d.mbx.journal.reverse.find? fun e => decide (e.j % 8192 = o / 64) with
  | some e => wordOf e.bytes (o % 64)
  | none => 0

/-- A word of the event window (R411). -/
def Dev.readEvents (d : Dev) (o : Nat) : Nat :=
  match d.evr.records[(d.reg Off.evrCursor + o / 64) % 65536]? with
  | some e => wordOf e.bytes (o % 64)
  | none => 0

/-- A word of BAR0 as a host read of `size` bytes returns it: reserved ranges read 0, and a read of another size or
alignment than an aligned 32-bit word returns a free value (R245, R246, log entry 3). -/
def State.readBar0 (s : State) (off : Nat) (size : Nat := 4) : Nat :=
  let known := decide (off < 0x120000) && (rowOf (off / 4 * 4)).isSome ||
    decide (0x1000000 ≤ off) && decide (off < 0x1110000) && decide (off % 0x10000 < 0x1004) ||
    decide (0x1002000 ≤ off) && decide (off < 0x1002800) ||
    decide (0x2000000 ≤ off) && decide (off < 0x2080000) || decide (0x2100000 ≤ off) && decide (off < 0x2110000) ||
    decide (0x3000000 ≤ off) && decide (off < 0x3001000)
  if !known then 0
  else if size ≠ 4 ∨ off % 4 ≠ 0 then (Config.freeWord s.dev.fresh).toNat
  else if off < 0x120000 then s.readReg off
  else if 0x1000000 ≤ off ∧ off < 0x1110000 then s.dev.readPage ((off - 0x1000000) / 0x10000) (off % 0x10000)
  else if 0x2000000 ≤ off ∧ off < 0x2080000 then s.dev.readJournal (off - 0x2000000)
  else if 0x2100000 ≤ off ∧ off < 0x2110000 then s.dev.readEvents (off - 0x2100000)
  else if 0x3000000 ≤ off ∧ off < 0x3001000 then wordOf s.dev.pwr.telemetry (off - 0x3000000)
  else 0

/-- The low halves whose read latches the high half (R105 and the field maps). -/
def latches (off : Nat) : Bool :=
  [Off.plnOpsLo, Off.plnStepsLo, Off.curAuditsLo, Off.wdeTilesLo, Off.wdeBusyLo, Off.calLastLo, Off.attPagesReadLo,
   Off.mmuWalksLo, Off.dmaBytesLo, Off.mbxStateSinceLo, Off.mbxJournalNextLo, Off.grfFrameAtLo, Off.grfTickLo,
   Off.grfTickTimeLo, Off.grfTasksLo, Off.srvTokensLo, Off.lnkCutMapLo].contains off ||
  isRow off Off.lnkPortTxLo 0x40 6 || isRow off Off.lnkPortRxLo 0x40 6 || isRow off Off.crcValueLo 0x40 8 ||
  isRow off Off.crcResultLo 0x40 8

/-- LOW_HALF_READ: a host read of a low half latches its high half for the following read (R105). -/
def State.lowHalfRead (s : State) (off : Nat) : State :=
  if !s.running || !latches off then s
  else
    let hi := off + 4
    let keep := s.dev.latched.filter fun l => decide (l.off ≠ hi)
    { s with dev := { s.dev with latched := keep ++ [{ off := hi, value := BitVec.ofNat 32 (s.liveReg hi) }] } }

/-- LOW_HALF_READ (R105). -/
def execLowHalfRead (off : Nat) (s : State) : Host.Outcome State Fault Refusal := .next (s.lowHalfRead off)

end Sys2Proof.Machine
end

