-- ==== Sys2Proof/Machine/Reliability.lean ====
section
/-! DEFINITION. Errors of the device as a whole, the CPER ring and the recorder's commands (R403, R404, R410, R417). -/

namespace Sys2Proof.Machine

/-! ## DEVICE_ERROR (R403) -/

/-- A running graph stops without a completion (R403). -/
def Dev.stopSilently (d : Dev) (slot : Nat) : Dev :=
  (d.modSlot slot fun g => { g with cmd := none, cancel := none, template := none }).failGraph slot 0x0604

/-- DEVICE_ERROR: Damson and its checker halt, every running graph stops without a completion, AER reports, the records
are written, and a warm reset is due (R403). -/
def Dev.deviceError (d : Dev) : Dev :=
  if d.evr.fatal then d
  else
    let d := { d with evr := { d.evr with fatal := true } }
    let d := (List.range 16).foldl Dev.stopSilently d
    let d := d.signature 0x0D83 { status := 0x0604 } { severity := 1, source := 12, outcome := 6 }
    { d with env := { d.env with aer := d.env.aer + 1 }, mbx := { d.mbx with resetDue := true } }

/-! ## The CPER ring (R404) -/

/-- Slots of the CPER ring (R417). -/
def Dev.cperSize (d : Dev) : Nat := 2 ^ d.fld Off.evrCperCtrl 3 0

/-- CPER records in the ring that the host has not freed (R417). -/
def Dev.cperUsed (d : Dev) : Nat := (d.reg Off.evrCperTail + 2 ^ 32 - d.reg Off.evrCperHead) % 2 ^ 32

/-- Host address of slot `n` of the CPER ring (R404). -/
def Dev.cperSlot (d : Dev) (n : Nat) : Nat :=
  d.fld Off.evrCperBaseLo 31 12 * 4096 + 2 ^ 32 * d.reg Off.evrCperBaseHi + 512 * (n % d.cperSize)

/-- CPER_RING_WRITE: the oldest record of the device queue goes to its slot of the ring, the tail advances, and vector 18
is sent (R404). -/
def Dev.cperRingWrite (d : Dev) (serial : List Byte) : Dev :=
  match d.evr.queue with
  | [] => d
  | c :: rest =>
    if !d.bitAt Off.evrCperBaseLo 0 || decide (d.cperSize ≤ d.cperUsed) then d
    else
      let tail := d.reg Off.evrCperTail
      let d := { d with evr := { d.evr with queue := rest } }
      let d := d.postHost (d.cperSlot tail) (c.bytes serial ++ List.replicate 248 0)
      (d.setReg Off.evrCperTail ((tail + 1) % 2 ^ 32)).vector 18

/-! ## Register commands (R410, R417) -/

/-- EVR_CTRL: NOTIFY takes its value, and RESTART clears every record; SEQUENCE runs on (R410). -/
def Dev.evrRestart (d : Dev) (v : Nat) : Dev :=
  let d := d.setReg Off.evrCtrl (v % 2 ^ 16)
  if bit v 16 then { d with evr := { d.evr with records := [] } } else d

/-- EVR_CPER_HEAD: a value below the current one or above the tail is ignored (R417). -/
def Dev.evrCperHead (d : Dev) (v : Nat) : Dev :=
  let head := d.reg Off.evrCperHead
  if (d.reg Off.evrCperTail + 2 ^ 32 - head) % 2 ^ 32 < (v % 2 ^ 32 + 2 ^ 32 - head) % 2 ^ 32 then d
  else d.setReg Off.evrCperHead v

/-- EVR_CPER_CTRL: a size from 4 to 12 is taken and starts the ring anew; one that changes the field needs an idle
recorder (R10, R417). -/
def Dev.evrCperCtrl (d : Dev) (v : Nat) : Dev :=
  let n := v % 16
  if n < 4 ∨ 12 < n then d
  else if n ≠ d.fld Off.evrCperCtrl 3 0 ∧ d.reg Off.evrCperTail ≠ d.reg Off.evrCperHead then d.flagEvent Off.evrStatus 1
  else ((d.setReg Off.evrCperCtrl n).setReg Off.evrCperHead 0).setReg Off.evrCperTail 0

/-- DEVICE_ERROR (R403). -/
def execDeviceError (s : State) : Host.Outcome State Fault Refusal := lift Dev.deviceError s
/-- CPER_RING_WRITE (R404). -/
def execCperRingWrite (s : State) : Host.Outcome State Fault Refusal := lift (·.cperRingWrite s.flash.serial) s
/-- EVR_RESTART (R410). -/
def execEvrRestart (v : Word) (s : State) : Host.Outcome State Fault Refusal := hostWrite (·.evrRestart v.toNat) s
/-- EVR_CPER_HEAD (R417). -/
def execEvrCperHead (v : Word) (s : State) : Host.Outcome State Fault Refusal := hostWrite (·.evrCperHead v.toNat) s
/-- EVR_CPER_CTRL (R417). -/
def execEvrCperCtrl (v : Word) (s : State) : Host.Outcome State Fault Refusal := hostWrite (·.evrCperCtrl v.toNat) s

end Sys2Proof.Machine
end

