-- ==== Sys2Proof/Machine/Registers.lean ====
section
/-! DEFINITION. A host write to BAR0: its size and alignment, the mailbox pages, the registers that a write sets in motion,
and every other register field by field (R10-R12, R245, R246, R248). -/

namespace Sys2Proof.Machine

/-! ## Ports (R358, R363, R393) -/

/-- A port enabled again takes the state of its bring-up state (R266, R358). -/
def Dev.portOn (d : Dev) (p : Nat) : Dev :=
  let st : PortState := match d.bring with
    | .rom | .recovery => .off
    | .fw | .hold => .listen
    | _ => if d.lnk.outOfPlan then .isolated else .training
  d.modPort p fun t => { t with state := st, plan := 0, lanes := 0 }

/-- A port switched off; that of an UP port is a link failure (R363, R393). -/
def Dev.portOff (d : Dev) (p : Nat) : Dev :=
  let d := if (d.port p).state = .up then d.linkFailure p 0 else d
  d.modPort p fun t => { t.stopped with state := .off, lanes := 0 }

/-- LNK_CTRL (R393). -/
def Dev.lnkCtrlWrite (d : Dev) (v : Nat) : Dev :=
  let was := d.fld Off.lnkCtrl 5 0
  (List.range 6).foldl (fun d p =>
    if bit was p && !bit v p then d.portOff p else if !bit was p && bit v p then d.portOn p else d)
    (d.regWrite Off.lnkCtrl v)

/-! ## Registers that a write sets in motion -/

/-- MMU_INV_CTRL: SPACE and SCOPE, and with GO an invalidation (R218, R240). -/
def Dev.mmuInvWrite (d : Dev) (v : Nat) : Dev :=
  let d := (d.setFld Off.mmuInvCtrl 2 0 (bits v 2 0)).setFld Off.mmuInvCtrl 11 8 (bits v 11 8)
  if !bit v 31 then d
  else
    let sp := d.invSpace
    match bits v 2 0 with
    | 0 => d.invalidateAll
    | 1 => d.invalidateSpace sp
    | 2 => d.invalidateRange sp (d.fld Off.mmuInvBaseLo 31 12 + 2 ^ 20 * d.fld Off.mmuInvBaseHi 19 0) (d.reg Off.mmuInvPages)
    | 3 => d.invalidateKvSpace sp
    | 4 => d.invalidateKvAll
    | _ => d

/-- ARB_CLEAR (R242). -/
def Dev.arbClearWrite (d : Dev) (v : Nat) : Dev :=
  let d := if bit v 1 then d.arbClearAll else d
  if bit v 0 then d.arbClearSelected else d

/-- Registers of a mailbox (R270): the ring base of the admin mailbox is ignored. -/
def Dev.mbxWrite (d : Dev) (off v : Nat) : Dev :=
  let m := (off - Off.mbxCtrlAdmin) / 0x20
  match (off - Off.mbxCtrlAdmin) % 0x20 with
  | 0x00 => d.mbxCtrl m v
  | 0x04 | 0x08 => if m = 0 then d else d.regWrite off v
  | 0x0C => d.mbxCqHead m v
  | _ => d

/-- Registers of a check-value unit (R414-R418). -/
def Dev.crcWrite (d : Dev) (off v : Nat) : Dev :=
  let n := (off - Off.crcCtrl) / 0x40
  match (off - Off.crcCtrl) % 0x40 with
  | 0x04 => if bit v 0 then d.crcRestart n else d
  | 0x18 => d.crcValueLo n v
  | 0x1C => d.crcValueHi n v
  | 0x28 => d.crcFeed n (le v 1)
  | 0x2C => d.crcFeed n (le v 2)
  | 0x30 => d.crcFeed n (le v 4)
  | _ => d.regWrite off v

/-- A register that Damson alone writes (R240, R246). -/
def damsonOnly (off : Nat) : Bool :=
  isRow off Off.mmuRootLo 8 16 || isRow off Off.mmuRootHi 8 16 || decide (off = Off.mmuFaultResolve)

/-- A write to a register that acts on the device. -/
def Dev.hostReg (d : Dev) (off v : Nat) : Dev :=
  if (rowOf off).isNone || damsonOnly off then d
  else if off = Off.plnTileSelect then d.plnTileSelect (BitVec.ofNat 32 v)
  else if off = Off.calTileSelect then d.calTileSelect (BitVec.ofNat 32 v)
  else if off = Off.mmuInvCtrl then d.mmuInvWrite v
  else if off = Off.mmuFaultRead then d.mmuFaultRead v
  else if off = Off.arbSelect then d.arbSelect v
  else if off = Off.arbReqConfig then d.arbConfigWrite v
  else if off = Off.arbClear then d.arbClearWrite v
  else if off / 0x10000 = 9 ∧ Off.mbxCtrlAdmin ≤ off then d.mbxWrite off v
  else if off = Off.grfFrame then d.grfFrameRequest v
  else if off = Off.srvRequestSelect then d.srvRequestSelect v
  else if off = Off.lnkCtrl then d.lnkCtrlWrite v
  else if off = Off.lnkPeerSelect then d.lnkPeerSelect v
  else if off = Off.evrCtrl then d.evrRestart v
  else if off = Off.evrCperHead then d.evrCperHead v
  else if off = Off.evrCperCtrl then d.evrCperCtrl v
  else if off / 0x10000 = 14 then d.crcWrite off v
  else if off = Off.hubSecCounterSelect then d.setReg Off.hubSecCounterSelect (bits v 3 0)
  else if off = Off.hkaUrgent then d.urgentGo v
  else if off = Off.pwrOffLo then d.pwrOffWrite false v
  else if off = Off.pwrOffHi then d.pwrOffWrite true v
  else d.regWrite off v

/-- A write to a register (R10, R447). -/
def State.hostReg (s : State) (off v : Nat) : State :=
  if off = Off.hubFwSelect then s.fwSelect v
  else if off = Off.hubSecStatus then { s with sec := { s.sec with erased := s.sec.erased && !bit v 3 } }
  else { s with dev := s.dev.hostReg off v }

/-! ## Mailbox pages (R246, R248) -/

/-- An aligned access of 4 to 64 bytes. -/
def slotAccess (o size : Nat) : Bool := [4, 8, 16, 32, 64].contains size && decide (o % size = 0)

/-- A write to a mailbox page: a command slot, or the doorbell. A slot that has been rung and is not yet taken must not be
written; one that is holds an unpredictable value (R249). -/
def Dev.pageWrite (d : Dev) (m o size : Nat) (l : List Byte) : Dev :=
  if 17 ≤ m then d
  else if o < 0x1000 then
    if slotAccess o size then
      let n := o / 256
      let b := d.box m
      let rung := decide ((n + 32 - b.consumed) % 16 < (b.doorbell + 32 - b.consumed) % 32)
      d.modBox m fun b => { b with
        slots := (l.take size).zipIdx.foldl (fun r x => put r (o + x.2) x.1) b.slots
        rewritten := if rung && !b.rewritten.contains n then b.rewritten ++ [n] else b.rewritten }
    else d
  else if o = 0x1000 then d.doorbellWrite m size (ofLe (l.take size))
  else d

/-- REGISTER_WRITE: a host write to BAR0 (R10, R11, R246). -/
def State.barWrite (s : State) (off size : Nat) (l : List Byte) : State :=
  if !s.running then s
  else if 0x1000000 ≤ off ∧ off < 0x1110000 then
    { s with dev := s.dev.pageWrite ((off - 0x1000000) / 0x10000) (off % 0x10000) size l }
  else if off < 0x120000 ∧ size = 4 ∧ off % 4 = 0 then s.hostReg off (ofLe (l.take 4))
  else s

/-- REGISTER_WRITE (R10). -/
def execRegisterWrite (off size : Nat) (data : List Byte) (s : State) : Host.Outcome State Fault Refusal :=
  .next (s.barWrite off size data)

end Sys2Proof.Machine
end

