-- ==== Sys2Proof/Machine/Tick.lean ====
section
/-! DEFINITION. Frame ticks: the steps of R286 in their order, with what else the chapters set for a tick, and the tick that
ends a service pause (R284-R290, R376, R429). -/

namespace Sys2Proof.Machine

/-! ## Steps 1 to 3 (R10, R284-R286, R376) -/

/-- Step 1: a tick of a number and a timestamp falls. -/
def Dev.tickTo (d : Dev) (n t : Nat) : Dev := { d with now := max d.now t, grf := { d.grf with tick := n, tickTime := t } }

/-- The next tick by the local count, or the first fabric tick, at which the local frame in progress ends (R284, R376). -/
def Dev.advanceTick (d : Dev) : Dev :=
  match d.lnk.formAt with
  | some (t, n, us) =>
    if t ≤ d.nextTick then
      let d := { d with lnk := { d.lnk with formAt := none } }
      (d.setFld Off.grfFrame 27 16 us).tickTo n (max t d.grf.tickTime)
    else d.tickTo (d.grf.tick + 1) d.nextTick
  | none => d.tickTo (d.grf.tick + 1) d.nextTick

/-- Step 2: a frame-length change due takes effect (R285). -/
def Dev.frameDue (d : Dev) : Dev :=
  if d.grf.frameAt = 0 ∨ d.grf.tick < d.grf.frameAt then d
  else
    let us := d.grf.frameNext
    let d := { d with grf := { d.grf with frameAt := 0 } }
    ((d.setFld Off.grfFrame 27 16 us).setReg64 Off.grfFrameAtLo 0).setFld Off.grfStatus 6 6 0

/-- Step 3: shadow values take effect, those of the arbiters and of the serving templates among them (R10, R242, R305). -/
def Dev.shadowsDue (d : Dev) : Dev :=
  let ts := d.templatesDue
  let d := d.applyShadows.applyArb
  ts.foldl (fun d i => d.setTemplate i) d

/-! ## Step 4 (R86, R115, R127, R172, R173, R402) -/

/-- Changes due on a tile of the running operation wait for its end; the other changes due, with those that waited for an
operation that has been saved, come back (R86, R90). -/
def Dev.takeDue (d : Dev) : List (Nat × TileChange) × Dev :=
  let waits := fun (l : Nat) (c : TileChange) => c.counts && d.tileRunning l
  let all := fun (t : LogTile) => t.held ++ t.due
  let due := d.pln.logical.flatMap fun x => ((all x.2).filter fun c => !waits x.1 c).map fun c => (x.1, c)
  let keep := fun (x : Nat × LogTile) => (x.1, { x.2 with held := (all x.2).filter fun c => waits x.1 c, due := [] })
  (due, { d with pln := { d.pln with logical := d.pln.logical.map keep } })

/-- Step 4: corrections and tile state changes take effect, and the epoch advances once for all of them (R173). -/
def Dev.tilesDue (d : Dev) : Dev :=
  let (due, d) := d.takeDue
  let waiting := d.waitingTiles
  let d := if waiting ≠ [] ∨ due.any (fun x => d.takesEffect x.1 x.2) = true then d.advanceEpoch else d
  let d := due.foldl (fun d x => d.applyChange x.1 x.2) d
  let d := (d.waitingTiles.filter waiting.contains).foldl (fun d p => d.applyBank p) d
  d.reissueAffected

/-- The mirror is rebuilt at a tick at which a tile has entered or left READY, or that follows one between ticks (R115). -/
def Dev.mirrorDue (d : Dev) : Dev := if d.cur.mirrorStale then d.rebuildMirror else d

/-! ## Step 6 (R200, R207, R219, R257, R330) -/

/-- A new root of an address space takes effect, and its translations are invalidated (R219). -/
def Dev.rootNow (d : Dev) (x : Nat × Nat) : Dev :=
  ((d.setReg (Off.mmuRootLo + 8 * x.1) (rootWords x.2)).setReg (Off.mmuRootHi + 8 * x.1) (rootWords x.2 / 2 ^ 32)).dropTlb
    fun t => decide (t.space = x.1)

/-- Where KV translations changed in the frame just ended, Damson invalidates with the KV scope of all spaces; an invalidation
in progress takes them with it (R200, R218; log entry 109). -/
def Dev.kvInvalidate (d : Dev) : Dev :=
  if d.att.kvChanged = [] then d
  else
    let d := if d.mmu.inv then d.dropTlb fun t => t.kv else d.invalidateKvAll
    { d with att := { d.att with kvChanged := [] } }

/-- Damson updates the frame counts (R207). -/
def Dev.frameCounts (d : Dev) : Dev :=
  ((d.setReg Off.attFreeFrames d.freeFrames).setReg Off.attQuarantineFrames (d.framesIn .quarantine)).setReg
    Off.attSharedFrames (d.framesIn .shared)

/-- Memory of unmapped ranges and of unloaded adapters is free at its tick; pages that hold a master copy stay allocated while
the edition is live (R257, R330, R343). -/
def Dev.freeDue (d : Dev) : Dev :=
  let due := fun (x : Nat × Nat × Nat) => decide (x.1 ≤ d.grf.tick) && !d.masterHeld x.2.1 x.2.2
  let ms := (d.mmu.freeing.filter due) ++ d.srv.adapterFree.filter due
  let d := { d with
    mmu := { d.mmu with freeing := d.mmu.freeing.filter fun x => !due x }
    srv := { d.srv with adapterFree := d.srv.adapterFree.filter fun x => !due x } }
  ms.foldl (fun d x => d.freeMem x.2.1) d

/-- Step 6: new roots with their invalidations, the SPACE_SET commands that waited for them, and the KV invalidation. -/
def Dev.rootsDue (d : Dev) : Dev :=
  let tick := d.grf.tick
  let rs := (d.mmu.rootDue.filter fun x => decide (x.1 ≤ tick)).map (·.2)
  let cs := (d.mmu.spaceCmds.filter fun c => decide (c.1 ≤ tick)).map (·.2)
  let d := { d with mmu := { d.mmu with
    rootDue := d.mmu.rootDue.filter fun x => decide (tick < x.1)
    spaceCmds := d.mmu.spaceCmds.filter fun c => decide (tick < c.1) } }
  let d := rs.foldl (fun d x => d.rootNow x) d
  let d := cs.foldl (fun d h => d.complete h 0 0) d
  d.kvInvalidate.freeDue.frameCounts

/-! ## Steps 7 to 9 (R286-R290) -/

/-- Steps 7 and 8: the checks of every running graph, and then every graph that has waited since before the tick becomes
RUNNING; one accepted in the tick's hub cycle waits for the next (R274). -/
def Dev.graphsTick (d : Dev) : Dev :=
  let d := (List.range 16).foldl (fun d i => d.countTick i) d
  (List.range 16).foldl (fun d i => if (d.slot i).state = .waiting ∧ (d.slot i).acceptedAt < d.grf.tickTime then d.startGraph i else d) d

/-- A ready, issued or saved task waits because no unit of its kind is free. -/
def Dev.unitTaken (d : Dev) (slot task : Nat) : Bool :=
  match d.unitKind slot task with
  | 1 => d.pln.op.isSome || d.seqHeld
  | 2 => true
  | 4 => if (d.taskRun slot task).st = .saved then !d.pipCanResume slot task else !d.coresFree slot task
  | 5 => decide (16 ≤ (d.dma.tasks.filter fun t => !t.saved).length)
  | 9 => d.pln.prog.any fun p => decide (p.slot < 16) && !p.held
  | _ => false

/-- A waiting pip task may take cores that a running one holds (R278). -/
def Dev.coresMeet (d : Dev) (slot task wslot wtask : Nat) : Bool :=
  match d.coresAsked wslot wtask with
  | some (_, cl) => d.grf.pip.any fun p =>
      decide (p.slot = slot) && decide (p.task = task) && !p.saved && bit cl (p.core / 32)
  | none => false

/-- A plane task has run its step units, and completes its tail (R119). -/
def Dev.inTail (d : Dev) (slot task : Nat) : Bool := d.pln.tails.any fun o => decide (o.slot = slot) && decide (o.task = task)

/-- A running task is pre-empted at this tick: a waiting task of a strictly higher rank needs the unit it holds, or a
protected graph runs (R289). Collective tasks never are (R291), nor is a tail in Currant (R131, R292). -/
def Dev.preempted (d : Dev) (waiting : List (Nat × Nat)) (slot task : Nat) : Bool :=
  let k := d.unitKind slot task
  decide (k ≠ 6) && !(d.taskRun slot task).marked && !d.inTail slot task &&
    (d.protectedOut (d.rank slot) || waiting.any fun w =>
      decide (d.rank slot < d.rank w.1) && decide (d.unitKind w.1 w.2 = k) &&
        (decide (k ≠ 4) || d.coresMeet slot task w.1 w.2))

/-- Running tasks marked for pre-emption: each stops at the boundary of its unit (R289, R292). -/
def Dev.markTasks (d : Dev) (ts : List (Nat × Nat)) : Dev :=
  let d := ts.foldl (fun (d : Dev) t =>
    d.modSlot t.1 fun g => { g with run := upd g.run t.2 fun r => { r with marked := true } }) d
  d.bumpWrap Off.grfPreemptions ts.length

/-- Step 9 (R289, R290). -/
def Dev.preemptTick (d : Dev) : Dev :=
  let waiting := (d.tasksIn .ready ++ d.tasksIn .issued ++ d.tasksIn .saved).filter fun t => d.unitTaken t.1 t.2
  d.markTasks ((d.tasksIn .running).filter fun t => d.preempted waiting t.1 t.2)

/-! ## What else a tick does (R30, R116, R175, R267, R304, R309, R322, R323, R352, R390, R401) -/

/-- The first tick at which the grades allow a higher state, and Currant is idle where the device leaves DIGITAL
(R175, R267). -/
def Dev.bringTick (d : Dev) : Dev :=
  let b := d.gradeState
  if d.bring = .digital then (if b ≠ .digital ∧ d.curIdle then d.enterState b else d)
  else if d.bring = .coarse ∧ b = .ready then d.enterState .ready
  else d

/-- Damson's work of a tick for requests: parking, ring heads, room reports, ring vectors, and drafts that nothing has started
yet (R304, R309, R322, R323, R325). -/
def Dev.servingTick (d : Dev) : Dev :=
  if d.evr.fatal then d
  else
    let ids := d.srv.requests.map (·.id)
    let each := fun (f : Dev → Request → Dev) (d : Dev) (id : Nat) =>
      match d.request id with
      | some r => f d r
      | none => d
    let d := ids.foldl (each Dev.pollRing) d.parkStep
    (ids.foldl (each Dev.reportRoom) d).sendRingVectors.draftAll

/-- The counts of frames, and what holds for one frame only (R30, R116, R352, R401). -/
def Dev.frameEnd (d : Dev) : Dev :=
  let d := d.damageAdapters d.evr.ueFrame
  { d with
    cur := { d.cur with overflowFrame := false }
    evr := { d.evr with ueFrame := [] }
    srv := { d.srv with tierFrames := d.srv.tierFrames + 1 }
    hub := { d.hub with frames := d.hub.frames + (if d.bitAt Off.hubRatioCtrl 8 then 1 else 0) } }

/-- Everything that a tick does after its number and timestamp have advanced, in the order of R286. -/
def Dev.tickSteps (d : Dev) : Dev :=
  let d := d.frameDue.shadowsDue.tilesDue
  let d := d.flipEdition.releaseEditions.mirrorDue
  let d := d.rootsDue.graphsTick.preemptTick
  let d := d.frameEnd.bringTick.refSettle
  let d := d.applyCuts.servingTick
  d.flushRetries.collPump

/-- What a tick does for firmware: the health count, and a counter write tried again (R420, R439). -/
def State.fwTick (s : State) : State :=
  match s.fw.confirming with
  | none => s
  | some i =>
    let s := { s with fw := { s.fw with health := s.fw.health + 1 } }
    if s.fw.counterRetry ∧ !s.fw.flashBad ∧ s.dev.now ≤ s.fw.windowEnd then (s.confirm i).nextConfirming i else s

/-- FRAME_TICK: the next tick falls (R284, R286). No tick falls between the pause tick P and the resume timestamp (R429). -/
def State.frameTick (s : State) : State :=
  let held := match s.dev.grf.pauseAt with
    | some p => decide (p ≤ s.dev.grf.tick)
    | none => false
  if !s.running || s.dev.grf.paused || held then s
  else ({ s with dev := s.dev.advanceTick.tickSteps }).fwTick

/-! ## The end of a service pause (R429) -/

/-- The next pause is named for the devices that waited for it (R429, R431). -/
def Dev.pauseAgain (d : Dev) : Dev :=
  match d.grf.pauseWait with
  | [] => d
  | who :: rest => ({ d with grf := { d.grf with pauseWait := rest } }).namePause who

/-- FW_ACTIVATE completes with the length of its pause in µs (R429). -/
def State.activateDone (s : State) (us : Nat) : State :=
  match s.fw.activating with
  | none => s
  | some _ =>
    if s.dev.grf.pauser ≠ s.dev.deviceId then s
    else
      let d := match s.fw.activateCmd with
        | some h => s.dev.complete h 0 us
        | none => s.dev
      { s with dev := d, fw := { s.fw with activating := none, activateCmd := none, reverting := false } }

/-- RESUME_TICK: tick P + 1 falls at the resume timestamp (R429). -/
def State.resumeTick (s : State) : State :=
  let g := s.dev.grf
  if !s.running ∨ !g.paused ∨ g.resumeAt = 0 ∨ s.fw.swapping.isSome then s
  else
    let us := (g.resumeAt - g.pauseStart) / 1000
    let d := { s.dev with grf := { g with paused := false, pauseAt := none, resumeAt := 0 } }
    let d := (d.tickTo (g.tick + 1) g.resumeAt).tickSteps
    let s := (({ s with dev := d.setReg Off.hubFwLastPause (min us 0xFFFFFFFF) }).fwTick).activateDone us
    { s with dev := s.dev.pauseAgain }

/-- FRAME_TICK (R286). -/
def execFrameTick (s : State) : Host.Outcome State Fault Refusal := .next s.frameTick
/-- RESUME_TICK (R429). -/
def execResumeTick (s : State) : Host.Outcome State Fault Refusal := .next s.resumeTick

end Sys2Proof.Machine
end

