-- ==== Sys2Proof/Machine/Dispatch.lean ====
section
/-! DEFINITION. One arm for each command: a direct call of its meaning. -/

namespace Sys2Proof.Machine

def exec (i : Instr) (s : State) : Host.Outcome State Fault Refusal :=
  match i with
  | .registerWrite off size data => Sys2Proof.Machine.execRegisterWrite off size data s
  | .frameTick => Sys2Proof.Machine.execFrameTick s
  | .ratioWindowEnd m => Sys2Proof.Machine.execRatioWindowEnd m s
  | .planeForward => Sys2Proof.Machine.execPlaneForward s
  | .planeTransposed => Sys2Proof.Machine.execPlaneTransposed s
  | .planeProgram => Sys2Proof.Machine.execPlaneProgram s
  | .stepUnit transfer => Sys2Proof.Machine.execStepUnit transfer s
  | .correctionPass => Sys2Proof.Machine.execCorrectionPass s
  | .operationTailEnd mismatch => Sys2Proof.Machine.execOperationTailEnd mismatch s
  | .planeSave => Sys2Proof.Machine.execPlaneSave s
  | .planeResume => Sys2Proof.Machine.execPlaneResume s
  | .programRoundStart die => Sys2Proof.Machine.execProgramRoundStart die s
  | .programRoundEnd die => Sys2Proof.Machine.execProgramRoundEnd die s
  | .reAttach => Sys2Proof.Machine.execReAttach s
  | .enduranceWindowStart => Sys2Proof.Machine.execEnduranceWindowStart s
  | .plnTileSelect v => Sys2Proof.Machine.execPlnTileSelect v s
  | .auditRun => Sys2Proof.Machine.execAuditRun s
  | .confirmationFiring => Sys2Proof.Machine.execConfirmationFiring s
  | .wideProduct => Sys2Proof.Machine.execWideProduct s
  | .wideReduction => Sys2Proof.Machine.execWideReduction s
  | .chunkPass mismatch => Sys2Proof.Machine.execChunkPass mismatch s
  | .tileDrain => Sys2Proof.Machine.execTileDrain s
  | .adapterTerm => Sys2Proof.Machine.execAdapterTerm s
  | .wideSave => Sys2Proof.Machine.execWideSave s
  | .wideResume => Sys2Proof.Machine.execWideResume s
  | .attentionForward => Sys2Proof.Machine.execAttentionForward s
  | .attentionBackward => Sys2Proof.Machine.execAttentionBackward s
  | .pageArrival => Sys2Proof.Machine.execPageArrival s
  | .attentionSave => Sys2Proof.Machine.execAttentionSave s
  | .quarantineEnd frame => Sys2Proof.Machine.execQuarantineEnd frame s
  | .walkComplete cls index space va write => Sys2Proof.Machine.execWalkComplete cls index space va write s
  | .faultResume slot => Sys2Proof.Machine.execFaultResume slot s
  | .faultFail slot status => Sys2Proof.Machine.execFaultFail slot status s
  | .faultTimeout slot => Sys2Proof.Machine.execFaultTimeout slot s
  | .invalidateAll => Sys2Proof.Machine.execInvalidateAll s
  | .invalidateSpace sp => Sys2Proof.Machine.execInvalidateSpace sp s
  | .invalidateRange sp base pages => Sys2Proof.Machine.execInvalidateRange sp base pages s
  | .invalidateKvSpace sp => Sys2Proof.Machine.execInvalidateKvSpace sp s
  | .invalidateKvAll => Sys2Proof.Machine.execInvalidateKvAll s
  | .invalidationComplete => Sys2Proof.Machine.execInvalidationComplete s
  | .mmuFaultRead v => Sys2Proof.Machine.execMmuFaultRead v s
  | .bar2Access write off len data => Sys2Proof.Machine.execBar2Access write off len data s
  | .dmaCopy => Sys2Proof.Machine.execDmaCopy s
  | .dmaFill => Sys2Proof.Machine.execDmaFill s
  | .checkUnitAcquire e => Sys2Proof.Machine.execCheckUnitAcquire e s
  | .transferUnit e => Sys2Proof.Machine.execTransferUnit e s
  | .hostAccess e => Sys2Proof.Machine.execHostAccess e s
  | .dmaSave e => Sys2Proof.Machine.execDmaSave e s
  | .arbiterGrant cls inst arrivals => Sys2Proof.Machine.execArbiterGrant cls inst arrivals s
  | .burstLimitExpiry cls inst => Sys2Proof.Machine.execBurstLimitExpiry cls inst s
  | .requestDrop cls inst req => Sys2Proof.Machine.execRequestDrop cls inst req s
  | .arbSelect v => Sys2Proof.Machine.execArbSelect v s
  | .arbClearAll => Sys2Proof.Machine.execArbClearAll s
  | .arbClearSelected => Sys2Proof.Machine.execArbClearSelected s
  | .doorbellWrite m size v => Sys2Proof.Machine.execDoorbellWrite m size v s
  | .commandTake => Sys2Proof.Machine.execCommandTake s
  | .mbxCqHead m v => Sys2Proof.Machine.execMbxCqHead m v s
  | .mbxCtrl m v => Sys2Proof.Machine.execMbxCtrl m v s
  | .hello h minV maxV resetSeq seqBase hostId => Sys2Proof.Machine.execHello h minV maxV resetSeq seqBase hostId s
  | .identify h buffer => Sys2Proof.Machine.execIdentify h buffer s
  | .configRead h buffer bytes => Sys2Proof.Machine.execConfigRead h buffer bytes s
  | .configWrite h source bytes persist => Sys2Proof.Machine.execConfigWrite h source bytes persist s
  | .resetWarm h => Sys2Proof.Machine.execResetWarm h s
  | .warmReset => Sys2Proof.Machine.execWarmReset s
  | .spaceSet h space enable => Sys2Proof.Machine.execSpaceSet h space enable s
  | .map h space memory pageSize write kv va bytes hostBase => Sys2Proof.Machine.execMap h space memory pageSize write kv va bytes hostBase s
  | .unmap h space va bytes => Sys2Proof.Machine.execUnmap h space va bytes s
  | .calibrate h first pass count => Sys2Proof.Machine.execCalibrate h first pass count s
  | .referenceSet h enable => Sys2Proof.Machine.execReferenceSet h enable s
  | .fwStage h source bytes component => Sys2Proof.Machine.execFwStage h source bytes component s
  | .fwActivate h => Sys2Proof.Machine.execFwActivate h s
  | .fwRecovery h => Sys2Proof.Machine.execFwRecovery h s
  | .fabricForm h acceptSwap => Sys2Proof.Machine.execFabricForm h acceptSwap s
  | .fabricCut h cx cy cz => Sys2Proof.Machine.execFabricCut h cx cy cz s
  | .editionSwitch h edition => Sys2Proof.Machine.execEditionSwitch h edition s
  | .editionRelease h edition => Sys2Proof.Machine.execEditionRelease h edition s
  | .graphLoad h slot space descriptor => Sys2Proof.Machine.execGraphLoad h slot space descriptor s
  | .graphRun h slot => Sys2Proof.Machine.execGraphRun h slot s
  | .graphCancel h slot => Sys2Proof.Machine.execGraphCancel h slot s
  | .graphUnload h slot => Sys2Proof.Machine.execGraphUnload h slot s
  | .requestAdmit h b => Sys2Proof.Machine.execRequestAdmit h b s
  | .requestRetire h id => Sys2Proof.Machine.execRequestRetire h id s
  | .retireEffect id => Sys2Proof.Machine.execRetireEffect id s
  | .adapterLoad h id memory source bytes => Sys2Proof.Machine.execAdapterLoad h id memory source bytes s
  | .adapterUnload h id => Sys2Proof.Machine.execAdapterUnload h id s
  | .nop h => Sys2Proof.Machine.execNop h s
  | .bootRom selftest => Sys2Proof.Machine.execBootRom selftest s
  | .enterFw => Sys2Proof.Machine.execEnterFw s
  | .storeCheck => Sys2Proof.Machine.execStoreCheck s
  | .earlyLinkRequest port p => Sys2Proof.Machine.execEarlyLinkRequest port p s
  | .taskIssue => Sys2Proof.Machine.execTaskIssue s
  | .taskComplete => Sys2Proof.Machine.execTaskComplete s
  | .pipTaskStart => Sys2Proof.Machine.execPipTaskStart s
  | .pipCoreExit core result accesses => Sys2Proof.Machine.execPipCoreExit core result accesses s
  | .pipException core => Sys2Proof.Machine.execPipException core s
  | .pipQuantumEnd core => Sys2Proof.Machine.execPipQuantumEnd core s
  | .graphComplete slot => Sys2Proof.Machine.execGraphComplete slot s
  | .graphOverrun slot => Sys2Proof.Machine.execGraphOverrun slot s
  | .frameLimit slot => Sys2Proof.Machine.execFrameLimit slot s
  | .grfFrameRequest v => Sys2Proof.Machine.execGrfFrameRequest v s
  | .stepCompose => Sys2Proof.Machine.execStepCompose s
  | .runStart template => Sys2Proof.Machine.execRunStart template s
  | .handoffReceive p => Sys2Proof.Machine.execHandoffReceive p s
  | .sampleAndVerify => Sys2Proof.Machine.execSampleAndVerify s
  | .draft => Sys2Proof.Machine.execDraft s
  | .token p => Sys2Proof.Machine.execToken p s
  | .rollback p => Sys2Proof.Machine.execRollback p s
  | .tierWindowEnd => Sys2Proof.Machine.execTierWindowEnd s
  | .passPendingDecade tile => Sys2Proof.Machine.execPassPendingDecade tile s
  | .passPendingTrackPeriod tile => Sys2Proof.Machine.execPassPendingTrackPeriod tile s
  | .passPendingFinePeriod tile => Sys2Proof.Machine.execPassPendingFinePeriod tile s
  | .passStart die => Sys2Proof.Machine.execPassStart die s
  | .calibrationStep => Sys2Proof.Machine.execCalibrationStep s
  | .passMeasurementEnd tile r => Sys2Proof.Machine.execPassMeasurementEnd tile r s
  | .calTileSelect v => Sys2Proof.Machine.execCalTileSelect v s
  | .portTraining port lanes => Sys2Proof.Machine.execPortTraining port lanes s
  | .portRetrain port lanes => Sys2Proof.Machine.execPortRetrain port lanes s
  | .linkHello port p => Sys2Proof.Machine.execLinkHello port p s
  | .planCheckTimeout port => Sys2Proof.Machine.execPlanCheckTimeout port s
  | .planReport r => Sys2Proof.Machine.execPlanReport r s
  | .form p => Sys2Proof.Machine.execForm p s
  | .flitReceive port bytes => Sys2Proof.Machine.execFlitReceive port bytes s
  | .linkFailure port half => Sys2Proof.Machine.execLinkFailure port half s
  | .packetReceive p => Sys2Proof.Machine.execPacketReceive p s
  | .e2eAck src channel => Sys2Proof.Machine.execE2eAck src channel s
  | .e2eReplay dst channel => Sys2Proof.Machine.execE2eReplay dst channel s
  | .retryAfter dst channel seq hint => Sys2Proof.Machine.execRetryAfter dst channel seq hint s
  | .lost dst channel seq status => Sys2Proof.Machine.execLost dst channel seq status s
  | .syncExchange port t1 t2 t3 t4 => Sys2Proof.Machine.execSyncExchange port t1 t2 t3 t4 s
  | .deviceSilentCut device => Sys2Proof.Machine.execDeviceSilentCut device s
  | .allReduce => Sys2Proof.Machine.execAllReduce s
  | .reduceScatter => Sys2Proof.Machine.execReduceScatter s
  | .allGather => Sys2Proof.Machine.execAllGather s
  | .broadcast => Sys2Proof.Machine.execBroadcast s
  | .send => Sys2Proof.Machine.execSend s
  | .receive => Sys2Proof.Machine.execReceive s
  | .relay => Sys2Proof.Machine.execRelay s
  | .relayUnit => Sys2Proof.Machine.execRelayUnit s
  | .collectiveTimeout => Sys2Proof.Machine.execCollectiveTimeout s
  | .abort p => Sys2Proof.Machine.execAbort p s
  | .digestSlice => Sys2Proof.Machine.execDigestSlice s
  | .digestReport r => Sys2Proof.Machine.execDigestReport r s
  | .expel p => Sys2Proof.Machine.execExpel p s
  | .lnkPeerSelect v => Sys2Proof.Machine.execLnkPeerSelect v s
  | .deviceError => Sys2Proof.Machine.execDeviceError s
  | .cperRingWrite => Sys2Proof.Machine.execCperRingWrite s
  | .evrRestart v => Sys2Proof.Machine.execEvrRestart v s
  | .evrCperHead v => Sys2Proof.Machine.execEvrCperHead v s
  | .evrCperCtrl v => Sys2Proof.Machine.execEvrCperCtrl v s
  | .crcFeedB n v => Sys2Proof.Machine.execCrcFeedB n v s
  | .crcFeedH n v => Sys2Proof.Machine.execCrcFeedH n v s
  | .crcFeedW n v => Sys2Proof.Machine.execCrcFeedW n v s
  | .crcRestart n => Sys2Proof.Machine.execCrcRestart n s
  | .crcValueLo n v => Sys2Proof.Machine.execCrcValueLo n v s
  | .crcValueHi n v => Sys2Proof.Machine.execCrcValueHi n v s
  | .pauseTick => Sys2Proof.Machine.execPauseTick s
  | .swapEnd => Sys2Proof.Machine.execSwapEnd s
  | .resumeTick => Sys2Proof.Machine.execResumeTick s
  | .fwConfirm => Sys2Proof.Machine.execFwConfirm s
  | .confirmationWindowEnd => Sys2Proof.Machine.execConfirmationWindowEnd s
  | .getVersion => Sys2Proof.Machine.execGetVersion s
  | .getCapabilities => Sys2Proof.Machine.execGetCapabilities s
  | .negotiateAlgorithms => Sys2Proof.Machine.execNegotiateAlgorithms s
  | .getDigests => Sys2Proof.Machine.execGetDigests s
  | .getCertificate offset length => Sys2Proof.Machine.execGetCertificate offset length s
  | .challenge nonce => Sys2Proof.Machine.execChallenge nonce s
  | .getMeasurements nonce index => Sys2Proof.Machine.execGetMeasurements nonce index s
  | .eraseNonce => Sys2Proof.Machine.execEraseNonce s
  | .eraseNonceExpiry => Sys2Proof.Machine.execEraseNonceExpiry s
  | .eraseWeights sig => Sys2Proof.Machine.execEraseWeights sig s
  | .jtagUnlock token => Sys2Proof.Machine.execJtagUnlock token s
  | .hubFwSelect v => Sys2Proof.Machine.execHubFwSelect v s
  | .hubSecCounterSelect v => Sys2Proof.Machine.execHubSecCounterSelect v s
  | .srvRequestSelect v => Sys2Proof.Machine.execSrvRequestSelect v s
  | .sequenceEntryDue n => Sys2Proof.Machine.execSequenceEntryDue n s
  | .conversionComplete n samples => Sys2Proof.Machine.execConversionComplete n samples s
  | .openWireTest n u d => Sys2Proof.Machine.execOpenWireTest n u d s
  | .urgentConversion v => Sys2Proof.Machine.execUrgentConversion v s
  | .urgentDone conv code => Sys2Proof.Machine.execUrgentDone conv code s
  | .testDac v => Sys2Proof.Machine.execTestDac v s
  | .sensorSample n reading => Sys2Proof.Machine.execSensorSample n reading s
  | .thermalShutdown n reading => Sys2Proof.Machine.execThermalShutdown n reading s
  | .governorPeriod => Sys2Proof.Machine.execGovernorPeriod s
  | .pwrOff hi v => Sys2Proof.Machine.execPwrOff hi v s
  | .domainSwitchOff n => Sys2Proof.Machine.execDomainSwitchOff n s
  | .domainOn n => Sys2Proof.Machine.execDomainOn n s
  | .telemetryRefresh => Sys2Proof.Machine.execTelemetryRefresh s
  | .powerUp => Sys2Proof.Machine.execPowerUp s
  | .powerFail => Sys2Proof.Machine.execPowerFail s
  | .perstAssert => Sys2Proof.Machine.execPerstAssert s
  | .moduleRstAssert => Sys2Proof.Machine.execModuleRstAssert s
  | .resetDeassert straps recovery => Sys2Proof.Machine.execResetDeassert straps recovery s
  | .shutdownLatchClear => Sys2Proof.Machine.execShutdownLatchClear s
  | .getTelemetry piece => Sys2Proof.Machine.execGetTelemetry piece s
  | .getCper index => Sys2Proof.Machine.execGetCper index s
  | .setBoardLimit w => Sys2Proof.Machine.execSetBoardLimit w s
  | .getShutdown => Sys2Proof.Machine.execGetShutdown s
  | .getIdentity => Sys2Proof.Machine.execGetIdentity s
  | .attentionResume => Sys2Proof.Machine.execAttentionResume s
  | .dmaResume e => Sys2Proof.Machine.execDmaResume e s
  | .lowHalfRead off => Sys2Proof.Machine.execLowHalfRead off s

end Sys2Proof.Machine
end

