-- ==== Sys2Proof/Safety.lean ====
section
/-! DEFINITION. What counts as a safe run: the block never stops, and its non-volatile state and its keys keep the promises of
R421, R438, R445 and R446. -/

namespace Sys2Proof.Safety

/-- The step from `s` answers a next state: no fault and no refusal. -/
def Runs (s : Machine.State) : Prop := ∃ t, Machine.step s = .next t

/-- Flash keeps its layout (R263, R438, R484): eleven counters of at most 32 bits, as is the one before a
write, a commit marker of 64 bytes, a serial number of 14 characters; and there are eight firmware components (R420). -/
def FlashWf (s : Machine.State) : Prop :=
  s.flash.counters.length = 11 ∧ (∀ k, s.counter k ≤ 0xFFFFFFFF) ∧ s.flash.before ≤ 0xFFFFFFFF ∧ s.flash.marker.length = 64 ∧
    s.flash.serial.length = 14 ∧ s.fw.comps.length = 8

/-- The approved mode stands on passed self-tests and closed debug, with the keys derived (R437, R445, R446). -/
def ApprovedWf (s : Machine.State) : Prop :=
  s.sec.approved = true → s.sec.selftestOk = true ∧ s.sec.jtag = false ∧ s.sec.keys = some Config.pufKeys

end Sys2Proof.Safety
end

