-- ==== Sys2Proof/Certificates/Slice0/Obligations.lean ====
section
/-! DEFINITION. The statements about the model: what the commands and the machine do by the rules of the manual. -/

open Sys2Proof Sys2Proof.Machine

/-! ## The queue of commands -/

/-- A step carries out the command at the front of the queue, with the queue's rest left waiting: what is stated below of
each command reaches a run through this. (A block takes commands from outside; the queue is the model's own, log entry
1.) -/
def Obligations.StepRunsFront : Prop :=
  ∀ (s : State) (c : Instr), step { s with pending := c :: s.pending } = exec c s

/-- The block never stops: from every state, reached or not, a step with a command at the front of the queue answers a next
state, whatever the command and its operands (no fault, no refusal), and the commands behind it wait on unchanged. -/
def Obligations.EveryStepRuns : Prop :=
  ∀ (s : State) (c : Instr) (rest : List Instr), s.pending = c :: rest → ∃ t, step s = .next t ∧ t.pending = rest

/-! ## Arbiters (R234-R242) -/

/-- ARBITER_GRANT at a free resource with a requester (R235): the owner is a waiting or arriving requester of the highest
rank present and, within that rank, the first one after the one last granted; every other requester waits; and the grant
is counted (R239). Nothing but the arbiters and the worst-wait registers changes. -/
def Clause.ArbiterGrantsHighestRank : Prop :=
  ∀ (s : State) (cls inst : Nat) (arrivals : List (Nat × Bool)), inst < arbInstances cls →
    (s.dev.arbInst cls inst).owner = none →
    let asks (q : Nat) : Prop :=
      q ∈ arrivals.map (·.1) ∧ q < arbRequesters cls ∨ ∃ x ∈ (s.dev.arbInst cls inst).waiting, x.id = q
    (∃ q, asks q) →
    ∃ t w, exec (.arbiterGrant cls inst arrivals) s = .next t ∧ asks w ∧
      (t.dev.arbInst cls inst).owner = some w ∧
      (∀ q, asks q → s.dev.arbRank cls q ≤ s.dev.arbRank cls w) ∧
      (∀ q, asks q → s.dev.arbRank cls q = s.dev.arbRank cls w →
        let last := (look (s.dev.arbInst cls inst).last (s.dev.arbRank cls w)).getD (arbRequesters cls - 1)
        afterLast (arbRequesters cls) last w ≤ afterLast (arbRequesters cls) last q) ∧
      (∀ q, asks q → q ≠ w → ∃ x ∈ (t.dev.arbInst cls inst).waiting, x.id = q) ∧
      (t.dev.arbCount cls inst w).grants = min ((s.dev.arbCount cls inst w).grants + 1) (2 ^ 48 - 1) ∧
      t = { s with dev := { s.dev with arb := t.dev.arb, regs := t.dev.regs } }

/-- A grant is never taken away (R235): ARBITER_GRANT at an owned resource leaves the owner, and the requesters that
arrive join the waiting ones. A grant lasts until its owner drops its request (REQUEST_DROP) or its burst limit expires
(BURST_LIMIT_EXPIRY: the owner joins the waiting requesters); a requester that drops its request while waiting is removed
and counts no grant. -/
def Clause.ArbiterGrantLasts : Prop :=
  ∀ (s : State) (cls inst : Nat),
    (∀ (arrivals : List (Nat × Bool)) (q : Nat), inst < arbInstances cls → (s.dev.arbInst cls inst).owner = some q →
      ∃ t, exec (.arbiterGrant cls inst arrivals) s = .next t ∧ (t.dev.arbInst cls inst).owner = some q ∧
        (∀ p ∈ arrivals.map (·.1), p < arbRequesters cls → p ≠ q → ∃ x ∈ (t.dev.arbInst cls inst).waiting, x.id = p) ∧
        (∀ x ∈ (s.dev.arbInst cls inst).waiting, x ∈ (t.dev.arbInst cls inst).waiting) ∧
        t.dev.arb.counts = s.dev.arb.counts) ∧
    (∀ q, (s.dev.arbInst cls inst).owner = some q →
      ∃ t, exec (.burstLimitExpiry cls inst) s = .next t ∧ (t.dev.arbInst cls inst).owner = none ∧
        (∃ x ∈ (t.dev.arbInst cls inst).waiting, x.id = q) ∧
        s.dev.now ≤ t.dev.now ∧ t.dev.arb.counts = s.dev.arb.counts) ∧
    (∀ q, arbNames cls inst q = true →
      ∃ t, exec (.requestDrop cls inst q) s = .next t ∧ (t.dev.arbInst cls inst).owner ≠ some q ∧
        (∀ x, x ∈ (t.dev.arbInst cls inst).waiting ↔ x ∈ (s.dev.arbInst cls inst).waiting ∧ x.id ≠ q) ∧
        ((s.dev.arbInst cls inst).owner ≠ some q →
          (t.dev.arbInst cls inst).owner = (s.dev.arbInst cls inst).owner) ∧
        t.dev.arb.counts = s.dev.arb.counts)

/-- The commands of the ARB_ registers (R242): ARB_SELECT takes a snapshot of the three counters of the requester that
its fields name, or zeros where they name none; ARB_CLEAR_ALL sets every counter and the worst wait to 0;
ARB_CLEAR_SELECTED sets those of the requester selected to 0 and leaves every other. -/
def Clause.ArbRegisterCommands : Prop :=
  ∀ s : State, s.running = true →
    (∀ v : Word, ∃ t, exec (.arbSelect v) s = .next t ∧
      let cls := bits v.toNat 25 24
      let inst := bits v.toNat 22 16
      let req := bits v.toNat 4 0
      let c : ArbCount := if arbNames cls inst req then s.dev.arbCount cls inst req else {}
      t.dev.arbSelected = (cls, inst, req) ∧ t.dev.reg64 Off.arbGrantsLo = c.grants % 2 ^ 64 ∧
        t.dev.reg64 Off.arbWaitLo = c.waits % 2 ^ 64 ∧ t.dev.reg Off.arbLongest = c.longest % 2 ^ 32 ∧
        t = { s with dev := { s.dev with regs := t.dev.regs } }) ∧
    (∃ t, exec .arbClearAll s = .next t ∧
      (∀ cls inst req, (t.dev.arbCount cls inst req).grants = 0 ∧ (t.dev.arbCount cls inst req).waits = 0 ∧
        (t.dev.arbCount cls inst req).longest = 0) ∧
      t.dev.reg Off.arbWorst = 0 ∧ t.dev.reg Off.arbWorstWho = 0 ∧ t.dev.arb.insts = s.dev.arb.insts) ∧
    (∃ t, exec .arbClearSelected s = .next t ∧
      (∀ cls inst req, t.dev.arbCount cls inst req =
        if s.dev.arbSelected = (cls, inst, req) then { cls := cls, inst := inst, req := req }
        else s.dev.arbCount cls inst req) ∧
      t = { s with dev := { s.dev with arb := { s.dev.arb with counts := t.dev.arb.counts } } })

/-- Arbiters: who is granted, how long a grant lasts, and the arbiter registers: the statements Clause.ArbiterGrantsHighestRank, Clause.ArbiterGrantLasts, Clause.ArbRegisterCommands, whose docstrings say each. -/
def Obligations.ArbitersGrantByRank : Prop :=
  Clause.ArbiterGrantsHighestRank ∧ Clause.ArbiterGrantLasts ∧ Clause.ArbRegisterCommands

/-! ## The event recorder and the CPER ring (R400-R417) -/

/-- A full recorder writes nothing more (R410): with 65,536 records, an event adds none, LOST counts it and EVR_STATUS.LOST
is set; below that, the event is the newest record, with the next SEQUENCE, and vector 18 is sent at a multiple of NOTIFY and
with the last record. EVR_STATUS.FULL and EVR_COUNT report the records. -/
def Clause.RecorderKeepsFirstEvents : Prop :=
  ∀ (d : Dev) (code : Nat) (e : EventRec),
    (d.evr.records.length < 65536 → ∃ r, (d.event code e).evr.records = d.evr.records ++ [r] ∧ r.code = code ∧
      r.seq = d.evr.nextSeq ∧ r.ts = d.now ∧ (d.event code e).evr.nextSeq = (d.evr.nextSeq + 1) % 2 ^ 32 ∧
      (d.event code e).regs = d.regs ∧ (d.event code e).env = (if d.evr.records.length + 1 = 65536 ∨
        d.fld Off.evrCtrl 15 0 ≠ 0 ∧ (d.evr.records.length + 1) % d.fld Off.evrCtrl 15 0 = 0 then (d.vector 18).env
        else d.env)) ∧
    (65536 ≤ d.evr.records.length → (d.event code e).evr = d.evr ∧
      (d.event code e).reg Off.evrLost = min (d.reg Off.evrLost + 1) 0xFFFFFFFF ∧
      (d.event code e).bitAt Off.evrStatus 2 = true ∧ (d.event code e).env = d.env) ∧
    ∀ s : State, bit (s.liveReg Off.evrStatus) 0 = decide (65536 ≤ s.dev.evr.records.length) ∧
      (s.dev.evr.records.length ≤ 65536 → bits (s.liveReg Off.evrCount) 16 0 = s.dev.evr.records.length)

/-- EVR_RESTART clears every record and leaves SEQUENCE running (R410). EVR_CPER_HEAD takes a value from the current one
up to the tail, and ignores every other (R417). EVR_CPER_CTRL takes sizes 4 to 12 while the recorder is idle, and sets
HEAD and TAIL to 0 (R417). -/
def Clause.RecorderRegisters : Prop :=
  ∀ (s : State) (v : Word), s.running = true →
    (∃ t, exec (.evrRestart v) s = .next t ∧
      t.dev.evr = (if bit v.toNat 16 then { s.dev.evr with records := [] } else s.dev.evr) ∧
      t.dev.reg Off.evrCtrl = v.toNat % 2 ^ 16 ∧ (∀ o, o ≠ Off.evrCtrl → t.dev.reg o = s.dev.reg o) ∧
      t = { s with dev := { s.dev with evr := t.dev.evr, regs := t.dev.regs } }) ∧
    (∃ t, exec (.evrCperHead v) s = .next t ∧
      t.dev.reg Off.evrCperHead =
        (if (v.toNat + 2 ^ 32 - s.dev.reg Off.evrCperHead) % 2 ^ 32 ≤ s.dev.cperUsed then v.toNat
          else s.dev.reg Off.evrCperHead) ∧
      (∀ o, o ≠ Off.evrCperHead → t.dev.reg o = s.dev.reg o) ∧
      t = { s with dev := { s.dev with regs := t.dev.regs } }) ∧
    (4 ≤ v.toNat % 16 → v.toNat % 16 ≤ 12 → s.dev.reg Off.evrCperTail = s.dev.reg Off.evrCperHead →
      ∃ t, exec (.evrCperCtrl v) s = .next t ∧ t.dev.reg Off.evrCperCtrl = v.toNat % 16 ∧
        t.dev.reg Off.evrCperHead = 0 ∧ t.dev.reg Off.evrCperTail = 0 ∧
        (∀ o, o ≠ Off.evrCperCtrl → o ≠ Off.evrCperHead → o ≠ Off.evrCperTail → t.dev.reg o = s.dev.reg o) ∧
        t = { s with dev := { s.dev with regs := t.dev.regs } }) ∧
    (v.toNat % 16 < 4 ∨ 12 < v.toNat % 16 → exec (.evrCperCtrl v) s = .next s)

/-- The event recorder keeps its first 65,536 records and counts the rest: the statements Clause.RecorderKeepsFirstEvents, Clause.RecorderRegisters, whose docstrings say each. -/
def Obligations.RecorderCommands : Prop :=
  Clause.RecorderKeepsFirstEvents ∧ Clause.RecorderRegisters

/-- CPER_RING_WRITE with the ring enabled and room in it (R404): the oldest record of the device queue stands in host
memory at the ring base + 512 × (TAIL mod ring size) as its 264 bytes and 248 zeros, no other byte of host memory changes,
TAIL advances, and vector 18 is sent. -/
def Clause.CperRecordsReachTheRing : Prop :=
  ∀ (s : State) (c : CperRec) (rest : List CperRec), s.dev.evr.queue = c :: rest →
    s.dev.bitAt Off.evrCperBaseLo 0 = true → s.dev.cperUsed < s.dev.cperSize →
    s.dev.env.hostHoles = [] →
    let image := c.bytes s.flash.serial ++ List.replicate 248 0
    let at0 := s.dev.cperSlot (s.dev.reg Off.evrCperTail)
    ∃ t, exec .cperRingWrite s = .next t ∧ t.dev.evr.queue = rest ∧ memLoad t.dev.host at0 image.length = image ∧
      (∀ a, a < at0 ∨ at0 + image.length ≤ a → memGet t.dev.host a = memGet s.dev.host a) ∧
      t.dev.reg Off.evrCperTail = (s.dev.reg Off.evrCperTail + 1) % 2 ^ 32 ∧
      t.dev.env = (s.dev.vector 18).env ∧ (18 ∉ s.dev.env.msixMask → t.dev.env.msix = s.dev.env.msix ++ [18]) ∧
      (18 ∈ s.dev.env.msixMask → 18 ∈ t.dev.env.msixPending) ∧ t.dev.mem = s.dev.mem

/-- DEVICE_ERROR (R403): the fatal error is recorded, AER counts an Uncorrectable Internal Error, and a warm reset is due;
device memory, host memory, the firmware store, the security state and the flash are unchanged. -/
def Clause.DeviceErrorHalts : Prop :=
  ∀ s : State, s.dev.evr.fatal = false →
    ∃ t, exec .deviceError s = .next t ∧ t.dev.evr.fatal = true ∧ t.dev.env.aer = s.dev.env.aer + 1 ∧
      t.dev.mbx.resetDue = true ∧ t.dev.mem = s.dev.mem ∧ t.dev.host = s.dev.host ∧
      t.fw = s.fw ∧ t.sec = s.sec ∧ t.flash = s.flash ∧ t.pending = s.pending

/-- A CPER record reaches host memory whole; a device error is counted and a warm reset is due: the statements Clause.CperRecordsReachTheRing, Clause.DeviceErrorHalts, whose docstrings say each. -/
def Obligations.ErrorRecordsReported : Prop :=
  Clause.CperRecordsReachTheRing ∧ Clause.DeviceErrorHalts

/-! ## Check-value units (R413-R418) -/

/-- The feeds of a check-value unit that no DMA task holds run the procedure of R413 over the bytes of R414, lowest byte
first, and change nothing else. While a task holds the unit they are ignored, and IGNORED is set (R416). -/
def Clause.CrcFeeds : Prop :=
  ∀ (s : State) (n : Nat) (v : Word) (k : Nat) (c : Instr), s.running = true → n < s.dev.crc.length →
    (k = 1 ∧ c = .crcFeedB n v ∨ k = 2 ∧ c = .crcFeedH n v ∨ k = 4 ∧ c = .crcFeedW n v) →
    (s.dev.crcUnit n).holder.isSome = false ∧
      (∃ t, exec c s = .next t ∧
        (t.dev.crcUnit n).r = (List.range k).foldl (fun r i =>
          crcByte (s.dev.crcWidth n) (s.dev.crcPoly n) (s.dev.bitAt (Off.crcCtrl + 0x40 * n) 8) r
            (BitVec.ofNat 8 (v.toNat / 2 ^ (8 * i)))) (s.dev.crcUnit n).r ∧
        (∀ m, m ≠ n → t.dev.crcUnit m = s.dev.crcUnit m) ∧
        t = { s with dev := { s.dev with crc := t.dev.crc } }) ∨
    (s.dev.crcUnit n).holder.isSome = true ∧
      ∃ t, exec c s = .next t ∧ t.dev.bitAt (Off.crcStatus + 0x40 * n) 3 = true ∧ t.dev.crc = s.dev.crc ∧
        (∀ o, o ≠ Off.crcStatus + 0x40 * n → t.dev.reg o = s.dev.reg o) ∧
        t = { s with dev := { s.dev with regs := t.dev.regs } }

/-- CRC_RESTART loads INIT into R (R413); CRC_VALUE_LO is held, and CRC_VALUE_HI then loads both halves into R (R415). -/
def Clause.CrcLoads : Prop :=
  ∀ (s : State) (n : Nat), s.running = true → n < s.dev.crc.length → (s.dev.crcUnit n).holder = none →
    (∃ t, exec (.crcRestart n) s = .next t ∧
      (t.dev.crcUnit n).r = s.dev.crcInit n % 2 ^ s.dev.crcWidth n ∧ (∀ m, m ≠ n → t.dev.crcUnit m = s.dev.crcUnit m) ∧
      t = { s with dev := { s.dev with crc := t.dev.crc } }) ∧
    ∀ lo hi : Word, ∃ t u, exec (.crcValueLo n lo) s = .next t ∧ exec (.crcValueHi n hi) t = .next u ∧
      (t.dev.crcUnit n).r = (s.dev.crcUnit n).r ∧
      (u.dev.crcUnit n).r = (lo.toNat + 2 ^ 32 * hi.toNat) % 2 ^ s.dev.crcWidth n ∧
      (∀ m, m ≠ n → u.dev.crcUnit m = s.dev.crcUnit m) ∧ u = { s with dev := { s.dev with crc := u.dev.crc } }

/-- A computation may be split across contexts and gives the same result (R415): with R read and kept, the unit used for
anything else, and R written back, the feeds that follow end as if nothing had come between. -/
def Clause.CrcContextsRestore : Prop :=
  ∀ (s t : State) (n : Nat) (more : List Byte), s.running = true → t.running = true → n < s.dev.crc.length →
    n < t.dev.crc.length → (t.dev.crcUnit n).holder = none →
    (s.dev.crcUnit n).r < 2 ^ s.dev.crcWidth n → s.dev.crcWidth n ≤ 64 →
    (∀ o, t.dev.reg o = s.dev.reg o) →
    ∃ u w, exec (.crcValueLo n (BitVec.ofNat 32 (s.dev.crcUnit n).r)) t = .next u ∧
      exec (.crcValueHi n (BitVec.ofNat 32 ((s.dev.crcUnit n).r / 2 ^ 32))) u = .next w ∧
      ((w.dev.crcFeed n more).crcUnit n).r =
        more.foldl (crcByte (s.dev.crcWidth n) (s.dev.crcPoly n) (s.dev.bitAt (Off.crcCtrl + 0x40 * n) 8))
          (s.dev.crcUnit n).r

/-- Check-value units: feeds, loads and split computations: the statements Clause.CrcFeeds, Clause.CrcLoads, Clause.CrcContextsRestore, whose docstrings say each. -/
def Obligations.CheckValueUnits : Prop :=
  Clause.CrcFeeds ∧ Clause.CrcLoads ∧ Clause.CrcContextsRestore

/-! ## The command interface (R246-R270) -/

/-- DOORBELL_WRITE (R249): a doorbell at most 16 slots ahead of CONSUMED is taken; one further ahead is refused, and
MBX_STATUS.DOORBELL_RANGE is set. MBX_CQ_HEAD takes a value from the current head up to the tail and ignores every other
(R270). Neither changes anything else. -/
def Clause.MailboxRegisters : Prop :=
  ∀ (s : State) (m : Nat) (v : Word), s.running = true → m < 17 → s.dev.mbx.boxes.length = 17 →
    (∃ t, exec (.doorbellWrite m 4 v) s = .next t ∧
      ((v.toNat % 32 + 32 - (s.dev.box m).consumed) % 32 ≤ 16 →
        t = { s with dev := s.dev.modBox m fun b =>
          { b with doorbell := v.toNat % 32, booting := !s.dev.boxOpen m } }) ∧
      (16 < (v.toNat % 32 + 32 - (s.dev.box m).consumed) % 32 → t.dev.bitAt Off.mbxStatus 4 = true ∧
        t.dev.mbx = s.dev.mbx ∧ t = { s with dev := { s.dev with regs := t.dev.regs } })) ∧
    (∃ t, exec (.mbxCqHead m v) s = .next t ∧
      (t.dev.box m).head =
        (if (v.toNat + 2 ^ 32 - (s.dev.box m).head) % 2 ^ 32 ≤
            ((s.dev.box m).tail + 2 ^ 32 - (s.dev.box m).head) % 2 ^ 32 then v.toNat else (s.dev.box m).head) ∧
      (t.dev.box m).tail = (s.dev.box m).tail ∧ (∀ k, k ≠ m → t.dev.box k = s.dev.box k) ∧
      t = { s with dev := { s.dev with mbx := { s.dev.mbx with boxes := t.dev.mbx.boxes } } }) ∧
    (1 ≤ m → s.dev.boxPaused m = true → 6 ≤ v.toNat % 32 → v.toNat % 32 ≤ 16 →
      v.toNat % 32 ≠ s.dev.fld (mbxCtrlOff m) 4 0 → bit v.toNat 31 = true →
      ∃ t, exec (.mbxCtrl m v) s = .next t ∧ t.dev.fld (mbxCtrlOff m) 4 0 = v.toNat % 32 ∧
        t.dev.boxPaused m = true ∧ (t.dev.box m).head = 0 ∧ (t.dev.box m).tail = 0 ∧ (t.dev.box m).phase = true ∧
        (∀ k, k ≠ m → t.dev.box k = s.dev.box k) ∧ t.dev.mem = s.dev.mem ∧ t.dev.host = s.dev.host) ∧
    (1 ≤ m → s.dev.boxPaused m = false → 6 ≤ v.toNat % 32 → v.toNat % 32 ≤ 16 →
      v.toNat % 32 ≠ s.dev.fld (mbxCtrlOff m) 4 0 →
      ∃ t, exec (.mbxCtrl m v) s = .next t ∧ t.dev.bitAt Off.mbxStatus 2 = true ∧ t.dev.mbx = s.dev.mbx)

/-- The completion record of a command from a host mailbox (R250, R252, R260): while records are not paused and the ring is
configured, the 32 bytes go to entry TAIL mod ring size of the ring with the PHASE of this pass, no other byte of host
memory changes, TAIL advances, PHASE turns over where the ring wraps, the mailbox's vector is sent, one command fewer is
outstanding, and the journal entry of the command is rewritten in place as done. -/
def Clause.CompletionRecordReachesTheRing : Prop :=
  ∀ (d : Dev) (h : CmdHdr) (status result : Nat), 1 ≤ h.mbx → h.mbx < d.mbx.boxes.length → d.ringSize h.mbx ≠ 0 →
    d.boxPaused h.mbx = false → d.env.hostHoles = [] → ¬ (h.silent = true ∧ status = 0) →
    let t := d.complete h status result
    let n := (d.box h.mbx).tail % d.ringSize h.mbx
    let image := upd (cmdRecord h status result d.now) 28 fun x => if (d.box h.mbx).phase then x ||| 1 else x
    let at0 := d.fld (Off.mbxCqBaseLo + 0x20 * h.mbx) 31 12 * 4096 + 2 ^ 32 * d.reg (Off.mbxCqBaseHi + 0x20 * h.mbx) + 32 * n
    memLoad t.host at0 32 = image ∧ (∀ a, a < at0 ∨ at0 + 32 ≤ a → memGet t.host a = memGet d.host a) ∧
      (t.box h.mbx).tail = ((d.box h.mbx).tail + 1) % 2 ^ 32 ∧
      (t.box h.mbx).phase = (if n + 1 = d.ringSize h.mbx then !(d.box h.mbx).phase else (d.box h.mbx).phase) ∧
      (t.box h.mbx).outstanding = (d.box h.mbx).outstanding - 1 ∧ t.env = (d.vector h.mbx).env ∧
      (h.mbx ∉ d.env.msixMask → t.env.msix = d.env.msix ++ [h.mbx]) ∧
      (∀ e ∈ d.mbx.journal, e.j = h.j →
        { e with done := true, completedAt := d.now, status := status } ∈ t.mbx.journal) ∧
      (∀ e ∈ d.mbx.journal, e.j ≠ h.j → e ∈ t.mbx.journal) ∧ t.mem = d.mem ∧ t.regs = d.regs

/-- Doorbells, the completion ring's head, and a completion record in host memory: the statements Clause.MailboxRegisters, Clause.CompletionRecordReachesTheRing, whose docstrings say each. -/
def Obligations.MailboxesAndCompletions : Prop :=
  Clause.MailboxRegisters ∧ Clause.CompletionRecordReachesTheRing

/-- The tests of a command (R250, R253, R254, R261): a mailbox that is not open leaves the command, DOORBELL_STATUS says
BOOTING; a command other than HELLO whose SEQUENCE is not the one expected is answered SEQUENCE_GAP with the expected number and
leaves no journal entry, where an opened mailbox expects 0 first and HELLO moves no expected number; a command that passes is journaled as accepted, its mailbox expects the next SEQUENCE, and one
command more is outstanding. -/
def Clause.CommandTests : Prop :=
  ∀ (d : Dev) (h : CmdHdr), h.mbx < d.mbx.boxes.length →
    (d.boxOpen h.mbx = false → d.accept h = (none, d.modBox h.mbx fun b => { b with booting := true })) ∧
    (d.boxOpen h.mbx = true → d.takeable h.mbx h.fence = true → h.opcode ≠ 1 → h.seq ≠ (d.box h.mbx).expected →
      d.accept h = (none, (d.setBit Off.mbxStatus 1).respond h 0x0008 (d.box h.mbx).expected)) ∧
    ∀ h' d', d.accept h = (some h', d') →
      h' = { h with j := d.mbx.nextJ } ∧ d.boxOpen h.mbx = true ∧ d.takeable h.mbx h.fence = true ∧
      (h.opcode ≠ 1 → h.seq = (d.box h.mbx).expected ∧ (d'.box h.mbx).expected = (h.seq + 1) % 2 ^ 32) ∧
      (d'.box h.mbx).outstanding = (d.box h.mbx).outstanding + 1 ∧ h' ∈ d'.mbx.openCmds ∧
      (d.bring ≠ .recovery → d'.mbx.nextJ = d.mbx.nextJ + 1 ∧
        ({ j := d.mbx.nextJ, seq := h.seq, opcode := h.opcode, mailbox := h.mbx, acceptedAt := d.now, tag := h.tag
           hostTs := h.hostTs } : JournalRec) ∈ d'.mbx.journal) ∧
      (h.opcode = 1 → (d'.box h.mbx).expected = (d.box h.mbx).expected) ∧
      ((d.openBox h.mbx).box h.mbx).expected = 0 ∧ d' = { d with mbx := d'.mbx }

/-- COMMAND_TAKE (R249, R253, R257): the command in the next slot of the mailbox whose turn it is leaves the slot, and what
happens is the command of its opcode, with the operands at their places in the body. A slot that the host wrote again after its
doorbell holds free bytes. -/
def Obligations.CommandTakeCarriesOutTheRow : Prop :=
  ∀ (s : State) (m : Nat), s.running = true → s.dev.turn = some m →
    let l := s.dev.nextSlot m
    let h := parseHeader m l
    let b := (l.drop 64).take 192
    let d : Dev := if s.dev.slotRewritten m then (s.dev.drawBytes 256).2 else s.dev
    let s1 : State := { s with dev := { d with mbx := { d.mbx with served := m } }.modBox m fun b =>
      { b with consumed := (b.consumed + 1) % 32, rewritten := b.rewritten.filter (· ≠ b.consumed % 16) } }
    (s.dev.slotRewritten m = false → l = (s.dev.box m).slot ((s.dev.box m).consumed % 16)) ∧
    let slot := leAt b 0 1 % 16
    (h.opcode = 0x0001 → exec .commandTake s =
      exec (.hello h (leAt b 0 1) (leAt b 1 1) (bit (leAt b 2 1) 0) (leAt b 4 4) (leAt b 8 8)) s1) ∧
    (h.opcode = 0x0002 → exec .commandTake s = exec (.identify h (leAt b 0 8)) s1) ∧
    (h.opcode = 0x0003 → exec .commandTake s = exec (.configRead h (leAt b 0 8) (leAt b 8 4)) s1) ∧
    (h.opcode = 0x0004 → exec .commandTake s =
      exec (.configWrite h (leAt b 0 8) (leAt b 8 4) (bit (leAt b 0xC 1) 0)) s1) ∧
    (h.opcode = 0x0005 → exec .commandTake s = exec (.resetWarm h) s1) ∧
    (h.opcode = 0x0010 → exec .commandTake s = exec (.spaceSet h slot (bit (leAt b 1 1) 0)) s1) ∧
    (h.opcode = 0x0011 → exec .commandTake s =
      exec (.map h slot (bits (leAt b 0 1) 5 4) (leAt b 1 1 % 4) (bit (leAt b 1 1) 2) (bit (leAt b 1 1) 3) (leAt b 8 8)
        (leAt b 0x10 8) (leAt b 0x18 8)) s1) ∧
    (h.opcode = 0x0012 → exec .commandTake s = exec (.unmap h slot (leAt b 8 8) (leAt b 0x10 8)) s1) ∧
    (h.opcode = 0x0020 → exec .commandTake s =
      exec (.calibrate h (bits (leAt b 0 4) 19 0) (bits (leAt b 0 4) 31 30) (leAt b 4 4)) s1) ∧
    (h.opcode = 0x0021 → exec .commandTake s = exec (.referenceSet h (bit (leAt b 0 1) 0)) s1) ∧
    (h.opcode = 0x0030 → exec .commandTake s = exec (.fwStage h (leAt b 0 8) (leAt b 8 4) (leAt b 0xC 1)) s1) ∧
    (h.opcode = 0x0031 → exec .commandTake s = exec (.fwActivate h) s1) ∧
    (h.opcode = 0x0032 → exec .commandTake s = exec (.fwRecovery h) s1) ∧
    (h.opcode = 0x0040 → exec .commandTake s = exec (.fabricForm h (bit (leAt b 0 1) 0)) s1) ∧
    (h.opcode = 0x0041 → exec .commandTake s =
      exec (.fabricCut h (bits (leAt b 0 2) 2 0) (bits (leAt b 0 2) 6 4) (bits (leAt b 0 2) 10 8)) s1) ∧
    (h.opcode = 0x0050 → exec .commandTake s = exec (.editionSwitch h (leAt b 0 4)) s1) ∧
    (h.opcode = 0x0051 → exec .commandTake s = exec (.editionRelease h (leAt b 0 4)) s1) ∧
    (h.opcode = 0x0100 → exec .commandTake s =
      exec (.graphLoad h slot (bits (leAt b 0 1) 7 4) (leAt b 8 8)) s1) ∧
    (h.opcode = 0x0101 → exec .commandTake s = exec (.graphRun h slot) s1) ∧
    (h.opcode = 0x0102 → exec .commandTake s = exec (.graphCancel h slot) s1) ∧
    (h.opcode = 0x0103 → exec .commandTake s = exec (.graphUnload h slot) s1) ∧
    (h.opcode = 0x0110 → exec .commandTake s = exec (.requestAdmit h (parseAdmit b)) s1) ∧
    (h.opcode = 0x0111 → exec .commandTake s = exec (.requestRetire h (leAt b 0 4)) s1) ∧
    (h.opcode = 0x0120 → exec .commandTake s =
      exec (.adapterLoad h (leAt b 0 4) (leAt b 4 1 % 4) (leAt b 8 8) (leAt b 0x10 8)) s1) ∧
    (h.opcode = 0x0121 → exec .commandTake s = exec (.adapterUnload h (leAt b 0 4)) s1) ∧
    (h.opcode = 0x01FF → exec .commandTake s = exec (.nop h) s1)

/-- NOP, RESET_WARM and HELLO, accepted (R255, R257): NOP completes with OK; RESET_WARM completes with OK, and a warm reset
is due; HELLO whose range holds version 1 completes with OK and makes it the version in force, and with RESET_SEQ every
mailbox expects SEQ_BASE; a range without it completes with VERSION and leaves no version in force. -/
def Clause.InterfaceCommands : Prop :=
  ∀ (s : State) (h h' : CmdHdr) (d : Dev),
    (s.dev.accept { h with opcode := 0x01FF } = (some h', d) →
      exec (.nop h) s = .next { s with dev := d.complete h' 0 0 }) ∧
    (s.dev.accept { h with opcode := 0x0005 } = (some h', d) →
      ∃ t, exec (.resetWarm h) s = .next t ∧ t.dev.mbx.resetDue = true ∧
        t = { s with dev := { d.complete h' 0 0 with mbx := { (d.complete h' 0 0).mbx with resetDue := true } } }) ∧
    (s.dev.accept { h with opcode := 0x0001 } = (some h', d) →
      ∀ (minV maxV seqBase hostId : Nat) (resetSeq : Bool),
        let result (v : Nat) := v + 2 ^ 8 + 2 ^ 16 + d.bring.code * 2 ^ 24
        let boxes := if resetSeq then d.mbx.boxes.map fun b => { b with expected := seqBase } else d.mbx.boxes
        (minV ≤ 1 → 1 ≤ maxV → exec (.hello h minV maxV resetSeq seqBase hostId) s =
          .next { s with dev :=
            ({ d with mbx := { d.mbx with version := 1, boxes := boxes } } : Dev).complete h' 0 (result 1) }) ∧
        (1 < minV ∨ maxV < 1 → exec (.hello h minV maxV resetSeq seqBase hostId) s =
          .next { s with dev := ({ d with mbx := { d.mbx with version := 0 } } : Dev).complete h' 0x0003 (result 0) }))

/-- The tests of a command, its sequence numbers, and NOP, RESET_WARM and HELLO: the statements Clause.CommandTests, Clause.InterfaceCommands, whose docstrings say each. -/
def Obligations.CommandTestsAndInterface : Prop :=
  Clause.CommandTests ∧ Clause.InterfaceCommands

/-! ## Translation and faults (R212-R233, R240, R257) -/

/-- The tests of a walk, in the order of R216, over memory without stored errors: an address above 52 bits is
ADDRESS_RANGE; a space without a root is SPACE_DISABLED; an invalid level-0 entry is NOT_MAPPED at level 0, with the entry;
and where valid table entries lead to a valid 2 MiB leaf, aligned and within one memory, the access is translated there,
unless it writes and the leaf's WRITE is 0, which is WRITE_PROTECT at level 2. Every walk is counted in MMU_WALKS and
changes nothing else. -/
def Clause.WalkTestsInOrder : Prop :=
  ∀ (d : Dev) (r : Reader) (space va : Nat) (write : Bool), d.upsets = [] → space < 16 →
    let entry (table i : Nat) := ofLe (memLoad d.mem (table + 8 * i) 8)
    (d.walk r space va write).2 = d.bump64 Off.mmuWalksLo ∧
    (2 ^ 52 ≤ va → (d.walk r space va write).1 = .fault ⟨4, 0, 0, va, write, false⟩) ∧
    (va < 2 ^ 52 → d.root space = none →
      (d.walk r space va write).1 = .fault ⟨5, 0, 0, va, write, false⟩) ∧
    ∀ t0, va < 2 ^ 52 → d.root space = some t0 →
      let e0 := entry t0 (bits va 51 39)
      (e0.testBit 0 = false → (d.walk r space va write).1 = .fault ⟨1, 0, e0, va, write, false⟩) ∧
      ∀ t1 t2 a, e0 = tableBits t1 false → t1 % 4096 = 0 → t1 < 2 ^ 39 → tablePlace t1 4096 = true →
        entry t1 (bits va 38 30) = tableBits t2 false → t2 % 4096 = 0 → t2 < 2 ^ 40 → tablePlace t2 4096 = true →
        a % 2 ^ 21 = 0 → a < 2 ^ 40 → inOneMemory a (2 ^ 21) = true →
        (∀ kv, entry t2 (bits va 29 21) = leafBits 0 a true kv →
          (d.walk r space va write).1 = .ok ⟨space, va / 2 ^ 21 * 2 ^ 21, 2 ^ 21, 0, a, true, kv⟩) ∧
        (∀ kv, entry t2 (bits va 29 21) = leafBits 0 a false kv → write = true →
          (d.walk r space va write).1 = .fault ⟨2, 2, leafBits 0 a false kv, va, true, false⟩)

/-- WALK_COMPLETE (R216, R217, R226, R227): a walk that ends in a translation puts it into the caches, beside the others while
they have room and in the place of one of them when they have none; one that faults NOT_MAPPED or WRITE_PROTECT for a unit's
task that is not stopped, where the unit holds no unresolved fault, leaves a pending record of the access in the slot that has
been free longest, sets MMU_STATUS.FAULT, stops the task and caches nothing. -/
def Clause.WalksEnd : Prop :=
  ∀ (s : State) (cls index space va slot task : Nat) (write : Bool), s.dev.unitTask cls index = some (slot, task) →
    s.dev.stopped slot task = false →
    (∀ x d, s.dev.walk (s.dev.reader cls index slot task) space va write = (.ok x, d) →
      ∃ t, exec (.walkComplete cls index space va write) s = .next t ∧ x ∈ t.dev.mmu.tlb ∧
        (∀ y ∈ t.dev.mmu.tlb, y = x ∨ y ∈ d.mmu.tlb) ∧ t.dev.mem = d.mem ∧ t.dev.regs = d.regs ∧
        (d.mmu.tlb.length < cacheSize →
          t = { s with dev := { d with mmu := { d.mmu with tlb := d.mmu.tlb ++ [x] } } }) ∧
        (cacheSize ≤ d.mmu.tlb.length → t.dev.mmu.tlb.length = d.mmu.tlb.length)) ∧
    ∀ f d k rest, s.dev.walk (s.dev.reader cls index slot task) space va write = (.fault f, d) →
      f.cause = 1 ∨ f.cause = 2 → d.unitHolds cls index = false → d.mmu.slotOrder = k :: rest →
      ∃ t, exec (.walkComplete cls index space va write) s = .next t ∧
        (∃ x, look t.dev.mmu.faults k = some x ∧ x.cause = f.cause ∧ x.unitClass = cls ∧ x.unitIndex = index ∧
          x.write = f.write ∧ x.level = f.level ∧ x.space = space ∧ x.address = f.va ∧ x.entry = f.entry ∧
          x.ts = d.now ∧ x.graph = slot ∧ x.task = task ∧ x.outcome = 0) ∧
        t.dev.stopped slot task = true ∧ t.dev.mmu.tlb = d.mmu.tlb ∧ t.dev.mmu.slotOrder = rest ∧
        t.dev.bitAt Off.mmuStatus 2 = true ∧ t.dev.mem = d.mem

/-- A walk's tests in order, and what a walk leaves: the statements Clause.WalkTestsInOrder, Clause.WalksEnd, whose docstrings say each. -/
def Obligations.WalksTestAndEnd : Prop :=
  Clause.WalkTestsInOrder ∧ Clause.WalksEnd

/-- Damson's actions on a pending fault record (R228, R229): where the access has become possible, FAULT_RESUME gives the
record OUTCOME 1, frees its slot and writes MMU_FAULT_RESOLVE; FAULT_FAIL gives it OUTCOME 2 with the status with which the graph fails, the name of
the cause where none is written; FAULT_TIMEOUT gives it OUTCOME 3, at 200 µs after the record at the earliest, and sets
MMU_STATUS.TIMEOUT. A record that is not pending is left alone. -/
def Clause.FaultRecordsResolve : Prop :=
  ∀ (s : State) (slot : Nat),
    (∀ f, s.dev.pendingFault slot = some f →
      (s.dev.accessible f = true → exec (.faultResume slot) s =
          .next { s with dev := (s.dev.resolveFault slot 1 0).setReg Off.mmuFaultResolve slot } ∧
        look (s.dev.resolveFault slot 1 0).mmu.faults slot =
          some { f with outcome := 1, status := 0, resolvedAt := s.dev.now }) ∧
      (∀ status, s.dev.kvManaged f = false →
        ∃ t, exec (.faultFail slot status) s = .next t ∧ t.fw = s.fw ∧ t.sec = s.sec ∧ t.flash = s.flash ∧
          look t.dev.mmu.faults slot = some { f with outcome := 2, resolvedAt := s.dev.now
                                                     status := if status = 0 then 0x0500 + f.cause else status }) ∧
      (∃ t, exec (.faultTimeout slot) s = .next t ∧ f.ts + 200000 ≤ t.dev.now ∧ s.dev.now ≤ t.dev.now ∧
        t.fw = s.fw ∧ t.sec = s.sec ∧ t.flash = s.flash ∧ t.dev.bitAt Off.mmuStatus 3 = true ∧
        ∃ x, look t.dev.mmu.faults slot = some x ∧ x.outcome = 3)) ∧
    (s.dev.pendingFault slot = none → exec (.faultResume slot) s = .next s ∧
      (∀ status, exec (.faultFail slot status) s = .next s) ∧ exec (.faultTimeout slot) s = .next s)

/-- The five invalidations and their end (R218): with none in progress, one starts, every cached translation in scope is
dropped and every other stays; while one is in progress, GO starts none and sets INV_OVERRUN. INVALIDATION_COMPLETE ends
it. -/
def Clause.InvalidationsDropTheirScope : Prop :=
  ∀ (s : State), s.running = true →
    (∀ (c : Instr) (hit : Tlb → Prop),
      (c = .invalidateAll ∧ (∀ x, hit x ↔ True) ∨
       (∃ sp, c = .invalidateSpace sp ∧ ∀ x, hit x ↔ x.space = sp) ∨
       (∃ sp base pages, 1 ≤ pages ∧ c = .invalidateRange sp base pages ∧
         ∀ x, hit x ↔ x.space = sp ∧ x.va < (base + pages) * 4096 ∧ base * 4096 < x.va + x.bytes) ∨
       (∃ sp, c = .invalidateKvSpace sp ∧ ∀ x, hit x ↔ x.space = sp ∧ x.kv = true) ∨
       c = .invalidateKvAll ∧ ∀ x, hit x ↔ x.kv = true) →
      ∃ t, exec c s = .next t ∧ t.dev.mmu.inv = true ∧
        (s.dev.mmu.inv = false → ∀ x, x ∈ t.dev.mmu.tlb ↔ x ∈ s.dev.mmu.tlb ∧ ¬ hit x) ∧
        (s.dev.mmu.inv = true → t.dev.mmu.tlb = s.dev.mmu.tlb ∧ t.dev.bitAt Off.mmuStatus 5 = true) ∧
        t = { s with dev := { s.dev with regs := t.dev.regs
                                         mmu := { s.dev.mmu with inv := true, tlb := t.dev.mmu.tlb } } }) ∧
    exec .invalidationComplete s = .next { s with dev := { s.dev with mmu := { s.dev.mmu with inv := false } } }

/-- MMU_FAULT_READ puts the 64 bytes of the slot's record into MMU_FAULT_DATA_0 to _15 (R240). BAR2_ACCESS through a cached
translation to device memory, within the size of BAR2, reads the bytes there, or stores the bytes there and nowhere else; a
BAR2 read that faults answers Completer Abort (R231, R244). -/
def Clause.FaultSnapshotAndBar2 : Prop :=
  ∀ (s : State), s.running = true →
    (∀ (v : Word) (f : FaultRec) (i : Nat), look s.dev.mmu.faults (v.toNat % 256) = some f → i < 16 →
      ∃ t, exec (.mmuFaultRead v) s = .next t ∧ t.dev.reg (Off.mmuFaultData + 4 * i) = leAt f.bytes (4 * i) 4 % 2 ^ 32 ∧
        t = { s with dev := { s.dev with regs := t.dev.regs } }) ∧
    ∀ (off len : Nat) (data : List Byte) (x : Tlb),
      let space := s.dev.fld Off.mmuBar2Ctrl 3 0
      let va := (s.dev.reg64 Off.mmuBar2BaseLo + off) % 2 ^ 64
      x.target = 0 → s.dev.upsets = [] →
      (s.dev.cached space va false = some x → 1 ≤ len → va % 4096 + len ≤ 4096 → off + len ≤ 2 ^ s.dev.env.bar2Size →
        exec (.bar2Access false off len data) s = .next { s with dev := { s.dev with env := { s.dev.env with
          bar2 := s.dev.env.bar2 ++ [some (memLoad s.dev.mem (x.pa + (va - x.va)) len)] } } }) ∧
      (s.dev.cached space va true = some x → 1 ≤ data.length → va % 4096 + data.length ≤ 4096 →
        off + data.length ≤ 2 ^ s.dev.env.bar2Size →
        ∃ t, exec (.bar2Access true off len data) s = .next t ∧
          t.dev.mem = memStore s.dev.mem (x.pa + (va - x.va)) data ∧
          (∀ a, a < x.pa + (va - x.va) ∨ x.pa + (va - x.va) + data.length ≤ a →
            memGet t.dev.mem a = memGet s.dev.mem a) ∧
          t = { s with dev := { s.dev with mem := t.dev.mem, grf := { s.dev.grf with colls := t.dev.grf.colls } } }) ∧
      (s.dev.cached space va false = none → 2 ^ 52 ≤ va → 1 ≤ len → va % 4096 + len ≤ 4096 →
        off + len ≤ 2 ^ s.dev.env.bar2Size → s.dev.mmu.slotOrder ≠ [] →
        ∃ t, exec (.bar2Access false off len data) s = .next t ∧ t.dev.env.bar2 = s.dev.env.bar2 ++ [none] ∧
          t.dev.bitAt Off.mmuStatus 4 = true ∧ t.dev.mem = s.dev.mem)

/-- Pending fault records resolve once; the fault snapshot; BAR2 accesses: the statements Clause.FaultRecordsResolve, Clause.FaultSnapshotAndBar2, whose docstrings say each. -/
def Obligations.FaultsAreResolved : Prop :=
  Clause.FaultRecordsResolve ∧ Clause.FaultSnapshotAndBar2

/-- SPACE_SET, MAP and UNMAP, accepted (R218, R219, R257): SPACE_SET of a space in use answers BUSY; one that disables a
space waits, with its new root, for the next tick; MAP whose range meets an earlier one, where its memory is found, answers MAPPED and maps nothing; one
that answers OK records its pages; UNMAP of a range that is no union of earlier MAPs answers NOT_MAPPED. -/
def Clause.MappingCommands : Prop :=
  ∀ (s : State) (h h' : CmdHdr) (d : Dev),
    (s.dev.accept { h with opcode := 0x0010 } = (some h', d) → ∀ space, 1 ≤ space → space ≤ 15 →
      (d.spaceInUse space = true → ∀ enable,
        exec (.spaceSet h space enable) s = .next { s with dev := (d.no 0x0014).finish h' }) ∧
      (d.spaceInUse space = false → exec (.spaceSet h space false) s =
        .next { s with dev := { d with mmu := { d.mmu with rootDue := d.mmu.rootDue ++ [(d.dueTick, space, 0)]
                                                           spaceCmds := d.mmu.spaceCmds ++ [(d.dueTick, h')] } } }) ∧
      (d.spaceInUse space = false → ∀ root d', d.makeRoot space = some (root, d') →
        ∃ t, exec (.spaceSet h space true) s = .next t ∧ t.dev.mmu.rootDue = d'.mmu.rootDue ++ [(d'.dueTick, space, root + 1)] ∧
          t.dev.mmu.spaceCmds = d'.mmu.spaceCmds ++ [(d'.dueTick, h')])) ∧
    (s.dev.accept { h with opcode := 0x0011 } = (some h', d) →
      ∀ (space memory pageSize : Nat) (write kv : Bool) (va bytes hostBase : Nat), mapReserved memory hostBase = false →
        let a := d.doMap space memory pageSize write kv va bytes hostBase
        (a.status = 0 → ∃ t m, exec (.map h space memory pageSize write kv va bytes hostBase) s = .next t ∧
          t.dev = a.dev.complete h' 0 0 ∧ t.dev.mmu.maps = d.mmu.maps ++ [m] ∧ m.space = space ∧ m.va = va ∧
          m.bytes = bytes ∧ m.page = pageOf pageSize ∧ m.memory = memory ∧ m.write = write ∧ m.kv = kv ∧
          m.pages.length = bytes / pageOf pageSize ∧
          (memory = 3 → m.pages = (List.range (bytes / pageOf pageSize)).map fun i => hostBase + pageOf pageSize * i)) ∧
        (∀ m ∈ d.mmu.maps, m.space = space → meets va bytes m.va m.bytes = true → va < 2 ^ 52 → 1 ≤ bytes →
          va % pageOf pageSize = 0 → bytes % pageOf pageSize = 0 → (memory = 3 → hostBase % pageOf pageSize = 0) →
          bytes ≤ [0x6000000000, 0x1E0000000, 0x20000000].getD memory (2 ^ 64) →
          (d.allocPages memory (pageOf pageSize) hostBase (bytes / pageOf pageSize)).isSome = true → exec (.map h space memory pageSize write kv va bytes hostBase) s =
            .next { s with dev := (d.no 0x0012).finish h' })) ∧
    (s.dev.accept { h with opcode := 0x0012 } = (some h', d) → ∀ space va bytes,
      let mine := d.mmu.maps.filter fun m =>
        decide (m.space = space) && decide (va ≤ m.va) && decide (m.va + m.bytes ≤ va + bytes)
      1 ≤ space →
      ((mine.map (·.bytes)).sum ≠ bytes → exec (.unmap h space va bytes) s =
        .next { s with dev := (d.no 0x0501).finish h' }) ∧
      (1 ≤ bytes → (mine.map (·.bytes)).sum = bytes →
        ∃ t, exec (.unmap h space va bytes) s = .next t ∧
          (∀ m, m ∈ t.dev.mmu.maps ↔ m ∈ d.mmu.maps ∧ m ∉ mine) ∧
          (∀ x ∈ t.dev.mmu.tlb, ¬ (x.space = space ∧ x.va < va + bytes ∧ va < x.va + x.bytes)) ∧
          ∀ m ∈ mine, m.memory ≠ 3 → ∀ p ∈ m.pages, (d.grf.tick + 2, p, m.page) ∈ t.dev.mmu.freeing))

/-- Invalidations drop their scope and no more; SPACE_SET, MAP and UNMAP: the statements Clause.InvalidationsDropTheirScope, Clause.MappingCommands, whose docstrings say each. -/
def Obligations.MappingsAndInvalidations : Prop :=
  Clause.InvalidationsDropTheirScope ∧ Clause.MappingCommands

/-! ## DMA engines (R220-R225) -/

/-- DMA_COPY and DMA_FILL (R220, R222): the task issued first starts on the lowest free engine with its body checked; where
its body names a check unit that no task holds, it holds the unit, loaded with INIT. -/
def Clause.DmaTasksStart : Prop :=
  ∀ (s : State) (fill : Bool) (slot task e : Nat) (x : DmaTask) (d : Dev),
    s.dev.issuedWhere 5 (fun k => (k % 16 == 2) == fill) = some (slot, task) → s.dev.freeEngine = some e →
    Chk.thn (s.dev.readBody slot task 64) checkDma = (.ok x, d) →
    (∀ y ∈ d.dma.tasks, y.engine ≠ e) →
    ∃ t y, exec (if fill then .dmaFill else .dmaCopy) s = .next t ∧ y ∈ t.dev.dma.tasks ∧ y.engine = e ∧ y.slot = slot ∧
      y.task = task ∧ y.src = x.src ∧ y.dst = x.dst ∧ y.rowBytes = x.rowBytes ∧ y.rows = x.rows ∧ y.mode = x.mode ∧
      y.row = x.row ∧ y.pos = x.pos ∧ t.dev.mem = d.mem ∧ t.dev.host = d.host ∧
      (x.mode ≠ 0 → x.unit < d.crc.length → (d.crcUnit x.unit).holder = none →
        y.holds = true ∧ (t.dev.crcUnit x.unit).holder = some e ∧ (t.dev.crcUnit x.unit).r = x.init)

/-- TRANSFER_UNIT of a copy or a fill without a check, through cached translations to device memory, where no byte of the
destination overlaps (R221): the unit's bytes, and no others, take the source's values (for a fill, the 8-byte pattern's),
DMA_BYTES counts them, and the task's position advances; the last unit of the last row ends the task. -/
def Obligations.TransferUnitMovesItsBytes : Prop :=
  ∀ (s : State) (e : Nat) (x : DmaTask) (xs xd : Tlb), s.dev.dmaTask e = some x → s.dev.bitAt Off.dmaCtrl 0 = false →
    x.saved = false → x.waits = false → s.dev.stopped x.slot x.task = false → s.dev.marked x.slot x.task = false →
    x.mode = 0 → s.dev.upsets = [] → 1 ≤ x.unitBytes.1 →
    let n := x.unitBytes.1
    let src := x.src + x.row * x.srcStride + x.pos
    let dst := x.dst + x.row * x.dstStride + x.outPos
    (x.fill = false → s.dev.cached x.space src false = some xs ∧ xs.target = 0) →
    s.dev.cached x.space dst true = some xd → xd.target = 0 →
    (∀ i, i < n → x.overlaps x.row (dst + i) = false) →
    let bytes := if x.fill then (List.range n).map fun i => BitVec.ofNat 8 (x.src / 2 ^ (8 * ((x.pos + i) % 8)))
      else memLoad s.dev.mem (xs.pa + (src - xs.va)) n
    let at0 := xd.pa + (dst - xd.va)
    ∃ t, exec (.transferUnit e) s = .next t ∧ t.dev.mem = memStore s.dev.mem at0 bytes ∧ bytes.length = n ∧
      (∀ a, a < at0 ∨ at0 + n ≤ a → memGet t.dev.mem a = memGet s.dev.mem a) ∧ t.dev.host = s.dev.host ∧
      t.dev.reg64 Off.dmaBytesLo = (s.dev.reg64 Off.dmaBytesLo + n) % 2 ^ 64 ∧
      (x.pos + n < x.rowBytes → t.dev.dmaTask e = some { x with pos := x.pos + n, outPos := x.outPos + n, inChunk := 0 }) ∧
      (x.pos + n = x.rowBytes → x.row + 1 < x.rows →
        t.dev.dmaTask e = some { x with row := x.row + 1, pos := 0, outPos := 0, inChunk := 0 }) ∧
      (x.pos + n = x.rowBytes → x.row + 1 = x.rows → t.dev.dmaTask e = none)

/-- The other events of an engine (R222, R224, R225): CHECK_UNIT_ACQUIRE gives a waiting task its unit, released, with its
running value; HOST_ACCESS of a unit whose source lies in host memory, or whose destination does, stops the task with a
HOST_ACCESS record and counts it; DMA_SAVE of a marked task keeps its position and the unit's running value, and releases the
unit and the engine; DMA_RESUME puts the first of the saved tasks that may resume and ran on an engine back on it, free, with
its unit if that is free too. -/
def Clause.DmaEngineEvents : Prop :=
  ∀ (s : State) (e : Nat) (x : DmaTask),
    (s.dev.dmaTask e = some x →
      (x.waits = true → x.mode ≠ 0 → x.unit < s.dev.crc.length → (s.dev.crcUnit x.unit).holder = none →
        ∃ t, exec (.checkUnitAcquire e) s = .next t ∧ (t.dev.crcUnit x.unit).holder = some e ∧
          (t.dev.crcUnit x.unit).r = x.savedR ∧ t.dev.dmaTask e = some { x with holds := true, waits := false } ∧
          t = { s with dev := { s.dev with crc := t.dev.crc, dma := t.dev.dma } }) ∧
      (∀ a d, s.dev.bitAt Off.dmaCtrl 0 = false → x.waits = false → s.dev.stopped x.slot x.task = false →
        s.dev.marked x.slot x.task = false →
        s.dev.translateUnit (s.dev.reader 1 e x.slot x.task) x = (.ok a, d) → a.1 = true ∨ a.2 = true →
        ∃ t, exec (.hostAccess e) s = .next t ∧ t.dev.bitAt Off.dmaStatus 1 = true ∧
          t.dev.reg Off.dmaHostErrors = min (d.reg Off.dmaHostErrors + 1) 0xFFFFFFFF ∧
          t.fw = s.fw ∧ t.sec = s.sec ∧ t.flash = s.flash) ∧
      (s.dev.marked x.slot x.task = true →
        ∃ t, exec (.dmaSave e) s = .next t ∧ t.dev.dmaTask e = none ∧
          (∃ y ∈ t.dev.dma.tasks, y.saved = true ∧ y.slot = x.slot ∧ y.task = x.task ∧ y.row = x.row ∧ y.pos = x.pos ∧
            y.outPos = x.outPos ∧ y.savedR = (if x.holds then (s.dev.crcUnit x.unit).r else x.savedR)) ∧
          (∀ u ∈ t.dev.crc, u.holder ≠ some e) ∧ t.dev.mem = s.dev.mem ∧ t.dev.host = s.dev.host ∧
          t.dev.regs = s.dev.regs)) ∧
    (x ∈ s.dev.dma.tasks → x.saved = true → s.dev.dmaTask e = none →
      (∀ y ∈ s.dev.dma.tasks, y.slot = x.slot → y.task = x.task → y = x) →
      s.dev.firstTask ((s.dev.dma.tasks.filter fun t =>
        t.saved && decide (t.engine = e) && s.dev.canResume t.slot t.task).map fun t => (t.slot, t.task)) =
        some (x.slot, x.task) →
      ∃ t y, exec (.dmaResume e) s = .next t ∧ t.dev.dmaTask e = some y ∧ y.saved = false ∧ y.slot = x.slot ∧
        y.task = x.task ∧ y.row = x.row ∧ y.pos = x.pos ∧ y.outPos = x.outPos ∧ t.dev.mem = s.dev.mem ∧
        t.dev.host = s.dev.host ∧
        (x.mode ≠ 0 → x.unit < s.dev.crc.length → (s.dev.crcUnit x.unit).holder = none →
          (t.dev.crcUnit x.unit).holder = some e ∧ (t.dev.crcUnit x.unit).r = x.savedR))
/-- DMA tasks start, wait for a check unit, are saved and resume: the statements Clause.DmaTasksStart, Clause.DmaEngineEvents, whose docstrings say each. -/
def Obligations.DmaTasksAndEvents : Prop :=
  Clause.DmaTasksStart ∧ Clause.DmaEngineEvents

/-! ## The graph engine (R271-R298) -/

/-- A graph that is no template's, while no operation holds back a change of a tile: that it ends writes no device memory (R86,
R316, R336). -/
def endsAlone (d : Dev) (slot : Nat) : Prop :=
  (d.slot slot).template = none ∧ ∀ l x, d.log l = some x → x.held = []

/-- GRAPH_RUN, GRAPH_CANCEL and GRAPH_UNLOAD, accepted, by the state of the slot (R257, R274): a run of a LOADED slot arms
every task with its PRED_COUNT and makes the slot WAITING, or RUNNING where the graph carries START_NOW; one of an empty
slot is refused, as is one of a slot that runs or waits; a cancel of a WAITING slot ends its run with CANCELLED and
completes, and of a slot that is not running or waiting completes at once; an unload of a LOADED slot empties it, and of one
that runs or waits is refused. -/
def Clause.GraphRunCancelUnload : Prop :=
  ∀ (s : State) (h h' : CmdHdr) (d : Dev) (slot : Nat), slot < d.grf.slots.length →
    (s.dev.accept { h with opcode := 0x0101 } = (some h', d) →
      ((d.slot slot).state = .empty → exec (.graphRun h slot) s = .next { s with dev := (d.no 0x0705).finish h' }) ∧
      ((d.slot slot).state = .waiting ∨ (d.slot slot).state = .running ∨ (d.slot slot).state = .stopping →
        exec (.graphRun h slot) s = .next { s with dev := (d.no 0x0706).finish h' }) ∧
      ((d.slot slot).state = .loaded → ∃ t, exec (.graphRun h slot) s = .next t ∧
        (t.dev.slot slot).state = (if (d.slot slot).startNow then .running else .waiting) ∧
        (t.dev.slot slot).cmd = some h' ∧ (t.dev.slot slot).order = d.grf.order ∧ t.dev.grf.order = d.grf.order + 1 ∧
        (t.dev.slot slot).run.map (·.left) = (d.slot slot).tasks.map (·.preds) ∧ (t.dev.slot slot).done = 0 ∧
        (∀ k, k ≠ slot → t.dev.slot k = d.slot k) ∧
        t = { s with dev := { d with grf := { d.grf with slots := t.dev.grf.slots, order := t.dev.grf.order } } })) ∧
    (s.dev.accept { h with opcode := 0x0102 } = (some h', d) →
      ((d.slot slot).state = .waiting →
        exec (.graphCancel h slot) s = .next { s with dev := (d.finishRun slot 0x0013).complete h' 0 0 } ∧
        ((d.finishRun slot 0x0013).slot slot).state = .loaded) ∧
      ((d.slot slot).state = .empty ∨ (d.slot slot).state = .loaded ∨ (d.slot slot).state = .stopping →
        exec (.graphCancel h slot) s = .next { s with dev := d.complete h' 0 0 }) ∧
      ((d.slot slot).state = .running → d.programming slot = false →
        ∃ t, exec (.graphCancel h slot) s = .next t ∧ (t.dev.slot slot).state = .loaded ∧
          (endsAlone d slot → t.dev.mem = d.mem))) ∧
    (s.dev.accept { h with opcode := 0x0103 } = (some h', d) →
      ((d.slot slot).state = .loaded ∨ (d.slot slot).state = .empty →
        ∃ t, exec (.graphUnload h slot) s = .next t ∧ (t.dev.slot slot).state = .empty ∧ (t.dev.slot slot).tasks = [] ∧
          (∀ k, k ≠ slot → t.dev.slot k = d.slot k) ∧ t.dev.mem = d.mem) ∧
      ((d.slot slot).state = .waiting ∨ (d.slot slot).state = .running ∨ (d.slot slot).state = .stopping →
        exec (.graphUnload h slot) s = .next { s with dev := (d.no 0x0706).finish h' }))

/-- GRAPH_LOAD, accepted (R273): into a slot that is not EMPTY it is refused, and so is a descriptor off its 64-byte
boundary; one that answers OK leaves the slot LOADED with one task header for each of the descriptor's tasks, every
successor of a task later than it and every PRED_COUNT the number of edges that reach it (R277). -/
def Clause.GraphLoad : Prop :=
  ∀ (s : State) (h h' : CmdHdr) (d : Dev) (slot space desc : Nat), slot < d.grf.slots.length →
    s.dev.accept { h with opcode := 0x0100 } = (some h', d) →
    ((d.slot slot).state ≠ .empty →
      exec (.graphLoad h slot space desc) s = .next { s with dev := (d.no 0x0704).finish h' }) ∧
    ((d.slot slot).state = .empty → desc % 64 ≠ 0 →
      exec (.graphLoad h slot space desc) s = .next { s with dev := (d.no 0x000C).finish h' }) ∧
    ((d.graphLoad slot space desc).status = 0 →
      ∃ t, exec (.graphLoad h slot space desc) s = .next t ∧
        let g := t.dev.slot slot
        g.state = .loaded ∧ g.space = space ∧ 1 ≤ g.tasks.length ∧ g.tasks.length ≤ 65536 ∧
        (∀ i x, g.tasks[i]? = some x → 1 ≤ x.type ∧ x.type ≤ 7 ∧
          (∀ e ∈ x.successors g.edges, i < e ∧ e < g.tasks.length) ∧
          x.preds = (g.tasks.map fun y => (y.successors g.edges).count i).sum) ∧
        (∀ k, k ≠ slot → t.dev.slot k = d.slot k))

/-- GRAPH_LOAD, GRAPH_RUN, GRAPH_CANCEL and GRAPH_UNLOAD by the state of the slot: the statements Clause.GraphRunCancelUnload, Clause.GraphLoad, whose docstrings say each. -/
def Obligations.GraphSlotCommands : Prop :=
  Clause.GraphRunCancelUnload ∧ Clause.GraphLoad

/-- TASK_ISSUE (R281, R289): the task issued is one that may be issued, and among those that may, none has a higher graph
rank, and none of the same rank has a GRAPH_RUN accepted earlier. TASK_COMPLETE (R280, R298): a task that its unit has
finished completes, is counted, and each successor with no predecessor left becomes ready. -/
def Obligations.TaskIssueAndCompletion : Prop :=
  (∀ (s : State) (slot task : Nat), s.dev.mbx.refCmd = none → s.dev.pipSaved = [] →
    let can := (s.dev.tasksIn .ready).filter fun t => (s.dev.taskRun t.1 t.2).isVoid || s.dev.mayIssue t.1 t.2
    s.dev.firstTask can = some (slot, task) → (s.dev.taskRun slot task).isVoid = false →
    (slot, task) ∈ can ∧ (∀ c ∈ can, s.dev.rank c.1 ≤ s.dev.rank slot) ∧
    (∀ c ∈ can, s.dev.rank c.1 = s.dev.rank slot → (s.dev.slot slot).order ≤ (s.dev.slot c.1).order) ∧
    ∃ t, exec .taskIssue s = .next t ∧ (t.dev.taskRun slot task).st = .issued ∧
      (∀ k i, (k, i) ≠ (slot, task) → t.dev.taskRun k i = s.dev.taskRun k i) ∧
      t = { s with dev := { s.dev with grf := { s.dev.grf with slots := t.dev.grf.slots } } }) ∧
  ∀ (s : State) (slot task : Nat), s.dev.firstTask (s.dev.tasksIn .ended) = some (slot, task) →
    slot < s.dev.grf.slots.length → task < (s.dev.slot slot).run.length →
    let succ := (s.dev.taskHdr slot task).successors (s.dev.slot slot).edges
    task ∉ succ →
    ∃ t, exec .taskComplete s = .next t ∧ (t.dev.taskRun slot task).st = .complete ∧
      (t.dev.slot slot).done = (s.dev.slot slot).done + 1 ∧
      t.dev.reg64 Off.grfTasksLo = (s.dev.reg64 Off.grfTasksLo + 1) % 2 ^ 64 ∧
      (∀ i, i ≠ task → i < (s.dev.slot slot).run.length →
        (t.dev.taskRun slot i).left = (s.dev.taskRun slot i).left - succ.count i) ∧
      (∀ i ∈ succ, i ≠ task → i < (s.dev.slot slot).run.length → (s.dev.taskRun slot i).st = .waiting →
        (s.dev.taskRun slot i).left = succ.count i → (t.dev.taskRun slot i).st = .ready) ∧
      t.dev.mem = s.dev.mem ∧ t.dev.host = s.dev.host

/-- GRAPH_COMPLETE (R128, R283) of a graph that belongs to no template: with every task and every audit completed, its
GRAPH_RUN completes with OK, or AUDIT_FAILED where an audit failed, with the tasks completed and the overrun frames in
RESULT, and the slot returns to LOADED; a graph with a task or an audit left is unchanged. -/
def Clause.GraphCompletes : Prop :=
  ∀ (s : State) (slot : Nat), slot < s.dev.grf.slots.length →
    ((s.dev.slot slot).finished = true → (s.dev.slot slot).template = none → (s.dev.slot slot).cancel = none →
      ∀ h, (s.dev.slot slot).cmd = some h →
      ∃ t, exec (.graphComplete slot) s = .next t ∧ (t.dev.slot slot).state = .loaded ∧ (t.dev.slot slot).cmd = none ∧
        (∀ k, k ≠ slot → t.dev.slot k = s.dev.slot k) ∧
        t.dev.mbx = (s.dev.complete h (if (s.dev.slot slot).auditFailed then 0x0202 else 0)
          ((s.dev.slot slot).done + 2 ^ 32 * (s.dev.slot slot).overrunFrames)).mbx ∧ t.dev.mem = s.dev.mem) ∧
    ((s.dev.slot slot).state ≠ .running ∨ (∃ x ∈ (s.dev.slot slot).run, x.st ≠ .complete) ∨
        (s.dev.slot slot).audits ≠ 0 → exec (.graphComplete slot) s = .next s)

/-- GRAPH_OVERRUN and FRAME_LIMIT (R287): a graph still running at its FRAMES-th tick has overrun: GRF_OVERRUNS counts it once,
GRF_STATUS.OVERRUN is set, an event record is written, and every graph goes on unchanged. A graph still running at its
LIMIT_FRAMES-th tick fails: GRF_FRAME_LIMITS counts it, GRF_STATUS.FRAME_LIMIT is set, and it runs no more. -/
def Clause.OverrunsAndFrameLimits : Prop :=
  ∀ (s : State) (slot : Nat), slot < s.dev.grf.slots.length → (s.dev.slot slot).state = .running →
    ((s.dev.slot slot).frames ≠ 0 → (s.dev.slot slot).frames ≤ (s.dev.slot slot).ticks →
      (s.dev.slot slot).overran = false → s.dev.evr.records.length < 65536 →
      ∃ t, exec (.graphOverrun slot) s = .next t ∧ (t.dev.slot slot).overran = true ∧
        (t.dev.slot slot).run = (s.dev.slot slot).run ∧ (t.dev.slot slot).state = .running ∧
        t.dev.reg Off.grfOverruns = min (s.dev.reg Off.grfOverruns + 1) 0xFFFFFFFF ∧ t.dev.bitAt Off.grfStatus 3 = true ∧
        (∃ e, t.dev.evr.records = s.dev.evr.records ++ [e] ∧ e.code = 0x0A03 ∧ e.graph = slot) ∧
        (∀ k, k ≠ slot → t.dev.slot k = s.dev.slot k) ∧ t.dev.mem = s.dev.mem) ∧
    ((s.dev.slot slot).frames = 0 ∨ (s.dev.slot slot).ticks < (s.dev.slot slot).frames ∨
        (s.dev.slot slot).overran = true → exec (.graphOverrun slot) s = .next s) ∧
    ((s.dev.slot slot).limit ≠ 0 → (s.dev.slot slot).limit ≤ (s.dev.slot slot).ticks →
      ∃ t, exec (.frameLimit slot) s = .next t ∧ (t.dev.slot slot).state ≠ .running ∧
        t.dev.reg Off.grfFrameLimits = min (s.dev.reg Off.grfFrameLimits + 1) 0xFFFFFFFF ∧
        t.dev.bitAt Off.grfStatus 4 = true ∧ (endsAlone s.dev slot → t.dev.mem = s.dev.mem)) ∧
    ((s.dev.slot slot).limit = 0 ∨ (s.dev.slot slot).ticks < (s.dev.slot slot).limit →
      exec (.frameLimit slot) s = .next s)

/-- A graph completes, overruns its frames, or fails at its frame limit: the statements Clause.GraphCompletes, Clause.OverrunsAndFrameLimits, whose docstrings say each. -/
def Obligations.GraphsEnd : Prop :=
  Clause.GraphCompletes ∧ Clause.OverrunsAndFrameLimits

/-- GRF_FRAME_REQUEST (R285): a length of 8 to 4,000 µs on a device of no formed fabric is pending for the next tick, on
device 0 of a formed fabric for the sixteenth tick after that, on every device, which a notice tells; a request while another
is pending keeps its tick; GRF_STATUS.FRAME_PENDING and GRF_FRAME_AT report it; any other length is ignored, as is a request on
a device of a formed fabric that is not device 0. -/
def Clause.FrameLengthRequests : Prop :=
  ∀ (s : State) (v : Word), s.running = true →
    (8 ≤ bits v.toNat 11 0 → bits v.toNat 11 0 ≤ 4000 → s.dev.lnk.formed = false ∨ s.dev.lnk.outOfPlan = true →
      let due := if s.dev.grf.frameAt = 0 then s.dev.grf.tick + 1 else s.dev.grf.frameAt
      ∃ t, exec (.grfFrameRequest v) s = .next t ∧ t.dev.grf.frameNext = bits v.toNat 11 0 ∧ t.dev.grf.frameAt = due ∧
        t.dev.fld Off.grfFrame 11 0 = bits v.toNat 11 0 ∧ t.dev.fld Off.grfFrame 27 16 = s.dev.fld Off.grfFrame 27 16 ∧
        t.dev.reg64 Off.grfFrameAtLo = due % 2 ^ 64 ∧ t.dev.bitAt Off.grfStatus 6 = true ∧
        t = { s with dev := { s.dev with grf := { s.dev.grf with frameNext := t.dev.grf.frameNext
                                                                 frameAt := t.dev.grf.frameAt }
                                         regs := t.dev.regs } }) ∧
    (8 ≤ bits v.toNat 11 0 → bits v.toNat 11 0 ≤ 4000 → s.dev.lnk.formed = true → s.dev.lnk.outOfPlan = false →
      s.dev.deviceId = 0 →
      let due := if s.dev.grf.frameAt = 0 then s.dev.grf.tick + 17 else s.dev.grf.frameAt
      ∃ t, exec (.grfFrameRequest v) s = .next t ∧ t.dev.grf.frameNext = bits v.toNat 11 0 ∧ t.dev.grf.frameAt = due ∧
        t.dev.bitAt Off.grfStatus 6 = true ∧ ∀ id ∈ s.dev.lnk.joined, id ≠ 0 →
          ∃ p ∈ t.dev.lnk.sent ++ t.dev.lnk.held, p.dst = id ∧ p.channel = 4 ∧ p.type = 0xB ∧
            leAt p.payload 0 4 = bits v.toNat 11 0 ∧ leAt p.payload 4 8 = due % 2 ^ 64) ∧
    (∀ (d : Dev) (p : Packet), p.channel = 4 → p.type = 0xB → (d.deliver p).grf.frameNext = leAt p.payload 0 4 ∧
      (d.deliver p).grf.frameAt = if d.grf.frameAt = 0 then leAt p.payload 4 8 else d.grf.frameAt) ∧
    (bits v.toNat 11 0 < 8 ∨ 4000 < bits v.toNat 11 0 ∨
        s.dev.lnk.formed = true ∧ s.dev.lnk.outOfPlan = false ∧ s.dev.deviceId ≠ 0 →
      exec (.grfFrameRequest v) s = .next s)

/-- Pip tasks (R278, R279, R292): PIP_TASK_START puts the first issued pip task whose cores are free on the lowest free cores
of its clusters, all together, with a0 ARGUMENT, a1 the core's rank and a2 CORES; PIP_CORE_EXIT whose accesses have been made frees
the core where a0 = 0, the last core of the task ending it, and fails the graph with PIP_EXIT where it is not 0; a store to the
core's own memory stays there; PIP_QUANTUM_END counts a quantum; PIP_EXCEPTION fails the graph. -/
def Obligations.PipTasks : Prop :=
  (∀ (s : State) (slot task : Nat) (b : PipBody) (d : Dev),
    s.dev.firstTask ((s.dev.tasksIn .issued).filter fun t => decide ((s.dev.taskHdr t.1 t.2).type = 4) &&
      !s.dev.stopped t.1 t.2 && s.dev.coresFree t.1 t.2) = some (slot, task) →
    Chk.thn (s.dev.readBody slot task 64) checkPip = (.ok b, d) →
    ∃ t, exec .pipTaskStart s = .next t ∧
      (∀ k c, ((d.freeCores b.clusters).take b.cores)[k]? = some c → ∃ p ∈ t.dev.grf.pip, p.core = c ∧ p.slot = slot ∧
        p.task = task ∧ p.rank = k ∧ p.argument = b.argument ∧ p.cores = b.cores ∧ p.entry = b.entry ∧ p.saved = false) ∧
      t.dev.mem = d.mem ∧ t.dev.host = d.host ∧ t.dev.regs = d.regs) ∧
  ∀ (s : State) (core : Nat) (p : PipCore), s.dev.pipCore core = some p →
    (∀ (result : Nat) (accesses : List (Nat × Option Byte)) (u : Unit) (d : Dev), s.dev.stopped p.slot p.task = false →
      accesses.foldl (fun (x : Acc Unit × Dev) a =>
        match x.1 with
        | .ok _ => x.2.pipAccess p a
        | _ => x) (.ok (), s.dev) = (.ok u, d) →
      (result = 0 → ∃ t, exec (.pipCoreExit core result accesses) s = .next t ∧ t.dev.pipCore core = none ∧
        t.dev.mem = d.mem ∧ t.dev.host = d.host ∧
        ((∀ q ∈ d.grf.pip, q.slot = p.slot → q.task = p.task → q.core = core ∧ q.saved = false) →
          t.dev = ({ d with grf := { d.grf with pip := t.dev.grf.pip } } : Dev).endTask p.slot p.task 0)) ∧
      (result ≠ 0 → exec (.pipCoreExit core result accesses) s =
        .next { s with dev := d.failGraph p.slot 0x070A result })) ∧
    (∀ (a : Nat) (b : Byte), a < 0x40000 → (s.dev.pipAccess p (a, some b)).1 = .ok () ∧
      (s.dev.pipAccess p (a, some b)).2.mem = s.dev.mem ∧
      ∃ q, (s.dev.pipAccess p (a, some b)).2.pipCore core = some q ∧ look q.own a = some b) ∧
    (p.limit = 0 ∨ p.quanta + 1 < p.limit → s.dev.marked p.slot p.task = false →
      ∃ t, exec (.pipQuantumEnd core) s = .next t ∧ t.dev.pipCore core = some { p with quanta := p.quanta + 1 } ∧
        t = { s with dev := { s.dev with grf := { s.dev.grf with pip := t.dev.grf.pip } } }) ∧
    (p.slot < s.dev.grf.slots.length → (s.dev.slot p.slot).state = .running → s.dev.programming p.slot = false →
      ∃ t, exec (.pipException core) s = .next t ∧ (t.dev.slot p.slot).state = .loaded ∧
        (∀ q ∈ t.dev.grf.pip, q.slot ≠ p.slot) ∧ (endsAlone s.dev p.slot → t.dev.mem = s.dev.mem))

/-! ## Serving (R300-R340) -/

/-- REQUEST_ADMIT, accepted (R253, R301, R303): a RING off its 4 KiB boundary on a sampling device, layer cycling, a reserved
id, an id already tracked and 4,096 requests are refused in that order; an admission that answers any status but OK keeps nothing of the request; one that answers OK tracks the
request under its id, pinned to the current edition, in the lowest sequence slot that no tracked request holds, with the
operands of the command, its committed length starting behind its prefix, and no other request changes. -/
def Obligations.RequestAdmission : Prop :=
  ∀ (s : State) (h h' : CmdHdr) (d : Dev) (b : AdmitBody), s.dev.accept { h with opcode := 0x0110 } = (some h', d) →
    let samples := ((d.template d.srv.current).map (·.samples)).getD false
    (samples = true → b.ring % 4096 ≠ 0 → exec (.requestAdmit h b) s = .next { s with dev := (d.no 0x000A).finish h' }) ∧
    ((samples = true → b.ring % 4096 = 0) → d.bitAt Off.plnCtrl 0 = true →
      exec (.requestAdmit h b) s = .next { s with dev := (d.no 0x0109).finish h' }) ∧
    ((samples = true → b.ring % 4096 = 0) → d.bitAt Off.plnCtrl 0 = false →
      (b.id = 0xFFFFFFFF → exec (.requestAdmit h b) s = .next { s with dev := (d.no 0x000A).finish h' }) ∧
      (b.id ≠ 0xFFFFFFFF → (d.request b.id).isSome = true →
        exec (.requestAdmit h b) s = .next { s with dev := (d.no 0x0801).finish h' }) ∧
      (b.id ≠ 0xFFFFFFFF → d.request b.id = none → 4096 ≤ d.srv.requests.length →
        exec (.requestAdmit h b) s = .next { s with dev := (d.no 0x0803).finish h' })) ∧
    ∃ t, exec (.requestAdmit h b) s = .next t ∧ t.dev = (d.admission b).finish h' ∧
      ((d.admission b).status ≠ 0 → t.dev.srv.requests = d.srv.requests) ∧
      ((d.admission b).status = 0 → ∃ r, t.dev.request b.id = some r ∧ r.edition = d.srv.current ∧
        (∀ q ∈ d.srv.requests, q.seqSlot ≠ r.seqSlot) ∧
        (∀ k, k < r.seqSlot → ∃ q ∈ d.srv.requests, q.seqSlot = k) ∧ r.order = d.srv.admitted ∧
        r.maxTokens = b.maxTokens ∧ r.promptTokens = b.promptTokens ∧ r.seed = b.seed ∧ r.follow = b.follow ∧
        r.committed = r.prefixLen ∧
        r.prefixLen = (if b.pfx = 0xFFFFFFFF then 0 else ((d.request b.pfx).map Request.promptEnd).getD 0) ∧
        (∀ k, k ≠ b.id → t.dev.request k = d.request k))

/-- REQUEST_RETIRE, RETIRE_EFFECT, ADAPTER_LOAD and ADAPTER_UNLOAD (R330, R337): a tracked request leaves composition at once,
with the tokens emitted in RESULT; retirement takes effect once a tick has come and no run holds its rows: the request, its
KV pages and nothing of another request go. The outcomes of the adapter commands are those of the table, in order; an
image that is loaded stands at its place with the addresses of its points put in. -/
def Clause.RetirementAndAdapters : Prop :=
  (∀ (s : State) (h h' : CmdHdr) (d : Dev) (id : Nat), s.dev.accept { h with opcode := 0x0111 } = (some h', d) →
    (d.request id = none → exec (.requestRetire h id) s = .next { s with dev := (d.no 0x0802).finish h' }) ∧
    ∀ r, d.request id = some r → ∃ t, exec (.requestRetire h id) s = .next t ∧
      t.dev.request id = some (if r.retiring then r else { r with retiring := true, retireTick := d.grf.tick }) ∧
      (∀ k, k ≠ id → t.dev.request k = d.request k) ∧
      (∀ w, w ∈ t.dev.srv.arrivals ↔ w ∈ d.srv.arrivals ∧ w.request ≠ id) ∧
      t = { s with dev := ({ d with srv := { d.srv with requests := t.dev.srv.requests
                                                        arrivals := t.dev.srv.arrivals } } : Dev).complete h' 0 r.emitted }) ∧
  (∀ (s : State) (id : Nat) (r : Request), s.dev.request id = some r →
    (r.retiring = false ∨ s.dev.grf.tick ≤ r.retireTick ∨ s.dev.inRun id = true ∨ s.dev.seqBusy r.seqSlot = true →
      exec (.retireEffect id) s = .next s) ∧
    (r.retiring = true → r.retireTick < s.dev.grf.tick → s.dev.inRun id = false → s.dev.seqBusy r.seqSlot = false →
      ∃ t, exec (.retireEffect id) s = .next t ∧ t.dev.request id = none ∧
        (∀ k, k ≠ id → t.dev.request k = s.dev.request k) ∧
        ∀ m, m ∈ t.dev.att.maps → m ∈ s.dev.att.maps ∧ s.dev.seqOf m.va ≠ some r.seqSlot)) ∧
  (∀ (s : State) (h h' : CmdHdr) (d : Dev) (id memory source bytes : Nat),
    s.dev.accept { h with opcode := 0x0120 } = (some h', d) →
    let no (st : Nat) := exec (.adapterLoad h id memory source bytes) s = .next { s with dev := (d.no st).finish h' }
    (id = 0xFFFFFFFF ∨ 1 < memory → no 0x000A) ∧
    (id ≠ 0xFFFFFFFF → memory ≤ 1 → ((∃ a ∈ d.srv.adapters, a.id = id) → no 0x080A) ∧
      ((∀ a ∈ d.srv.adapters, a.id ≠ id) → 1024 ≤ d.srv.adapters.length → no 0x080B) ∧
      ((∀ a ∈ d.srv.adapters, a.id ≠ id) → d.srv.adapters.length < 1024 → ∀ l d1, d.fetch source bytes = (.ok l, d1) →
        (imageOk l bytes = false →
          exec (.adapterLoad h id memory source bytes) s = .next { s with dev := (d1.no 0x080D).finish h' }) ∧
        ∀ a d2, imageOk l bytes = true → d2.upsets = [] → (if memory = 0 then d1.allocMem .hbm (alignUp bytes 4096) 4096
            else d1.allocNear (alignUp bytes 4096) 4096) = some (a, d2) →
          ∃ t, exec (.adapterLoad h id memory source bytes) s = .next t ∧
            memLoad t.dev.mem a (placeImage l a).length = placeImage l a ∧
            (∀ x, x < a ∨ a + (placeImage l a).length ≤ x → memGet t.dev.mem x = memGet d2.mem x) ∧
            t.dev.srv.adapters = d2.srv.adapters ++ [{ id := id, edition := leAt l 4 4, points := leAt l 0 4, base := a
                                                       bytes := bytes }]))) ∧
  ∀ (s : State) (h h' : CmdHdr) (d : Dev) (id : Nat), s.dev.accept { h with opcode := 0x0121 } = (some h', d) →
    ((∀ a ∈ d.srv.adapters, a.id ≠ id) → exec (.adapterUnload h id) s = .next { s with dev := (d.no 0x0809).finish h' }) ∧
    ∀ a, (d.srv.adapters.find? fun a => decide (a.id = id)) = some a →
      (a.damaged = false → (∃ r ∈ d.srv.requests, r.adapter = some id) →
        exec (.adapterUnload h id) s = .next { s with dev := (d.no 0x080C).finish h' }) ∧
      (a.damaged = true ∨ (∀ r ∈ d.srv.requests, r.adapter ≠ some id) →
        exec (.adapterUnload h id) s = .next { s with dev := ({ d with srv := { d.srv with
          adapters := d.srv.adapters.filter fun a => decide (a.id ≠ id)
          adapterFree := d.srv.adapterFree ++ [(d.grf.tick + 2, a.base, a.bytes)] } } : Dev).complete h' 0 0 })

/-- EDITION_SWITCH and EDITION_RELEASE, accepted (R333, R334): the outcomes of each, in order. A switch that is taken makes the
edition current at the next tick, whose timestamp it returns, and replaces an earlier switch; a release that is taken makes
the edition releasing; neither changes anything else. -/
def Clause.EditionCommands : Prop :=
  ∀ (s : State) (h h' : CmdHdr) (d : Dev) (e : Nat),
    (s.dev.accept { h with opcode := 0x0050 } = (some h', d) →
      let no (st : Nat) := exec (.editionSwitch h e) s = .next { s with dev := (d.no st).finish h' }
      (d.editionTiles e = [] → no 0x080F) ∧
      (d.editionTiles e ≠ [] → (∃ l ∈ d.editionTiles e, d.tileState l = .programming ∨ d.tileState l = .uncalibrated) →
        no 0x0810) ∧
      (d.editionTiles e ≠ [] →
        (∀ l ∈ d.editionTiles e, d.tileState l ≠ .programming ∧ d.tileState l ≠ .uncalibrated) →
        (d.template e = none → no 0x0813) ∧
        (∀ u, d.template e = some u → e = d.srv.current → no 0) ∧
        (∀ u, d.template e = some u → e ≠ d.srv.current →
          exec (.editionSwitch h e) s = .next { s with dev :=
            ({ d with srv := { d.srv with switchDue := some e } } : Dev).complete h' 0 d.nextTick }))) ∧
    (s.dev.accept { h with opcode := 0x0051 } = (some h', d) →
      let no (st : Nat) := exec (.editionRelease h e) s = .next { s with dev := (d.no st).finish h' }
      (e = d.srv.current → no 0x0811) ∧
      (e ≠ d.srv.current → d.editionTiles e = [] → no 0x080F) ∧
      (e ≠ d.srv.current → d.editionTiles e ≠ [] → ∃ t, exec (.editionRelease h e) s = .next t ∧
        e ∈ t.dev.srv.releasing ∧ (∀ x, x ≠ e → (x ∈ t.dev.srv.releasing ↔ x ∈ d.srv.releasing)) ∧
        t = { s with dev := ({ d with srv := { d.srv with releasing := t.dev.srv.releasing } } : Dev).complete h' 0 0 }))

/-- Retirement of requests, adapters, and edition switches and releases: the statements Clause.RetirementAndAdapters, Clause.EditionCommands, whose docstrings say each. -/
def Obligations.RetirementAdaptersEditions : Prop :=
  Clause.RetirementAndAdapters ∧ Clause.EditionCommands

/-- STEP_COMPOSE and RUN_START (R308, R309, R312), and SRV_REQUEST_SELECT (R339). Composition is held while HOLD is set, the
device is paused, halted, expelled or not formed; otherwise it comes no earlier than LEAD before the next tick, a template
whose run has not completed takes no rows, and any other takes at most CAPACITY rows, all of its edition. A composed run
starts at its tick: its graph runs, and one composed too late is counted. SRV_REQUEST_SELECT puts the request's position,
tokens and edition into the snapshot, or zeros for an id that is not tracked. -/
def Obligations.StepsComposeAndStart : Prop :=
  (∀ s : State,
    let held := s.dev.bitAt Off.srvCtrl 0 || s.dev.grf.paused || s.dev.evr.fatal || s.dev.lnk.expelled || !s.dev.isFormed
    (held = true → exec .stepCompose s = .next s) ∧
    (held = false → (s.dev.srv.templates.map (·.index)).Nodup →
      (∀ a ∈ s.dev.srv.arrivals, ∀ b ∈ s.dev.srv.arrivals, a.request = b.request → a.edition = b.edition) →
      ∃ t, exec .stepCompose s = .next t ∧ t.dev.now = max s.dev.now (s.dev.nextTick - s.dev.fld Off.srvCompose 16 0) ∧
        t.dev.srv.templates.length = s.dev.srv.templates.length ∧
        ∀ (i : Nat) (u v : Template), t.dev.srv.templates[i]? = some u → s.dev.srv.templates[i]? = some v → u.index = v.index ∧
          (v.busy (s.dev.grf.tick + 1) = true → u = v) ∧
          (v.busy (s.dev.grf.tick + 1) = false → u.forTick = s.dev.grf.tick + 1 ∧ u.rows.length ≤ v.capacity ∧
            ∀ w ∈ u.rows, w.edition = v.edition))) ∧
  (∀ (s : State) (i : Nat),
    ((∀ u ∈ s.dev.srv.templates, u.index = i → u.rows = [] ∨ s.dev.grf.tick < u.forTick) →
      exec (.runStart i) s = .next s) ∧
    ∀ u, (s.dev.srv.templates.find? fun t => decide (t.index = i)) = some u → u.rows ≠ [] → u.forTick ≤ s.dev.grf.tick →
      (s.dev.slot u.stepSlot).state = .loaded →
      ∃ t, exec (.runStart i) s = .next t ∧ (t.dev.slot u.stepSlot).state = .running ∧
        (t.dev.slot u.stepSlot).run.length = (s.dev.slot u.stepSlot).tasks.length ∧
        (t.dev.slot u.stepSlot).template = some i ∧
        (t.dev.srv.templates.find? fun t => decide (t.index = i)) = some { u with rows := [], running := u.rows } ∧
        (∀ k, k ≠ u.stepSlot → t.dev.slot k = s.dev.slot k) ∧
        t.dev.reg Off.srvLateStarts = (if s.dev.grf.tickTime < u.composedAt
          then min (s.dev.reg Off.srvLateStarts + 1) 0xFFFFFFFF else s.dev.reg Off.srvLateStarts) ∧
        (s.dev.grf.tickTime < u.composedAt → t.dev.bitAt Off.srvStatus 8 = true ∧ u.composedAt ≤ t.dev.now) ∧
        t.dev.mem = s.dev.mem ∧ t.dev.srv.requests = s.dev.srv.requests) ∧
  ∀ (s : State) (v : Word), s.running = true →
    ∃ t, exec (.srvRequestSelect v) s = .next t ∧ t.dev.reg Off.srvRequestSelect = v.toNat ∧
      (s.dev.request v.toNat = none → ∀ i < 5, t.dev.reg (Off.srvRequestState + 4 * i) = 0) ∧
      (∀ r, s.dev.request v.toNat = some r → r.seqSlot < 4096 → r.endReason < 16 →
        t.dev.fld Off.srvRequestState 31 20 = r.seqSlot ∧ t.dev.fld Off.srvRequestState 19 16 = r.endReason ∧
        t.dev.fld Off.srvRequestState 2 0 = r.state.code ∧
        t.dev.reg (Off.srvRequestState + 4) = r.committed % 2 ^ 32 ∧
        t.dev.reg (Off.srvRequestState + 8) = r.emitted % 2 ^ 32) ∧
      t = { s with dev := { s.dev with regs := t.dev.regs } }

/-- SAMPLE_AND_VERIFY and DRAFT (R317, R318, R325): the first issued sample task of its mode draws a token for every row with
SAMPLE and stores one for every row, 0xFFFF_FFFF where none is drawn (with no draft graph following and no count table, memory then
changes no more), and its task ends; a draft appends to the tree of its
request the children of the chain node, the draft's top tokens in order, numbered as created. A row that stands alone emits
its token at the next position: the request has committed it and counts it. -/
def Clause.SamplingAndDrafting : Prop :=
  (∀ (s : State) (slot task : Nat) (x : SampleInput) (d d' : Dev) (u : Unit),
    s.dev.issuedWhere 7 (fun b => decide (b % 16 ≠ 2)) = some (slot, task) → s.dev.sampleInput slot task = (.ok x, d) →
    d.writeVa (d.reader 6 0 slot task) (s.dev.slot slot).space x.body.out
      ((x.rows.zip (x.cands.zip x.counts)).flatMap fun y =>
        le ((d.drawRow x.rows y.1 y.2.1 y.2.2).getD 0xFFFFFFFF) 4) = (.ok u, d') →
    ∃ t, exec .sampleAndVerify s = .next t ∧ (t.dev.taskRun slot task).st = .ended ∧
      ((∀ u ∈ d'.srv.templates, u.draft = false) → (∀ r ∈ d'.srv.requests, r.countAt = none) → t.dev.mem = d'.mem)) ∧
  (∀ (s : State) (slot task : Nat) (b : SampleBody) (e : Nat) (w : StepRow) (cs : List Cand) (ks : List (List (Nat × Nat)))
      (d d' : Dev) (u : Unit) (r : Request),
    s.dev.issuedWhere 7 (fun b => decide (b % 16 = 2)) = some (slot, task) →
    s.dev.sampleInput slot task = (.ok ⟨b, e, [w], [cs], ks⟩, d) →
    d.writeVa (d.reader 6 0 slot task) (s.dev.slot slot).space b.out (le 0xFFFFFFFF 4) = (.ok u, d') →
    d'.request w.request = some r → r.pending = true → r.committed = w.baseLen →
    ∃ t, exec .draft s = .next t ∧ (t.dev.taskRun slot task).st = .ended ∧ t.dev.mem = d'.mem ∧
      (∃ kids, t.dev.request w.request = some { r with tree := r.tree ++ kids } ∧
        kids.length = min r.sampling.width cs.length ∧
        ∀ i n p tok, kids[i]? = some (n, p, tok) → n = r.tree.length + 1 + i ∧ p = w.node ∧
          (sortBy candBefore cs)[i]?.map (·.1) = some tok) ∧
      ∀ k, k ≠ w.request → t.dev.request k = d'.request k) ∧
  ∀ (d : Dev) (edition slot id tok : Nat) (w : StepRow) (r : Request), d.request id = some r → r.state ≠ .ended →
    w.node = 0x7F → w.position + 1 = r.nextPosition →
    ∃ q, (d.emitRequest edition slot id [(w, some tok)]).request id = some q ∧ q.committed = w.position + 1 ∧
      look q.known (w.position + 1) = some tok ∧ q.emitted = r.emitted + 1 ∧
      (q.endReason ≠ 5 → q.endReason = (if r.sampling.stop.contains tok then 1 else if r.emitted + 1 = r.maxTokens then 2
        else if w.position + 1 = 4194303 then 3 else 0) ∧ (q.endReason = 0 ↔ q.state ≠ .ended)) ∧
      ∀ k, k ≠ id → (d.emitRequest edition slot id [(w, some tok)]).request k = d.request k

/-- The verification of a tree (R326): from a node, each accepted node is a child of the one before it and carries the token
drawn there, and the last token drawn is that of no child of the last node accepted. Sizes of trees (R328): the eighth full
rejection in a row takes the tree to size zero; one accepted draft starts the count anew; a probe that accepts restores
full size. -/
def Clause.TreesAreVerified : Prop :=
  (∀ (ws : List (StepRow × Option Nat)) (fuel node : Nat),
    let v := verifyFrom ws fuel node
    (∀ i n tok, v.1[i]? = some (n, tok) →
      ∃ x ∈ ws, x.1.node = n ∧ x.1.token = tok ∧
        x.1.parent = (if i = 0 then node else ((v.1[i - 1]?).map (·.1)).getD 0) ∧
        ∃ y ∈ ws, y.1.node = x.1.parent ∧ y.2 = some tok) ∧
    (∀ tok, v.2 = some tok → ∀ x ∈ ws, x.1.parent = ((v.1.map (·.1)).getLast?).getD node →
      x.1.node ≠ x.1.parent → x.1.token ≠ tok)) ∧
  ∀ (r : Request) (drafted emitted : Nat), r.speculate = true → drafted ≠ 0 →
    (r.full = true → r.rejections + 1 < 8 →
      r.judge drafted 0 emitted = ({ r with rejections := r.rejections + 1 }, false)) ∧
    (r.full = true → 8 ≤ r.rejections + 1 → (r.judge drafted 0 emitted).2 = true ∧
      (r.judge drafted 0 emitted).1.full = false) ∧
    (∀ accepted, 0 < accepted → (r.judge drafted accepted emitted).1.full = true ∧
      (r.judge drafted accepted emitted).1.rejections = 0 ∧ (r.judge drafted accepted emitted).2 = false) ∧
    (r.full = false → (r.judge drafted 0 emitted).1.full = false ∧ (r.judge drafted 0 emitted).2 = false)

/-- Sampling, drafting, and the verification of trees: the statements Clause.SamplingAndDrafting, Clause.TreesAreVerified, whose docstrings say each. -/
def Obligations.SamplingAndVerification : Prop :=
  Clause.SamplingAndDrafting ∧ Clause.TreesAreVerified

/-- TOKEN and ROLLBACK (R309, R336, R338, R389): a token reaches a request that waits for none: its committed length becomes
the token's position, the tokens of the accepted path and the new one are counted, and the embedding device queues the next
input; a notice without a token reports ring room alone; one of a request that is not tracked or has ended changes nothing.
A rollback to q no higher than the committed length makes q the committed length, queues the positions from q below k for
recomputation, and drops tokens beyond k; a higher q changes nothing. -/
def Obligations.TokensAndRollbacks : Prop :=
  (∀ (s : State) (p : Packet),
    let n := parseToken p.payload
    (s.dev.request n.id = none → exec (.token p) s = .next s) ∧
    ∀ r, s.dev.request n.id = some r →
      (r.state = .ended → exec (.token p) s = .next s) ∧
      (r.state ≠ .ended → n.token = 0xFFFFFFFF →
        exec (.token p) s = .next { s with dev := s.dev.modRequest n.id fun r => { r with rings := n.room } }) ∧
      (r.state ≠ .ended → n.token ≠ 0xFFFFFFFF → r.committed < n.position → r.pending = false → r.recompute = [] →
        ∃ t q, exec (.token p) s = .next t ∧ t.dev.request n.id = some q ∧ q.committed = n.position ∧
          q.emitted = r.emitted + n.accepted + 1 ∧ q.accepted = n.path ∧ q.rings = n.room ∧ q.endReason = n.reason ∧
          q.state = (if n.reason = 0 then .decode else .ended) ∧ q.pending = (r.embeds && decide (n.reason = 0)) ∧
          (r.embeds = true → look q.known n.position = some n.token))) ∧
  ∀ (s : State) (p : Packet),
    let id := leAt p.payload 0 4
    let q := leAt p.payload 4 4
    let k := leAt p.payload 8 4
    (s.dev.request id = none → exec (.rollback p) s = .next s) ∧
    ∀ r, s.dev.request id = some r →
      (r.committed < q → exec (.rollback p) s = .next s) ∧
      (q ≤ r.committed → r.endReason ≠ 4 → r.endReason ≠ 5 →
        ∃ t x, exec (.rollback p) s = .next t ∧ t.dev.request id = some x ∧ x.committed = q ∧
          (∀ i, i ∈ x.recompute ↔ q ≤ i ∧ i < k) ∧ (∀ y ∈ r.known, y ∈ x.known ↔ y.1 ≤ k) ∧ x.endReason = 0 ∧
          (q < k → x.state = .prefill) ∧
          (∀ w, w ∈ t.dev.srv.arrivals ↔ w ∈ s.dev.srv.arrivals ∧ ¬ (w.request = id ∧ q ≤ w.position)) ∧
          (r.countAt = none → (∀ u ∈ s.dev.srv.templates, u.draft = false) →
            t = { s with dev := { s.dev with srv := { s.dev.srv with requests := t.dev.srv.requests
                                                                     arrivals := t.dev.srv.arrivals } } }))

/-! ## The analogue plane (R45-R105, R342-R355) -/

/-- PLANE_FORWARD and PLANE_TRANSPOSED (R82-R84, R90, R282): while an operation runs or a fault holds the sequencer, nothing
starts; the first issued task whose checks fail is rejected with the status of the failing check; one that passes becomes
the running operation, with its body, its tile list and its input, and no unit of it has fired; its settings are latched with
its first step unit. Device memory is as the reads left it. -/
def Clause.OperationsStart : Prop :=
  ∀ (s : State) (tr : Bool),
    let c : Instr := if tr then .planeTransposed else .planeForward
    (s.dev.pln.op.isSome = true ∨ s.dev.seqHeld = true → exec c s = .next s) ∧
    (s.dev.pln.op = none → s.dev.seqHeld = false → ∀ slot task,
      s.dev.issuedWhere 1 (fun k => decide (k % 16 ≠ 3) && (decide (k % 16 = 2) == tr)) = some (slot, task) →
      let r := s.dev.reader 2 0 slot task
      let space := (s.dev.slot slot).space
      (∀ st d, s.dev.checkOp r slot task space = (.reject st, d) →
        exec c s = .next { s with dev := d.rejectTask slot st }) ∧
      ∀ b es noAdapter d elems scales d1, s.dev.checkOp r slot task space = (.ok (b, es, noAdapter), d) →
        d.readInput r space b = (.ok (elems, scales), d1) →
        ∃ t o, exec c s = .next t ∧ t.dev.pln.op = some o ∧ o.slot = slot ∧ o.task = task ∧ o.body = b ∧
          o.entries = es ∧ o.elems = elems ∧ o.mxScales = scales ∧ o.started = false ∧ o.unit = 0 ∧ o.codes = [] ∧
          o.passesDone = 0 ∧
          o.y = (if noAdapter then some [] else none) ∧ (t.dev.taskRun slot task).st = .running ∧
          t.dev.pln.saved = d1.pln.saved ∧ t.dev.pln.tails = d1.pln.tails ∧ t.dev.pln.phys = d1.pln.phys ∧
          t.dev.mem = d1.mem)

/-- What an operation latches as its first step unit starts (R72-R74, R80, R81, R118, R162): the statistics of its tiles
are read, unless the device is in reference mode; then the firing cap in force; the active bank of each tile; groups of consecutive entries that cover the
list, none above the cap (a cap of 1 with a pair of slices apart: log entry 32); the tiles that fire, those READY outside
reference mode; the number of phases, forced, or the first split under which every bound is at most 57,344, or 4; and for
each tile the largest range code that holds its bound. -/
def Clause.OperationsLatchTheirSettings : Prop :=
  (∀ (d d1 : Dev) (r : Reader) (o : PlaneOp) (u : Unit),
    (d.bitAt Off.curCtrl 7 = true → d.latchOp r o = (.ok (d.latchSettings o), d)) ∧
    (d.bitAt Off.curCtrl 7 = false → d.readStats r o = (.ok u, d1) → d.latchOp r o = (.ok (d1.latchSettings o), d1))) ∧
  (∀ (d : Dev) (o : PlaneOp),
    let l := (d.latchSettings o).1
    let ref := d.bitAt Off.curCtrl 7
    l.banks = o.entries.map d.bankOf ∧
    l.cap = min (d.fld Off.plnFiringCap 10 0) (1024 - 64 * d.pwr.level) ∧ l.epoch = d.reg Off.calEpoch ∧
    (1 ≤ l.cap → l.groups.flatten = List.range o.entries.length ∧ ∀ g ∈ l.groups, g.length ≤ max l.cap 2) ∧
    (∀ (i : Nat) (e : TileEntry), o.entries[i]? = some e → l.fires[i]? = some (!ref && decide (d.tileState e.logical = .ready))) ∧
    (ref = true → l.phases = 1) ∧
    (ref = false → o.body.forced ≠ 0 → l.phases = o.body.forced) ∧
    (ref = false → o.body.forced = 0 →
      let last := if o.body.transposed then 2 else 4
      1 ≤ l.phases ∧ l.phases ≤ last ∧
      (∀ p, 1 ≤ p → p < l.phases → ∃ x ∈ d.opBounds l p, 57344 < x) ∧
      (l.phases < last → ∀ x ∈ d.opBounds l l.phases, x ≤ 57344)) ∧
    (ref = false → ∀ (i x : Nat), (d.opBounds l l.phases)[i]? = some x → l.ranges[i]? = some (rangeOf x))) ∧
  ∀ x, rangeOf x ≤ 3 ∧ (0 < rangeOf x → x ≤ fullScale (rangeOf x)) ∧ ∀ k ≤ 3, rangeOf x < k → fullScale k < x

/-- A plane operation starts with its checks and latches its settings: the statements Clause.OperationsStart, Clause.OperationsLatchTheirSettings, whose docstrings say each. -/
def Obligations.PlaneOperationsStart : Prop :=
  Clause.OperationsStart ∧ Clause.OperationsLatchTheirSettings

/-- STEP_UNIT (R67-R69, R79, R80, R90, R102, R118, R126, R400): it waits while the operation is stopped or marked, while two
tails stand, or while a confirmation firing is due; a bad transfer is an uncorrectable error, and a corrected one is counted;
otherwise the next unit of one group and one shot fires, each tile that fires once for each phase: its codes are those of its
exact sums, with the latched bank, in its range, within -128 to 127 (the systematic error is a free value within the bound of
R102 or R176, the random term a free value: log entry 10). The first unit latches the operation first. After the last unit the
operation goes to its tail. Levels of tiles and, from the second unit on, device memory are unchanged. -/
def Obligations.StepUnitsFire : Prop :=
  ∀ (s : State) (o : PlaneOp), s.dev.pln.op = some o →
    (s.dev.stopped o.slot o.task = true ∨ s.dev.marked o.slot o.task = true ∨ 2 ≤ s.dev.pln.tails.length ∨
      s.dev.cur.firings ≠ [] → ∀ bad, exec (.stepUnit bad) s = .next s) ∧
    (s.dev.stopped o.slot o.task = false → s.dev.marked o.slot o.task = false → s.dev.pln.tails.length < 2 →
      s.dev.cur.firings = [] →
      exec (.stepUnit .bad) s = .next { s with dev := s.dev.busError 2 0 o.slot o.task } ∧
      exec (.stepUnit .corrected) s =
        exec (.stepUnit .good) { s with dev := s.dev.bumpWrap Off.evrCeBus } ∧
      (o.started = false → ∀ x d, s.dev.latchOp (s.dev.reader 3 0 o.slot o.task) o = (.ok x, d) →
        ∃ t o', exec (.stepUnit .good) s = .next t ∧ o'.started = true ∧ o'.unit = o.unit + 1 ∧ o'.slot = o.slot ∧
          o'.task = o.task ∧ o'.epoch = x.1.epoch ∧ o'.banks = x.1.banks ∧ o'.groups = x.1.groups ∧
          o'.phases = x.1.phases ∧ o'.ranges = x.1.ranges ∧ o'.drive = x.1.drive ∧
          (t.dev.pln.op = some o' ∨ t.dev.pln.op = none ∧ t.dev.pln.tails = d.pln.tails ++ [o']) ∧
          t.dev.pln.phys = d.pln.phys ∧ t.dev.pln.saved = d.pln.saved) ∧
      (o.started = true →
        let shots := shotsOf o.body.dfmt
        let shot := o.unit % shots
        ∃ t o' cs, exec (.stepUnit .good) s = .next t ∧ o'.unit = o.unit + 1 ∧ o'.codes = o.codes ++ cs ∧
          o'.slot = o.slot ∧ o'.task = o.task ∧ o'.groups = o.groups ∧
          (o.unit + 1 < o.groups.length * shots → t.dev.pln.op = some o' ∧ t.dev.pln.tails = s.dev.pln.tails) ∧
          (o.groups.length * shots ≤ o.unit + 1 → t.dev.pln.op = none ∧ t.dev.pln.tails = s.dev.pln.tails ++ [o']) ∧
          (∀ c ∈ cs, c.entry ∈ o.groups.getD (o.unit / shots) [] ∧ c.shot = shot ∧ o.fires.getD c.entry false = true ∧
            ∃ p draw, (s.dev.log (o.entries.getD c.entry {}).logical).bind (·.phys) = some p ∧
              let ph := s.dev.phys p
              let lsb := lsbOf (o.ranges.getD c.entry 0)
              c.codes = (phaseSums ph o.body.transposed ((phaseSets o.body.transposed o.phases).getD c.phase [])
                (o.levels (o.entries.getD c.entry {}) shot)).zipIdx.map (fun x =>
                  codeOf (trimImage (o.banks.getD c.entry {})) draw x.2 lsb
                    (systematicBound ph.grade lsb x.1 (ph.ages s.dev.now (s.dev.dieTemp (dieOf p)))) x.1) ∧
              ∀ q ∈ c.codes, -128 ≤ q ∧ q ≤ 127) ∧
          t.dev.pln.phys = s.dev.pln.phys ∧ t.dev.pln.saved = s.dev.pln.saved ∧ t.dev.mem = s.dev.mem))

/-- CORRECTION_PASS, ADAPTER_TERM and OPERATION_TAIL_END (R107, R119, R141, R152, R159, R403): a pass reads the master rows of
its channels and is done; the adapter term is computed for the first operation that waits for it, unless the wide engine is
held or has no output tile free; the tail of the oldest operation with its passes done waits for that term, and in reference
mode for the wide engine to take up its sums, then writes the results, counts the operation and ends its task; beyond what
its writes leave, the memory of the HBM stacks is unchanged; a residue mismatch fails the graph with LOGIC_CHECK. -/
def Obligations.CorrectionsAndTail : Prop :=
  (∀ s : State, (s.dev.passOp = none → exec .correctionPass s = .next s) ∧
    ∀ (o : PlaneOp) (u : Unit) (d : Dev), s.dev.passOp = some o →
      (o.passChannels o.passesDone).foldl (fun (x : Chk Unit × Dev) c => Chk.thn x fun _ d =>
        Chk.thn (d.channelRow (s.dev.reader 3 0 o.slot o.task) o c.1 c.2.1) fun _ d => (.ok (), d)) (.ok (), s.dev) =
        (.ok u, d) →
      exec .correctionPass s = .next { s with dev := d.modOp o.slot o.task fun o =>
        { o with passesDone := o.passesDone + 1 } }) ∧
  (∀ s : State, (s.dev.bitAt Off.wdeCtrl 0 = true ∨ s.dev.wde.tile0.isSome = true ∧ s.dev.wde.tile1.isSome = true →
      exec .adapterTerm s = .next s) ∧
    ∀ (o : PlaneOp) (e : Epi) (a : AdapterDesc) (d d' : Dev) (y : List Word) (n : Nat) (ec : EdgeCount),
      s.dev.bitAt Off.wdeCtrl 0 = false → s.dev.wde.tile0 = none ∨ s.dev.wde.tile1 = none → s.dev.pln.tails = [] → s.dev.pln.op = some o → o.y = none →
      s.dev.stopped o.slot o.task = false →
      s.dev.loadEpi (s.dev.reader 4 0 o.slot o.task) o.space o.body.epilogue o.body.rows o.body.cols o.body.transposed =
        (.ok (e, some a), d) →
      d.adapterY (s.dev.reader 4 0 o.slot o.task) o.space a o.body.rows o.body.cols
        ((inElems o.body.inFmt o.mxScales o.elems).map InElem.wide) = (.ok (y, n, ec), d') →
      ∃ t o', exec .adapterTerm s = .next t ∧ t.dev.pln.op = some o' ∧ o'.y = some y ∧ o'.unit = o.unit ∧
        o'.codes = o.codes ∧ o'.yFlags = accFlag n ||| ec.quality ∧ t.dev.mem = d'.mem) ∧
  ∀ (s : State) (o : PlaneOp),
    (s.dev.pln.tails.find? fun o => decide (o.passes ≤ o.passesDone) && !s.dev.stopped o.slot o.task) = some o →
    exec (.operationTailEnd true) s = .next { s with dev := s.dev.logicCheck 3 0 o.slot o.task } ∧
    (o.reference = true → s.dev.refMay o = false → exec (.operationTailEnd false) s = .next s) ∧
    (o.reference = false ∨ s.dev.refMay o = true →
      (o.y = none → ∃ t, exec (.operationTailEnd false) s = .next t ∧ t.dev.pln = s.dev.pln ∧ t.dev.grf = s.dev.grf ∧
        t.dev.mem = s.dev.mem) ∧
      ∀ y x d, o.y = some y → s.dev.tailWork (s.dev.reader 3 0 o.slot o.task) o y = (.ok x, d) →
        o.slot < d.grf.slots.length → o.task < (d.slot o.slot).run.length →
        ∃ t, exec (.operationTailEnd false) s = .next t ∧ (t.dev.taskRun o.slot o.task).st = .ended ∧
          (∀ p, p ∈ t.dev.pln.tails ↔ p ∈ d.pln.tails ∧ ¬ (p.slot = o.slot ∧ p.task = o.task)) ∧
          t.dev.reg64 Off.plnOpsLo = (d.reg64 Off.plnOpsLo + 1) % 2 ^ 64 ∧
          ∀ a, a < 0x8000000000 → memLoad t.dev.mem a 1 = memLoad d.mem a 1)

/-- PLANE_SAVE and PLANE_RESUME (R90, R91): the running operation is saved whole when it is marked, which leaves its task
saved, or stopped for a fault, which leaves its task running and the sequencer with it until it is marked too; otherwise it
runs on. An operation that a fault stopped resumes at once when the fault is resolved; while none waits for its fault, the
saved operation that comes first resumes: as it was saved where its tiles are unchanged since it latched; where a tile has
received a change, it restarts from its first unit, with its input read again and its adapter term kept, which PLN_RESTARTS
counts. -/
def Clause.PlaneSavesAndResumes : Prop :=
  (∀ (s : State) (o : PlaneOp), s.dev.pln.op = some o →
    (s.dev.marked o.slot o.task = true ∨ s.dev.stopped o.slot o.task = true →
      ∃ t, exec .planeSave s = .next t ∧ t.dev.pln = { s.dev.pln with op := none, saved := s.dev.pln.saved ++ [o] } ∧
        (s.dev.marked o.slot o.task = true → o.slot < s.dev.grf.slots.length →
          o.task < (s.dev.slot o.slot).run.length →
          (t.dev.taskRun o.slot o.task).st = .saved ∧ t.dev.marked o.slot o.task = false) ∧
        (s.dev.marked o.slot o.task = false → t.dev.grf = s.dev.grf) ∧
        t = { s with dev := { s.dev with pln := t.dev.pln, grf := { s.dev.grf with slots := t.dev.grf.slots } } }) ∧
    (s.dev.marked o.slot o.task = false → s.dev.stopped o.slot o.task = false → s.dev.pln.prog = [] →
      exec .planeSave s = .next s)) ∧
  (∀ (s : State) (o : PlaneOp), s.dev.pln.op = none →
    (s.dev.pln.saved.find? fun o => s.dev.faultSaved o && s.dev.marked o.slot o.task) = some o →
      ∃ t, exec .planeSave s = .next t ∧ t.dev.pln = s.dev.pln ∧ (t.dev.taskRun o.slot o.task).st = .saved ∧
        t = { s with dev := { s.dev with grf := { s.dev.grf with slots := t.dev.grf.slots } } }) ∧
  ∀ (s : State) (o : PlaneOp), s.dev.pln.op = none → s.dev.seqFault = false →
    ((s.dev.pln.saved.find? fun o => s.dev.faultSaved o && !s.dev.marked o.slot o.task && !s.dev.stopped o.slot o.task) =
        some o ∨
      s.dev.seqHeld = false ∧
        s.dev.firstTask ((s.dev.pln.saved.filter fun o => s.dev.canResume o.slot o.task).map fun o => (o.slot, o.task)) =
          some (o.slot, o.task) ∧
        (s.dev.pln.saved.find? fun p => decide (p.slot = o.slot) && decide (p.task = o.task)) = some o) →
    let rest := s.dev.pln.saved.filter fun p => !(decide (p.slot = o.slot) && decide (p.task = o.task))
    (s.dev.needsRestart o = false → ∃ t, exec .planeResume s = .next t ∧
      t.dev.pln = { s.dev.pln with op := some o, saved := rest } ∧
      t = { s with dev := { s.dev with pln := t.dev.pln, grf := { s.dev.grf with slots := t.dev.grf.slots } } }) ∧
    (s.dev.needsRestart o = true → ∀ x d,
      s.dev.readInput (s.dev.reader 2 0 o.slot o.task) o.space o.body = (.ok x, d) →
      ∃ t o', exec .planeResume s = .next t ∧ t.dev.pln.op = some o' ∧ o'.body = o.body ∧ o'.entries = o.entries ∧
        o'.started = false ∧ o'.unit = 0 ∧ o'.codes = [] ∧ o'.elems = x.1 ∧ o'.y = o.y ∧
        t.dev.reg Off.plnRestarts = min (d.reg Off.plnRestarts + 1) 0xFFFFFFFF ∧ t.dev.bitAt Off.plnStatus 8 = true ∧
        t.dev.mem = d.mem)

/-- PLANE_PROGRAM, RE_ATTACH, PROGRAM_ROUND_START and PROGRAM_ROUND_END (R92-R97, R343, R348, R351): tiles go to FREE physical
tiles of their own die, the home tile first; a task above the endurance budget is rejected and counted; a task whose tiles
all have places queues their programs; a re-attach whose digests match records the new master pages; a round takes tiles of
its die alone, no more than the limit, and none starts while one runs on the die or programs are held; a tile whose program
starts takes its master's levels, clamped to the clip level, its wear counts one pulse sequence more, and it is PROGRAMMING
unless the device refreshes it while it serves; when a round ends no tile of it is PROGRAMMING. -/
def Obligations.ProgramsAndRounds : Prop :=
  (∀ (d : Dev) (es : List TileEntry) (i : Nat) (e : TileEntry) (q : Nat), (d.placeTiles es)[i]? = some (e, some q) →
    es[i]? = some e ∧ (d.phys q).state = .free ∧ q ∉ d.taken ∧ dieOf q = e.logical / 6144 ∧
    ((d.phys (homeTile e.logical)).state = .free → homeTile e.logical ∉ d.taken → q = homeTile e.logical ∨
      ∃ j e', j < i ∧ (d.placeTiles es)[j]? = some (e', some (homeTile e.logical)))) ∧
  (∀ s : State, (∃ p ∈ s.dev.pln.prog, p.slot < 16 ∧ p.held = false) → exec .planeProgram s = .next s) ∧
  (∀ (s : State) (slot task : Nat) (p p' : ProgSetup) (u : Unit) (d1 d2 d3 : Dev),
    s.dev.issuedWhere 1 (fun k => decide (k % 16 = 3)) = some (slot, task) →
    let r := s.dev.reader 2 0 slot task
    s.dev.loadProg r slot task (s.dev.slot slot).space = (.ok p, d1) →
    d1.loadPages r (s.dev.slot slot).space p = (.ok p', d2) →
    (s.dev.isReattach p.body p.entries = true → d2.matchMasters r p' = (.ok u, d3) →
      ∃ t, exec .reAttach s = .next t ∧ (t.dev.taskRun slot task).st = .ended ∧
        ∀ e ∈ p'.entries, ∃ x, t.dev.log e.logical = some x ∧ x.masterAbsent = false ∧ x.masterDamaged = false ∧
          x.pages = p'.pages ∧ x.masterOff = p'.off) ∧
    (s.dev.isReattach p.body p.entries = false → (∀ x ∈ s.dev.pln.prog, x.slot < 16 → x.held = true) →
      (∀ e ∈ p.entries, d1.log e.logical = none) →
      let reg := BitVec.ofNat 32 (s.dev.reg Off.curWeightClip)
      d2.countClipped r p'.body p'.entries p'.pages p'.off reg = (.ok u, d3) →
      let ps := d3.placeTiles p'.entries
      let todo := ps.filterMap fun x => x.2.map fun q => (x.1.logical, q)
      todo.length = ps.length → todo ≠ [] → (∀ x ∈ todo, (d3.phys x.2).wear < 10000000) →
      let d4 := (d3.bump Off.plnBudgetRejects).setBit Off.plnStatus 5
      (d3.reg Off.plnBudget < d3.reg Off.plnBudgetUsed + ps.length →
        exec .planeProgram s = .next { s with dev := d4.rejectTask slot 0x0108 }) ∧
      (d3.reg Off.plnBudgetUsed + ps.length ≤ d3.reg Off.plnBudget →
        ∃ t, exec .planeProgram s = .next t ∧ (t.dev.taskRun slot task).st = .running ∧ t.dev.mem = d3.mem ∧
          ∃ x : ProgTask, t.dev.pln = { d3.pln with prog := d3.pln.prog ++ [x] } ∧ x.slot = slot ∧ x.task = task ∧
            x.clipReg = reg ∧ x.body = p'.body ∧ x.entries = p'.entries ∧ x.pages = p'.pages ∧ x.masterOff = p'.off ∧
            x.todo = todo ∧ x.held = false))) ∧
  ∀ (s : State) (die : Nat),
    (s.dev.bitAt Off.plnCtrl 2 = true ∨ (∃ r ∈ s.dev.pln.rounds, r.die = die) →
      exec (.programRoundStart die) s = .next s) ∧
    (∃ t, exec (.programRoundStart die) s = .next t ∧ ∀ r ∈ t.dev.pln.rounds, r ∈ s.dev.pln.rounds ∨
      r.die = die ∧ r.tiles.length ≤ s.dev.fld Off.plnProgLimit 22 16 ∧ ∀ x ∈ r.tiles, dieOf x.2 = die) ∧
    (∀ (p : ProgTask) (l q : Nat) (x : LogTile) cs d, s.dev.bitAt Off.plnCtrl 2 = false →
      (∀ r ∈ s.dev.pln.rounds, r.die ≠ die) → s.dev.pln.prog = [p] → p.todo = [(l, q)] → dieOf q = die →
      (p.slot = 16 ∨ p.slot < 16 ∧ p.held = false ∧ s.dev.marked p.slot p.task = false ∧
        s.dev.stopped p.slot p.task = false) →
      s.dev.progBlocked p l q = false → 1 ≤ s.dev.fld Off.plnProgLimit 22 16 → s.dev.progLog p l q = some x →
      Dev.masterChk (({ s.dev with pln := { s.dev.pln with rounds := s.dev.pln.rounds ++ [({ die := die } : Round)] } } :
        Dev).masterCodes (if p.slot = 16 then { cls := 2 } else s.dev.reader 2 0 p.slot p.task) x) x = (.ok cs, d) →
      ∃ t, exec (.programRoundStart die) s = .next t ∧
        t.dev.pln.rounds = s.dev.pln.rounds ++
          [({ die := die, tiles := [(l, q)], owner := [(p.slot, p.task)] } : Round)] ∧
        (t.dev.phys q).wear = min ((s.dev.phys q).wear + 1) 0xFFFFFFFF ∧
        (t.dev.phys q).levels = ((cs.map fun row => row.map (levelOf (weightFmt x.format) x.slice)).flatten).map
          (clampLevel (clipOf p.clipReg (weightFmt x.format) x.slice)) ∧
        (¬ (p.slot = 16 ∧ s.dev.serving l q = true) → (t.dev.phys q).state = .programming) ∧
        t.dev.reg Off.plnBudgetUsed = min (d.reg Off.plnBudgetUsed + 1) 0xFFFFFFFF) ∧
    ((∀ r ∈ s.dev.pln.rounds, r.die ≠ die) → exec (.programRoundEnd die) s = .next s) ∧
    ∀ r, (s.dev.pln.rounds.find? fun r => decide (r.die = die)) = some r →
      ∃ t, exec (.programRoundEnd die) s = .next t ∧
        t.dev.pln.rounds = s.dev.pln.rounds.filter (fun r => decide (r.die ≠ die)) ∧
        ∀ x ∈ r.tiles, (t.dev.phys x.2).state ≠ .programming

/-- ENDURANCE_WINDOW_START, PLN_TILE_SELECT and CAL_TILE_SELECT (R97, R105, R178): at the next boundary of the endurance
window the budget used is 0 again; a select register takes its index and puts the tile's snapshot into the registers beside
it, and an index that names no tile reads 0. -/
def Clause.TileSnapshots : Prop :=
  ∀ s : State,
    (∃ t, exec .enduranceWindowStart s = .next t ∧ t.dev.now % (86400 * 10 ^ 9) = 0 ∧ s.dev.now ≤ t.dev.now ∧
      t.dev.now < s.dev.now + 86400 * 10 ^ 9 ∧ t.dev.reg Off.plnBudgetUsed = 0 ∧
      t = { s with dev := { s.dev with now := t.dev.now, regs := t.dev.regs } }) ∧
    ∀ v : Word, s.running = true →
      let i := v.toNat % 2 ^ 20
      (∃ t, exec (.plnTileSelect v) s = .next t ∧ t.dev.fld Off.plnTileSelect 19 0 = i ∧
        (v.toNat.testBit 31 = true → physExists i = true → (∀ l, (s.dev.phys i).logical = some l → l < 2 ^ 20) →
          t.dev.fld Off.plnTileInfo 22 20 = (s.dev.phys i).state.code ∧
          t.dev.reg Off.plnTileWear = (s.dev.phys i).wear % 2 ^ 32 ∧
          t.dev.reg Off.plnTileStuck = (s.dev.phys i).stuckCount % 2 ^ 32) ∧
        (v.toNat.testBit 31 = true → physExists i = false →
          t.dev.reg Off.plnTileInfo = 0 ∧ t.dev.reg Off.plnTileWear = 0 ∧ t.dev.reg Off.plnTileEdition = 0 ∧
          t.dev.reg Off.plnTileStuck = 0) ∧
        (v.toNat.testBit 31 = false → i ≤ 24575 → ∀ x, s.dev.log i = some x → (∀ p, x.phys = some p → p < 2 ^ 20) →
          t.dev.fld Off.plnTileInfo 22 20 = (s.dev.tileState i).code ∧
          t.dev.reg Off.plnTileEdition = x.edition % 2 ^ 32) ∧
        t = { s with dev := { s.dev with regs := t.dev.regs } }) ∧
      (∃ t, exec (.calTileSelect v) s = .next t ∧ t.dev.reg Off.calTileSelect = i ∧
        (∀ x p, i ≤ 24575 → s.dev.log i = some x → x.phys = some p →
          t.dev.reg Off.calTileEpoch = x.epoch % 2 ^ 32 ∧ t.dev.reg Off.calTileCount = (s.dev.phys p).count % 2 ^ 32 ∧
          t.dev.reg64 Off.calTileLastLo = (s.dev.phys p).last % 2 ^ 64) ∧
        (24575 < i ∨ s.dev.log i = none → t.dev.reg Off.calTileStatus = 0 ∧ t.dev.reg Off.calTileEpoch = 0 ∧
          t.dev.reg Off.calTileCount = 0) ∧
        t = { s with dev := { s.dev with regs := t.dev.regs } })

/-! ## Currant (R123-R132) -/

/-- The tolerance of an audit (R125): a code misses exactly when its distance from E / LSB exceeds
τ = 0.80 + 0.004 |E| / LSB + 0.10 D + 0.02 ΔT + K σ. (D in quarters of a decade, K in sixteenths.) -/
def Obligations.AuditTolerance : Prop :=
  ∀ (g k d4 dt : Nat) (q e : Int), g ≤ 3 →
    let lsb : ℚ := (lsbOf g : ℚ)
    let sigma : ℚ := [25 / 100, 30 / 100, 40 / 100, 55 / 100].getD g 0
    (missExcess g k d4 dt q e ≠ 0 ↔
      80 / 100 + 4 / 1000 * |(e : ℚ)| / lsb + 10 / 100 * ((d4 : ℚ) / 4) + 2 / 100 * (dt : ℚ) + (k : ℚ) / 16 * sigma <
        |(q : ℚ) - (e : ℚ) / lsb|)

/-- AUDIT_RUN and CONFIRMATION_FIRING (R124-R127, R156, R159): under HOLD, or while the order of the wide engine gives it no
slot, no audit runs; a slot that is not an audit's last one advances the oldest entry by one tile; at its last one the entry
is judged, by sums over the master copy, against the codes it carries, CUR_AUDITS counts it, and it passes where no code
misses; where one does, the tile fires again, or the audit fails at once where the tile has changed since; a failed audit is
counted and makes its tile SUSPECT at the next tick. A firing is judged by its own codes and ages: within the tolerance it
passes, and a tile that has changed since fails. -/
def Obligations.AuditsJudgeCodes : Prop :=
  (∀ s : State,
    (s.dev.cur.queue = [] ∨ s.dev.bitAt Off.wdeCtrl 0 = true ∨ s.dev.auditMay = false → exec .auditRun s = .next s) ∧
    ∀ e rest (x : LogTile), s.dev.cur.queue = e :: rest → s.dev.bitAt Off.wdeCtrl 0 = false →
      s.dev.auditMay = true → s.dev.log e.logical = some x →
      let g := x.auditGrid e
      let e' : AuditEntry := { e with tilesDone := e.tilesDone + 1 }
      let d0 := (({ s.dev with
          cur := { s.dev.cur with queue := rest }, wde := { s.dev.wde with slotCount := 0 } } : Dev).bumpWrap
        Off.wdeAuditTiles).wideWork 1 (g.2 / max g.1 1)
      (e.tilesDone + 1 < g.1 → ∃ t, exec .auditRun s = .next t ∧ t.dev.cur.queue = e' :: rest ∧
        t.dev.reg Off.wdeAuditTiles = (s.dev.reg Off.wdeAuditTiles + 1) % 2 ^ 32 ∧
        t = { s with dev := { s.dev with
          cur := { s.dev.cur with queue := e' :: rest }, wde := { s.dev.wde with slotCount := 0 }, regs := t.dev.regs } }) ∧
      (g.1 ≤ e.tilesDone + 1 → ∀ master d, d0.auditReads e' x = (.ok master, d) →
        let misses := e.codes.flatMap (recordMisses e x master e.decades e.warmer)
        ∃ t, exec .auditRun s = .next t ∧ t.dev.cur.queue = rest ∧
          t.dev.reg64 Off.curAuditsLo = (d.reg64 Off.curAuditsLo + 1) % 2 ^ 64 ∧
          (misses = [] → t.dev.reg Off.curAuditFailures = d.reg Off.curAuditFailures ∧
            t.dev.cur.firings = d.cur.firings ∧
            (d.failurePending e.logical = false →
              ∀ a, a ∈ t.dev.cur.affected ↔ a ∈ d.cur.affected ∧ ¬ (a.1 = e.logical ∧ a.2.1 ≤ e.serial))) ∧
          (misses ≠ [] → d.auditStale e = false → t.dev.reg Off.curAuditFailures = d.reg Off.curAuditFailures ∧
            ∃ f, t.dev.cur.firings = d.cur.firings ++ [f] ∧ f.audit = e' ∧ f.failed = false) ∧
          (misses ≠ [] → d.auditStale e = true →
            t.dev.reg Off.curAuditFailures = min (d.reg Off.curAuditFailures + 1) 0xFFFFFFFF ∧
            t.dev.cur.firings = d.cur.firings ∧ ∃ y, t.dev.log e.logical = some y ∧ .toSuspect ∈ y.due))) ∧
  ∀ (s : State) (f : Firing) (rest : List Firing),
    (s.dev.cur.firings = [] → exec .confirmationFiring s = .next s) ∧
    (s.dev.cur.firings = f :: rest → s.dev.auditStale f.audit = true →
      ∃ t, exec .confirmationFiring s = .next t ∧ t.dev.cur.firings = rest ∧
        t.dev.reg Off.curAuditFailures = min (s.dev.reg Off.curAuditFailures + 1) 0xFFFFFFFF) ∧
    (∀ x p shot cs d master d', s.dev.cur.firings = f :: rest → s.dev.auditStale f.audit = false →
      s.dev.log f.audit.logical = some x → x.phys = some p → f.shots = [shot] → f.failed = false →
      ({ s.dev with cur := { s.dev.cur with firings := rest } } : Dev).fireShot f.audit p shot = (cs, d) →
      (d.bump64 Off.plnStepsLo (stepsOf f.audit.transposed cs.length)).auditReads f.audit x = (.ok master, d') →
      let ages := (s.dev.phys p).ages s.dev.now (s.dev.dieTemp (dieOf p))
      let again := cs.flatMap fun c => (recordMisses f.audit x master ages.1 ages.2 c).filter fun m =>
        f.cols.contains (m.1, shot)
      ∃ t, exec .confirmationFiring s = .next t ∧ t.dev.cur.firings = rest ∧
        t.dev.reg Off.curAuditFailures = (if again = [] then d'.reg Off.curAuditFailures
          else min (d'.reg Off.curAuditFailures + 1) 0xFFFFFFFF))
/-! ## Calibration and tiers (R163-R178, R352-R355) -/

/-- The triggers of passes (R169) and the commands CALIBRATE and REFERENCE_SET (R257): a time trigger comes no earlier than its
due time and, with background calibration on and the tile at Fine grade, leaves the larger of the pending pass and its
own; CALIBRATE makes its pass pending on the live tiles of its range and returns their number; REFERENCE_SET waits until
Currant is idle. Other tiles are unchanged. -/
def Obligations.CalibrationTriggers : Prop :=
  (∀ (s : State) (p : Nat) (c : Instr) (kind due : Nat) (go : Bool),
    let x := s.dev.phys p
    let track := s.dev.fld Off.calPeriod 15 0
    let fine := s.dev.fld Off.calPeriod 31 16
    (c = .passPendingDecade p ∧ kind = 1 ∧ due = x.programmedAt + 10 ^ (x.decades + 1) * 10 ^ 9 ∧
        go = decide (x.decades < 4) ∨
      c = .passPendingTrackPeriod p ∧ kind = 1 ∧ due = x.passedAt + track * 10 ^ 9 ∧ go = decide (track ≠ 0) ∨
      c = .passPendingFinePeriod p ∧ kind = 2 ∧ due = x.fineAt + fine * 3600 * 10 ^ 9 ∧ go = decide (fine ≠ 0)) →
    (go = false ∨ x.logical = none → exec c s = .next s) ∧
    (go = true → x.logical ≠ none → ∃ t, exec c s = .next t ∧ t.dev.now = max s.dev.now due ∧
      (t.dev.phys p).passDue = (if s.dev.background = true ∧ x.grade = 2 then max x.passDue kind else x.passDue) ∧
      (t.dev.phys p).state = x.state ∧ (t.dev.phys p).active = x.active ∧ (∀ q, q ≠ p → t.dev.phys q = s.dev.phys q) ∧
      t = { s with dev := { s.dev with now := t.dev.now, pln := { s.dev.pln with phys := t.dev.pln.phys } } })) ∧
  (∀ (s : State) (h h' : CmdHdr) (d : Dev) (first pass count : Nat),
    s.dev.accept { h with opcode := 0x0020 } = (some h', d) →
    (pass = 0 ∨ 3 < pass ∨ 24576 < first + count →
      exec (.calibrate h first pass count) s = .next { s with dev := (d.no 0x000A).finish h' }) ∧
    (1 ≤ pass → pass ≤ 3 → first + count ≤ 24576 →
      let live := d.liveSet.filter fun x => decide (first ≤ x.1) && decide (x.1 < first + count)
      ∃ t, exec (.calibrate h first pass count) s = .next t ∧
        (∀ x ∈ live, (t.dev.phys x.2).passDue = max (d.phys x.2).passDue pass) ∧
        (∀ q, (∀ x ∈ live, x.2 ≠ q) → t.dev.phys q = d.phys q) ∧
        t = { s with dev := ({ d with pln := { d.pln with phys := t.dev.pln.phys } } : Dev).complete h' 0 live.length })) ∧
  ∀ (s : State) (h h' : CmdHdr) (d : Dev) (enable : Bool), s.dev.accept { h with opcode := 0x0021 } = (some h', d) →
    (d.curIdle = false → exec (.referenceSet h enable) s =
      .next { s with dev := { d with mbx := { d.mbx with refCmd := some (h', enable) } } }) ∧
    (d.curIdle = true → ∃ t, exec (.referenceSet h enable) s = .next t ∧ t.dev.bitAt Off.curCtrl 7 = enable ∧
      t.dev.mbx.refCmd = none ∧ (∀ i, i ≠ 7 → t.dev.bitAt Off.curCtrl i = d.bitAt Off.curCtrl i) ∧ t.dev.mem = d.mem ∧
      t.dev.pln = d.pln)

/-- PASS_START and CALIBRATION_STEP (R163, R167, R168, R170): under HOLD no pass starts; otherwise the first pending pass of
the die takes its lowest free calibration slot, a SUSPECT tile's before any other; a step runs only when no step unit is
ready and counts one array step; each pass's count of steps rises by one or not at all, and that of every pass where there
are no more passes than the firing cap. -/
def Clause.PassesStartAndStep : Prop :=
  (∀ (s : State) (die : Nat),
    let mine := (s.dev.cal.passes.filter fun c => decide (dieOf c.phys = die)).map (·.cslot)
    let free := (List.range (s.dev.fld Off.calCtrl 15 11)).find? fun i => !mine.contains i
    (s.dev.bitAt Off.calCtrl 0 = true ∨ s.dev.nextPass die = none ∨ free = none → exec (.passStart die) s = .next s) ∧
    ∀ i p, s.dev.bitAt Off.calCtrl 0 = false → s.dev.nextPass die = some p → free = some i →
      (s.dev.bring = .link ∨ s.dev.bring = .digital ∨ s.dev.bring = .coarse ∨ s.dev.bring = .ready →
        ∃ t, exec (.passStart die) s = .next t ∧
          t.dev.cal.passes = s.dev.cal.passes ++
            [{ phys := p, kind := (s.dev.phys p).passDue, cslot := i, startedAt := s.dev.now }] ∧
          (t.dev.phys p).passDue = 0 ∧ (t.dev.phys p).attempts = 0 ∧ (∀ q, q ≠ p → t.dev.phys q = s.dev.phys q) ∧
          t = { s with dev := { s.dev with cal := { s.dev.cal with passes := t.dev.cal.passes }
                                           pln := { s.dev.pln with phys := t.dev.pln.phys } } }) ∧
      i < s.dev.fld Off.calCtrl 15 11 ∧ (∀ c ∈ s.dev.cal.passes, dieOf c.phys = die → c.cslot ≠ i) ∧
      dieOf p = die ∧ ∃ x, (p, x) ∈ s.dev.pln.phys ∧ x.passDue ≠ 0 ∧ x.waiting = false ∧
        (x.state = .suspect ∨ x.state = .uncalibrated ∨ x.state = .ready ∧ s.dev.bitAt Off.curCtrl 7 = false) ∧
        ((∀ y ∈ s.dev.pln.phys, ∀ l, y.2.logical = some l → l < 2 ^ 20) →
          ∀ y ∈ s.dev.pln.phys, dieOf y.1 = die → y.2.state = .suspect → y.2.passDue ≠ 0 → y.2.waiting = false →
            (y.2.passDue ≠ 1 ∨ y.2.grade = 2 ∨ y.2.warmTrack = true) → (∀ c ∈ s.dev.cal.passes, c.phys ≠ y.1) → s.dev.domainOff (bankDomain y.1) = false →
            s.dev.programDue y.1 = false → x.state = .suspect)) ∧
  ∀ s : State,
    (s.dev.unitReady = true ∨ s.dev.cal.passes = [] → exec .calibrationStep s = .next s) ∧
    (s.dev.unitReady = false → s.dev.cal.passes ≠ [] →
      let cap := min (s.dev.fld Off.plnFiringCap 10 0) (1024 - 64 * s.dev.pwr.level)
      ∃ t, exec .calibrationStep s = .next t ∧
        t.dev.reg64 Off.plnStepsLo = (s.dev.reg64 Off.plnStepsLo + 1) % 2 ^ 64 ∧
        t.dev.cal.passes.length = s.dev.cal.passes.length ∧
        (∀ (i : Nat) (c : CalPass), s.dev.cal.passes[i]? = some c →
          t.dev.cal.passes[i]? = some c ∨ t.dev.cal.passes[i]? = some { c with steps := c.steps + 1 }) ∧
        ((∀ c ∈ s.dev.cal.passes, c.cslot < 16) → s.dev.cal.passes.length ≤ cap →
          t.dev.cal.passes = s.dev.cal.passes.map fun (c : CalPass) => { c with steps := c.steps + 1 }) ∧
        t.dev.mem = s.dev.mem ∧ t.dev.pln.phys = s.dev.pln.phys ∧ t.dev.pln.op = s.dev.pln.op)

/-- PASS_MEASUREMENT_END (R101, R103, R163-R166, R171, R172): a reading that is not within the acceptance is a failed attempt,
which is retried; the fourth makes an UNCALIBRATED tile SUSPECT and retires a SUSPECT one; a READY tile whose gain has gone
beyond the limit is to be refreshed, and another tile beyond the trim range is UNCALIBRATED and refreshed; otherwise the pass is
accepted, with the trims that its kind computes: on a SUSPECT tile it waits for the tick that returns the tile to READY, on a
tile in use for a tick, and on an idle tile, where CAL_CTRL allows that, its bank takes effect at once, with a new epoch. -/
def Clause.PassesAreJudged : Prop :=
  ∀ (s : State) (p : Nat) (r : PassReading),
    ((∀ c ∈ s.dev.cal.passes, c.phys ≠ p) → exec (.passMeasurementEnd p r) s = .next s) ∧
    ∀ c, (s.dev.cal.passes.find? fun c => decide (c.phys = p)) = some c →
      let x := s.dev.phys p
      let bank := candidateOf c.kind x.active r.trims
      let limit := 4096 * s.dev.fld Off.calTrigger 7 0
      (agrees r = false → ∃ t, exec (.passMeasurementEnd p r) s = .next t ∧
        t.dev.reg Off.calAttemptsFailed = min (s.dev.reg Off.calAttemptsFailed + 1) 0xFFFFFFFF ∧
        (x.attempts + 1 < 4 → (t.dev.phys p).attempts = x.attempts + 1 ∧ (t.dev.phys p).state = x.state ∧
          (∀ q, q ≠ p → t.dev.phys q = s.dev.phys q) ∧
          ∀ y ∈ t.dev.cal.passes, y.phys = p → y.startedAt = s.dev.now ∧ y.steps = 0) ∧
        (4 ≤ x.attempts + 1 → (∀ y ∈ t.dev.cal.passes, y.phys ≠ p) ∧
          (x.state = .uncalibrated → (t.dev.phys p).state = .suspect ∧ (t.dev.phys p).passDue = max x.passDue 2) ∧
          (x.state = .suspect → (t.dev.phys p).state = .retired ∧ (t.dev.phys p).logical = none))) ∧
      (agrees r = true → x.state = .ready → limit < 100 * maxGain bank →
        ∃ t, exec (.passMeasurementEnd p r) s = .next t ∧
          t.dev.reg Off.calRefreshes = min (s.dev.reg Off.calRefreshes + 1) 0xFFFFFFFF ∧
          (t.dev.phys p).active = x.active ∧ (∀ y ∈ t.dev.cal.passes, y.phys ≠ p) ∧
          ∀ l, s.dev.serves p = some l → ∃ y, t.dev.log l = some y ∧ .refresh ∈ y.due) ∧
      (agrees r = true → x.state ≠ .ready → 1024 < maxGain bank →
        ∃ t, exec (.passMeasurementEnd p r) s = .next t ∧
          t.dev.reg Off.calRefreshes = min (s.dev.reg Off.calRefreshes + 1) 0xFFFFFFFF ∧
          (t.dev.phys p).state = .uncalibrated ∧ (t.dev.phys p).passDue = max x.passDue 2 ∧
          (t.dev.phys p).active = x.active ∧ (∀ y ∈ t.dev.cal.passes, y.phys ≠ p) ∧
          ∀ l, x.logical = some l → t.dev.refreshQueued l p = true) ∧
      (agrees r = true → x.state = .suspect → maxGain bank ≤ 1024 → ∀ l y, s.dev.serves p = some l → s.dev.log l = some y →
        ∃ t z, exec (.passMeasurementEnd p r) s = .next t ∧ (∀ w ∈ t.dev.cal.passes, w.phys ≠ p) ∧
          (t.dev.phys p).state = .suspect ∧ (t.dev.phys p).waiting = true ∧ (t.dev.phys p).candidate = bank ∧
          (t.dev.phys p).active = x.active ∧ t.dev.log l = some z ∧ z.due = y.due ++ [.toReady]) ∧
      (agrees r = true → x.state = .ready ∧ 100 * maxGain bank ≤ limit ∨ x.state = .uncalibrated ∧ maxGain bank ≤ 1024 →
        ∀ l, s.dev.serves p = some l →
        ∃ t, exec (.passMeasurementEnd p r) s = .next t ∧ (∀ y ∈ t.dev.cal.passes, y.phys ≠ p) ∧
          (∀ q, q ≠ p → t.dev.phys q = s.dev.phys q) ∧
          (s.dev.tileIdle l = false ∨ s.dev.bitAt Off.calCtrl 2 = false →
            (t.dev.phys p).waiting = true ∧ (t.dev.phys p).candidate = bank ∧ (t.dev.phys p).active = x.active ∧
            t.dev.reg Off.calEpoch = s.dev.reg Off.calEpoch) ∧
          (s.dev.tileIdle l = true → s.dev.bitAt Off.calCtrl 2 = true →
            (t.dev.phys p).active = bank ∧ (t.dev.phys p).waiting = false ∧ (t.dev.phys p).state = .ready ∧
            (t.dev.phys p).grade = (if c.kind = 3 then 1 else 2) ∧ (t.dev.phys p).last = s.dev.now ∧
            (t.dev.phys p).gainMax = maxGain bank * 25 / 128 ∧
            t.dev.reg Off.calEpoch = nextEpoch (s.dev.reg Off.calEpoch) % 2 ^ 32 ∧
            ∃ y, t.dev.log l = some y ∧ y.epoch = t.dev.reg Off.calEpoch))

/-- Calibration passes start in order, step, and are judged: the statements Clause.PassesStartAndStep, Clause.PassesAreJudged, whose docstrings say each. -/
def Obligations.CalibrationPasses : Prop :=
  Clause.PassesStartAndStep ∧ Clause.PassesAreJudged

/-- TIER_WINDOW_END (R352-R354): the window has run its TIER_FRAMES; every use count starts again from 0; no more programs are
queued than TIER_MOVES allows, and none at all while moves are held. -/
def Clause.TierWindowsMoveTiles : Prop :=
  ∀ s : State,
    (s.dev.tierCfg 0 = 0 ∨ s.dev.srv.tierFrames < s.dev.tierCfg 0 → exec .tierWindowEnd s = .next s) ∧
    (s.dev.tierCfg 0 ≠ 0 → s.dev.tierCfg 0 ≤ s.dev.srv.tierFrames →
      ∃ t, exec .tierWindowEnd s = .next t ∧ (∀ x ∈ t.dev.pln.logical, x.2.uses = 0) ∧ t.dev.srv.tierFrames = 0 ∧
        t.dev.pln.prog.length ≤ s.dev.pln.prog.length + s.dev.tierCfg 3 ∧
        (s.dev.movesHeld = true → t.dev.pln.prog = s.dev.pln.prog ∧ t.dev.pln.phys = s.dev.pln.phys ∧
          t.dev.pln.logical = s.dev.pln.logical.map fun (x : Nat × LogTile) => (x.1, { x.2 with uses := 0 })) ∧
        t.dev.mem = s.dev.mem ∧ t.dev.reg Off.plnBudgetUsed = s.dev.reg Off.plnBudgetUsed)

/-- Tile selects, endurance windows and tier windows: the statements Clause.TileSnapshots, Clause.TierWindowsMoveTiles, whose docstrings say each. -/
def Obligations.TileSnapshotsAndTiers : Prop :=
  Clause.TileSnapshots ∧ Clause.TierWindowsMoveTiles

/-! ## The wide engine (R133-R160) -/

/-- WIDE_PRODUCT and WIDE_REDUCTION (R136, R153, R156, R282): while a task holds the engine neither starts; the first issued task whose checks fail is rejected with its status; a
product that passes becomes a task of the engine with all its output tiles to come, and with u to compute where it has an
adapter; a reduction writes one result for each
row, each at the next 64-byte boundary, and its task ends. -/
def Clause.WideTasksStart : Prop :=
  (∀ s : State, s.dev.wideIdle = false → exec .wideProduct s = .next s ∧ exec .wideReduction s = .next s) ∧
  (∀ (s : State) (slot task : Nat), s.dev.wideIdle = true →
    s.dev.issuedWhere 2 (fun k => decide (k % 16 ≠ 2)) = some (slot, task) →
    let r := s.dev.reader 4 0 slot task
    let space := (s.dev.slot slot).space
    let checked := Chk.thn (s.dev.readBody slot task 64) fun l d => Chk.thn (checkWide l d) fun b d =>
      Chk.thn (d.loadEpi r space b.epilogue b.k b.n false) fun ea d => (.ok (b, ea.2.isNone), d)
    (∀ st d, checked = (.reject st, d) → exec .wideProduct s = .next { s with dev := d.rejectTask slot st }) ∧
    ∀ b noAdapter d, checked = (.ok (b, noAdapter), d) → ∃ t x, exec .wideProduct s = .next t ∧ t.dev.wde.tasks = d.wde.tasks ++ [x] ∧
      x.slot = slot ∧ x.task = task ∧ x.body = b ∧ x.total = b.colBlocks * b.rowBlocks ∧ x.next = 0 ∧ x.drained = 0 ∧
      x.saved = false ∧ x.us = (if noAdapter then some [] else none) ∧ (t.dev.taskRun slot task).st = .running ∧ t.dev.mem = d.mem) ∧
  ∀ (s : State) (slot task : Nat) (l : List Byte) (b : WideBody) (rows : List (List Exact × List Nat × List Nat))
      (u : Unit) (d1 d2 d3 d4 : Dev),
    s.dev.wideIdle = true → s.dev.issuedWhere 2 (fun k => decide (k % 16 = 2)) = some (slot, task) →
    let r := s.dev.reader 4 0 slot task
    let space := (s.dev.slot slot).space
    s.dev.readBody slot task 64 = (.ok l, d1) → checkWide l d1 = (.ok b, d2) →
    d2.readRows r space b.a b.ascales b.fa b.fa 0 b.m b.k 0 b.k = (.ok rows, d3) →
    let outs := rows.map fun x => reduceRow b x.1 x.2.2
    let size := if b.reduce = 3 then 8 * b.n else 4
    d3.writeAll r space (outs.zipIdx.map fun o => (b.output + o.2 * alignUp size 64, o.1.1)) = (.ok u, d4) →
    ∃ t, exec .wideReduction s = .next t ∧ (t.dev.taskRun slot task).st = .ended ∧ t.dev.mem = d4.mem ∧
      t.dev.host = d4.host ∧ t.dev.wde.tasks = d4.wde.tasks

/-- CHUNK_PASS and TILE_DRAIN (R135, R138, R144, R151, R152, R159, R403), of a task with no fault pending: under HOLD no
chunk passes; a residue mismatch fails the graph; a task with an adapter first has u computed for all its rows; otherwise its
filling tile, or a free tile taken for its next output tile, accumulates its next K chunk, and after the last drains, or first
takes the adapter's y. A tile that drains through an epilogue of no MX output writes its rows and is free; the task ends with
its last tile. -/
def Clause.OutputTilesFillAndDrain : Prop :=
  (∀ s : State, (s.dev.bitAt Off.wdeCtrl 0 = true → ∀ m, exec (.chunkPass m) s = .next s) ∧
    (s.dev.bitAt Off.wdeCtrl 0 = false → ∀ x, s.dev.wideNext (fun t => !s.dev.marked t.slot t.task && s.dev.canFill t) = some x →
      exec (.chunkPass true) s = .next { s with dev := s.dev.logicCheck 4 0 x.slot x.task } ∧
      (x.us = none → ∀ e a rows u d d1 d2,
        let b := x.body
        let r := s.dev.reader 4 0 x.slot x.task
        s.dev.loadEpi r x.space b.epilogue b.k b.n false = (.ok (e, some a), d) →
        d.readRows r x.space b.a b.ascales b.fa b.fa 0 b.m b.k 0 b.k = (.ok rows, d1) →
        d1.adapterDown r x.space a b.k (adapterRows rows) = (.ok u, d2) → d2.stopped x.slot x.task = false →
        ∃ t, exec (.chunkPass false) s = .next t ∧ t.dev.mem = d2.mem ∧ t.dev.wde.tile0 = d2.wde.tile0 ∧
          t.dev.wde.tile1 = d2.wde.tile1 ∧
          ∀ y ∈ t.dev.wde.tasks, y.slot = x.slot → y.task = x.task → y.us = some u.vs) ∧
      ∀ i d o, x.us ≠ none → s.dev.takeTile x = some (i, d) → i < 2 → d.outTile i = some o →
        let r := d.reader 4 0 x.slot x.task
        let b := x.body
        (o.chunk < b.chunks → ∀ as bs d1 d2,
          let kn := min 1536 (b.k - 1536 * o.chunk)
          d.readRows r x.space b.a b.ascales b.fa (widenBeside b.fa b.fb) o.row0 o.nrows b.k (1536 * o.chunk) kn =
            (.ok as, d1) →
          d1.readCols r x.space b o.col0 o.ncols (1536 * o.chunk) kn = (.ok bs, d2) → d2.stopped x.slot x.task = false →
          ∃ t, exec (.chunkPass false) s = .next t ∧ t.dev.outTile (1 - i) = d2.outTile (1 - i) ∧ t.dev.mem = d2.mem ∧
            ∃ o', t.dev.outTile i = some o' ∧ o'.chunk = o.chunk + 1 ∧ o'.acc = (foldChunk b o.acc as bs).1 ∧
              o'.draining = (decide (b.chunks ≤ o.chunk + 1) && !x.hasAdapter) ∧ o'.row0 = o.row0 ∧ o'.col0 = o.col0 ∧
              o'.slot = o.slot ∧ o'.task = o.task) ∧
        (b.chunks ≤ o.chunk → ∀ e a y d1 d2, d.loadEpi r x.space b.epilogue b.k b.n false = (.ok (e, some a), d1) →
          d1.adapterUp r x.space a o.col0 o.ncols (((x.us.getD []).drop o.row0).take o.nrows) = (.ok y, d2) →
          d2.stopped x.slot x.task = false →
          ∃ t, exec (.chunkPass false) s = .next t ∧ t.dev.outTile (1 - i) = d2.outTile (1 - i) ∧ t.dev.mem = d2.mem ∧
            t.dev.outTile i = some { o with y := y.vs, draining := true }))) ∧
  (∀ s : State, s.dev.drainTile = none → exec .tileDrain s = .next s) ∧
  ∀ (s : State) (i : Nat) (o : OutTile) (x : WideTask) (e : Epi) (a : Option AdapterDesc)
      (wb : List Word × List Word) (u : Unit) (d1 d2 d3 : Dev),
    s.dev.drainTile = some (i, o) → (s.dev.wde.tasks.find? fun t => o.owns t) = some x →
    let b := x.body
    let o := joinHalf x o
    let r := s.dev.reader 4 0 x.slot x.task
    s.dev.loadEpi r x.space b.epilogue b.k b.n false = (.ok (e, a), d1) → e.scaleMode ≠ 2 →
    d1.epiArrays r x.space e o.col0 o.ncols = (.ok wb, d2) →
    let rows := (List.range o.nrows).map fun j => (epiRow e b.ints a (s.dev.taskHdr x.slot x.task).seed
      ((o.row0 + j) * b.n + o.col0) (((o.acc.drop (j * o.ncols)).take o.ncols).map fun v => v.getD 0) wb.1 wb.2
      (o.y.getD j [])).1
    d2.writeAll r x.space (rows.zipIdx.map fun w =>
      (b.output + (o.row0 + w.2) * rowStride e.outFormat b.n + o.col0 * e.outFormat.bits / 8, w.1)) = (.ok u, d3) →
    d3.stopped x.slot x.task = false →
    ∃ t, exec .tileDrain s = .next t ∧ t.dev.outTile i = none ∧
      t.dev.reg64 Off.wdeTilesLo = (d3.reg64 Off.wdeTilesLo + 1) % 2 ^ 64 ∧ t.dev.mem = d3.mem ∧
      (x.drained + 1 = x.total → (∀ y ∈ t.dev.wde.tasks, ¬ (y.slot = x.slot ∧ y.task = x.task)) ∧
        (x.slot < d3.grf.slots.length → x.task < (d3.slot x.slot).run.length →
          (t.dev.taskRun x.slot x.task).st = .ended)) ∧
      (x.drained + 1 ≠ x.total → ∀ y ∈ t.dev.wde.tasks, y.slot = x.slot → y.task = x.task →
        ∃ z ∈ d3.wde.tasks, z.slot = x.slot ∧ z.task = x.task ∧ y.drained = x.drained + 1 ∧ y.next = z.next)

/-- Wide-engine tasks start with their checks; output tiles fill and drain: the statements Clause.WideTasksStart, Clause.OutputTilesFillAndDrain, whose docstrings say each. -/
def Obligations.WideTasksFillAndDrain : Prop :=
  Clause.WideTasksStart ∧ Clause.OutputTilesFillAndDrain

/-- WIDE_SAVE and WIDE_RESUME (R144, R157, R288, R289): a marked task gives up its filling tile, which is saved with it, and
the drain of its tree counts in WDE_DRAIN_WAITS; a resumed
task gets that tile back in a free place and fills it on; while another task holds the engine nothing resumes. -/
def Clause.WideSavesAndResumes : Prop :=
  (∀ (s : State) (x : WideTask), s.dev.wideNext (fun t => s.dev.marked t.slot t.task) = some x →
    (∀ y ∈ s.dev.wde.tasks, y.slot = x.slot → y.task = x.task → y = x) →
    ∃ t, exec .wideSave s = .next t ∧ (t.dev.taskRun x.slot x.task).marked = false ∧
      (∀ y ∈ t.dev.wde.tasks, y.slot = x.slot → y.task = x.task →
        y = { x with saved := true, savedTile := (s.dev.filling x).bind s.dev.outTile }) ∧
      (∀ i, s.dev.filling x = some i → t.dev.outTile i = none ∧
        t.dev.reg Off.wdeDrainWaits = (s.dev.reg Off.wdeDrainWaits + 1) % 2 ^ 32) ∧
      (s.dev.filling x = none → t.dev.regs = s.dev.regs) ∧ t.dev.mem = s.dev.mem) ∧
  ∀ s : State, (s.dev.wideFree = false → exec .wideResume s = .next s) ∧
    ∀ slot task x o, s.dev.wideFree = true →
      s.dev.firstTask ((s.dev.wde.tasks.filter fun t => t.saved && s.dev.canResume t.slot t.task).map fun t =>
        (t.slot, t.task)) = some (slot, task) →
      (s.dev.wde.tasks.find? fun t => decide (t.slot = slot) && decide (t.task = task)) = some x →
      x.savedTile = some o → s.dev.wde.tile0 = none ∨ s.dev.wde.tile1 = none →
      ∃ t, exec .wideResume s = .next t ∧ (t.dev.wde.tile0 = some o ∨ t.dev.wde.tile1 = some o) ∧
        (∀ p, s.dev.wde.tile0 = some p → t.dev.wde.tile0 = some p) ∧
        (∀ y ∈ t.dev.wde.tasks, y.slot = slot → y.task = task → y.saved = false ∧ y.savedTile = none) ∧
        t.dev.mem = s.dev.mem ∧ t.dev.regs = s.dev.regs

/-- Plane and wide-engine tasks are saved whole and resume as they were saved: the statements Clause.PlaneSavesAndResumes, Clause.WideSavesAndResumes, whose docstrings say each. -/
def Obligations.SavesAndResumes : Prop :=
  Clause.PlaneSavesAndResumes ∧ Clause.WideSavesAndResumes

/-! ## Attention (R179-R206) -/

/-- ATTENTION_FORWARD, ATTENTION_BACKWARD and PAGE_ARRIVAL (R180, R182, R194-R196, R198, R207): while a task holds the engine
none starts, and under HOLD no block does; the first issued task whose checks fail is rejected; one that passes with nothing to
copy or append reads its row table and arrays and waits for its pages; the next page that it needs is read whole and once,
ATT_PAGES_READ counts it, and blocks leave in their order alone; a block whose pages are there enters the merge, or the
gradients, one row group after another. -/
def Obligations.AttentionReadsItsPages : Prop :=
  (∀ s : State, s.dev.wideIdle = false → exec .attentionForward s = .next s ∧ exec .attentionBackward s = .next s) ∧
  (∀ (s : State) (back : Bool) (slot task : Nat), s.dev.wideIdle = true →
    s.dev.issuedWhere 3 (fun k => decide (k % 16 = 3) == back) = some (slot, task) →
    let c : Instr := if back then .attentionBackward else .attentionForward
    (∀ st d, s.dev.loadAtt slot task = (.reject st, d) → exec c s = .next { s with dev := d.rejectTask slot st }) ∧
    ∀ x y z d d1 d2, s.dev.loadAtt slot task = (.ok x, d) → (∀ w ∈ d.att.tasks, ¬ (w.slot = slot ∧ w.task = task)) →
      let d0 := ({ d with att := { d.att with tasks := d.att.tasks ++ [x] } } : Dev).startTask slot task
      let r := d0.reader 5 0 slot task
      d0.attRows r x = (.ok y, d1) →
      d1.attArrays r y = (.ok z, d2) → prepSteps z.body z.rows = [] → z.blocks ≠ [] → d2.stopped slot task = false →
      exec c s = .next { s with dev := d2 } ∧ z ∈ d2.att.tasks ∧ z.slot = slot ∧ z.task = task ∧ z.stage = 2 ∧
        z.blocks = attBlocks z.body z.rows ∧ z.pagesRead = [] ∧ z.saved = false) ∧
  ∀ (s : State) (x : AttTask), s.dev.attNext (fun t => !s.dev.marked t.slot t.task) = some x → x.early = false →
    (∀ y ∈ s.dev.att.tasks, y.slot = x.slot → y.task = x.task → y = x) → ∀ blk rest, x.blocks = blk :: rest →
    (s.dev.bitAt Off.attCtrl 16 = true → x.group = 0 → exec .pageArrival s = .next s) ∧
    (s.dev.bitAt Off.attCtrl 16 = false ∨ x.group ≠ 0 → rest ≠ [] ∨ x.group + 1 < x.body.groups →
      (∀ va l d, s.dev.blockReady x = false → s.dev.nextPage x = some va →
        s.dev.readVa (s.dev.reader 5 0 x.slot x.task) x.space va 65536 = (.ok l, d) →
        va ∉ x.pagesRead ∧ ∃ t, exec .pageArrival s = .next t ∧
          t.dev.reg64 Off.attPagesReadLo = (d.reg64 Off.attPagesReadLo + 1) % 2 ^ 64 ∧ t.dev.mem = d.mem ∧
          ∀ y ∈ t.dev.att.tasks, y.slot = x.slot → y.task = x.task →
            y.pagesRead = x.pagesRead ++ [va] ∧ y.blocks <:+ x.blocks ∧ y.body = x.body ∧ y.rows = x.rows) ∧
      (s.dev.blockReady x = true →
        let z := s.dev.draw
        let g := z.2.gradRows x z.1 blk
        ∃ t, exec .pageArrival s = .next t ∧ t.dev.mem = s.dev.mem ∧
          ∀ y ∈ t.dev.att.tasks, y.slot = x.slot → y.task = x.task →
            y.blocks = (if x.group + 1 < x.body.groups then x.blocks else rest) ∧
            y.group = (if x.group + 1 < x.body.groups then x.group + 1 else 0) ∧
            (x.body.mode ≠ 3 → y.merge = (z.2.mergeRows x blk).1) ∧
            (x.body.mode = 3 → y.dq = g.dq ∧ y.dk = g.dk ∧ y.dv = g.dv)))

/-- The end of an attention task, ATTENTION_SAVE, ATTENTION_RESUME and QUARANTINE_END (R180, R193-R196, R199, R289): a task with
no block left writes its outputs, or its gradients, and ends; a marked task is saved with its merge as it stands and resumes
from it; a frame in quarantine is FREE from the second tick on and not before. A query row that saw no key gives zeros. -/
def Obligations.AttentionEnds : Prop :=
  (∀ (s : State) (x : AttTask) (u : Unit) (d : Dev),
    s.dev.attNext (fun t => !s.dev.marked t.slot t.task) = some x → x.blocks = [] → x.stage = 2 →
    (prepSteps x.body x.rows).length ≤ x.prep →
    s.dev.writeAll (s.dev.reader 5 0 x.slot x.task) x.space (attWrites x).1 = (.ok u, d) →
    d.stopped x.slot x.task = false → x.slot < d.grf.slots.length → x.task < (d.slot x.slot).run.length →
    ∃ t, exec .pageArrival s = .next t ∧ (t.dev.taskRun x.slot x.task).st = .ended ∧ t.dev.mem = d.mem ∧
      (∀ y ∈ t.dev.att.tasks, ¬ (y.slot = x.slot ∧ y.task = x.task)) ∧
      t.dev.reg Off.attEmptyRows = min (d.reg Off.attEmptyRows + emptyRows x) 0xFFFFFFFF) ∧
  (∀ (s : State) (x : AttTask), s.dev.attNext (fun t => s.dev.marked t.slot t.task) = some x →
    ∃ t, exec .attentionSave s = .next t ∧ t.dev.marked x.slot x.task = false ∧
      t.dev.att.tasks = s.dev.att.tasks.map (fun (y : AttTask) =>
        if y.slot = x.slot ∧ y.task = x.task then { y with saved := true } else y) ∧
      t = { s with dev := { s.dev with att := { s.dev.att with tasks := t.dev.att.tasks }
                                       grf := { s.dev.grf with slots := t.dev.grf.slots } } }) ∧
  (∀ (s : State) (slot task : Nat), s.dev.wideFree = true →
    s.dev.firstTask ((s.dev.att.tasks.filter fun t => t.saved && s.dev.canResume t.slot t.task).map fun t =>
      (t.slot, t.task)) = some (slot, task) →
    ∃ t, exec .attentionResume s = .next t ∧
      t.dev.att.tasks = s.dev.att.tasks.map (fun (y : AttTask) =>
        if y.slot = slot ∧ y.task = task then { y with saved := false } else y) ∧
      t = { s with dev := { s.dev with att := { s.dev.att with tasks := t.dev.att.tasks }
                                       grf := { s.dev.grf with slots := t.dev.grf.slots } } }) ∧
  (∀ (s : State) (frame : Nat) (k : KvFrame), s.dev.frameRec (65536 * frame) = some k →
    (k.state ≠ .quarantine ∨ s.dev.grf.tick < k.since + 2 → exec (.quarantineEnd frame) s = .next s) ∧
    (k.state = .quarantine → k.since + 2 ≤ s.dev.grf.tick →
      ∃ t, exec (.quarantineEnd frame) s = .next t ∧ t.dev.frameRec (65536 * frame) = none ∧
        (∀ a, a ≠ 65536 * frame → t.dev.frameRec a = s.dev.frameRec a) ∧ t.dev.mem = s.dev.mem ∧
        t.dev.mmu.alloc = del s.dev.mmu.alloc (65536 * frame))) ∧
  ∀ x : AttTask, (∀ m ∈ x.merge, m.started = false) → ∀ row ∈ (attOutputs x).1, ∀ b ∈ row, b = 0

/-! ## The fabric (R357-R394) -/

/-- PORT_TRAINING, PORT_RETRAIN, LINK_HELLO, PLAN_CHECK_TIMEOUT, LINK_FAILURE, SYNC_EXCHANGE and LNK_PEER_SELECT (R358, R363,
R369, R373, R377, R393): a port trains to 8 or 4 lanes and then checks its plan, or is DOWN; only a DOWN, enabled port is
trained again; a peer's HELLO is kept, and on a trained port gives the plan outcome; a port without training is UNUSED or
MISSING; a failed link is counted and goes DOWN, or runs on 4 lanes; the counter never goes backward and slews by at most 5
ns; no other port changes where a port trains. -/
def Obligations.PortsTrainAndFail : Prop :=
  ∀ (s : State) (p : Nat), p < s.dev.lnk.ports.length →
    (∀ lanes,
      ((s.dev.port p).state ≠ .training → exec (.portTraining p lanes) s = .next s) ∧
      ((s.dev.port p).state = .training → ∃ t, exec (.portTraining p lanes) s = .next t ∧
        (∀ q, q ≠ p → t.dev.port q = s.dev.port q) ∧
        (lanes = 4 ∨ lanes = 8 → (t.dev.port p).state = .check ∧ (t.dev.port p).lanes = lanes ∧
          (t.dev.port p).goodAt = s.dev.now) ∧
        (lanes ≠ 4 → lanes ≠ 8 → (t.dev.port p).state = .down ∧ (t.dev.port p).lanes = 0)) ∧
      ((s.dev.port p).state ≠ .down ∨ s.dev.portEnabled p = false ∨ lanes ≠ 4 ∧ lanes ≠ 8 →
        exec (.portRetrain p lanes) s = .next s) ∧
      ((s.dev.port p).state = .down → s.dev.portEnabled p = true → lanes = 4 ∨ lanes = 8 →
        ∃ t, exec (.portRetrain p lanes) s = .next t ∧ (∀ q, q ≠ p → t.dev.port q = s.dev.port q) ∧
          (t.dev.port p).state = .check ∧ (t.dev.port p).lanes = lanes ∧
          (t.dev.port p).credits = [256, 256, 256, 32])) ∧
    (∀ h : PeerHello,
      ((s.dev.port p).state = .off ∨ (s.dev.port p).state = .training ∨ (s.dev.port p).state = .down ∨
        (s.dev.port p).state = .up → exec (.linkHello p h) s = .next s) ∧
      ((s.dev.port p).state = .listen ∨ (s.dev.port p).state = .isolated →
        ∃ t, exec (.linkHello p h) s = .next t ∧ (t.dev.port p).state = (s.dev.port p).state ∧
          (t.dev.port p).peerId = h.deviceId ∧ (t.dev.port p).peerSerial = h.serial ∧
          ∀ q, q ≠ p → t.dev.port q = s.dev.port q) ∧
      ((s.dev.port p).state = .check → s.dev.lnk.swap = false →
        ∃ t, exec (.linkHello p h) s = .next t ∧ (t.dev.port p).peerId = h.deviceId ∧
          (t.dev.port p).plan = (s.dev.learnPeer p h).planOutcome p h ∧
          ((t.dev.port p).plan ≠ 1 → (t.dev.port p).plan ≠ 2 → t.dev.bitAt Off.lnkStatus 4 = true))) ∧
    ((s.dev.port p).plan ≠ 0 ∨ (s.dev.port p).state ≠ .training ∧ (s.dev.port p).state ≠ .down →
      exec (.planCheckTimeout p) s = .next s) ∧
    ((s.dev.port p).plan = 0 → (s.dev.port p).state = .training ∨ (s.dev.port p).state = .down →
      ∃ t, exec (.planCheckTimeout p) s = .next t ∧ (t.dev.port p).plan =
        (if s.dev.neighbour s.dev.deviceId (s.dev.logicalPort p) = none then 2 else 6)) ∧
    (∀ half,
      ((s.dev.port p).state ≠ .up → (s.dev.port p).state ≠ .check → (s.dev.port p).state ≠ .isolated →
        exec (.linkFailure p half) s = .next s) ∧
      ((s.dev.port p).state = .up ∨ (s.dev.port p).state = .check ∨ (s.dev.port p).state = .isolated → p < 6 →
        ∃ t, exec (.linkFailure p half) s = .next t ∧ t.dev.bitAt Off.lnkStatus 5 = true ∧
          t.dev.reg (Off.lnkPortFailures + 0x40 * p) = min (s.dev.reg (Off.lnkPortFailures + 0x40 * p) + 1) 0xFFFFFFFF ∧
          (s.dev.lnk.flv = 2 → half ≠ 0 → (s.dev.port p).state = .up →
            (t.dev.port p).lanes = 4 ∧ (t.dev.port p).plan = 3) ∧
          (s.dev.lnk.flv ≠ 2 ∨ half = 0 ∨ (s.dev.port p).state ≠ .up → (t.dev.port p).state = .down))) ∧
    (∀ t1 t2 t3 t4,
      ((s.dev.port p).state ≠ .up → (s.dev.port p).state ≠ .isolated → exec (.syncExchange p t1 t2 t3 t4) s = .next s) ∧
      ((s.dev.port p).state = .up ∨ (s.dev.port p).state = .isolated →
        ∃ t, exec (.syncExchange p t1 t2 t3 t4) s = .next t ∧ s.dev.now ≤ t.dev.now ∧ t.dev.now ≤ s.dev.now + 5 ∧
          ((s.dev.port p).state = .up → s.dev.logicalPort p = s.dev.lnk.parent →
            t.dev.lnk.offset = ((t2 : Int) - t1 - ((t4 : Int) - t3)) / 2) ∧
          (s.dev.logicalPort p ≠ s.dev.lnk.parent → t.dev.now = s.dev.now ∧ t.dev.lnk.offset = s.dev.lnk.offset))) ∧
    ∀ v : Word, s.running = true → ∃ t, exec (.lnkPeerSelect v) s = .next t ∧
      t.dev.fld Off.lnkPeerSelect 2 0 = v.toNat % 8 ∧
      (∀ i < 4, t.dev.reg (Off.lnkPeerSerial + 4 * i) =
        (if v.toNat % 8 < 6 then leAt (s.dev.port (v.toNat % 8)).peerSerial (4 * i) 4 % 2 ^ 32 else 0)) ∧
      t = { s with dev := { s.dev with regs := t.dev.regs } }

/-- FABRIC_FORM, FABRIC_CUT, FORM, PLAN_REPORT and DEVICE_SILENT_CUT (R375, R376, R390): formation is refused for a plan that
reports contradict and for parts that do not meet; the leader forms the fabric, and every device does by its FORM notice,
leaving LINK; a cut takes effect at the third tick to come and is refused for a cube that is unknown or cut, or that would
leave no part here; a report is kept in place of its device's older one; only the leader cuts a silent device. -/
def Obligations.FabricFormsAndIsCut : Prop :=
  (∀ (s : State) (h h' : CmdHdr) (d : Dev) (accept : Bool), s.dev.accept { h with opcode := 0x0040 } = (some h', d) →
    let left := d.planDevices.filter fun id => !d.cubesToCut.contains (cubeOf id)
    let bad := d.planDevices.find? fun id => (List.range 6).any fun q => d.refusing accept id q;
    (∀ id, bad = some id → exec (.fabricForm h accept) s = .next { s with dev := (d.noAt 0x0A01 id).finish h' }) ∧
    (bad = none →
      (d.lnk.formed = true → d.lnk.cut = 0 → exec (.fabricForm h accept) s = .next { s with dev := d.complete h' 0 0 }) ∧
      (d.lnk.formed = false → d.connected accept left = false →
        exec (.fabricForm h accept) s = .next { s with dev := (d.no 0x0A02).finish h' }) ∧
      (d.lnk.formed = false → d.connected accept left = true → d.leaderOf left = d.deviceId → d.lnk.outOfPlan = false →
        ∃ t, exec (.fabricForm h accept) s = .next t ∧ t.dev.lnk.formed = true ∧ t.dev.lnk.leader = d.deviceId ∧
          t.dev.bring ≠ .link))) ∧
  (∀ (s : State) (h h' : CmdHdr) (d : Dev) (cx cy cz : Nat), s.dev.accept { h with opcode := 0x0041 } = (some h', d) →
    let c := cx + 4 * cy + 16 * cz
    let known := cx < 4 ∧ cy < 4 ∧ cz < 4 ∧ ∃ id ∈ d.planDevices, cubeOf id = c;
    (¬ known ∨ d.cubeCut c = true → exec (.fabricCut h cx cy cz) s = .next { s with dev := (d.no 0x0A03).finish h' }) ∧
    (known → d.cubeCut c = false →
      let cs := d.cutClosure [c]
      c ∈ cs ∧
      (cubeOf d.deviceId ∈ cs → exec (.fabricCut h cx cy cz) s = .next { s with dev := (d.no 0x0A04).finish h' }) ∧
      (cubeOf d.deviceId ∉ cs → d.present d.deviceId = true →
        ∃ t, exec (.fabricCut h cx cy cz) s = .next t ∧
          t.dev.lnk.cutDue = d.lnk.cutDue ++ cs.map (fun c => (d.grf.tick + 3, c)) ∧ t.dev.lnk.cut = d.lnk.cut))) ∧
  (∀ (s : State) (p : Packet),
    (p.channel ≠ 4 ∨ p.type ≠ 8 ∨ s.dev.lnk.outOfPlan = true → exec (.form p) s = .next s) ∧
    (p.channel = 4 → p.type = 8 → s.dev.lnk.outOfPlan = false →
      ∃ t, exec (.form p) s = .next t ∧ t.dev.lnk.formed = true ∧ t.dev.lnk.leader = p.src ∧ t.dev.bring ≠ .link ∧
        t.dev.lnk.cut = leAt p.payload 0x20 8 ∧
        t.dev.lnk.formAt = some (leAt p.payload 0 8, leAt p.payload 8 8, leAt p.payload 0x18 4))) ∧
  (∀ (s : State) (r : Report),
    (r ∈ s.dev.lnk.reports ∨ r.device = s.dev.deviceId → exec (.planReport r) s = .next s) ∧
    (r ∉ s.dev.lnk.reports → r.device ≠ s.dev.deviceId → ∃ t, exec (.planReport r) s = .next t ∧
      r ∈ t.dev.lnk.reports ∧ ∀ x ∈ t.dev.lnk.reports, x.device = r.device → x = r)) ∧
  ∀ (s : State) (id : Nat),
    (s.dev.lnk.formed = false ∨ s.dev.lnk.leader ≠ s.dev.deviceId ∨ id = s.dev.deviceId ∨ s.dev.present id = false →
      exec (.deviceSilentCut id) s = .next s) ∧
    (s.dev.lnk.formed = true → s.dev.lnk.leader = s.dev.deviceId → id ≠ s.dev.deviceId → s.dev.present id = true →
      ∃ t, exec (.deviceSilentCut id) s = .next t ∧ (s.dev.grf.tick + 3, cubeOf id) ∈ t.dev.lnk.cutDue ∧
        (∀ x ∈ s.dev.lnk.cutDue, x ∈ t.dev.lnk.cutDue) ∧ t.dev.mem = s.dev.mem)

/-- FLIT_RECEIVE, PACKET_RECEIVE and EARLY_LINK_REQUEST (R268, R359-R366, R371): a flit whose header is uncorrectable is
discarded and NAKed; a packet is discarded and counted where its header breaks R365 or after 32 hops; one for this device
that was delivered before is counted, and delivered no second time; one that comes early waits in
the reorder store; before DIGITAL requests are buffered up to 64, and further ones refused. -/
def Clause.PacketsArriveOnce : Prop :=
  (∀ (s : State) (p : Nat) (l : List Byte),
    (l.length ≠ 256 ∨ (s.dev.port p).state = .off ∨ (s.dev.port p).state = .down ∨ (s.dev.port p).state = .training →
      exec (.flitReceive p l) s = .next s) ∧
    (l.length = 256 → (s.dev.port p).state = .up → p < s.dev.lnk.ports.length → p < 6 → flitWord (l.take 11) 8 = none →
      ∃ t, exec (.flitReceive p l) s = .next t ∧
        t.dev.port p = { s.dev.port p with nak := true, dropping := true } ∧
        (∀ q, q ≠ p → t.dev.port q = s.dev.port q) ∧
        t.dev.reg (Off.lnkPortNaks + 0x40 * p) = (if (s.dev.port p).nak then s.dev.reg (Off.lnkPortNaks + 0x40 * p)
          else (s.dev.reg (Off.lnkPortNaks + 0x40 * p) + 1) % 2 ^ 32) ∧
        t = { s with dev := { s.dev with regs := t.dev.regs, lnk := { s.dev.lnk with ports := t.dev.lnk.ports } } })) ∧
  (∀ (s : State) (p : Packet),
    (s.dev.bring = .rom ∨ s.dev.bring = .recovery → exec (.packetReceive p) s = .next s) ∧
    (s.dev.bring ≠ .rom → s.dev.bring ≠ .recovery →
      (headerOk p = false → ∃ t, exec (.packetReceive p) s = .next t ∧
        t.dev.reg Off.lnkBadPackets = (s.dev.reg Off.lnkBadPackets + 1) % 2 ^ 32 ∧
        t = { s with dev := { s.dev with regs := t.dev.regs } }) ∧
      (headerOk p = true → p.dst ≠ s.dev.deviceId → 31 ≤ p.hops → ∃ t, exec (.packetReceive p) s = .next t ∧
        t.dev.reg Off.lnkHopDrops = (s.dev.reg Off.lnkHopDrops + 1) % 2 ^ 32 ∧
        t = { s with dev := { s.dev with regs := t.dev.regs } }) ∧
      (headerOk p = true → p.dst = s.dev.deviceId → s.dev.isEarly = false → ¬ (p.channel = 4 ∧ p.type = 1) →
        let n := pairVal s.dev.lnk.recvNext p.src p.channel;
        (p.seq ≠ n → seqBefore p.seq n = true → ∃ t, exec (.packetReceive p) s = .next t ∧
          t.dev.reg Off.lnkDuplicates = (s.dev.reg Off.lnkDuplicates + 1) % 2 ^ 32 ∧
          t.dev.lnk.recvNext = s.dev.lnk.recvNext ∧ t.dev.mem = s.dev.mem ∧ t.dev.grf = s.dev.grf ∧
          t.dev.srv = s.dev.srv ∧ t.dev.host = s.dev.host) ∧
        (p.seq ≠ n → seqBefore p.seq n = false →
          (s.dev.lnk.reorder.all fun q =>
            !(decide (q.src = p.src) && decide (q.channel = p.channel) && decide (q.seq = p.seq))) = true →
          s.dev.lnk.reorder.length < 1024 →
          exec (.packetReceive p) s =
            .next { s with dev := { s.dev with lnk := { s.dev.lnk with reorder := s.dev.lnk.reorder ++ [p] } } })))) ∧
  ∀ (s : State) (port : Nat) (p : Packet),
    let takes := s.dev.isEarly && !isFormation p && decide (p.dst = s.dev.deviceId) && headerOk p &&
      decide ((s.dev.port port).state ≠ .off)
    (takes = false → exec (.earlyLinkRequest port p) s = .next s) ∧
    (takes = true → s.dev.lnk.early.length < 64 → exec (.earlyLinkRequest port p) s =
      .next { s with dev := { s.dev with lnk := { s.dev.lnk with early := s.dev.lnk.early ++ [p] } } }) ∧
    (takes = true → 64 ≤ s.dev.lnk.early.length → ∃ t, exec (.earlyLinkRequest port p) s = .next t ∧
      t.dev.lnk.early = s.dev.lnk.early ∧ t.dev.mem = s.dev.mem ∧
      t.dev.reg Off.lnkRetryRefusals = (s.dev.reg Off.lnkRetryRefusals + 1) % 2 ^ 32)

/-- E2E_ACK, E2E_REPLAY, RETRY_AFTER and LOST (R366, R371, R378): an acknowledgement goes out where one is due; packets that
are not acknowledged are sent again 100 µs after the first of them and stay in the replay store; a packet that is to be
retried waits for its hint; a lost packet leaves the store. Each changes nothing where no packet concerns it. -/
def Clause.EndToEndDelivery : Prop :=
  ∀ (s : State) (dev ch : Nat),
    (pairVal s.dev.lnk.ackDue dev ch = 0 → exec (.e2eAck dev ch) s = .next s) ∧
    (pairVal s.dev.lnk.ackDue dev ch ≠ 0 → ∃ t, exec (.e2eAck dev ch) s = .next t ∧
      pairVal t.dev.lnk.ackDue dev ch = 0 ∧ t.dev.lnk.replay = s.dev.lnk.replay ∧ t.dev.lnk.recvNext = s.dev.lnk.recvNext ∧
      ∃ p, t.dev.lnk.sent = s.dev.lnk.sent ++ [p] ∧ p.dst = dev ∧ p.channel = 4 ∧ p.type = 1 ∧
        leAt p.payload 4 4 = (pairVal s.dev.lnk.recvNext dev ch + 2 ^ 32 - 1) % 2 ^ 32) ∧
    (let mine := s.dev.lnk.replay.filter fun p => decide (p.dst = dev) && decide (p.channel = ch);
      (mine = [] → exec (.e2eReplay dev ch) s = .next s) ∧
      ∀ p rest, mine = p :: rest → ∃ t, exec (.e2eReplay dev ch) s = .next t ∧
        t.dev.now = max s.dev.now (p.ts + 100000) ∧ t.dev.lnk.replay = s.dev.lnk.replay ∧
        t.dev.reg Off.lnkE2eReplays = (s.dev.reg Off.lnkE2eReplays + mine.length) % 2 ^ 32 ∧ t.dev.mem = s.dev.mem) ∧
    (∀ seq hint,
      let kept := s.dev.lnk.replay.any fun p => decide (p.dst = dev) && decide (p.channel = ch) && decide (p.seq = seq)
      let retries := s.dev.lnk.retryAt ++ [(dev, ch, seq, s.dev.now + 1000 * hint)];
      (kept = false → exec (.retryAfter dev ch seq hint) s = .next s) ∧
      (kept = true → exec (.retryAfter dev ch seq hint) s = 
        .next { s with dev := { s.dev with lnk := { s.dev.lnk with retryAt := retries } } })) ∧
    ∀ seq status,
      let is := fun (p : Packet) => decide (p.dst = dev) && decide (p.channel = ch) && decide (p.seq = seq)
      let left := s.dev.lnk.replay.filter fun p => !is p;
      (s.dev.lnk.replay.find? is = none → exec (.lost dev ch seq status) s = .next s) ∧
      (∀ p, s.dev.lnk.replay.find? is = some p → s.dev.grf.colls = [] → exec (.lost dev ch seq status) s =
        .next { s with dev := { s.dev with lnk := { s.dev.lnk with replay := left } } })

/-- Packets are delivered once, acknowledged end to end, and replayed: the statements Clause.PacketsArriveOnce, Clause.EndToEndDelivery, whose docstrings say each. -/
def Obligations.PacketsAreDelivered : Prop :=
  Clause.PacketsArriveOnce ∧ Clause.EndToEndDelivery

/-- DIGEST_SLICE, DIGEST_REPORT and EXPEL (R392): a slice falls due at multiples of DIGEST_FRAMES while VERIFY is set, and
VERIFY is cleared after a full rotation; the leader compares the reports of one class once all its members have reported:
where they agree nothing happens, a device against a majority is expelled, and a split of two, or without a majority, expels
none; an expelled device knows it. -/
def Obligations.DigestsAndExpulsion : Prop :=
  (∀ s : State,
    let due := s.dev.bitAt Off.lnkCtrl 8 && s.dev.isFormed &&
      decide (s.dev.grf.tick % max 1 (s.dev.fld Off.lnkDigestFrames 15 0) = 0) &&
      (decide (s.dev.lnk.digestTick ≠ s.dev.grf.tick) || decide (s.dev.grf.tick = 0))
    (due = false → exec .digestSlice s = .next s) ∧
    (due = true → ∃ t, exec .digestSlice s = .next t ∧ t.dev.lnk.digestTick = s.dev.grf.tick ∧
      t.dev.lnk.digestIndex = s.dev.lnk.digestIndex + 1 ∧ t.dev.lnk.digestNext = s.dev.lnk.digestNext + 64 ∧
      t.dev.bitAt Off.lnkCtrl 8 =
        decide (s.dev.lnk.digestNext + 64 < (s.dev.editionTiles s.dev.srv.current).length))) ∧
  (∀ (s : State) (r : DigestRep),
    let k := s.dev.replicaClass r.device
    let takes := decide (s.dev.lnk.leader = s.dev.deviceId) && s.dev.lnk.formed && decide (k ≠ 0) &&
      s.dev.lnk.joined.contains r.device
    let same := fun (x : DigestRep) => decide (x.edition = r.edition) && decide (x.slice = r.slice) &&
      decide (s.dev.replicaClass x.device = k)
    let all := (s.dev.lnk.digests.filter fun x => !(same x && decide (x.device = r.device))) ++ [r]
    let rs := all.filter same
    let complete := ∀ id ∈ s.dev.lnk.joined, s.dev.replicaClass id = k → id ∉ s.dev.lnk.expelledSet →
      ∃ x ∈ rs, x.device = id
    (takes = false → exec (.digestReport r) s = .next s) ∧
    (takes = true → ¬ complete → exec (.digestReport r) s =
      .next { s with dev := { s.dev with lnk := { s.dev.lnk with digests := all } } }) ∧
    (takes = true → complete → ∃ t, exec (.digestReport r) s = .next t ∧ t.dev.lnk.digests = all.filter (fun x => !same x) ∧
      ((∀ x ∈ rs, x.crc = r.crc) → t.dev.lnk.expelledSet = s.dev.lnk.expelledSet) ∧
      (rs.length = 2 → t.dev.lnk.expelledSet = s.dev.lnk.expelledSet) ∧
      ((∀ c, 2 * (rs.map (·.crc)).count c ≤ rs.length) → t.dev.lnk.expelledSet = s.dev.lnk.expelledSet) ∧
      (rs.length ≠ 2 → ∀ c, rs.length < 2 * (rs.map (·.crc)).count c → ∀ id,
        (id ∈ t.dev.lnk.expelledSet ↔ id ∈ s.dev.lnk.expelledSet ∨ ∃ x ∈ rs, x.crc ≠ c ∧ x.device = id)))) ∧
  ∀ (s : State) (p : Packet),
    (p.channel ≠ 4 ∨ p.type ≠ 0xD → exec (.expel p) s = .next s) ∧
    (p.channel = 4 → p.type = 0xD → p.tag = 1 → ∃ t, exec (.expel p) s = .next t ∧ t.dev.bitAt Off.lnkStatus 8 = true ∧
      t.dev.lnk = s.dev.lnk) ∧
    (p.channel = 4 → p.type = 0xD → p.tag ≠ 1 → ∃ t, exec (.expel p) s = .next t ∧
      leAt p.payload 0 2 ∈ t.dev.lnk.expelledSet ∧
      (leAt p.payload 0 2 = s.dev.deviceId → t.dev.lnk.expelled = true))

/-! ## Collectives (R381-R388) -/

/-- The collective tasks start (R381, R382, R387): the first issued task of a kind whose body breaks a check is rejected with its
status; one that passes takes the next order index of its group and TAG; where a member cannot be reached, its graph fails
with UNREACHABLE; a RECEIVE whose SEND has not landed, and a RELAY, wait. The canonical order of an axis holds its members
once each, from the member behind the largest gap on (R383). -/
def Clause.CollectivesStart : Prop :=
  (∀ (s : State) (c : Instr) (kind : Nat → Bool) (slot task : Nat),
    (c = .allReduce ∧ kind = (fun b => !decide (2 ≤ b % 16 ∧ b % 16 ≤ 7)) ∨
      c = .reduceScatter ∧ kind = (fun b => decide (b % 16 = 2)) ∨ c = .allGather ∧ kind = (fun b => decide (b % 16 = 3)) ∨
      c = .broadcast ∧ kind = (fun b => decide (b % 16 = 4)) ∨ c = .send ∧ kind = (fun b => decide (b % 16 = 5)) ∨
      c = .receive ∧ kind = (fun b => decide (b % 16 = 6)) ∨ c = .relay ∧ kind = (fun b => decide (b % 16 = 7))) →
    s.dev.issuedWhere 6 kind = some (slot, task) →
    (∀ st d, Chk.thn (s.dev.readBody slot task 64) checkColl = (.reject st, d) →
      exec c s = .next { s with dev := d.rejectTask slot st }) ∧
    ∀ b d, Chk.thn (s.dev.readBody slot task 64) checkColl = (.ok b, d) → d.lnk.collWait = [] →
      let x : CollTask := { b with slot := slot, task := task, space := (s.dev.slot slot).space, index := d.collOrder b
                                   lastPacketAt := d.now }
      let d1 := ({ d with lnk := { d.lnk with collIndex := put d.lnk.collIndex b.key (d.collOrder b + 1) }
                          grf := { d.grf with colls := d.grf.colls ++ [x] } } : Dev).setTask slot task .running
      (∃ t, exec c s = .next t ∧ t.dev.lnk.collIndex = put d.lnk.collIndex b.key (d.collOrder b + 1)) ∧
      ((∃ m ∈ d1.collOthers x, d1.route m = none) → exec c s = .next { s with dev := d1.failGraph slot 0x0A06 }) ∧
      ((∀ m ∈ d1.collOthers x, d1.route m ≠ none) → (∀ y ∈ d.grf.colls, ¬ (y.slot = slot ∧ y.task = task)) →
        b.kind = 7 ∨ b.kind = 6 ∧ (b.peer, b.tag) ∉ d.lnk.sends → exec c s = .next { s with dev := d1 })) ∧
  ∀ n mask, (axisOrder n mask).Perm ((List.range n).filter (bit mask)) ∧
    ∀ (i : Nat) (a b first last : Nat), (axisOrder n mask).head? = some first → (axisOrder n mask).getLast? = some last →
      2 ≤ (axisOrder n mask).length → (axisOrder n mask)[i]? = some a → (axisOrder n mask)[i + 1]? = some b →
      (b + n - a) % n ≤ (first + n - last) % n

/-- RELAY_UNIT, COLLECTIVE_TIMEOUT, ABORT and HANDOFF_RECEIVE (R300, R382, R386-R388): a unit of a RELAY whose granules have
all landed is sent once; the collective that has waited longest times out, no earlier than LNK_TIMEOUT after its last
packet, and its graph fails; an ABORT ends the collective it names and fails its graph, waits for one to come, or is too
late; the rows of a hand-off that name tracked requests arrive with its END packet. -/
def Clause.CollectivesGoOn : Prop :=
  (∀ s : State, ((∀ c ∈ s.dev.grf.colls, c.kind ≠ 7) → exec .relayUnit s = .next s) ∧
    ∀ (c : CollTask) (u : Nat) (l : List Byte) (d : Dev), s.dev.grf.colls = [c] → c.kind = 7 →
      s.dev.stopped c.slot c.task = false →
      ((List.range c.units).find? fun u => !c.sent.contains u && c.unitLanded u) = some u → c.sent.length + 1 < c.units →
      s.dev.readVa (s.dev.collReader c) c.space (c.src + 4096 * u) (min 4096 (c.count - 4096 * u)) = (.ok l, d) →
      ∃ t x, exec .relayUnit s = .next t ∧ t.dev.grf.colls = [x] ∧ x.sent = c.sent ++ [u] ∧ x.landed = c.landed ∧
        t.dev.mem = d.mem) ∧
  (∀ s : State,
    ((∀ c ∈ s.dev.grf.colls, c.waits = false ∨ s.dev.stopped c.slot c.task = true) →
      exec .collectiveTimeout s = .next s) ∧
    ((∃ c ∈ s.dev.grf.colls, c.waits = true ∧ s.dev.stopped c.slot c.task = false) →
      ∃ c ∈ s.dev.grf.colls, c.waits = true ∧ s.dev.stopped c.slot c.task = false ∧
        (∀ x ∈ s.dev.grf.colls, x.waits = true → s.dev.stopped x.slot x.task = false →
          c.lastPacketAt ≤ x.lastPacketAt) ∧
        let d : Dev := { s.dev with now := max s.dev.now (c.lastPacketAt + 1000 * s.dev.reg Off.lnkTimeout) }
        exec .collectiveTimeout s = .next { s with dev := d.failGraph c.slot 0x0A09 })) ∧
  (∀ (s : State) (p : Packet),
    let q : Packet := { p with channel := 4, type := 4 };
    (∀ c, (s.dev.grf.colls.find? fun c => c.owns q || c.abortedBy q) = some c →
      exec (.abort p) s = .next { s with dev := s.dev.collAborted c }) ∧
    ((∀ c ∈ s.dev.grf.colls, c.abortedBy q = false) →
      (s.dev.awaitsStart q = false → exec (.abort p) s = .next s) ∧
      (s.dev.awaitsStart q = true → exec (.abort p) s =
        .next { s with dev := { s.dev with lnk := { s.dev.lnk with collWait := s.dev.lnk.collWait ++ [q] } } }))) ∧
  ∀ (s : State) (p : Packet) (h : Hand), p.type ≠ 1 → s.dev.lnk.landWait = [] → (∀ c ∈ s.dev.grf.colls, c.kind ≠ 6) →
    (s.dev.srv.hands.find? fun h => decide (h.src = p.src) && decide (h.tag = p.tag % 65536)) = some h →
    (∀ x ∈ s.dev.lnk.inbound, x.src = p.src → x.sid = inKey { p with channel := 1 } →
      crc64 x.bytes = leAt p.payload 0 8) →
    (∃ x ∈ s.dev.lnk.inbound, x.src = p.src ∧ x.sid = inKey { p with channel := 1 }) →
    ∃ t, exec (.handoffReceive p) s = .next t ∧
      (∀ w ∈ s.dev.srv.arrivals, w ∈ t.dev.srv.arrivals) ∧
      (∀ i < leAt h.head 0 2, ∀ r, s.dev.request (leAt h.head (64 + 32 * i) 4) = some r → r.state ≠ .ended →
        r.retiring = false → 64 + 32 * (i + 1) ≤ h.head.length →
        ∃ w ∈ t.dev.srv.arrivals, w.request = leAt h.head (64 + 32 * i) 4 ∧ w.position = leAt h.head (68 + 32 * i) 4 ∧
          w.edition = leAt h.head (92 + 32 * i) 4 ∧ w.arrived = s.dev.grf.tick ∧ w.seqSlot = r.seqSlot) ∧
      (p.src, p.tag % 65536) ∈ t.dev.lnk.sends ∧ t.dev.srv.requests = s.dev.srv.requests

/-- Collective tasks start with their checks, relay, time out, abort and hand off: the statements Clause.CollectivesStart, Clause.CollectivesGoOn, whose docstrings say each. -/
def Obligations.CollectivesRun : Prop :=
  Clause.CollectivesStart ∧ Clause.CollectivesGoOn

/-! ## The configuration store and firmware (R257-R265, R420-R447) -/

/-- STORE_CHECK, IDENTIFY, CONFIG_READ and CONFIG_WRITE (R257, R258, R264-R266): in FW the store's first failed test is the
reason of HOLD, and a store that passes every test takes effect with its generation; either way the mailboxes open. The
identity page reaches the host's buffer; the blob is read where the store passes its tests. A CONFIG_WRITE whose blob fails
a test of R265, or any outside the approved mode (log entry 119), is refused and leaves the store; one that is persisted leaves a store that passes every test. -/
def Obligations.ConfigurationStore : Prop :=
  (∀ s : State,
    (s.dev.bring ≠ .fw → exec .storeCheck s = .next s) ∧
    (s.dev.bring = .fw → ∃ t, exec .storeCheck s = .next t ∧ t.flash = s.flash ∧ t.fw = s.fw ∧ t.sec = s.sec ∧
      (∀ m < 17, (t.dev.box m).expected = 0 ∧ (t.dev.box m).consumed = (t.dev.box m).doorbell) ∧
      (∀ r, s.storeReason = some r → t.dev.bring = .hold ∧ t.dev.holdReason = r ∧ t.dev.mem = s.dev.mem) ∧
      (s.storeReason = none → t.dev.bring ≠ .fw ∧ t.dev.bring ≠ .hold ∧ t.dev.hub.cfgGen = s.flash.counters.getD 0 0 ∧
        (t.dev.lnk.nx * t.dev.lnk.ny * t.dev.lnk.nz ≠ 1 → t.dev.bring = .link)))) ∧
  (∀ (s : State) (h h' : CmdHdr) (d : Dev) (buffer : Nat), s.dev.accept { h with opcode := 0x0002 } = (some h', d) →
    let page := ({ s with dev := d } : State).identityPage
    page.length = 4096 ∧ leAt page 36 4 = s.dev.evr.boot % 2 ^ 32 ∧
    (aligned buffer 4096 = false → exec (.identify h buffer) s = .next { s with dev := (d.no 0x000A).finish h' }) ∧
    (aligned buffer 4096 = true → d.writeHost buffer page = none →
      exec (.identify h buffer) s = .next { s with dev := (d.no 0x0506).finish h' }) ∧
    (aligned buffer 4096 = true → ∀ d1, d.writeHost buffer page = some d1 →
      exec (.identify h buffer) s = .next { s with dev := d1.complete h' 0 4096 })) ∧
  (∀ (s : State) (h h' : CmdHdr) (d : Dev) (buffer bytes : Nat),
    s.dev.accept { h with opcode := 0x0003 } = (some h', d) → aligned buffer 4096 = true →
    let n := leAt s.flash.config 8 4
    (∀ r, s.storeReason = some r →
      exec (.configRead h buffer bytes) s = .next { s with dev := (d.noAt 0x000F r).finish h' }) ∧
    (s.storeReason = none → bytes < n →
      exec (.configRead h buffer bytes) s = .next { s with dev := (d.no 0x000A).finish h' }) ∧
    (s.storeReason = none → n ≤ bytes → ∀ d1, d.writeHost buffer (s.flash.config.take n) = some d1 →
      exec (.configRead h buffer bytes) s = .next { s with dev := d1.complete h' 0 n })) ∧
  ∀ (s : State) (h h' : CmdHdr) (d : Dev) (source bytes : Nat) (persist : Bool),
    s.dev.accept { h with opcode := 0x0004 } = (some h', d) → aligned source 4096 = true →
    (persist = false → d.bring ≠ .hold →
      exec (.configWrite h source bytes persist) s = .next { s with dev := (d.no 0x0009).finish h' }) ∧
    ∀ b, bytes ≤ 65536 → persist = true ∨ d.bring = .hold → d.readHost source bytes = some b →
      (∀ st, s.blobStatus b bytes = some st →
        exec (.configWrite h source bytes persist) s = .next { s with dev := (d.no st).finish h' }) ∧
      (s.blobStatus b bytes = none → persist = false → ∃ t, exec (.configWrite h source bytes persist) s = .next t ∧
        t.flash = s.flash ∧ t.dev.bring ≠ .hold ∧ t.dev.hub.cfgGen = leAt b 0xC 4) ∧
      (s.blobStatus b bytes = none → persist = true → s.fw.flashBad = true →
        ∃ t, exec (.configWrite h source bytes persist) s = .next t ∧ t.storeReason = some 1 ∧
          t.flash.counters = s.flash.counters ∧ t.dev = (d.no 0x0B0C).finish h') ∧
      (s.blobStatus b bytes = none → persist = true → s.fw.flashBad = false → 0 < s.flash.counters.length →
        ∃ t, exec (.configWrite h source bytes persist) s = .next t ∧ t.flash.config = b ∧ t.storeReason = none ∧
          t.counter 0 = leAt b 0xC 4 ∧ (∀ k, k ≠ 0 → t.counter k = s.counter k) ∧
          (d.bring ≠ .hold → t.dev = d.complete h' 0 (leAt b 0xC 4)) ∧ t.dev.bring ≠ .hold)

/-- BOOT_ROM and ENTER_FW (R266, R422, R424, R435, R443, R444, R446): a failed self-test, the RECOVERY strap, FW_RECOVERY
and two slots that fail lead to RECOVERY with reasons 4, 1, 2 and 3; otherwise the PUF secret is derived, the device is in
the approved mode unless JTAG is unlocked, and it stays in ROM. Then an erase that was cut short is completed, the slots of
components 2 to 8 are chosen, and the device enters FW with its enabled ports at LISTEN; two slots of one component that
fail lead to RECOVERY with reason 3. -/
def Obligations.BootChoosesSlots : Prop :=
  ∀ s : State,
    let fails (i : Nat) := s.boots i (s.comp i).slotA = false ∧ s.boots i (s.comp i).slotB = false
    (∀ ok, s.dev.bring ≠ .rom ∨ s.sec.keys ≠ none ∨ s.running = false → exec (.bootRom ok) s = .next s) ∧
    (s.dev.bring = .rom → s.sec.keys = none → s.running = true →
      (∃ t, exec (.bootRom false) s = .next t ∧ t.dev.bring = .recovery ∧ t.sec = { s.sec with reason := 4 }) ∧
      ∃ t, exec (.bootRom true) s = .next t ∧ t.sec.keys = some Config.pufKeys ∧ t.sec.selftestOk = true ∧
        t.sec.approved = !s.sec.jtag ∧ t.flash = s.flash ∧ t.dev.mem = s.dev.mem ∧
        (s.dev.env.recovery = true → t.dev.bring = .recovery ∧ t.sec.reason = 1 ∧ t.fw = s.fw) ∧
        (s.dev.env.recovery = false → s.dev.mbx.recoveryDue = true →
          t.dev.bring = .recovery ∧ t.sec.reason = 2 ∧ t.dev.mbx.recoveryDue = false ∧ t.fw = s.fw) ∧
        (s.dev.env.recovery = false → s.dev.mbx.recoveryDue = false → fails 1 →
          t.dev.bring = .recovery ∧ t.sec.reason = 3) ∧
        (s.dev.env.recovery = false → s.dev.mbx.recoveryDue = false → (s.comp 1).isPending = false →
          s.boots 1 (s.comp 1).active = true → t.dev = s.dev ∧ t.fw = s.fw)) ∧
    (s.dev.bring ≠ .rom ∨ s.sec.keys = none ∨ s.running = false → exec .enterFw s = .next s) ∧
    (s.dev.bring = .rom → s.sec.keys ≠ none → s.running = true → ∃ t, exec .enterFw s = .next t ∧
      (s.flash.eraseMarker = true → s.fw.flashBad = false → t.flash.eraseMarker = false ∧ t.dev.pln.logical = []) ∧
      (s.flash.eraseMarker = false → t.flash = s.flash ∧
        (∀ i ∈ [2, 3, 4, 5, 6, 7, 8], fails i → t.dev.bring = .recovery ∧ t.sec.reason = 3) ∧
        ((∀ i ∈ [2, 3, 4, 5, 6, 7, 8], (s.comp i).isPending = false ∧ s.boots i (s.comp i).active = true) →
          t.dev.bring = .fw ∧ t.dev.lnk.linkFw = (s.comp 6).active.version ∧
          (∀ i, (t.comp i).active = (s.comp i).active) ∧
          ∀ p < 6, p < s.dev.lnk.ports.length → s.dev.portEnabled p = true → (t.dev.port p).state = .listen)))

/-- FW_STAGE, FW_ACTIVATE and FW_RECOVERY (R427, R429, R430, R435, R436): a package is refused with the status of the first
test that it fails, and the slots are left as they were; a package that passes is written to the inactive slot and staged,
and the active slot is untouched; an image whose hash differs makes the inactive slot invalid. Outside the approved mode no
package verifies (the status that says so is the model's, log entry 119). FW_ACTIVATE without a staged
image is NOTHING_STAGED; it switches loader and owner record at once, resets in HOLD and for a hand-over that does not suit,
and else asks for a service pause. In RECOVERY it needs the strap released, eight slots that boot and images that suit one
another. FW_RECOVERY makes a warm reset into RECOVERY due. -/
def Obligations.FirmwareUpdates : Prop :=
  (∀ (s : State) (h h' : CmdHdr) (d : Dev), s.dev.accept { h with opcode := 0x0032 } = (some h', d) →
    ∃ t, exec (.fwRecovery h) s = .next t ∧ t.dev.mbx.resetDue = true ∧ t.dev.mbx.recoveryDue = true ∧
      t = { s with dev := { d.complete h' 0 0 with mbx := t.dev.mbx } }) ∧
  (∀ (s : State) (h h' : CmdHdr) (d : Dev) (source bytes component : Nat),
    s.dev.accept { h with opcode := 0x0030 } = (some h', d) →
    let refused (st : Nat) := { s with dev := (d.no st).finish h' }
    let in_range := aligned source 4096 = true ∧ 1 ≤ component ∧ component ≤ 8
    let size_ok := 2048 ≤ bytes ∧ bytes ≤ 2048 + 33 * 2 ^ 20
    let s1 : State := { s with dev := d }
    (¬ in_range → exec (.fwStage h source bytes component) s = .next (refused 0x000A)) ∧
    (in_range → d.bring = .recovery → s.sec.reason = 4 →
      exec (.fwStage h source bytes component) s = .next (refused 0x0B0F)) ∧
    (in_range → s.sec.approved = false → exec (.fwStage h source bytes component) s = .next (refused 0x0B0F)) ∧
    (in_range → d.bring ≠ .recovery → s.sec.approved = true →
      (¬ size_ok → exec (.fwStage h source bytes component) s = .next (refused 0x0B01)) ∧
      (size_ok → d.readHost source bytes = none →
        exec (.fwStage h source bytes component) s = .next (refused 0x0506)) ∧
      ∀ l, size_ok → d.readHost source bytes = some l →
        let m := l.take 2048
        let old := (s.comp component).active
        let base := if leAt m 0x60 64 = 0 then none else some old.bytes
        let image := applyDelta base (l.length / 8 + 1) (l.drop 2048) []
        (∀ st, s1.stageTests m bytes component = some st →
          exec (.fwStage h source bytes component) s = .next (refused st)) ∧
        (s1.stageTests m bytes component = none → s.fw.comps.length = 8 →
          ∃ t, exec (.fwStage h source bytes component) s = .next t ∧ t.flash = s.flash ∧ t.sec = s.sec ∧
            (t.comp component).active = old ∧ (t.comp component).activeB = (s.comp component).activeB ∧
            (∀ i, i ≠ component → 1 ≤ i → t.comp i = s.comp i) ∧
            (∀ x, image = some x → x.length = leAt m 0x10 4 → (Config.sha512 x).toNat = leAt m 0x20 64 →
              s.fw.flashBad = false → t.fw.staged = some component ∧ t.dev = d.complete h' 0 (leAt m 8 4) ∧
              (t.comp component).slot (!(s.comp component).activeB) = imageOf m x) ∧
            (∀ x, image = some x → x.length = leAt m 0x10 4 → (Config.sha512 x).toNat ≠ leAt m 0x20 64 →
              t.fw.staged ≠ some component ∧ t.dev = (d.no 0x0B07).finish h' ∧
              ((t.comp component).slot (!(s.comp component).activeB)).valid = false) ∧
            (image = none → t.dev = (d.no 0x0B06).finish h')))) ∧
  ∀ (s : State) (h h' : CmdHdr) (d : Dev), s.dev.accept { h with opcode := 0x0031 } = (some h', d) →
    s.fw.comps.length = 8 →
    let s1 : State := { s with dev := d }
    (d.bring ≠ .recovery → s.fw.staged = none →
      exec (.fwActivate h) s = .next { s with dev := (d.no 0x0B0B).finish h' }) ∧
    (d.bring ≠ .recovery → ∀ i, s.fw.staged = some i → 1 ≤ i → i ≤ 8 →
      (s.fw.flashBad = true → exec (.fwActivate h) s = .next { s with dev := (d.no 0x0B0C).finish h' }) ∧
      (s.fw.flashBad = false → ∃ t, exec (.fwActivate h) s = .next t ∧ t.fw.staged = none ∧
        (i = 1 ∨ i ≠ 8 ∧ d.bring = .hold ∨ i = 2 ∧ s.handsOver = false →
          (t.comp i).activeB = (!(s.comp i).activeB) ∧ (t.comp i).isPending = true ∧ t.flash = s.flash) ∧
        (i = 1 → t.dev = d.complete h' 0 0) ∧
        (i ≠ 1 → i ≠ 8 → d.bring = .hold ∨ i = 2 ∧ s.handsOver = false → t.dev.mbx.resetDue = true ∧
          t.dev = { d.complete h' 0 (2 ^ 63) with mbx := t.dev.mbx }) ∧
        (i = 8 → (t.comp 8).activeB = (!(s.comp 8).activeB) ∧ (t.comp 8).isPending = false ∧
          t.flash.ownerKey = some (leAt (((s.comp 8).slot (!(s.comp 8).activeB)).bytes) 4 512)) ∧
        (i ≠ 1 → i ≠ 8 → d.bring ≠ .hold → i ≠ 2 ∨ s.handsOver = true → t.fw.activating = some i ∧
          t.fw.activateCmd = some h' ∧ t.fw.comps = s.fw.comps ∧ t.flash = s.flash ∧ t.dev.mbx = d.mbx))) ∧
    (d.bring = .recovery →
      let ms := ((List.range 8).map (· + 1)).filterMap fun i => (s1.wouldBoot i).map fun m => (i, m.2)
      (d.env.recovery = true → exec (.fwActivate h) s = .next { s with dev := (d.no 0x0B0E).finish h' }) ∧
      (d.env.recovery = false → ms.length < 8 →
        exec (.fwActivate h) s = .next { s with dev := (d.no 0x0B0D).finish h' }) ∧
      (d.env.recovery = false → ms.length = 8 → allCompatible ms = true → ∃ t, exec (.fwActivate h) s = .next t ∧
        t.dev.mbx.resetDue = true ∧ t.dev = { d.complete h' 0 0 with mbx := t.dev.mbx } ∧
        ∀ i, (∀ w ∈ s.fw.written, w.1 ≠ i) → 1 ≤ i → (∀ w ∈ s.fw.written, 1 ≤ w.1) → t.comp i = s.comp i))

/-- PAUSE_TICK, SWAP_END, RESUME_TICK, FW_CONFIRM and CONFIRMATION_WINDOW_END (R420, R424, R429, R432, R433, R438, R439): at
the pause tick the device that activates switches its selector and swaps; a quiesced device ends its swap after the swap
time, and the confirmation window of 120 s starts; the next tick falls at the resume timestamp, and FW_ACTIVATE is done. An
image whose health condition holds in its window confirms, and its counter rises to its SVN; at the window's end the
previous slot comes back: at once, by a warm reset, or through a pause. -/
def Obligations.PausesAndConfirmation : Prop :=
  ∀ s : State, s.fw.comps.length = 8 → s.flash.counters.length = 11 →
    (s.dev.grf.pauseAt = none ∨ s.dev.grf.paused = true ∨ (∀ p, s.dev.grf.pauseAt = some p → s.dev.grf.tick < p) →
      exec .pauseTick s = .next s) ∧
    (∀ p, s.dev.grf.pauseAt = some p → s.dev.grf.paused = false → p ≤ s.dev.grf.tick →
      ∃ t, exec .pauseTick s = .next t ∧ t.dev.grf.paused = true ∧ t.dev.grf.pauseStart = s.dev.grf.tickTime ∧
        t.dev.grf.tick = s.dev.grf.tick ∧ t.flash = s.flash ∧ t.sec = s.sec ∧
        (s.fw.activating = none ∨ s.dev.grf.pauser ≠ s.dev.deviceId → t.fw = s.fw) ∧
        ∀ i, s.fw.activating = some i → s.dev.grf.pauser = s.dev.deviceId → 1 ≤ i → i ≤ 8 → t.fw.swapping = some i ∧
          (t.comp i).activeB = (!(s.comp i).activeB) ∧ (t.comp i).isPending = (!s.fw.reverting)) ∧
    (s.fw.swapping = none ∨ s.dev.quiesced = false → exec .swapEnd s = .next s) ∧
    (∀ i, s.fw.swapping = some i → s.dev.quiesced = true → ∃ t, exec .swapEnd s = .next t ∧ t.fw.swapping = none ∧
      t.dev.now = max s.dev.now (s.dev.grf.pauseStart + swapTime i) ∧ t.flash = s.flash ∧
      (i = 6 → t.dev.lnk.linkFw = (s.comp 6).active.version) ∧
      (s.dev.lnk.formed = false → t.dev.grf.resumeAt = t.dev.now + 1000000) ∧
      (s.fw.reverting = true → t.fw.confirming = s.fw.confirming) ∧
      ∀ k, s.fw.reverting = false → s.pendingComps.head? = some k → t.fw.confirming = some k ∧
        t.fw.windowEnd = t.dev.now + 120 * 10 ^ 9) ∧
    (s.running = false ∨ s.dev.grf.paused = false ∨ s.dev.grf.resumeAt = 0 ∨ s.fw.swapping ≠ none →
      exec .resumeTick s = .next s) ∧
    (s.running = true → s.dev.grf.paused = true → s.dev.grf.resumeAt ≠ 0 → s.fw.swapping = none →
      ∃ t, exec .resumeTick s = .next t ∧ t.dev.grf.paused = false ∧ t.dev.grf.tick = s.dev.grf.tick + 1 ∧
        t.dev.grf.tickTime = s.dev.grf.resumeAt ∧
        t.dev.reg Off.hubFwLastPause = min ((s.dev.grf.resumeAt - s.dev.grf.pauseStart) / 1000) 0xFFFFFFFF ∧
        (s.dev.grf.pauser = s.dev.deviceId → t.fw.activating = none)) ∧
    (s.fw.confirming = none → exec .fwConfirm s = .next s ∧ exec .confirmationWindowEnd s = .next s) ∧
    ∀ i, s.fw.confirming = some i → 1 ≤ i → i ≤ 8 →
      let next := (s.pendingComps.filter (· ≠ i)).head?
      let now := max s.dev.now (s.windowStart + (s.healthy i).2)
      ((s.healthy i).1 = false ∨ s.fw.windowEnd < now → exec .fwConfirm s = .next s) ∧
      ((s.healthy i).1 = true → now ≤ s.fw.windowEnd → s.fw.flashBad = true → exec .fwConfirm s =
        .next { s with dev := { s.dev with now := now }, fw := { s.fw with counterRetry := true } }) ∧
      ((s.healthy i).1 = true → now ≤ s.fw.windowEnd → s.fw.flashBad = false → ∃ t, exec .fwConfirm s = .next t ∧
        (t.comp i).isPending = false ∧ (t.comp i).confirmed = true ∧ (t.comp i).active = (s.comp i).active ∧
        t.counter i = max (s.counter i) (min (s.comp i).active.svn 0xFFFFFFFF) ∧ t.fw.confirming = next ∧
        t.fw.windowEnd = s.fw.windowEnd) ∧
      ∃ t, exec .confirmationWindowEnd s = .next t ∧ (t.comp i).fellBack = true ∧
        t.dev.bitAt Off.hubFwStatus 4 = true ∧ t.dev.now = max s.dev.now s.fw.windowEnd ∧ t.flash = s.flash ∧
        t.fw.confirming = next ∧
        (i = 1 ∨ i = 2 ∨ i = 8 → (t.comp i).activeB = (!(s.comp i).activeB) ∧ (t.comp i).isPending = false) ∧
        (i = 2 → t.dev.mbx.resetDue = true) ∧
        (i ≠ 1 → i ≠ 2 → i ≠ 8 → t.fw.activating = some i ∧ t.fw.reverting = true ∧
          (t.comp i).activeB = (s.comp i).activeB)
/-! ## Resets and power (R174-R177, R262, R349, R350, R408, R431, R461, R473-R480) -/

/-- WARM_RESET, PERST_ASSERT, MODULE_RST_ASSERT, RESET_DEASSERT, POWER_UP, POWER_FAIL, THERMAL_SHUTDOWN and
SHUTDOWN_LATCH_CLEAR (R349, R350, R408, R412, R431, R438, R446, R461, R473, R476-R480): a warm reset and a reset input keep flash,
firmware slots, device memory, event records (but for one being written) and the levels of programmed tiles, clear the keys and
report the change of state; the release of the last
input samples the straps and starts ROM, which the boot count counts; a power cycle keeps flash, slots and levels, and
loses memory, but for the near store's, and records (what a reset that cuts a flash write short leaves is free, log entry 92); a
sensor at its shut-down level sets the latch, which stops the device until it is cleared. An
event that finds its condition unmet changes nothing. -/
def Obligations.ResetsAndPower : Prop :=
  ∀ s : State,
    let noWrite := (∀ c ∈ s.fw.comps, c.selAt ≠ some s.dev.now) ∧ ∀ w, s.fw.stagedAt = some w → w.1 ≠ s.dev.now
    let keeps (t : State) := (s.flash.writeAt ≠ some s.dev.now → t.flash = s.flash) ∧
      (noWrite → t.fw.comps = s.fw.comps) ∧ t.pending = s.pending ∧ t.dev.host = s.dev.host ∧ t.sec.keys = none ∧
      t.sec.approved = false ∧ t.dev.bring = .rom ∧
      (s.dev.pln.rounds = [] → s.dev.pln.prog = [] → ∀ p, (t.dev.phys p).levels = (s.dev.phys p).levels ∧
        (t.dev.phys p).wear = (s.dev.phys p).wear)
    let warm (t : State) := keeps t ∧ t.dev.mem = s.dev.mem ∧ t.dev.now = s.dev.now ∧
      (s.dev.upsets = [] → ∃ l, (l = s.dev.evr.records ∨ ∃ e, s.dev.evr.records.getLast? = some e ∧ e.ts ≤ s.dev.now ∧
          s.dev.now < e.ts + 1000 ∧ l = s.dev.evr.records.dropLast) ∧
        (s.dev.bring = .rom → t.dev.evr.records = l ∧ t.dev.evr.nextSeq = s.dev.evr.nextSeq) ∧
        (s.dev.bring ≠ .rom → l.length < 65536 → ∃ e, t.dev.evr.records = l ++ [e] ∧ e.seq = s.dev.evr.nextSeq ∧
          e.code = bitCode Off.mbxStatus 0 ∧ t.dev.evr.nextSeq = (s.dev.evr.nextSeq + 1) % 2 ^ 32)) ∧
      (s.dev.bring ≠ .rom → t.dev.bitAt Off.mbxStatus 0 = true) ∧ t.sec.reason = s.sec.reason ∧ t.sec.jtag = s.sec.jtag
    let env (t : State) (e : Env) := t.dev.env = { e with msix := t.dev.env.msix, msixPending := t.dev.env.msixPending }
    let counted (t : State) := t.dev.evr.boot = min (s.dev.evr.boot + 1) 0xFFFFFFFF ∧ t.dev.grf.tick = 0
    (s.dev.mbx.resetDue = false → exec .warmReset s = .next s) ∧
    (s.dev.mbx.resetDue = true → ∃ t, exec .warmReset s = .next t ∧ warm t ∧ counted t ∧ t.dev.mbx.resetDue = false ∧
      env t { s.dev.env with configRetry := false }) ∧
    (s.dev.env.powered = false ∨ s.flash.latch = true →
      exec .perstAssert s = .next s ∧ exec .moduleRstAssert s = .next s) ∧
    (s.dev.env.powered = true → s.flash.latch = false →
      (∃ t, exec .perstAssert s = .next t ∧ warm t ∧ t.running = false ∧ t.dev.evr.boot = s.dev.evr.boot ∧
        env t { s.dev.env with perst := true, configRetry := true }) ∧
      ∃ t, exec .moduleRstAssert s = .next t ∧ warm t ∧ t.running = false ∧ t.dev.evr.boot = s.dev.evr.boot ∧
        env t { s.dev.env with modRst := true, configRetry := true }) ∧
    (∀ straps recovery,
      (s.dev.released = true ∨ s.dev.env.powered = false ∨ s.flash.latch = true →
        exec (.resetDeassert straps recovery) s = .next s) ∧
      (s.dev.released = false → s.dev.env.powered = true → s.flash.latch = false →
        ∃ t, exec (.resetDeassert straps recovery) s = .next t ∧ counted t ∧ t.dev.released = true ∧
          t.dev.env.straps = straps ∧ t.dev.env.recovery = recovery ∧ t.dev.deviceId = strapId straps ∧
          t.dev.mem = s.dev.mem ∧ t.flash = s.flash ∧ t.dev.pln = s.dev.pln)) ∧
    (s.dev.env.powered = true ∨ s.flash.latch = true → exec .powerUp s = .next s) ∧
    (s.dev.env.powered = false → s.flash.latch = false → ∃ t, exec .powerUp s = .next t ∧
      t.dev.env.powered = true ∧ t.dev.env.pwrgd = true ∧ t.dev.env.links = true ∧
      t.dev.reg Off.thmLastShutdown = shutdownWord s.flash.shutdown ∧ t.flash = { s.flash with shutdownNew := false } ∧
      (s.dev.released = true → counted t) ∧
      (s.flash.shutdownNew = true → s.flash.shutdown ≠ none → t.dev.bitAt Off.thmStatus 8 = true)) ∧
    (s.dev.env.powered = false → exec .powerFail s = .next s) ∧
    (s.dev.env.powered = true → ∃ t, exec .powerFail s = .next t ∧ keeps t ∧ t.running = false ∧
      t.dev.mem = s.dev.mem.filter (fun c => inNear c.1) ∧ t.dev.evr.records = [] ∧ t.dev.evr.boot = s.dev.evr.boot ∧
      t.sec = {} ∧ t.dev.now = 0) ∧
    (∀ n reading,
      (s.dev.env.powered = false ∨ s.flash.latch = true ∨ 72 ≤ n ∨ reading < s.dev.shutdownLevel n →
        exec (.thermalShutdown n reading) s = .next s) ∧
      (s.dev.env.powered = true → s.flash.latch = false → n < 72 → s.dev.shutdownLevel n ≤ reading →
        ∃ t, exec (.thermalShutdown n reading) s = .next t ∧ t.running = false ∧
          t.dev.mem = s.dev.mem.filter (fun c => inNear c.1) ∧ t.dev.env.thermtrip = true ∧
          (s.flash.writeAt ≠ some s.dev.now →
            t.flash = { s.flash with latch := true, shutdown := some (n, reading), shutdownNew := true }) ∧
          exec .powerUp t = .next t)) ∧
    ∃ t, exec .shutdownLatchClear s = .next t ∧ t.flash.latch = false ∧
      (s.dev.env.powered = false ∨ s.flash.writeAt ≠ some s.dev.now → t.flash = { s.flash with latch := false }) ∧
      t.dev.env.thermtrip = false ∧ t.dev.env.powered = false ∧ t.running = false ∧
      (s.dev.env.powered = true → keeps { t with flash := s.flash } ∧
        t.dev.mem = s.dev.mem.filter (fun c => inNear c.1))

/-! ## Attestation and the erase of weights (R437-R447) -/

/-- GET_VERSION, GET_CAPABILITIES, NEGOTIATE_ALGORITHMS, GET_DIGESTS, GET_CERTIFICATE, CHALLENGE, GET_MEASUREMENTS,
HUB_FW_SELECT and HUB_SEC_COUNTER_SELECT (R437, R441, R442, R447): SPDM answers in every state but ROM while the device
runs, and each answer changes nothing but the answers given and the free values taken; what is signed carries a nonce of 32
bytes and a signature over the request's nonce and the answer, and only in the approved mode. A measurement holds its index
and the SHA-512 digest of its content; in RECOVERY 1 and 12 alone are served. The framing of the answers is the model's own
(log entry 57). -/
def Obligations.AttestationAnswers : Prop :=
  ∀ s : State,
    let gives (c : Instr) (l : List Byte) := exec c s =
      .next { s with dev := { s.dev with env := { s.dev.env with answers := s.dev.env.answers ++ [l] } } }
    let signs (c : Instr) (nonce body : List Byte) :=
      (s.sec.approved = false → gives c [0x7F, 5]) ∧
      (s.sec.approved = true → ∃ t mine k, exec c s = .next t ∧ mine.length = 32 ∧
        t.dev.env.answers = s.dev.env.answers ++ [body ++ mine ++ Config.sign k (nonce ++ body ++ mine)] ∧
        t = { s with dev := { s.dev with fresh := t.dev.fresh, env := t.dev.env } })
    (∀ nonce offset length index, s.spdmServed = false → ∀ c ∈ [Instr.getVersion, .getCapabilities, .negotiateAlgorithms,
        .getDigests, .getCertificate offset length, .challenge nonce, .getMeasurements nonce index],
      exec c s = .next s) ∧
    (s.spdmServed = true →
      gives .getVersion [0x12] ∧ gives .getCapabilities ([16] ++ le 0x16 4) ∧
      gives .negotiateAlgorithms (le 0x40 4 ++ le 0x4 4 ++ le 0x8 4) ∧ gives .getDigests ([1] ++ chainDigest) ∧
      (∀ offset length, gives (.getCertificate offset length) ((Config.certificateChain.drop offset).take length)) ∧
      (∀ nonce, signs (.challenge nonce) nonce chainDigest) ∧
      ∀ nonce index,
        (index = 0 → signs (.getMeasurements nonce index) nonce (le s.measurements.length 1)) ∧
        (index = 0xFF → signs (.getMeasurements nonce index) nonce (s.measurements.flatMap s.measurementBlock)) ∧
        (index ≠ 0 → index ≠ 0xFF → index ∈ s.measurements →
          signs (.getMeasurements nonce index) nonce (s.measurementBlock index)) ∧
        (index ≠ 0 → index ≠ 0xFF → index ∉ s.measurements → gives (.getMeasurements nonce index) [0x7F, 1])) ∧
    (∀ i, 1 ≤ i → i ≤ 13 → (s.measurementBlock i).length = 71 ∧ leAt (s.measurementBlock i) 0 1 = i ∧
      leAt (s.measurementBlock i) 7 64 = (Config.sha512 (s.measured i).2).toNat) ∧
    (s.dev.bring = .recovery → s.measurements = [1, 12]) ∧
    ∀ v : Word,
      (s.running = false → exec (.hubFwSelect v) s = .next s ∧ exec (.hubSecCounterSelect v) s = .next s) ∧
      (s.running = true →
        (∃ t, exec (.hubFwSelect v) s = .next t ∧ t = { s with dev := { s.dev with regs := t.dev.regs } } ∧
          t.dev.reg Off.hubFwSelect = v.toNat % 16 ∧ ∀ k < 4, t.dev.reg (Off.hubFwRecord + 4 * k) =
            (if 1 ≤ v.toNat % 16 ∧ v.toNat % 16 ≤ 8 then leAt (s.versionRecord (v.toNat % 16)) (4 * k) 4 else 0)) ∧
        ∃ t, exec (.hubSecCounterSelect v) s = .next t ∧ t = { s with dev := { s.dev with regs := t.dev.regs } } ∧
          t.dev.reg Off.hubSecCounterSelect = v.toNat % 16 ∧ t.liveReg Off.hubSecCounter % 2 ^ 32 =
            (if v.toNat % 16 < 11 then s.counter (v.toNat % 16) else 0) % 2 ^ 32)

/-- ERASE_NONCE, ERASE_NONCE_EXPIRY, ERASE_WEIGHTS and JTAG_UNLOCK (R438, R440, R443, R446): a request without a nonce, past
its 60 s, or that does not verify under the configuration key erases nothing and uses the nonce up; one that verifies leaves
no weight, no edition and no device memory, raises counter 10 by one, and resets the device. A JTAG token is heard in
RECOVERY alone: one that verifies clears the keys and leaves the approved mode, any other changes nothing but the nonce
drawn. -/
def Obligations.EraseAndUnlock : Prop :=
  ∀ s : State,
    (s.spdmServed = false → ∀ sig, exec .eraseNonce s = .next s ∧ exec (.eraseWeights sig) s = .next s) ∧
    (s.spdmServed = true → ∃ t l, exec .eraseNonce s = .next t ∧ l.length = 32 ∧
      t.sec = { s.sec with nonce := some (ofLe l, s.dev.now) } ∧ t.dev.env.answers = s.dev.env.answers ++ [l] ∧
      t.flash = s.flash ∧ t.dev.mem = s.dev.mem ∧ t.dev.pln = s.dev.pln) ∧
    (s.sec.nonce = none → exec .eraseNonceExpiry s = .next s) ∧
    (∀ n, s.sec.nonce = some n → exec .eraseNonceExpiry s = .next { s with
      dev := { s.dev with now := max s.dev.now (n.2 + 60 * 10 ^ 9) }, sec := { s.sec with nonce := none } }) ∧
    (∀ sig, s.spdmServed = true →
      let good (n : Nat × Nat) := s.dev.now < n.2 + 60 * 10 ^ 9 ∧
        Config.verifies s.configKey (le n.1 32 ++ s.flash.serial ++ [0x45, 0x52, 0x41, 0x53, 0x45]) sig = true
      (s.sec.nonce = none ∨ (∃ n, s.sec.nonce = some n ∧ ¬ good n) → ∃ t, exec (.eraseWeights sig) s = .next t ∧
        t.sec = { s.sec with nonce := none } ∧ t.flash = s.flash ∧
        t.dev = { s.dev with env := { s.dev.env with answers := s.dev.env.answers ++ [[0x7F, 1]] } }) ∧
      ((∃ n, s.sec.nonce = some n ∧ good n) → ∃ t, exec (.eraseWeights sig) s = .next t ∧ t.sec.nonce = none ∧
        t.dev.bring = .rom ∧ t.dev.mem = [] ∧ t.dev.pln.logical = [] ∧
        (∀ x ∈ t.dev.pln.phys, ∀ v ∈ x.2.levels, v = 0) ∧
        (s.fw.flashBad = false → s.flash.counters.length = 11 → s.counter 10 < 0xFFFFFFFF →
          t.counter 10 = s.counter 10 + 1 ∧ t.flash.eraseMarker = false ∧ t.sec.erased = true) ∧
        (s.fw.flashBad = true → t.flash = { s.flash with eraseMarker := true }))) ∧
    ∀ token,
      (s.dev.bring ≠ .recovery ∨ s.running = false → exec (.jtagUnlock token) s = .next s) ∧
      (s.dev.bring = .recovery → s.running = true →
        let nonce := (s.dev.drawBytes 32).1
        let ok := Config.verifies Config.olmoaKey (s.flash.serial ++ nonce) token
        exec (.jtagUnlock token) s = .next { s with
          dev := { s.dev with fresh := s.dev.fresh + 32 }
          sec := if ok then { s.sec with jtag := true, keys := none, approved := false } else s.sec })
/-! ## Housekeeping, temperature, power and management (R449-R482) -/

/-- SEQUENCE_ENTRY_DUE, CONVERSION_COMPLETE and OPEN_WIRE_TEST (R449, R451, R453, R455-R457, R468): an enabled entry that falls
due starts where its converter is free, and else stays due; a pass ends with the rounded mean of its samples, its count and
its flags in the result register, and an entry that newly leaves its limits is counted; an open-wire test sets OPEN where the
pull-up code exceeds the pull-down code by the threshold, and counts an input that was connected before. -/
def Clause.HousekeepingSequence : Prop :=
  ∀ (s : State) (n : Nat), s.dev.hka.entries.length = 32 →
    (32 ≤ n ∨ bit (s.dev.seqWord n) 31 = false ∨ s.dev.env.pwrgd = false →
      exec (.sequenceEntryDue n) s = .next s) ∧
    (n < 32 → bit (s.dev.seqWord n) 31 = true → s.dev.env.pwrgd = true → (s.dev.entry n).running = false →
      (s.dev.entry n).testing = false → (∀ m, m ≠ n → (s.dev.entry m).due = false) →
      ∃ t, exec (.sequenceEntryDue n) s = .next t ∧ (∀ m, m ≠ n → t.dev.entry m = s.dev.entry m) ∧
        (∀ c, s.dev.takes (bits (s.dev.seqWord n) 30 29) = some c →
          t.dev.entry n = { s.dev.entry n with due := false, running := true, seq := s.dev.seqWord n, conv := c } ∧
          (c ≠ 1 → t.dev.convBusy 0 = true) ∧ (c ≠ 0 → t.dev.convBusy 1 = true)) ∧
        (s.dev.takes (bits (s.dev.seqWord n) 30 29) = none → t.dev.entry n = { s.dev.entry n with due := true }) ∧
        t = { s with dev := { s.dev with hka := t.dev.hka } }) ∧
    (∀ samples : List Nat,
      let e := s.dev.entry n
      let input := bits e.seq 21 16
      let v := if 57 ≤ input then 0 else meanCode samples
      let test := s.dev.dacDrives input
      let was := s.dev.bitAt (resultOff n) 29
      let isOut := decide (v < (s.dev.hkaLimits n).1) || decide ((s.dev.hkaLimits n).2 < v)
      (e.running = false ∨ samples.length ≠ 2 ^ bits e.seq 26 24 → exec (.conversionComplete n samples) s = .next s) ∧
      (n < 32 → e.running = true → samples.length = 2 ^ bits e.seq 26 24 →
        ∃ t, exec (.conversionComplete n samples) s = .next t ∧ (t.dev.entry n).passes = e.passes + 1 ∧
          t.dev.bitAt (resultOff n) 31 = true ∧ t.dev.bitAt (resultOff n) 30 = s.dev.bitAt (resultOff n) 30 ∧
          t.dev.bitAt (resultOff n) 29 = (if test then was else isOut) ∧ t.dev.bitAt (resultOff n) 28 = test ∧
          t.dev.fld (resultOff n) 27 16 = (e.passes + 1) % 4096 ∧ t.dev.fld (resultOff n) 11 0 = v ∧
          t.dev.reg Off.hkaLimitEvents = (if isOut && !was && !test then min (s.dev.reg Off.hkaLimitEvents + 1) 0xFFFFFFFF
            else s.dev.reg Off.hkaLimitEvents) ∧
          ((isOut && !was && !test) = true → t.dev.bitAt Off.hkaStatus 3 = true) ∧
          ((isOut && !was && !test) = true → s.dev.evr.records.length < 65536 →
            ∃ x, t.dev.evr.records = s.dev.evr.records ++ [x] ∧ x.code = 0x0F03 ∧ x.arg0 = n ∧ x.arg1 = v) ∧
          ((isOut && !was && !test) = false → t.dev.evr = s.dev.evr) ∧ t.dev.mem = s.dev.mem)) ∧
    ∀ u v : Nat,
      let off := resultOff n
      let isOpen := decide (v + s.dev.fld Off.hkaOpenCtrl 31 20 ≤ u)
      ((s.dev.entry n).testing = false → exec (.openWireTest n u v) s = .next s) ∧
      (n < 32 → (s.dev.entry n).testing = true → ∃ t, exec (.openWireTest n u v) s = .next t ∧
        (t.dev.entry n).testing = false ∧ t.dev.bitAt off 30 = isOpen ∧ t.dev.fld off 29 0 = s.dev.fld off 29 0 ∧
        t.dev.reg Off.hkaOpenEvents = (if isOpen && !s.dev.bitAt off 30 then min (s.dev.reg Off.hkaOpenEvents + 1) 0xFFFFFFFF
          else s.dev.reg Off.hkaOpenEvents) ∧
        ((isOpen && !s.dev.bitAt off 30) = true → t.dev.bitAt Off.hkaStatus 4 = true) ∧ t.dev.mem = s.dev.mem)

/-- URGENT_CONVERSION, URGENT_DONE and TEST_DAC (R454, R457, R468): GO on an idle converter starts at once, on a busy one it
waits for the conversion in progress, at most 1 µs where a pass of several samples runs; GO while a request of its converter
is pending is refused with URGENT_BUSY. The result holds DONE, the wait and the code. The test DAC takes its fields for an
input below 24, and ignores any other write. -/
def Clause.UrgentConversions : Prop :=
  ∀ s : State,
    (∀ v : Word, s.running = true →
      let c := bits v.toNat 8 8
      let asks (w : Option Nat) := s.dev.hka.urgent ++ [(c, bits v.toNat 5 0, s.dev.now, w)]
      let pending := ∃ u ∈ s.dev.hka.urgent, u.1 = c
      ∃ t, exec (.urgentConversion v) s = .next t ∧ t.dev.mem = s.dev.mem ∧
        (bit v.toNat 31 = false → t.dev.hka = s.dev.hka ∧ t.dev.reg Off.hkaUrgent = v.toNat % 2 ^ 31 &&& 0x13F ∧
          ∀ o, o ≠ Off.hkaUrgent → t.dev.reg o = s.dev.reg o) ∧
        (bit v.toNat 31 = true → pending → t.dev.hka = s.dev.hka ∧ t.dev.bitAt Off.hkaStatus 5 = true) ∧
        (bit v.toNat 31 = true → ¬ pending → s.dev.convBusy c = false →
          t.dev.hka.urgent = asks (some 1) ∧ t.dev.convBusy c = true ∧ t.dev.bitAt (urgentOff c) 31 = false) ∧
        (bit v.toNat 31 = true → ¬ pending → s.dev.convBusy c = true → s.dev.inBurst c = false →
          t.dev.hka = { s.dev.hka with urgent := asks none } ∧ t.dev.bitAt (urgentOff c) 31 = false) ∧
        (bit v.toNat 31 = true → ¬ pending → s.dev.convBusy c = true → s.dev.inBurst c = true →
          ∃ w ≤ 1000, t.dev.hka = { s.dev.hka with urgent := asks (some w) })) ∧
    (∀ c code : Nat,
      let started := s.dev.hka.urgent.find? fun u => decide (u.1 = c) && u.2.2.2.isSome
      (started = none → exec (.urgentDone c code) s = .next s) ∧
      (∀ u, started = some u → ∃ t, exec (.urgentDone c code) s = .next t ∧
        t.dev.reg (urgentOff c) =
          (2 ^ 31 + u.2.2.2.getD 0 * 2 ^ 16 + (if 57 ≤ u.2.1 then 0 else code % 4096)) % 2 ^ 32 ∧
        t.dev.hka.urgent = s.dev.hka.urgent.filter (fun x => decide (x.1 ≠ c)) ∧
        (∀ o, o ≠ urgentOff c → t.dev.reg o = s.dev.reg o) ∧ t.dev.mem = s.dev.mem)) ∧
    ∀ v : Word,
      (s.running = false ∨ 24 ≤ bits v.toNat 20 16 → exec (.testDac v) s = .next s) ∧
      (s.running = true → bits v.toNat 20 16 < 24 → ∃ t, exec (.testDac v) s = .next t ∧
        t.dev.fld Off.hkaTestDac 31 31 = bits v.toNat 31 31 ∧ t.dev.fld Off.hkaTestDac 20 16 = bits v.toNat 20 16 ∧
        t.dev.fld Off.hkaTestDac 9 0 = bits v.toNat 9 0 ∧ (∀ o, o ≠ Off.hkaTestDac → t.dev.reg o = s.dev.reg o) ∧
        t = { s with dev := { s.dev with regs := t.dev.regs } })

/-- Housekeeping conversions, limits, open-wire tests and urgent conversions: the statements Clause.HousekeepingSequence, Clause.UrgentConversions, whose docstrings say each. -/
def Obligations.Housekeeping : Prop :=
  Clause.HousekeepingSequence ∧ Clause.UrgentConversions

/-- SENSOR_SAMPLE, GOVERNOR_PERIOD and TELEMETRY_REFRESH (R458-R460, R464-R467): a reading stands in the sensor's register with
its NEAR_THROTTLE, WARNING and THROTTLE, which have hysteresis; the third sample in a row without one sets FAULT. Each period
the governor computes the module power and raises or lowers its level by one, between the floor and 15, and holds it while a
service pause runs; the telemetry page is rewritten under the next even SEQUENCE, at both of its ends. -/
def Obligations.SensorsAndGovernor : Prop :=
  ∀ s : State,
    (∀ (n : Nat) (r : Int), n < 72 → s.dev.env.pwrgd = true → s.dev.thm.sensors.length = 72 →
      let off := sensorOff n
      let level := s.dev.levels (sensorClass n)
      ∃ t, exec (.sensorSample n (some r)) s = .next t ∧ t.dev.fld off 15 0 = unsigned r 16 ∧
        t.dev.bitAt off 16 = decide (level.2 - 20 ≤ r) ∧
        t.dev.bitAt off 17 = levelNow (s.dev.bitAt off 17) r level.1 16 ∧
        t.dev.bitAt off 18 = levelNow (s.dev.bitAt off 18) r level.2 24 ∧ t.dev.bitAt off 19 = false ∧
        (t.dev.thm.sensors.getD n {}).bad = 0 ∧
        (∀ k < 72, k ≠ n → t.dev.reg (sensorOff k) = s.dev.reg (sensorOff k)) ∧ t.dev.mem = s.dev.mem) ∧
    (∀ n : Nat, n < 72 → s.dev.env.pwrgd = true → s.dev.thm.sensors.length = 72 →
      ∃ t, exec (.sensorSample n none) s = .next t ∧
        (t.dev.thm.sensors.getD n {}).bad = (s.dev.thm.sensors.getD n {}).bad + 1 ∧
        ((s.dev.thm.sensors.getD n {}).bad < 2 → t.dev.regs = s.dev.regs) ∧
        (2 ≤ (s.dev.thm.sensors.getD n {}).bad → t.dev.bitAt (sensorOff n) 19 = true) ∧
        t.dev.fld (sensorOff n) 15 0 = s.dev.fld (sensorOff n) 15 0) ∧
    (∀ n reading, 72 ≤ n ∨ s.dev.env.pwrgd = false → exec (.sensorSample n reading) s = .next s) ∧
    (s.dev.env.pwrgd = false → exec .governorPeriod s = .next s ∧ exec .telemetryRefresh s = .next s) ∧
    (s.dev.env.pwrgd = true → ∃ t, exec .governorPeriod s = .next t ∧ t.dev.pwr.boardDue = none ∧
      t.dev.fld Off.pwrModule 15 0 = min (s.dev.powerMicro / 100000) 65535 ∧
      (∀ w, s.dev.pwr.boardDue = some w → t.dev.fld Off.pwrLimit 25 16 = w % 1024) ∧
      (s.dev.grf.paused = true → t.dev.pwr.level = s.dev.pwr.level) ∧
      (s.dev.grf.paused = false → s.dev.pwr.boardDue = none →
        let l := s.dev.pwr.level
        let p := s.dev.powerMicro
        let floor := s.dev.floorLevel
        (s.dev.powerLimit * 1000000 < p → t.dev.pwr.level = max (min 15 (l + 1)) floor) ∧
        (p < s.dev.powerLimit * 950000 → t.dev.pwr.level = max (l - 1) floor) ∧
        (p ≤ s.dev.powerLimit * 1000000 → s.dev.powerLimit * 950000 ≤ p → t.dev.pwr.level = max l floor)) ∧
      (s.dev.pwr.level ≤ 15 → t.dev.pwr.level ≤ 15) ∧ t.dev.fld Off.pwrGovernor 3 0 = t.dev.pwr.level % 16 ∧
      (s.dev.pwr.level = 0 → t.dev.pwr.level ≠ 0 → t.dev.bitAt Off.pwrStatus 3 = true)) ∧
    (s.dev.env.pwrgd = true → s.dev.bring ≠ .rom → s.fw.swapping ≠ some 7 →
      let q := (s.dev.pwr.telemetrySeq + 2) % 2 ^ 32
      ∃ t, exec .telemetryRefresh s = .next t ∧ t.dev.pwr.telemetrySeq = q ∧ t.dev.pwr.telemetry.length = 4096 ∧
        leAt t.dev.pwr.telemetry 0 4 = q ∧ leAt t.dev.pwr.telemetry 0xFFC 4 = q ∧
        leAt t.dev.pwr.telemetry 8 8 = s.dev.now % 2 ^ 64 ∧
        (∀ n < 72, leAt t.dev.pwr.telemetry (0x40 + 2 * n) 2 = s.dev.fld (sensorOff n) 15 0) ∧
        (∀ n < 32, leAt t.dev.pwr.telemetry (0x100 + 4 * n) 4 = s.dev.reg (resultOff n)) ∧
        t = { s with dev := { s.dev with pwr := { s.dev.pwr with telemetry := t.dev.pwr.telemetry
                                                                 telemetrySeq := q } } })

/-- PWR_OFF, DOMAIN_SWITCH_OFF and DOMAIN_ON (R166, R358, R462, R463): a set of domains with every wide-engine block, every pip
cluster or an allocated near-store half in it is refused with OFF_REFUSED; a domain requested off switches off once its wait
condition has cleared, with the memory as it is (log entry 103); a domain no longer requested off comes back, a tile of a bank
with its active bank from the copy in the near store, and a port to LISTEN or TRAINING. -/
def Obligations.PowerDomains : Prop :=
  (∀ (s : State) (hi : Bool) (v : Word), s.running = true →
    let off := if hi then withBits s.dev.pwr.off 49 32 (v.toNat % 2 ^ 18) else withBits s.dev.pwr.off 31 0 v.toNat
    let refused := bits off 37 32 = 63 ∨ bits off 41 38 = 15 ∨ bit off 42 = true ∧ s.dev.halfAllocated 0 = true ∨
      bit off 43 = true ∧ s.dev.halfAllocated 1 = true
    ∃ t, exec (.pwrOff hi v) s = .next t ∧
      (refused → t.dev.bitAt Off.pwrStatus 4 = true ∧ t = { s with dev := { s.dev with regs := t.dev.regs } } ∧
        ∀ o, o ≠ Off.pwrStatus → t.dev.reg o = s.dev.reg o) ∧
      (¬ refused → t.dev.pwr.off = off ∧ t.dev.reg Off.pwrOffLo = off % 2 ^ 32 ∧
        t.dev.reg Off.pwrOffHi = off / 2 ^ 32 % 2 ^ 32 ∧ t.dev.pwr.stateOff = s.dev.pwr.stateOff ∧
        t.dev.mem = s.dev.mem)) ∧
  ∀ (s : State) (n : Nat),
    (50 ≤ n ∨ bit s.dev.pwr.off n = false ∨ bit s.dev.pwr.stateOff n = true ∨ s.dev.domainQuiet n = false →
      exec (.domainSwitchOff n) s = .next s) ∧
    (n < 50 → bit s.dev.pwr.off n = true → bit s.dev.pwr.stateOff n = false → s.dev.domainQuiet n = true →
      ∃ t, exec (.domainSwitchOff n) s = .next t ∧ bit t.dev.pwr.stateOff n = true ∧
        (∀ k < 50, k ≠ n → bit t.dev.pwr.stateOff k = bit s.dev.pwr.stateOff k) ∧
        (n < 44 → t.dev.mem = s.dev.mem) ∧
        (n < 32 → ∀ c ∈ t.dev.cal.passes, bankDomain c.phys ≠ n ∨ c.phys ∉ s.dev.pln.phys.map (·.1)) ∧
        (44 ≤ n → n - 44 < s.dev.lnk.ports.length → (t.dev.port (n - 44)).state = .off)) ∧
    (50 ≤ n ∨ bit s.dev.pwr.off n = true ∨ bit s.dev.pwr.stateOff n = false → exec (.domainOn n) s = .next s) ∧
    (n < 50 → bit s.dev.pwr.off n = false → bit s.dev.pwr.stateOff n = true → ∃ t, exec (.domainOn n) s = .next t ∧
      bit t.dev.pwr.stateOff n = false ∧ (∀ k < 50, k ≠ n → bit t.dev.pwr.stateOff k = bit s.dev.pwr.stateOff k) ∧
      t.dev.mem = s.dev.mem ∧
      (n < 32 → ∀ p ∈ s.dev.bankTiles n, (s.dev.phys p).logical ≠ none → (s.dev.phys p).state ≠ .free →
        (s.dev.phys p).state ≠ .programming → (s.dev.phys p).nearCopyOk = true → s.dev.badWords (trimArea p) trimBytes = [] →
          (t.dev.phys p).active = (s.dev.phys p).nearCopy ∧
          ((s.dev.phys p).grade = 2 → s.dev.background = true → 1 ≤ (t.dev.phys p).passDue)) ∧
      (44 ≤ n → n - 44 < s.dev.lnk.ports.length → s.dev.portEnabled (n - 44) = true →
        (s.dev.bring = .fw ∨ s.dev.bring = .hold → (t.dev.port (n - 44)).state = .listen) ∧
        (s.dev.linkOn = true → s.dev.lnk.outOfPlan = false → (t.dev.port (n - 44)).state = .training)))

/-- GET_TELEMETRY, GET_CPER, SET_BOARD_LIMIT, GET_SHUTDOWN and GET_IDENTITY (R464, R474, R476, R482): each gives one answer in every
state of the device, at the SMBus address of the straps BX, BY and BZ, with its completion code first; an index out of range and a limit outside 300 to 950 W are
ERROR_INVALID_DATA and change nothing; a board limit waits for the next governor period, and 0 clears it. The framing of the
answers is the model's own (log entry 57). -/
def Obligations.ManagementMessages : Prop :=
  ∀ s : State,
    let n := s.dev.env.straps.toNat
    let own := 0x40 + n / 64 % 2 + 2 * (n / 128 % 2) + 4 * (n / 256)
    let answers (l : List Byte) : Dev := { s.dev with env := { s.dev.env with mctp := s.dev.env.mctp ++ [(own, l)] } }
    let gives (c : Instr) (l : List Byte) := exec c s = .next { s with dev := answers l }
    (∀ piece, (16 ≤ piece → gives (.getTelemetry piece) [0x02]) ∧
      (piece < 16 → gives (.getTelemetry piece) ([0] ++ padTo (s.dev.pwr.telemetry.drop (256 * piece)) 256))) ∧
    (∀ i, (64 ≤ i → gives (.getCper i) [0x02]) ∧
      (i < 64 → s.dev.evr.recent.length ≤ i → gives (.getCper i) [0]) ∧
      (∀ c, i < 64 → s.dev.evr.recent[i]? = some c → gives (.getCper i) ([0] ++ c.bytes s.flash.serial))) ∧
    (∀ w, (w ≠ 0 → w < 300 ∨ 950 < w → gives (.setBoardLimit w) [0x02]) ∧
      (w = 0 ∨ 300 ≤ w ∧ w ≤ 950 → exec (.setBoardLimit w) s = .next { s with
        dev := { answers [0] with pwr := { s.dev.pwr with boardDue := some (if w = 0 then 950 else w) } } })) ∧
    gives .getShutdown ([0, if s.flash.latch then 1 else 0] ++ le (s.flash.shutdown.getD (0, 0)).1 1 ++
      le (unsigned (s.flash.shutdown.getD (0, 0)).2 16) 2) ∧
    gives .getIdentity ([0] ++ padTo orderingNumber 16 ++ padTo s.flash.serial 16 ++
      le (if s.dev.env.powered then s.dev.mbxStateWord else 0) 4)

/-! ## Register accesses, limit ratios and the frame tick (R10, R28-R32, R105, R284-R290) -/

/-- REGISTER_WRITE and LOW_HALF_READ (R10-R12, R105, R246, R485): an access of another size or alignment, and one to an offset
without a register, changes nothing; a write to a register that another row names is that row; a write to any other register
sets its fields of classes S and L at once and its fields of class F at the next tick, leaves its read-only fields, and
clears the flags written with 1; a change of a class S field while its block is not idle changes nothing but its
CLASS_VIOLATION flag. The read of a low half latches the high half for the read that follows. -/
def Obligations.RegisterAccesses : Prop :=
  (∀ (s : State) (off size : Nat) (data : List Byte),
    s.running = false ∨ off < 0x1000000 ∧ (size ≠ 4 ∨ off % 4 ≠ 0 ∨ rowOf off = none) →
      exec (.registerWrite off size data) s = .next s) ∧
  (∀ (s : State) (v : Word), s.running = true →
    let write (off : Nat) := exec (.registerWrite off 4 (le v.toNat 4)) s
    write Off.plnTileSelect = exec (.plnTileSelect v) s ∧ write Off.calTileSelect = exec (.calTileSelect v) s ∧
    write Off.mmuFaultRead = exec (.mmuFaultRead v) s ∧ write Off.arbSelect = exec (.arbSelect v) s ∧
    write Off.grfFrame = exec (.grfFrameRequest v) s ∧ write Off.srvRequestSelect = exec (.srvRequestSelect v) s ∧
    write Off.lnkPeerSelect = exec (.lnkPeerSelect v) s ∧ write Off.evrCtrl = exec (.evrRestart v) s ∧
    write Off.evrCperHead = exec (.evrCperHead v) s ∧ write Off.evrCperCtrl = exec (.evrCperCtrl v) s ∧
    write Off.hubFwSelect = exec (.hubFwSelect v) s ∧ write Off.hubSecCounterSelect = exec (.hubSecCounterSelect v) s ∧
    write Off.hkaUrgent = exec (.urgentConversion v) s ∧ write Off.hkaTestDac = exec (.testDac v) s ∧
    write Off.pwrOffLo = exec (.pwrOff false v) s ∧ write Off.pwrOffHi = exec (.pwrOff true v) s ∧
    (∀ m < 17, write (0x1001000 + 0x10000 * m) = exec (.doorbellWrite m 4 v) s ∧
      write (mbxCtrlOff m) = exec (.mbxCtrl m v) s ∧ write (mbxCtrlOff m + 0xC) = exec (.mbxCqHead m v) s) ∧
    (∀ n < 8, write (Off.crcFeedW + 0x40 * n) = exec (.crcFeedW n v) s ∧
      write (Off.crcValueLo + 0x40 * n) = exec (.crcValueLo n v) s) ∧
    ∀ off, off / 0x10000 ∈ [2, 3, 5, 7, 16] → off % 4 = 0 → rowOf off ≠ none →
      write off = .next { s with dev := s.dev.regWrite off v.toNat }) ∧
  (∀ (d : Dev) (off v : Nat), v < 2 ^ 32 →
    let t := d.regWrite off v
    let barred := d.changesS off v = true ∧ d.blockIdle off = false
    (regTakes off v = false → t = d) ∧
    (regTakes off v = true → barred → t.bitAt (violationBit off).1 (violationBit off).2 = true ∧ t.shadow = d.shadow ∧
      ∀ o, o ≠ (violationBit off).1 → o ≠ Off.evrLost → o ≠ Off.evrStatus → t.reg o = d.reg o) ∧
    (regTakes off v = true → ¬ barred → ∀ f ∈ fieldsOf off,
      (f.cls = .s ∨ f.cls = .l → t.fld off f.hi f.lo =
        if fieldTakes off f.lo (bits v f.hi f.lo) then bits v f.hi f.lo else d.fld off f.hi f.lo) ∧
      (f.cls = .ro → t.fld off f.hi f.lo = d.fld off f.hi f.lo) ∧
      (f.cls = .f → t.fld off f.hi f.lo = d.fld off f.hi f.lo ∧
        (fieldTakes off f.lo (bits v f.hi f.lo) = true → t.fieldNow off f = bits v f.hi f.lo)) ∧
      (f.cls = .w1c → ∀ b, f.lo ≤ b → b ≤ f.hi → t.bitAt off b = (d.bitAt off b && !v.testBit b)))) ∧
  ∀ (s : State) (off : Nat),
    (s.running = false ∨ latches off = false → exec (.lowHalfRead off) s = .next s) ∧
    (s.running = true → latches off = true → ∃ t, exec (.lowHalfRead off) s = .next t ∧
      t.readReg (off + 4) = s.liveReg (off + 4) % 2 ^ 32 ∧ (∀ o, o ≠ off + 4 → t.readReg o = s.readReg o) ∧
      t = { s with dev := { s.dev with latched := t.dev.latched } })

/-- RATIO_WINDOW_END (R28-R32, R361): the window ends once WINDOW frames have passed; in READY with ENABLE its ratios with
activity are written with 12 fraction bits, WORST keeps the worst since its restart, and a KV ratio below 0.90, a latency ratio
above 2.00 and a link ratio below 0.94 set their status bits; outside READY or without ENABLE nothing is judged. What the
window counted starts again from 0. -/
def Obligations.RatioWindows : Prop :=
  ∀ (s : State) (m : RatioMeas),
    let code (num den : Nat) := min (divNearest (4096 * num) den) 0xFFFF
    let kv := s.dev.hub.winKv
    let lat := 131200 * m.latTime
    let bound := s.dev.hub.bound
    let anew := { s.dev.hub with
      frames := 0, winKv := 0, winStep := 0, winHand := 0, winLink := List.replicate 6 0 }
    (s.dev.hub.frames < s.dev.fld Off.hubRatioCtrl 7 0 → exec (.ratioWindowEnd m) s = .next s) ∧
    (s.dev.fld Off.hubRatioCtrl 7 0 ≤ s.dev.hub.frames → s.dev.bring ≠ .ready ∨ s.dev.bitAt Off.hubRatioCtrl 8 = false →
      exec (.ratioWindowEnd m) s = .next { s with dev := { s.dev with hub := anew } }) ∧
    (s.dev.fld Off.hubRatioCtrl 7 0 ≤ s.dev.hub.frames → s.dev.bring = .ready → s.dev.bitAt Off.hubRatioCtrl 8 = true →
      ∃ t, exec (.ratioWindowEnd m) s = .next t ∧ t.dev.mem = s.dev.mem ∧
        t.dev.hub = { anew with restartWorst := t.dev.hub.restartWorst } ∧
        (m.kvTime = 0 ∨ kv = 0 → t.dev.reg Off.hubRatioKv = s.dev.reg Off.hubRatioKv) ∧
        (m.kvTime ≠ 0 → kv ≠ 0 → t.dev.fld Off.hubRatioKv 15 0 = code kv (8200 * m.kvTime) ∧
          t.dev.fld Off.hubRatioKv 31 16 = (if s.dev.hub.restartWorst.getD 0 true then code kv (8200 * m.kvTime)
            else min (s.dev.fld Off.hubRatioKv 31 16) (code kv (8200 * m.kvTime))) ∧
          t.dev.bitAt Off.hubRatioStatus 0 =
            (s.dev.bitAt Off.hubRatioStatus 0 || decide (100 * kv < 90 * (8200 * m.kvTime)))) ∧
        (m.latTime = 0 ∨ bound = 0 → t.dev.reg Off.hubRatioLatency = s.dev.reg Off.hubRatioLatency) ∧
        (m.latTime ≠ 0 → bound ≠ 0 → t.dev.fld Off.hubRatioLatency 15 0 = code lat bound ∧
          t.dev.bitAt Off.hubRatioStatus 1 = (s.dev.bitAt Off.hubRatioStatus 1 || decide (2 * bound < lat)) ∧
          (16 * bound ≤ lat → t.dev.bitAt Off.hubRatioStatus 8 = true ∧
            t.dev.reg Off.hubRatioClips = min (s.dev.reg Off.hubRatioClips + 1) 0xFFFFFFFF)) ∧
        ∀ p < 6,
          let time := m.linkTime.getD p 0
          let n := 4 * s.dev.hub.winLink.getD p 0
          let den := (if (s.dev.port p).lanes = 4 then 235 else 470) * time
          (time = 0 → t.dev.reg (Off.hubRatioLink + 4 * p) = s.dev.reg (Off.hubRatioLink + 4 * p)) ∧
          (time ≠ 0 → t.dev.fld (Off.hubRatioLink + 4 * p) 15 0 = code n den ∧
            t.dev.bitAt Off.hubRatioStatus (2 + p) =
              (s.dev.bitAt Off.hubRatioStatus (2 + p) || decide (100 * n < 94 * den))))

/-- FRAME_TICK (R10, R219, R284, R286, R288, R376, R429): while no service pause holds it, the tick number advances by one
and the timestamp by the frame length; the first tick of a fabric takes its number and time from the FORM notice. At the
tick shadow values take effect, new roots are in force with their SPACE_SET commands done, and every graph that has waited
since before it has started. No tick falls between a pause tick and the resume timestamp. -/
def Clause.FrameTicks : Prop :=
  ∀ s : State,
    let held := ∃ p, s.dev.grf.pauseAt = some p ∧ p ≤ s.dev.grf.tick
    (s.running = false ∨ s.dev.grf.paused = true ∨ held → exec .frameTick s = .next s) ∧
    (s.running = true → s.dev.grf.paused = false → ¬ held →
      let next := s.dev.grf.tickTime + 1000 * s.dev.fld Off.grfFrame 27 16
      ∃ t, exec .frameTick s = .next t ∧ t.pending = s.pending ∧ t.sec = s.sec ∧ t.dev.grf.paused = false ∧
        (s.dev.lnk.formAt = none ∨ (∃ x, s.dev.lnk.formAt = some x ∧ next < x.1) →
          t.dev.grf.tick = s.dev.grf.tick + 1 ∧ t.dev.grf.tickTime = next) ∧
        (∀ time n us, s.dev.lnk.formAt = some (time, n, us) → time ≤ next →
          t.dev.grf.tick = n ∧ t.dev.grf.tickTime = max time s.dev.grf.tickTime ∧ t.dev.lnk.formAt = none) ∧
        t.dev.grf.tickTime ≤ t.dev.now ∧ s.dev.now ≤ t.dev.now ∧ t.dev.shadow = s.dev.late ∧ t.dev.late = [] ∧
        (∀ c ∈ t.dev.mmu.rootDue, t.dev.grf.tick < c.1) ∧
        (∀ c ∈ t.dev.mmu.spaceCmds, t.dev.grf.tick < c.1) ∧ 
        (∀ i < 16, (t.dev.slot i).state = .waiting → t.dev.grf.tickTime ≤ (t.dev.slot i).acceptedAt) ∧
        (s.fw.confirming = none → t.fw = s.fw ∧ t.flash = s.flash) ∧
        (s.dev.lnk.formAt = none → s.dev.grf.frameAt ≠ 0 → s.dev.grf.frameAt ≤ s.dev.grf.tick + 1 →
          t.dev.fld Off.grfFrame 27 16 = s.dev.grf.frameNext % 4096 ∧ t.dev.grf.frameAt = 0 ∧
          t.dev.reg64 Off.grfFrameAtLo = 0 ∧ t.dev.bitAt Off.grfStatus 6 = false) ∧
        (s.dev.lnk.formAt = none → s.dev.grf.frameAt = 0 ∨ s.dev.grf.tick + 1 < s.dev.grf.frameAt →
          t.dev.fld Off.grfFrame 27 16 = s.dev.fld Off.grfFrame 27 16))
/-- Frame ticks, and when a requested frame length takes effect: the statements Clause.FrameLengthRequests, Clause.FrameTicks, whose docstrings say each. -/
def Obligations.FrameTicksAndLengths : Prop :=
  Clause.FrameLengthRequests ∧ Clause.FrameTicks

/-! ## What every step keeps -/

/-- Every step from a state whose flash keeps its layout leaves it kept, whatever the command, and no monotonic counter ever
falls (R438); where a persistent configuration write is under way, counter 0 may still be found at the value that it had before
(R265; log entry 92). -/
def Obligations.CountersOnlyRise : Prop :=
  ∀ s t : State, Safety.FlashWf s → step s = .next t → Safety.FlashWf t ∧
    ∀ k, (if k = 0 ∧ s.flash.writeAt = some s.dev.now then min s.flash.before (s.counter k) else s.counter k) ≤ t.counter k

/-- No step leads into the approved mode without passed self-tests, derived keys and closed debug (R445, R446). -/
def Obligations.ApprovedModeIsEarned : Prop :=
  ∀ s t : State, Safety.ApprovedWf s → step s = .next t → Safety.ApprovedWf t

/-- The state after reset of a new device (R10, R266, R270, R393, R438): it is in ROM with nothing waiting, every register reads
its reset value, its memories list nothing, its counters are 0, and it meets the invariants. (The values that the manual leaves
open are the model's choices, log entries 70 to 72.) -/
def Obligations.ResetState : Prop :=
  Safety.FlashWf State.reset ∧ Safety.ApprovedWf State.reset ∧ State.reset.pending = [] ∧ State.reset.running = true ∧
    State.reset.dev.bring = .rom ∧ State.reset.sec.keys = none ∧ State.reset.sec.approved = false ∧
    (∀ off, State.reset.dev.reg off = (resetOf off).toNat) ∧ memWf State.reset.dev.mem = true ∧
    memWf State.reset.dev.host = true ∧ (∀ a, memGet State.reset.dev.mem a = 0) ∧ (∀ k, State.reset.counter k = 0) ∧
    (∀ m < 17, State.reset.dev.box m = {}) ∧ (∀ i < 16, (State.reset.dev.slot i).state = .empty) ∧
    State.reset.dev.fld Off.grfFrame 27 16 = 50 ∧ State.reset.dev.fld Off.pwrLimit 9 0 = 950 ∧
    State.reset.dev.fld Off.pwrPeriod 9 0 = 20 ∧ State.reset.dev.reg Off.lnkTimeout = 2000 ∧
    State.reset.dev.reg Off.lnkDigestFrames = 1000 ∧ State.reset.dev.fld Off.calTrigger 7 0 = 20
/-! ## Where commands complete -/

/-- The commands of the engines complete, each on conditions on the state alone: FRAME_TICK (R286) of a running device with no
pause and no formation at hand; AUDIT_RUN and CONFIRMATION_FIRING (R125, R126) of a tile whose master copy lies in device
memory, none of whose words is bad; PROGRAM_ROUND_START (R94) of a program of the device; ATTENTION_FORWARD and
ATTENTION_BACKWARD (R182, R196) of an issued task whose checks pass and whose reads, copies and appends end well; DMA_COPY and
DMA_FILL (R220) of an issued task whose checks pass, on the lowest free engine; the five invalidations (R218) while none is in
progress; and the three time triggers of calibration (R169) on a tile of Fine grade. Each says what the command leaves. -/
def Obligations.EngineCommandsComplete : Prop :=
  ∀ s : State,
    let inDevice (x : LogTile) := s.dev.upsets = [] ∧ ∀ p ∈ x.pages, p < hostPage
    let attends (c : Instr) (back : Bool) := ∀ slot task x y z u d d1 d2 d3, s.dev.wideIdle = true →
      s.dev.issuedWhere 3 (fun k => decide (k % 16 = 3) == back) = some (slot, task) →
      s.dev.loadAtt slot task = (.ok x, d) → (∀ w ∈ d.att.tasks, ¬ (w.slot = slot ∧ w.task = task)) →
      let d0 := ({ d with att := { d.att with tasks := d.att.tasks ++ [x] } } : Dev).startTask slot task
      let r := d0.reader 5 0 slot task
      d0.attRows r x = (.ok y, d1) → d1.attArrays r y = (.ok z, d2) →
      d2.prepare r z (prepSteps z.body z.rows) = (.ok u, d3) → z.blocks ≠ [] → d3.stopped slot task = false →
      ∃ t w, exec c s = .next t ∧ t = { s with dev := t.dev } ∧ w ∈ t.dev.att.tasks ∧ w.slot = slot ∧ w.task = task ∧
        w.body = x.body ∧ w.rows = z.rows ∧ w.blocks = attBlocks x.body z.rows ∧ w.stage = 2 ∧
        w.prep = (prepSteps z.body z.rows).length ∧ w.saved = false
    let copies (c : Instr) (fill : Bool) := ∀ slot task e x d,
      s.dev.issuedWhere 5 (fun k => (k % 16 == 2) == fill) = some (slot, task) → s.dev.freeEngine = some e →
      Chk.thn (s.dev.readBody slot task 64) checkDma = (.ok x, d) →
      ∃ t y, exec c s = .next t ∧ t = { s with dev := t.dev } ∧ y ∈ t.dev.dma.tasks ∧ y.engine = e ∧ y.slot = slot ∧
        y.task = task ∧ y.saved = false ∧ y.src = x.src ∧ y.dst = x.dst ∧ y.rows = x.rows ∧ y.rowBytes = x.rowBytes
    let drops (c : Instr) (hit : Tlb → Bool) := s.running = true → s.dev.mmu.inv = false →
      ∃ t, exec c s = .next t ∧ t.dev.mmu = { s.dev.mmu with inv := true, tlb := s.dev.mmu.tlb.filter fun x => !hit x } ∧
        t = { s with dev := { s.dev with regs := t.dev.regs, mmu := t.dev.mmu } }
    let triggers (c : Instr) (p kind due : Nat) := (s.dev.phys p).logical ≠ none → (s.dev.phys p).grade = 2 →
      s.dev.background = true → ∃ t, exec c s = .next t ∧ t.dev.now = max s.dev.now due ∧
        (t.dev.phys p).passDue = max (s.dev.phys p).passDue kind ∧
        t = { s with dev := { s.dev with now := t.dev.now, pln := { s.dev.pln with phys := t.dev.pln.phys } } }
    (s.running = true → s.dev.grf.paused = false → s.dev.grf.pauseAt = none → s.dev.lnk.formAt = none →
      s.fw.confirming = none → ∃ t, exec .frameTick s = .next t ∧ t.dev.grf.tick = s.dev.grf.tick + 1 ∧
        t.dev.grf.tickTime = s.dev.grf.tickTime + 1000 * s.dev.fld Off.grfFrame 27 16 ∧ t = { s with dev := t.dev }) ∧
    (∀ e rest x, s.dev.cur.queue = e :: rest → s.dev.bitAt Off.wdeCtrl 0 = false → s.dev.auditMay = true →
      s.dev.log e.logical = some x → inDevice x → (x.auditGrid e).1 ≤ e.tilesDone + 1 →
      ∃ t, exec .auditRun s = .next t ∧ t.dev.cur.queue = rest ∧
        t.dev.reg64 Off.curAuditsLo = (s.dev.reg64 Off.curAuditsLo + 1) % 2 ^ 64 ∧ t = { s with dev := t.dev }) ∧
    (∀ f rest x p shot next more, s.dev.cur.firings = f :: rest → f.shots = shot :: next :: more →
      s.dev.log f.audit.logical = some x → x.phys = some p → s.dev.auditStale f.audit = false → inDevice x →
      ∃ t g, exec .confirmationFiring s = .next t ∧ t.dev.cur.firings = g :: rest ∧ g.audit = f.audit ∧
        g.shots = next :: more ∧ t = { s with dev := t.dev }) ∧
    (∀ die p l q x, s.dev.pln.prog = [p] → p.slot = 16 → p.todo = [(l, q)] → dieOf q = die → s.dev.log l = some x →
      inDevice x → s.dev.bitAt Off.plnCtrl 2 = false → (∀ r ∈ s.dev.pln.rounds, r.die ≠ die) →
      s.dev.progBlocked p l q = false → 1 ≤ s.dev.fld Off.plnProgLimit 22 16 →
      ∃ t, exec (.programRoundStart die) s = .next t ∧ t.dev.pln.rounds = s.dev.pln.rounds ++
          [({ die := die, tiles := [(l, q)], owner := [(p.slot, p.task)] } : Round)] ∧
        (t.dev.phys q).wear = min ((s.dev.phys q).wear + 1) 0xFFFFFFFF ∧ t = { s with dev := t.dev }) ∧
    attends .attentionForward false ∧ attends .attentionBackward true ∧
    copies .dmaCopy false ∧ copies .dmaFill true ∧
    drops .invalidateAll (fun _ => true) ∧ (∀ sp, drops (.invalidateSpace sp) fun x => decide (x.space = sp)) ∧
    (∀ sp base pages, 1 ≤ pages → drops (.invalidateRange sp base pages) fun x => decide (x.space = sp) &&
      decide (x.va < (base + pages) * 4096) && decide (base * 4096 < x.va + x.bytes)) ∧
    (∀ sp, drops (.invalidateKvSpace sp) fun x => decide (x.space = sp) && x.kv) ∧
    drops .invalidateKvAll (fun x => x.kv) ∧
    ∀ p, ((s.dev.phys p).decades < 4 →
        triggers (.passPendingDecade p) p 1 ((s.dev.phys p).programmedAt + 10 ^ ((s.dev.phys p).decades + 1) * 10 ^ 9)) ∧
      (s.dev.fld Off.calPeriod 15 0 ≠ 0 → triggers (.passPendingTrackPeriod p) p 1
        ((s.dev.phys p).passedAt + s.dev.fld Off.calPeriod 15 0 * 10 ^ 9)) ∧
      (s.dev.fld Off.calPeriod 31 16 ≠ 0 → triggers (.passPendingFinePeriod p) p 2
        ((s.dev.phys p).fineAt + s.dev.fld Off.calPeriod 31 16 * 3600 * 10 ^ 9))

/-- The commands of the interface, the fabric and management complete, each on conditions on the state and the operands alone:
COMMAND_TAKE (R253) of a NOP; MAP, GRAPH_LOAD and REQUEST_ADMIT (R257, R273, R301), accepted, whose tests pass; FLIT_RECEIVE
(R360, R362) of an IDLE flit, and of a DATA flit whose packet is not yet whole; PACKET_RECEIVE (R366) of the next TOKEN notice of
a request that is not tracked; the collective tasks (R382) whose checks pass; the feeds of a free check-value unit (R414); the
SPDM requests in the approved mode (R441, R442); and the management messages (R482). Each says what the command leaves. -/
def Obligations.InterfaceCommandsComplete : Prop :=
  ∀ s : State,
    let collects (c : Instr) (kind : Nat → Bool) := ∀ slot task b d, s.dev.issuedWhere 6 kind = some (slot, task) →
      Chk.thn (s.dev.readBody slot task 64) checkColl = (.ok b, d) → d.lnk.collWait = [] →
      ∃ t, exec c s = .next t ∧ t.dev.lnk.collIndex = put d.lnk.collIndex b.key (d.collOrder b + 1) ∧
        t = { s with dev := t.dev }
    let feeds (c : Instr) (n : Nat) (v : Word) (k : Nat) := s.running = true → n < s.dev.crc.length →
      (s.dev.crcUnit n).holder = none →
      ∃ t, exec c s = .next t ∧ (t.dev.crcUnit n).r = (le v.toNat k).foldl
          (crcByte (s.dev.crcWidth n) (s.dev.crcPoly n) (s.dev.bitAt (Off.crcCtrl + 0x40 * n) 8)) (s.dev.crcUnit n).r ∧
        t = { s with dev := { s.dev with crc := t.dev.crc } }
    let answers (c : Instr) (l : List Byte) := s.spdmServed = true →
      ∃ t, exec c s = .next t ∧ t.dev.env.answers = s.dev.env.answers ++ [l] ∧
        t = { s with dev := { s.dev with env := { s.dev.env with answers := t.dev.env.answers } } }
    let signs (c : Instr) (nonce body : List Byte) := s.spdmServed = true → s.sec.approved = true →
      ∃ t mine k, exec c s = .next t ∧ mine.length = 32 ∧
        t.dev.env.answers = s.dev.env.answers ++ [body ++ mine ++ Config.sign k (nonce ++ body ++ mine)] ∧
        t = { s with dev := { s.dev with fresh := t.dev.fresh, env := t.dev.env } }
    let manages (c : Instr) (l : List Byte) := ∃ t a, exec c s = .next t ∧
      t.dev.env.mctp = s.dev.env.mctp ++ [(a, 0 :: l)] ∧
      t = { s with dev := { s.dev with env := { s.dev.env with mctp := t.dev.env.mctp }, pwr := t.dev.pwr } }
    (∀ m h' d, s.running = true → s.dev.turn = some m → s.dev.slotRewritten m = false →
      let h := parseHeader m (s.dev.nextSlot m)
      let s1 : Dev := { s.dev with mbx := { s.dev.mbx with served := m } }.modBox m fun b =>
        { b with consumed := (b.consumed + 1) % 32, rewritten := b.rewritten.filter (· ≠ b.consumed % 16) }
      h.opcode = 0x01FF → s1.accept h = (some h', d) →
      exec .commandTake s = .next { s with dev := d.complete h' 0 0 }) ∧
    (∀ h h' d space memory pageSize write kv va bytes hostBase pages d1 d2,
      let page := pageOf pageSize
      let win := d.fld Off.attKvWindow 1 0 * 2 ^ 50
      s.dev.accept { h with opcode := 0x0011 } = (some h', d) → mapReserved memory hostBase = false →
      (memory = 3 → hostBase % page = 0) → va % page = 0 → 1 ≤ bytes → bytes % page = 0 → va + bytes ≤ 2 ^ 52 →
      bytes ≤ [0x6000000000, 0x1E0000000, 0x20000000].getD memory (2 ^ 64) → (d.root space).isSome = true →
      (∀ m ∈ d.mmu.maps, m.space = space → meets va bytes m.va m.bytes = false) → meets va bytes win (2 ^ 50) = false →
      (space = 0 → meets va bytes damsonRange.1 damsonRange.2 = false) →
      d.allocPages memory page hostBase (bytes / page) = some (pages, d1) →
      (pages.zipIdx.foldl (fun (x : Option Dev) p =>
        x.bind fun d => d.mapPage space (va + page * p.2) page (if memory = 3 then 1 else 0) p.1 write kv) (some d1)) = some d2 →
      let m : MapRec := { space := space, va := va, bytes := bytes, page := page, memory := memory, write := write
                          kv := kv, pages := pages }
      let d3 : Dev := { d2 with mmu := { d2.mmu with maps := d2.mmu.maps ++ [m] } }
      exec (.map h space memory pageSize write kv va bytes hostBase) s = .next { s with dev := d3.complete h' 0 0 }) ∧
    (∀ h h' d slot space desc l ls d1 d2, slot < d.grf.slots.length →
      s.dev.accept { h with opcode := 0x0100 } = (some h', d) → (d.slot slot).state = .empty → desc % 64 = 0 →
      d.readEach { cls := 8 } space [(desc, 64)] = (.ok [l], d1) → firstFail (descTests l space) = none →
      let n := leAt l 0 4
      d1.readEach { cls := 8 } space ((List.range n).map (fun i => (leAt l 0x10 8 + 256 * i, 64)) ++
        [(leAt l 0x18 8, 2 * leAt l 0xC 4)]) = (.ok ls, d2) →
      let hs := (ls.take n).map parseHdr
      let edges := leWords 2 (leAt l 0xC 4) (ls.getD n [])
      (∀ x ∈ ls.take n, hdrStatus x = none) → (∀ i < n, edgesOk hs edges i = true) →
      ∃ t, exec (.graphLoad h slot space desc) s = .next t ∧ (t.dev.slot slot).state = .loaded ∧
        (t.dev.slot slot).space = space ∧ (t.dev.slot slot).tasks = hs ∧ (t.dev.slot slot).edges = edges ∧
        (t.dev.slot slot).base = leAt l 0x10 8 ∧ (∀ k, k ≠ slot → t.dev.slot k = d2.slot k) ∧
        t = { s with dev := t.dev }) ∧
    (∀ h h' d b x, s.dev.accept { h with opcode := 0x0110 } = (some h', d) → d.template d.srv.current = some x →
      x.embeds = false → x.samples = false → b.pfx = 0xFFFFFFFF → b.adapter = 0xFFFFFFFF → d.bitAt Off.plnCtrl 0 = false →
      b.id ≠ 0xFFFFFFFF → d.request b.id = none → d.srv.requests.length < 4096 → d.srv.current ∉ d.srv.releasing →
      1 ≤ b.promptTokens → b.promptTokens + b.maxTokens ≤ 4194304 →
      ∃ t r, exec (.requestAdmit h b) s = .next t ∧ t.dev.srv.requests = d.srv.requests ++ [r] ∧ r.id = b.id ∧
        r.seqSlot = d.freeSeq ∧ r.edition = d.srv.current ∧ r.maxTokens = b.maxTokens ∧ r.committed = 0 ∧
        t = { s with dev := t.dev }) ∧
    (∀ p l w c0, p < 6 → p < s.dev.lnk.ports.length → l.length = 256 → (s.dev.port p).state = .up →
      (s.dev.port p).queue = [] → flitWord (l.take 11) 8 = some (w, c0) →
      let f := ofLe w
      let n := bits f 56 54
      let ch := bits f 59 57
      let ws := (List.range n).map fun i => flitWord ((l.drop (11 + 35 * i)).take 35) 32
      let words := ws.filterMap fun w => w.map (·.1)
      let heard := ({ s.dev.port p with dropping := false, goodAt := s.dev.now, rxSeq := bits f 23 8 } : Port).heard
        (bit f 51) (bits f 50 48) (bits f 47 40) (bits f 39 24)
      (∀ w ∈ ws, w.isSome = true) →
      (bits f 63 60 = 0 → bits f 23 8 = (s.dev.port p).rxSeq → ∃ t, exec (.flitReceive p l) s = .next t ∧
        t.dev.port p = heard ∧ (∀ q, q ≠ p → t.dev.port q = s.dev.port q) ∧
        t = { s with dev := { s.dev with regs := t.dev.regs, lnk := { s.dev.lnk with ports := t.dev.lnk.ports } } }) ∧
      (bits f 63 60 = 1 → bits f 23 8 = ((s.dev.port p).rxSeq + 1) % 2 ^ 16 → 1 ≤ ch → ch ≤ 4 → bit f 53 = false → 1 ≤ n →
        n < leAt (words.headD []) 6 1 + 1 → ∃ t, exec (.flitReceive p l) s = .next t ∧
          t.dev.port p = { heard with words := upd heard.words (ch - 1) fun _ => words
                                      owed := upd heard.owed (ch - 1) (· + 1) } ∧
          t.dev.reg64 (Off.lnkPortRxLo + 0x40 * p) = (s.dev.reg64 (Off.lnkPortRxLo + 0x40 * p) + 1) % 2 ^ 64 ∧
          (∀ q, q ≠ p → t.dev.port q = s.dev.port q) ∧
          t = { s with dev := { s.dev with regs := t.dev.regs, lnk := { s.dev.lnk with ports := t.dev.lnk.ports } } })) ∧
    (∀ p : Packet, s.dev.bring = .digital ∨ s.dev.bring = .coarse ∨ s.dev.bring = .ready → headerOk p = true →
      p.dst = s.dev.deviceId → p.channel = 4 → p.type = 2 → s.dev.request (leAt p.payload 0 4) = none →
      p.seq = pairVal s.dev.lnk.recvNext p.src 4 → s.dev.lnk.reorder = [] → pairVal s.dev.lnk.ackDue p.src 4 + 1 < 64 →
      exec (.packetReceive p) s = .next { s with dev := { s.dev with lnk := { s.dev.lnk with
        recvNext := setPair s.dev.lnk.recvNext p.src 4 ((p.seq + 1) % 2 ^ 32)
        ackDue := setPair s.dev.lnk.ackDue p.src 4 (pairVal s.dev.lnk.ackDue p.src 4 + 1) } } }) ∧
    collects .allReduce (fun b => !decide (2 ≤ b % 16 ∧ b % 16 ≤ 7)) ∧ collects .reduceScatter (fun b => decide (b % 16 = 2)) ∧
    collects .allGather (fun b => decide (b % 16 = 3)) ∧ collects .broadcast (fun b => decide (b % 16 = 4)) ∧
    collects .send (fun b => decide (b % 16 = 5)) ∧ collects .receive (fun b => decide (b % 16 = 6)) ∧
    collects .relay (fun b => decide (b % 16 = 7)) ∧
    (∀ n v, feeds (.crcFeedB n v) n v 1 ∧ feeds (.crcFeedH n v) n v 2 ∧ feeds (.crcFeedW n v) n v 4) ∧
    answers .getVersion [0x12] ∧ answers .getCapabilities ([16] ++ le 0x16 4) ∧
    answers .negotiateAlgorithms (le 0x40 4 ++ le 0x4 4 ++ le 0x8 4) ∧ answers .getDigests ([1] ++ chainDigest) ∧
    (∀ offset length,
      answers (.getCertificate offset length) ((Config.certificateChain.drop offset).take length)) ∧
    (∀ nonce, signs (.challenge nonce) nonce chainDigest) ∧
    (∀ nonce i, i ∈ s.measurements → signs (.getMeasurements nonce i) nonce (s.measurementBlock i)) ∧
    (∀ piece < 16, manages (.getTelemetry piece) (padTo (s.dev.pwr.telemetry.drop (256 * piece)) 256)) ∧
    (∀ i c, i < 64 → s.dev.evr.recent[i]? = some c → manages (.getCper i) (c.bytes s.flash.serial)) ∧
    (∀ w, w = 0 ∨ 300 ≤ w ∧ w ≤ 950 → manages (.setBoardLimit w) []) ∧
    manages .getShutdown ([if s.flash.latch then 1 else 0] ++ le (s.flash.shutdown.getD (0, 0)).1 1 ++
      le (unsigned (s.flash.shutdown.getD (0, 0)).2 16) 2) ∧
    manages .getIdentity (padTo orderingNumber 16 ++ padTo s.flash.serial 16 ++
      le (if s.dev.env.powered then s.dev.mbxStateWord else 0) 4)
end

