-- ==== Sys2Proof/Laws/State.lean ====
section
/-! SUPPORT. The named updates of the device, field by field: which fields each leaves alone. -/

namespace Sys2Proof.Machine

/-! ## Lifting -/

@[simp] theorem lift_eq (f : Dev → Dev) (s : State) : lift f s = .next { s with dev := f s.dev } := rfl

theorem hostWrite_running {s : State} (f : Dev → Dev) (h : s.running = true) :
    hostWrite f s = .next { s with dev := f s.dev } := by simp [hostWrite, h]

theorem hostWrite_stopped {s : State} (f : Dev → Dev) (h : s.running = false) : hostWrite f s = .next s := by
  simp [hostWrite, h]

/-! ## Dev.setReg -/

@[simp] theorem Dev.setReg_now (d : Dev) (o v : Nat) : (d.setReg o v).now = d.now := rfl
@[simp] theorem Dev.setReg_fresh (d : Dev) (o v : Nat) : (d.setReg o v).fresh = d.fresh := rfl
@[simp] theorem Dev.setReg_bring (d : Dev) (o v : Nat) : (d.setReg o v).bring = d.bring := rfl
@[simp] theorem Dev.setReg_holdReason (d : Dev) (o v : Nat) : (d.setReg o v).holdReason = d.holdReason := rfl
@[simp] theorem Dev.setReg_since (d : Dev) (o v : Nat) : (d.setReg o v).since = d.since := rfl
@[simp] theorem Dev.setReg_shadow (d : Dev) (o v : Nat) : (d.setReg o v).shadow = d.shadow := rfl
@[simp] theorem Dev.setReg_late (d : Dev) (o v : Nat) : (d.setReg o v).late = d.late := rfl
@[simp] theorem Dev.setReg_latched (d : Dev) (o v : Nat) : (d.setReg o v).latched = d.latched := rfl
@[simp] theorem Dev.setReg_mem (d : Dev) (o v : Nat) : (d.setReg o v).mem = d.mem := rfl
@[simp] theorem Dev.setReg_host (d : Dev) (o v : Nat) : (d.setReg o v).host = d.host := rfl
@[simp] theorem Dev.setReg_upsets (d : Dev) (o v : Nat) : (d.setReg o v).upsets = d.upsets := rfl
@[simp] theorem Dev.setReg_hub (d : Dev) (o v : Nat) : (d.setReg o v).hub = d.hub := rfl
@[simp] theorem Dev.setReg_pln (d : Dev) (o v : Nat) : (d.setReg o v).pln = d.pln := rfl
@[simp] theorem Dev.setReg_cur (d : Dev) (o v : Nat) : (d.setReg o v).cur = d.cur := rfl
@[simp] theorem Dev.setReg_wde (d : Dev) (o v : Nat) : (d.setReg o v).wde = d.wde := rfl
@[simp] theorem Dev.setReg_cal (d : Dev) (o v : Nat) : (d.setReg o v).cal = d.cal := rfl
@[simp] theorem Dev.setReg_att (d : Dev) (o v : Nat) : (d.setReg o v).att = d.att := rfl
@[simp] theorem Dev.setReg_mmu (d : Dev) (o v : Nat) : (d.setReg o v).mmu = d.mmu := rfl
@[simp] theorem Dev.setReg_dma (d : Dev) (o v : Nat) : (d.setReg o v).dma = d.dma := rfl
@[simp] theorem Dev.setReg_arb (d : Dev) (o v : Nat) : (d.setReg o v).arb = d.arb := rfl
@[simp] theorem Dev.setReg_mbx (d : Dev) (o v : Nat) : (d.setReg o v).mbx = d.mbx := rfl
@[simp] theorem Dev.setReg_grf (d : Dev) (o v : Nat) : (d.setReg o v).grf = d.grf := rfl
@[simp] theorem Dev.setReg_srv (d : Dev) (o v : Nat) : (d.setReg o v).srv = d.srv := rfl
@[simp] theorem Dev.setReg_lnk (d : Dev) (o v : Nat) : (d.setReg o v).lnk = d.lnk := rfl
@[simp] theorem Dev.setReg_evr (d : Dev) (o v : Nat) : (d.setReg o v).evr = d.evr := rfl
@[simp] theorem Dev.setReg_crc (d : Dev) (o v : Nat) : (d.setReg o v).crc = d.crc := rfl
@[simp] theorem Dev.setReg_hka (d : Dev) (o v : Nat) : (d.setReg o v).hka = d.hka := rfl
@[simp] theorem Dev.setReg_thm (d : Dev) (o v : Nat) : (d.setReg o v).thm = d.thm := rfl
@[simp] theorem Dev.setReg_pwr (d : Dev) (o v : Nat) : (d.setReg o v).pwr = d.pwr := rfl
@[simp] theorem Dev.setReg_env (d : Dev) (o v : Nat) : (d.setReg o v).env = d.env := rfl

/-! ## Dev.setFld -/

@[simp] theorem Dev.setFld_now (d : Dev) (o hi lo v : Nat) : (d.setFld o hi lo v).now = d.now := rfl
@[simp] theorem Dev.setFld_fresh (d : Dev) (o hi lo v : Nat) : (d.setFld o hi lo v).fresh = d.fresh := rfl
@[simp] theorem Dev.setFld_bring (d : Dev) (o hi lo v : Nat) : (d.setFld o hi lo v).bring = d.bring := rfl
@[simp] theorem Dev.setFld_holdReason (d : Dev) (o hi lo v : Nat) : (d.setFld o hi lo v).holdReason = d.holdReason := rfl
@[simp] theorem Dev.setFld_since (d : Dev) (o hi lo v : Nat) : (d.setFld o hi lo v).since = d.since := rfl
@[simp] theorem Dev.setFld_shadow (d : Dev) (o hi lo v : Nat) : (d.setFld o hi lo v).shadow = d.shadow := rfl
@[simp] theorem Dev.setFld_late (d : Dev) (o hi lo v : Nat) : (d.setFld o hi lo v).late = d.late := rfl
@[simp] theorem Dev.setFld_latched (d : Dev) (o hi lo v : Nat) : (d.setFld o hi lo v).latched = d.latched := rfl
@[simp] theorem Dev.setFld_mem (d : Dev) (o hi lo v : Nat) : (d.setFld o hi lo v).mem = d.mem := rfl
@[simp] theorem Dev.setFld_host (d : Dev) (o hi lo v : Nat) : (d.setFld o hi lo v).host = d.host := rfl
@[simp] theorem Dev.setFld_upsets (d : Dev) (o hi lo v : Nat) : (d.setFld o hi lo v).upsets = d.upsets := rfl
@[simp] theorem Dev.setFld_hub (d : Dev) (o hi lo v : Nat) : (d.setFld o hi lo v).hub = d.hub := rfl
@[simp] theorem Dev.setFld_pln (d : Dev) (o hi lo v : Nat) : (d.setFld o hi lo v).pln = d.pln := rfl
@[simp] theorem Dev.setFld_cur (d : Dev) (o hi lo v : Nat) : (d.setFld o hi lo v).cur = d.cur := rfl
@[simp] theorem Dev.setFld_wde (d : Dev) (o hi lo v : Nat) : (d.setFld o hi lo v).wde = d.wde := rfl
@[simp] theorem Dev.setFld_cal (d : Dev) (o hi lo v : Nat) : (d.setFld o hi lo v).cal = d.cal := rfl
@[simp] theorem Dev.setFld_att (d : Dev) (o hi lo v : Nat) : (d.setFld o hi lo v).att = d.att := rfl
@[simp] theorem Dev.setFld_mmu (d : Dev) (o hi lo v : Nat) : (d.setFld o hi lo v).mmu = d.mmu := rfl
@[simp] theorem Dev.setFld_dma (d : Dev) (o hi lo v : Nat) : (d.setFld o hi lo v).dma = d.dma := rfl
@[simp] theorem Dev.setFld_arb (d : Dev) (o hi lo v : Nat) : (d.setFld o hi lo v).arb = d.arb := rfl
@[simp] theorem Dev.setFld_mbx (d : Dev) (o hi lo v : Nat) : (d.setFld o hi lo v).mbx = d.mbx := rfl
@[simp] theorem Dev.setFld_grf (d : Dev) (o hi lo v : Nat) : (d.setFld o hi lo v).grf = d.grf := rfl
@[simp] theorem Dev.setFld_srv (d : Dev) (o hi lo v : Nat) : (d.setFld o hi lo v).srv = d.srv := rfl
@[simp] theorem Dev.setFld_lnk (d : Dev) (o hi lo v : Nat) : (d.setFld o hi lo v).lnk = d.lnk := rfl
@[simp] theorem Dev.setFld_evr (d : Dev) (o hi lo v : Nat) : (d.setFld o hi lo v).evr = d.evr := rfl
@[simp] theorem Dev.setFld_crc (d : Dev) (o hi lo v : Nat) : (d.setFld o hi lo v).crc = d.crc := rfl
@[simp] theorem Dev.setFld_hka (d : Dev) (o hi lo v : Nat) : (d.setFld o hi lo v).hka = d.hka := rfl
@[simp] theorem Dev.setFld_thm (d : Dev) (o hi lo v : Nat) : (d.setFld o hi lo v).thm = d.thm := rfl
@[simp] theorem Dev.setFld_pwr (d : Dev) (o hi lo v : Nat) : (d.setFld o hi lo v).pwr = d.pwr := rfl
@[simp] theorem Dev.setFld_env (d : Dev) (o hi lo v : Nat) : (d.setFld o hi lo v).env = d.env := rfl

/-! ## Dev.setBit -/

@[simp] theorem Dev.setBit_now (d : Dev) (o b : Nat) : (d.setBit o b).now = d.now := rfl
@[simp] theorem Dev.setBit_fresh (d : Dev) (o b : Nat) : (d.setBit o b).fresh = d.fresh := rfl
@[simp] theorem Dev.setBit_bring (d : Dev) (o b : Nat) : (d.setBit o b).bring = d.bring := rfl
@[simp] theorem Dev.setBit_holdReason (d : Dev) (o b : Nat) : (d.setBit o b).holdReason = d.holdReason := rfl
@[simp] theorem Dev.setBit_since (d : Dev) (o b : Nat) : (d.setBit o b).since = d.since := rfl
@[simp] theorem Dev.setBit_shadow (d : Dev) (o b : Nat) : (d.setBit o b).shadow = d.shadow := rfl
@[simp] theorem Dev.setBit_late (d : Dev) (o b : Nat) : (d.setBit o b).late = d.late := rfl
@[simp] theorem Dev.setBit_latched (d : Dev) (o b : Nat) : (d.setBit o b).latched = d.latched := rfl
@[simp] theorem Dev.setBit_mem (d : Dev) (o b : Nat) : (d.setBit o b).mem = d.mem := rfl
@[simp] theorem Dev.setBit_host (d : Dev) (o b : Nat) : (d.setBit o b).host = d.host := rfl
@[simp] theorem Dev.setBit_upsets (d : Dev) (o b : Nat) : (d.setBit o b).upsets = d.upsets := rfl
@[simp] theorem Dev.setBit_hub (d : Dev) (o b : Nat) : (d.setBit o b).hub = d.hub := rfl
@[simp] theorem Dev.setBit_pln (d : Dev) (o b : Nat) : (d.setBit o b).pln = d.pln := rfl
@[simp] theorem Dev.setBit_cur (d : Dev) (o b : Nat) : (d.setBit o b).cur = d.cur := rfl
@[simp] theorem Dev.setBit_wde (d : Dev) (o b : Nat) : (d.setBit o b).wde = d.wde := rfl
@[simp] theorem Dev.setBit_cal (d : Dev) (o b : Nat) : (d.setBit o b).cal = d.cal := rfl
@[simp] theorem Dev.setBit_att (d : Dev) (o b : Nat) : (d.setBit o b).att = d.att := rfl
@[simp] theorem Dev.setBit_mmu (d : Dev) (o b : Nat) : (d.setBit o b).mmu = d.mmu := rfl
@[simp] theorem Dev.setBit_dma (d : Dev) (o b : Nat) : (d.setBit o b).dma = d.dma := rfl
@[simp] theorem Dev.setBit_arb (d : Dev) (o b : Nat) : (d.setBit o b).arb = d.arb := rfl
@[simp] theorem Dev.setBit_mbx (d : Dev) (o b : Nat) : (d.setBit o b).mbx = d.mbx := rfl
@[simp] theorem Dev.setBit_grf (d : Dev) (o b : Nat) : (d.setBit o b).grf = d.grf := rfl
@[simp] theorem Dev.setBit_srv (d : Dev) (o b : Nat) : (d.setBit o b).srv = d.srv := rfl
@[simp] theorem Dev.setBit_lnk (d : Dev) (o b : Nat) : (d.setBit o b).lnk = d.lnk := rfl
@[simp] theorem Dev.setBit_evr (d : Dev) (o b : Nat) : (d.setBit o b).evr = d.evr := rfl
@[simp] theorem Dev.setBit_crc (d : Dev) (o b : Nat) : (d.setBit o b).crc = d.crc := rfl
@[simp] theorem Dev.setBit_hka (d : Dev) (o b : Nat) : (d.setBit o b).hka = d.hka := rfl
@[simp] theorem Dev.setBit_thm (d : Dev) (o b : Nat) : (d.setBit o b).thm = d.thm := rfl
@[simp] theorem Dev.setBit_pwr (d : Dev) (o b : Nat) : (d.setBit o b).pwr = d.pwr := rfl
@[simp] theorem Dev.setBit_env (d : Dev) (o b : Nat) : (d.setBit o b).env = d.env := rfl

/-! ## Dev.bump -/

@[simp] theorem Dev.bump_now (d : Dev) (o n : Nat) : (d.bump o n).now = d.now := rfl
@[simp] theorem Dev.bump_fresh (d : Dev) (o n : Nat) : (d.bump o n).fresh = d.fresh := rfl
@[simp] theorem Dev.bump_bring (d : Dev) (o n : Nat) : (d.bump o n).bring = d.bring := rfl
@[simp] theorem Dev.bump_holdReason (d : Dev) (o n : Nat) : (d.bump o n).holdReason = d.holdReason := rfl
@[simp] theorem Dev.bump_since (d : Dev) (o n : Nat) : (d.bump o n).since = d.since := rfl
@[simp] theorem Dev.bump_shadow (d : Dev) (o n : Nat) : (d.bump o n).shadow = d.shadow := rfl
@[simp] theorem Dev.bump_late (d : Dev) (o n : Nat) : (d.bump o n).late = d.late := rfl
@[simp] theorem Dev.bump_latched (d : Dev) (o n : Nat) : (d.bump o n).latched = d.latched := rfl
@[simp] theorem Dev.bump_mem (d : Dev) (o n : Nat) : (d.bump o n).mem = d.mem := rfl
@[simp] theorem Dev.bump_host (d : Dev) (o n : Nat) : (d.bump o n).host = d.host := rfl
@[simp] theorem Dev.bump_upsets (d : Dev) (o n : Nat) : (d.bump o n).upsets = d.upsets := rfl
@[simp] theorem Dev.bump_hub (d : Dev) (o n : Nat) : (d.bump o n).hub = d.hub := rfl
@[simp] theorem Dev.bump_pln (d : Dev) (o n : Nat) : (d.bump o n).pln = d.pln := rfl
@[simp] theorem Dev.bump_cur (d : Dev) (o n : Nat) : (d.bump o n).cur = d.cur := rfl
@[simp] theorem Dev.bump_wde (d : Dev) (o n : Nat) : (d.bump o n).wde = d.wde := rfl
@[simp] theorem Dev.bump_cal (d : Dev) (o n : Nat) : (d.bump o n).cal = d.cal := rfl
@[simp] theorem Dev.bump_att (d : Dev) (o n : Nat) : (d.bump o n).att = d.att := rfl
@[simp] theorem Dev.bump_mmu (d : Dev) (o n : Nat) : (d.bump o n).mmu = d.mmu := rfl
@[simp] theorem Dev.bump_dma (d : Dev) (o n : Nat) : (d.bump o n).dma = d.dma := rfl
@[simp] theorem Dev.bump_arb (d : Dev) (o n : Nat) : (d.bump o n).arb = d.arb := rfl
@[simp] theorem Dev.bump_mbx (d : Dev) (o n : Nat) : (d.bump o n).mbx = d.mbx := rfl
@[simp] theorem Dev.bump_grf (d : Dev) (o n : Nat) : (d.bump o n).grf = d.grf := rfl
@[simp] theorem Dev.bump_srv (d : Dev) (o n : Nat) : (d.bump o n).srv = d.srv := rfl
@[simp] theorem Dev.bump_lnk (d : Dev) (o n : Nat) : (d.bump o n).lnk = d.lnk := rfl
@[simp] theorem Dev.bump_evr (d : Dev) (o n : Nat) : (d.bump o n).evr = d.evr := rfl
@[simp] theorem Dev.bump_crc (d : Dev) (o n : Nat) : (d.bump o n).crc = d.crc := rfl
@[simp] theorem Dev.bump_hka (d : Dev) (o n : Nat) : (d.bump o n).hka = d.hka := rfl
@[simp] theorem Dev.bump_thm (d : Dev) (o n : Nat) : (d.bump o n).thm = d.thm := rfl
@[simp] theorem Dev.bump_pwr (d : Dev) (o n : Nat) : (d.bump o n).pwr = d.pwr := rfl
@[simp] theorem Dev.bump_env (d : Dev) (o n : Nat) : (d.bump o n).env = d.env := rfl

/-! ## Dev.bumpWrap -/

@[simp] theorem Dev.bumpWrap_now (d : Dev) (o n : Nat) : (d.bumpWrap o n).now = d.now := rfl
@[simp] theorem Dev.bumpWrap_fresh (d : Dev) (o n : Nat) : (d.bumpWrap o n).fresh = d.fresh := rfl
@[simp] theorem Dev.bumpWrap_bring (d : Dev) (o n : Nat) : (d.bumpWrap o n).bring = d.bring := rfl
@[simp] theorem Dev.bumpWrap_holdReason (d : Dev) (o n : Nat) : (d.bumpWrap o n).holdReason = d.holdReason := rfl
@[simp] theorem Dev.bumpWrap_since (d : Dev) (o n : Nat) : (d.bumpWrap o n).since = d.since := rfl
@[simp] theorem Dev.bumpWrap_shadow (d : Dev) (o n : Nat) : (d.bumpWrap o n).shadow = d.shadow := rfl
@[simp] theorem Dev.bumpWrap_late (d : Dev) (o n : Nat) : (d.bumpWrap o n).late = d.late := rfl
@[simp] theorem Dev.bumpWrap_latched (d : Dev) (o n : Nat) : (d.bumpWrap o n).latched = d.latched := rfl
@[simp] theorem Dev.bumpWrap_mem (d : Dev) (o n : Nat) : (d.bumpWrap o n).mem = d.mem := rfl
@[simp] theorem Dev.bumpWrap_host (d : Dev) (o n : Nat) : (d.bumpWrap o n).host = d.host := rfl
@[simp] theorem Dev.bumpWrap_upsets (d : Dev) (o n : Nat) : (d.bumpWrap o n).upsets = d.upsets := rfl
@[simp] theorem Dev.bumpWrap_hub (d : Dev) (o n : Nat) : (d.bumpWrap o n).hub = d.hub := rfl
@[simp] theorem Dev.bumpWrap_pln (d : Dev) (o n : Nat) : (d.bumpWrap o n).pln = d.pln := rfl
@[simp] theorem Dev.bumpWrap_cur (d : Dev) (o n : Nat) : (d.bumpWrap o n).cur = d.cur := rfl
@[simp] theorem Dev.bumpWrap_wde (d : Dev) (o n : Nat) : (d.bumpWrap o n).wde = d.wde := rfl
@[simp] theorem Dev.bumpWrap_cal (d : Dev) (o n : Nat) : (d.bumpWrap o n).cal = d.cal := rfl
@[simp] theorem Dev.bumpWrap_att (d : Dev) (o n : Nat) : (d.bumpWrap o n).att = d.att := rfl
@[simp] theorem Dev.bumpWrap_mmu (d : Dev) (o n : Nat) : (d.bumpWrap o n).mmu = d.mmu := rfl
@[simp] theorem Dev.bumpWrap_dma (d : Dev) (o n : Nat) : (d.bumpWrap o n).dma = d.dma := rfl
@[simp] theorem Dev.bumpWrap_arb (d : Dev) (o n : Nat) : (d.bumpWrap o n).arb = d.arb := rfl
@[simp] theorem Dev.bumpWrap_mbx (d : Dev) (o n : Nat) : (d.bumpWrap o n).mbx = d.mbx := rfl
@[simp] theorem Dev.bumpWrap_grf (d : Dev) (o n : Nat) : (d.bumpWrap o n).grf = d.grf := rfl
@[simp] theorem Dev.bumpWrap_srv (d : Dev) (o n : Nat) : (d.bumpWrap o n).srv = d.srv := rfl
@[simp] theorem Dev.bumpWrap_lnk (d : Dev) (o n : Nat) : (d.bumpWrap o n).lnk = d.lnk := rfl
@[simp] theorem Dev.bumpWrap_evr (d : Dev) (o n : Nat) : (d.bumpWrap o n).evr = d.evr := rfl
@[simp] theorem Dev.bumpWrap_crc (d : Dev) (o n : Nat) : (d.bumpWrap o n).crc = d.crc := rfl
@[simp] theorem Dev.bumpWrap_hka (d : Dev) (o n : Nat) : (d.bumpWrap o n).hka = d.hka := rfl
@[simp] theorem Dev.bumpWrap_thm (d : Dev) (o n : Nat) : (d.bumpWrap o n).thm = d.thm := rfl
@[simp] theorem Dev.bumpWrap_pwr (d : Dev) (o n : Nat) : (d.bumpWrap o n).pwr = d.pwr := rfl
@[simp] theorem Dev.bumpWrap_env (d : Dev) (o n : Nat) : (d.bumpWrap o n).env = d.env := rfl

/-! ## Dev.bump64 -/

@[simp] theorem Dev.bump64_now (d : Dev) (o n : Nat) : (d.bump64 o n).now = d.now := rfl
@[simp] theorem Dev.bump64_fresh (d : Dev) (o n : Nat) : (d.bump64 o n).fresh = d.fresh := rfl
@[simp] theorem Dev.bump64_bring (d : Dev) (o n : Nat) : (d.bump64 o n).bring = d.bring := rfl
@[simp] theorem Dev.bump64_holdReason (d : Dev) (o n : Nat) : (d.bump64 o n).holdReason = d.holdReason := rfl
@[simp] theorem Dev.bump64_since (d : Dev) (o n : Nat) : (d.bump64 o n).since = d.since := rfl
@[simp] theorem Dev.bump64_shadow (d : Dev) (o n : Nat) : (d.bump64 o n).shadow = d.shadow := rfl
@[simp] theorem Dev.bump64_late (d : Dev) (o n : Nat) : (d.bump64 o n).late = d.late := rfl
@[simp] theorem Dev.bump64_latched (d : Dev) (o n : Nat) : (d.bump64 o n).latched = d.latched := rfl
@[simp] theorem Dev.bump64_mem (d : Dev) (o n : Nat) : (d.bump64 o n).mem = d.mem := rfl
@[simp] theorem Dev.bump64_host (d : Dev) (o n : Nat) : (d.bump64 o n).host = d.host := rfl
@[simp] theorem Dev.bump64_upsets (d : Dev) (o n : Nat) : (d.bump64 o n).upsets = d.upsets := rfl
@[simp] theorem Dev.bump64_hub (d : Dev) (o n : Nat) : (d.bump64 o n).hub = d.hub := rfl
@[simp] theorem Dev.bump64_pln (d : Dev) (o n : Nat) : (d.bump64 o n).pln = d.pln := rfl
@[simp] theorem Dev.bump64_cur (d : Dev) (o n : Nat) : (d.bump64 o n).cur = d.cur := rfl
@[simp] theorem Dev.bump64_wde (d : Dev) (o n : Nat) : (d.bump64 o n).wde = d.wde := rfl
@[simp] theorem Dev.bump64_cal (d : Dev) (o n : Nat) : (d.bump64 o n).cal = d.cal := rfl
@[simp] theorem Dev.bump64_att (d : Dev) (o n : Nat) : (d.bump64 o n).att = d.att := rfl
@[simp] theorem Dev.bump64_mmu (d : Dev) (o n : Nat) : (d.bump64 o n).mmu = d.mmu := rfl
@[simp] theorem Dev.bump64_dma (d : Dev) (o n : Nat) : (d.bump64 o n).dma = d.dma := rfl
@[simp] theorem Dev.bump64_arb (d : Dev) (o n : Nat) : (d.bump64 o n).arb = d.arb := rfl
@[simp] theorem Dev.bump64_mbx (d : Dev) (o n : Nat) : (d.bump64 o n).mbx = d.mbx := rfl
@[simp] theorem Dev.bump64_grf (d : Dev) (o n : Nat) : (d.bump64 o n).grf = d.grf := rfl
@[simp] theorem Dev.bump64_srv (d : Dev) (o n : Nat) : (d.bump64 o n).srv = d.srv := rfl
@[simp] theorem Dev.bump64_lnk (d : Dev) (o n : Nat) : (d.bump64 o n).lnk = d.lnk := rfl
@[simp] theorem Dev.bump64_evr (d : Dev) (o n : Nat) : (d.bump64 o n).evr = d.evr := rfl
@[simp] theorem Dev.bump64_crc (d : Dev) (o n : Nat) : (d.bump64 o n).crc = d.crc := rfl
@[simp] theorem Dev.bump64_hka (d : Dev) (o n : Nat) : (d.bump64 o n).hka = d.hka := rfl
@[simp] theorem Dev.bump64_thm (d : Dev) (o n : Nat) : (d.bump64 o n).thm = d.thm := rfl
@[simp] theorem Dev.bump64_pwr (d : Dev) (o n : Nat) : (d.bump64 o n).pwr = d.pwr := rfl
@[simp] theorem Dev.bump64_env (d : Dev) (o n : Nat) : (d.bump64 o n).env = d.env := rfl

/-! ## Dev.setReg64 -/

@[simp] theorem Dev.setReg64_now (d : Dev) (o v : Nat) : (d.setReg64 o v).now = d.now := rfl
@[simp] theorem Dev.setReg64_fresh (d : Dev) (o v : Nat) : (d.setReg64 o v).fresh = d.fresh := rfl
@[simp] theorem Dev.setReg64_bring (d : Dev) (o v : Nat) : (d.setReg64 o v).bring = d.bring := rfl
@[simp] theorem Dev.setReg64_holdReason (d : Dev) (o v : Nat) : (d.setReg64 o v).holdReason = d.holdReason := rfl
@[simp] theorem Dev.setReg64_since (d : Dev) (o v : Nat) : (d.setReg64 o v).since = d.since := rfl
@[simp] theorem Dev.setReg64_shadow (d : Dev) (o v : Nat) : (d.setReg64 o v).shadow = d.shadow := rfl
@[simp] theorem Dev.setReg64_late (d : Dev) (o v : Nat) : (d.setReg64 o v).late = d.late := rfl
@[simp] theorem Dev.setReg64_latched (d : Dev) (o v : Nat) : (d.setReg64 o v).latched = d.latched := rfl
@[simp] theorem Dev.setReg64_mem (d : Dev) (o v : Nat) : (d.setReg64 o v).mem = d.mem := rfl
@[simp] theorem Dev.setReg64_host (d : Dev) (o v : Nat) : (d.setReg64 o v).host = d.host := rfl
@[simp] theorem Dev.setReg64_upsets (d : Dev) (o v : Nat) : (d.setReg64 o v).upsets = d.upsets := rfl
@[simp] theorem Dev.setReg64_hub (d : Dev) (o v : Nat) : (d.setReg64 o v).hub = d.hub := rfl
@[simp] theorem Dev.setReg64_pln (d : Dev) (o v : Nat) : (d.setReg64 o v).pln = d.pln := rfl
@[simp] theorem Dev.setReg64_cur (d : Dev) (o v : Nat) : (d.setReg64 o v).cur = d.cur := rfl
@[simp] theorem Dev.setReg64_wde (d : Dev) (o v : Nat) : (d.setReg64 o v).wde = d.wde := rfl
@[simp] theorem Dev.setReg64_cal (d : Dev) (o v : Nat) : (d.setReg64 o v).cal = d.cal := rfl
@[simp] theorem Dev.setReg64_att (d : Dev) (o v : Nat) : (d.setReg64 o v).att = d.att := rfl
@[simp] theorem Dev.setReg64_mmu (d : Dev) (o v : Nat) : (d.setReg64 o v).mmu = d.mmu := rfl
@[simp] theorem Dev.setReg64_dma (d : Dev) (o v : Nat) : (d.setReg64 o v).dma = d.dma := rfl
@[simp] theorem Dev.setReg64_arb (d : Dev) (o v : Nat) : (d.setReg64 o v).arb = d.arb := rfl
@[simp] theorem Dev.setReg64_mbx (d : Dev) (o v : Nat) : (d.setReg64 o v).mbx = d.mbx := rfl
@[simp] theorem Dev.setReg64_grf (d : Dev) (o v : Nat) : (d.setReg64 o v).grf = d.grf := rfl
@[simp] theorem Dev.setReg64_srv (d : Dev) (o v : Nat) : (d.setReg64 o v).srv = d.srv := rfl
@[simp] theorem Dev.setReg64_lnk (d : Dev) (o v : Nat) : (d.setReg64 o v).lnk = d.lnk := rfl
@[simp] theorem Dev.setReg64_evr (d : Dev) (o v : Nat) : (d.setReg64 o v).evr = d.evr := rfl
@[simp] theorem Dev.setReg64_crc (d : Dev) (o v : Nat) : (d.setReg64 o v).crc = d.crc := rfl
@[simp] theorem Dev.setReg64_hka (d : Dev) (o v : Nat) : (d.setReg64 o v).hka = d.hka := rfl
@[simp] theorem Dev.setReg64_thm (d : Dev) (o v : Nat) : (d.setReg64 o v).thm = d.thm := rfl
@[simp] theorem Dev.setReg64_pwr (d : Dev) (o v : Nat) : (d.setReg64 o v).pwr = d.pwr := rfl
@[simp] theorem Dev.setReg64_env (d : Dev) (o v : Nat) : (d.setReg64 o v).env = d.env := rfl

/-! ## Dev.draw -/

@[simp] theorem Dev.draw_now (d : Dev) : (d.draw.2).now = d.now := rfl
@[simp] theorem Dev.draw_bring (d : Dev) : (d.draw.2).bring = d.bring := rfl
@[simp] theorem Dev.draw_holdReason (d : Dev) : (d.draw.2).holdReason = d.holdReason := rfl
@[simp] theorem Dev.draw_since (d : Dev) : (d.draw.2).since = d.since := rfl
@[simp] theorem Dev.draw_regs (d : Dev) : (d.draw.2).regs = d.regs := rfl
@[simp] theorem Dev.draw_shadow (d : Dev) : (d.draw.2).shadow = d.shadow := rfl
@[simp] theorem Dev.draw_late (d : Dev) : (d.draw.2).late = d.late := rfl
@[simp] theorem Dev.draw_latched (d : Dev) : (d.draw.2).latched = d.latched := rfl
@[simp] theorem Dev.draw_mem (d : Dev) : (d.draw.2).mem = d.mem := rfl
@[simp] theorem Dev.draw_host (d : Dev) : (d.draw.2).host = d.host := rfl
@[simp] theorem Dev.draw_upsets (d : Dev) : (d.draw.2).upsets = d.upsets := rfl
@[simp] theorem Dev.draw_hub (d : Dev) : (d.draw.2).hub = d.hub := rfl
@[simp] theorem Dev.draw_pln (d : Dev) : (d.draw.2).pln = d.pln := rfl
@[simp] theorem Dev.draw_cur (d : Dev) : (d.draw.2).cur = d.cur := rfl
@[simp] theorem Dev.draw_wde (d : Dev) : (d.draw.2).wde = d.wde := rfl
@[simp] theorem Dev.draw_cal (d : Dev) : (d.draw.2).cal = d.cal := rfl
@[simp] theorem Dev.draw_att (d : Dev) : (d.draw.2).att = d.att := rfl
@[simp] theorem Dev.draw_mmu (d : Dev) : (d.draw.2).mmu = d.mmu := rfl
@[simp] theorem Dev.draw_dma (d : Dev) : (d.draw.2).dma = d.dma := rfl
@[simp] theorem Dev.draw_arb (d : Dev) : (d.draw.2).arb = d.arb := rfl
@[simp] theorem Dev.draw_mbx (d : Dev) : (d.draw.2).mbx = d.mbx := rfl
@[simp] theorem Dev.draw_grf (d : Dev) : (d.draw.2).grf = d.grf := rfl
@[simp] theorem Dev.draw_srv (d : Dev) : (d.draw.2).srv = d.srv := rfl
@[simp] theorem Dev.draw_lnk (d : Dev) : (d.draw.2).lnk = d.lnk := rfl
@[simp] theorem Dev.draw_evr (d : Dev) : (d.draw.2).evr = d.evr := rfl
@[simp] theorem Dev.draw_crc (d : Dev) : (d.draw.2).crc = d.crc := rfl
@[simp] theorem Dev.draw_hka (d : Dev) : (d.draw.2).hka = d.hka := rfl
@[simp] theorem Dev.draw_thm (d : Dev) : (d.draw.2).thm = d.thm := rfl
@[simp] theorem Dev.draw_pwr (d : Dev) : (d.draw.2).pwr = d.pwr := rfl
@[simp] theorem Dev.draw_env (d : Dev) : (d.draw.2).env = d.env := rfl

/-! ## Dev.drawNat -/

@[simp] theorem Dev.drawNat_now (d : Dev) : (d.drawNat.2).now = d.now := rfl
@[simp] theorem Dev.drawNat_bring (d : Dev) : (d.drawNat.2).bring = d.bring := rfl
@[simp] theorem Dev.drawNat_holdReason (d : Dev) : (d.drawNat.2).holdReason = d.holdReason := rfl
@[simp] theorem Dev.drawNat_since (d : Dev) : (d.drawNat.2).since = d.since := rfl
@[simp] theorem Dev.drawNat_regs (d : Dev) : (d.drawNat.2).regs = d.regs := rfl
@[simp] theorem Dev.drawNat_shadow (d : Dev) : (d.drawNat.2).shadow = d.shadow := rfl
@[simp] theorem Dev.drawNat_late (d : Dev) : (d.drawNat.2).late = d.late := rfl
@[simp] theorem Dev.drawNat_latched (d : Dev) : (d.drawNat.2).latched = d.latched := rfl
@[simp] theorem Dev.drawNat_mem (d : Dev) : (d.drawNat.2).mem = d.mem := rfl
@[simp] theorem Dev.drawNat_host (d : Dev) : (d.drawNat.2).host = d.host := rfl
@[simp] theorem Dev.drawNat_upsets (d : Dev) : (d.drawNat.2).upsets = d.upsets := rfl
@[simp] theorem Dev.drawNat_hub (d : Dev) : (d.drawNat.2).hub = d.hub := rfl
@[simp] theorem Dev.drawNat_pln (d : Dev) : (d.drawNat.2).pln = d.pln := rfl
@[simp] theorem Dev.drawNat_cur (d : Dev) : (d.drawNat.2).cur = d.cur := rfl
@[simp] theorem Dev.drawNat_wde (d : Dev) : (d.drawNat.2).wde = d.wde := rfl
@[simp] theorem Dev.drawNat_cal (d : Dev) : (d.drawNat.2).cal = d.cal := rfl
@[simp] theorem Dev.drawNat_att (d : Dev) : (d.drawNat.2).att = d.att := rfl
@[simp] theorem Dev.drawNat_mmu (d : Dev) : (d.drawNat.2).mmu = d.mmu := rfl
@[simp] theorem Dev.drawNat_dma (d : Dev) : (d.drawNat.2).dma = d.dma := rfl
@[simp] theorem Dev.drawNat_arb (d : Dev) : (d.drawNat.2).arb = d.arb := rfl
@[simp] theorem Dev.drawNat_mbx (d : Dev) : (d.drawNat.2).mbx = d.mbx := rfl
@[simp] theorem Dev.drawNat_grf (d : Dev) : (d.drawNat.2).grf = d.grf := rfl
@[simp] theorem Dev.drawNat_srv (d : Dev) : (d.drawNat.2).srv = d.srv := rfl
@[simp] theorem Dev.drawNat_lnk (d : Dev) : (d.drawNat.2).lnk = d.lnk := rfl
@[simp] theorem Dev.drawNat_evr (d : Dev) : (d.drawNat.2).evr = d.evr := rfl
@[simp] theorem Dev.drawNat_crc (d : Dev) : (d.drawNat.2).crc = d.crc := rfl
@[simp] theorem Dev.drawNat_hka (d : Dev) : (d.drawNat.2).hka = d.hka := rfl
@[simp] theorem Dev.drawNat_thm (d : Dev) : (d.drawNat.2).thm = d.thm := rfl
@[simp] theorem Dev.drawNat_pwr (d : Dev) : (d.drawNat.2).pwr = d.pwr := rfl
@[simp] theorem Dev.drawNat_env (d : Dev) : (d.drawNat.2).env = d.env := rfl

/-! ## Dev.drawBytes -/

@[simp] theorem Dev.drawBytes_now (d : Dev) (n : Nat) : ((d.drawBytes n).2).now = d.now := rfl
@[simp] theorem Dev.drawBytes_bring (d : Dev) (n : Nat) : ((d.drawBytes n).2).bring = d.bring := rfl
@[simp] theorem Dev.drawBytes_holdReason (d : Dev) (n : Nat) : ((d.drawBytes n).2).holdReason = d.holdReason := rfl
@[simp] theorem Dev.drawBytes_since (d : Dev) (n : Nat) : ((d.drawBytes n).2).since = d.since := rfl
@[simp] theorem Dev.drawBytes_regs (d : Dev) (n : Nat) : ((d.drawBytes n).2).regs = d.regs := rfl
@[simp] theorem Dev.drawBytes_shadow (d : Dev) (n : Nat) : ((d.drawBytes n).2).shadow = d.shadow := rfl
@[simp] theorem Dev.drawBytes_late (d : Dev) (n : Nat) : ((d.drawBytes n).2).late = d.late := rfl
@[simp] theorem Dev.drawBytes_latched (d : Dev) (n : Nat) : ((d.drawBytes n).2).latched = d.latched := rfl
@[simp] theorem Dev.drawBytes_mem (d : Dev) (n : Nat) : ((d.drawBytes n).2).mem = d.mem := rfl
@[simp] theorem Dev.drawBytes_host (d : Dev) (n : Nat) : ((d.drawBytes n).2).host = d.host := rfl
@[simp] theorem Dev.drawBytes_upsets (d : Dev) (n : Nat) : ((d.drawBytes n).2).upsets = d.upsets := rfl
@[simp] theorem Dev.drawBytes_hub (d : Dev) (n : Nat) : ((d.drawBytes n).2).hub = d.hub := rfl
@[simp] theorem Dev.drawBytes_pln (d : Dev) (n : Nat) : ((d.drawBytes n).2).pln = d.pln := rfl
@[simp] theorem Dev.drawBytes_cur (d : Dev) (n : Nat) : ((d.drawBytes n).2).cur = d.cur := rfl
@[simp] theorem Dev.drawBytes_wde (d : Dev) (n : Nat) : ((d.drawBytes n).2).wde = d.wde := rfl
@[simp] theorem Dev.drawBytes_cal (d : Dev) (n : Nat) : ((d.drawBytes n).2).cal = d.cal := rfl
@[simp] theorem Dev.drawBytes_att (d : Dev) (n : Nat) : ((d.drawBytes n).2).att = d.att := rfl
@[simp] theorem Dev.drawBytes_mmu (d : Dev) (n : Nat) : ((d.drawBytes n).2).mmu = d.mmu := rfl
@[simp] theorem Dev.drawBytes_dma (d : Dev) (n : Nat) : ((d.drawBytes n).2).dma = d.dma := rfl
@[simp] theorem Dev.drawBytes_arb (d : Dev) (n : Nat) : ((d.drawBytes n).2).arb = d.arb := rfl
@[simp] theorem Dev.drawBytes_mbx (d : Dev) (n : Nat) : ((d.drawBytes n).2).mbx = d.mbx := rfl
@[simp] theorem Dev.drawBytes_grf (d : Dev) (n : Nat) : ((d.drawBytes n).2).grf = d.grf := rfl
@[simp] theorem Dev.drawBytes_srv (d : Dev) (n : Nat) : ((d.drawBytes n).2).srv = d.srv := rfl
@[simp] theorem Dev.drawBytes_lnk (d : Dev) (n : Nat) : ((d.drawBytes n).2).lnk = d.lnk := rfl
@[simp] theorem Dev.drawBytes_evr (d : Dev) (n : Nat) : ((d.drawBytes n).2).evr = d.evr := rfl
@[simp] theorem Dev.drawBytes_crc (d : Dev) (n : Nat) : ((d.drawBytes n).2).crc = d.crc := rfl
@[simp] theorem Dev.drawBytes_hka (d : Dev) (n : Nat) : ((d.drawBytes n).2).hka = d.hka := rfl
@[simp] theorem Dev.drawBytes_thm (d : Dev) (n : Nat) : ((d.drawBytes n).2).thm = d.thm := rfl
@[simp] theorem Dev.drawBytes_pwr (d : Dev) (n : Nat) : ((d.drawBytes n).2).pwr = d.pwr := rfl
@[simp] theorem Dev.drawBytes_env (d : Dev) (n : Nat) : ((d.drawBytes n).2).env = d.env := rfl

/-! ## Dev.vector -/

@[simp] theorem Dev.vector_now (d : Dev) (n : Nat) : (d.vector n).now = d.now := rfl
@[simp] theorem Dev.vector_fresh (d : Dev) (n : Nat) : (d.vector n).fresh = d.fresh := rfl
@[simp] theorem Dev.vector_bring (d : Dev) (n : Nat) : (d.vector n).bring = d.bring := rfl
@[simp] theorem Dev.vector_holdReason (d : Dev) (n : Nat) : (d.vector n).holdReason = d.holdReason := rfl
@[simp] theorem Dev.vector_since (d : Dev) (n : Nat) : (d.vector n).since = d.since := rfl
@[simp] theorem Dev.vector_regs (d : Dev) (n : Nat) : (d.vector n).regs = d.regs := rfl
@[simp] theorem Dev.vector_shadow (d : Dev) (n : Nat) : (d.vector n).shadow = d.shadow := rfl
@[simp] theorem Dev.vector_late (d : Dev) (n : Nat) : (d.vector n).late = d.late := rfl
@[simp] theorem Dev.vector_latched (d : Dev) (n : Nat) : (d.vector n).latched = d.latched := rfl
@[simp] theorem Dev.vector_mem (d : Dev) (n : Nat) : (d.vector n).mem = d.mem := rfl
@[simp] theorem Dev.vector_host (d : Dev) (n : Nat) : (d.vector n).host = d.host := rfl
@[simp] theorem Dev.vector_upsets (d : Dev) (n : Nat) : (d.vector n).upsets = d.upsets := rfl
@[simp] theorem Dev.vector_hub (d : Dev) (n : Nat) : (d.vector n).hub = d.hub := rfl
@[simp] theorem Dev.vector_pln (d : Dev) (n : Nat) : (d.vector n).pln = d.pln := rfl
@[simp] theorem Dev.vector_cur (d : Dev) (n : Nat) : (d.vector n).cur = d.cur := rfl
@[simp] theorem Dev.vector_wde (d : Dev) (n : Nat) : (d.vector n).wde = d.wde := rfl
@[simp] theorem Dev.vector_cal (d : Dev) (n : Nat) : (d.vector n).cal = d.cal := rfl
@[simp] theorem Dev.vector_att (d : Dev) (n : Nat) : (d.vector n).att = d.att := rfl
@[simp] theorem Dev.vector_mmu (d : Dev) (n : Nat) : (d.vector n).mmu = d.mmu := rfl
@[simp] theorem Dev.vector_dma (d : Dev) (n : Nat) : (d.vector n).dma = d.dma := rfl
@[simp] theorem Dev.vector_arb (d : Dev) (n : Nat) : (d.vector n).arb = d.arb := rfl
@[simp] theorem Dev.vector_mbx (d : Dev) (n : Nat) : (d.vector n).mbx = d.mbx := rfl
@[simp] theorem Dev.vector_grf (d : Dev) (n : Nat) : (d.vector n).grf = d.grf := rfl
@[simp] theorem Dev.vector_srv (d : Dev) (n : Nat) : (d.vector n).srv = d.srv := rfl
@[simp] theorem Dev.vector_lnk (d : Dev) (n : Nat) : (d.vector n).lnk = d.lnk := rfl
@[simp] theorem Dev.vector_evr (d : Dev) (n : Nat) : (d.vector n).evr = d.evr := rfl
@[simp] theorem Dev.vector_crc (d : Dev) (n : Nat) : (d.vector n).crc = d.crc := rfl
@[simp] theorem Dev.vector_hka (d : Dev) (n : Nat) : (d.vector n).hka = d.hka := rfl
@[simp] theorem Dev.vector_thm (d : Dev) (n : Nat) : (d.vector n).thm = d.thm := rfl
@[simp] theorem Dev.vector_pwr (d : Dev) (n : Nat) : (d.vector n).pwr = d.pwr := rfl

/-! ## Dev.event -/

@[simp] theorem Dev.event_now (d : Dev) (c : Nat) (e : EventRec) : (d.event c e).now = d.now := by
  unfold Dev.event; split
  · dsimp only; split <;> rfl
  · rfl
@[simp] theorem Dev.event_fresh (d : Dev) (c : Nat) (e : EventRec) : (d.event c e).fresh = d.fresh := by
  unfold Dev.event; split
  · dsimp only; split <;> rfl
  · rfl
@[simp] theorem Dev.event_bring (d : Dev) (c : Nat) (e : EventRec) : (d.event c e).bring = d.bring := by
  unfold Dev.event; split
  · dsimp only; split <;> rfl
  · rfl
@[simp] theorem Dev.event_holdReason (d : Dev) (c : Nat) (e : EventRec) : (d.event c e).holdReason = d.holdReason := by
  unfold Dev.event; split
  · dsimp only; split <;> rfl
  · rfl
@[simp] theorem Dev.event_since (d : Dev) (c : Nat) (e : EventRec) : (d.event c e).since = d.since := by
  unfold Dev.event; split
  · dsimp only; split <;> rfl
  · rfl
@[simp] theorem Dev.event_shadow (d : Dev) (c : Nat) (e : EventRec) : (d.event c e).shadow = d.shadow := by
  unfold Dev.event; split
  · dsimp only; split <;> rfl
  · rfl
@[simp] theorem Dev.event_late (d : Dev) (c : Nat) (e : EventRec) : (d.event c e).late = d.late := by
  unfold Dev.event; split
  · dsimp only; split <;> rfl
  · rfl
@[simp] theorem Dev.event_latched (d : Dev) (c : Nat) (e : EventRec) : (d.event c e).latched = d.latched := by
  unfold Dev.event; split
  · dsimp only; split <;> rfl
  · rfl
@[simp] theorem Dev.event_mem (d : Dev) (c : Nat) (e : EventRec) : (d.event c e).mem = d.mem := by
  unfold Dev.event; split
  · dsimp only; split <;> rfl
  · rfl
@[simp] theorem Dev.event_host (d : Dev) (c : Nat) (e : EventRec) : (d.event c e).host = d.host := by
  unfold Dev.event; split
  · dsimp only; split <;> rfl
  · rfl
@[simp] theorem Dev.event_upsets (d : Dev) (c : Nat) (e : EventRec) : (d.event c e).upsets = d.upsets := by
  unfold Dev.event; split
  · dsimp only; split <;> rfl
  · rfl
@[simp] theorem Dev.event_hub (d : Dev) (c : Nat) (e : EventRec) : (d.event c e).hub = d.hub := by
  unfold Dev.event; split
  · dsimp only; split <;> rfl
  · rfl
@[simp] theorem Dev.event_pln (d : Dev) (c : Nat) (e : EventRec) : (d.event c e).pln = d.pln := by
  unfold Dev.event; split
  · dsimp only; split <;> rfl
  · rfl
@[simp] theorem Dev.event_cur (d : Dev) (c : Nat) (e : EventRec) : (d.event c e).cur = d.cur := by
  unfold Dev.event; split
  · dsimp only; split <;> rfl
  · rfl
@[simp] theorem Dev.event_wde (d : Dev) (c : Nat) (e : EventRec) : (d.event c e).wde = d.wde := by
  unfold Dev.event; split
  · dsimp only; split <;> rfl
  · rfl
@[simp] theorem Dev.event_cal (d : Dev) (c : Nat) (e : EventRec) : (d.event c e).cal = d.cal := by
  unfold Dev.event; split
  · dsimp only; split <;> rfl
  · rfl
@[simp] theorem Dev.event_att (d : Dev) (c : Nat) (e : EventRec) : (d.event c e).att = d.att := by
  unfold Dev.event; split
  · dsimp only; split <;> rfl
  · rfl
@[simp] theorem Dev.event_mmu (d : Dev) (c : Nat) (e : EventRec) : (d.event c e).mmu = d.mmu := by
  unfold Dev.event; split
  · dsimp only; split <;> rfl
  · rfl
@[simp] theorem Dev.event_dma (d : Dev) (c : Nat) (e : EventRec) : (d.event c e).dma = d.dma := by
  unfold Dev.event; split
  · dsimp only; split <;> rfl
  · rfl
@[simp] theorem Dev.event_arb (d : Dev) (c : Nat) (e : EventRec) : (d.event c e).arb = d.arb := by
  unfold Dev.event; split
  · dsimp only; split <;> rfl
  · rfl
@[simp] theorem Dev.event_mbx (d : Dev) (c : Nat) (e : EventRec) : (d.event c e).mbx = d.mbx := by
  unfold Dev.event; split
  · dsimp only; split <;> rfl
  · rfl
@[simp] theorem Dev.event_grf (d : Dev) (c : Nat) (e : EventRec) : (d.event c e).grf = d.grf := by
  unfold Dev.event; split
  · dsimp only; split <;> rfl
  · rfl
@[simp] theorem Dev.event_srv (d : Dev) (c : Nat) (e : EventRec) : (d.event c e).srv = d.srv := by
  unfold Dev.event; split
  · dsimp only; split <;> rfl
  · rfl
@[simp] theorem Dev.event_lnk (d : Dev) (c : Nat) (e : EventRec) : (d.event c e).lnk = d.lnk := by
  unfold Dev.event; split
  · dsimp only; split <;> rfl
  · rfl
@[simp] theorem Dev.event_crc (d : Dev) (c : Nat) (e : EventRec) : (d.event c e).crc = d.crc := by
  unfold Dev.event; split
  · dsimp only; split <;> rfl
  · rfl
@[simp] theorem Dev.event_hka (d : Dev) (c : Nat) (e : EventRec) : (d.event c e).hka = d.hka := by
  unfold Dev.event; split
  · dsimp only; split <;> rfl
  · rfl
@[simp] theorem Dev.event_thm (d : Dev) (c : Nat) (e : EventRec) : (d.event c e).thm = d.thm := by
  unfold Dev.event; split
  · dsimp only; split <;> rfl
  · rfl
@[simp] theorem Dev.event_pwr (d : Dev) (c : Nat) (e : EventRec) : (d.event c e).pwr = d.pwr := by
  unfold Dev.event; split
  · dsimp only; split <;> rfl
  · rfl

/-! ## Dev.flagEvent -/

@[simp] theorem Dev.flagEvent_now (d : Dev) (o b : Nat) (e : EventRec) : (d.flagEvent o b e).now = d.now := by
  unfold Dev.flagEvent; simp
@[simp] theorem Dev.flagEvent_fresh (d : Dev) (o b : Nat) (e : EventRec) : (d.flagEvent o b e).fresh = d.fresh := by
  unfold Dev.flagEvent; simp
@[simp] theorem Dev.flagEvent_bring (d : Dev) (o b : Nat) (e : EventRec) : (d.flagEvent o b e).bring = d.bring := by
  unfold Dev.flagEvent; simp
@[simp] theorem Dev.flagEvent_holdReason (d : Dev) (o b : Nat) (e : EventRec) : (d.flagEvent o b e).holdReason = d.holdReason := by
  unfold Dev.flagEvent; simp
@[simp] theorem Dev.flagEvent_since (d : Dev) (o b : Nat) (e : EventRec) : (d.flagEvent o b e).since = d.since := by
  unfold Dev.flagEvent; simp
@[simp] theorem Dev.flagEvent_shadow (d : Dev) (o b : Nat) (e : EventRec) : (d.flagEvent o b e).shadow = d.shadow := by
  unfold Dev.flagEvent; simp
@[simp] theorem Dev.flagEvent_late (d : Dev) (o b : Nat) (e : EventRec) : (d.flagEvent o b e).late = d.late := by
  unfold Dev.flagEvent; simp
@[simp] theorem Dev.flagEvent_latched (d : Dev) (o b : Nat) (e : EventRec) : (d.flagEvent o b e).latched = d.latched := by
  unfold Dev.flagEvent; simp
@[simp] theorem Dev.flagEvent_mem (d : Dev) (o b : Nat) (e : EventRec) : (d.flagEvent o b e).mem = d.mem := by
  unfold Dev.flagEvent; simp
@[simp] theorem Dev.flagEvent_host (d : Dev) (o b : Nat) (e : EventRec) : (d.flagEvent o b e).host = d.host := by
  unfold Dev.flagEvent; simp
@[simp] theorem Dev.flagEvent_upsets (d : Dev) (o b : Nat) (e : EventRec) : (d.flagEvent o b e).upsets = d.upsets := by
  unfold Dev.flagEvent; simp
@[simp] theorem Dev.flagEvent_hub (d : Dev) (o b : Nat) (e : EventRec) : (d.flagEvent o b e).hub = d.hub := by
  unfold Dev.flagEvent; simp
@[simp] theorem Dev.flagEvent_pln (d : Dev) (o b : Nat) (e : EventRec) : (d.flagEvent o b e).pln = d.pln := by
  unfold Dev.flagEvent; simp
@[simp] theorem Dev.flagEvent_cur (d : Dev) (o b : Nat) (e : EventRec) : (d.flagEvent o b e).cur = d.cur := by
  unfold Dev.flagEvent; simp
@[simp] theorem Dev.flagEvent_wde (d : Dev) (o b : Nat) (e : EventRec) : (d.flagEvent o b e).wde = d.wde := by
  unfold Dev.flagEvent; simp
@[simp] theorem Dev.flagEvent_cal (d : Dev) (o b : Nat) (e : EventRec) : (d.flagEvent o b e).cal = d.cal := by
  unfold Dev.flagEvent; simp
@[simp] theorem Dev.flagEvent_att (d : Dev) (o b : Nat) (e : EventRec) : (d.flagEvent o b e).att = d.att := by
  unfold Dev.flagEvent; simp
@[simp] theorem Dev.flagEvent_mmu (d : Dev) (o b : Nat) (e : EventRec) : (d.flagEvent o b e).mmu = d.mmu := by
  unfold Dev.flagEvent; simp
@[simp] theorem Dev.flagEvent_dma (d : Dev) (o b : Nat) (e : EventRec) : (d.flagEvent o b e).dma = d.dma := by
  unfold Dev.flagEvent; simp
@[simp] theorem Dev.flagEvent_arb (d : Dev) (o b : Nat) (e : EventRec) : (d.flagEvent o b e).arb = d.arb := by
  unfold Dev.flagEvent; simp
@[simp] theorem Dev.flagEvent_mbx (d : Dev) (o b : Nat) (e : EventRec) : (d.flagEvent o b e).mbx = d.mbx := by
  unfold Dev.flagEvent; simp
@[simp] theorem Dev.flagEvent_grf (d : Dev) (o b : Nat) (e : EventRec) : (d.flagEvent o b e).grf = d.grf := by
  unfold Dev.flagEvent; simp
@[simp] theorem Dev.flagEvent_srv (d : Dev) (o b : Nat) (e : EventRec) : (d.flagEvent o b e).srv = d.srv := by
  unfold Dev.flagEvent; simp
@[simp] theorem Dev.flagEvent_lnk (d : Dev) (o b : Nat) (e : EventRec) : (d.flagEvent o b e).lnk = d.lnk := by
  unfold Dev.flagEvent; simp
@[simp] theorem Dev.flagEvent_crc (d : Dev) (o b : Nat) (e : EventRec) : (d.flagEvent o b e).crc = d.crc := by
  unfold Dev.flagEvent; simp
@[simp] theorem Dev.flagEvent_hka (d : Dev) (o b : Nat) (e : EventRec) : (d.flagEvent o b e).hka = d.hka := by
  unfold Dev.flagEvent; simp
@[simp] theorem Dev.flagEvent_thm (d : Dev) (o b : Nat) (e : EventRec) : (d.flagEvent o b e).thm = d.thm := by
  unfold Dev.flagEvent; simp
@[simp] theorem Dev.flagEvent_pwr (d : Dev) (o b : Nat) (e : EventRec) : (d.flagEvent o b e).pwr = d.pwr := by
  unfold Dev.flagEvent; simp

/-! ## Dev.cper -/

@[simp] theorem Dev.cper_now (d : Dev) (c : CperRec) : (d.cper c).now = d.now := by
  unfold Dev.cper; dsimp only; split <;> simp
@[simp] theorem Dev.cper_fresh (d : Dev) (c : CperRec) : (d.cper c).fresh = d.fresh := by
  unfold Dev.cper; dsimp only; split <;> simp
@[simp] theorem Dev.cper_bring (d : Dev) (c : CperRec) : (d.cper c).bring = d.bring := by
  unfold Dev.cper; dsimp only; split <;> simp
@[simp] theorem Dev.cper_holdReason (d : Dev) (c : CperRec) : (d.cper c).holdReason = d.holdReason := by
  unfold Dev.cper; dsimp only; split <;> simp
@[simp] theorem Dev.cper_since (d : Dev) (c : CperRec) : (d.cper c).since = d.since := by
  unfold Dev.cper; dsimp only; split <;> simp
@[simp] theorem Dev.cper_shadow (d : Dev) (c : CperRec) : (d.cper c).shadow = d.shadow := by
  unfold Dev.cper; dsimp only; split <;> simp
@[simp] theorem Dev.cper_late (d : Dev) (c : CperRec) : (d.cper c).late = d.late := by
  unfold Dev.cper; dsimp only; split <;> simp
@[simp] theorem Dev.cper_latched (d : Dev) (c : CperRec) : (d.cper c).latched = d.latched := by
  unfold Dev.cper; dsimp only; split <;> simp
@[simp] theorem Dev.cper_mem (d : Dev) (c : CperRec) : (d.cper c).mem = d.mem := by
  unfold Dev.cper; dsimp only; split <;> simp
@[simp] theorem Dev.cper_host (d : Dev) (c : CperRec) : (d.cper c).host = d.host := by
  unfold Dev.cper; dsimp only; split <;> simp
@[simp] theorem Dev.cper_upsets (d : Dev) (c : CperRec) : (d.cper c).upsets = d.upsets := by
  unfold Dev.cper; dsimp only; split <;> simp
@[simp] theorem Dev.cper_hub (d : Dev) (c : CperRec) : (d.cper c).hub = d.hub := by
  unfold Dev.cper; dsimp only; split <;> simp
@[simp] theorem Dev.cper_pln (d : Dev) (c : CperRec) : (d.cper c).pln = d.pln := by
  unfold Dev.cper; dsimp only; split <;> simp
@[simp] theorem Dev.cper_cur (d : Dev) (c : CperRec) : (d.cper c).cur = d.cur := by
  unfold Dev.cper; dsimp only; split <;> simp
@[simp] theorem Dev.cper_wde (d : Dev) (c : CperRec) : (d.cper c).wde = d.wde := by
  unfold Dev.cper; dsimp only; split <;> simp
@[simp] theorem Dev.cper_cal (d : Dev) (c : CperRec) : (d.cper c).cal = d.cal := by
  unfold Dev.cper; dsimp only; split <;> simp
@[simp] theorem Dev.cper_att (d : Dev) (c : CperRec) : (d.cper c).att = d.att := by
  unfold Dev.cper; dsimp only; split <;> simp
@[simp] theorem Dev.cper_mmu (d : Dev) (c : CperRec) : (d.cper c).mmu = d.mmu := by
  unfold Dev.cper; dsimp only; split <;> simp
@[simp] theorem Dev.cper_dma (d : Dev) (c : CperRec) : (d.cper c).dma = d.dma := by
  unfold Dev.cper; dsimp only; split <;> simp
@[simp] theorem Dev.cper_arb (d : Dev) (c : CperRec) : (d.cper c).arb = d.arb := by
  unfold Dev.cper; dsimp only; split <;> simp
@[simp] theorem Dev.cper_mbx (d : Dev) (c : CperRec) : (d.cper c).mbx = d.mbx := by
  unfold Dev.cper; dsimp only; split <;> simp
@[simp] theorem Dev.cper_grf (d : Dev) (c : CperRec) : (d.cper c).grf = d.grf := by
  unfold Dev.cper; dsimp only; split <;> simp
@[simp] theorem Dev.cper_srv (d : Dev) (c : CperRec) : (d.cper c).srv = d.srv := by
  unfold Dev.cper; dsimp only; split <;> simp
@[simp] theorem Dev.cper_lnk (d : Dev) (c : CperRec) : (d.cper c).lnk = d.lnk := by
  unfold Dev.cper; dsimp only; split <;> simp
@[simp] theorem Dev.cper_crc (d : Dev) (c : CperRec) : (d.cper c).crc = d.crc := by
  unfold Dev.cper; dsimp only; split <;> simp
@[simp] theorem Dev.cper_hka (d : Dev) (c : CperRec) : (d.cper c).hka = d.hka := by
  unfold Dev.cper; dsimp only; split <;> simp
@[simp] theorem Dev.cper_thm (d : Dev) (c : CperRec) : (d.cper c).thm = d.thm := by
  unfold Dev.cper; dsimp only; split <;> simp
@[simp] theorem Dev.cper_pwr (d : Dev) (c : CperRec) : (d.cper c).pwr = d.pwr := by
  unfold Dev.cper; dsimp only; split <;> simp

/-! ## Dev.signature -/

@[simp] theorem Dev.signature_now (d : Dev) (c : Nat) (e : EventRec) (r : CperRec) : (d.signature c e r).now = d.now := by
  unfold Dev.signature; simp
@[simp] theorem Dev.signature_fresh (d : Dev) (c : Nat) (e : EventRec) (r : CperRec) : (d.signature c e r).fresh = d.fresh := by
  unfold Dev.signature; simp
@[simp] theorem Dev.signature_bring (d : Dev) (c : Nat) (e : EventRec) (r : CperRec) : (d.signature c e r).bring = d.bring := by
  unfold Dev.signature; simp
@[simp] theorem Dev.signature_holdReason (d : Dev) (c : Nat) (e : EventRec) (r : CperRec) : (d.signature c e r).holdReason = d.holdReason := by
  unfold Dev.signature; simp
@[simp] theorem Dev.signature_since (d : Dev) (c : Nat) (e : EventRec) (r : CperRec) : (d.signature c e r).since = d.since := by
  unfold Dev.signature; simp
@[simp] theorem Dev.signature_shadow (d : Dev) (c : Nat) (e : EventRec) (r : CperRec) : (d.signature c e r).shadow = d.shadow := by
  unfold Dev.signature; simp
@[simp] theorem Dev.signature_late (d : Dev) (c : Nat) (e : EventRec) (r : CperRec) : (d.signature c e r).late = d.late := by
  unfold Dev.signature; simp
@[simp] theorem Dev.signature_latched (d : Dev) (c : Nat) (e : EventRec) (r : CperRec) : (d.signature c e r).latched = d.latched := by
  unfold Dev.signature; simp
@[simp] theorem Dev.signature_mem (d : Dev) (c : Nat) (e : EventRec) (r : CperRec) : (d.signature c e r).mem = d.mem := by
  unfold Dev.signature; simp
@[simp] theorem Dev.signature_host (d : Dev) (c : Nat) (e : EventRec) (r : CperRec) : (d.signature c e r).host = d.host := by
  unfold Dev.signature; simp
@[simp] theorem Dev.signature_upsets (d : Dev) (c : Nat) (e : EventRec) (r : CperRec) : (d.signature c e r).upsets = d.upsets := by
  unfold Dev.signature; simp
@[simp] theorem Dev.signature_hub (d : Dev) (c : Nat) (e : EventRec) (r : CperRec) : (d.signature c e r).hub = d.hub := by
  unfold Dev.signature; simp
@[simp] theorem Dev.signature_pln (d : Dev) (c : Nat) (e : EventRec) (r : CperRec) : (d.signature c e r).pln = d.pln := by
  unfold Dev.signature; simp
@[simp] theorem Dev.signature_cur (d : Dev) (c : Nat) (e : EventRec) (r : CperRec) : (d.signature c e r).cur = d.cur := by
  unfold Dev.signature; simp
@[simp] theorem Dev.signature_wde (d : Dev) (c : Nat) (e : EventRec) (r : CperRec) : (d.signature c e r).wde = d.wde := by
  unfold Dev.signature; simp
@[simp] theorem Dev.signature_cal (d : Dev) (c : Nat) (e : EventRec) (r : CperRec) : (d.signature c e r).cal = d.cal := by
  unfold Dev.signature; simp
@[simp] theorem Dev.signature_att (d : Dev) (c : Nat) (e : EventRec) (r : CperRec) : (d.signature c e r).att = d.att := by
  unfold Dev.signature; simp
@[simp] theorem Dev.signature_mmu (d : Dev) (c : Nat) (e : EventRec) (r : CperRec) : (d.signature c e r).mmu = d.mmu := by
  unfold Dev.signature; simp
@[simp] theorem Dev.signature_dma (d : Dev) (c : Nat) (e : EventRec) (r : CperRec) : (d.signature c e r).dma = d.dma := by
  unfold Dev.signature; simp
@[simp] theorem Dev.signature_arb (d : Dev) (c : Nat) (e : EventRec) (r : CperRec) : (d.signature c e r).arb = d.arb := by
  unfold Dev.signature; simp
@[simp] theorem Dev.signature_mbx (d : Dev) (c : Nat) (e : EventRec) (r : CperRec) : (d.signature c e r).mbx = d.mbx := by
  unfold Dev.signature; simp
@[simp] theorem Dev.signature_grf (d : Dev) (c : Nat) (e : EventRec) (r : CperRec) : (d.signature c e r).grf = d.grf := by
  unfold Dev.signature; simp
@[simp] theorem Dev.signature_srv (d : Dev) (c : Nat) (e : EventRec) (r : CperRec) : (d.signature c e r).srv = d.srv := by
  unfold Dev.signature; simp
@[simp] theorem Dev.signature_lnk (d : Dev) (c : Nat) (e : EventRec) (r : CperRec) : (d.signature c e r).lnk = d.lnk := by
  unfold Dev.signature; simp
@[simp] theorem Dev.signature_crc (d : Dev) (c : Nat) (e : EventRec) (r : CperRec) : (d.signature c e r).crc = d.crc := by
  unfold Dev.signature; simp
@[simp] theorem Dev.signature_hka (d : Dev) (c : Nat) (e : EventRec) (r : CperRec) : (d.signature c e r).hka = d.hka := by
  unfold Dev.signature; simp
@[simp] theorem Dev.signature_thm (d : Dev) (c : Nat) (e : EventRec) (r : CperRec) : (d.signature c e r).thm = d.thm := by
  unfold Dev.signature; simp
@[simp] theorem Dev.signature_pwr (d : Dev) (c : Nat) (e : EventRec) (r : CperRec) : (d.signature c e r).pwr = d.pwr := by
  unfold Dev.signature; simp

end Sys2Proof.Machine
end

