-- ==== Sys2Proof/Laws/Lists.lean ====
section
/-! SUPPORT. Lists kept by key, registers and their fields: what is read after a write. -/

namespace Sys2Proof.Machine

/-! ## Lists kept by key -/

@[simp] theorem look_put_same {α : Type} (l : List (Nat × α)) (k : Nat) (v : α) : look (put l k v) k = some v := by
  induction l with
  | nil => simp [put, look]
  | cons x l ih =>
    obtain ⟨k', v'⟩ := x
    simp only [put]
    split
    · simp [look]
    · split
      · simp [look]
      · have : ¬ k' = k := fun h => by simp_all
        simp [look, this, ih]

theorem look_put_other {α : Type} (l : List (Nat × α)) {k k' : Nat} (v : α) (h : k' ≠ k) :
    look (put l k v) k' = look l k' := by
  induction l with
  | nil => simp [put, look, Ne.symm h]
  | cons x l ih =>
    obtain ⟨k'', v'⟩ := x
    simp only [put]
    split
    · simp [look, Ne.symm h]
    · split
      · subst_vars; simp [look, Ne.symm h]
      · simp [look, ih]

@[simp] theorem look_del_same {α : Type} (l : List (Nat × α)) (k : Nat) : look (del l k) k = none := by
  induction l with
  | nil => rfl
  | cons x l ih =>
    obtain ⟨k', v'⟩ := x
    by_cases h : k' = k <;> simp [del, look, h, ih]

theorem look_del_other {α : Type} (l : List (Nat × α)) {k k' : Nat} (h : k' ≠ k) : look (del l k) k' = look l k' := by
  induction l with
  | nil => rfl
  | cons x l ih =>
    obtain ⟨k'', v'⟩ := x
    by_cases h2 : k'' = k
    · subst h2; simp [del, look, ih, Ne.symm h]
    · simp [del, look, h2, ih]

@[simp] theorem upd_length {α : Type} (l : List α) (i : Nat) (f : α → α) : (upd l i f).length = l.length := by
  induction l generalizing i with
  | nil => rfl
  | cons a l ih => cases i <;> simp [upd, ih]

theorem upd_get_same {α : Type} (l : List α) (i : Nat) (f : α → α) : (upd l i f)[i]? = l[i]?.map f := by
  induction l generalizing i with
  | nil => rfl
  | cons a l ih => cases i <;> simp [upd, ih]

theorem upd_get_other {α : Type} (l : List α) {i j : Nat} (f : α → α) (h : j ≠ i) : (upd l i f)[j]? = l[j]? := by
  induction l generalizing i j with
  | nil => rfl
  | cons a l ih =>
    cases i with
    | zero => cases j <;> simp_all [upd]
    | succ i => cases j <;> simp_all [upd]

/-! ## Bit fields -/

theorem bits_lt (n hi lo : Nat) : bits n hi lo < 2 ^ (hi + 1 - lo) := Nat.mod_lt _ (Nat.two_pow_pos _)

theorem bits_le (n hi lo : Nat) : bits n hi lo * 2 ^ lo ≤ n := by
  unfold bits
  calc n / 2 ^ lo % 2 ^ (hi + 1 - lo) * 2 ^ lo ≤ n / 2 ^ lo * 2 ^ lo := Nat.mul_le_mul_right _ (Nat.mod_le _ _)
    _ ≤ n := Nat.div_mul_le_self n _

/-- `n` taken apart at a field: what lies below it, the field, and what lies above it. -/
theorem bits_split (n hi lo : Nat) :
    n = n % 2 ^ lo + 2 ^ lo * (bits n hi lo + 2 ^ (hi + 1 - lo) * (n / 2 ^ lo / 2 ^ (hi + 1 - lo))) := by
  unfold bits
  rw [Nat.mod_add_div, Nat.mod_add_div]

theorem withBits_eq (n hi lo v : Nat) :
    withBits n hi lo v =
      n % 2 ^ lo + 2 ^ lo * (v % 2 ^ (hi + 1 - lo) + 2 ^ (hi + 1 - lo) * (n / 2 ^ lo / 2 ^ (hi + 1 - lo))) := by
  have h := bits_split n hi lo
  have hle := bits_le n hi lo
  unfold withBits
  generalize bits n hi lo = b at *
  generalize n / 2 ^ lo / 2 ^ (hi + 1 - lo) = q at *
  generalize 2 ^ (hi + 1 - lo) = w at *
  generalize 2 ^ lo = p at *
  generalize v % w = x at *
  generalize hm : n % p = m at *
  rw [Nat.mul_add] at h ⊢
  rw [Nat.mul_comm b p] at hle ⊢
  rw [Nat.mul_comm x p]
  omega

/-- A field reads what was put into it. -/
@[simp] theorem bits_withBits_same (n hi lo v : Nat) : bits (withBits n hi lo v) hi lo = v % 2 ^ (hi + 1 - lo) := by
  rw [withBits_eq]
  unfold bits
  have hp : 0 < 2 ^ lo := Nat.two_pow_pos _
  have hw : 0 < 2 ^ (hi + 1 - lo) := Nat.two_pow_pos _
  rw [Nat.add_mul_div_left _ _ hp, Nat.div_eq_of_lt (Nat.mod_lt _ hp), Nat.zero_add, Nat.add_mul_mod_self_left,
    Nat.mod_mod]

/-- A field below the one written keeps its value. -/
theorem bits_withBits_below (n v : Nat) {hi lo hi' lo' : Nat} (h : hi' < lo) :
    bits (withBits n hi lo v) hi' lo' = bits n hi' lo' := by
  have key : ∀ a b : Nat, a % 2 ^ lo = b % 2 ^ lo → bits a hi' lo' = bits b hi' lo' := by
    intro a b hab
    unfold bits
    by_cases hl : lo' ≤ hi'
    · have e : ∀ x : Nat, x / 2 ^ lo' % 2 ^ (hi' + 1 - lo') = x % 2 ^ lo % 2 ^ (hi' + 1) / 2 ^ lo' := by
        intro x
        rw [Nat.mod_mod_of_dvd _ (Nat.pow_dvd_pow 2 (by omega : hi' + 1 ≤ lo))]
        have : 2 ^ (hi' + 1) = 2 ^ lo' * 2 ^ (hi' + 1 - lo') := by rw [← Nat.pow_add]; congr 1; omega
        rw [this, Nat.mod_mul_right_div_self]
      rw [e, e, hab]
    · have : hi' + 1 - lo' = 0 := by omega
      rw [this]; simp [Nat.mod_one]
  apply key
  rw [withBits_eq, Nat.add_mul_mod_self_left, Nat.mod_mod]

/-- A field above the one written keeps its value. -/
theorem bits_withBits_above (n v : Nat) {hi lo hi' lo' : Nat} (h : hi < lo') (h2 : lo ≤ hi + 1) :
    bits (withBits n hi lo v) hi' lo' = bits n hi' lo' := by
  have key : ∀ a b : Nat, a / 2 ^ (hi + 1) = b / 2 ^ (hi + 1) → bits a hi' lo' = bits b hi' lo' := by
    intro a b hab
    unfold bits
    have e : ∀ x : Nat, x / 2 ^ lo' = x / 2 ^ (hi + 1) / 2 ^ (lo' - (hi + 1)) := by
      intro x
      rw [Nat.div_div_eq_div_mul, ← Nat.pow_add]; congr 2; omega
    rw [e a, e b, hab]
  apply key
  have hs : 2 ^ (hi + 1) = 2 ^ lo * 2 ^ (hi + 1 - lo) := by rw [← Nat.pow_add]; congr 1; omega
  have hp : 0 < 2 ^ lo := Nat.two_pow_pos _
  have hw : 0 < 2 ^ (hi + 1 - lo) := Nat.two_pow_pos _
  rw [withBits_eq, hs, ← Nat.div_div_eq_div_mul, ← Nat.div_div_eq_div_mul, Nat.add_mul_div_left _ _ hp,
    Nat.div_eq_of_lt (Nat.mod_lt _ hp), Nat.zero_add, Nat.add_mul_div_left _ _ hw, Nat.div_eq_of_lt (Nat.mod_lt _ hw),
    Nat.zero_add]

/-- A field put into a 32-bit word leaves a 32-bit word. -/
theorem withBits_lt {n hi lo : Nat} (v : Nat) (h : n < 2 ^ 32) (hhi : hi < 32) : withBits n hi lo v < 2 ^ 32 := by
  by_cases hl : lo ≤ hi
  · have key : withBits n hi lo v / 2 ^ 32 = n / 2 ^ 32 := by
      have hs : 2 ^ 32 = 2 ^ lo * 2 ^ (hi + 1 - lo) * 2 ^ (32 - (hi + 1)) := by
        rw [← Nat.pow_add, ← Nat.pow_add]; congr 1; omega
      have hp : 0 < 2 ^ lo := Nat.two_pow_pos _
      have hw : 0 < 2 ^ (hi + 1 - lo) := Nat.two_pow_pos _
      rw [withBits_eq, hs, ← Nat.div_div_eq_div_mul, ← Nat.div_div_eq_div_mul, Nat.add_mul_div_left _ _ hp,
        Nat.div_eq_of_lt (Nat.mod_lt _ hp), Nat.zero_add, Nat.add_mul_div_left _ _ hw,
        Nat.div_eq_of_lt (Nat.mod_lt _ hw), Nat.zero_add, ← Nat.div_div_eq_div_mul, ← Nat.div_div_eq_div_mul]
    rw [Nat.div_eq_of_lt h] at key
    exact (Nat.div_eq_zero_iff_lt (by norm_num)).mp key
  · have h0 : hi + 1 - lo = 0 := by omega
    unfold withBits bits
    rw [h0]
    simp only [pow_zero, Nat.mod_one]
    omega

/-! ## Registers -/

theorem Dev.reg_lt (d : Dev) (o : Nat) : d.reg o < 2 ^ 32 := BitVec.isLt _

/-- A register reads what was written to it. -/
@[simp] theorem Dev.reg_setReg_same (d : Dev) (o v : Nat) : (d.setReg o v).reg o = v % 2 ^ 32 := by
  simp only [Dev.setReg, Dev.reg]
  split
  · next h => simp [← h]
  · simp

/-- A write to a register leaves every other register alone. -/
theorem Dev.reg_setReg_other (d : Dev) {o o' : Nat} (v : Nat) (h : o' ≠ o) : (d.setReg o v).reg o' = d.reg o' := by
  simp only [Dev.setReg, Dev.reg]
  split
  · rw [look_del_other _ h]
  · rw [look_put_other _ _ h]

theorem Dev.reg_setFld_other (d : Dev) {o o' : Nat} (hi lo v : Nat) (h : o' ≠ o) :
    (d.setFld o hi lo v).reg o' = d.reg o' := d.reg_setReg_other _ h

theorem Dev.reg_setBit_other (d : Dev) {o o' : Nat} (b : Nat) (h : o' ≠ o) : (d.setBit o b).reg o' = d.reg o' :=
  d.reg_setReg_other _ h

theorem Dev.reg_bump_other (d : Dev) {o o' : Nat} (n : Nat) (h : o' ≠ o) : (d.bump o n).reg o' = d.reg o' :=
  d.reg_setReg_other _ h

@[simp] theorem Dev.reg_bump_same (d : Dev) (o n : Nat) : (d.bump o n).reg o = min (d.reg o + n) 0xFFFFFFFF := by
  rw [Dev.bump, Dev.reg_setReg_same, Nat.mod_eq_of_lt]; omega

theorem Dev.reg_bumpWrap_other (d : Dev) {o o' : Nat} (n : Nat) (h : o' ≠ o) : (d.bumpWrap o n).reg o' = d.reg o' :=
  d.reg_setReg_other _ h

@[simp] theorem Dev.reg_bumpWrap_same (d : Dev) (o n : Nat) : (d.bumpWrap o n).reg o = (d.reg o + n) % 2 ^ 32 := by
  rw [Dev.bumpWrap, Dev.reg_setReg_same, Nat.mod_mod]

theorem Dev.reg_setReg64_other (d : Dev) {o o' : Nat} (v : Nat) (h : o' ≠ o) (h' : o' ≠ o + 4) :
    (d.setReg64 o v).reg o' = d.reg o' := by
  rw [Dev.setReg64, Dev.reg_setReg_other _ _ h', Dev.reg_setReg_other _ _ h]

/-- A 64-bit pair of registers reads the value put into it. -/
@[simp] theorem Dev.reg64_setReg64 (d : Dev) (o v : Nat) : (d.setReg64 o v).reg64 o = v % 2 ^ 64 := by
  have h : o ≠ o + 4 := by omega
  rw [Dev.setReg64, Dev.reg64, Dev.reg_setReg_same, Dev.reg_setReg_other _ _ h, Dev.reg_setReg_same]
  omega

theorem Dev.reg_bump64_other (d : Dev) {o o' : Nat} (n : Nat) (h : o' ≠ o) (h' : o' ≠ o + 4) :
    (d.bump64 o n).reg o' = d.reg o' := by
  simp only [Dev.bump64]
  rw [Dev.reg_setReg_other _ _ h', Dev.reg_setReg_other _ _ h]

/-- A field of a register reads what was put into it. -/
theorem Dev.fld_setFld_same (d : Dev) (o : Nat) {hi : Nat} (lo v : Nat) (h : hi < 32) :
    (d.setFld o hi lo v).fld o hi lo = v % 2 ^ (hi + 1 - lo) := by
  rw [Dev.fld, Dev.setFld, Dev.reg_setReg_same, Nat.mod_eq_of_lt (withBits_lt v (d.reg_lt o) h), bits_withBits_same]

theorem Dev.fld_setFld_below (d : Dev) (o v : Nat) {hi lo hi' lo' : Nat} (h : hi < 32) (hb : hi' < lo) :
    (d.setFld o hi lo v).fld o hi' lo' = d.fld o hi' lo' := by
  rw [Dev.fld, Dev.setFld, Dev.reg_setReg_same, Nat.mod_eq_of_lt (withBits_lt v (d.reg_lt o) h),
    bits_withBits_below _ _ hb, Dev.fld]

theorem Dev.fld_setFld_above (d : Dev) (o v : Nat) {hi lo hi' lo' : Nat} (h : hi < 32) (ha : hi < lo') (hl : lo ≤ hi + 1) :
    (d.setFld o hi lo v).fld o hi' lo' = d.fld o hi' lo' := by
  rw [Dev.fld, Dev.setFld, Dev.reg_setReg_same, Nat.mod_eq_of_lt (withBits_lt v (d.reg_lt o) h),
    bits_withBits_above _ _ ha hl, Dev.fld]

theorem Dev.fld_setFld_other (d : Dev) {o o' : Nat} (hi lo v hi' lo' : Nat) (h : o' ≠ o) :
    (d.setFld o hi lo v).fld o' hi' lo' = d.fld o' hi' lo' := by
  rw [Dev.fld, d.reg_setFld_other _ _ _ h, Dev.fld]

theorem bit_eq_bits (n b : Nat) : bit n b = decide (bits n b b = 1) := by
  simp [bit, bits, Nat.testBit_eq_decide_div_mod_eq]

/-- A status bit reads 1 once it is set. -/
theorem Dev.bitAt_setBit_same (d : Dev) (o : Nat) {b : Nat} (h : b < 32) : (d.setBit o b).bitAt o b = true := by
  have := d.fld_setFld_same o b 1 h
  rw [Dev.bitAt, bit_eq_bits, Dev.setBit]
  rw [Dev.fld] at this
  rw [this]
  simp

/-- A status bit that is set leaves the register's other bits alone. -/
theorem Dev.bitAt_setBit_other (d : Dev) (o : Nat) {b c : Nat} (h : b < 32) (hc : c ≠ b) :
    (d.setBit o b).bitAt o c = d.bitAt o c := by
  rw [Dev.bitAt, Dev.bitAt, bit_eq_bits, bit_eq_bits, Dev.setBit]
  rcases Nat.lt_or_gt_of_ne hc with hlt | hgt
  · have := d.fld_setFld_below o 1 (lo' := c) h hlt
    rw [Dev.fld, Dev.fld] at this; rw [this]
  · have := d.fld_setFld_above o 1 (hi' := c) h hgt (Nat.le_succ b)
    rw [Dev.fld, Dev.fld] at this; rw [this]

end Sys2Proof.Machine
end

