-- ==== Sys2Proof/Laws/Arb.lean ====
section
/-! SUPPORT. Arbiters and their counters: what is read after an update (R235, R239, R242). -/

namespace Sys2Proof.Machine

theorem Dev.arbInst_names (d : Dev) (c i : Nat) : (d.arbInst c i).cls = c ∧ (d.arbInst c i).inst = i := by
  unfold Dev.arbInst
  cases h : d.arb.insts.find? _ with
  | none => simp
  | some a => have := List.find?_some h; simpa using this

/-- The arbiter put in place is the one found. -/
theorem Dev.arbInst_setInst (d : Dev) (a : ArbInst) : (d.setInst a).arbInst a.cls a.inst = a := by
  have h : (d.arb.insts.filter fun b => !(decide (b.cls = a.cls) && decide (b.inst = a.inst))).find?
      (fun b => decide (b.cls = a.cls) && decide (b.inst = a.inst)) = none := by
    rw [List.find?_eq_none]
    intro x hx
    have := (List.mem_filter.mp hx).2
    cases h : decide (x.cls = a.cls) && decide (x.inst = a.inst) <;> simp_all
  simp only [Dev.setInst, Dev.arbInst, List.find?_append, h]
  simp

@[simp] theorem Dev.setInst_counts (d : Dev) (a : ArbInst) : (d.setInst a).arb.counts = d.arb.counts := rfl
@[simp] theorem Dev.setInst_config (d : Dev) (a : ArbInst) : (d.setInst a).arb.config = d.arb.config := rfl
@[simp] theorem Dev.setInst_regs (d : Dev) (a : ArbInst) : (d.setInst a).regs = d.regs := rfl

/-- A count cleared reads as never used, and every other keeps its value. -/
theorem Dev.arbCount_drop (d : Dev) (a b c x y z : Nat) : (d.dropCount a b c).arbCount x y z =
    if (a, b, c) = (x, y, z) then { cls := x, inst := y, req := z } else d.arbCount x y z := by
  unfold Dev.arbCount Dev.dropCount
  dsimp only
  rw [List.find?_filter]
  split
  · next h =>
    obtain ⟨rfl, rfl, rfl⟩ : a = x ∧ b = y ∧ c = z := by simpa using h
    rw [List.find?_eq_none.mpr]
    · rfl
    · intro w _
      cases h : decide (w.cls = a) && decide (w.inst = b) && decide (w.req = c) <;> simp
  · next h =>
    congr 2
    funext w
    by_cases hw : w.cls = x ∧ w.inst = y ∧ w.req = z
    · have : (decide (w.cls = a) && decide (w.inst = b) && decide (w.req = c)) = false := by
        rw [Bool.eq_false_iff]
        intro hh
        simp only [Bool.and_eq_true, decide_eq_true_eq] at hh
        exact h (by simp [← hw.1, ← hw.2.1, ← hw.2.2, hh])
      simp [this]
    · have : (decide (w.cls = x) && decide (w.inst = y) && decide (w.req = z)) = false := by
        rw [Bool.eq_false_iff]
        intro hh
        simp only [Bool.and_eq_true, decide_eq_true_eq] at hh
        exact hw ⟨hh.1.1, hh.1.2, hh.2⟩
      simp [this]

/-- A counter record put behind those of every other requester is the one found. -/
theorem Dev.arbCount_append (d : Dev) (c : ArbCount) :
    ({ d with arb := { d.arb with counts := (d.dropCount c.cls c.inst c.req).arb.counts ++ [c] } } : Dev).arbCount
      c.cls c.inst c.req = c := by
  have h : (d.dropCount c.cls c.inst c.req).arb.counts.find? (fun x => decide (x.cls = c.cls) &&
      decide (x.inst = c.inst) && decide (x.req = c.req)) = none := by
    rw [List.find?_eq_none]
    intro x hx
    have := (List.mem_filter.mp hx).2
    cases h : decide (x.cls = c.cls) && decide (x.inst = c.inst) && decide (x.req = c.req) <;> simp_all
  simp only [Dev.arbCount, List.find?_append, h]
  simp

theorem Dev.arbCount_names (d : Dev) (cls inst req : Nat) : (d.arbCount cls inst req).cls = cls ∧
    (d.arbCount cls inst req).inst = inst ∧ (d.arbCount cls inst req).req = req := by
  unfold Dev.arbCount
  cases h : d.arb.counts.find? _ with
  | none => simp
  | some a => have := List.find?_some h; simpa [and_assoc] using this

theorem Dev.arbCount_congr {d d' : Dev} (h : d'.arb.counts = d.arb.counts) (cls inst req : Nat) :
    d'.arbCount cls inst req = d.arbCount cls inst req := by
  unfold Dev.arbCount; rw [h]

@[simp] theorem Dev.countGrant_insts (d : Dev) (cls inst req wait : Nat) :
    (d.countGrant cls inst req wait).arb.insts = d.arb.insts := by
  unfold Dev.countGrant
  dsimp only
  split <;> simp [Dev.dropCount]

/-- A grant after a wait counts one more for the requester granted (R239). -/
theorem Dev.countGrant_grants (d : Dev) (cls inst req wait : Nat) :
    ((d.countGrant cls inst req wait).arbCount cls inst req).grants =
      min ((d.arbCount cls inst req).grants + 1) (2 ^ 48 - 1) := by
  obtain ⟨h1, h2, h3⟩ := d.arbCount_names cls inst req
  have key := d.arbCount_append { d.arbCount cls inst req with
    grants := min ((d.arbCount cls inst req).grants + 1) (2 ^ 48 - 1)
    waits := min ((d.arbCount cls inst req).waits + wait) (2 ^ 48 - 1)
    longest := min (max (d.arbCount cls inst req).longest wait) 0xFFFFFFFF }
  dsimp only at key
  rw [h1, h2, h3] at key
  refine Eq.trans (congrArg ArbCount.grants (Dev.arbCount_congr ?_ cls inst req)) (congrArg ArbCount.grants key)
  unfold Dev.countGrant
  dsimp only
  split <;> simp [h1, h2, h3, Dev.dropCount]

/-- Everything that a counted grant changes: the counters and the worst wait. -/
theorem Dev.countGrant_frame (d : Dev) (cls inst req wait : Nat) : d.countGrant cls inst req wait =
    { d with arb := (d.countGrant cls inst req wait).arb, regs := (d.countGrant cls inst req wait).regs } := by
  unfold Dev.countGrant
  dsimp only
  generalize d.arbCount cls inst req = c
  generalize min wait 0xFFFFFFFF = w
  generalize min (c.grants + 1) (2 ^ 48 - 1) = a
  generalize min (c.waits + wait) (2 ^ 48 - 1) = b
  generalize min (max c.longest wait) 0xFFFFFFFF = e
  split <;> rfl

/-- The winner is a waiting requester of the highest rank present and, within that rank, the first after the one last
granted (R235). -/
theorem Dev.arbWinner_spec (d : Dev) (a : ArbInst) {w : ArbReq} (h : d.arbWinner a = some w) :
    w ∈ a.waiting ∧ (∀ v ∈ a.waiting, d.arbRank a.cls v.id ≤ d.arbRank a.cls w.id) ∧
    ∀ v ∈ a.waiting, d.arbRank a.cls v.id = d.arbRank a.cls w.id →
      afterLast (arbRequesters a.cls) ((look a.last (d.arbRank a.cls w.id)).getD (arbRequesters a.cls - 1)) w.id ≤
      afterLast (arbRequesters a.cls) ((look a.last (d.arbRank a.cls w.id)).getD (arbRequesters a.cls - 1)) v.id := by
  have top : ∀ (l : List ArbReq) (m : Nat), m ≤ l.foldl (fun m w => max m (d.arbRank a.cls w.id)) m ∧
      ∀ v ∈ l, d.arbRank a.cls v.id ≤ l.foldl (fun m w => max m (d.arbRank a.cls w.id)) m := by
    intro l
    induction l with
    | nil => intro m; simp
    | cons x l ih =>
      intro m
      obtain ⟨h1, h2⟩ := ih (max m (d.arbRank a.cls x.id))
      rw [List.foldl_cons]
      refine ⟨Nat.le_trans (Nat.le_max_left _ _) h1, fun v hv => ?_⟩
      rcases List.mem_cons.mp hv with rfl | hv
      · exact Nat.le_trans (Nat.le_max_right _ _) h1
      · exact h2 v hv
  have best : ∀ (g : ArbReq → Nat) (l : List ArbReq) (b : Option ArbReq) (w : ArbReq),
      l.foldl (fun (b : Option ArbReq) w =>
        match b with
        | none => some w
        | some v => if g w < g v then some w else some v) b = some w →
      (w ∈ l ∨ b = some w) ∧ (∀ v ∈ l, g w ≤ g v) ∧ ∀ v, b = some v → g w ≤ g v := by
    intro g l
    induction l with
    | nil => intro b w h; simp at h; simp [h]
    | cons x l ih =>
      intro b w h
      rw [List.foldl_cons] at h
      obtain ⟨h1, h2, h3⟩ := ih _ _ h
      cases b with
      | none =>
        have hx := h3 x rfl
        refine ⟨?_, ?_, ?_⟩
        · rcases h1 with h1 | h1
          · exact .inl (List.mem_cons_of_mem _ h1)
          · injection h1 with h1; exact .inl (h1 ▸ List.mem_cons_self ..)
        · intro v hv
          rcases List.mem_cons.mp hv with rfl | hv
          · exact hx
          · exact h2 v hv
        · intro v hv; simp at hv
      | some y =>
        dsimp only at h1 h3
        split at h1 <;> split at h3 <;> try omega
        · have hx := h3 x rfl
          refine ⟨?_, ?_, ?_⟩
          · rcases h1 with h1 | h1
            · exact .inl (List.mem_cons_of_mem _ h1)
            · injection h1 with h1; exact .inl (h1 ▸ List.mem_cons_self ..)
          · intro v hv
            rcases List.mem_cons.mp hv with rfl | hv
            · exact hx
            · exact h2 v hv
          · intro v hv; injection hv with hv; subst hv; omega
        · have hy := h3 y rfl
          refine ⟨?_, ?_, ?_⟩
          · rcases h1 with h1 | h1
            · exact .inl (List.mem_cons_of_mem _ h1)
            · exact .inr h1
          · intro v hv
            rcases List.mem_cons.mp hv with rfl | hv
            · omega
            · exact h2 v hv
          · intro v hv; injection hv with hv; subst hv; exact hy
  unfold Dev.arbWinner at h
  dsimp only at h
  obtain ⟨h1, h2, _⟩ := best _ _ _ _ h
  rcases h1 with h1 | h1
  · obtain ⟨hm, hr⟩ := List.mem_filter.mp h1
    simp only [decide_eq_true_eq] at hr
    rw [← hr] at h2
    refine ⟨hm, fun v hv => hr ▸ (top a.waiting 0).2 v hv, fun v hv hvr => ?_⟩
    exact h2 v (List.mem_filter.mpr ⟨hv, by simpa using hvr⟩)
  · simp at h1

/-- Where a requester waits, there is a winner. -/
theorem Dev.arbWinner_isSome (d : Dev) (a : ArbInst) (h : a.waiting ≠ []) : ∃ w, d.arbWinner a = some w := by
  have keep : ∀ (g : ArbReq → Nat) (l : List ArbReq) (b : ArbReq), ∃ w, l.foldl (fun (b : Option ArbReq) w =>
        match b with
        | none => some w
        | some v => if g w < g v then some w else some v) (some b) = some w := by
    intro g l
    induction l with
    | nil => intro b; exact ⟨b, rfl⟩
    | cons x l ih => intro b; rw [List.foldl_cons]; dsimp only; split <;> exact ih _
  have att : ∀ (l : List ArbReq) (m : Nat), l.foldl (fun m w => max m (d.arbRank a.cls w.id)) m = m ∨
      ∃ v ∈ l, d.arbRank a.cls v.id = l.foldl (fun m w => max m (d.arbRank a.cls w.id)) m := by
    intro l
    induction l with
    | nil => intro m; exact .inl rfl
    | cons x l ih =>
      intro m
      rw [List.foldl_cons]
      rcases ih (max m (d.arbRank a.cls x.id)) with h | ⟨v, hv, he⟩
      · rcases Nat.le_total m (d.arbRank a.cls x.id) with hm | hm
        · exact .inr ⟨x, List.mem_cons_self .., by rw [h, Nat.max_eq_right hm]⟩
        · exact .inl (by rw [h, Nat.max_eq_left hm])
      · exact .inr ⟨v, List.mem_cons_of_mem _ hv, he⟩
  unfold Dev.arbWinner
  dsimp only
  have ne : (a.waiting.filter fun w => decide (d.arbRank a.cls w.id =
      a.waiting.foldl (fun m w => max m (d.arbRank a.cls w.id)) 0)) ≠ [] := by
    intro he
    rw [List.filter_eq_nil_iff] at he
    rcases att a.waiting 0 with h0 | ⟨v, hv, hr⟩
    · obtain ⟨x, l, hl⟩ := List.exists_cons_of_ne_nil h
      have hx : x ∈ a.waiting := hl ▸ List.mem_cons_self ..
      have := he x hx
      simp only [decide_eq_true_eq] at this
      have hle : d.arbRank a.cls x.id ≤ a.waiting.foldl (fun m w => max m (d.arbRank a.cls w.id)) 0 := by
        have top : ∀ (l : List ArbReq) (m : Nat), m ≤ l.foldl (fun m w => max m (d.arbRank a.cls w.id)) m ∧
            ∀ v ∈ l, d.arbRank a.cls v.id ≤ l.foldl (fun m w => max m (d.arbRank a.cls w.id)) m := by
          intro l
          induction l with
          | nil => intro m; simp
          | cons x l ih =>
            intro m
            obtain ⟨h1, h2⟩ := ih (max m (d.arbRank a.cls x.id))
            rw [List.foldl_cons]
            refine ⟨Nat.le_trans (Nat.le_max_left _ _) h1, fun v hv => ?_⟩
            rcases List.mem_cons.mp hv with rfl | hv
            · exact Nat.le_trans (Nat.le_max_right _ _) h1
            · exact h2 v hv
        exact (top a.waiting 0).2 x hx
      omega
    · exact he v hv (by simpa using hr)
  obtain ⟨x, l, hl⟩ := List.exists_cons_of_ne_nil ne
  rw [hl, List.foldl_cons]
  exact keep _ _ _

/-- Who waits at an arbiter once the arrivals have joined: those that waited, and each arrival that names a requester and
neither owns the resource nor waits already. -/
theorem Dev.arbJoin_waits (d : Dev) (cls inst : Nat) (arrivals : List (Nat × Bool)) (q : Nat) :
    (∃ x ∈ (d.arbJoin cls inst arrivals).waiting, x.id = q) ↔
      (q ∈ arrivals.map (·.1) ∧ q < arbRequesters cls ∧ (d.arbInst cls inst).owner ≠ some q) ∨
        ∃ x ∈ (d.arbInst cls inst).waiting, x.id = q := by
  unfold Dev.arbJoin
  dsimp only
  constructor
  · rintro ⟨x, hx, rfl⟩
    rcases List.mem_append.mp hx with hx | hx
    · exact .inr ⟨x, hx, rfl⟩
    · obtain ⟨q, hq, rfl⟩ := List.mem_map.mp hx
      rw [List.mem_dedup, List.mem_filter] at hq
      simp only [Bool.and_eq_true, decide_eq_true_eq] at hq
      exact .inl ⟨hq.1, hq.2.1.1, hq.2.1.2⟩
  · rintro (⟨h1, h2, h3⟩ | ⟨x, hx, rfl⟩)
    · by_cases h : ∃ x ∈ (d.arbInst cls inst).waiting, x.id = q
      · obtain ⟨x, hx, he⟩ := h
        exact ⟨x, List.mem_append_left _ hx, he⟩
      · refine ⟨{ id := q, write := arrivals.contains (q, true), since := d.now }, List.mem_append_right _ (List.mem_map.mpr ⟨q, ?_, rfl⟩), rfl⟩
        rw [List.mem_dedup, List.mem_filter]
        simp only [Bool.and_eq_true, decide_eq_true_eq, List.all_eq_true]
        exact ⟨h1, ⟨h2, h3⟩, fun x hx he => h ⟨x, hx, he⟩⟩
    · exact ⟨x, List.mem_append_left _ hx, rfl⟩

/-- Everything that a grant of a free resource does (R235, R239). -/
theorem Dev.arbiterGrant_free (d : Dev) {cls inst : Nat} (arrivals : List (Nat × Bool)) {w : ArbReq} (hi : inst < arbInstances cls)
    (ho : (d.arbInst cls inst).owner = none) (hw : d.arbWinner (d.arbJoin cls inst arrivals) = some w) :
    d.arbiterGrant cls inst arrivals =
      (d.setInst (d.arbGranted (d.arbJoin cls inst arrivals) w)).countGrant cls inst w.id (d.now - w.since) := by
  have ho' : (d.arbJoin cls inst arrivals).owner = none := ho
  simp [Dev.arbiterGrant, Nat.not_le.mpr hi, ho', hw]

/-- An owned resource is not granted (R235). -/
theorem Dev.arbiterGrant_owned (d : Dev) {cls inst q : Nat} (arrivals : List (Nat × Bool)) (hi : inst < arbInstances cls)
    (ho : (d.arbInst cls inst).owner = some q) :
    d.arbiterGrant cls inst arrivals = d.setInst (d.arbJoin cls inst arrivals) := by
  have ho' : (d.arbJoin cls inst arrivals).owner = some q := ho
  simp [Dev.arbiterGrant, Nat.not_le.mpr hi, ho']

theorem Dev.arbInst_congr {d d' : Dev} (h : d'.arb.insts = d.arb.insts) (cls inst : Nat) :
    d'.arbInst cls inst = d.arbInst cls inst := by
  unfold Dev.arbInst; rw [h]

end Sys2Proof.Machine
end

