-- ==== Sys2Proof/Laws/Dispatch.lean ====
section
/-! SUPPORT. The arms of `exec`, one equation each, so that no proof unfolds the dispatch. -/

namespace Sys2Proof.Machine

@[simp] theorem exec_registerWrite (off size : Nat) (data : List Byte) (s : State) : exec (.registerWrite off size data) s = execRegisterWrite off size data s := rfl
@[simp] theorem exec_frameTick (s : State) : exec .frameTick s = execFrameTick s := rfl
@[simp] theorem exec_ratioWindowEnd (m : RatioMeas) (s : State) : exec (.ratioWindowEnd m) s = execRatioWindowEnd m s := rfl
@[simp] theorem exec_planeForward (s : State) : exec .planeForward s = execPlaneForward s := rfl
@[simp] theorem exec_planeTransposed (s : State) : exec .planeTransposed s = execPlaneTransposed s := rfl
@[simp] theorem exec_planeProgram (s : State) : exec .planeProgram s = execPlaneProgram s := rfl
@[simp] theorem exec_stepUnit (transfer : Transfer) (s : State) : exec (.stepUnit transfer) s = execStepUnit transfer s := rfl
@[simp] theorem exec_correctionPass (s : State) : exec .correctionPass s = execCorrectionPass s := rfl
@[simp] theorem exec_operationTailEnd (mismatch : Bool) (s : State) : exec (.operationTailEnd mismatch) s = execOperationTailEnd mismatch s := rfl
@[simp] theorem exec_planeSave (s : State) : exec .planeSave s = execPlaneSave s := rfl
@[simp] theorem exec_planeResume (s : State) : exec .planeResume s = execPlaneResume s := rfl
@[simp] theorem exec_programRoundStart (die : Nat) (s : State) : exec (.programRoundStart die) s = execProgramRoundStart die s := rfl
@[simp] theorem exec_programRoundEnd (die : Nat) (s : State) : exec (.programRoundEnd die) s = execProgramRoundEnd die s := rfl
@[simp] theorem exec_reAttach (s : State) : exec .reAttach s = execReAttach s := rfl
@[simp] theorem exec_enduranceWindowStart (s : State) : exec .enduranceWindowStart s = execEnduranceWindowStart s := rfl
@[simp] theorem exec_plnTileSelect (v : Word) (s : State) : exec (.plnTileSelect v) s = execPlnTileSelect v s := rfl
@[simp] theorem exec_auditRun (s : State) : exec .auditRun s = execAuditRun s := rfl
@[simp] theorem exec_confirmationFiring (s : State) : exec .confirmationFiring s = execConfirmationFiring s := rfl
@[simp] theorem exec_wideProduct (s : State) : exec .wideProduct s = execWideProduct s := rfl
@[simp] theorem exec_wideReduction (s : State) : exec .wideReduction s = execWideReduction s := rfl
@[simp] theorem exec_chunkPass (mismatch : Bool) (s : State) : exec (.chunkPass mismatch) s = execChunkPass mismatch s := rfl
@[simp] theorem exec_tileDrain (s : State) : exec .tileDrain s = execTileDrain s := rfl
@[simp] theorem exec_adapterTerm (s : State) : exec .adapterTerm s = execAdapterTerm s := rfl
@[simp] theorem exec_wideSave (s : State) : exec .wideSave s = execWideSave s := rfl
@[simp] theorem exec_wideResume (s : State) : exec .wideResume s = execWideResume s := rfl
@[simp] theorem exec_attentionForward (s : State) : exec .attentionForward s = execAttentionForward s := rfl
@[simp] theorem exec_attentionBackward (s : State) : exec .attentionBackward s = execAttentionBackward s := rfl
@[simp] theorem exec_pageArrival (s : State) : exec .pageArrival s = execPageArrival s := rfl
@[simp] theorem exec_attentionSave (s : State) : exec .attentionSave s = execAttentionSave s := rfl
@[simp] theorem exec_quarantineEnd (frame : Nat) (s : State) : exec (.quarantineEnd frame) s = execQuarantineEnd frame s := rfl
@[simp] theorem exec_walkComplete (cls index space va : Nat) (write : Bool) (s : State) : exec (.walkComplete cls index space va write) s = execWalkComplete cls index space va write s := rfl
@[simp] theorem exec_faultResume (slot : Nat) (s : State) : exec (.faultResume slot) s = execFaultResume slot s := rfl
@[simp] theorem exec_faultFail (slot status : Nat) (s : State) : exec (.faultFail slot status) s = execFaultFail slot status s := rfl
@[simp] theorem exec_faultTimeout (slot : Nat) (s : State) : exec (.faultTimeout slot) s = execFaultTimeout slot s := rfl
@[simp] theorem exec_invalidateAll (s : State) : exec .invalidateAll s = execInvalidateAll s := rfl
@[simp] theorem exec_invalidateSpace (sp : Nat) (s : State) : exec (.invalidateSpace sp) s = execInvalidateSpace sp s := rfl
@[simp] theorem exec_invalidateRange (sp base pages : Nat) (s : State) : exec (.invalidateRange sp base pages) s = execInvalidateRange sp base pages s := rfl
@[simp] theorem exec_invalidateKvSpace (sp : Nat) (s : State) : exec (.invalidateKvSpace sp) s = execInvalidateKvSpace sp s := rfl
@[simp] theorem exec_invalidateKvAll (s : State) : exec .invalidateKvAll s = execInvalidateKvAll s := rfl
@[simp] theorem exec_invalidationComplete (s : State) : exec .invalidationComplete s = execInvalidationComplete s := rfl
@[simp] theorem exec_mmuFaultRead (v : Word) (s : State) : exec (.mmuFaultRead v) s = execMmuFaultRead v s := rfl
@[simp] theorem exec_bar2Access (write : Bool) (off len : Nat) (data : List Byte) (s : State) : exec (.bar2Access write off len data) s = execBar2Access write off len data s := rfl
@[simp] theorem exec_dmaCopy (s : State) : exec .dmaCopy s = execDmaCopy s := rfl
@[simp] theorem exec_dmaFill (s : State) : exec .dmaFill s = execDmaFill s := rfl
@[simp] theorem exec_checkUnitAcquire (e : Nat) (s : State) : exec (.checkUnitAcquire e) s = execCheckUnitAcquire e s := rfl
@[simp] theorem exec_transferUnit (e : Nat) (s : State) : exec (.transferUnit e) s = execTransferUnit e s := rfl
@[simp] theorem exec_hostAccess (e : Nat) (s : State) : exec (.hostAccess e) s = execHostAccess e s := rfl
@[simp] theorem exec_dmaSave (e : Nat) (s : State) : exec (.dmaSave e) s = execDmaSave e s := rfl
@[simp] theorem exec_arbiterGrant (cls inst : Nat) (arrivals : List (Nat × Bool)) (s : State) : exec (.arbiterGrant cls inst arrivals) s = execArbiterGrant cls inst arrivals s := rfl
@[simp] theorem exec_burstLimitExpiry (cls inst : Nat) (s : State) : exec (.burstLimitExpiry cls inst) s = execBurstLimitExpiry cls inst s := rfl
@[simp] theorem exec_requestDrop (cls inst req : Nat) (s : State) : exec (.requestDrop cls inst req) s = execRequestDrop cls inst req s := rfl
@[simp] theorem exec_arbSelect (v : Word) (s : State) : exec (.arbSelect v) s = execArbSelect v s := rfl
@[simp] theorem exec_arbClearAll (s : State) : exec .arbClearAll s = execArbClearAll s := rfl
@[simp] theorem exec_arbClearSelected (s : State) : exec .arbClearSelected s = execArbClearSelected s := rfl
@[simp] theorem exec_doorbellWrite (m size : Nat) (v : Word) (s : State) : exec (.doorbellWrite m size v) s = execDoorbellWrite m size v s := rfl
@[simp] theorem exec_commandTake (s : State) : exec .commandTake s = execCommandTake s := rfl
@[simp] theorem exec_mbxCqHead (m : Nat) (v : Word) (s : State) : exec (.mbxCqHead m v) s = execMbxCqHead m v s := rfl
@[simp] theorem exec_mbxCtrl (m : Nat) (v : Word) (s : State) : exec (.mbxCtrl m v) s = execMbxCtrl m v s := rfl
@[simp] theorem exec_hello (h : CmdHdr) (minV maxV : Nat) (resetSeq : Bool) (seqBase hostId : Nat) (s : State) : exec (.hello h minV maxV resetSeq seqBase hostId) s = execHello h minV maxV resetSeq seqBase hostId s := rfl
@[simp] theorem exec_identify (h : CmdHdr) (buffer : Nat) (s : State) : exec (.identify h buffer) s = execIdentify h buffer s := rfl
@[simp] theorem exec_configRead (h : CmdHdr) (buffer bytes : Nat) (s : State) : exec (.configRead h buffer bytes) s = execConfigRead h buffer bytes s := rfl
@[simp] theorem exec_configWrite (h : CmdHdr) (source bytes : Nat) (persist : Bool) (s : State) : exec (.configWrite h source bytes persist) s = execConfigWrite h source bytes persist s := rfl
@[simp] theorem exec_resetWarm (h : CmdHdr) (s : State) : exec (.resetWarm h) s = execResetWarm h s := rfl
@[simp] theorem exec_warmReset (s : State) : exec .warmReset s = execWarmReset s := rfl
@[simp] theorem exec_spaceSet (h : CmdHdr) (space : Nat) (enable : Bool) (s : State) : exec (.spaceSet h space enable) s = execSpaceSet h space enable s := rfl
@[simp] theorem exec_map (h : CmdHdr) (space memory pageSize : Nat) (write kv : Bool) (va bytes hostBase : Nat) (s : State) : exec (.map h space memory pageSize write kv va bytes hostBase) s = execMap h space memory pageSize write kv va bytes hostBase s := rfl
@[simp] theorem exec_unmap (h : CmdHdr) (space va bytes : Nat) (s : State) : exec (.unmap h space va bytes) s = execUnmap h space va bytes s := rfl
@[simp] theorem exec_calibrate (h : CmdHdr) (first pass count : Nat) (s : State) : exec (.calibrate h first pass count) s = execCalibrate h first pass count s := rfl
@[simp] theorem exec_referenceSet (h : CmdHdr) (enable : Bool) (s : State) : exec (.referenceSet h enable) s = execReferenceSet h enable s := rfl
@[simp] theorem exec_fwStage (h : CmdHdr) (source bytes component : Nat) (s : State) : exec (.fwStage h source bytes component) s = execFwStage h source bytes component s := rfl
@[simp] theorem exec_fwActivate (h : CmdHdr) (s : State) : exec (.fwActivate h) s = execFwActivate h s := rfl
@[simp] theorem exec_fwRecovery (h : CmdHdr) (s : State) : exec (.fwRecovery h) s = execFwRecovery h s := rfl
@[simp] theorem exec_fabricForm (h : CmdHdr) (acceptSwap : Bool) (s : State) : exec (.fabricForm h acceptSwap) s = execFabricForm h acceptSwap s := rfl
@[simp] theorem exec_fabricCut (h : CmdHdr) (cx cy cz : Nat) (s : State) : exec (.fabricCut h cx cy cz) s = execFabricCut h cx cy cz s := rfl
@[simp] theorem exec_editionSwitch (h : CmdHdr) (edition : Nat) (s : State) : exec (.editionSwitch h edition) s = execEditionSwitch h edition s := rfl
@[simp] theorem exec_editionRelease (h : CmdHdr) (edition : Nat) (s : State) : exec (.editionRelease h edition) s = execEditionRelease h edition s := rfl
@[simp] theorem exec_graphLoad (h : CmdHdr) (slot space descriptor : Nat) (s : State) : exec (.graphLoad h slot space descriptor) s = execGraphLoad h slot space descriptor s := rfl
@[simp] theorem exec_graphRun (h : CmdHdr) (slot : Nat) (s : State) : exec (.graphRun h slot) s = execGraphRun h slot s := rfl
@[simp] theorem exec_graphCancel (h : CmdHdr) (slot : Nat) (s : State) : exec (.graphCancel h slot) s = execGraphCancel h slot s := rfl
@[simp] theorem exec_graphUnload (h : CmdHdr) (slot : Nat) (s : State) : exec (.graphUnload h slot) s = execGraphUnload h slot s := rfl
@[simp] theorem exec_requestAdmit (h : CmdHdr) (b : AdmitBody) (s : State) : exec (.requestAdmit h b) s = execRequestAdmit h b s := rfl
@[simp] theorem exec_requestRetire (h : CmdHdr) (id : Nat) (s : State) : exec (.requestRetire h id) s = execRequestRetire h id s := rfl
@[simp] theorem exec_retireEffect (id : Nat) (s : State) : exec (.retireEffect id) s = execRetireEffect id s := rfl
@[simp] theorem exec_adapterLoad (h : CmdHdr) (id memory source bytes : Nat) (s : State) : exec (.adapterLoad h id memory source bytes) s = execAdapterLoad h id memory source bytes s := rfl
@[simp] theorem exec_adapterUnload (h : CmdHdr) (id : Nat) (s : State) : exec (.adapterUnload h id) s = execAdapterUnload h id s := rfl
@[simp] theorem exec_nop (h : CmdHdr) (s : State) : exec (.nop h) s = execNop h s := rfl
@[simp] theorem exec_bootRom (selftest : Bool) (s : State) : exec (.bootRom selftest) s = execBootRom selftest s := rfl
@[simp] theorem exec_enterFw (s : State) : exec .enterFw s = execEnterFw s := rfl
@[simp] theorem exec_storeCheck (s : State) : exec .storeCheck s = execStoreCheck s := rfl
@[simp] theorem exec_earlyLinkRequest (port : Nat) (p : Packet) (s : State) : exec (.earlyLinkRequest port p) s = execEarlyLinkRequest port p s := rfl
@[simp] theorem exec_taskIssue (s : State) : exec .taskIssue s = execTaskIssue s := rfl
@[simp] theorem exec_taskComplete (s : State) : exec .taskComplete s = execTaskComplete s := rfl
@[simp] theorem exec_pipTaskStart (s : State) : exec .pipTaskStart s = execPipTaskStart s := rfl
@[simp] theorem exec_pipCoreExit (core result : Nat) (accesses : List (Nat × Option Byte)) (s : State) : exec (.pipCoreExit core result accesses) s = execPipCoreExit core result accesses s := rfl
@[simp] theorem exec_pipException (core : Nat) (s : State) : exec (.pipException core) s = execPipException core s := rfl
@[simp] theorem exec_pipQuantumEnd (core : Nat) (s : State) : exec (.pipQuantumEnd core) s = execPipQuantumEnd core s := rfl
@[simp] theorem exec_graphComplete (slot : Nat) (s : State) : exec (.graphComplete slot) s = execGraphComplete slot s := rfl
@[simp] theorem exec_graphOverrun (slot : Nat) (s : State) : exec (.graphOverrun slot) s = execGraphOverrun slot s := rfl
@[simp] theorem exec_frameLimit (slot : Nat) (s : State) : exec (.frameLimit slot) s = execFrameLimit slot s := rfl
@[simp] theorem exec_grfFrameRequest (v : Word) (s : State) : exec (.grfFrameRequest v) s = execGrfFrameRequest v s := rfl
@[simp] theorem exec_stepCompose (s : State) : exec .stepCompose s = execStepCompose s := rfl
@[simp] theorem exec_runStart (template : Nat) (s : State) : exec (.runStart template) s = execRunStart template s := rfl
@[simp] theorem exec_handoffReceive (p : Packet) (s : State) : exec (.handoffReceive p) s = execHandoffReceive p s := rfl
@[simp] theorem exec_sampleAndVerify (s : State) : exec .sampleAndVerify s = execSampleAndVerify s := rfl
@[simp] theorem exec_draft (s : State) : exec .draft s = execDraft s := rfl
@[simp] theorem exec_token (p : Packet) (s : State) : exec (.token p) s = execToken p s := rfl
@[simp] theorem exec_rollback (p : Packet) (s : State) : exec (.rollback p) s = execRollback p s := rfl
@[simp] theorem exec_tierWindowEnd (s : State) : exec .tierWindowEnd s = execTierWindowEnd s := rfl
@[simp] theorem exec_passPendingDecade (tile : Nat) (s : State) : exec (.passPendingDecade tile) s = execPassPendingDecade tile s := rfl
@[simp] theorem exec_passPendingTrackPeriod (tile : Nat) (s : State) : exec (.passPendingTrackPeriod tile) s = execPassPendingTrackPeriod tile s := rfl
@[simp] theorem exec_passPendingFinePeriod (tile : Nat) (s : State) : exec (.passPendingFinePeriod tile) s = execPassPendingFinePeriod tile s := rfl
@[simp] theorem exec_passStart (die : Nat) (s : State) : exec (.passStart die) s = execPassStart die s := rfl
@[simp] theorem exec_calibrationStep (s : State) : exec .calibrationStep s = execCalibrationStep s := rfl
@[simp] theorem exec_passMeasurementEnd (tile : Nat) (r : PassReading) (s : State) : exec (.passMeasurementEnd tile r) s = execPassMeasurementEnd tile r s := rfl
@[simp] theorem exec_calTileSelect (v : Word) (s : State) : exec (.calTileSelect v) s = execCalTileSelect v s := rfl
@[simp] theorem exec_portTraining (port lanes : Nat) (s : State) : exec (.portTraining port lanes) s = execPortTraining port lanes s := rfl
@[simp] theorem exec_portRetrain (port lanes : Nat) (s : State) : exec (.portRetrain port lanes) s = execPortRetrain port lanes s := rfl
@[simp] theorem exec_linkHello (port : Nat) (p : PeerHello) (s : State) : exec (.linkHello port p) s = execLinkHello port p s := rfl
@[simp] theorem exec_planCheckTimeout (port : Nat) (s : State) : exec (.planCheckTimeout port) s = execPlanCheckTimeout port s := rfl
@[simp] theorem exec_planReport (r : Report) (s : State) : exec (.planReport r) s = execPlanReport r s := rfl
@[simp] theorem exec_form (p : Packet) (s : State) : exec (.form p) s = execForm p s := rfl
@[simp] theorem exec_flitReceive (port : Nat) (bytes : List Byte) (s : State) : exec (.flitReceive port bytes) s = execFlitReceive port bytes s := rfl
@[simp] theorem exec_linkFailure (port half : Nat) (s : State) : exec (.linkFailure port half) s = execLinkFailure port half s := rfl
@[simp] theorem exec_packetReceive (p : Packet) (s : State) : exec (.packetReceive p) s = execPacketReceive p s := rfl
@[simp] theorem exec_e2eAck (src channel : Nat) (s : State) : exec (.e2eAck src channel) s = execE2eAck src channel s := rfl
@[simp] theorem exec_e2eReplay (dst channel : Nat) (s : State) : exec (.e2eReplay dst channel) s = execE2eReplay dst channel s := rfl
@[simp] theorem exec_retryAfter (dst channel seq hint : Nat) (s : State) : exec (.retryAfter dst channel seq hint) s = execRetryAfter dst channel seq hint s := rfl
@[simp] theorem exec_lost (dst channel seq status : Nat) (s : State) : exec (.lost dst channel seq status) s = execLost dst channel seq status s := rfl
@[simp] theorem exec_syncExchange (port : Nat) (t1 t2 t3 t4 : Nat) (s : State) : exec (.syncExchange port t1 t2 t3 t4) s = execSyncExchange port t1 t2 t3 t4 s := rfl
@[simp] theorem exec_deviceSilentCut (device : Nat) (s : State) : exec (.deviceSilentCut device) s = execDeviceSilentCut device s := rfl
@[simp] theorem exec_allReduce (s : State) : exec .allReduce s = execAllReduce s := rfl
@[simp] theorem exec_reduceScatter (s : State) : exec .reduceScatter s = execReduceScatter s := rfl
@[simp] theorem exec_allGather (s : State) : exec .allGather s = execAllGather s := rfl
@[simp] theorem exec_broadcast (s : State) : exec .broadcast s = execBroadcast s := rfl
@[simp] theorem exec_send (s : State) : exec .send s = execSend s := rfl
@[simp] theorem exec_receive (s : State) : exec .receive s = execReceive s := rfl
@[simp] theorem exec_relay (s : State) : exec .relay s = execRelay s := rfl
@[simp] theorem exec_relayUnit (s : State) : exec .relayUnit s = execRelayUnit s := rfl
@[simp] theorem exec_collectiveTimeout (s : State) : exec .collectiveTimeout s = execCollectiveTimeout s := rfl
@[simp] theorem exec_abort (p : Packet) (s : State) : exec (.abort p) s = execAbort p s := rfl
@[simp] theorem exec_digestSlice (s : State) : exec .digestSlice s = execDigestSlice s := rfl
@[simp] theorem exec_digestReport (r : DigestRep) (s : State) : exec (.digestReport r) s = execDigestReport r s := rfl
@[simp] theorem exec_expel (p : Packet) (s : State) : exec (.expel p) s = execExpel p s := rfl
@[simp] theorem exec_lnkPeerSelect (v : Word) (s : State) : exec (.lnkPeerSelect v) s = execLnkPeerSelect v s := rfl
@[simp] theorem exec_deviceError (s : State) : exec .deviceError s = execDeviceError s := rfl
@[simp] theorem exec_cperRingWrite (s : State) : exec .cperRingWrite s = execCperRingWrite s := rfl
@[simp] theorem exec_evrRestart (v : Word) (s : State) : exec (.evrRestart v) s = execEvrRestart v s := rfl
@[simp] theorem exec_evrCperHead (v : Word) (s : State) : exec (.evrCperHead v) s = execEvrCperHead v s := rfl
@[simp] theorem exec_evrCperCtrl (v : Word) (s : State) : exec (.evrCperCtrl v) s = execEvrCperCtrl v s := rfl
@[simp] theorem exec_crcFeedB (n : Nat) (v : Word) (s : State) : exec (.crcFeedB n v) s = execCrcFeedB n v s := rfl
@[simp] theorem exec_crcFeedH (n : Nat) (v : Word) (s : State) : exec (.crcFeedH n v) s = execCrcFeedH n v s := rfl
@[simp] theorem exec_crcFeedW (n : Nat) (v : Word) (s : State) : exec (.crcFeedW n v) s = execCrcFeedW n v s := rfl
@[simp] theorem exec_crcRestart (n : Nat) (s : State) : exec (.crcRestart n) s = execCrcRestart n s := rfl
@[simp] theorem exec_crcValueLo (n : Nat) (v : Word) (s : State) : exec (.crcValueLo n v) s = execCrcValueLo n v s := rfl
@[simp] theorem exec_crcValueHi (n : Nat) (v : Word) (s : State) : exec (.crcValueHi n v) s = execCrcValueHi n v s := rfl
@[simp] theorem exec_pauseTick (s : State) : exec .pauseTick s = execPauseTick s := rfl
@[simp] theorem exec_swapEnd (s : State) : exec .swapEnd s = execSwapEnd s := rfl
@[simp] theorem exec_resumeTick (s : State) : exec .resumeTick s = execResumeTick s := rfl
@[simp] theorem exec_fwConfirm (s : State) : exec .fwConfirm s = execFwConfirm s := rfl
@[simp] theorem exec_confirmationWindowEnd (s : State) : exec .confirmationWindowEnd s = execConfirmationWindowEnd s := rfl
@[simp] theorem exec_getVersion (s : State) : exec .getVersion s = execGetVersion s := rfl
@[simp] theorem exec_getCapabilities (s : State) : exec .getCapabilities s = execGetCapabilities s := rfl
@[simp] theorem exec_negotiateAlgorithms (s : State) : exec .negotiateAlgorithms s = execNegotiateAlgorithms s := rfl
@[simp] theorem exec_getDigests (s : State) : exec .getDigests s = execGetDigests s := rfl
@[simp] theorem exec_getCertificate (offset length : Nat) (s : State) : exec (.getCertificate offset length) s = execGetCertificate offset length s := rfl
@[simp] theorem exec_challenge (nonce : List Byte) (s : State) : exec (.challenge nonce) s = execChallenge nonce s := rfl
@[simp] theorem exec_getMeasurements (nonce : List Byte) (index : Nat) (s : State) : exec (.getMeasurements nonce index) s = execGetMeasurements nonce index s := rfl
@[simp] theorem exec_eraseNonce (s : State) : exec .eraseNonce s = execEraseNonce s := rfl
@[simp] theorem exec_eraseNonceExpiry (s : State) : exec .eraseNonceExpiry s = execEraseNonceExpiry s := rfl
@[simp] theorem exec_eraseWeights (sig : List Byte) (s : State) : exec (.eraseWeights sig) s = execEraseWeights sig s := rfl
@[simp] theorem exec_jtagUnlock (token : List Byte) (s : State) : exec (.jtagUnlock token) s = execJtagUnlock token s := rfl
@[simp] theorem exec_hubFwSelect (v : Word) (s : State) : exec (.hubFwSelect v) s = execHubFwSelect v s := rfl
@[simp] theorem exec_hubSecCounterSelect (v : Word) (s : State) : exec (.hubSecCounterSelect v) s = execHubSecCounterSelect v s := rfl
@[simp] theorem exec_srvRequestSelect (v : Word) (s : State) : exec (.srvRequestSelect v) s = execSrvRequestSelect v s := rfl
@[simp] theorem exec_sequenceEntryDue (n : Nat) (s : State) : exec (.sequenceEntryDue n) s = execSequenceEntryDue n s := rfl
@[simp] theorem exec_conversionComplete (n : Nat) (samples : List Nat) (s : State) : exec (.conversionComplete n samples) s = execConversionComplete n samples s := rfl
@[simp] theorem exec_openWireTest (n u d : Nat) (s : State) : exec (.openWireTest n u d) s = execOpenWireTest n u d s := rfl
@[simp] theorem exec_urgentConversion (v : Word) (s : State) : exec (.urgentConversion v) s = execUrgentConversion v s := rfl
@[simp] theorem exec_urgentDone (conv code : Nat) (s : State) : exec (.urgentDone conv code) s = execUrgentDone conv code s := rfl
@[simp] theorem exec_testDac (v : Word) (s : State) : exec (.testDac v) s = execTestDac v s := rfl
@[simp] theorem exec_sensorSample (n : Nat) (reading : Option Int) (s : State) : exec (.sensorSample n reading) s = execSensorSample n reading s := rfl
@[simp] theorem exec_thermalShutdown (n : Nat) (reading : Int) (s : State) : exec (.thermalShutdown n reading) s = execThermalShutdown n reading s := rfl
@[simp] theorem exec_governorPeriod (s : State) : exec .governorPeriod s = execGovernorPeriod s := rfl
@[simp] theorem exec_pwrOff (hi : Bool) (v : Word) (s : State) : exec (.pwrOff hi v) s = execPwrOff hi v s := rfl
@[simp] theorem exec_domainSwitchOff (n : Nat) (s : State) : exec (.domainSwitchOff n) s = execDomainSwitchOff n s := rfl
@[simp] theorem exec_domainOn (n : Nat) (s : State) : exec (.domainOn n) s = execDomainOn n s := rfl
@[simp] theorem exec_telemetryRefresh (s : State) : exec .telemetryRefresh s = execTelemetryRefresh s := rfl
@[simp] theorem exec_powerUp (s : State) : exec .powerUp s = execPowerUp s := rfl
@[simp] theorem exec_powerFail (s : State) : exec .powerFail s = execPowerFail s := rfl
@[simp] theorem exec_perstAssert (s : State) : exec .perstAssert s = execPerstAssert s := rfl
@[simp] theorem exec_moduleRstAssert (s : State) : exec .moduleRstAssert s = execModuleRstAssert s := rfl
@[simp] theorem exec_resetDeassert (straps : BitVec 9) (recovery : Bool) (s : State) : exec (.resetDeassert straps recovery) s = execResetDeassert straps recovery s := rfl
@[simp] theorem exec_shutdownLatchClear (s : State) : exec .shutdownLatchClear s = execShutdownLatchClear s := rfl
@[simp] theorem exec_getTelemetry (piece : Nat) (s : State) : exec (.getTelemetry piece) s = execGetTelemetry piece s := rfl
@[simp] theorem exec_getCper (index : Nat) (s : State) : exec (.getCper index) s = execGetCper index s := rfl
@[simp] theorem exec_setBoardLimit (w : Nat) (s : State) : exec (.setBoardLimit w) s = execSetBoardLimit w s := rfl
@[simp] theorem exec_getShutdown (s : State) : exec .getShutdown s = execGetShutdown s := rfl
@[simp] theorem exec_getIdentity (s : State) : exec .getIdentity s = execGetIdentity s := rfl
@[simp] theorem exec_attentionResume (s : State) : exec .attentionResume s = execAttentionResume s := rfl
@[simp] theorem exec_dmaResume (e : Nat) (s : State) : exec (.dmaResume e) s = execDmaResume e s := rfl
@[simp] theorem exec_lowHalfRead (off : Nat) (s : State) : exec (.lowHalfRead off) s = execLowHalfRead off s := rfl

/-- A step on a queue that holds a command. -/
theorem step_cons {s : State} {c : Instr} {rest : List Instr} (h : s.pending = c :: rest) :
    step s = exec c { s with pending := rest } := by simp [step, h]

/-- A step on an empty queue. -/
theorem step_nil {s : State} (h : s.pending = []) : step s = .next { s with dev := { s.dev with now := s.dev.now + 1 } } := by
  simp [step, h]

end Sys2Proof.Machine
end

