-- ==== Sys2Proof/Laws/Memory.lean ====
section
/-! SUPPORT. Memory: what is read after a write, and the canonical form, which every memory operation keeps. -/

namespace Sys2Proof.Machine

/-! ## Reads after writes -/

@[simp] theorem memGet_memPut_same (m : List Host.Cell) (a : Nat) (b : Byte) : memGet (memPut m a b) a = b := by
  unfold memPut
  split
  · next h => simp [memGet, h]
  · simp [memGet]

theorem memGet_memPut_other (m : List Host.Cell) {a a' : Nat} (b : Byte) (h : a' ≠ a) :
    memGet (memPut m a b) a' = memGet m a' := by
  unfold memPut
  split
  · rw [memGet, look_del_other _ h, memGet]
  · rw [memGet, look_put_other _ _ h, memGet]

/-- A store leaves every byte outside it alone. -/
theorem memGet_memStore_other (l : List Byte) (m : List Host.Cell) {a a' : Nat} (h : a' < a ∨ a + l.length ≤ a') :
    memGet (memStore m a l) a' = memGet m a' := by
  induction l generalizing m a with
  | nil => rfl
  | cons b l ih =>
    simp only [List.length_cons] at h
    rw [memStore, ih _ (by omega), memGet_memPut_other _ _ (by omega)]

/-- A byte of a store is read back. -/
theorem memGet_memStore (l : List Byte) (m : List Host.Cell) (a i : Nat) (h : i < l.length) :
    memGet (memStore m a l) (a + i) = l[i] := by
  induction l generalizing m a i with
  | nil => simp at h
  | cons b l ih =>
    rw [memStore]
    cases i with
    | zero =>
      rw [memGet_memStore_other _ _ (by omega)]
      simp
    | succ i =>
      have := ih (memPut m a b) (a + 1) i (by simpa using h)
      rw [show a + (i + 1) = a + 1 + i by omega, this]
      simp

@[simp] theorem memLoad_length (m : List Host.Cell) (a n : Nat) : (memLoad m a n).length = n := by
  induction n generalizing a with
  | zero => rfl
  | succ n ih => simp [memLoad, ih]

theorem memLoad_congr {m m' : List Host.Cell} {a n : Nat} (h : ∀ i, i < n → memGet m' (a + i) = memGet m (a + i)) :
    memLoad m' a n = memLoad m a n := by
  induction n generalizing a with
  | zero => rfl
  | succ n ih =>
    have h0 := h 0 (by omega)
    simp only [Nat.add_zero] at h0
    rw [memLoad, memLoad, h0, ih]
    intro i hi
    have := h (i + 1) (by omega)
    rwa [show a + 1 + i = a + (i + 1) by omega]

/-- What was stored is read back. -/
@[simp] theorem memLoad_memStore (m : List Host.Cell) (a : Nat) (l : List Byte) :
    memLoad (memStore m a l) a l.length = l := by
  induction l generalizing m a with
  | nil => rfl
  | cons b l ih =>
    rw [memStore, List.length_cons, memLoad, ih, memGet_memStore_other _ _ (by omega)]
    simp

/-! ## The canonical form -/

/-- Every address of `m` lies above `a`. -/
theorem memWf_cons {a : Nat} {b : Byte} {m : List Host.Cell} :
    memWf ((a, b) :: m) = true ↔ b ≠ unlisted ∧ memWf m = true ∧ ∀ c ∈ m, a < c.1 := by
  induction m generalizing a b with
  | nil => simp [memWf]
  | cons c l ih =>
    obtain ⟨a', b'⟩ := c
    constructor
    · intro h
      simp only [memWf, Bool.and_eq_true, decide_eq_true_eq] at h
      obtain ⟨⟨h1, h2⟩, h3⟩ := h
      refine ⟨h2, h3, ?_⟩
      have := ih.mp h3
      intro c hc
      rcases List.mem_cons.mp hc with rfl | hc
      · exact h1
      · exact Nat.lt_trans h1 (this.2.2 c hc)
    · rintro ⟨h1, h2, h3⟩
      simp only [memWf, Bool.and_eq_true, decide_eq_true_eq]
      exact ⟨⟨h3 _ (List.mem_cons_self ..), h1⟩, h2⟩

theorem del_sub {α : Type} {l : List (Nat × α)} {k : Nat} {c : Nat × α} (h : c ∈ del l k) : c ∈ l := by
  induction l with
  | nil => simp [del] at h
  | cons x l ih =>
    obtain ⟨k', v⟩ := x
    simp only [del] at h
    split at h
    · exact List.mem_cons_of_mem _ (ih h)
    · rcases List.mem_cons.mp h with rfl | h
      · exact List.mem_cons_self ..
      · exact List.mem_cons_of_mem _ (ih h)

theorem put_sub {α : Type} {l : List (Nat × α)} {k : Nat} {v : α} {c : Nat × α} (h : c ∈ put l k v) :
    c = (k, v) ∨ c ∈ l := by
  induction l with
  | nil => simpa [put] using h
  | cons x l ih =>
    obtain ⟨k', v'⟩ := x
    simp only [put] at h
    split at h
    · rcases List.mem_cons.mp h with h | h
      · exact .inl h
      · exact .inr h
    · split at h
      · rcases List.mem_cons.mp h with h | h
        · exact .inl h
        · exact .inr (List.mem_cons_of_mem _ h)
      · rcases List.mem_cons.mp h with h | h
        · exact .inr (h ▸ List.mem_cons_self ..)
        · rcases ih h with h | h
          · exact .inl h
          · exact .inr (List.mem_cons_of_mem _ h)

theorem memWf_del {m : List Host.Cell} (a : Nat) (h : memWf m = true) : memWf (del m a) = true := by
  induction m with
  | nil => rfl
  | cons c l ih =>
    obtain ⟨a', b'⟩ := c
    obtain ⟨h1, h2, h3⟩ := memWf_cons.mp h
    simp only [del]
    split
    · exact ih h2
    · exact memWf_cons.mpr ⟨h1, ih h2, fun c hc => h3 c (del_sub hc)⟩

theorem memWf_put {m : List Host.Cell} (a : Nat) {b : Byte} (hb : b ≠ unlisted) (h : memWf m = true) :
    memWf (put m a b) = true := by
  induction m with
  | nil => simp [put, memWf, hb]
  | cons c l ih =>
    obtain ⟨a', b'⟩ := c
    obtain ⟨h1, h2, h3⟩ := memWf_cons.mp h
    simp only [put]
    split
    · next hlt =>
      refine memWf_cons.mpr ⟨hb, h, fun c hc => ?_⟩
      rcases List.mem_cons.mp hc with rfl | hc
      · exact hlt
      · exact Nat.lt_trans hlt (h3 c hc)
    · split
      · next heq => subst heq; exact memWf_cons.mpr ⟨hb, h2, h3⟩
      · next hlt hne =>
        refine memWf_cons.mpr ⟨h1, ih h2, fun c hc => ?_⟩
        rcases put_sub hc with rfl | hc
        · show a' < a; omega
        · exact h3 c hc

/-- One byte written keeps the form. -/
theorem memWf_memPut {m : List Host.Cell} (a : Nat) (b : Byte) (h : memWf m = true) : memWf (memPut m a b) = true := by
  unfold memPut
  split
  · exact memWf_del a h
  · next hb => exact memWf_put a hb h

/-- A store keeps the form. -/
theorem memWf_memStore {m : List Host.Cell} (a : Nat) (l : List Byte) (h : memWf m = true) :
    memWf (memStore m a l) = true := by
  induction l generalizing m a with
  | nil => exact h
  | cons b l ih => exact ih _ (memWf_memPut a b h)

/-- Every entry of a canonical memory differs from what an unlisted address reads as, and so does one that a filter keeps. -/
theorem memWf_filter {m : List Host.Cell} (p : Host.Cell → Bool) (h : memWf m = true) : memWf (m.filter p) = true := by
  induction m with
  | nil => rfl
  | cons c m ih =>
    obtain ⟨h1, h2, h3⟩ := memWf_cons.mp h
    by_cases hp : p c = true
    · rw [List.filter_cons_of_pos hp]
      exact memWf_cons.mpr ⟨h1, ih h2, fun x hx => h3 x (List.mem_filter.mp hx).1⟩
    · rw [List.filter_cons_of_neg hp]
      exact ih h2

theorem memWf_memZero {m : List Host.Cell} (a n : Nat) (h : memWf m = true) : memWf (memZero m a n) = true :=
  memWf_filter _ h


/-- Two memories in the form that read alike are the same list. -/
theorem memWf_ext {m m' : List Host.Cell} (h : memWf m = true) (h' : memWf m' = true)
    (e : ∀ a, memGet m a = memGet m' a) : m = m' := by
  have out : ∀ {l : List Host.Cell} {a : Nat}, (∀ c ∈ l, a < c.1) → memGet l a = unlisted := by
    intro l a hl
    induction l with
    | nil => rfl
    | cons c l ih =>
      obtain ⟨k, v⟩ := c
      have hk : ¬ k = a := by have := hl (k, v) (List.mem_cons_self ..); intro he; simp only [he] at this; omega
      have := ih fun c hc => hl c (List.mem_cons_of_mem _ hc)
      simpa [memGet, look, hk] using this
  induction m generalizing m' with
  | nil =>
    cases m' with
    | nil => rfl
    | cons c l =>
      obtain ⟨k, v⟩ := c
      have := e k
      simp [memGet, look] at this
      exact absurd this.symm (memWf_cons.mp h').1
  | cons c l ih =>
    obtain ⟨k, v⟩ := c
    cases m' with
    | nil =>
      have := e k
      simp [memGet, look] at this
      exact absurd this (memWf_cons.mp h).1
    | cons c' l' =>
      obtain ⟨k', v'⟩ := c'
      obtain ⟨h1, h2, h3⟩ := memWf_cons.mp h
      obtain ⟨h1', h2', h3'⟩ := memWf_cons.mp h'
      rcases Nat.lt_trichotomy k k' with hk | hk | hk
      · have e1 := e k
        have e2 : memGet ((k', v') :: l') k = unlisted := out fun c hc => by
          rcases List.mem_cons.mp hc with rfl | hc
          · exact hk
          · exact Nat.lt_trans hk (h3' c hc)
        rw [e2] at e1
        simp [memGet, look] at e1
        exact absurd e1 h1
      · subst hk
        have hv : v = v' := by simpa [memGet, look] using e k
        subst hv
        rw [ih h2 h2']
        intro a
        by_cases ha : k = a
        · subst ha; rw [out h3, out h3']
        · simpa [memGet, look, ha] using e a
      · have e1 := e k'
        have e2 : memGet ((k, v) :: l) k' = unlisted := out fun c hc => by
          rcases List.mem_cons.mp hc with rfl | hc
          · exact hk
          · exact Nat.lt_trans hk (h3 c hc)
        rw [e2] at e1
        simp [memGet, look] at e1
        exact absurd e1.symm h1'

/-! ## The device's memory operations -/

/-- Storing at a physical address keeps the form (R399). -/
theorem Dev.writePa_wf {d : Dev} (pa : Nat) (l : List Byte) (h : memWf d.mem = true) :
    memWf (d.writePa pa l).mem = true := by
  have fix : ∀ (ws : List Nat) (m : List Host.Cell), memWf m = true →
      memWf (ws.foldl (fun m w =>
        match rsDecode (d.storedWord w) with
        | .good => memStore m (32 * w) ((d.storedWord w).take 32)
        | .corrected _ v => memStore m (32 * w) (v.take 32)
        | .bad => m) m) = true := by
    intro ws
    induction ws with
    | nil => intro m hm; exact hm
    | cons w ws ih =>
      intro m hm
      rw [List.foldl_cons]
      apply ih
      split
      · exact memWf_memStore _ _ hm
      · exact memWf_memStore _ _ hm
      · exact hm
  exact memWf_memStore _ _ (fix _ _ h)

/-- With no stored error, a store changes the bytes stored and nothing else. -/
theorem Dev.writePa_clean {d : Dev} (pa : Nat) (l : List Byte) (h : d.upsets = []) :
    d.writePa pa l = { d with mem := memStore d.mem pa l } := by
  simp [Dev.writePa, Dev.badWords, h]

/-- With no stored error, no write meets an uncorrectable word. -/
@[simp] theorem Dev.partBad_clean {d : Dev} (pa n : Nat) (h : d.upsets = []) : d.partBad pa n = [] := by
  simp [Dev.partBad, Dev.badWords, h]

/-- With no stored error, a checked read gives the bytes and changes nothing. -/
theorem Dev.readPa_clean {d : Dev} (r : Reader) (pa n : Nat) (h : d.upsets = []) :
    d.readPa r pa n = (some (memLoad d.mem pa n), d) := by
  simp [Dev.readPa, Dev.checkPa, Dev.badWords, h]

/-- Everything that a write to host memory can do: nothing where it ends in error, and otherwise a store (R224). -/
theorem Dev.writeHost_cases (d : Dev) (a : Nat) (l : List Byte) :
    d.writeHost a l = none ∨ d.writeHost a l = some { d with host := memStore d.host a l } := by
  unfold Dev.writeHost
  split <;> simp

/-- A write to host memory keeps its form. -/
theorem Dev.writeHost_wf {d d' : Dev} {a : Nat} {l : List Byte} (hw : d.writeHost a l = some d')
    (h : memWf d.host = true) : memWf d'.host = true := by
  rcases d.writeHost_cases a l with e | e
  · simp [e] at hw
  · rw [e] at hw
    injection hw with hw
    subst hw
    exact memWf_memStore _ _ h

/-- A post to a ring keeps the form of host memory (R269). -/
theorem Dev.postHost_wf {d : Dev} (a : Nat) (l : List Byte) (h : memWf d.host = true) :
    memWf (d.postHost a l).host = true := by
  unfold Dev.postHost
  split
  · next hw => exact Dev.writeHost_wf hw h
  · simpa using h

/-- Reset memory and reset host memory have the form. -/
theorem reset_wf : memWf State.reset.dev.mem = true ∧ memWf State.reset.dev.host = true := ⟨rfl, rfl⟩

end Sys2Proof.Machine
end

