-- ==== Sys2Proof/Laws/Graphs.lean ====
section
/-! SUPPORT. What notices, completions, ends of requests and failures of graphs leave alone: device memory and everything
that no graph, request, mailbox or link holds. -/

namespace Sys2Proof.Machine

/-- `d'` differs from `d` at most in what graphs, requests, mailboxes, units' tasks, fault records, links, the recorder,
host memory, the ratio windows and the SRV_, LNK_ and EVR_ registers hold; the records of logical tiles stand. -/
structure Dev.Kept (d d' : Dev) : Prop where
  now : d'.now = d.now
  fresh : d'.fresh = d.fresh
  bring : d'.bring = d.bring
  holdReason : d'.holdReason = d.holdReason
  since : d'.since = d.since
  shadow : d'.shadow = d.shadow
  latched : d'.latched = d.latched
  mem : d'.mem = d.mem
  upsets : d'.upsets = d.upsets
  logical : d'.pln.logical = d.pln.logical
  cur : d'.cur = d.cur
  cal : d'.cal = d.cal
  arb : d'.arb = d.arb
  hka : d'.hka = d.hka
  thm : d'.thm = d.thm
  pwr : d'.pwr = d.pwr
  reg : ∀ o, o / 0x10000 ≠ 11 → o / 0x10000 ≠ 12 → o / 0x10000 ≠ 13 → d'.reg o = d.reg o

theorem Dev.Kept.refl (d : Dev) : d.Kept d := by constructor <;> intros <;> rfl

theorem Dev.Kept.trans {a b c : Dev} (h : a.Kept b) (k : b.Kept c) : a.Kept c where
  now := k.now.trans h.now
  fresh := k.fresh.trans h.fresh
  bring := k.bring.trans h.bring
  holdReason := k.holdReason.trans h.holdReason
  since := k.since.trans h.since
  shadow := k.shadow.trans h.shadow
  latched := k.latched.trans h.latched
  mem := k.mem.trans h.mem
  upsets := k.upsets.trans h.upsets
  logical := k.logical.trans h.logical
  cur := k.cur.trans h.cur
  cal := k.cal.trans h.cal
  arb := k.arb.trans h.arb
  hka := k.hka.trans h.hka
  thm := k.thm.trans h.thm
  pwr := k.pwr.trans h.pwr
  reg := fun o a b c => (k.reg o a b c).trans (h.reg o a b c)

/-- A fold of steps that each keep these things keeps them. -/
theorem Dev.Kept.foldl {α : Type} {f : Dev → α → Dev} (hf : ∀ (d : Dev) (a : α), d.Kept (f d a)) (l : List α) (d : Dev) :
    d.Kept (l.foldl f d) := by
  induction l generalizing d with
  | nil => exact .refl d
  | cons a l ih => exact (hf d a).trans (ih _)

/-! ## Registers and events -/

/-- The register lies in a block that failures of graphs write. -/
def graphBlock (o : Nat) : Prop := o / 0x10000 = 11 ∨ o / 0x10000 = 12 ∨ o / 0x10000 = 13

theorem Dev.kept_setReg (d : Dev) {o : Nat} (v : Nat) (h : graphBlock o) : d.Kept (d.setReg o v) := by
  constructor <;> try rfl
  intro o' h1 h2 h3
  apply d.reg_setReg_other
  rintro rfl
  rcases h with h | h | h <;> contradiction

theorem Dev.kept_setFld (d : Dev) {o : Nat} (hi lo v : Nat) (h : graphBlock o) : d.Kept (d.setFld o hi lo v) :=
  d.kept_setReg _ h

theorem Dev.kept_setBit (d : Dev) {o : Nat} (b : Nat) (h : graphBlock o) : d.Kept (d.setBit o b) := d.kept_setReg _ h

theorem Dev.kept_bump (d : Dev) {o : Nat} (n : Nat) (h : graphBlock o) : d.Kept (d.bump o n) := d.kept_setReg _ h

theorem Dev.kept_bump64 (d : Dev) {o : Nat} (n : Nat) (h : graphBlock o) (h' : graphBlock (o + 4)) : d.Kept (d.bump64 o n) :=
  (d.kept_setReg _ h).trans (Dev.kept_setReg _ _ h')

theorem Dev.kept_vector (d : Dev) (n : Nat) : d.Kept (d.vector n) := by constructor <;> intros <;> rfl

theorem Dev.kept_event (d : Dev) (c : Nat) (e : EventRec) : d.Kept (d.event c e) := by
  unfold Dev.event
  split
  · dsimp only
    split
    · exact .trans (by constructor <;> intros <;> rfl) (Dev.kept_vector _ _)
    · constructor <;> intros <;> rfl
  · exact (d.kept_bump _ (.inr (.inr rfl))).trans (Dev.kept_setBit _ _ (.inr (.inr rfl)))

/-! ## Host memory, mailboxes and requests -/

theorem Dev.kept_postHost (d : Dev) (a : Nat) (l : List Byte) : d.Kept (d.postHost a l) := by
  unfold Dev.postHost
  rcases d.writeHost_cases a l with h | h <;> rw [h]
  · exact d.kept_event _ _
  · constructor <;> intros <;> rfl

theorem Dev.kept_modBox (d : Dev) (m : Nat) (f : Mailbox → Mailbox) : d.Kept (d.modBox m f) := by
  constructor <;> intros <;> rfl

theorem Dev.kept_postRecord (d : Dev) (m : Nat) (l : List Byte) : d.Kept (d.postRecord m l) := by
  unfold Dev.postRecord
  dsimp only
  split
  · exact .refl d
  · split
    · exact (d.kept_modBox _ _).trans (Dev.kept_vector _ _)
    · exact ((d.kept_postHost _ _).trans (Dev.kept_modBox _ _ _)).trans (Dev.kept_vector _ _)

theorem Dev.kept_respond (d : Dev) (h : CmdHdr) (status result : Nat) : d.Kept (d.respond h status result) := by
  unfold Dev.respond
  dsimp only
  split
  · exact d.kept_modBox _ _
  · exact d.kept_postRecord _ _

/-- A command's completion writes its journal entry, its mailbox and its record, and nothing of the device's memory. -/
theorem Dev.kept_complete (d : Dev) (h : CmdHdr) (status result : Nat) : d.Kept (d.complete h status result) := by
  unfold Dev.complete
  dsimp only
  have k : d.Kept (({ d with mbx := { d.mbx with
      journal := d.mbx.journal.map fun (e : JournalRec) =>
        if e.j = h.j then { e with done := true, completedAt := d.now, status := status } else e
      openCmds := d.mbx.openCmds.filter fun c => decide (c.j ≠ h.j) } } : Dev).modBox h.mbx fun b =>
        { b with outstanding := b.outstanding - 1 }) := by constructor <;> intros <;> rfl
  split
  · exact k
  · exact k.trans (Dev.kept_respond _ _ _ _)

theorem Dev.kept_modRequest (d : Dev) (id : Nat) (f : Request → Request) : d.Kept (d.modRequest id f) := by
  constructor <;> intros <;> rfl

theorem Dev.kept_ringWrite (d : Dev) (id : Nat) (recs : List (List Byte)) : d.Kept (d.ringWrite id recs) := by
  have some_step : ∀ (a : Nat) (l : List Byte) (x d' : Dev), x.writeHost a l = some d' → x.Kept d' := by
    intro a l x d' h
    rcases x.writeHost_cases a l with e | e <;> rw [e] at h
    · simp at h
    · injection h with h; subst h; constructor <;> intros <;> rfl
  have fold : ∀ (r : Request) (l : List (List Byte)) (x : Option Dev × Nat) (d' : Dev),
      (l.foldl (fun (x : Option Dev × Nat) rec =>
        (x.1.bind fun d => d.writeHost (r.ring + 64 + 32 * (x.2 % r.ringEntries)) rec, x.2 + 1)) x).1 = some d' →
      ∃ d0, x.1 = some d0 ∧ d0.Kept d' := by
    intro r l
    induction l with
    | nil => intro x d' h; exact ⟨d', h, .refl _⟩
    | cons a l ih =>
      intro x d' h
      obtain ⟨d1, h1, k1⟩ := ih _ d' h
      cases hx : x.1 with
      | none => simp [hx] at h1
      | some d0 =>
        simp only [hx, Option.bind_some] at h1
        exact ⟨d0, rfl, (some_step _ _ _ _ h1).trans k1⟩
  unfold Dev.ringWrite
  split
  · exact .refl d
  · next r hr =>
    split
    · exact .refl d
    · dsimp only
      split
      · exact (d.kept_event _ _).trans (Dev.kept_modRequest _ _ _)
      · next d' hd =>
        cases hg : (recs.foldl (fun (x : Option Dev × Nat) rec =>
            (x.1.bind fun d => d.writeHost (r.ring + 64 + 32 * (x.2 % r.ringEntries)) rec, x.2 + 1))
            (some d, r.ringTail)).1 with
        | none => rw [hg] at hd; simp at hd
        | some d1 =>
          rw [hg] at hd
          obtain ⟨d0, h0, k0⟩ := fold r recs _ d1 hg
          injection h0 with h0
          subst h0
          have k := k0.trans (some_step _ _ _ _ hd)
          split
          · exact k.trans (Dev.kept_modRequest _ _ _)
          · refine k.trans ?_
            constructor <;> intros <;> rfl

/-- A request's end writes its record and nothing of the device's memory. -/
theorem Dev.kept_endRequest (d : Dev) (id reason status : Nat) : d.Kept (d.endRequest id reason status) := by
  unfold Dev.endRequest
  split
  · exact .refl d
  · split
    · exact .refl d
    · exact (d.kept_modRequest _ _).trans (Dev.kept_ringWrite _ _ _)

/-! ## Links -/

theorem Dev.dimensionPort_lt (d : Dev) {id dst p : Nat} (h : d.dimensionPort id dst = some p) : p < 6 := by
  unfold Dev.dimensionPort at h
  obtain ⟨a, ha, h⟩ := List.exists_of_findSome?_eq_some h
  have ha : a < 3 := List.mem_range.mp ha
  dsimp only at h
  split at h
  · simp at h
  · split at h <;> (injection h with h; omega)

theorem Dev.route_lt (d : Dev) {dst p : Nat} (h : d.route dst = some p) : p < 6 := by
  unfold Dev.route at h
  dsimp only at h
  split at h
  · simp at h
  · split at h
    · exact d.dimensionPort_lt h
    · split at h
      · simp at h
      · exact List.mem_range.mp (List.mem_of_find?_eq_some h)

theorem Dev.physPort_lt (d : Dev) {p : Nat} (h : p < 6) : d.physPort p < 6 := by
  unfold Dev.physPort otherPort
  split
  · split <;> omega
  · exact h

theorem Dev.kept_modPort (d : Dev) (p : Nat) (f : Port → Port) : d.Kept (d.modPort p f) := by
  constructor <;> intros <;> rfl

theorem Dev.kept_measure (d : Dev) (f : Hub → Hub) : d.Kept (d.measure f) := by
  unfold Dev.measure
  split
  · constructor <;> intros <;> rfl
  · exact .refl d

theorem Dev.kept_pumpPort (d : Dev) {p : Nat} (h : p < 6) : d.Kept (d.pumpPort p) := by
  unfold Dev.pumpPort
  dsimp only
  split
  · exact .refl d
  · have a : (Off.lnkPortTxLo + 0x40 * p) / 0x10000 = 12 := by unfold Off.lnkPortTxLo; omega
    have b : (Off.lnkPortTxLo + 0x40 * p + 4) / 0x10000 = 12 := by unfold Off.lnkPortTxLo; omega
    exact ((d.kept_modPort _ _).trans (Dev.kept_bump64 _ _ (.inr (.inl a)) (.inr (.inl b)))).trans
      (Dev.kept_measure _ _)

theorem Dev.kept_transmit (d : Dev) (p : Packet) : d.Kept (d.transmit p) := by
  unfold Dev.transmit
  split
  · exact .refl d
  · next port h =>
    exact (d.kept_modPort _ _).trans (Dev.kept_pumpPort _ (d.physPort_lt (d.route_lt h)))

theorem Dev.kept_sendPacket (d : Dev) (p : Packet) : d.Kept (d.sendPacket p) := by
  unfold Dev.sendPacket Dev.sendOrHold
  dsimp only
  split
  · constructor <;> intros <;> rfl
  · exact .trans (by constructor <;> intros <;> rfl) (Dev.kept_transmit _ _)

theorem Dev.kept_notice (d : Dev) (dst type tag : Nat) (l : List Byte) : d.Kept (d.notice dst type tag l) :=
  d.kept_sendPacket _

/-- A notice to every other device touches the links alone. -/
theorem Dev.kept_noticeAll (d : Dev) (type tag : Nat) (l : List Byte) : d.Kept (d.noticeAll type tag l) :=
  .foldl (fun d _ => d.kept_notice _ _ _ _) _ d

/-! ## Graphs -/

theorem Dev.kept_modSlot (d : Dev) (i : Nat) (f : GraphSlot → GraphSlot) : d.Kept (d.modSlot i f) := by
  constructor <;> intros <;> rfl

theorem Dev.kept_setTask (d : Dev) (slot task : Nat) (st : TaskSt) : d.Kept (d.setTask slot task st) := d.kept_modSlot _ _

theorem Dev.kept_endTask (d : Dev) (slot task flags : Nat) : d.Kept (d.endTask slot task flags) := d.kept_modSlot _ _

theorem Dev.kept_finishRun (d : Dev) (slot status : Nat) : d.Kept (d.finishRun slot status) := by
  unfold Dev.finishRun
  dsimp only
  refine .trans ?_ (Dev.kept_modSlot _ _ _)
  have k : d.Kept (match (d.slot slot).cmd with
      | some h => d.complete h status (d.slot slot).result
      | none => d) := by
    split
    · exact d.kept_complete _ _ _
    · exact .refl d
  split
  · exact k.trans (Dev.kept_complete _ _ _ _)
  · exact k

theorem Dev.kept_abortColls (d : Dev) (slot status : Nat) : d.Kept (d.abortColls slot status) := by
  refine .foldl (fun d c => ?_) _ d
  have k := (d.kept_bump (o := Off.lnkCollAborts) 1 (.inr (.inl rfl))).trans
    (Dev.kept_setBit _ (o := Off.lnkStatus) 6 (.inr (.inl rfl)))
  exact k.trans (Dev.Kept.foldl (fun d m => d.kept_notice _ _ _ _) _ _)

theorem Dev.kept_discardTasks (d : Dev) (slot : Nat) : d.Kept (d.discardTasks slot) := by
  unfold Dev.discardTasks
  dsimp only
  refine .trans (.foldl (fun d t => ?_) _ d) (by constructor <;> intros <;> rfl)
  constructor <;> intros <;> rfl

theorem Dev.kept_resolveFault (d : Dev) (slot outcome status : Nat) : d.Kept (d.resolveFault slot outcome status) := by
  unfold Dev.resolveFault
  split
  · exact .refl d
  · split
    · constructor <;> intros <;> rfl
    · exact .refl d

theorem Dev.kept_closeFaults (d : Dev) (slot status : Nat) : d.Kept (d.closeFaults slot status) :=
  .foldl (fun d _ => d.kept_resolveFault _ _ _) _ d

/-- Changes held back take effect in the tiles alone; with none held, nothing changes (R86, R90). -/
theorem Dev.applyHeld_none (d : Dev) (ls : List Nat) (h : ∀ l t, d.log l = some t → t.held = []) : d.applyHeld ls = d := by
  unfold Dev.applyHeld
  dsimp only
  rw [if_pos]
  rw [List.flatMap_eq_nil_iff]
  intro l _
  split
  · next t ht => split <;> simp [h l t ht]
  · rfl

/-- A failing graph of no template leaves device memory and all that no graph holds as they are, where its operations held
back no change of a tile (R90, R230). -/
theorem Dev.kept_failGraph (d : Dev) (slot status arg2 : Nat) (hq : ∀ l t, d.log l = some t → t.held = [])
    (ht : (d.slot slot).template = none) : d.Kept (d.failGraph slot status arg2) := by
  have k0 := (d.kept_abortColls slot status).trans (Dev.kept_discardTasks _ slot)
  have hn : ((d.abortColls slot status).discardTasks slot).applyHeld (d.tilesNamed slot) =
      (d.abortColls slot status).discardTasks slot :=
    Dev.applyHeld_none _ _ fun l t h => hq l t (by rw [← h]; unfold Dev.log; rw [k0.logical])
  have k := k0.trans ((Dev.kept_closeFaults _ slot status).trans (Dev.kept_event _ 0x0A80
    { status := status, graph := slot, arg0 := slot, arg1 := (d.slot slot).label, arg2 := arg2 }))
  unfold Dev.failGraph
  dsimp only
  rw [hn, ht]
  split
  · exact .refl d
  · dsimp only
    generalize Dev.event _ _ _ = e at k ⊢
    split
    · exact k.trans (Dev.kept_modSlot _ _ _)
    · exact k.trans (Dev.kept_finishRun _ _ _)

end Sys2Proof.Machine
end

