-- ==== Sys2Proof/WellFormed.lean ====
section
/-! DEFINITION. Well-formed commands: every operand within the range that the manual gives the number it stands for. The
meanings are total on every command; a command that is not well-formed names a unit the device does not have. -/

namespace Sys2Proof

/-- The header's fields fit their widths and the mailbox exists (R244, R251). -/
def CmdHdr.wf (h : CmdHdr) : Bool :=
  decide (h.mbx < 17) && decide (h.version < 256) && decide (h.seq < 2 ^ 32) && decide (h.hostTs < 2 ^ 64) &&
  decide (h.bodyBytes < 2 ^ 32) && decide (h.tag < 2 ^ 32)

/-- The packet's fields fit their widths, and its payload is whole words, at most 4,096 bytes (R365). -/
def Packet.wf (p : Packet) : Bool :=
  decide (p.dst < 2 ^ 16) && decide (p.src < 2 ^ 16) && decide (1 ≤ p.channel) && decide (p.channel ≤ 4) &&
  decide (p.seq < 2 ^ 32) && decide (p.payload.length ≤ 4096) && decide (p.payload.length % 32 = 0)

/-- The body's fields fit their widths (R257). -/
def AdmitBody.wf (b : AdmitBody) : Bool :=
  decide (b.id < 2 ^ 32) && decide (b.adapter < 2 ^ 32) && decide (b.maxTokens < 2 ^ 32) && decide (b.seed < 2 ^ 64) &&
  decide (b.ring < 2 ^ 64) && decide (b.ringEntries < 2 ^ 32) && decide (b.promptTokens < 2 ^ 32) &&
  decide (b.prompt < 2 ^ 64) && decide (b.sampling < 2 ^ 64) && decide (b.pfx < 2 ^ 32)

/-- Every trim of the kinds lies within its range. -/
def trimsIn (l : List Int) (n : Nat) (low high : Int) : Bool :=
  decide (l.length = n) && l.all fun x => decide (low ≤ x) && decide (x ≤ high)

/-- The trims that a pass measured have the counts and ranges of R160; a gain may lie beyond the range of R101, which the pass
finds. -/
def PassReading.wf (r : PassReading) : Bool :=
  trimsIn r.trims.thresholds 1040 (-128) 128 && decide (r.trims.gains.length = 1032) &&
  trimsIn r.trims.offsets 1032 (-512) 512 && trimsIn r.trims.delays 2048 0 31 && trimsIn r.trims.amplitudes 2048 (-32) 32

/-- The command is well-formed. -/
def Instr.wf : Instr → Bool
  | .registerWrite _ _ _ => true
  | .frameTick => true
  | .ratioWindowEnd _ => true
  | .planeForward => true
  | .planeTransposed => true
  | .planeProgram => true
  | .stepUnit _ => true
  | .correctionPass => true
  | .operationTailEnd _ => true
  | .planeSave => true
  | .planeResume => true
  | .programRoundStart die => decide (die < 4)
  | .programRoundEnd die => decide (die < 4)
  | .reAttach => true
  | .enduranceWindowStart => true
  | .plnTileSelect _ => true
  | .auditRun => true
  | .confirmationFiring => true
  | .wideProduct => true
  | .wideReduction => true
  | .chunkPass _ => true
  | .tileDrain => true
  | .adapterTerm => true
  | .wideSave => true
  | .wideResume => true
  | .attentionForward => true
  | .attentionBackward => true
  | .pageArrival => true
  | .attentionSave => true
  | .quarantineEnd _ => true
  | .walkComplete cls _ space _ _ => decide (1 ≤ cls) && decide (cls ≤ 9) && decide (space < 16)
  | .faultResume slot => decide (slot < 256)
  | .faultFail slot status => decide (slot < 256) && decide (status < 65536)
  | .faultTimeout slot => decide (slot < 256)
  | .invalidateAll => true
  | .invalidateSpace sp => decide (sp < 16)
  | .invalidateRange sp _ _ => decide (sp < 16)
  | .invalidateKvSpace sp => decide (sp < 16)
  | .invalidateKvAll => true
  | .invalidationComplete => true
  | .mmuFaultRead _ => true
  | .bar2Access _ _ _ _ => true
  | .dmaCopy => true
  | .dmaFill => true
  | .checkUnitAcquire e => decide (e < 16)
  | .transferUnit e => decide (e < 16)
  | .hostAccess e => decide (e < 16)
  | .dmaSave e => decide (e < 16)
  | .arbiterGrant cls inst _ => decide (cls < 4) && decide (inst < 128)
  | .burstLimitExpiry cls inst => decide (cls < 4) && decide (inst < 128)
  | .requestDrop cls inst req => decide (cls < 4) && decide (inst < 128) && decide (req < 32)
  | .arbSelect _ => true
  | .arbClearAll => true
  | .arbClearSelected => true
  | .doorbellWrite m _ _ => decide (m < 17)
  | .commandTake => true
  | .mbxCqHead m _ => decide (m < 17)
  | .mbxCtrl m _ => decide (m < 17)
  | .hello h _ _ _ _ _ => h.wf
  | .identify h _ => h.wf
  | .configRead h _ _ => h.wf
  | .configWrite h _ _ _ => h.wf
  | .resetWarm h => h.wf
  | .warmReset => true
  | .spaceSet h space _ => h.wf && decide (space < 16)
  | .map h space _ _ _ _ _ _ _ => h.wf && decide (space < 16)
  | .unmap h space _ _ => h.wf && decide (space < 16)
  | .calibrate h _ _ _ => h.wf
  | .referenceSet h _ => h.wf
  | .fwStage h _ _ component => h.wf && decide (component < 256)
  | .fwActivate h => h.wf
  | .fwRecovery h => h.wf
  | .fabricForm h _ => h.wf
  | .fabricCut h _ _ _ => h.wf
  | .editionSwitch h _ => h.wf
  | .editionRelease h _ => h.wf
  | .graphLoad h slot space _ => h.wf && decide (slot < 16) && decide (space < 16)
  | .graphRun h slot => h.wf && decide (slot < 16)
  | .graphCancel h slot => h.wf && decide (slot < 16)
  | .graphUnload h slot => h.wf && decide (slot < 16)
  | .requestAdmit h b => h.wf && b.wf
  | .requestRetire h _ => h.wf
  | .retireEffect _ => true
  | .adapterLoad h _ _ _ _ => h.wf
  | .adapterUnload h _ => h.wf
  | .nop h => h.wf
  | .bootRom _ => true
  | .enterFw => true
  | .storeCheck => true
  | .earlyLinkRequest port p => decide (port < 6) && p.wf
  | .taskIssue => true
  | .taskComplete => true
  | .pipTaskStart => true
  | .pipCoreExit core _ _ => decide (core < 128)
  | .pipException core => decide (core < 128)
  | .pipQuantumEnd core => decide (core < 128)
  | .graphComplete slot => decide (slot < 16)
  | .graphOverrun slot => decide (slot < 16)
  | .frameLimit slot => decide (slot < 16)
  | .grfFrameRequest _ => true
  | .stepCompose => true
  | .runStart template => decide (template < 4)
  | .handoffReceive p => p.wf
  | .sampleAndVerify => true
  | .draft => true
  | .token p => p.wf
  | .rollback p => p.wf
  | .tierWindowEnd => true
  | .passPendingDecade tile => decide (tile < 32768) && decide (tile % 8192 < 6336)
  | .passPendingTrackPeriod tile => decide (tile < 32768) && decide (tile % 8192 < 6336)
  | .passPendingFinePeriod tile => decide (tile < 32768) && decide (tile % 8192 < 6336)
  | .passStart die => decide (die < 4)
  | .calibrationStep => true
  | .passMeasurementEnd tile r => decide (tile < 32768) && decide (tile % 8192 < 6336) && r.wf
  | .calTileSelect _ => true
  | .portTraining port lanes => decide (port < 6) && decide (lanes ≤ 8)
  | .portRetrain port lanes => decide (port < 6) && decide (lanes ≤ 8)
  | .linkHello port _ => decide (port < 6)
  | .planCheckTimeout port => decide (port < 6)
  | .planReport _ => true
  | .form p => p.wf
  | .flitReceive port _ => decide (port < 6)
  | .linkFailure port half => decide (port < 6) && decide (half < 3)
  | .packetReceive p => p.wf
  | .e2eAck src channel => decide (src < 65536) && decide (1 ≤ channel) && decide (channel ≤ 4)
  | .e2eReplay dst channel => decide (dst < 65536) && decide (1 ≤ channel) && decide (channel ≤ 4)
  | .retryAfter dst channel seq _ => decide (dst < 65536) && decide (1 ≤ channel) && decide (channel ≤ 4) && decide (seq < 4294967296)
  | .lost dst channel seq status => decide (dst < 65536) && decide (1 ≤ channel) && decide (channel ≤ 4) && decide (seq < 4294967296) && decide (status < 65536)
  | .syncExchange port _ _ _ _ => decide (port < 6)
  | .deviceSilentCut device => decide (device < 65536)
  | .allReduce => true
  | .reduceScatter => true
  | .allGather => true
  | .broadcast => true
  | .send => true
  | .receive => true
  | .relay => true
  | .relayUnit => true
  | .collectiveTimeout => true
  | .abort p => p.wf
  | .digestSlice => true
  | .digestReport _ => true
  | .expel p => p.wf
  | .lnkPeerSelect _ => true
  | .deviceError => true
  | .cperRingWrite => true
  | .evrRestart _ => true
  | .evrCperHead _ => true
  | .evrCperCtrl _ => true
  | .crcFeedB n _ => decide (n < 8)
  | .crcFeedH n _ => decide (n < 8)
  | .crcFeedW n _ => decide (n < 8)
  | .crcRestart n => decide (n < 8)
  | .crcValueLo n _ => decide (n < 8)
  | .crcValueHi n _ => decide (n < 8)
  | .pauseTick => true
  | .swapEnd => true
  | .resumeTick => true
  | .fwConfirm => true
  | .confirmationWindowEnd => true
  | .getVersion => true
  | .getCapabilities => true
  | .negotiateAlgorithms => true
  | .getDigests => true
  | .getCertificate _ _ => true
  | .challenge _ => true
  | .getMeasurements _ _ => true
  | .eraseNonce => true
  | .eraseNonceExpiry => true
  | .eraseWeights _ => true
  | .jtagUnlock _ => true
  | .hubFwSelect _ => true
  | .hubSecCounterSelect _ => true
  | .srvRequestSelect _ => true
  | .sequenceEntryDue n => decide (n < 32)
  | .conversionComplete n _ => decide (n < 32)
  | .openWireTest n _ _ => decide (n < 32)
  | .urgentConversion _ => true
  | .urgentDone conv code => decide (conv < 2) && decide (code < 4096)
  | .testDac _ => true
  | .sensorSample n _ => decide (n < 72)
  | .thermalShutdown n _ => decide (n < 72)
  | .governorPeriod => true
  | .pwrOff _ _ => true
  | .domainSwitchOff n => decide (n < 50)
  | .domainOn n => decide (n < 50)
  | .telemetryRefresh => true
  | .powerUp => true
  | .powerFail => true
  | .perstAssert => true
  | .moduleRstAssert => true
  | .resetDeassert _ _ => true
  | .shutdownLatchClear => true
  | .getTelemetry _ => true
  | .getCper _ => true
  | .setBoardLimit _ => true
  | .getShutdown => true
  | .getIdentity => true
  | .attentionResume => true
  | .dmaResume e => decide (e < 16)
  | .lowHalfRead _ => true

end Sys2Proof
end

