-- ==== Sys2Proof/Laws/PerInstr.lean ====
section
/-! SUPPORT. What a well-formed command's operands name: its header, its packet and the units it numbers, one lemma for each
command. -/

namespace Sys2Proof.Laws.Operands

/-- The header of a CCI command (R251). -/
def header : Instr → Option CmdHdr
  | .registerWrite _ _ _ => none
  | .frameTick => none
  | .ratioWindowEnd _ => none
  | .planeForward => none
  | .planeTransposed => none
  | .planeProgram => none
  | .stepUnit _ => none
  | .correctionPass => none
  | .operationTailEnd _ => none
  | .planeSave => none
  | .planeResume => none
  | .programRoundStart _ => none
  | .programRoundEnd _ => none
  | .reAttach => none
  | .enduranceWindowStart => none
  | .plnTileSelect _ => none
  | .auditRun => none
  | .confirmationFiring => none
  | .wideProduct => none
  | .wideReduction => none
  | .chunkPass _ => none
  | .tileDrain => none
  | .adapterTerm => none
  | .wideSave => none
  | .wideResume => none
  | .attentionForward => none
  | .attentionBackward => none
  | .pageArrival => none
  | .attentionSave => none
  | .quarantineEnd _ => none
  | .walkComplete _ _ _ _ _ => none
  | .faultResume _ => none
  | .faultFail _ _ => none
  | .faultTimeout _ => none
  | .invalidateAll => none
  | .invalidateSpace _ => none
  | .invalidateRange _ _ _ => none
  | .invalidateKvSpace _ => none
  | .invalidateKvAll => none
  | .invalidationComplete => none
  | .mmuFaultRead _ => none
  | .bar2Access _ _ _ _ => none
  | .dmaCopy => none
  | .dmaFill => none
  | .checkUnitAcquire _ => none
  | .transferUnit _ => none
  | .hostAccess _ => none
  | .dmaSave _ => none
  | .arbiterGrant _ _ _ => none
  | .burstLimitExpiry _ _ => none
  | .requestDrop _ _ _ => none
  | .arbSelect _ => none
  | .arbClearAll => none
  | .arbClearSelected => none
  | .doorbellWrite _ _ _ => none
  | .commandTake => none
  | .mbxCqHead _ _ => none
  | .mbxCtrl _ _ => none
  | .hello h _ _ _ _ _ => some h
  | .identify h _ => some h
  | .configRead h _ _ => some h
  | .configWrite h _ _ _ => some h
  | .resetWarm h => some h
  | .warmReset => none
  | .spaceSet h _ _ => some h
  | .map h _ _ _ _ _ _ _ _ => some h
  | .unmap h _ _ _ => some h
  | .calibrate h _ _ _ => some h
  | .referenceSet h _ => some h
  | .fwStage h _ _ _ => some h
  | .fwActivate h => some h
  | .fwRecovery h => some h
  | .fabricForm h _ => some h
  | .fabricCut h _ _ _ => some h
  | .editionSwitch h _ => some h
  | .editionRelease h _ => some h
  | .graphLoad h _ _ _ => some h
  | .graphRun h _ => some h
  | .graphCancel h _ => some h
  | .graphUnload h _ => some h
  | .requestAdmit h _ => some h
  | .requestRetire h _ => some h
  | .retireEffect _ => none
  | .adapterLoad h _ _ _ _ => some h
  | .adapterUnload h _ => some h
  | .nop h => some h
  | .bootRom _ => none
  | .enterFw => none
  | .storeCheck => none
  | .earlyLinkRequest _ _ => none
  | .taskIssue => none
  | .taskComplete => none
  | .pipTaskStart => none
  | .pipCoreExit _ _ _ => none
  | .pipException _ => none
  | .pipQuantumEnd _ => none
  | .graphComplete _ => none
  | .graphOverrun _ => none
  | .frameLimit _ => none
  | .grfFrameRequest _ => none
  | .stepCompose => none
  | .runStart _ => none
  | .handoffReceive _ => none
  | .sampleAndVerify => none
  | .draft => none
  | .token _ => none
  | .rollback _ => none
  | .tierWindowEnd => none
  | .passPendingDecade _ => none
  | .passPendingTrackPeriod _ => none
  | .passPendingFinePeriod _ => none
  | .passStart _ => none
  | .calibrationStep => none
  | .passMeasurementEnd _ _ => none
  | .calTileSelect _ => none
  | .portTraining _ _ => none
  | .portRetrain _ _ => none
  | .linkHello _ _ => none
  | .planCheckTimeout _ => none
  | .planReport _ => none
  | .form _ => none
  | .flitReceive _ _ => none
  | .linkFailure _ _ => none
  | .packetReceive _ => none
  | .e2eAck _ _ => none
  | .e2eReplay _ _ => none
  | .retryAfter _ _ _ _ => none
  | .lost _ _ _ _ => none
  | .syncExchange _ _ _ _ _ => none
  | .deviceSilentCut _ => none
  | .allReduce => none
  | .reduceScatter => none
  | .allGather => none
  | .broadcast => none
  | .send => none
  | .receive => none
  | .relay => none
  | .relayUnit => none
  | .collectiveTimeout => none
  | .abort _ => none
  | .digestSlice => none
  | .digestReport _ => none
  | .expel _ => none
  | .lnkPeerSelect _ => none
  | .deviceError => none
  | .cperRingWrite => none
  | .evrRestart _ => none
  | .evrCperHead _ => none
  | .evrCperCtrl _ => none
  | .crcFeedB _ _ => none
  | .crcFeedH _ _ => none
  | .crcFeedW _ _ => none
  | .crcRestart _ => none
  | .crcValueLo _ _ => none
  | .crcValueHi _ _ => none
  | .pauseTick => none
  | .swapEnd => none
  | .resumeTick => none
  | .fwConfirm => none
  | .confirmationWindowEnd => none
  | .getVersion => none
  | .getCapabilities => none
  | .negotiateAlgorithms => none
  | .getDigests => none
  | .getCertificate _ _ => none
  | .challenge _ => none
  | .getMeasurements _ _ => none
  | .eraseNonce => none
  | .eraseNonceExpiry => none
  | .eraseWeights _ => none
  | .jtagUnlock _ => none
  | .hubFwSelect _ => none
  | .hubSecCounterSelect _ => none
  | .srvRequestSelect _ => none
  | .sequenceEntryDue _ => none
  | .conversionComplete _ _ => none
  | .openWireTest _ _ _ => none
  | .urgentConversion _ => none
  | .urgentDone _ _ => none
  | .testDac _ => none
  | .sensorSample _ _ => none
  | .thermalShutdown _ _ => none
  | .governorPeriod => none
  | .pwrOff _ _ => none
  | .domainSwitchOff _ => none
  | .domainOn _ => none
  | .telemetryRefresh => none
  | .powerUp => none
  | .powerFail => none
  | .perstAssert => none
  | .moduleRstAssert => none
  | .resetDeassert _ _ => none
  | .shutdownLatchClear => none
  | .getTelemetry _ => none
  | .getCper _ => none
  | .setBoardLimit _ => none
  | .getShutdown => none
  | .getIdentity => none
  | .attentionResume => none
  | .dmaResume _ => none
  | .lowHalfRead _ => none

/-- The packet that arrives with a command (R365). -/
def packet : Instr → Option Packet
  | .registerWrite _ _ _ => none
  | .frameTick => none
  | .ratioWindowEnd _ => none
  | .planeForward => none
  | .planeTransposed => none
  | .planeProgram => none
  | .stepUnit _ => none
  | .correctionPass => none
  | .operationTailEnd _ => none
  | .planeSave => none
  | .planeResume => none
  | .programRoundStart _ => none
  | .programRoundEnd _ => none
  | .reAttach => none
  | .enduranceWindowStart => none
  | .plnTileSelect _ => none
  | .auditRun => none
  | .confirmationFiring => none
  | .wideProduct => none
  | .wideReduction => none
  | .chunkPass _ => none
  | .tileDrain => none
  | .adapterTerm => none
  | .wideSave => none
  | .wideResume => none
  | .attentionForward => none
  | .attentionBackward => none
  | .pageArrival => none
  | .attentionSave => none
  | .quarantineEnd _ => none
  | .walkComplete _ _ _ _ _ => none
  | .faultResume _ => none
  | .faultFail _ _ => none
  | .faultTimeout _ => none
  | .invalidateAll => none
  | .invalidateSpace _ => none
  | .invalidateRange _ _ _ => none
  | .invalidateKvSpace _ => none
  | .invalidateKvAll => none
  | .invalidationComplete => none
  | .mmuFaultRead _ => none
  | .bar2Access _ _ _ _ => none
  | .dmaCopy => none
  | .dmaFill => none
  | .checkUnitAcquire _ => none
  | .transferUnit _ => none
  | .hostAccess _ => none
  | .dmaSave _ => none
  | .arbiterGrant _ _ _ => none
  | .burstLimitExpiry _ _ => none
  | .requestDrop _ _ _ => none
  | .arbSelect _ => none
  | .arbClearAll => none
  | .arbClearSelected => none
  | .doorbellWrite _ _ _ => none
  | .commandTake => none
  | .mbxCqHead _ _ => none
  | .mbxCtrl _ _ => none
  | .hello _ _ _ _ _ _ => none
  | .identify _ _ => none
  | .configRead _ _ _ => none
  | .configWrite _ _ _ _ => none
  | .resetWarm _ => none
  | .warmReset => none
  | .spaceSet _ _ _ => none
  | .map _ _ _ _ _ _ _ _ _ => none
  | .unmap _ _ _ _ => none
  | .calibrate _ _ _ _ => none
  | .referenceSet _ _ => none
  | .fwStage _ _ _ _ => none
  | .fwActivate _ => none
  | .fwRecovery _ => none
  | .fabricForm _ _ => none
  | .fabricCut _ _ _ _ => none
  | .editionSwitch _ _ => none
  | .editionRelease _ _ => none
  | .graphLoad _ _ _ _ => none
  | .graphRun _ _ => none
  | .graphCancel _ _ => none
  | .graphUnload _ _ => none
  | .requestAdmit _ _ => none
  | .requestRetire _ _ => none
  | .retireEffect _ => none
  | .adapterLoad _ _ _ _ _ => none
  | .adapterUnload _ _ => none
  | .nop _ => none
  | .bootRom _ => none
  | .enterFw => none
  | .storeCheck => none
  | .earlyLinkRequest _ p => some p
  | .taskIssue => none
  | .taskComplete => none
  | .pipTaskStart => none
  | .pipCoreExit _ _ _ => none
  | .pipException _ => none
  | .pipQuantumEnd _ => none
  | .graphComplete _ => none
  | .graphOverrun _ => none
  | .frameLimit _ => none
  | .grfFrameRequest _ => none
  | .stepCompose => none
  | .runStart _ => none
  | .handoffReceive p => some p
  | .sampleAndVerify => none
  | .draft => none
  | .token p => some p
  | .rollback p => some p
  | .tierWindowEnd => none
  | .passPendingDecade _ => none
  | .passPendingTrackPeriod _ => none
  | .passPendingFinePeriod _ => none
  | .passStart _ => none
  | .calibrationStep => none
  | .passMeasurementEnd _ _ => none
  | .calTileSelect _ => none
  | .portTraining _ _ => none
  | .portRetrain _ _ => none
  | .linkHello _ _ => none
  | .planCheckTimeout _ => none
  | .planReport _ => none
  | .form p => some p
  | .flitReceive _ _ => none
  | .linkFailure _ _ => none
  | .packetReceive p => some p
  | .e2eAck _ _ => none
  | .e2eReplay _ _ => none
  | .retryAfter _ _ _ _ => none
  | .lost _ _ _ _ => none
  | .syncExchange _ _ _ _ _ => none
  | .deviceSilentCut _ => none
  | .allReduce => none
  | .reduceScatter => none
  | .allGather => none
  | .broadcast => none
  | .send => none
  | .receive => none
  | .relay => none
  | .relayUnit => none
  | .collectiveTimeout => none
  | .abort p => some p
  | .digestSlice => none
  | .digestReport _ => none
  | .expel p => some p
  | .lnkPeerSelect _ => none
  | .deviceError => none
  | .cperRingWrite => none
  | .evrRestart _ => none
  | .evrCperHead _ => none
  | .evrCperCtrl _ => none
  | .crcFeedB _ _ => none
  | .crcFeedH _ _ => none
  | .crcFeedW _ _ => none
  | .crcRestart _ => none
  | .crcValueLo _ _ => none
  | .crcValueHi _ _ => none
  | .pauseTick => none
  | .swapEnd => none
  | .resumeTick => none
  | .fwConfirm => none
  | .confirmationWindowEnd => none
  | .getVersion => none
  | .getCapabilities => none
  | .negotiateAlgorithms => none
  | .getDigests => none
  | .getCertificate _ _ => none
  | .challenge _ => none
  | .getMeasurements _ _ => none
  | .eraseNonce => none
  | .eraseNonceExpiry => none
  | .eraseWeights _ => none
  | .jtagUnlock _ => none
  | .hubFwSelect _ => none
  | .hubSecCounterSelect _ => none
  | .srvRequestSelect _ => none
  | .sequenceEntryDue _ => none
  | .conversionComplete _ _ => none
  | .openWireTest _ _ _ => none
  | .urgentConversion _ => none
  | .urgentDone _ _ => none
  | .testDac _ => none
  | .sensorSample _ _ => none
  | .thermalShutdown _ _ => none
  | .governorPeriod => none
  | .pwrOff _ _ => none
  | .domainSwitchOff _ => none
  | .domainOn _ => none
  | .telemetryRefresh => none
  | .powerUp => none
  | .powerFail => none
  | .perstAssert => none
  | .moduleRstAssert => none
  | .resetDeassert _ _ => none
  | .shutdownLatchClear => none
  | .getTelemetry _ => none
  | .getCper _ => none
  | .setBoardLimit _ => none
  | .getShutdown => none
  | .getIdentity => none
  | .attentionResume => none
  | .dmaResume _ => none
  | .lowHalfRead _ => none

/-- The units that a command's operands number, each with how many there are. -/
def units : Instr → List (Nat × Nat)
  | .registerWrite _ _ _ => []
  | .frameTick => []
  | .ratioWindowEnd _ => []
  | .planeForward => []
  | .planeTransposed => []
  | .planeProgram => []
  | .stepUnit _ => []
  | .correctionPass => []
  | .operationTailEnd _ => []
  | .planeSave => []
  | .planeResume => []
  | .programRoundStart die => [(die, 4)]
  | .programRoundEnd die => [(die, 4)]
  | .reAttach => []
  | .enduranceWindowStart => []
  | .plnTileSelect _ => []
  | .auditRun => []
  | .confirmationFiring => []
  | .wideProduct => []
  | .wideReduction => []
  | .chunkPass _ => []
  | .tileDrain => []
  | .adapterTerm => []
  | .wideSave => []
  | .wideResume => []
  | .attentionForward => []
  | .attentionBackward => []
  | .pageArrival => []
  | .attentionSave => []
  | .quarantineEnd _ => []
  | .walkComplete cls _ space _ _ => [(space, 16), (cls, 10)]
  | .faultResume slot => [(slot, 256)]
  | .faultFail slot status => [(slot, 256), (status, 65536)]
  | .faultTimeout slot => [(slot, 256)]
  | .invalidateAll => []
  | .invalidateSpace sp => [(sp, 16)]
  | .invalidateRange sp _ _ => [(sp, 16)]
  | .invalidateKvSpace sp => [(sp, 16)]
  | .invalidateKvAll => []
  | .invalidationComplete => []
  | .mmuFaultRead _ => []
  | .bar2Access _ _ _ _ => []
  | .dmaCopy => []
  | .dmaFill => []
  | .checkUnitAcquire e => [(e, 16)]
  | .transferUnit e => [(e, 16)]
  | .hostAccess e => [(e, 16)]
  | .dmaSave e => [(e, 16)]
  | .arbiterGrant cls inst _ => [(cls, 4), (inst, 128)]
  | .burstLimitExpiry cls inst => [(cls, 4), (inst, 128)]
  | .requestDrop cls inst req => [(cls, 4), (inst, 128), (req, 32)]
  | .arbSelect _ => []
  | .arbClearAll => []
  | .arbClearSelected => []
  | .doorbellWrite m _ _ => [(m, 17)]
  | .commandTake => []
  | .mbxCqHead m _ => [(m, 17)]
  | .mbxCtrl m _ => [(m, 17)]
  | .hello _ _ _ _ _ _ => []
  | .identify _ _ => []
  | .configRead _ _ _ => []
  | .configWrite _ _ _ _ => []
  | .resetWarm _ => []
  | .warmReset => []
  | .spaceSet _ space _ => [(space, 16)]
  | .map _ space _ _ _ _ _ _ _ => [(space, 16)]
  | .unmap _ space _ _ => [(space, 16)]
  | .calibrate _ _ _ _ => []
  | .referenceSet _ _ => []
  | .fwStage _ _ _ component => [(component, 256)]
  | .fwActivate _ => []
  | .fwRecovery _ => []
  | .fabricForm _ _ => []
  | .fabricCut _ _ _ _ => []
  | .editionSwitch _ _ => []
  | .editionRelease _ _ => []
  | .graphLoad _ slot space _ => [(slot, 16), (space, 16)]
  | .graphRun _ slot => [(slot, 16)]
  | .graphCancel _ slot => [(slot, 16)]
  | .graphUnload _ slot => [(slot, 16)]
  | .requestAdmit _ _ => []
  | .requestRetire _ _ => []
  | .retireEffect _ => []
  | .adapterLoad _ _ _ _ _ => []
  | .adapterUnload _ _ => []
  | .nop _ => []
  | .bootRom _ => []
  | .enterFw => []
  | .storeCheck => []
  | .earlyLinkRequest port _ => [(port, 6)]
  | .taskIssue => []
  | .taskComplete => []
  | .pipTaskStart => []
  | .pipCoreExit core _ _ => [(core, 128)]
  | .pipException core => [(core, 128)]
  | .pipQuantumEnd core => [(core, 128)]
  | .graphComplete slot => [(slot, 16)]
  | .graphOverrun slot => [(slot, 16)]
  | .frameLimit slot => [(slot, 16)]
  | .grfFrameRequest _ => []
  | .stepCompose => []
  | .runStart template => [(template, 4)]
  | .handoffReceive _ => []
  | .sampleAndVerify => []
  | .draft => []
  | .token _ => []
  | .rollback _ => []
  | .tierWindowEnd => []
  | .passPendingDecade tile => [(tile, 32768)]
  | .passPendingTrackPeriod tile => [(tile, 32768)]
  | .passPendingFinePeriod tile => [(tile, 32768)]
  | .passStart die => [(die, 4)]
  | .calibrationStep => []
  | .passMeasurementEnd tile _ => [(tile, 32768)]
  | .calTileSelect _ => []
  | .portTraining port lanes => [(port, 6), (lanes, 9)]
  | .portRetrain port lanes => [(port, 6), (lanes, 9)]
  | .linkHello port _ => [(port, 6)]
  | .planCheckTimeout port => [(port, 6)]
  | .planReport _ => []
  | .form _ => []
  | .flitReceive port _ => [(port, 6)]
  | .linkFailure port half => [(port, 6), (half, 3)]
  | .packetReceive _ => []
  | .e2eAck src channel => [(src, 65536), (channel, 5)]
  | .e2eReplay dst channel => [(dst, 65536), (channel, 5)]
  | .retryAfter dst channel seq _ => [(dst, 65536), (seq, 4294967296), (channel, 5)]
  | .lost dst channel seq status => [(dst, 65536), (seq, 4294967296), (status, 65536), (channel, 5)]
  | .syncExchange port _ _ _ _ => [(port, 6)]
  | .deviceSilentCut device => [(device, 65536)]
  | .allReduce => []
  | .reduceScatter => []
  | .allGather => []
  | .broadcast => []
  | .send => []
  | .receive => []
  | .relay => []
  | .relayUnit => []
  | .collectiveTimeout => []
  | .abort _ => []
  | .digestSlice => []
  | .digestReport _ => []
  | .expel _ => []
  | .lnkPeerSelect _ => []
  | .deviceError => []
  | .cperRingWrite => []
  | .evrRestart _ => []
  | .evrCperHead _ => []
  | .evrCperCtrl _ => []
  | .crcFeedB n _ => [(n, 8)]
  | .crcFeedH n _ => [(n, 8)]
  | .crcFeedW n _ => [(n, 8)]
  | .crcRestart n => [(n, 8)]
  | .crcValueLo n _ => [(n, 8)]
  | .crcValueHi n _ => [(n, 8)]
  | .pauseTick => []
  | .swapEnd => []
  | .resumeTick => []
  | .fwConfirm => []
  | .confirmationWindowEnd => []
  | .getVersion => []
  | .getCapabilities => []
  | .negotiateAlgorithms => []
  | .getDigests => []
  | .getCertificate _ _ => []
  | .challenge _ => []
  | .getMeasurements _ _ => []
  | .eraseNonce => []
  | .eraseNonceExpiry => []
  | .eraseWeights _ => []
  | .jtagUnlock _ => []
  | .hubFwSelect _ => []
  | .hubSecCounterSelect _ => []
  | .srvRequestSelect _ => []
  | .sequenceEntryDue n => [(n, 32)]
  | .conversionComplete n _ => [(n, 32)]
  | .openWireTest n _ _ => [(n, 32)]
  | .urgentConversion _ => []
  | .urgentDone conv code => [(conv, 2), (code, 4096)]
  | .testDac _ => []
  | .sensorSample n _ => [(n, 72)]
  | .thermalShutdown n _ => [(n, 72)]
  | .governorPeriod => []
  | .pwrOff _ _ => []
  | .domainSwitchOff n => [(n, 50)]
  | .domainOn n => [(n, 50)]
  | .telemetryRefresh => []
  | .powerUp => []
  | .powerFail => []
  | .perstAssert => []
  | .moduleRstAssert => []
  | .resetDeassert _ _ => []
  | .shutdownLatchClear => []
  | .getTelemetry _ => []
  | .getCper _ => []
  | .setBoardLimit _ => []
  | .getShutdown => []
  | .getIdentity => []
  | .attentionResume => []
  | .dmaResume e => [(e, 16)]
  | .lowHalfRead _ => []

/-- A well-formed command carries a well-formed header and packet, and numbers units that exist. -/
def Statement (i : Instr) : Prop :=
  i.wf = true → (∀ h, header i = some h → h.wf = true) ∧ (∀ p, packet i = some p → p.wf = true) ∧
    ∀ u ∈ units i, u.1 < u.2

theorem operand_units_exist (i : Instr) : Statement i := by
  cases i <;> simp [Statement, Instr.wf, header, packet, units] <;> grind

theorem registerWrite (off : Nat) (size : Nat) (data : List Byte) : Statement (.registerWrite off size data) := operand_units_exist _
theorem frameTick : Statement .frameTick := operand_units_exist _
theorem ratioWindowEnd (m : RatioMeas) : Statement (.ratioWindowEnd m) := operand_units_exist _
theorem planeForward : Statement .planeForward := operand_units_exist _
theorem planeTransposed : Statement .planeTransposed := operand_units_exist _
theorem planeProgram : Statement .planeProgram := operand_units_exist _
theorem stepUnit (transfer : Transfer) : Statement (.stepUnit transfer) := operand_units_exist _
theorem correctionPass : Statement .correctionPass := operand_units_exist _
theorem operationTailEnd (mismatch : Bool) : Statement (.operationTailEnd mismatch) := operand_units_exist _
theorem planeSave : Statement .planeSave := operand_units_exist _
theorem planeResume : Statement .planeResume := operand_units_exist _
theorem programRoundStart (die : Nat) : Statement (.programRoundStart die) := operand_units_exist _
theorem programRoundEnd (die : Nat) : Statement (.programRoundEnd die) := operand_units_exist _
theorem reAttach : Statement .reAttach := operand_units_exist _
theorem enduranceWindowStart : Statement .enduranceWindowStart := operand_units_exist _
theorem plnTileSelect (v : Word) : Statement (.plnTileSelect v) := operand_units_exist _
theorem auditRun : Statement .auditRun := operand_units_exist _
theorem confirmationFiring : Statement .confirmationFiring := operand_units_exist _
theorem wideProduct : Statement .wideProduct := operand_units_exist _
theorem wideReduction : Statement .wideReduction := operand_units_exist _
theorem chunkPass (mismatch : Bool) : Statement (.chunkPass mismatch) := operand_units_exist _
theorem tileDrain : Statement .tileDrain := operand_units_exist _
theorem adapterTerm : Statement .adapterTerm := operand_units_exist _
theorem wideSave : Statement .wideSave := operand_units_exist _
theorem wideResume : Statement .wideResume := operand_units_exist _
theorem attentionForward : Statement .attentionForward := operand_units_exist _
theorem attentionBackward : Statement .attentionBackward := operand_units_exist _
theorem pageArrival : Statement .pageArrival := operand_units_exist _
theorem attentionSave : Statement .attentionSave := operand_units_exist _
theorem quarantineEnd (frame : Nat) : Statement (.quarantineEnd frame) := operand_units_exist _
theorem walkComplete (cls : Nat) (index : Nat) (space : Nat) (va : Nat) (write : Bool) : Statement (.walkComplete cls index space va write) := operand_units_exist _
theorem faultResume (slot : Nat) : Statement (.faultResume slot) := operand_units_exist _
theorem faultFail (slot : Nat) (status : Nat) : Statement (.faultFail slot status) := operand_units_exist _
theorem faultTimeout (slot : Nat) : Statement (.faultTimeout slot) := operand_units_exist _
theorem invalidateAll : Statement .invalidateAll := operand_units_exist _
theorem invalidateSpace (sp : Nat) : Statement (.invalidateSpace sp) := operand_units_exist _
theorem invalidateRange (sp : Nat) (base : Nat) (pages : Nat) : Statement (.invalidateRange sp base pages) := operand_units_exist _
theorem invalidateKvSpace (sp : Nat) : Statement (.invalidateKvSpace sp) := operand_units_exist _
theorem invalidateKvAll : Statement .invalidateKvAll := operand_units_exist _
theorem invalidationComplete : Statement .invalidationComplete := operand_units_exist _
theorem mmuFaultRead (v : Word) : Statement (.mmuFaultRead v) := operand_units_exist _
theorem bar2Access (write : Bool) (off : Nat) (len : Nat) (data : List Byte) : Statement (.bar2Access write off len data) := operand_units_exist _
theorem dmaCopy : Statement .dmaCopy := operand_units_exist _
theorem dmaFill : Statement .dmaFill := operand_units_exist _
theorem checkUnitAcquire (e : Nat) : Statement (.checkUnitAcquire e) := operand_units_exist _
theorem transferUnit (e : Nat) : Statement (.transferUnit e) := operand_units_exist _
theorem hostAccess (e : Nat) : Statement (.hostAccess e) := operand_units_exist _
theorem dmaSave (e : Nat) : Statement (.dmaSave e) := operand_units_exist _
theorem arbiterGrant (cls : Nat) (inst : Nat) (arrivals : List (Nat × Bool)) : Statement (.arbiterGrant cls inst arrivals) := operand_units_exist _
theorem burstLimitExpiry (cls : Nat) (inst : Nat) : Statement (.burstLimitExpiry cls inst) := operand_units_exist _
theorem requestDrop (cls : Nat) (inst : Nat) (req : Nat) : Statement (.requestDrop cls inst req) := operand_units_exist _
theorem arbSelect (v : Word) : Statement (.arbSelect v) := operand_units_exist _
theorem arbClearAll : Statement .arbClearAll := operand_units_exist _
theorem arbClearSelected : Statement .arbClearSelected := operand_units_exist _
theorem doorbellWrite (m : Nat) (size : Nat) (v : Word) : Statement (.doorbellWrite m size v) := operand_units_exist _
theorem commandTake : Statement .commandTake := operand_units_exist _
theorem mbxCqHead (m : Nat) (v : Word) : Statement (.mbxCqHead m v) := operand_units_exist _
theorem mbxCtrl (m : Nat) (v : Word) : Statement (.mbxCtrl m v) := operand_units_exist _
theorem hello (h : CmdHdr) (minV : Nat) (maxV : Nat) (resetSeq : Bool) (seqBase : Nat) (hostId : Nat) : Statement (.hello h minV maxV resetSeq seqBase hostId) := operand_units_exist _
theorem identify (h : CmdHdr) (buffer : Nat) : Statement (.identify h buffer) := operand_units_exist _
theorem configRead (h : CmdHdr) (buffer : Nat) (bytes : Nat) : Statement (.configRead h buffer bytes) := operand_units_exist _
theorem configWrite (h : CmdHdr) (source : Nat) (bytes : Nat) (persist : Bool) : Statement (.configWrite h source bytes persist) := operand_units_exist _
theorem resetWarm (h : CmdHdr) : Statement (.resetWarm h) := operand_units_exist _
theorem warmReset : Statement .warmReset := operand_units_exist _
theorem spaceSet (h : CmdHdr) (space : Nat) (enable : Bool) : Statement (.spaceSet h space enable) := operand_units_exist _
theorem map (h : CmdHdr) (space : Nat) (memory : Nat) (pageSize : Nat) (write : Bool) (kv : Bool) (va : Nat) (bytes : Nat) (hostBase : Nat) : Statement (.map h space memory pageSize write kv va bytes hostBase) := operand_units_exist _
theorem unmap (h : CmdHdr) (space : Nat) (va : Nat) (bytes : Nat) : Statement (.unmap h space va bytes) := operand_units_exist _
theorem calibrate (h : CmdHdr) (first : Nat) (pass : Nat) (count : Nat) : Statement (.calibrate h first pass count) := operand_units_exist _
theorem referenceSet (h : CmdHdr) (enable : Bool) : Statement (.referenceSet h enable) := operand_units_exist _
theorem fwStage (h : CmdHdr) (source : Nat) (bytes : Nat) (component : Nat) : Statement (.fwStage h source bytes component) := operand_units_exist _
theorem fwActivate (h : CmdHdr) : Statement (.fwActivate h) := operand_units_exist _
theorem fwRecovery (h : CmdHdr) : Statement (.fwRecovery h) := operand_units_exist _
theorem fabricForm (h : CmdHdr) (acceptSwap : Bool) : Statement (.fabricForm h acceptSwap) := operand_units_exist _
theorem fabricCut (h : CmdHdr) (cx : Nat) (cy : Nat) (cz : Nat) : Statement (.fabricCut h cx cy cz) := operand_units_exist _
theorem editionSwitch (h : CmdHdr) (edition : Nat) : Statement (.editionSwitch h edition) := operand_units_exist _
theorem editionRelease (h : CmdHdr) (edition : Nat) : Statement (.editionRelease h edition) := operand_units_exist _
theorem graphLoad (h : CmdHdr) (slot : Nat) (space : Nat) (descriptor : Nat) : Statement (.graphLoad h slot space descriptor) := operand_units_exist _
theorem graphRun (h : CmdHdr) (slot : Nat) : Statement (.graphRun h slot) := operand_units_exist _
theorem graphCancel (h : CmdHdr) (slot : Nat) : Statement (.graphCancel h slot) := operand_units_exist _
theorem graphUnload (h : CmdHdr) (slot : Nat) : Statement (.graphUnload h slot) := operand_units_exist _
theorem requestAdmit (h : CmdHdr) (b : AdmitBody) : Statement (.requestAdmit h b) := operand_units_exist _
theorem requestRetire (h : CmdHdr) (id : Nat) : Statement (.requestRetire h id) := operand_units_exist _
theorem retireEffect (id : Nat) : Statement (.retireEffect id) := operand_units_exist _
theorem adapterLoad (h : CmdHdr) (id : Nat) (memory : Nat) (source : Nat) (bytes : Nat) : Statement (.adapterLoad h id memory source bytes) := operand_units_exist _
theorem adapterUnload (h : CmdHdr) (id : Nat) : Statement (.adapterUnload h id) := operand_units_exist _
theorem nop (h : CmdHdr) : Statement (.nop h) := operand_units_exist _
theorem bootRom (selftest : Bool) : Statement (.bootRom selftest) := operand_units_exist _
theorem enterFw : Statement .enterFw := operand_units_exist _
theorem storeCheck : Statement .storeCheck := operand_units_exist _
theorem earlyLinkRequest (port : Nat) (p : Packet) : Statement (.earlyLinkRequest port p) := operand_units_exist _
theorem taskIssue : Statement .taskIssue := operand_units_exist _
theorem taskComplete : Statement .taskComplete := operand_units_exist _
theorem pipTaskStart : Statement .pipTaskStart := operand_units_exist _
theorem pipCoreExit (core : Nat) (result : Nat) (accesses : List (Nat × Option Byte)) : Statement (.pipCoreExit core result accesses) := operand_units_exist _
theorem pipException (core : Nat) : Statement (.pipException core) := operand_units_exist _
theorem pipQuantumEnd (core : Nat) : Statement (.pipQuantumEnd core) := operand_units_exist _
theorem graphComplete (slot : Nat) : Statement (.graphComplete slot) := operand_units_exist _
theorem graphOverrun (slot : Nat) : Statement (.graphOverrun slot) := operand_units_exist _
theorem frameLimit (slot : Nat) : Statement (.frameLimit slot) := operand_units_exist _
theorem grfFrameRequest (v : Word) : Statement (.grfFrameRequest v) := operand_units_exist _
theorem stepCompose : Statement .stepCompose := operand_units_exist _
theorem runStart (template : Nat) : Statement (.runStart template) := operand_units_exist _
theorem handoffReceive (p : Packet) : Statement (.handoffReceive p) := operand_units_exist _
theorem sampleAndVerify : Statement .sampleAndVerify := operand_units_exist _
theorem draft : Statement .draft := operand_units_exist _
theorem token (p : Packet) : Statement (.token p) := operand_units_exist _
theorem rollback (p : Packet) : Statement (.rollback p) := operand_units_exist _
theorem tierWindowEnd : Statement .tierWindowEnd := operand_units_exist _
theorem passPendingDecade (tile : Nat) : Statement (.passPendingDecade tile) := operand_units_exist _
theorem passPendingTrackPeriod (tile : Nat) : Statement (.passPendingTrackPeriod tile) := operand_units_exist _
theorem passPendingFinePeriod (tile : Nat) : Statement (.passPendingFinePeriod tile) := operand_units_exist _
theorem passStart (die : Nat) : Statement (.passStart die) := operand_units_exist _
theorem calibrationStep : Statement .calibrationStep := operand_units_exist _
theorem passMeasurementEnd (tile : Nat) (r : PassReading) : Statement (.passMeasurementEnd tile r) := operand_units_exist _
theorem calTileSelect (v : Word) : Statement (.calTileSelect v) := operand_units_exist _
theorem portTraining (port : Nat) (lanes : Nat) : Statement (.portTraining port lanes) := operand_units_exist _
theorem portRetrain (port : Nat) (lanes : Nat) : Statement (.portRetrain port lanes) := operand_units_exist _
theorem linkHello (port : Nat) (p : PeerHello) : Statement (.linkHello port p) := operand_units_exist _
theorem planCheckTimeout (port : Nat) : Statement (.planCheckTimeout port) := operand_units_exist _
theorem planReport (r : Report) : Statement (.planReport r) := operand_units_exist _
theorem form (p : Packet) : Statement (.form p) := operand_units_exist _
theorem flitReceive (port : Nat) (bytes : List Byte) : Statement (.flitReceive port bytes) := operand_units_exist _
theorem linkFailure (port : Nat) (half : Nat) : Statement (.linkFailure port half) := operand_units_exist _
theorem packetReceive (p : Packet) : Statement (.packetReceive p) := operand_units_exist _
theorem e2eAck (src : Nat) (channel : Nat) : Statement (.e2eAck src channel) := operand_units_exist _
theorem e2eReplay (dst : Nat) (channel : Nat) : Statement (.e2eReplay dst channel) := operand_units_exist _
theorem retryAfter (dst : Nat) (channel : Nat) (seq : Nat) (hint : Nat) : Statement (.retryAfter dst channel seq hint) := operand_units_exist _
theorem lost (dst : Nat) (channel : Nat) (seq : Nat) (status : Nat) : Statement (.lost dst channel seq status) := operand_units_exist _
theorem syncExchange (port : Nat) (t1 : Nat) (t2 : Nat) (t3 : Nat) (t4 : Nat) : Statement (.syncExchange port t1 t2 t3 t4) := operand_units_exist _
theorem deviceSilentCut (device : Nat) : Statement (.deviceSilentCut device) := operand_units_exist _
theorem allReduce : Statement .allReduce := operand_units_exist _
theorem reduceScatter : Statement .reduceScatter := operand_units_exist _
theorem allGather : Statement .allGather := operand_units_exist _
theorem broadcast : Statement .broadcast := operand_units_exist _
theorem send : Statement .send := operand_units_exist _
theorem receive : Statement .receive := operand_units_exist _
theorem relay : Statement .relay := operand_units_exist _
theorem relayUnit : Statement .relayUnit := operand_units_exist _
theorem collectiveTimeout : Statement .collectiveTimeout := operand_units_exist _
theorem abort (p : Packet) : Statement (.abort p) := operand_units_exist _
theorem digestSlice : Statement .digestSlice := operand_units_exist _
theorem digestReport (r : DigestRep) : Statement (.digestReport r) := operand_units_exist _
theorem expel (p : Packet) : Statement (.expel p) := operand_units_exist _
theorem lnkPeerSelect (v : Word) : Statement (.lnkPeerSelect v) := operand_units_exist _
theorem deviceError : Statement .deviceError := operand_units_exist _
theorem cperRingWrite : Statement .cperRingWrite := operand_units_exist _
theorem evrRestart (v : Word) : Statement (.evrRestart v) := operand_units_exist _
theorem evrCperHead (v : Word) : Statement (.evrCperHead v) := operand_units_exist _
theorem evrCperCtrl (v : Word) : Statement (.evrCperCtrl v) := operand_units_exist _
theorem crcFeedB (n : Nat) (v : Word) : Statement (.crcFeedB n v) := operand_units_exist _
theorem crcFeedH (n : Nat) (v : Word) : Statement (.crcFeedH n v) := operand_units_exist _
theorem crcFeedW (n : Nat) (v : Word) : Statement (.crcFeedW n v) := operand_units_exist _
theorem crcRestart (n : Nat) : Statement (.crcRestart n) := operand_units_exist _
theorem crcValueLo (n : Nat) (v : Word) : Statement (.crcValueLo n v) := operand_units_exist _
theorem crcValueHi (n : Nat) (v : Word) : Statement (.crcValueHi n v) := operand_units_exist _
theorem pauseTick : Statement .pauseTick := operand_units_exist _
theorem swapEnd : Statement .swapEnd := operand_units_exist _
theorem resumeTick : Statement .resumeTick := operand_units_exist _
theorem fwConfirm : Statement .fwConfirm := operand_units_exist _
theorem confirmationWindowEnd : Statement .confirmationWindowEnd := operand_units_exist _
theorem getVersion : Statement .getVersion := operand_units_exist _
theorem getCapabilities : Statement .getCapabilities := operand_units_exist _
theorem negotiateAlgorithms : Statement .negotiateAlgorithms := operand_units_exist _
theorem getDigests : Statement .getDigests := operand_units_exist _
theorem getCertificate (offset : Nat) (length : Nat) : Statement (.getCertificate offset length) := operand_units_exist _
theorem challenge (nonce : List Byte) : Statement (.challenge nonce) := operand_units_exist _
theorem getMeasurements (nonce : List Byte) (index : Nat) : Statement (.getMeasurements nonce index) := operand_units_exist _
theorem eraseNonce : Statement .eraseNonce := operand_units_exist _
theorem eraseNonceExpiry : Statement .eraseNonceExpiry := operand_units_exist _
theorem eraseWeights (sig : List Byte) : Statement (.eraseWeights sig) := operand_units_exist _
theorem jtagUnlock (token : List Byte) : Statement (.jtagUnlock token) := operand_units_exist _
theorem hubFwSelect (v : Word) : Statement (.hubFwSelect v) := operand_units_exist _
theorem hubSecCounterSelect (v : Word) : Statement (.hubSecCounterSelect v) := operand_units_exist _
theorem srvRequestSelect (v : Word) : Statement (.srvRequestSelect v) := operand_units_exist _
theorem sequenceEntryDue (n : Nat) : Statement (.sequenceEntryDue n) := operand_units_exist _
theorem conversionComplete (n : Nat) (samples : List Nat) : Statement (.conversionComplete n samples) := operand_units_exist _
theorem openWireTest (n : Nat) (u : Nat) (d : Nat) : Statement (.openWireTest n u d) := operand_units_exist _
theorem urgentConversion (v : Word) : Statement (.urgentConversion v) := operand_units_exist _
theorem urgentDone (conv : Nat) (code : Nat) : Statement (.urgentDone conv code) := operand_units_exist _
theorem testDac (v : Word) : Statement (.testDac v) := operand_units_exist _
theorem sensorSample (n : Nat) (reading : Option Int) : Statement (.sensorSample n reading) := operand_units_exist _
theorem thermalShutdown (n : Nat) (reading : Int) : Statement (.thermalShutdown n reading) := operand_units_exist _
theorem governorPeriod : Statement .governorPeriod := operand_units_exist _
theorem pwrOff (hi : Bool) (v : Word) : Statement (.pwrOff hi v) := operand_units_exist _
theorem domainSwitchOff (n : Nat) : Statement (.domainSwitchOff n) := operand_units_exist _
theorem domainOn (n : Nat) : Statement (.domainOn n) := operand_units_exist _
theorem telemetryRefresh : Statement .telemetryRefresh := operand_units_exist _
theorem powerUp : Statement .powerUp := operand_units_exist _
theorem powerFail : Statement .powerFail := operand_units_exist _
theorem perstAssert : Statement .perstAssert := operand_units_exist _
theorem moduleRstAssert : Statement .moduleRstAssert := operand_units_exist _
theorem resetDeassert (straps : BitVec 9) (recovery : Bool) : Statement (.resetDeassert straps recovery) := operand_units_exist _
theorem shutdownLatchClear : Statement .shutdownLatchClear := operand_units_exist _
theorem getTelemetry (piece : Nat) : Statement (.getTelemetry piece) := operand_units_exist _
theorem getCper (index : Nat) : Statement (.getCper index) := operand_units_exist _
theorem setBoardLimit (w : Nat) : Statement (.setBoardLimit w) := operand_units_exist _
theorem getShutdown : Statement .getShutdown := operand_units_exist _
theorem getIdentity : Statement .getIdentity := operand_units_exist _
theorem attentionResume : Statement .attentionResume := operand_units_exist _
theorem dmaResume (e : Nat) : Statement (.dmaResume e) := operand_units_exist _
theorem lowHalfRead (off : Nat) : Statement (.lowHalfRead off) := operand_units_exist _

end Sys2Proof.Laws.Operands
end

