-- ==== Sys2Proof/Tests/Slice0.lean ====
section
/-! SUPPORT. Tests: one ill-formed command for each check of well-formedness, worked examples of the manual, and for each
statement concrete states and operands that meet its hypotheses, clause by clause, with what the command then does. -/

namespace Sys2Proof.Tests

open Sys2Proof Sys2Proof.Machine

set_option Elab.async false

/-- The next state that a command answers; the state itself where it answers none. -/
def nx (c : Instr) (s : State) : State :=
  match exec c s with
  | .next t => t
  | _ => s

/-- The state after reset with its device changed. -/
def dv (f : Dev → Dev) : State := { State.reset with dev := f State.reset.dev }

/-- The state after reset, in READY. -/
def rdy (f : Dev → Dev) : State := dv fun d => f { d with bring := .ready }

/-- What a check lets through. -/
def got {α : Type} (x : Chk α × Dev) : Option α :=
  match x.1 with
  | .ok a => some a
  | _ => none

/-- What an access answers where it succeeds. -/
def went {α : Type} (x : Acc α × Dev) : Option α :=
  match x.1 with
  | .ok a => some a
  | _ => none

/-! ## The queue, the arbiters, the recorder, the check-value units -/

theorem wit_EveryStepRuns : ({ State.reset with pending := [.frameTick, .draft] } : State).pending = .frameTick :: [.draft] ∧
    (nx .frameTick { State.reset with pending := [.draft] }).pending = [.draft] := by decide +kernel

/-- Channel 0 of the example of R239 at 40 ns: DMA engine 5 owns it since 0, attention waits since 10, the walker since 40. -/
def arbOwned : State := dv fun d =>
  { d with
    now := 40
    arb := { d.arb with
      insts := [{ cls := 0, inst := 0, owner := some 12, grantedAt := 0, waiting := [{ id := 2, since := 10 }, { id := 0, since := 40 }] }] } }

/-- The same at 128 ns, when the limit of 256 beats has expired. -/
def arbFree : State := nx (.burstLimitExpiry 0 0) arbOwned

theorem wit_ArbiterGrantsHighestRank : 0 < arbInstances 0 ∧ (arbFree.dev.arbInst 0 0).owner = none ∧
    (∃ x ∈ (arbFree.dev.arbInst 0 0).waiting, x.id = 12) ∧ 127 < arbInstances 0 ∧ 5 < arbInstances 2 ∧
    (nx (.arbiterGrant 3 0 [(4, false)]) State.reset).dev.arb.insts.map (·.owner) = [some 4] := by decide +kernel

/-- R239: at 128 ns the walker has the channel, having waited 88 cycles. -/
theorem test_arbiterGrant_example : arbFree.dev.now = 128 ∧
    ((nx (.arbiterGrant 0 0 []) arbFree).dev.arbInst 0 0).owner = some 0 ∧
    ((nx (.arbiterGrant 0 0 []) arbFree).dev.arbCount 0 0 0).longest = 88 := by decide +kernel

theorem wit_ArbiterGrantLasts : (arbOwned.dev.arbInst 0 0).owner = some 12 ∧ arbNames 0 0 24 = true ∧ arbNames 0 0 2 = true ∧
    ((nx (.arbiterGrant 0 0 [(3, false)]) arbOwned).dev.arbInst 0 0).owner = some 12 ∧
    ((nx (.requestDrop 0 0 2) arbOwned).dev.arbInst 0 0).waiting.map (·.id) = [0] ∧
    ((nx (.requestDrop 0 0 12) arbOwned).dev.arbInst 0 0).owner = none := by decide +kernel

/-- R239: the counters of the walker at channel 0, selected and then cleared. -/
theorem wit_ArbRegisterCommands : arbFree.running = true ∧
    (let t := nx (.arbSelect 0) (nx (.arbiterGrant 0 0 []) arbFree)
     t.dev.reg Off.arbLongest = 88 ∧ t.dev.reg64 Off.arbGrantsLo = 1 ∧
       ((nx .arbClearSelected t).dev.arbCount 0 0 0).grants = 0 ∧ (nx .arbClearAll t).dev.reg Off.arbWorst = 0) := by
  decide +kernel

/-- A recorder that holds 65,535 records takes one more, and a full one takes none. -/
theorem wit_RecorderKeepsFirstEvents :
    (List.replicate 65535 ({} : EventRec)).length < 65536 ∧ 65536 ≤ (List.replicate 65536 ({} : EventRec)).length ∧
    (List.replicate 65536 ({} : EventRec)).length ≤ 65536 ∧ (State.reset.dev.event 1 {}).evr.records.length = 1 := by
  simp only [List.length_replicate]
  decide +kernel

/-- Three records in the CPER ring of 16 entries; one waits in the device queue. -/
def cperState : State := dv fun d =>
  { (((d.setReg Off.evrCperCtrl 4).setReg Off.evrCperTail 3).setReg Off.evrCperBaseLo 0x10001) with
    evr := { d.evr with queue := [{ recordId := 1 }] } }

theorem wit_RecorderCommands : State.reset.running = true ∧ cperState.running = true ∧
    State.reset.dev.reg Off.evrCperTail = State.reset.dev.reg Off.evrCperHead ∧
    (4 : Word).toNat % 16 = 4 ∧ (12 : Word).toNat % 16 = 12 ∧ (13 : Word).toNat % 16 > 12 ∧ (3 : Word).toNat % 16 < 4 ∧
    (nx (.evrCperHead 3) cperState).dev.reg Off.evrCperHead = 3 ∧ (nx (.evrCperHead 4) cperState).dev.reg Off.evrCperHead = 0 ∧
    (nx (.evrCperCtrl 12) State.reset).dev.reg Off.evrCperCtrl = 12 ∧ nx (.evrCperCtrl 13) State.reset = State.reset ∧
    (nx (.evrRestart 0x10007) (dv (·.event 1 {}))).dev.evr.records = [] ∧
    (nx (.evrRestart 0x10007) (dv (·.event 1 {}))).dev.evr.nextSeq = 1 := by decide +kernel

theorem wit_CperRecordsReachTheRing : cperState.dev.evr.queue = { recordId := 1 } :: [] ∧
    cperState.dev.bitAt Off.evrCperBaseLo 0 = true ∧ cperState.dev.cperUsed < cperState.dev.cperSize ∧
    cperState.dev.env.hostHoles = [] ∧ cperState.dev.cperSlot (cperState.dev.reg Off.evrCperTail) = 0x10000 + 3 * 512 ∧
    memLoad (nx .cperRingWrite cperState).dev.host 0x10600 4 = [0x43, 0x50, 0x45, 0x52] ∧ 18 ∉ cperState.dev.env.msixMask ∧
    (nx .cperRingWrite { cperState with dev := { cperState.dev with env := { cperState.dev.env with msixMask := [18] } }
      }).dev.env.msixPending = [18] := by decide +kernel

theorem wit_DeviceErrorHalts : State.reset.dev.evr.fatal = false ∧ (nx .deviceError State.reset).dev.evr.fatal = true := by
  decide +kernel

/-- Unit 7 is held by engine 0. -/
def crcHeld : State := dv fun d => { d with crc := upd d.crc 7 fun u => { u with holder := some 0 } }

theorem wit_CrcFeeds : State.reset.running = true ∧ 7 < State.reset.dev.crc.length ∧
    (State.reset.dev.crcUnit 7).holder = none ∧ (crcHeld.dev.crcUnit 7).holder.isSome = true ∧
    (nx (.crcFeedW 7 0x34333231) crcHeld).dev.bitAt (Off.crcStatus + 0x40 * 7) 3 = true := by decide +kernel

/-- R416: the characters 123456789 give 0xE306_9283, fed as words, a half word and a byte in any mixture. -/
theorem test_crc_check_value :
    (nx (.crcFeedB 7 0x39) (nx (.crcFeedW 7 0x38373635) (nx (.crcFeedW 7 0x34333231) State.reset))).dev.crcOut 7 = 0xE3069283 ∧
    (nx (.crcFeedB 0 0x39) (nx (.crcFeedH 0 0x3837) (nx (.crcFeedH 0 0x3635) (nx (.crcFeedW 0 0x34333231)
      State.reset)))).dev.crcOut 0 = 0xE3069283 := by decide +kernel

theorem wit_CrcLoads : State.reset.running = true ∧ 7 < State.reset.dev.crc.length ∧ (State.reset.dev.crcUnit 7).holder = none ∧
    ((nx (.crcRestart 7) (nx (.crcFeedB 7 0x31) State.reset)).dev.crcUnit 7).r = 0xFFFFFFFF ∧
    ((nx (.crcValueHi 7 0) (nx (.crcValueLo 7 5) State.reset)).dev.crcUnit 7).r = 5 := by decide +kernel

theorem wit_CrcContextsRestore : State.reset.running = true ∧ (nx (.crcFeedB 0 0x31) State.reset).running = true ∧
    0 < State.reset.dev.crc.length ∧ ((nx (.crcFeedB 0 0x31) State.reset).dev.crcUnit 0).holder = none ∧
    (State.reset.dev.crcUnit 0).r < 2 ^ State.reset.dev.crcWidth 0 ∧ State.reset.dev.crcWidth 0 ≤ 64 ∧
    (nx (.crcFeedB 0 0x31) State.reset).dev.regs = State.reset.dev.regs := by decide +kernel

/-! ## The command interface -/

/-- The device with its mailboxes open, version 1 negotiated, and the completion ring of mailbox 1 at 0x1_0000 with 64 entries. -/
def host (f : Dev → Dev) : State := rdy fun d =>
  f { ((d.setReg (Off.mbxCqBaseLo + 0x20) 0x10000).setReg (mbxCtrlOff 1) 6) with mbx := { d.mbx with version := 1 } }

/-- The header of a command of R257, to the mailbox that takes it, with the sequence number expected first. -/
def cmd (op : Nat) : CmdHdr :=
  match cmdSpec op with
  | some c => { mbx := if c.admin then 0 else 1, opcode := op, bodyBytes := c.bytes }
  | none => {}

/-- The command is accepted: some header and device answer `Dev.accept`. -/
def acc (s : State) (op : Nat) : Bool := (s.dev.accept (cmd op)).1.isSome

/-- The status in the newest journal entry. -/
def lastStatus (s : State) : Option (Bool × Nat) := s.dev.mbx.journal.getLast?.map fun e => (e.done, e.status)

theorem wit_MailboxRegisters : State.reset.running = true ∧ State.reset.dev.mbx.boxes.length = 17 ∧
    (16 + 32 - (State.reset.dev.box 16).consumed) % 32 ≤ 16 ∧ 16 < (17 + 32 - (State.reset.dev.box 16).consumed) % 32 ∧
    ((nx (.doorbellWrite 16 4 16) State.reset).dev.box 16).doorbell = 16 ∧
    (nx (.doorbellWrite 16 4 17) State.reset).dev.bitAt Off.mbxStatus 4 = true ∧
    ((nx (.mbxCqHead 16 1) State.reset).dev.box 16).head = 0 ∧
    (let p := dv fun d => (d.setReg (mbxCtrlOff 16) 0x80000000).modBox 16 fun b => { b with head := 5, tail := 7, phase := false }
     p.running = true ∧ p.dev.boxPaused 16 = true ∧ (6 : Nat) ≠ p.dev.fld (mbxCtrlOff 16) 4 0 ∧
       ((nx (.mbxCqHead 16 7) p).dev.box 16).head = 7 ∧ ((nx (.mbxCqHead 16 8) p).dev.box 16).head = 5 ∧
       ((nx (.mbxCtrl 16 0x80000010) p).dev.box 16).tail = 0 ∧ (nx (.mbxCtrl 16 0x80000010) p).dev.fld (mbxCtrlOff 16) 4 0 = 16) ∧
    State.reset.dev.boxPaused 16 = false ∧ (nx (.mbxCtrl 16 6) State.reset).dev.bitAt Off.mbxStatus 2 = true := by
  decide +kernel

/-- The last entry of the ring of mailbox 1 with its last PHASE 1. -/
def lastEntry : Dev := (host fun d => d.modBox 1 fun b => { b with tail := 63, head := 60, outstanding := 1 }).dev

theorem wit_CompletionRecordReachesTheRing : 1 ≤ (cmd 0x01FF).mbx ∧ (cmd 0x01FF).mbx < lastEntry.mbx.boxes.length ∧
    lastEntry.ringSize 1 ≠ 0 ∧ lastEntry.boxPaused 1 = false ∧ lastEntry.env.hostHoles = [] ∧
    ¬ ((cmd 0x01FF).silent = true ∧ (0 : Nat) = 0) ∧
    ((lastEntry.complete (cmd 0x01FF) 0 0).box 1).phase = false ∧
    memLoad (lastEntry.complete { cmd 0x01FF with tag := 7 } 0 0).host (0x10000 + 63 * 32 + 28) 1 = [1] := by decide +kernel

theorem wit_CommandTests : (cmd 0x01FF).mbx < (host id).dev.mbx.boxes.length ∧
    State.reset.dev.boxOpen 1 = false ∧ (host id).dev.boxOpen 1 = true ∧
    (host id).dev.takeable 1 false = true ∧ (cmd 0x01FF).opcode ≠ 1 ∧ (5 : Nat) ≠ ((host id).dev.box 1).expected ∧
    acc (host id) 0x01FF = true ∧ (host id).dev.bring ≠ .recovery ∧ acc (host id) 1 = true ∧
    (nx (.nop { cmd 0x01FF with seq := 5 }) (host id)).dev.mbx.journal = [] ∧
    (nx (.nop { cmd 0x01FF with seq := 5 }) (host id)).dev.bitAt Off.mbxStatus 1 = true := by decide +kernel

/-- MAP of 4 KiB of device memory at VA 2 MiB, in slot 0 of the admin mailbox. -/
def mapSlot : State := host fun d =>
  (d.modBox 0 fun b => { b with
    doorbell := 1
    slots := [(0, 0x11), (2, 1), (0x10, 32), (0x4A, 0x20), (0x51, 0x10)] })

theorem wit_CommandTakeCarriesOutTheRow : mapSlot.running = true ∧ mapSlot.dev.turn = some 0 ∧
    mapSlot.dev.slotRewritten 0 = false ∧ (mapSlot.dev.modBox 0 fun b => { b with rewritten := [0] }).slotRewritten 0 = true ∧
    (parseHeader 0 (mapSlot.dev.nextSlot 0)).opcode = 0x0011 ∧ ((nx .commandTake mapSlot).dev.box 0).consumed = 1 ∧
    (nx .commandTake mapSlot).dev.mbx.journal.map (·.opcode) = [0x0011] ∧
    [0x0001, 0x0002, 0x0003, 0x0004, 0x0005, 0x0010, 0x0012, 0x0020, 0x0021, 0x0030, 0x0031, 0x0032, 0x0040, 0x0041, 0x0050, 0x0051,
      0x0100, 0x0101, 0x0102, 0x0103, 0x0110, 0x0111, 0x0120, 0x0121, 0x01FF].all (fun op =>
        (mapSlot.dev.modBox 0 fun b => { b with slots := [(0, BitVec.ofNat 8 op), (1, BitVec.ofNat 8 (op / 256))] }).turn = some 0) := by
  decide +kernel

theorem wit_InterfaceCommands : acc (host id) 0x01FF = true ∧ acc (host id) 0x0005 = true ∧ acc (host id) 0x0001 = true ∧
    (nx (.hello (cmd 1) 1 1 true 9 0) State.reset).dev.mbx.version = 0 ∧
    (nx (.hello (cmd 1) 1 1 true 9 0) (host id)).dev.mbx.version = 1 ∧
    ((nx (.hello (cmd 1) 0 255 true 9 0) (host id)).dev.box 16).expected = 9 ∧
    (nx (.hello (cmd 1) 2 255 false 9 0) (host id)).dev.mbx.version = 0 ∧
    (nx (.resetWarm (cmd 5)) (host id)).dev.mbx.resetDue = true ∧ lastStatus (nx (.nop (cmd 0x01FF)) (host id)) = some (true, 0) := by
  decide +kernel

/-! ## Reads of BAR0 (R105, R244, R246) -/

/-- PLN_PROG_LIMIT reads its Reset column, and a reserved offset reads 0 at any size. -/
theorem test_bar0_reads : State.reset.readBar0 0x10054 = 0x00400010 ∧ State.reset.readBar0 0x10058 = 0 ∧
    State.reset.readBar0 0x10058 8 = 0 := by
  decide +kernel

/-- A read of a register of a wrong size is a free value. -/
theorem test_bar0_read_size : State.reset.readBar0 0x10054 2 = (Config.freeWord 0).toNat := rfl

/-! ## Translation and faults -/

/-- Bytes placed in device memory. -/
def poke (d : Dev) (a : Nat) (l : List Byte) : Dev := { d with mem := memStore d.mem a l }

/-- Address space 1 is enabled, with its tables at 0x1_0000, 0x1_1000 and 0x1_2000. -/
def space1 (d : Dev) : Dev :=
  poke (poke (d.setReg (Off.mmuRootLo + 8) 0x10001) 0x10000 (le (tableBits 0x11000 false) 8)) 0x11000
    (le (tableBits 0x12000 false) 8)

/-- VA 0x20_0000 of space 1 is a writable 2 MiB page of device memory at 0x400_0000. -/
def page1 (d : Dev) : Dev := poke (space1 d) 0x12008 (le (leafBits 0 0x4000000 true false) 8)

/-- The same page, not writable. -/
def pageRo (d : Dev) : Dev := poke (space1 d) 0x12008 (le (leafBits 0 0x4000000 false false) 8)

/-- Engine 0 runs a DMA task of graph slot 2, task 1. -/
def withDma (d : Dev) : Dev := { d with dma := { tasks := [{ engine := 0, slot := 2, task := 1, space := 1, src := 0x200000, dst := 0x200100, rowBytes := 32, rows := 1 }] } }

theorem wit_WalkTestsInOrder : (dv page1).dev.upsets = [] ∧ (1 : Nat) < 16 ∧ 0x200000 < 2 ^ 52 ∧
    (dv page1).dev.root 1 = some 0x10000 ∧ (dv page1).dev.root 2 = none ∧
    (let d := (dv page1).dev
     let entry (table i : Nat) := ofLe (memLoad d.mem (table + 8 * i) 8)
     entry 0x10000 0 = tableBits 0x11000 false ∧ (entry 0x10000 511).testBit 0 = false ∧
       bits (2 ^ 52 - 1) 51 39 = 8191 ∧ tablePlace 0x11000 4096 = true ∧ entry 0x11000 0 = tableBits 0x12000 false ∧
       tablePlace 0x12000 4096 = true ∧ inOneMemory 0x4000000 (2 ^ 21) = true ∧ entry 0x12000 1 = leafBits 0 0x4000000 true false ∧
       (d.walk {} 1 0x3FFFFF true).1 = .ok ⟨1, 0x200000, 2 ^ 21, 0, 0x4000000, true, false⟩ ∧
       (d.walk {} 1 (2 ^ 52) true).1 = .fault ⟨4, 0, 0, 2 ^ 52, true, false⟩ ∧
       (d.walk {} 2 0 true).1 = .fault ⟨5, 0, 0, 0, true, false⟩) ∧
    ofLe (memLoad (dv pageRo).dev.mem 0x12008 8) = leafBits 0 0x4000000 false false ∧
    ((dv pageRo).dev.walk {} 1 0x200000 true).1 = .fault ⟨2, 2, leafBits 0 0x4000000 false false, 0x200000, true, false⟩ := by
  decide +kernel

theorem wit_WalksEnd : (dv fun d => withDma (page1 d)).dev.unitTask 1 0 = some (2, 1) ∧
    (dv fun d => withDma (page1 d)).dev.stopped 2 1 = false ∧
    (nx (.walkComplete 1 0 1 0x200000 true) (dv fun d => withDma (page1 d))).dev.mmu.tlb.length = 1 ∧
    (let s := dv fun d => withDma (pageRo d)
     (∃ f, (s.dev.walk (s.dev.reader 1 0 2 1) 1 0x200000 true).1 = .fault f ∧ f.cause = 2) ∧
       (s.dev.walk (s.dev.reader 1 0 2 1) 1 0x200000 true).2.mmu.slotOrder.head? = some 0 ∧
       (nx (.walkComplete 1 0 1 0x200000 true) s).dev.stopped 2 1 = true) := by
  refine ⟨by decide +kernel, by decide +kernel, by decide +kernel, ⟨_, rfl, by decide +kernel⟩, by decide +kernel,
    by decide +kernel⟩

/-- A pending record in slot 255 of an access to VA 0x20_0000. -/
def faulted (f : Dev → Dev) : State := dv fun d =>
  f { d with mmu := { d.mmu with faults := [(255, { seq := 1, cause := 1, space := 1, address := 0x200000, ts := 50, graph := 2, task := 1 })] } }

theorem wit_FaultRecordsResolve :
    (∃ f, (faulted page1).dev.pendingFault 255 = some f ∧ (faulted page1).dev.accessible f = true ∧
      (faulted page1).dev.kvManaged f = false) ∧ (faulted page1).dev.pendingFault 0 = none ∧
    ((look (nx (.faultResume 255) (faulted page1)).dev.mmu.faults 255).map (·.outcome)) = some 1 ∧
    ((look (nx (.faultFail 255 0) (faulted id)).dev.mmu.faults 255).map (·.status)) = some 0x0501 ∧
    ((look (nx (.faultTimeout 255) (faulted id)).dev.mmu.faults 255).map (·.outcome)) = some 3 ∧
    (nx (.faultTimeout 255) (faulted id)).dev.now = 200050 := by
  refine ⟨⟨_, rfl, by decide +kernel, by decide +kernel⟩, by decide +kernel, by decide +kernel, by decide +kernel,
    by decide +kernel, by decide +kernel⟩

/-- Two cached translations of space 1, one of KV, and one of space 2. -/
def cached3 (inv : Bool) : State := dv fun d =>
  { d with mmu := { d.mmu with
      inv := inv
      tlb := [⟨1, 0x200000, 0x1000, 0, 0x4000000, true, false⟩, ⟨1, 0x201000, 0x1000, 0, 0x4001000, true, true⟩,
        ⟨2, 0x200000, 0x1000, 0, 0x4002000, true, true⟩] } }

theorem wit_InvalidationsDropTheirScope : (cached3 false).running = true ∧ (cached3 false).dev.mmu.inv = false ∧
    (cached3 true).dev.mmu.inv = true ∧ (nx .invalidateAll (cached3 false)).dev.mmu.tlb.length = 0 ∧
    (nx (.invalidateSpace 1) (cached3 false)).dev.mmu.tlb.length = 1 ∧
    (nx (.invalidateRange 1 0x201 1) (cached3 false)).dev.mmu.tlb.length = 2 ∧
    (nx (.invalidateKvSpace 1) (cached3 false)).dev.mmu.tlb.length = 2 ∧
    (nx .invalidateKvAll (cached3 false)).dev.mmu.tlb.length = 1 ∧
    (nx .invalidateAll (cached3 true)).dev.bitAt Off.mmuStatus 5 = true ∧
    (nx .invalidationComplete (cached3 true)).dev.mmu.inv = false := by decide +kernel

theorem wit_FaultSnapshotAndBar2 : (faulted id).running = true ∧
    (look (faulted id).dev.mmu.faults ((0x1FF : Word).toNat % 256)).isSome = true ∧
    (nx (.mmuFaultRead 0x1FF) (faulted id)).dev.reg Off.mmuFaultData = 1 ∧
    (let s := { cached3 false with dev := (cached3 false).dev.setReg Off.mmuBar2Ctrl 1 }
     s.dev.upsets = [] ∧ (s.dev.cached 1 0x200FFF false).map (·.target) = some 0 ∧ 0x200FFF % 4096 + 1 ≤ 4096 ∧
       (s.dev.cached 1 0x200FFF true).isSome = true ∧
       memGet (nx (.bar2Access true 0x200FFF 1 [7]) s).dev.mem 0x4000FFF = 7 ∧
       (nx (.bar2Access false 0x200FFF 1 []) (nx (.bar2Access true 0x200FFF 1 [7]) s)).dev.env.bar2.getLast? = some (some [7]) ∧
       s.dev.env.bar2Size = 34 ∧ s.dev.mmu.slotOrder ≠ [] ∧
       (let t := { s with dev := s.dev.setReg (Off.mmuBar2BaseLo + 4) (2 ^ 20) }
        t.dev.reg64 Off.mmuBar2BaseLo = 2 ^ 52 ∧ t.dev.cached 1 (2 ^ 52) false = none ∧
          (nx (.bar2Access false 0 1 []) t).dev.env.bar2 = [none])) := by decide +kernel

/-- Space 1, with its tables allocated. -/
def owned1 : State := host fun d =>
  { space1 d with mmu := { d.mmu with tables := [(1, 0x10000)], alloc := [(0x10000, 0x10000), (0x11000, 0x1000), (0x12000, 0x1000)] } }

/-- MAP of a page of host memory at VA 2^50, of space 1. -/
def mapped : State := nx (.map (cmd 0x0011) 1 3 0 true false (2 ^ 50) 4096 0x5000) owned1

theorem wit_MappingCommands : acc (host space1) 0x0010 = true ∧ acc (host space1) 0x0011 = true ∧ acc (host space1) 0x0012 = true ∧
    (host space1).dev.spaceInUse 15 = false ∧
    (host fun d => { d with grf := { d.grf with slots := upd d.grf.slots 15 fun g => { g with state := .loaded, space := 15 } } }).dev.spaceInUse 15 = true ∧
    lastStatus (nx (.spaceSet (cmd 0x0010) 15 true)
      (host fun d => { d with grf := { d.grf with slots := upd d.grf.slots 15 fun g => { g with state := .loaded, space := 15 } } })) = some (true, 0x0014) ∧
    (nx (.spaceSet (cmd 0x0010) 15 false) (host id)).dev.mmu.spaceCmds.length = 1 ∧
    (owned1.dev.doMap 1 3 0 true false (2 ^ 50) 4096 0x5000).status = 0 ∧ lastStatus mapped = some (true, 0) ∧
    mapped.dev.mmu.maps.map (·.pages) = [[0x5000]] ∧ (mapped.dev.root 1).isSome = true ∧
    meets (2 ^ 50) 4096 (mapped.dev.fld Off.attKvWindow 1 0 * 2 ^ 50) (2 ^ 50) = false ∧ meets (2 ^ 50) 4096 (2 ^ 50) 4096 = true ∧
    lastStatus (nx (.map { cmd 0x0011 with seq := 1 } 1 3 0 true false (2 ^ 50) 4096 0x5000) mapped) = some (true, 0x0012) ∧
    lastStatus (nx (.unmap { cmd 0x0012 with seq := 1 } 1 (2 ^ 50) 8192) mapped) = some (true, 0x0501) ∧
    (nx (.unmap { cmd 0x0012 with seq := 1 } 1 (2 ^ 50) 4096) mapped).dev.mmu.maps = [] := by decide +kernel

/-! ## DMA engines -/

/-- Fields placed in device memory: offset, value and bytes of each. -/
def fill (d : Dev) (at0 : Nat) (l : List (Nat × Nat × Nat)) : Dev := l.foldl (fun d f => poke d (at0 + f.1) (le f.2.1 f.2.2)) d

/-- Graph slot 0 runs a graph of one task for each (type, body) in space 1, whose VA 0x20_0000 holds it; each task stands at
`st` and its body in memory. -/
def graph (st : TaskSt) (l : List (Nat × List (Nat × Nat × Nat))) (d : Dev) : Dev :=
  let d := l.zipIdx.foldl (fun d t => fill d (0x4000000 + 256 * t.2 + 64) t.1.2) (page1 d)
  { d with grf := { d.grf with slots := upd d.grf.slots 0 fun g =>
      { g with
        state := .running
        space := 1
        rank := 2
        base := 0x200000
        runId := 1
        tasks := l.map fun k => { type := k.1 }
        run := l.map fun _ => { st := st } } } }

/-- A cached translation of the page of space 1. -/
def hot (d : Dev) : Dev := { d with mmu := { d.mmu with tlb := [⟨1, 0x200000, 2 ^ 21, 0, 0x4000000, true, false⟩] } }

/-- A copy of 32 bytes from VA 0x20_1000 to VA 0x20_2000, checked by unit 3 over chunks of 64 bytes. -/
def copyBody (mode : Nat) : List (Nat × Nat × Nat) :=
  [(0, 1, 1), (1, mode + (if mode = 0 then 0 else 3 * 16), 1), (4, if mode = 0 then 0 else 64, 4), (8, 0x201000, 8), (0x10, 0x202000, 8), (0x18, 32, 4), (0x1C, 1, 4)]

/-- A fill of one row with a pattern. -/
def fillBody : List (Nat × Nat × Nat) := [(0, 2, 1), (8, 0x0807060504030201, 8), (0x10, 0x202000, 8), (0x18, 12, 4), (0x1C, 1, 4)]

theorem wit_DmaTasksStart :
    (let s := rdy (graph .issued [(5, copyBody 1)])
     s.dev.issuedWhere 5 (fun k => (k % 16 == 2) == false) = some (0, 0) ∧ s.dev.freeEngine = some 0 ∧
       (got (Chk.thn (s.dev.readBody 0 0 64) checkDma)).any (fun x => decide (x.mode = 1 ∧ x.unit = 3 ∧ x.rowBytes = 32)) = true ∧
       (∀ y ∈ (Chk.thn (s.dev.readBody 0 0 64) checkDma).2.dma.tasks, y.engine ≠ 0) ∧
       ((nx .dmaCopy s).dev.crcUnit 3).holder = some 0) ∧
    (let s := rdy (graph .issued [(5, fillBody)])
     s.dev.issuedWhere 5 (fun k => (k % 16 == 2) == true) = some (0, 0) ∧
       (got (Chk.thn (s.dev.readBody 0 0 64) checkDma)).any (·.fill) = true ∧
       (nx .dmaFill s).dev.dma.tasks.map (·.rowBytes) = [12]) := by decide +kernel

/-- The copy started, and its source holds four bytes. -/
def copying : State := nx .dmaCopy (rdy fun d => hot (poke (graph .issued [(5, copyBody 0)] d) 0x4001000 [1, 2, 3, 4]))

theorem wit_TransferUnitMovesItsBytes :
    ((copying.dev.dmaTask 0).any fun x => decide (copying.dev.bitAt Off.dmaCtrl 0 = false ∧ x.saved = false ∧ x.waits = false ∧
         copying.dev.stopped x.slot x.task = false ∧ copying.dev.marked x.slot x.task = false ∧ x.mode = 0 ∧
         copying.dev.upsets = [] ∧ x.unitBytes.1 = 32 ∧ x.fill = false ∧
         (copying.dev.cached 1 0x201000 false).map (·.target) = some 0 ∧ (copying.dev.cached 1 0x202000 true).map (·.target) = some 0 ∧
         (∀ i ∈ List.range 32, x.overlaps x.row (0x202000 + i) = false) ∧ x.pos + 32 = x.rowBytes ∧ x.row + 1 = x.rows)) ∧
    memLoad (nx (.transferUnit 0) copying).dev.mem 0x4002000 5 = [1, 2, 3, 4, 0] ∧
    (nx (.transferUnit 0) copying).dev.reg64 Off.dmaBytesLo = 32 ∧ (nx (.transferUnit 0) copying).dev.dmaTask 0 = none := by
  decide +kernel

/-- R221: a fill repeats its 8-byte pattern. -/
theorem test_fill_pattern :
    memLoad (nx (.transferUnit 0) (nx .dmaFill (rdy (graph .issued [(5, fillBody)])))).dev.mem 0x4002000 13 =
      [1, 2, 3, 4, 5, 6, 7, 8, 1, 2, 3, 4, 0] := by decide +kernel

/-- Rows of 4,096 bytes that lie across a page boundary: the first unit ends at the boundary. -/
def rowsTask : DmaTask := { slot := 0, task := 0, space := 1, src := 0x201800, dst := 0x202800, rowBytes := 4096, rows := 2, srcStride := 0x2000, dstStride := 0x2000 }

theorem wit_TransferUnit_rows : rowsTask.unitBytes.1 = 2048 ∧ rowsTask.pos + 2048 < rowsTask.rowBytes ∧
    (let x := { rowsTask with pos := 2048, outPos := 2048, rows := 3 }
     x.unitBytes.1 = 2048 ∧ x.pos + 2048 = x.rowBytes ∧ x.row + 1 < x.rows) := by decide +kernel

/-- Engine 0 runs a task of unit 3 that waits for it. -/
def engine (f : DmaTask → DmaTask) (st : TaskSt) (mark : Bool) : State := rdy fun d =>
  let d := hot (graph st [(5, copyBody 1)] d)
  { d with
    dma := { tasks := [f { rowsTask with engine := 0, mode := 1, unit := 3, chunk := 64, rows := 1, savedR := 9 }] }
    grf := { d.grf with slots := upd d.grf.slots 0 fun g => { g with run := [{ st := st, marked := mark }] } } }

theorem wit_DmaEngineEvents :
    (let s := engine (fun x => { x with waits := true }) .running false
     (s.dev.dmaTask 0).map (fun x => (x.waits, x.saved, x.mode, x.unit)) = some (true, false, 1, 3) ∧
       (s.dev.crcUnit 3).holder = none ∧ ((nx (.checkUnitAcquire 0) s).dev.crcUnit 3).r = 9) ∧
    (let s := engine id .running true
     s.dev.marked 0 0 = true ∧ (nx (.dmaSave 0) s).dev.dmaTask 0 = none ∧
       (nx (.dmaSave 0) s).dev.dma.tasks.map (·.saved) = [true]) ∧
    (let s := engine (fun x => { x with saved := true }) .saved false
     s.dev.canResume 0 0 = true ∧ s.dev.dmaTask 0 = none ∧ s.dev.firstTask ((s.dev.dma.tasks.filter fun t =>
         t.saved && decide (t.engine = 0) && s.dev.canResume t.slot t.task).map fun t => (t.slot, t.task)) = some (0, 0) ∧
       ((nx (.dmaResume 0) s).dev.dmaTask 0).map (·.saved) = some false ∧
       ((nx (.dmaResume 0) s).dev.crcUnit 3).holder = some 0) ∧
    (let s := engine id .running false
     let s := { s with dev := { s.dev with mmu := { s.dev.mmu with tlb := [⟨1, 0x200000, 2 ^ 21, 1, 0x4000000, true, false⟩] } } }
     s.dev.stopped 0 0 = false ∧ (s.dev.dmaTask 0).any (fun x =>
         (went (s.dev.translateUnit (s.dev.reader 1 0 x.slot x.task) x)).any (fun a => a.1 || a.2)) = true ∧
       (nx (.hostAccess 0) s).dev.reg Off.dmaHostErrors = 1) := by decide +kernel

/-! ## The graph engine -/

/-- Slot 15 in a state, with one task of two predecessors. -/
def slot15 (st : SlotState) (f : GraphSlot → GraphSlot) : State := host fun d =>
  { d with grf := { d.grf with slots := upd d.grf.slots 15 fun g =>
      (f { g with
          state := st
          tasks := [{ type := 5, preds := 2 }]
          run := if st = .empty then [] else [{ left := 2, st := .waiting }]
          cmd := if st = .waiting ∨ st = .running then some { cmd 0x0101 with j := 99 } else none }) } }

theorem wit_GraphSlotCommands : 15 < (host id).dev.grf.slots.length ∧
    [SlotState.empty, .loaded, .waiting, .running, .stopping].all (fun st => acc (slot15 st id) 0x0101 &&
      acc (slot15 st id) 0x0102 && acc (slot15 st id) 0x0103) = true ∧
    lastStatus (nx (.graphRun (cmd 0x0101) 15) (slot15 .empty id)) = some (true, 0x0705) ∧
    lastStatus (nx (.graphRun (cmd 0x0101) 15) (slot15 .waiting id)) = some (true, 0x0706) ∧
    ((nx (.graphRun (cmd 0x0101) 15) (slot15 .loaded id)).dev.slot 15).state = .waiting ∧
    ((nx (.graphRun (cmd 0x0101) 15) (slot15 .loaded fun g => { g with startNow := true })).dev.slot 15).state = .running ∧
    ((nx (.graphRun (cmd 0x0101) 15) (slot15 .loaded id)).dev.slot 15).run.map (·.left) = [2] ∧
    ((nx (.graphCancel (cmd 0x0102) 15) (slot15 .waiting id)).dev.slot 15).state = .loaded ∧
    ((nx (.graphCancel (cmd 0x0102) 15) (slot15 .running id)).dev.slot 15).state = .loaded ∧
    (slot15 .running id).dev.programming 15 = false ∧
    lastStatus (nx (.graphCancel (cmd 0x0102) 15) (slot15 .stopping id)) = some (true, 0) ∧
    ((nx (.graphUnload (cmd 0x0103) 15) (slot15 .loaded id)).dev.slot 15).state = .empty ∧
    lastStatus (nx (.graphUnload (cmd 0x0103) 15) (slot15 .running id)) = some (true, 0x0706) := by decide +kernel

/-- A descriptor at VA 0x20_3000 of two DMA tasks at VA 0x20_0000, with one edge from the first to the second; PRED_COUNT of
the second as given. -/
def described (preds : Nat) : State := host fun d =>
  fill (fill (fill (fill (hot (page1 d)) 0x4003000 [(0, 2, 4), (4, 2, 1), (6, 1, 1), (0xC, 1, 4), (0x10, 0x200000, 8), (0x18, 0x203040, 8)])
    0x4003040 [(0, 1, 2)]) 0x4000000 [(0, 5, 1), (8, 1, 2), (0xC, 0xFFFFFFFF, 4)]) 0x4000100 [(0, 5, 1), (2, preds, 2), (0xC, 0xFFFFFFFF, 4)]

theorem wit_GraphLoad : 0 < (described 1).dev.grf.slots.length ∧ acc (described 1) 0x0100 = true ∧
    ((described 1).dev.slot 0).state = .empty ∧ ((described 1).dev.graphLoad 0 1 0x203000).status = 0 ∧
    ((nx (.graphLoad (cmd 0x0100) 0 1 0x203000) (described 1)).dev.slot 0).state = .loaded ∧
    ((nx (.graphLoad (cmd 0x0100) 0 1 0x203000) (described 1)).dev.slot 0).tasks.map (·.preds) = [0, 1] ∧
    lastStatus (nx (.graphLoad (cmd 0x0100) 0 1 0x203001) (described 1)) = some (true, 0x000C) ∧
    lastStatus (nx (.graphLoad (cmd 0x0100) 15 1 0x203000) (slot15 .loaded id)) = some (true, 0x0704) := by decide +kernel

/-- R277: a PRED_COUNT that is not the number of edges is GRAPH_EDGES. -/
theorem test_graphLoad_edges :
    lastStatus (nx (.graphLoad (cmd 0x0100) 0 1 0x203000) (described 0)) = some (true, 0x0703) := by decide +kernel

/-- Two graphs with one ready DMA task each: slot 0 of rank 2, and slot 1 of the rank given, accepted earlier. -/
def twoGraphs (rank : Nat) (st : TaskSt) : State := rdy fun d =>
  { d with grf := { d.grf with slots := upd (upd d.grf.slots 0 fun g =>
      { g with
        state := .running, rank := 2, order := 5, tasks := [{ type := 5, succCount := 1 }, { type := 5, preds := 1 }], edges := [1]
        run := [{ st := st }, { st := .waiting, left := 1 }] }) 1 fun g =>
      { g with state := .running, rank := rank, order := 4, tasks := [{ type := 5 }], run := [{ st := .ready }] } } }

theorem wit_TaskIssueAndCompletion :
    (let s := twoGraphs 1 .ready
     s.dev.mbx.refCmd = none ∧ s.dev.pipSaved = [] ∧
       s.dev.firstTask ((s.dev.tasksIn .ready).filter fun t => (s.dev.taskRun t.1 t.2).isVoid || s.dev.mayIssue t.1 t.2) = some (0, 0) ∧
       (s.dev.taskRun 0 0).isVoid = false ∧ ((nx .taskIssue s).dev.taskRun 0 0).st = .issued) ∧
    ((nx .taskIssue (twoGraphs 2 .ready)).dev.taskRun 1 0).st = .issued ∧
    (let s := twoGraphs 7 .ended
     s.dev.firstTask (s.dev.tasksIn .ended) = some (0, 0) ∧ 0 < s.dev.grf.slots.length ∧ 0 < (s.dev.slot 0).run.length ∧
       0 ∉ (s.dev.taskHdr 0 0).successors (s.dev.slot 0).edges ∧
       1 ∈ (s.dev.taskHdr 0 0).successors (s.dev.slot 0).edges ∧ 1 < (s.dev.slot 0).run.length ∧
       (s.dev.taskRun 0 1).st = .waiting ∧ (s.dev.taskRun 0 1).left = 1 ∧
       ((nx .taskComplete s).dev.taskRun 0 1).st = .ready ∧ (nx .taskComplete s).dev.reg64 Off.grfTasksLo = 1) := by
  decide +kernel

/-- A running graph whose one task is complete. -/
def finished15 (f : GraphSlot → GraphSlot) : State := host fun d =>
  { d with
    grf := { d.grf with slots := upd d.grf.slots 15 fun g =>
      (f { g with state := .running, tasks := [{ type := 5 }], run := [{ st := .complete }], done := 1, overrunFrames := 2, cmd := some { cmd 0x0101 with tag := 7 } }) }
    mbx := { d.mbx with journal := [{ j := 0 }] } }

theorem wit_GraphCompletes : 15 < (finished15 id).dev.grf.slots.length ∧ ((finished15 id).dev.slot 15).finished = true ∧
    ((finished15 id).dev.slot 15).template = none ∧ ((finished15 id).dev.slot 15).cancel = none ∧
    ((finished15 id).dev.slot 15).cmd.isSome = true ∧ lastStatus (nx (.graphComplete 15) (finished15 id)) = some (true, 0) ∧
    lastStatus (nx (.graphComplete 15) (finished15 fun g => { g with auditFailed := true })) = some (true, 0x0202) ∧
    ((finished15 fun g => { g with audits := 1 }).dev.slot 15).audits ≠ 0 ∧
    ((nx (.graphComplete 15) (finished15 fun g => { g with audits := 1 })).dev.slot 15).state = .running ∧
    (∃ x ∈ ((slot15 .running id).dev.slot 15).run, x.st ≠ .complete) ∧ ((slot15 .loaded id).dev.slot 15).state ≠ .running := by
  decide +kernel

theorem wit_OverrunsAndFrameLimits : (∀ t ∈ [1, 2], 15 < (slot15 .running fun g => { g with frames := 2, limit := 2, ticks := t }).dev.grf.slots.length) ∧
    (let s := slot15 .running fun g => { g with frames := 2, limit := 2, ticks := 2 }
     (s.dev.slot 15).state = .running ∧ (s.dev.slot 15).frames ≠ 0 ∧ (s.dev.slot 15).overran = false ∧
       s.dev.evr.records.length < 65536 ∧ (nx (.graphOverrun 15) s).dev.reg Off.grfOverruns = 1 ∧
       (nx (.graphOverrun 15) (nx (.graphOverrun 15) s)).dev.reg Off.grfOverruns = 1 ∧
       ((nx (.frameLimit 15) s).dev.slot 15).state = .loaded ∧ (nx (.frameLimit 15) s).dev.bitAt Off.grfStatus 4 = true) ∧
    (let s := slot15 .running fun g => { g with frames := 2, limit := 2, ticks := 1 }
     (s.dev.slot 15).ticks < (s.dev.slot 15).frames ∧ ((nx (.graphOverrun 15) s).dev.slot 15).overran = false ∧
       ((nx (.frameLimit 15) s).dev.slot 15).state = .running) := by decide +kernel

/-- Device `id` of a formed fabric of two devices. -/
def inFabric (id : Nat) (f : Dev → Dev) : State := rdy fun d =>
  f { d.setReg Off.lnkFabric id with lnk := { d.lnk with formed := true, leader := 0, nx := 2, joined := [0, 1] } }

theorem wit_FrameLengthRequests :
    (let s := rdy id
     s.running = true ∧ bits (8 : Word).toNat 11 0 = 8 ∧ bits (4000 : Word).toNat 11 0 = 4000 ∧ s.dev.lnk.formed = false ∧
       (nx (.grfFrameRequest 8) s).dev.grf.frameAt = s.dev.grf.tick + 1 ∧
       (nx (.grfFrameRequest 9) (nx (.grfFrameRequest 8) s)).dev.grf.frameNext = 9 ∧ nx (.grfFrameRequest 7) s = s ∧
       nx (.grfFrameRequest 4001) s = s) ∧
    (let s := inFabric 0 id
     s.running = true ∧ s.dev.lnk.formed = true ∧ s.dev.lnk.outOfPlan = false ∧ s.dev.deviceId = 0 ∧
       (nx (.grfFrameRequest 4000) s).dev.grf.frameAt = s.dev.grf.tick + 17 ∧
       (nx (.grfFrameRequest 4000) s).dev.lnk.sent.map (fun p => (p.dst, p.channel, p.type)) = [(1, 4, 0xB)]) ∧
    (let s := inFabric 1 id
     s.dev.deviceId ≠ 0 ∧ nx (.grfFrameRequest 4000) s = s ∧
       (let p : Packet := { dst := 1, channel := 4, type := 0xB, payload := le 100 4 ++ le 50 8 ++ List.replicate 20 0 }
        (s.dev.deliver p).grf.frameNext = 100 ∧ (s.dev.deliver p).grf.frameAt = 50)) := by decide +kernel

/-- A pip task of two cores of cluster 1, with code at VA 0x20_1000. -/
def pipBody : List (Nat × Nat × Nat) := [(0, 2, 1), (1, 2, 1), (8, 0x201000, 8), (0x10, 77, 8)]

theorem wit_PipTasks_start :
    (let s := rdy (graph .issued [(4, pipBody)])
     s.dev.firstTask ((s.dev.tasksIn .issued).filter fun t => decide ((s.dev.taskHdr t.1 t.2).type = 4) &&
       !s.dev.stopped t.1 t.2 && s.dev.coresFree t.1 t.2) = some (0, 0) ∧
     (got (Chk.thn (s.dev.readBody 0 0 64) checkPip)).map (·.cores) = some 2 ∧
     (nx .pipTaskStart s).dev.grf.pip.map (fun p => (p.core, p.rank, p.argument, p.cores)) = [(32, 0, 77, 2), (33, 1, 77, 2)]) := by
  decide +kernel

/-- The task's cores. -/
def pipping : State := nx .pipTaskStart (rdy fun d => hot (graph .issued [(4, pipBody)] d))

/-- The accesses of core 33 made: a store to memory, one to its own memory, and a read. -/
def accessed (p : PipCore) : Acc Unit × Dev :=
  [(0x202000, some (5 : Byte)), (0x10, some 6), (0x202000, none)].foldl (fun (x : Acc Unit × Dev) a =>
    match x.1 with
    | .ok _ => x.2.pipAccess p a
    | _ => x) (.ok (), pipping.dev)

theorem wit_PipTasks :
    (∃ p, pipping.dev.pipCore 33 = some p ∧ pipping.dev.stopped p.slot p.task = false ∧ p.limit = 0 ∧
      pipping.dev.marked p.slot p.task = false ∧ p.slot < pipping.dev.grf.slots.length ∧
      (pipping.dev.slot p.slot).state = .running ∧ pipping.dev.programming p.slot = false ∧
      endsAlone pipping.dev p.slot ∧ (went (accessed p)).isSome = true ∧ memGet (accessed p).2.mem 0x4002000 = 5 ∧
      ((accessed p).2.pipCore 33).bind (fun q => look q.own 0x10) = some 6) ∧
    (let t := nx (.pipCoreExit 33 0 [(0x202000, some 5), (0x10, some 6)]) pipping
     memGet t.dev.mem 0x4002000 = 5 ∧ t.dev.grf.pip.map (·.core) = [32] ∧ (t.dev.taskRun 0 0).st = .running ∧
       ((nx (.pipCoreExit 32 0 []) t).dev.taskRun 0 0).st = .ended) ∧
    ((nx (.pipCoreExit 33 1 []) pipping).dev.slot 0).state = .loaded ∧
    ((nx (.pipQuantumEnd 33) pipping).dev.pipCore 33).map (·.quanta) = some 1 ∧
    (nx (.pipException 33) pipping).dev.grf.pip = [] := by
  refine ⟨⟨_, rfl, by decide +kernel, by decide +kernel, by decide +kernel, by decide +kernel, by decide +kernel,
    by decide +kernel, ⟨by decide +kernel, fun l x h => ?_⟩, by decide +kernel, by decide +kernel, by decide +kernel⟩, ?_⟩
  · have : pipping.dev.pln.logical = [] := by decide +kernel
    simp [Dev.log, this, look] at h
  · decide +kernel

/-! ## Serving -/

/-- Damson's space 0 holds a cached page of device memory at VA 0x20_0000. -/
def hot0 (d : Dev) : Dev := { d with mmu := { d.mmu with tlb := [⟨0, 0x200000, 2 ^ 21, 0, 0x4000000, true, false⟩] } }

/-- The serving template of edition 5: it embeds and samples, with four rows a step, and its graph in slot 0. -/
def tpl : Template := { index := 0, edition := 5, stepSlot := 0, embeds := true, samples := true, capacity := 4 }

/-- A READY tile of an edition. -/
def tileOf (e : Nat) (st : TileState) : LogTile := { state := st, edition := e }

/-- The device that serves edition 5; a neutral greedy sampling block lies at VA 0x20_0000, and the prompt 7, 8 at 0x20_0100. -/
def serving (f : Dev → Dev) : State := host fun d =>
  f { fill (hot0 d) 0x4000000 [(4, 0x3F800000, 4), (0x10, 0x3F800000, 4), (0x14, 64, 1), (0x100, 7, 4), (0x104, 8, 4)] with
      srv := { d.srv with current := 5, templates := [tpl] }
      pln := { d.pln with logical := [(1, tileOf 5 .digital), (2, tileOf 6 .digital), (3, tileOf 7 .programming)] } }

/-- An admission of two prompt tokens. -/
def body (i : Nat) : AdmitBody :=
  { id := i, maxTokens := 9, seed := 3, ring := 0x100000, ringEntries := 64, promptTokens := 2, prompt := 0x200100, sampling := 0x200000 }

/-- A tracked request. -/
def tracked (i sq : Nat) : Request := { id := i, seqSlot := sq, order := i, edition := 5, maxTokens := 9, promptTokens := 2, sampling := {} }

/-- The device tracks requests. -/
def tracks (rs : List Request) (d : Dev) : Dev := { d with srv := { d.srv with requests := rs } }

theorem wit_RequestAdmission : acc (serving id) 0x0110 = true ∧ (serving id).dev.bitAt Off.plnCtrl 0 = false ∧
    (let c := serving fun d => d.setBit Off.plnCtrl 0
     acc c 0x0110 = true ∧ c.dev.bitAt Off.plnCtrl 0 = true ∧ lastStatus (nx (.requestAdmit (cmd 0x0110) (body 1)) c) = some (true, 0x0109)) ∧
    lastStatus (nx (.requestAdmit (cmd 0x0110) (body 0xFFFFFFFF)) (serving id)) = some (true, 0x000A) ∧
    (((serving id).dev.accept (cmd 0x0110)).2.template 5).map (·.samples) = some true ∧ (body 1).ring % 4096 = 0 ∧
    lastStatus (nx (.requestAdmit (cmd 0x0110) { body 1 with ring := 0x100001 }) (serving id)) = some (true, 0x000A) ∧
    ((serving (tracks [tracked 1 0])).dev.request 1).isSome = true ∧
    lastStatus (nx (.requestAdmit (cmd 0x0110) (body 1)) (serving (tracks [tracked 1 0]))) = some (true, 0x0801) ∧
    ((serving id).dev.admission (body 1)).status = 0 ∧ ((serving id).dev.admission { body 1 with promptTokens := 0 }).status ≠ 0 ∧
    (let t := nx (.requestAdmit (cmd 0x0110) (body 2)) (serving (tracks [tracked 1 0]))
     (t.dev.request 2).map (fun r => (r.seqSlot, r.edition, r.prompt)) = some (1, 5, [7, 8]) ∧ t.dev.request 1 = some (tracked 1 0)) := by
  decide +kernel

theorem wit_RequestAdmission_full : 4096 ≤ (List.replicate 4096 (tracked 1 0)).length ∧ (0 : Nat) ≠ 0xFFFFFFFF := by
  rw [List.length_replicate]; decide

/-- Two requests tracked, the first retiring since tick 3, and the tick as given. -/
def retiring (tick : Nat) : State := serving fun d =>
  { tracks [{ tracked 1 0 with retiring := true, retireTick := 3 }, { tracked 2 1 with emitted := 4 }] d with grf := { d.grf with tick := tick } }

/-- An adapter image of one point, at VA 0x20_0200. -/
def withImage : State := serving fun d => fill d 0x4000200 [(0, 1, 4), (4, 5, 4), (0x50, 0x10, 8), (0x58, 0x20, 8)]

/-- The device has adapter 9, and a request that names it or none. -/
def withAdapter (dmg : Bool) (a : Option Nat) : State := serving fun d =>
  { d with srv := { d.srv with adapters := [{ id := 9, base := 0x8000, bytes := 128, damaged := dmg }], requests := [{ tracked 1 0 with adapter := a }] } }

theorem wit_RetirementAndAdapters : acc (retiring 3) 0x0111 = true ∧ (retiring 3).dev.request 8 = none ∧
    lastStatus (nx (.requestRetire (cmd 0x0111) 8) (retiring 3)) = some (true, 0x0802) ∧
    ((nx (.requestRetire (cmd 0x0111) 2) (retiring 3)).dev.request 2).map (·.retiring) = some true ∧
    ((retiring 3).dev.request 1).map (fun r => decide ((retiring 3).dev.grf.tick ≤ r.retireTick)) = some true ∧
    ((retiring 4).dev.request 1).map (fun r => decide (r.retireTick < (retiring 4).dev.grf.tick)) = some true ∧
    (retiring 4).dev.inRun 1 = false ∧ (retiring 4).dev.seqBusy 0 = false ∧ nx (.retireEffect 1) (retiring 3) = retiring 3 ∧
    (nx (.retireEffect 1) (retiring 4)).dev.srv.requests.map (·.id) = [2] ∧
    nx (.retireEffect 2) (retiring 4) = retiring 4 := by decide +kernel

theorem wit_RetirementAndAdapters_load : acc withImage 0x0120 = true ∧ acc (withAdapter false none) 0x0120 = true ∧
    lastStatus (nx (.adapterLoad (cmd 0x0120) 9 2 0x200200 128) withImage) = some (true, 0x000A) ∧
    (∃ a ∈ (withAdapter false none).dev.srv.adapters, a.id = 9) ∧
    lastStatus (nx (.adapterLoad (cmd 0x0120) 9 1 0x200200 128) (withAdapter false none)) = some (true, 0x080A) ∧
    (match withImage.dev.fetch 0x200200 128 with
      | (.ok l, d1) => imageOk l 128 && (d1.allocMem .hbm (alignUp 128 4096) 4096).isSome &&
          (d1.allocNear (alignUp 128 4096) 4096).isSome && decide (d1.upsets = [])
      | _ => false) = true ∧
    (match withImage.dev.fetch 0x200400 128 with | (.ok l, _) => !imageOk l 128 | _ => false) = true ∧
    lastStatus (nx (.adapterLoad (cmd 0x0120) 9 0 0x200400 128) withImage) = some (true, 0x080D) ∧
    (nx (.adapterLoad (cmd 0x0120) 9 0 0x200200 128) withImage).dev.srv.adapters.map (fun a => (a.id, a.edition, a.points)) = [(9, 5, 1)] := by
  decide +kernel

theorem wit_RetirementAndAdapters_unload : acc (withAdapter false none) 0x0121 = true ∧ acc (serving id) 0x0121 = true ∧
    (∀ a ∈ (serving id).dev.srv.adapters, a.id ≠ 9) ∧ lastStatus (nx (.adapterUnload (cmd 0x0121) 9) (serving id)) = some (true, 0x0809) ∧
    (∃ r ∈ (withAdapter false (some 9)).dev.srv.requests, r.adapter = some 9) ∧
    lastStatus (nx (.adapterUnload (cmd 0x0121) 9) (withAdapter false (some 9))) = some (true, 0x080C) ∧
    (nx (.adapterUnload (cmd 0x0121) 9) (withAdapter true (some 9))).dev.srv.adapters = [] ∧
    (∀ r ∈ (withAdapter false none).dev.srv.requests, r.adapter ≠ some 9) ∧
    (nx (.adapterUnload (cmd 0x0121) 9) (withAdapter false none)).dev.srv.adapterFree = [(2, 0x8000, 128)] := by decide +kernel

theorem wit_RetirementAndAdapters_limit : 1024 ≤ (List.replicate 1024 ({ id := 9 } : Adapter)).length ∧
    (∀ a ∈ List.replicate 1024 ({ id := 9 } : Adapter), a.id ≠ 8) := by
  refine ⟨Nat.le_of_eq List.length_replicate.symm, fun a ha => ?_⟩
  rw [List.eq_of_mem_replicate ha]; decide

theorem wit_EditionCommands : acc (serving id) 0x0050 = true ∧ acc (serving id) 0x0051 = true ∧
    (serving id).dev.editionTiles 9 = [] ∧ (serving id).dev.editionTiles 5 = [1] ∧
    (∃ l ∈ (serving id).dev.editionTiles 7, (serving id).dev.tileState l = .programming) ∧
    (∀ l ∈ (serving id).dev.editionTiles 6, (serving id).dev.tileState l ≠ .programming ∧ (serving id).dev.tileState l ≠ .uncalibrated) ∧
    (serving id).dev.template 6 = none ∧ ((serving id).dev.template 5).isSome = true ∧
    [(9, 0x080F), (7, 0x0810), (6, 0x0813), (5, 0)].all (fun x =>
      lastStatus (nx (.editionSwitch (cmd 0x0050) x.1) (serving id)) == some (true, x.2)) = true ∧
    (let two := serving fun d => { d with srv := { d.srv with current := 6 } }
     acc two 0x0050 = true ∧ (nx (.editionSwitch (cmd 0x0050) 5) two).dev.srv.switchDue = some 5) ∧
    [(5, 0x0811), (9, 0x080F), (6, 0)].all (fun x =>
      lastStatus (nx (.editionRelease (cmd 0x0051) x.1) (serving id)) == some (true, x.2)) = true ∧
    (nx (.editionRelease (cmd 0x0051) 6) (serving id)).dev.srv.releasing = [6] := by decide +kernel

/-- Template 0 with a row composed for tick 1. -/
def composed (at0 : Nat) : State := serving fun d =>
  { d with
    grf := { d.grf with tick := 1, tickTime := 1000, slots := upd d.grf.slots 0 fun g => { g with state := .loaded, tasks := [{ type := 5 }] } }
    srv := { d.srv with templates := [{ tpl with rows := [{ request := 1, edition := 5 }], forTick := 1, composedAt := at0 }] } }

/-- Two rows of edition 5 and one of edition 6 wait for composition. -/
def arrived : State := serving fun d =>
  { tracks [tracked 1 0, tracked 2 1] d with
    srv := { (tracks [tracked 1 0, tracked 2 1] d).srv with
      arrivals := [{ request := 1, edition := 5, position := 3 }, { request := 2, edition := 5 }] } }

theorem wit_StepsComposeAndStart :
    (let held (s : State) := s.dev.bitAt Off.srvCtrl 0 || s.dev.grf.paused || s.dev.evr.fatal || s.dev.lnk.expelled || !s.dev.isFormed
     held arrived = false ∧ held (dv id) = true ∧ held (serving fun d => d.setReg Off.srvCtrl 1) = true) ∧
    (arrived.dev.srv.templates.map (·.index)).Nodup ∧
    (∀ a ∈ arrived.dev.srv.arrivals, ∀ b ∈ arrived.dev.srv.arrivals, a.request = b.request → a.edition = b.edition) ∧
    (nx .stepCompose arrived).dev.srv.templates.map (fun t => (t.forTick, t.rows.map (·.request))) = [(1, [1, 2])] ∧
    ((composed 0).dev.srv.templates.map fun t => t.busy ((composed 0).dev.grf.tick + 1)) = [true] ∧
    (arrived.dev.srv.templates.map fun t => t.busy (arrived.dev.grf.tick + 1)) = [false] := by decide +kernel

theorem wit_StepsComposeAndStart_run :
    ((composed 999).dev.srv.templates.find? fun t => decide (t.index = 0)).map (fun u => (decide (u.rows = []), decide (u.forTick ≤ (composed 999).dev.grf.tick))) = some (false, true) ∧
    ((composed 999).dev.slot tpl.stepSlot).state = .loaded ∧
    ((nx (.runStart 0) (composed 999)).dev.slot 0).state = .running ∧
    (nx (.runStart 0) (composed 1000)).dev.reg Off.srvLateStarts = 0 ∧ (nx (.runStart 0) (composed 1001)).dev.reg Off.srvLateStarts = 1 ∧
    (∀ u ∈ (serving id).dev.srv.templates, u.index = 0 → u.rows = []) ∧
    ((nx (.runStart 0) (serving id)).dev.slot 0).state = .empty := by
  decide +kernel

theorem wit_StepsComposeAndStart_select :
    (let s := serving (tracks [{ tracked 1 4095 with committed := 3, emitted := 2, endReason := 1, state := .ended }])
     s.running = true ∧ s.dev.request (2 : Word).toNat = none ∧
       (s.dev.request (1 : Word).toNat).map (fun r => (r.seqSlot, r.endReason)) = some (4095, 1) ∧
       (nx (.srvRequestSelect 1) s).dev.fld Off.srvRequestState 31 20 = 4095 ∧
       (nx (.srvRequestSelect 1) s).dev.reg (Off.srvRequestState + 4) = 3 ∧
       (nx (.srvRequestSelect 2) (nx (.srvRequestSelect 1) s)).dev.reg (Off.srvRequestState + 4) = 0) := by decide +kernel

/-- The sampling block of the example of R317. -/
def exampleBlock : Sampling :=
  { temperature := 0x3F4CCCCD, topP := 0x3F666666, frequency := 0x3E800000, presence := 0x3F000000, repetition := 0x3FA00000, topK := 4 }

/-- Its five candidates. -/
def exampleCands : List Cand := [(812, 0x41180000), (4077, 0x41140000), (31, 0x41000000), (90210, 0x40F80000), (517, 0x40E00000)]

/-- R317: a generator value of 0.848 draws token 31, and one of 0.789 token 4,077. -/
theorem test_draw_example :
    let count (t : Nat) : Nat := if t = 812 then 2 else if t = 90210 then 1 else 0
    fpVal (drawU 36 0) = ⟨false, 14221983, 1, -24⟩ ∧ drawToken exampleBlock 36 0 count exampleCands = 31 ∧
      fpVal (drawU 13 0) = ⟨false, 13233998, 1, -24⟩ ∧ drawToken exampleBlock 13 0 count exampleCands = 4077 := by
  decide +kernel

/-- A sample task over one row, with its candidates as they stand. -/
def sampleBody (mode : Nat) : List (Nat × Nat × Nat) :=
  [(0, mode, 1), (1, 1, 1), (2, 1, 1), (8, 0x201000, 8), (0x10, 0x202000, 8), (0x18, 0x203000, 8)]

/-- The step table of one row, and two candidates of it: token 40 of value 2.0 above token 30 of value 1.0, the others -1.0. -/
def sampling (mode : Nat) (sample : Bool) (r : Request) : State := rdy fun d =>
  let d := tracks [r] (hot (graph .issued [(7, sampleBody mode)] d))
  let d := fill d 0x4001000 [(0, 1, 2), (4, 5, 4), (64, r.id, 4), (68, 1, 4), (0x4C, 0x10000 + (if sample then 0x40000 else 0), 4), (0x50, if sample then 0x7F else 0, 1), (0x51, 0x7F, 1), (0x58, 1, 4)]
  (List.range 62).foldl (fun d i => fill d (0x4002010 + 8 * i) [(0, 0xBF800000, 4), (4, 100 + i, 4)])
    (fill d 0x4002000 [(0, 0x40000000, 4), (4, 40, 4), (8, 0x3F800000, 4), (12, 30, 4)])

/-- A request whose next input is at position 1, drafting two tokens deep. -/
def drafting : Request :=
  { tracked 1 0 with committed := 1, pending := true, state := .decode, sampling := { width := 2, depth := 2 } }

theorem wit_SamplingAndDrafting :
    (let s := sampling 1 true drafting
     s.dev.issuedWhere 7 (fun b => decide (b % 16 ≠ 2)) = some (0, 0) ∧ (got (s.dev.sampleInput 0 0)).map (·.rows.length) = some 1 ∧
       (got (s.dev.sampleInput 0 0)).any (fun x =>
         (went ((s.dev.sampleInput 0 0).2.writeVa (s.dev.reader 6 0 0 0) 1 x.body.out (le 40 4))).isSome) = true) ∧
    (let t := nx .sampleAndVerify (sampling 1 true drafting)
     memLoad t.dev.mem 0x4003000 4 = [40, 0, 0, 0] ∧ (t.dev.taskRun 0 0).st = .ended ∧
       (t.dev.request 1).map (fun r => (r.committed, r.emitted, look r.known 2)) = some (2, 1, some 40)) := by
  decide +kernel

theorem wit_SamplingAndDrafting_draft :
    (let s := sampling 2 false drafting
     s.dev.issuedWhere 7 (fun b => decide (b % 16 = 2)) = some (0, 0) ∧
       (got (s.dev.sampleInput 0 0)).any (fun x => decide (x.rows.map (fun w => (w.request, w.baseLen)) = [(1, 1)] ∧ x.cands.length = 1)) = true ∧
       (s.dev.request 1).map (fun r => (r.pending, r.committed)) = some (true, 1)) ∧
    (let t := nx .draft (sampling 2 false drafting)
     (t.dev.request 1).map (·.tree) = some [(1, 0, 40), (2, 0, 30)] ∧ memLoad t.dev.mem 0x4003000 4 = [255, 255, 255, 255]) := by
  decide +kernel

theorem wit_SamplingAndDrafting_alone :
    (let d := (serving (tracks [drafting])).dev
     let w : StepRow := { request := 1, position := 1 }
     (d.request 1).map (fun r => (decide (r.state ≠ .ended), decide (w.position + 1 = r.nextPosition))) = some (true, true) ∧ w.node = 0x7F ∧
       ((d.emitRequest 5 0 1 [(w, some 40)]).request 1).map (fun q => (q.committed, q.endReason)) = some (2, 0)) ∧
    (let d := (serving (tracks [{ drafting with sampling := { stop := [40] } }])).dev
     ((d.emitRequest 5 0 1 [({ request := 1, position := 1 }, some 40)]).request 1).map (·.endReason) = some 1) ∧
    (let d := (serving (tracks [{ drafting with emitted := 8 }])).dev
     ((d.emitRequest 5 0 1 [({ request := 1, position := 1 }, some 40)]).request 1).map (·.endReason) = some 2) ∧
    (let d := (serving (tracks [{ drafting with committed := 4194302, known := [(4194302, 4)] }])).dev
     ((d.emitRequest 5 0 1 [({ request := 1, position := 4194302 }, some 40)]).request 1).map (·.endReason) = some 3) := by
  decide +kernel

/-- Node 0, its children 1 (token 7) and 2 (token 8), and node 3 (token 9) below node 2; the tokens drawn lead to nodes 2 and 3. -/
def treeRows : List (StepRow × Option Nat) :=
  [({ node := 0, parent := 0x7F, token := 5 }, some 8), ({ node := 1, parent := 0, token := 7 }, some 4),
    ({ node := 2, parent := 0, token := 8 }, some 9), ({ node := 3, parent := 2, token := 9 }, some 6)]

theorem wit_TreesAreVerified : verifyFrom treeRows 65 0 = ([(2, 8), (3, 9)], some 6) ∧
    (let r : Request := { drafting with speculate := true, rejections := 7 }
     r.speculate = true ∧ (3 : Nat) ≠ 0 ∧ r.full = true ∧ 8 ≤ r.rejections + 1 ∧ (r.judge 3 0 1).1.full = false ∧
       { r with rejections := 6 }.rejections + 1 < 8 ∧ ({ r with rejections := 6 }.judge 3 0 1).1.rejections = 7 ∧
       (r.judge 3 1 2).1.rejections = 0 ∧ ({ r with full := false }.judge 3 1 2).1.full = true) := by decide +kernel

/-- A TOKEN notice of a request for position 2. -/
def notice (tok reason : Nat) : Packet := { payload := tokenWord ⟨1, 2, tok, 0, 5, [], reason⟩ }

/-- Request 1, which waits for no input. -/
def waiting1 (st : ReqState) : State := serving (tracks [{ drafting with pending := false, state := st, embeds := true, known := [(1, 3), (2, 4)] }])

theorem wit_TokensAndRollbacks : (parseToken (notice 40 0).payload).id = 1 ∧ (serving id).dev.request 1 = none ∧
    nx (.token (notice 40 0)) (serving id) = serving id ∧ nx (.token (notice 40 0)) (waiting1 .ended) = waiting1 .ended ∧
    (parseToken (notice 0xFFFFFFFF 0).payload).token = 0xFFFFFFFF ∧
    ((nx (.token (notice 0xFFFFFFFF 0)) (waiting1 .decode)).dev.request 1).map (fun r => (r.committed, r.rings)) = some (1, 5) ∧
    ((waiting1 .decode).dev.request 1).map (fun r => (decide (r.committed < 2), r.pending, r.recompute)) = some (true, false, []) ∧
    ((nx (.token (notice 40 0)) (waiting1 .decode)).dev.request 1).map (fun r => (r.committed, r.emitted, r.pending, look r.known 2)) = some (2, 1, true, some 40) ∧
    ((nx (.token (notice 40 1)) (waiting1 .decode)).dev.request 1).map (·.state) = some .ended := by decide +kernel

/-- A ROLLBACK notice of request 1. -/
def rollbackTo (q k : Nat) : Packet := { payload := le 1 4 ++ le q 4 ++ le k 4 ++ List.replicate 20 0 }

theorem wit_TokensAndRollbacks_back :
    nx (.rollback (rollbackTo 0 2)) (serving id) = serving id ∧ nx (.rollback (rollbackTo 2 3)) (waiting1 .decode) = waiting1 .decode ∧
    ((waiting1 .decode).dev.request 1).map (fun r => (decide (r.endReason ≠ 4), decide (r.endReason ≠ 5), r.countAt)) =
      some (true, true, none) ∧ (∀ u ∈ (waiting1 .decode).dev.srv.templates, u.draft = false) ∧
    ((nx (.rollback (rollbackTo 0 1)) (waiting1 .decode)).dev.request 1).map (fun r => (r.committed, r.recompute, r.known, r.state)) =
      some (0, [0], [(1, 3)], .prefill) := by decide +kernel

/-! ## The analogue plane -/

/-- A plane body over two rows and two columns of INT4 weights and inputs, in logical tile 0. -/
def planeBody (kind : Nat) : List (Nat × Nat × Nat) :=
  [(0, kind, 1), (1, 3, 1), (2, if kind = 3 then 0 else 3, 1), (3, if kind = 3 then 0 else 3, 1), (0xC, 1, 4), (0x10, 0x201000, 8), (0x18, 0x201100, 8),
    (0x20, if kind = 3 then 0 else 0x201200, 8), (0x28, 2, 4), (0x2C, 2, 4), (0x30, if kind = 3 then 0 else 0x201300, 8), (0x38, 5, 4)]

/-- Logical tile 0 of edition 5 on physical tile 0, with the weights 1 2 / 3 4. -/
def tile0 (st : TileState) (d : Dev) : Dev :=
  { d with pln := { d.pln with
      logical := [(0, { edition := 5, format := 3, rows := 2, cols := 2, phys := some 0 })]
      phys := [(0, { state := st, logical := some 0, levels := [1, 2, 3, 4], tileRows := 2, tileCols := 2, grade := 2 })] } }

/-- A plane task at `st`, its input 3, -2 and an FP32 epilogue; `f` changes the device. -/
def plane (kind : Nat) (st : TaskSt) (ts : TileState) (f : Dev → Dev) : State := rdy fun d =>
  f (fill (hot (tile0 ts (graph st [(1, planeBody kind)] d))) 0x4001100 [(0, 0xE3, 1), (0x200, 0x0D, 1)])

/-- The forward operation started. -/
def forwarding (f : Dev → Dev) : State := nx .planeForward (plane 1 .issued .ready f)

theorem wit_PlaneOperationsStart :
    (let s := plane 1 .issued .ready id
     s.dev.pln.op = none ∧ s.dev.seqHeld = false ∧
       s.dev.issuedWhere 1 (fun k => decide (k % 16 ≠ 3) && (decide (k % 16 = 2) == false)) = some (0, 0) ∧
       (got (s.dev.checkOp (s.dev.reader 2 0 0 0) 0 0 1)).map (fun x => (x.2.1.length, x.2.2)) = some (1, true) ∧
       (got (s.dev.checkOp (s.dev.reader 2 0 0 0) 0 0 1)).any (fun x =>
         decide ((got ((s.dev.checkOp (s.dev.reader 2 0 0 0) 0 0 1).2.readInput (s.dev.reader 2 0 0 0) 1 x.1)).map (·.1) = some [3, 14])) = true ∧
       (nx .planeForward s).dev.pln.op.map (fun o => (o.elems, o.started, o.unit)) = some ([3, 14], false, 0)) ∧
    (let s := plane 2 .issued .ready id
     s.dev.issuedWhere 1 (fun k => decide (k % 16 ≠ 3) && (decide (k % 16 = 2) == true)) = some (0, 0) ∧
       (nx .planeTransposed s).dev.pln.op.map (·.body.kind) = some 2) ∧
    (let s := plane 1 .issued .uncalibrated id
     (got (s.dev.checkOp (s.dev.reader 2 0 0 0) 0 0 1)).isSome = false ∧ ((nx .planeForward s).dev.slot 0).state = .loaded) ∧
    (forwarding id).dev.pln.op.isSome = true ∧ nx .planeForward (forwarding id) = forwarding id := by decide +kernel

/-- The operation that has started. -/
def firstOp : PlaneOp := (forwarding id).dev.pln.op.getD {}

theorem wit_OperationsLatchTheirSettings :
    (let d := (forwarding id).dev
     let l := (d.latchSettings firstOp).1
     d.bitAt Off.curCtrl 7 = false ∧ (got (d.readStats {} firstOp)).isSome = true ∧ (got (d.latchOp {} firstOp)).isSome = true ∧
       1 ≤ l.cap ∧ firstOp.body.forced = 0 ∧ l.phases = 1 ∧ d.opBounds l 1 = [(7 + 5) * 4] ∧ l.ranges = [3] ∧
       (d.latchSettings { firstOp with body := { firstOp.body with forced := 4 } }).1.phases = 4) ∧
    (let d := (forwarding id).dev.setFld Off.curCtrl 7 7 1
     d.bitAt Off.curCtrl 7 = true ∧ (d.latchSettings firstOp).1.fires = [false]) := by decide +kernel

/-- R75: the bound of P = 2 is 59,250, and of P = 3 42,750, which range code 0 alone holds. -/
theorem test_precheck_example :
    let a := [900, 1000, 950, 1100, 640, 580, 600, 620]
    let stats := List.replicate 8 [15]
    boundOf (phaseSets false 1) stats a = 95850 ∧ boundOf (phaseSets false 2) stats a = 59250 ∧
      boundOf (phaseSets false 3) stats a = 42750 ∧ rangeOf 42750 = 0 ∧ lsbOf 0 = 448 := by decide +kernel

/-- The operation with its settings latched. -/
def stepping (f : PlaneOp → PlaneOp) (g : Dev → Dev) : State :=
  let s := forwarding id
  { s with dev := g { s.dev with pln := { s.dev.pln with
      op := s.dev.pln.op.map fun o => f { (s.dev.latchSettings o).1 with started := true } } } }

theorem wit_StepUnitsFire :
    (let s := stepping id id
     s.dev.pln.op.any (fun o => !s.dev.stopped o.slot o.task && !s.dev.marked o.slot o.task && o.started &&
       decide (o.groups.length * shotsOf o.body.dfmt ≤ o.unit + 1)) = true ∧ s.dev.pln.tails.length < 2 ∧ s.dev.cur.firings = []) ∧
    (let s := stepping (fun o => { o with groups := [[0], []] }) id
     s.dev.pln.op.any (fun o => decide (o.unit + 1 < o.groups.length * shotsOf o.body.dfmt)) = true ∧
       (nx (.stepUnit .good) s).dev.pln.op.map (·.unit) = some 1) ∧
    (let s := stepping id fun d => { d with cur := { d.cur with firings := [{}] } }
     s.dev.cur.firings ≠ [] ∧ nx (.stepUnit .good) s = s) ∧
    (let s := stepping id fun d => { d with pln := { d.pln with tails := [{}, {}] } }
     2 ≤ s.dev.pln.tails.length ∧ nx (.stepUnit .bad) s = s) ∧
    ((nx (.stepUnit .bad) (stepping id id)).dev.slot 0).state = .loaded ∧
    (nx (.stepUnit .corrected) (stepping (fun o => { o with fires := [false] }) id)).dev.reg Off.evrCeBus = 1 ∧
    (let s := forwarding fun d => poke d 0x4001100 [0]
     s.dev.pln.op.any (fun o => !o.started && !s.dev.stopped o.slot o.task && !s.dev.marked o.slot o.task) = true ∧
       (nx (.stepUnit .good) s).dev.pln.tails.map (fun o => (o.started, o.unit, o.phases, o.ranges)) = [(true, 1, 1, [3])]) := by
  decide +kernel

/-- An operation whose tile did not fire in its tail, its correction pass to come; `f` changes the device before it starts. -/
def tailing (f : Dev → Dev) : State :=
  let s := forwarding f
  nx (.stepUnit .good) { s with dev := { s.dev with pln := { s.dev.pln with op := s.dev.pln.op.map fun (o : PlaneOp) =>
    { (s.dev.latchSettings o).1 with started := true, fires := [false] } } } }

/-- An adapter of rank 1 in BF16: down 1 1, up 1 2. -/
def adapted (d : Dev) : Dev :=
  fill d 0x4001000 [(0x320, 0x201400, 8), (0x400, 1, 2), (0x402, 0x0C, 1), (0x404, 2, 4), (0x408, 2, 4), (0x40C, 0x3F800000, 4),
    (0x410, 0x201500, 8), (0x418, 0x201600, 8), (0x420, 0x3F800000, 4), (0x424, 0x3F800000, 4), (0x500, 0x3F803F80, 4), (0x600, 0x3F80, 2), (0x640, 0x4000, 2)]

theorem wit_CorrectionsAndTail :
    (tailing id).dev.passOp.map (fun o => o.passChannels o.passesDone) = some [] ∧ State.reset.dev.passOp = none ∧
    (nx .correctionPass (tailing id)).dev.pln.tails.map (·.passesDone) = [1] ∧
    (let s := nx .correctionPass (tailing id)
     (s.dev.pln.tails.find? fun o => decide (o.passes ≤ o.passesDone) && !s.dev.stopped o.slot o.task).any (fun o =>
       !o.reference && decide (o.y = some []) && decide (o.slot < s.dev.grf.slots.length) && decide (o.task < (s.dev.slot o.slot).run.length) &&
         (got (s.dev.tailWork (s.dev.reader 3 0 o.slot o.task) o [])).isSome) = true ∧
     ((nx (.operationTailEnd false) s).dev.taskRun 0 0).st = .ended ∧
     ((nx (.operationTailEnd true) s).dev.slot 0).state = .loaded) ∧
    (let s := nx .correctionPass (tailing adapted)
     (s.dev.pln.tails.find? fun o => decide (o.passes ≤ o.passesDone) && !s.dev.stopped o.slot o.task).any (fun o => decide (o.y = none)) = true ∧
       (nx (.operationTailEnd false) s).dev.pln.tails.length = 1) := by decide +kernel

theorem wit_CorrectionsAndTail_adapter :
    (let s := forwarding adapted
     s.dev.bitAt Off.wdeCtrl 0 = false ∧ s.dev.pln.tails = [] ∧ s.dev.pln.op.any (fun o => decide (o.y = none) && !s.dev.stopped o.slot o.task &&
       (got (s.dev.loadEpi (s.dev.reader 4 0 o.slot o.task) o.space o.body.epilogue o.body.rows o.body.cols o.body.transposed)).any fun e =>
         e.2.any fun a => (got (s.dev.adapterY (s.dev.reader 4 0 o.slot o.task) o.space a o.body.rows o.body.cols
           ((inElems o.body.inFmt o.mxScales o.elems).map InElem.wide))).isSome) = true ∧
     (nx .adapterTerm s).dev.pln.op.map (·.y) = some (some [0x3F800000, 0x40000000])) ∧
    (let s := forwarding fun d => (adapted d).setReg Off.wdeCtrl 1
     s.dev.bitAt Off.wdeCtrl 0 = true ∧ nx .adapterTerm s = s) ∧
    (let s := forwarding fun d => { adapted d with wde := { d.wde with tile0 := some {}, tile1 := some {} } }
     s.dev.wde.tile0.isSome = true ∧ s.dev.wde.tile1.isSome = true ∧ nx .adapterTerm s = s) := by decide +kernel

/-- R129, R156: in reference mode the tail waits while the wide engine takes no sums, and then ends. -/
theorem wit_CorrectionsAndTail_reference :
    (let s := nx .correctionPass (tailing fun d => d.setFld Off.curCtrl 7 7 1)
     let busy : State := { s with dev := { s.dev with wde := { s.dev.wde with tile0 := some {}, tile1 := some {} } } }
     s.dev.pln.tails.any (fun o => o.reference && decide (o.passes ≤ o.passesDone)) = true ∧ s.dev.refMay ((s.dev.pln.tails).headD {}) = true ∧
       ((nx (.operationTailEnd false) s).dev.taskRun 0 0).st = .ended ∧
       busy.dev.refMay ((s.dev.pln.tails).headD {}) = false ∧ nx (.operationTailEnd false) busy = busy) := by decide +kernel

/-- The running operation's task is marked. -/
def markedOp : State :=
  let s := forwarding id
  { s with dev := { s.dev with grf := { s.dev.grf with slots := upd s.dev.grf.slots 0 fun g => { g with run := [{ st := .running, marked := true }] } } } }

/-- The running operation waits on a fault of its input. -/
def stoppedOp (mark : Bool) : State :=
  let s := if mark then markedOp else forwarding id
  { s with dev := { s.dev with mmu := { s.dev.mmu with faults := [(0, { cause := 1, unitClass := 2, graph := 0, task := 0, space := 1 })] } } }

/-- The fault resolved. -/
def resolved (s : State) : State := { s with dev := { s.dev with mmu := { s.dev.mmu with faults := [] } } }

theorem wit_PlaneSavesAndResumes_fault :
    (let s := stoppedOp false
     s.dev.pln.op.any (fun o => s.dev.stopped o.slot o.task && !s.dev.marked o.slot o.task) = true ∧
       (nx .planeSave s).dev.pln.saved.length = 1 ∧ ((nx .planeSave s).dev.taskRun 0 0).st = .running ∧
       (nx .planeSave s).dev.seqHeld = true ∧ (nx .planeSave s).dev.seqFault = true ∧
       (resolved (nx .planeSave s)).dev.seqFault = false ∧ (nx .planeResume (resolved (nx .planeSave s))).dev.pln.op.isSome = true ∧
       ((resolved (nx .planeSave s)).dev.pln.saved.find? fun o => (resolved (nx .planeSave s)).dev.faultSaved o &&
         !(resolved (nx .planeSave s)).dev.marked o.slot o.task && !(resolved (nx .planeSave s)).dev.stopped o.slot o.task).isSome = true) ∧
    (let s := nx .planeSave (stoppedOp false)
     let s := { s with dev := { s.dev with grf := markedOp.dev.grf } }
     s.dev.pln.op = none ∧ (s.dev.pln.saved.find? fun o => s.dev.faultSaved o && s.dev.marked o.slot o.task).isSome = true ∧
       ((nx .planeSave s).dev.taskRun 0 0).st = .saved) := by decide +kernel

/-- The saved operation had started, and its tile has received a correction since. -/
def changed (s : State) : State :=
  let d := (s.dev.modLog 0 fun x => { x with epoch := 9 }).setReg Off.calEpoch 9
  { s with dev := { d with pln := { d.pln with saved := d.pln.saved.map fun (o : PlaneOp) => { o with started := true, unit := 1 } } } }

theorem wit_PlaneSavesAndResumes :
    markedOp.dev.pln.op.any (fun o => markedOp.dev.marked o.slot o.task && decide (o.slot < markedOp.dev.grf.slots.length) &&
      decide (o.task < (markedOp.dev.slot o.slot).run.length)) = true ∧
    (nx .planeSave markedOp).dev.pln.saved.length = 1 ∧ ((nx .planeSave markedOp).dev.taskRun 0 0).st = .saved ∧
    (forwarding id).dev.pln.op.any (fun o => !(forwarding id).dev.marked o.slot o.task && !(forwarding id).dev.stopped o.slot o.task) = true ∧
    (forwarding id).dev.pln.prog = [] ∧ nx .planeSave (forwarding id) = forwarding id ∧
    (let s := nx .planeSave markedOp
     s.dev.pln.op = none ∧ s.dev.seqHeld = false ∧
       s.dev.firstTask ((s.dev.pln.saved.filter fun o => s.dev.canResume o.slot o.task).map fun o => (o.slot, o.task)) = some (0, 0) ∧
       (s.dev.pln.saved.find? fun o => decide (o.slot = 0) && decide (o.task = 0)).map s.dev.needsRestart = some false ∧
       (nx .planeResume s).dev.pln.op = markedOp.dev.pln.op) ∧
    (let s := nx .planeSave markedOp
     let s := changed s
     (s.dev.pln.saved.find? fun o => decide (o.slot = 0) && decide (o.task = 0)).any (fun o => s.dev.needsRestart o &&
       (got (s.dev.readInput (s.dev.reader 2 0 0 0) o.space o.body)).isSome) = true ∧
       (nx .planeResume s).dev.reg Off.plnRestarts = 1 ∧ (nx .planeResume s).dev.pln.op.map (·.unit) = some 0) := by decide +kernel

/-- A program task at `issued`; `f` changes the device. -/
def programming (f : Dev → Dev) : State := rdy fun d => f (hot (graph .issued [(1, planeBody 3)] d))

/-- The checked form of the task's body and list. -/
def setup (d : Dev) : Option (ProgSetup × Dev) :=
  match d.loadProg (d.reader 2 0 0 0) 0 0 1 with
  | (.ok p, d1) =>
    match d1.loadPages (d1.reader 2 0 0 0) 1 p with
    | (.ok p', d2) => some (p', d2)
    | _ => none
  | _ => none

/-- The edition is master-absent, and the record of its one tile holds the digest of the rows at 0x4001100. -/
def detached (d : Dev) : Dev :=
  let t : LogTile := { edition := 5, format := 3, rows := 2, cols := 2, masterAbsent := true, masterOff := 0x100, pages := [0x4001000] }
  let g := (got (d.masterDigest { cls := 2 } t)).getD 0
  { d with pln := { d.pln with logical := [(0, { t with digest := g, pages := [] })] } }

/-- A task's tiles that wait for a round. -/
def waitingProg (p : ProgTask) : State := programming fun d =>
  { d with pln := { d.pln with prog := [p], logical := [(0, { edition := 5, format := 3, rows := 2, cols := 2, pages := [0x4001000] })] } }

theorem wit_ProgramsAndRounds_tasks :
    (let d := (programming id).dev
     d.placeTiles [{}] = [({}, some 0)] ∧ d.placeTiles [{}, {}] ≠ d.placeTiles [{}]) ∧
    (let s := programming fun d => { d with pln := { d.pln with prog := [{ slot := 3, todo := [(1, 1)] }] } }
     (∃ p ∈ s.dev.pln.prog, p.slot < 16 ∧ p.held = false) ∧ nx .planeProgram s = s) ∧
    (let s := programming id
     s.dev.issuedWhere 1 (fun k => decide (k % 16 = 3)) = some (0, 0) ∧ (s.dev.slot 0).space = 1 ∧
       (setup s.dev).any (fun x => !s.dev.isReattach x.1.body x.1.entries && decide (s.dev.log 0 = none) &&
         (got (x.2.countClipped (s.dev.reader 2 0 0 0) x.1.body x.1.entries x.1.pages x.1.off 0xFC84)).isSome &&
         decide (x.1.pages = [0x4001000]) && decide (x.1.entries = [{}])) = true ∧
       s.dev.reg Off.curWeightClip = 0xFC84 ∧ 1 ≤ s.dev.reg Off.plnBudget ∧
       (nx .planeProgram s).dev.pln.prog.map (·.todo) = [[(0, 0)]]) ∧
    (let s := programming fun d => d.setReg Off.plnBudget 0
     ((nx .planeProgram s).dev.slot 0).state = .loaded ∧ (nx .planeProgram s).dev.reg Off.plnBudgetRejects = 1) := by decide +kernel

theorem wit_ProgramsAndRounds_reattach :
    (setup (programming detached).dev).any (fun x => (programming detached).dev.isReattach x.1.body x.1.entries &&
      (got (x.2.matchMasters ((programming detached).dev.reader 2 0 0 0) x.1)).isSome) = true ∧
    ((nx .reAttach (programming detached)).dev.taskRun 0 0).st = .ended ∧
    ((nx .reAttach (programming detached)).dev.log 0).map (·.masterAbsent) = some false := by decide +kernel

theorem wit_ProgramsAndRounds_rounds :
    (let s := waitingProg { slot := 16, todo := [(0, 0)] }
     (nx (.programRoundStart 0) s).dev.pln.rounds.map (·.tiles) = [[(0, 0)]] ∧ nx (.programRoundStart 1) s = s ∧
       nx (.programRoundEnd 0) s = s ∧
       ((nx (.programRoundStart 0) s).dev.pln.rounds.find? fun r => decide (r.die = 0)).isSome = true ∧
       nx (.programRoundStart 0) (nx (.programRoundStart 0) s) = nx (.programRoundStart 0) s ∧
       s.dev.bitAt Off.plnCtrl 2 = false ∧ s.dev.pln.rounds = [] ∧ dieOf 0 = 0 ∧ s.dev.upsets = [] ∧
       s.dev.progBlocked { slot := 16, todo := [(0, 0)] } 0 0 = false ∧ 1 ≤ s.dev.fld Off.plnProgLimit 22 16 ∧
       (s.dev.log 0).any (fun x => (got (Dev.masterChk (s.dev.masterCodes { cls := 2 } x) x)).isSome) = true ∧
       ((nx (.programRoundStart 0) s).dev.phys 0).state = .programming ∧ ((nx (.programRoundStart 0) s).dev.phys 0).wear = 1) ∧
    (let p : ProgTask := { slot := 0, task := 0, todo := [(0, 0)], entries := [{}], pages := [0x4001000]
                           body := { rows := 2, cols := 2, wfmt := 3 } }
     let s := waitingProg p
     s.dev.marked 0 0 = false ∧ s.dev.stopped 0 0 = false ∧ p.held = false ∧ s.dev.progBlocked p 0 0 = false ∧
       (s.dev.progLog p 0 0).any (fun x => (got (Dev.masterChk (s.dev.masterCodes (s.dev.reader 2 0 0 0) x) x)).isSome) = true ∧
       (nx (.programRoundStart 0) s).dev.pln.rounds.map (·.tiles) = [[(0, 0)]]) ∧
    (let s := waitingProg { slot := 16, todo := [(0, 0)] }
     let s := { s with dev := s.dev.setFld Off.plnCtrl 2 2 1 }
     s.dev.bitAt Off.plnCtrl 2 = true ∧ nx (.programRoundStart 0) s = s) := by decide +kernel

theorem wit_TileSnapshots :
    (let s := plane 1 .issued .ready fun d => { (d.modPhys 0 fun x => { x with wear := 9, count := 4, last := 6 }) with now := 5 }
     s.running = true ∧ s.dev.log 0 ≠ none ∧ (s.dev.log 0).bind (·.phys) = some 0 ∧
       (nx (.plnTileSelect 0) s).dev.reg Off.plnTileEdition = 5 ∧ (nx (.plnTileSelect 0x80000000) s).dev.reg Off.plnTileWear = 9 ∧
       physExists 0 = true ∧ (s.dev.phys 0).logical = some 0 ∧
       physExists 6336 = false ∧ (nx (.plnTileSelect 0x800018C0) s).dev.reg Off.plnTileInfo = 0 ∧
       (nx (.calTileSelect 0) s).dev.reg Off.calTileCount = 4 ∧ s.dev.log 24575 = none ∧
       (nx (.calTileSelect 24575) s).dev.reg Off.calTileStatus = 0 ∧ (nx (.calTileSelect 24576) s).dev.reg Off.calTileCount = 0 ∧
       (nx .enduranceWindowStart s).dev.now = 86400 * 10 ^ 9) := by decide +kernel

/-- R125's example: D = 3.5 decades, ΔT = 3, K = 5, code 0 LSB 224 and E = 10,080: 47 passes and 49 misses. -/
theorem test_tolerance_example :
    missExcess 1 80 14 3 47 10080 = 0 ∧ missExcess 1 80 14 3 49 10080 ≠ 0 := by decide +kernel

theorem wit_AuditTolerance : (0 : Nat) ≤ 3 ∧ missExcess 0 0 0 0 0 0 = 0 ∧ (3 : Nat) ≤ 3 ∧ missExcess 3 0 0 0 2 0 ≠ 0 := by
  decide +kernel

/-- An audit of two codes of tile 0: its sums over the master 1 2 / 3 4 are 4 and 6 LSB. -/
def auditOf (q : Int) : AuditEntry := { codes := [{ codes := [q, 6] }], drives := [[448, 448]] }

/-- The audit queued; the tile's master copy at 0x4001800. -/
def auditing (q : Int) (f : Dev → Dev) : State := plane 1 .issued .ready fun d =>
  f { ((poke (poke d 0x4001800 [0x21]) 0x4001840 [0x43]).modLog 0 fun x => { x with pages := [0x4001000], masterOff := 0x800 }) with
    cur := { d.cur with queue := [auditOf q], affected := [(0, 0, 1, 2), (0, 1, 1, 2)] } }

/-- An audit of two shots that drive nothing, whose codes are of 40 LSB. -/
def auditIdle : AuditEntry :=
  { codes := [{ codes := [40] }, { shot := 1, codes := [40] }], drives := [[0, 0], [0, 0]], tilesDone := 1 }

/-- A confirmation firing of that audit due, with the shots left. -/
def firingState (shots : List Nat) : State := auditing 40 fun d =>
  { d with cur := { d.cur with queue := [], firings := [{ audit := auditIdle, shots := shots, cols := [(0, 0), (0, 1)] }] } }

/-- The audit with its first tile done. -/
def auditDone1 (q : Int) : AuditEntry := { auditOf q with tilesDone := 1 }

/-- The device of an audit at its last tile slot. -/
def atSlot (s : State) : Dev :=
  (({ s.dev with cur := { s.dev.cur with queue := [] }, wde := { s.dev.wde with slotCount := 0 } } : Dev).bumpWrap
    Off.wdeAuditTiles).wideWork 1 2

/-- The misses of the audit, where its reads end well. -/
def auditMisses (q : Int) : Option (List (Nat × Nat)) :=
  let s := auditing q id
  (s.dev.log 0).bind fun x => (got ((atSlot s).auditReads (auditDone1 q) x)).map fun m =>
    (auditOf q).codes.flatMap (recordMisses (auditOf q) x m 0 0)

theorem wit_AuditsJudgeCodes :
    (let s := auditing 4 id
     s.dev.bitAt Off.wdeCtrl 0 = false ∧ s.dev.auditMay = true ∧
       (s.dev.log 0).map (fun x => (x.auditGrid (auditOf 4)).1) = some 1 ∧ s.dev.upsets = [] ∧
       (s.dev.log 0).map (fun x => x.pages.all fun p => decide (p < hostPage)) = some true ∧
       auditMisses 4 = some [] ∧ (s.dev.failurePending 0) = false ∧
       (nx .auditRun s).dev.reg64 Off.curAuditsLo = 1 ∧ (nx .auditRun s).dev.cur.affected = [(0, 1, 1, 2)]) ∧
    (let s := auditing 40 id
     (auditMisses 40).map (fun l => l.map Prod.fst) = some [0] ∧ s.dev.auditStale (auditOf 40) = false ∧
       (nx .auditRun s).dev.cur.firings.map (fun f => (f.audit, f.shots, f.failed)) = [(auditDone1 40, [0], false)]) ∧
    (let s := auditing 40 fun d => d.modLog 0 fun x => { x with epoch := 7 }
     s.dev.auditStale (auditOf 40) = true ∧ (nx .auditRun s).dev.reg Off.curAuditFailures = 1 ∧
       ((nx .auditRun s).dev.log 0).map (·.due) = some [.toSuspect]) ∧
    (let s := auditing 4 fun d => d.setReg Off.wdeCtrl 1
     s.dev.bitAt Off.wdeCtrl 0 = true ∧ nx .auditRun s = s) ∧
    (let s := auditing 4 fun d => { d with wde := { d.wde with tile0 := some {}, tile1 := some {} } }
     s.dev.auditMay = false ∧ nx .auditRun s = s) ∧ nx .auditRun (plane 1 .issued .ready id) = plane 1 .issued .ready id := by
  decide +kernel

/-- A tile of 1,024 columns takes more than one tile slot. -/
theorem wit_AuditsJudgeCodes_slots :
    (let s := auditing 4 fun d => d.modLog 0 fun x => { x with rows := 2048, cols := 1024 }
     (s.dev.log 0).any (fun x => decide (1 < (x.auditGrid (auditOf 4)).1)) = true ∧
       (nx .auditRun s).dev.cur.queue = [auditDone1 4] ∧ (nx .auditRun s).dev.reg Off.wdeAuditTiles = 1) := by decide +kernel

theorem wit_AuditsJudgeCodes_firings :
    nx .confirmationFiring (auditing 3 id) = auditing 3 id ∧
    (let s := firingState [1]
     s.dev.cur.firings.map (fun f => (f.audit, f.shots, f.failed, s.dev.auditStale f.audit)) = [(auditIdle, [1], false, false)] ∧
       (s.dev.log 0).bind (·.phys) = some 0 ∧ s.dev.upsets = [] ∧
       (s.dev.log 0).any (fun x => (got (s.dev.auditReads auditIdle x)).isSome) = true ∧
       (nx .confirmationFiring s).dev.cur.firings = [] ∧ (nx .confirmationFiring s).dev.reg Off.curAuditFailures = 0) ∧
    (let s := firingState [0]
     let s := { s with dev := s.dev.modLog 0 fun x => { x with epoch := 7 } }
     s.dev.cur.firings.all (fun f => s.dev.auditStale f.audit) = true ∧ (nx .confirmationFiring s).dev.reg Off.curAuditFailures = 1) := by
  decide +kernel

/-! ## Calibration and tiers -/

/-- Tile 0 in a state, at Fine grade, with background calibration on; `g` changes the tile and `f` the device. -/
def fineTile (st : TileState) (g : PhysTile → PhysTile) (f : Dev → Dev) : State := rdy fun d =>
  f (((tile0 st d).setFld Off.calCtrl 1 1 1).modPhys 0 fun x => g { x with grade := 2 })

theorem wit_CalibrationTriggers :
    (let s := fineTile .ready (fun x => { x with programmedAt := 7, decades := 2 }) id
     (s.dev.phys 0).logical ≠ none ∧ s.dev.background = true ∧ (nx (.passPendingDecade 0) s).dev.now = 7 + 1000 * 10 ^ 9 ∧
       ((nx (.passPendingDecade 0) s).dev.phys 0).passDue = 1) ∧
    (let s := fineTile .ready (fun x => { x with decades := 4 }) id
     decide ((s.dev.phys 0).decades < 4) = false ∧ nx (.passPendingDecade 0) s = s) ∧
    (let s := fineTile .ready (fun x => { x with passedAt := 5, fineAt := 6 }) fun d => d.setReg Off.calPeriod (2 * 65536 + 60)
     s.dev.fld Off.calPeriod 15 0 = 60 ∧ s.dev.fld Off.calPeriod 31 16 = 2 ∧
       (nx (.passPendingTrackPeriod 0) s).dev.now = 5 + 60 * 10 ^ 9 ∧ (nx (.passPendingFinePeriod 0) s).dev.now = 6 + 7200 * 10 ^ 9 ∧
       ((nx (.passPendingFinePeriod 0) s).dev.phys 0).passDue = 2) ∧
    (let s := fineTile .ready id fun d => d.setReg Off.calPeriod 0
     s.dev.fld Off.calPeriod 15 0 = 0 ∧ nx (.passPendingTrackPeriod 0) s = s ∧ nx (.passPendingTrackPeriod 1) s = s) := by decide +kernel

theorem wit_CalibrationTriggers_commands :
    (let s := host (tile0 .ready)
     acc s 0x0020 = true ∧ ((nx (.calibrate (cmd 0x0020) 0 3 24576) s).dev.phys 0).passDue = 3 ∧
       ((nx (.calibrate (cmd 0x0020) 1 3 24575) s).dev.phys 0).passDue = 0 ∧
       lastStatus (nx (.calibrate (cmd 0x0020) 1 3 24576) s) = some (true, 0x000A) ∧
       lastStatus (nx (.calibrate (cmd 0x0020) 0 4 1) s) = some (true, 0x000A) ∧
       lastStatus (nx (.calibrate (cmd 0x0020) 0 1 1) s) = some (true, 0)) ∧
    (let s := host id
     acc s 0x0021 = true ∧ (s.dev.accept (cmd 0x0021)).2.curIdle = true ∧ (nx (.referenceSet (cmd 0x0021) true) s).dev.bitAt Off.curCtrl 7 = true) ∧
    (let s := host fun d => { d with cur := { d.cur with queue := [{}] } }
     acc s 0x0021 = true ∧ (s.dev.accept (cmd 0x0021)).2.curIdle = false ∧
       (nx (.referenceSet (cmd 0x0021) true) s).dev.mbx.refCmd.map (·.2) = some true) := by decide +kernel

/-- Tile 0 with a TRACK pass due. -/
def passing (st : TileState) (g : PhysTile → PhysTile) (f : Dev → Dev) : State :=
  nx (.passStart 0) (fineTile st (fun x => { x with passDue := 1 }) fun d => f (d.modPhys 0 g))

theorem wit_PassesStartAndStep :
    (let s := fineTile .ready (fun x => { x with passDue := 1 }) id
     s.dev.bitAt Off.calCtrl 0 = false ∧ s.dev.nextPass 0 = some 0 ∧ s.dev.bring = .ready ∧ s.dev.fld Off.calCtrl 15 11 ≠ 0 ∧
       (nx (.passStart 0) s).dev.cal.passes.map (fun c => (c.phys, c.kind, c.cslot)) = [(0, 1, 0)] ∧
       s.dev.nextPass 1 = none ∧ nx (.passStart 1) s = s) ∧
    (let s := fineTile .ready (fun x => { x with passDue := 1 }) fun d => d.setFld Off.calCtrl 0 0 1
     s.dev.bitAt Off.calCtrl 0 = true ∧ nx (.passStart 0) s = s) ∧
    (let s := fineTile .ready (fun x => { x with passDue := 2 }) fun d =>
       d.setPhys 1 { state := .suspect, logical := some 1, passDue := 2 }
     s.dev.nextPass 0 = some 1) ∧
    (let s := passing .ready id id
     s.dev.unitReady = false ∧ s.dev.cal.passes ≠ [] ∧ (∀ c ∈ s.dev.cal.passes, c.cslot < 16) ∧ s.dev.cal.passes.length ≤ 1024 ∧
       (nx .calibrationStep s).dev.cal.passes.map (·.steps) = [1] ∧ (nx .calibrationStep s).dev.reg64 Off.plnStepsLo = 1) ∧
    (let s := { forwarding id with dev := { (forwarding id).dev with cal := { passes := [{}] } } }
     s.dev.unitReady = true ∧ nx .calibrationStep s = s) := by decide +kernel

/-- A reading within the acceptance, of a largest gain in units of 1/4,096. -/
def accepted (gain : Int) : PassReading := { trims := { gains := [3, -gain], delays := [9] }, residuals := [40, -40] }

/-- A reading one hundredth of an LSB beyond it. -/
def failing : PassReading := { residuals := [-41] }

theorem wit_PassesAreJudged :
    agrees failing = false ∧ agrees (accepted 1) = true ∧
    (let s := passing .ready id id
     (s.dev.cal.passes.find? fun c => decide (c.phys = 0)).isSome = true ∧
       ((nx (.passMeasurementEnd 0 failing) s).dev.phys 0).attempts = 1 ∧
       (∀ c ∈ s.dev.cal.passes, c.phys ≠ 1) ∧ nx (.passMeasurementEnd 1 failing) s = s) ∧
    (let s := passing .uncalibrated id id
     let s := { s with dev := s.dev.modPhys 0 fun x => { x with attempts := 3 } }
     (s.dev.phys 0).attempts + 1 = 4 ∧ ((nx (.passMeasurementEnd 0 failing) s).dev.phys 0).state = .suspect) ∧
    (let s := passing .suspect id id
     let s := { s with dev := s.dev.modPhys 0 fun x => { x with attempts := 3 } }
     (s.dev.phys 0).attempts + 1 = 4 ∧ ((nx (.passMeasurementEnd 0 failing) s).dev.phys 0).state = .retired) ∧
    (let s := passing .ready id fun d => d.setFld Off.calTrigger 7 0 5
     4096 * s.dev.fld Off.calTrigger 7 0 < 100 * maxGain (candidateOf 1 {} (accepted 205).trims) ∧ s.dev.serves 0 = some 0 ∧
       (nx (.passMeasurementEnd 0 (accepted 205)) s).dev.reg Off.calRefreshes = 1) ∧
    (let s := passing .uncalibrated id id
     1024 < maxGain (candidateOf 1 {} (accepted 1025).trims) ∧
       (nx (.passMeasurementEnd 0 (accepted 1025)) s).dev.refreshQueued 0 0 = true) ∧
    (let s := passing .suspect id id
     (s.dev.cal.passes.find? fun c => decide (c.phys = 0)).isSome = true ∧ s.dev.serves 0 = some 0 ∧ (s.dev.log 0).isSome = true ∧
       ((nx (.passMeasurementEnd 0 (accepted 1024)) s).dev.phys 0).waiting = true ∧
       ((nx (.passMeasurementEnd 0 (accepted 1024)) s).dev.log 0).map (·.due) = some [.toReady]) ∧
    (let s := passing .ready id fun d => (d.setFld Off.calTrigger 7 0 5).setFld Off.calCtrl 2 2 1
     s.dev.tileIdle 0 = true ∧ s.dev.bitAt Off.calCtrl 2 = true ∧ 100 * maxGain (accepted 204).trims ≤ 4096 * 5 ∧
       ((nx (.passMeasurementEnd 0 (accepted 204)) s).dev.phys 0).active = { gains := [3, -204] } ∧
       (nx (.passMeasurementEnd 0 (accepted 204)) s).dev.reg Off.calEpoch = 1) ∧
    (let s := passing .uncalibrated id fun d => d.setFld Off.calCtrl 2 2 0
     s.dev.bitAt Off.calCtrl 2 = false ∧ ((nx (.passMeasurementEnd 0 (accepted 1024)) s).dev.phys 0).waiting = true ∧
       ((nx (.passMeasurementEnd 0 (accepted 1024)) s).dev.phys 0).candidate = { gains := [3, -1024] }) := by decide +kernel

/-- A tier window of `n` frames; logical tile 0 waits in DIGITAL with 5 uses. -/
def tiering (n : Nat) (f : Dev → Dev) : State := rdy fun d =>
  f { d with hub := { d.hub with cfgTier := [1, 1, 1, 1, 100] }
             srv := { d.srv with tierFrames := n }
             pln := { d.pln with logical := [(0, { state := .digital, edition := 5, uses := 5 })] } }

theorem wit_TierWindowsMoveTiles :
    (let s := tiering 1 id
     s.dev.tierCfg 0 = 1 ∧ s.dev.tierCfg 0 ≤ s.dev.srv.tierFrames ∧ (nx .tierWindowEnd s).dev.srv.tierFrames = 0 ∧
       (nx .tierWindowEnd s).dev.pln.prog.map (·.todo) = [[(0, 0)]]) ∧
    (let s := tiering 0 id
     s.dev.srv.tierFrames < s.dev.tierCfg 0 ∧ nx .tierWindowEnd s = s) ∧
    (let s := tiering 1 fun d => d.setFld Off.plnCtrl 2 2 1
     s.dev.movesHeld = true ∧ (nx .tierWindowEnd s).dev.pln.prog = []) := by decide +kernel

/-! ## The wide engine -/

/-- A wide body: a product of 1 × 2 by 2 × 2 INT8 elements, or a reduction of one row of 2. -/
def wideBody (kind reduce : Nat) : List (Nat × Nat × Nat) :=
  [(0, kind, 1), (1, 5, 1), (2, if kind = 2 then 0 else 5, 1), (3, 16 * reduce, 1), (4, 1, 4), (8, if kind = 2 then 1 else 2, 4), (0xC, 2, 4),
    (0x10, 0x201000, 8), (0x18, if kind = 2 then 0 else 0x201100, 8), (0x30, 0x201200, 8), (0x38, if kind = 2 then 0 else 0x201300, 8)]

/-- The wide task issued: A holds 3 -2, B 1 2 / 3 4, and the epilogue answers in FP32; it names an adapter of rank 1, down
1 1 and up 1 / 2, where `lora`. -/
def wideOf (lora : Bool) (kind reduce : Nat) (f : Dev → Dev) : State := rdy fun d =>
  f (fill (hot (graph .issued [(2, wideBody kind reduce)] d)) 0x4001000
    ([(0, 0xFE03, 2), (0x100, 0x0201, 2), (0x140, 0x0403, 2), (0x300, 0x0D, 1)] ++
      if lora then [(0x320, 0x201400, 8), (0x400, 1, 2), (0x402, 6, 1), (0x404, 2, 4), (0x408, 2, 4), (0x40C, 0x3F800000, 4),
        (0x410, 0x201500, 8), (0x418, 0x201540, 8), (0x420, 0x3F800000, 4), (0x424, 0x3F800000, 4), (0x500, 0x3838, 2),
        (0x540, 0x38, 1), (0x580, 0x40, 1)] else []))

/-- The wide task issued, without an adapter. -/
def wide (kind reduce : Nat) (f : Dev → Dev) : State := wideOf false kind reduce f

/-- The product after its first command. -/
def product (f : Dev → Dev) : State := nx .wideProduct (wide 1 0 f)

/-- A product's tile filled. -/
def drained (f : Dev → Dev) : State := nx (.chunkPass false) (product f)

/-- The product with an adapter after `n` chunk passes. -/
def lora : Nat → State
  | 0 => nx .wideProduct (wideOf true 1 0 id)
  | n + 1 => nx (.chunkPass false) (lora n)

/-- A product's checks. -/
def checkedWide (s : State) : Chk (WideBody × Bool) × Dev :=
  let r := s.dev.reader 4 0 0 0
  Chk.thn (s.dev.readBody 0 0 64) fun l d => Chk.thn (checkWide l d) fun b d =>
    Chk.thn (d.loadEpi r 1 b.epilogue b.k b.n false) fun ea d => (.ok (b, ea.2.isNone), d)

/-- A body read and checked. -/
def bodyOf (s : State) : Chk WideBody × Dev := Chk.thn (s.dev.readBody 0 0 64) checkWide

/-- A check that turns a command away. -/
def refused {α : Type} (x : Chk α × Dev) : Option Nat :=
  match x.1 with
  | .reject st => some st
  | _ => none

theorem wit_WideTasksStart :
    (product id).dev.wideIdle = false ∧ nx .wideProduct (product id) = product id ∧ nx .wideReduction (product id) = product id ∧
    (let s := wide 1 0 id
     s.dev.wideIdle = true ∧ s.dev.issuedWhere 2 (fun k => decide (k % 16 ≠ 2)) = some (0, 0) ∧
       (got (checkedWide s)).map (·.2) = some true ∧
       (nx .wideProduct s).dev.wde.tasks.map (fun x => (x.total, x.body.k, x.us)) = [(1, 2, some [])]) ∧
    (got (checkedWide (wideOf true 1 0 id))).map (·.2) = some false ∧ (lora 0).dev.wde.tasks.map (·.us) = [none] ∧
    (let s := wide 3 0 id
     s.dev.issuedWhere 2 (fun k => decide (k % 16 ≠ 2)) = some (0, 0) ∧ refused (checkedWide s) = some 0x0301 ∧
       ((nx .wideProduct s).dev.slot 0).state = .loaded) := by decide +kernel

/-- A reduction's hypotheses together: its body, its rows and its results. -/
def reducing (s : State) : Bool :=
  let r := s.dev.reader 4 0 0 0
  match bodyOf s with
  | (.ok b, d2) =>
    match d2.readRows r 1 b.a b.ascales b.fa b.fa 0 b.m b.k 0 b.k with
    | (.ok rows, d3) =>
      let outs := rows.map fun x => reduceRow b x.1 x.2.2
      let size := if b.reduce = 3 then 8 * b.n else 4
      (went (d3.writeAll r 1 (outs.zipIdx.map fun o => (b.output + o.2 * alignUp size 64, o.1.1)))).isSome
    | _ => false
  | _ => false

theorem wit_WideTasksStart_reductions :
    (let s := wide 2 1 id
     s.dev.wideIdle = true ∧ s.dev.issuedWhere 2 (fun k => decide (k % 16 = 2)) = some (0, 0) ∧ reducing s = true ∧
       memLoad (nx .wideReduction s).dev.mem 0x4001200 4 = le 0x3F800000 4) ∧
    (reducing (wide 2 2 id) = true ∧ memLoad (nx .wideReduction (wide 2 2 id)).dev.mem 0x4001200 4 = le 0x40400000 4) ∧
    (let s := wide 2 3 id
     reducing s = true ∧ memLoad (nx .wideReduction s).dev.mem 0x4001200 8 = le 0x40400000 4 ++ [0, 0, 0, 0]) := by decide +kernel

/-- A chunk pass's hypotheses together, once u is there. -/
def filled (s : State) : Bool :=
  match s.dev.wideNext (fun t => !s.dev.marked t.slot t.task && s.dev.canFill t) with
  | none => false
  | some x =>
    match s.dev.takeTile x with
    | some (i, d) =>
      match d.outTile i with
      | some o =>
        let r := d.reader 4 0 x.slot x.task
        let b := x.body
        let kn := min 1536 (b.k - 1536 * o.chunk)
        match d.readRows r x.space b.a b.ascales b.fa (widenBeside b.fa b.fb) o.row0 o.nrows b.k (1536 * o.chunk) kn with
        | (.ok _, d1) =>
          let y := d1.readCols r x.space b o.col0 o.ncols (1536 * o.chunk) kn
          (got y).isSome && !y.2.stopped x.slot x.task && decide (i < 2 ∧ o.chunk < b.chunks ∧ x.us ≠ none)
        | _ => false
      | none => false
    | none => false

/-- What the adapter's down matrix gives before the first chunk. -/
def downs (s : State) : Option (List (List Word)) :=
  match s.dev.wideNext (fun t => !s.dev.marked t.slot t.task && s.dev.canFill t) with
  | none => none
  | some x =>
    let b := x.body
    let r := s.dev.reader 4 0 x.slot x.task
    match s.dev.loadEpi r x.space b.epilogue b.k b.n false with
    | (.ok (_, some a), d) =>
      match d.readRows r x.space b.a b.ascales b.fa b.fa 0 b.m b.k 0 b.k with
      | (.ok rows, d1) =>
        let u := d1.adapterDown r x.space a b.k (adapterRows rows)
        if u.2.stopped x.slot x.task || x.us.isSome then none else (got u).map (·.vs)
      | _ => none
    | _ => none

/-- What the adapter's up matrix gives after the last chunk. -/
def ups (s : State) : Option (List (List Word)) :=
  match s.dev.wideNext (fun t => !s.dev.marked t.slot t.task && s.dev.canFill t) with
  | none => none
  | some x =>
    let b := x.body
    match s.dev.takeTile x with
    | some (i, d) =>
      let r := d.reader 4 0 x.slot x.task
      match d.outTile i, d.loadEpi r x.space b.epilogue b.k b.n false with
      | some o, (.ok (_, some a), d1) =>
        let y := d1.adapterUp r x.space a o.col0 o.ncols (((x.us.getD []).drop o.row0).take o.nrows)
        if y.2.stopped x.slot x.task || decide (o.chunk < b.chunks ∨ 2 ≤ i) then none else (got y).map (·.vs)
      | _, _ => none
    | none => none

/-- A drain's hypotheses together. -/
def drains (s : State) : Bool :=
  match s.dev.drainTile with
  | none => false
  | some (_, o) =>
    match s.dev.wde.tasks.find? (fun t => o.owns t) with
    | none => false
    | some x =>
      let b := x.body
      let o := joinHalf x o
      let r := s.dev.reader 4 0 x.slot x.task
      match s.dev.loadEpi r x.space b.epilogue b.k b.n false with
      | (.ok (e, a), d1) =>
        match d1.epiArrays r x.space e o.col0 o.ncols with
        | (.ok wb, d2) =>
          let rows := (List.range o.nrows).map fun j => (epiRow e b.ints a (s.dev.taskHdr x.slot x.task).seed
            ((o.row0 + j) * b.n + o.col0) (((o.acc.drop (j * o.ncols)).take o.ncols).map fun v => v.getD 0) wb.1 wb.2
            (o.y.getD j [])).1
          let w := d2.writeAll r x.space (rows.zipIdx.map fun w =>
            (b.output + (o.row0 + w.2) * rowStride e.outFormat b.n + o.col0 * e.outFormat.bits / 8, w.1))
          decide (e.scaleMode ≠ 2) && (went w).isSome && !w.2.stopped x.slot x.task
        | _ => false
      | _ => false

/-- A product of two output tiles, the first of which is due. -/
def secondTile : State :=
  let s := product id
  { s with dev := { s.dev with wde := { s.dev.wde with
      tasks := s.dev.wde.tasks.map fun x => { x with total := 2, next := 1 }
      tile0 := some { nrows := 1, ncols := 2, acc := [some 1, some 2], chunk := 1, draining := true } } } }

theorem wit_OutputTilesFillAndDrain :
    (let s := product id
     s.dev.bitAt Off.wdeCtrl 0 = false ∧ filled s = true ∧
       (drained id).dev.wde.tile0.map (fun o => (o.chunk, o.draining, o.acc)) = some (1, true, [some (-3), some (-2)]) ∧
       ((nx (.chunkPass true) s).dev.slot 0).state = .loaded ∧ s.dev.drainTile = none ∧ nx .tileDrain s = s) ∧
    (let s := product fun d => d.setReg Off.wdeCtrl 1
     s.dev.bitAt Off.wdeCtrl 0 = true ∧ nx (.chunkPass false) s = s) ∧
    (let s := drained id
     drains s = true ∧ s.dev.wde.tasks.map (fun x => (x.drained + 1, x.total)) = [(1, 1)] ∧
       (nx .tileDrain s).dev.wde.tasks = [] ∧ ((nx .tileDrain s).dev.taskRun 0 0).st = .ended ∧
       memLoad (nx .tileDrain s).dev.mem 0x4001200 8 = le 0xC0400000 4 ++ le 0xC0000000 4) ∧
    drains secondTile = true ∧ (nx .tileDrain secondTile).dev.wde.tasks.map (·.drained) = [1] := by decide +kernel

theorem wit_OutputTiles_adapter :
    downs (lora 0) = some [[0x3F800000]] ∧ filled (lora 1) = true ∧ ups (lora 2) = some [[0x3F800000, 0x40000000]] ∧
    drains (lora 3) = true ∧
    memLoad (nx .tileDrain (lora 3)).dev.mem 0x4001200 8 = le 0xC0000000 4 ++ le 0 4 := by decide +kernel

/-- The product marked, with a tile that is filling where `half`. -/
def markedWide (half : Bool) : State :=
  let s := product id
  { s with dev := { s.dev with
      wde := { s.dev.wde with tile0 := if half then some { nrows := 1, ncols := 2, acc := [none, none] } else none }
      grf := { s.dev.grf with slots := upd s.dev.grf.slots 0 fun g => { g with run := [{ st := .running, marked := true }] } } } }

theorem wit_WideSavesAndResumes :
    (let s := markedWide true
     (s.dev.wideNext fun t => s.dev.marked t.slot t.task).isSome = true ∧ s.dev.wde.tasks.length = 1 ∧
       s.dev.wde.tasks.map s.dev.filling = [some 0] ∧
       (nx .wideSave s).dev.wde.tasks.map (fun x => (x.saved, x.savedTile.isSome)) = [(true, true)] ∧ (nx .wideSave s).dev.wde.tile0 = none ∧
       (nx .wideSave s).dev.reg Off.wdeDrainWaits = 1) ∧
    (markedWide false).dev.wde.tasks.map (markedWide false).dev.filling = [none] ∧
    (nx .wideSave (markedWide false)).dev.wde.tasks.map (·.saved) = [true] ∧
    (let s := nx .wideSave (markedWide true)
     s.dev.wideFree = true ∧
       s.dev.firstTask ((s.dev.wde.tasks.filter fun t => t.saved && s.dev.canResume t.slot t.task).map fun t => (t.slot, t.task)) = some (0, 0) ∧
       s.dev.wde.tasks.all (fun x => x.savedTile.isSome) = true ∧ s.dev.wde.tile0 = none ∧
       (nx .wideResume s).dev.wde.tile0.isSome = true ∧ (nx .wideResume s).dev.wde.tasks.map (·.saved) = [false]) ∧
    (product id).dev.wideFree = false ∧ nx .wideResume (product id) = product id := by decide +kernel

/-! ## Attention -/

/-- An attention body of one row, two query heads and two KV heads of 64. -/
def attBody (mode : Nat) : List (Nat × Nat × Nat) :=
  [(0, mode, 1), (2, 64, 1), (4, 2, 2), (6, 2, 2), (8, 1, 4), (0x10, 0x201000, 8), (0x18, 0x201100, 8), (0x28, 0x201400, 8), (0x30, 0x201600, 8),
    (0x40, 0x3F800000, 4), (0x44, 1, 4), (0x48, if mode = 3 then 0x201640 else 0, 8), (0x50, if mode = 3 then 0x201680 else 0, 8),
    (0x58, if mode = 3 then 0x201800 else 0, 8), (0x60, if mode = 3 then 0x201A00 else 0, 8)]

/-- The attention task issued; its row's entry is slot `p` after `p` positions of its sequence, whose page is cached. -/
def attend (mode p : Nat) (f : Dev → Dev) : State := rdy fun d =>
  let d := fill (hot (graph .issued [(3, attBody mode)] d)) 0x4001000
    [(0, p, 4), (4, p, 4), (8, p, 4), (0x10, 0x7F7F, 2), (0x600, 0x3F800000, 4), (0x604, 0x3F800000, 4), (0x608, 0x3F800000, 4),
      (0x60C, 0x3F800000, 4), (0x644, 0x3F800000, 4), (0x64C, 0x3F800000, 4)]
  f { d with mmu := { d.mmu with tlb := d.mmu.tlb ++ [⟨1, d.seqBase 0, 65536, 0, 0x5000000, true, true⟩] } }

/-- What a task holds when its arrays are read, where it is checked and starts without a copy or an append. -/
def attStarted (s : State) (back : Bool) : Option AttTask :=
  match s.dev.issuedWhere 3 (fun k => decide (k % 16 = 3) == back), s.dev.loadAtt 0 0 with
  | some (0, 0), (.ok x, d) =>
    let d0 := ({ d with att := { d.att with tasks := d.att.tasks ++ [x] } } : Dev).startTask 0 0
    let r := d0.reader 5 0 0 0
    match d0.attRows r x with
    | (.ok y, d1) =>
      match d1.attArrays r y with
      | (.ok z, d2) =>
        if decide (prepSteps z.body z.rows = [] ∧ z.blocks ≠ [] ∧ d.att.tasks = []) && !d2.stopped 0 0 then some z else none
      | _ => none
    | _ => none
  | _, _ => none

theorem wit_AttentionReadsItsPages_starts :
    (let s := attend 1 1 id
     s.dev.wideIdle = true ∧ (attStarted s false).map (·.blocks) = some [0] ∧ (nx .attentionForward s).dev.att.tasks.map (·.stage) = [2]) ∧
    (attStarted (attend 3 0 id) true).map (·.blocks) = some [0] ∧
    (nx .attentionBackward (attend 3 0 id)).dev.att.tasks.map (·.stage) = [2] ∧
    (let s := nx .attentionForward (attend 1 1 id)
     s.dev.wideIdle = false ∧ nx .attentionForward s = s ∧ nx .attentionBackward s = s) ∧
    (let s := attend 4 1 id
     s.dev.issuedWhere 3 (fun k => decide (k % 16 = 3) == false) = some (0, 0) ∧
       refused (s.dev.loadAtt 0 0) = some 0x0401 ∧ ((nx .attentionForward s).dev.slot 0).state = .loaded) := by decide +kernel

/-- A task with two blocks left, of which the page of both is cached; or it is in the middle of its first block's row groups. -/
def arrives (mode group : Nat) (f : Dev → Dev) : State :=
  let s := nx (if mode = 3 then .attentionBackward else .attentionForward) (attend mode (if mode = 3 then 0 else 1) id)
  { s with dev := f { s.dev with att := { s.dev.att with
      tasks := s.dev.att.tasks.map fun x => { x with blocks := [0, 1], group := group } } } }

/-- The task that a page arrival serves. -/
def servedAtt (s : State) : Option AttTask := s.dev.attNext fun t => !s.dev.marked t.slot t.task

/-- The page that arrives next can be read. -/
def arriving (s : State) : Bool :=
  match servedAtt s with
  | none => false
  | some x =>
    match s.dev.nextPage x with
    | none => false
    | some va => !s.dev.blockReady x && !x.early && (went (s.dev.readVa (s.dev.reader 5 0 x.slot x.task) x.space va 65536)).isSome

/-- The block whose turn has come has its pages. -/
def blockDue (s : State) : Bool :=
  match servedAtt s with
  | none => false
  | some x => s.dev.blockReady x && !x.early

/-- The device with the pages of the task's blocks in the buffer. -/
def pagesIn (d : Dev) : Dev :=
  { d with att := { d.att with tasks := d.att.tasks.map fun x =>
      { x with buffer := [(d.entryPage x.body 0 0, [])], pagesRead := [d.entryPage x.body 0 0] } } }

theorem wit_AttentionReadsItsPages :
    (let s := arrives 1 0 fun d => d.setFld Off.attCtrl 16 16 1
     s.dev.bitAt Off.attCtrl 16 = true ∧ (servedAtt s).map (fun x => (x.early, x.blocks, x.group)) = some (false, [0, 1], 0) ∧
       nx .pageArrival s = s) ∧
    (let s := arrives 1 0 id
     s.dev.bitAt Off.attCtrl 16 = false ∧ (servedAtt s).map (fun x => (x.early, x.blocks)) = some (false, [0, 1]) ∧ arriving s = true) ∧
    (let s := arrives 1 0 pagesIn
     blockDue s = true ∧ (servedAtt s).map (·.body.groups) = some 1 ∧
       (nx .pageArrival s).dev.att.tasks.map (fun x => (x.blocks, x.group)) = [([1], 0)]) ∧
    (let s := arrives 3 0 pagesIn
     blockDue s = true ∧ (nx .pageArrival s).dev.att.tasks.map (fun x => (x.blocks, x.body.mode)) = [([1], 3)]) := by decide +kernel

/-- A task of 129 query rows in its second row group, which HOLD does not stop. -/
def twoGroups : State := arrives 1 0 fun d =>
  let d := pagesIn (d.setFld Off.attCtrl 16 16 1)
  { d with att := { d.att with tasks := d.att.tasks.map fun x => { x with body := { x.body with m := 129 }, group := 1 } } }

theorem wit_AttentionReadsItsPages_groups :
    twoGroups.dev.bitAt Off.attCtrl 16 = true ∧ blockDue twoGroups = true ∧
    (servedAtt twoGroups).map (fun x => decide (x.group + 1 < x.body.groups)) = some true ∧
    (nx .pageArrival twoGroups).dev.att.tasks.map (fun x => (x.blocks, x.group)) = [([0, 1], 2)] := by decide +kernel

/-- A task with no block left has its outputs to write. -/
def ending (mode : Nat) : State :=
  let s := nx (if mode = 3 then .attentionBackward else .attentionForward) (attend mode (if mode = 3 then 0 else 1) id)
  { s with dev := { s.dev with att := { s.dev.att with tasks := s.dev.att.tasks.map fun x => { x with blocks := [] } } } }

/-- A task's end's hypotheses together. -/
def ends (s : State) : Bool :=
  match servedAtt s with
  | none => false
  | some x =>
    let w := s.dev.writeAll (s.dev.reader 5 0 x.slot x.task) x.space (attWrites x).1
    decide (x.blocks = [] ∧ x.stage = 2 ∧ (prepSteps x.body x.rows).length ≤ x.prep ∧ x.slot < w.2.grf.slots.length ∧
      x.task < (w.2.slot x.slot).run.length) && (went w).isSome && !w.2.stopped x.slot x.task

theorem wit_AttentionEnds_outputs :
    ends (ending 1) = true ∧ ((nx .pageArrival (ending 1)).dev.taskRun 0 0).st = .ended ∧
    (nx .pageArrival (ending 1)).dev.reg Off.attEmptyRows = 1 ∧
    ends (ending 3) = true ∧ (nx .pageArrival (ending 3)).dev.att.tasks = [] := by decide +kernel

/-- An attention task of the graph, marked. -/
def markedAtt : State := rdy fun d =>
  let d := graph .running [(3, attBody 1)] d
  { d with att := { d.att with tasks := [{ body := { m := 1 } }] }
           grf := { d.grf with slots := upd d.grf.slots 0 fun g => { g with run := [{ st := .running, marked := true }] } } }

/-- A frame in quarantine since tick 5, at a tick. -/
def quarantined (tick : Nat) : State := dv fun d =>
  { d with att := { d.att with frames := [{ pa := 65536, state := .quarantine, since := 5 }] }, grf := { d.grf with tick := tick } }

theorem wit_AttentionEnds :
    (markedAtt.dev.attNext fun t => markedAtt.dev.marked t.slot t.task).isSome = true ∧
    (nx .attentionSave markedAtt).dev.att.tasks.map (·.saved) = [true] ∧
    (let s := nx .attentionSave markedAtt
     s.dev.wideFree = true ∧
       s.dev.firstTask ((s.dev.att.tasks.filter fun t => t.saved && s.dev.canResume t.slot t.task).map fun t => (t.slot, t.task)) = some (0, 0) ∧
       (nx .attentionResume s).dev.att.tasks.map (·.saved) = [false]) ∧
    (quarantined 6).dev.frameRec 65536 ≠ none ∧ nx (.quarantineEnd 1) (quarantined 6) = quarantined 6 ∧
    (nx (.quarantineEnd 1) (quarantined 7)).dev.frameRec 65536 = none ∧
    (attOutputs { body := { m := 1, qHeads := 1 }, merge := [{ o := [0x7F800000] }] }).1 = [[0, 0]] := by decide +kernel

/-! ## The fabric -/

/-- Device 0 of a plan of `nx` devices, its ports enabled and port 0 in a state; `g` changes the port and `f` the device. -/
def linked (nx : Nat) (st : PortState) (g : Port → Port) (f : Dev → Dev) : State := rdy fun d =>
  f (({ d.setFld Off.lnkCtrl 5 0 63 with lnk := { d.lnk with nx := nx, joined := List.range nx } }).modPort 0 fun t =>
    g { t with state := st, lanes := 8 })

theorem wit_PortsTrainAndFail :
    (let s := linked 2 .training id id
     0 < s.dev.lnk.ports.length ∧ (s.dev.port 0).state = .training ∧ ((nx (.portTraining 0 4) s).dev.port 0).state = .check ∧
       ((nx (.portTraining 0 5) s).dev.port 0).state = .down ∧ (s.dev.port 0).plan = 0 ∧
       ((nx (.planCheckTimeout 0) s).dev.port 0).plan = 6 ∧ nx (.portRetrain 0 8) s = s ∧
       ((nx (.planCheckTimeout 0) (linked 1 .training id id)).dev.port 0).plan = 2) ∧
    (let s := linked 2 .down id id
     (s.dev.port 0).state = .down ∧ s.dev.portEnabled 0 = true ∧ ((nx (.portRetrain 0 8) s).dev.port 0).lanes = 8 ∧
       nx (.portRetrain 0 7) s = s ∧ nx (.portTraining 0 8) s = s ∧ nx (.linkFailure 0 0) s = s) ∧
    (let s := linked 2 .listen id id
     ((nx (.linkHello 0 { deviceId := 1 }) s).dev.port 0).peerId = 1) ∧
    (let s := linked 2 .check id id
     s.dev.lnk.swap = false ∧ ((nx (.linkHello 0 { deviceId := 1, port := 1 }) s).dev.port 0).plan = 1 ∧
       ((nx (.linkHello 0 { deviceId := 1, port := 2 }) s).dev.port 0).plan ≠ 1 ∧
       (nx (.linkHello 0 { deviceId := 1, port := 2 }) s).dev.bitAt Off.lnkStatus 4 = true) ∧
    nx (.linkHello 0 {}) (linked 2 .off id id) = linked 2 .off id id := by decide +kernel

theorem wit_PortsTrainAndFail_up :
    (let s := linked 2 .up id fun d => { d with lnk := { d.lnk with flv := 2 } }
     s.dev.lnk.flv = 2 ∧ (s.dev.port 0).lanes = 8 ∧ ((nx (.linkFailure 0 1) s).dev.port 0).lanes = 4 ∧
       ((nx (.linkFailure 0 0) s).dev.port 0).state = .down ∧ (nx (.linkFailure 0 0) s).dev.reg Off.lnkPortFailures = 1 ∧
       nx (.planCheckTimeout 0) s = s) ∧
    (let s := linked 2 .up id fun d => { d with lnk := { d.lnk with parent := 0 } }
     s.dev.logicalPort 0 = s.dev.lnk.parent ∧ (nx (.syncExchange 0 10 30 40 48) s).dev.lnk.offset = 6 ∧
       (nx (.syncExchange 0 10 30 40 48) s).dev.now = s.dev.now + 5) ∧
    nx (.syncExchange 0 10 30 40 48) (linked 2 .check id id) = linked 2 .check id id ∧
    (let s := linked 2 .up (fun t => { t with peerSerial := [0x41, 0x42] }) id
     s.running = true ∧ (nx (.lnkPeerSelect 0) s).dev.reg Off.lnkPeerSerial = 0x4241 ∧ (nx (.lnkPeerSelect 6) s).dev.reg Off.lnkPeerSerial = 0) := by
  decide +kernel

/-- A device that waits in LINK with its own report of six outcomes, for the command FABRIC_FORM. -/
def unformed (o : List Nat) : State := host fun d => { d with bring := .link, lnk := { d.lnk with reports := if o = [] then [] else [{ outcomes := o }] } }

/-- A formed fabric of `nx` devices in a row, for the command FABRIC_CUT. -/
def inRow (nx : Nat) (me : Nat) : State := host fun d =>
  ({ d.setReg Off.lnkFabric me with lnk := { d.lnk with nx := nx, formed := true, leader := 0, joined := List.range nx } }).modPort 0
    fun t => { t with state := .up }

theorem wit_FabricFormsAndIsCut_form :
    (let s := unformed [2, 2, 2, 2, 2, 2]
     let d := (s.dev.accept (cmd 0x0040)).2
     acc s 0x0040 = true ∧ d.planDevices = [0] ∧ d.cubesToCut = [] ∧ d.connected false [0] = true ∧ d.leaderOf [0] = d.deviceId ∧
       d.lnk.outOfPlan = false ∧ d.lnk.formed = false ∧ (nx (.fabricForm (cmd 0x0040) false) s).dev.lnk.formed = true) ∧
    (let s := unformed [5, 2, 2, 2, 2, 2]
     let d := (s.dev.accept (cmd 0x0040)).2
     acc s 0x0040 = true ∧ (d.planDevices.find? fun id => (List.range 6).any fun q => d.refusing false id q) = some 0 ∧
       lastStatus (nx (.fabricForm (cmd 0x0040) false) s) = some (true, 0x0A01)) ∧
    (let s := unformed []
     let d := (s.dev.accept (cmd 0x0040)).2
     acc s 0x0040 = true ∧ d.connected false (d.planDevices.filter fun id => !d.cubesToCut.contains (cubeOf id)) = false ∧
       lastStatus (nx (.fabricForm (cmd 0x0040) false) s) = some (true, 0x0A02)) := by decide +kernel

theorem wit_FabricFormsAndIsCut_cut :
    (let s := inRow 4 0
     let d := (s.dev.accept (cmd 0x0041)).2
     acc s 0x0041 = true ∧ (∃ id ∈ d.planDevices, cubeOf id = 1) ∧ d.cubeCut 1 = false ∧ d.present d.deviceId = true ∧ d.cutClosure [1] = [1] ∧
       cubeOf d.deviceId = 0 ∧ (nx (.fabricCut (cmd 0x0041) 1 0 0) s).dev.lnk.cutDue = [(3, 1)] ∧
       lastStatus (nx (.fabricCut (cmd 0x0041) 0 0 0) s) = some (true, 0x0A04) ∧
       lastStatus (nx (.fabricCut (cmd 0x0041) 2 0 0) s) = some (true, 0x0A03)) ∧
    (let s := inRow 4 0
     s.dev.lnk.leader = s.dev.deviceId ∧ s.dev.present 3 = true ∧ (nx (.deviceSilentCut 3) s).dev.lnk.cutDue = [(3, 1)] ∧
       nx (.deviceSilentCut 0) s = s ∧ nx (.deviceSilentCut 2) (inRow 4 1) = inRow 4 1) := by decide +kernel

/-- A FORM notice of device 1. -/
def formOf : Packet := { src := 1, channel := 4, type := 8, payload := padWords (formBytes 9000 16 7 100 1 0 false) }

theorem wit_FabricFormsAndIsCut_notices :
    (let s := unformed []
     s.dev.lnk.outOfPlan = false ∧ formOf.channel = 4 ∧ formOf.type = 8 ∧ (nx (.form formOf) s).dev.lnk.leader = 1 ∧
       (nx (.form formOf) s).dev.lnk.formAt = some (9000, 16, 100) ∧ nx (.form { formOf with type := 9 }) s = s) ∧
    (let s := unformed [2, 2, 2, 2, 2, 2]
     (s.dev.lnk.reports.map (·.device)).contains 1 = false ∧ (nx (.planReport { device := 1 }) s).dev.lnk.reports.length = 2 ∧
       nx (.planReport { device := 0 }) s = s) := by decide +kernel

/-- A packet from device 1 for device 0. -/
def fromOne (n : Nat) : Packet := { src := 1, dst := 0, channel := 2, seq := n }

/-- Device 0, which has delivered five packets of channel 2 from device 1. -/
def delivered (f : Dev → Dev) : State := linked 2 .up id fun d => f { d with lnk := { d.lnk with recvNext := [(1, 2, 5)] } }

theorem wit_PacketsArriveOnce :
    (let s := linked 2 .up id id
     (List.replicate 256 (1 : Byte)).length = 256 ∧ flitWord ((List.replicate 256 (1 : Byte)).take 11) 8 = none ∧
       (s.dev.port 0).nak = false ∧ ((nx (.flitReceive 0 (List.replicate 256 1)) s).dev.port 0).nak = true ∧
       (nx (.flitReceive 0 (List.replicate 256 1)) s).dev.reg Off.lnkPortNaks = 1 ∧ nx (.flitReceive 0 [1]) s = s) ∧
    (let s := delivered id
     s.dev.bring = .ready ∧ headerOk { fromOne 4 with channel := 5 } = false ∧
       (nx (.packetReceive { fromOne 4 with channel := 5 }) s).dev.reg Off.lnkBadPackets = 1 ∧
       headerOk { fromOne 4 with dst := 1, hops := 31 } = true ∧
       (nx (.packetReceive { fromOne 4 with dst := 1, hops := 31 }) s).dev.reg Off.lnkHopDrops = 1 ∧
       s.dev.isEarly = false ∧ seqBefore 4 5 = true ∧ (nx (.packetReceive (fromOne 4)) s).dev.reg Off.lnkDuplicates = 1 ∧
       seqBefore 6 5 = false ∧ s.dev.lnk.reorder = [] ∧ (nx (.packetReceive (fromOne 6)) s).dev.lnk.reorder = [fromOne 6]) ∧
    nx (.packetReceive (fromOne 4)) (dv fun d => { d with bring := .rom }) = dv fun d => { d with bring := .rom } := by decide +kernel

/-- Device 0 in LINK, with `n` requests buffered. -/
def early (n : Nat) : State := linked 2 .up id fun d => { d with bring := .link, lnk := { d.lnk with early := List.replicate n {} } }

theorem wit_PacketsArriveOnce_early :
    (let s := early 63
     (s.dev.isEarly && !isFormation (fromOne 4) && headerOk (fromOne 4) && decide ((s.dev.port 0).state ≠ .off)) = true ∧
       (nx (.earlyLinkRequest 0 (fromOne 4)) s).dev.lnk.early.length = 64) ∧
    (let s := early 64
     s.dev.isEarly = true ∧ s.dev.lnk.early.length = 64 ∧ (nx (.earlyLinkRequest 0 (fromOne 4)) s).dev.lnk.early.length = 64) ∧
    nx (.earlyLinkRequest 0 (fromOne 4)) (delivered id) = delivered id := by decide +kernel

/-- A packet sent to device 1 and not acknowledged. -/
def kept1 : State := linked 2 .up id fun d => { d with lnk := { d.lnk with replay := [{ dst := 1, channel := 2, seq := 7, ts := 50 }] } }

theorem wit_EndToEndDelivery :
    (let s := linked 2 .up id fun d => { d with lnk := { d.lnk with ackDue := [(1, 2, 3)], recvNext := [(1, 2, 5)] } }
     pairVal s.dev.lnk.ackDue 1 2 = 3 ∧ pairVal (nx (.e2eAck 1 2) s).dev.lnk.ackDue 1 2 = 0 ∧
       (nx (.e2eAck 1 2) s).dev.lnk.sent.map (fun p => leAt p.payload 4 4) = [4] ∧ nx (.e2eAck 1 3) s = s) ∧
    (nx (.e2eReplay 1 2) kept1).dev.now = 100050 ∧ (nx (.e2eReplay 1 2) kept1).dev.reg Off.lnkE2eReplays = 1 ∧
    nx (.e2eReplay 1 3) kept1 = kept1 ∧ (nx (.retryAfter 1 2 7 4) kept1).dev.lnk.retryAt = [(1, 2, 7, 4000)] ∧
    nx (.retryAfter 1 2 8 4) kept1 = kept1 ∧ kept1.dev.grf.colls = [] ∧ (nx (.lost 1 2 7 0x0A06) kept1).dev.lnk.replay = [] ∧
    nx (.lost 1 2 8 0x0A06) kept1 = kept1 := by decide +kernel

/-- The leader of three devices of one replica class; the digests of the devices before the third are held. -/
def judging (rs : List DigestRep) : State := linked 3 .up id fun d =>
  { d with lnk := { d.lnk with formed := true, leader := 0, classes := [1, 1, 1], digests := rs } }

theorem wit_DigestsAndExpulsion :
    (let s := judging [{ device := 0, crc := 5 }, { device := 1, crc := 5 }]
     s.dev.replicaClass 2 = 1 ∧ s.dev.lnk.joined = [0, 1, 2] ∧ (nx (.digestReport { device := 2, crc := 6 }) s).dev.lnk.expelledSet = [2] ∧
       (nx (.digestReport { device := 2, crc := 5 }) s).dev.lnk.expelledSet = [] ∧
       (nx (.digestReport { device := 2, crc := 5 }) s).dev.lnk.digests = [] ∧ nx (.digestReport { device := 3 }) s = s) ∧
    (let s := judging [{ device := 0, crc := 5 }, { device := 1, crc := 6 }]
     (nx (.digestReport { device := 2, crc := 7 }) s).dev.lnk.expelledSet = []) ∧
    (let s := judging []
     (nx (.digestReport { device := 2, crc := 7 }) s).dev.lnk.digests.length = 1) ∧
    (let s := linked 3 .up id fun d => d.setFld Off.lnkCtrl 8 8 1
     (s.dev.bitAt Off.lnkCtrl 8 && decide (s.dev.grf.tick = 0)) = true ∧ nx .digestSlice (linked 3 .up id id) = linked 3 .up id id) ∧
    (let s := inFabric 0 fun d => d.setFld Off.lnkCtrl 8 8 1
     s.dev.isFormed = true ∧ (nx .digestSlice s).dev.lnk.digestIndex = 1 ∧ (nx .digestSlice s).dev.bitAt Off.lnkCtrl 8 = false) ∧
    (let s := judging []
     (nx (.expel { channel := 4, type := 0xD, tag := 1 }) s).dev.bitAt Off.lnkStatus 8 = true ∧
       (nx (.expel { channel := 4, type := 0xD }) s).dev.lnk.expelled = true ∧ nx (.expel { channel := 4, type := 0xC }) s = s) := by decide +kernel

/-- A collective body: a group of devices 0 and 1, or a peer. -/
def collBody (kind : Nat) : List (Nat × Nat × Nat) :=
  let group := decide (1 ≤ kind ∧ kind ≤ 4)
  [(0, kind, 1), (1, if kind ≤ 2 then 0xD else 0, 1), (4, if group then 3 else 0, 1), (5, if group then 1 else 0, 1), (6, if group then 1 else 0, 1),
    (8, 1, 2), (0xA, 5, 2), (0xC, 64, 4), (0x10, if kind = 6 then 0 else 0x201000, 8), (0x18, if kind = 6 then 0 else 0x202000, 8)]

/-- Device 0 of two with the collective task issued and port 0 in a state. -/
def collective (kind : Nat) (st : PortState) : State := inFabric 0 fun d =>
  ((hot (graph .issued [(6, collBody kind)] d)).modPort 0 fun t => { t with state := st }).modPort 1 fun t => { t with state := st }

/-- The body of the collective task passes its checks. -/
def collOk (s : State) : Bool := (got (Chk.thn (s.dev.readBody 0 0 64) checkColl)).isSome && decide (s.dev.lnk.collWait = [])

theorem wit_CollectivesStart :
    (let s := collective 1 .up
     s.dev.issuedWhere 6 (fun b => !decide (2 ≤ b % 16 ∧ b % 16 ≤ 7)) = some (0, 0) ∧ collOk s = true ∧ s.dev.route 1 = some 0 ∧
       ((nx .allReduce s).dev.taskRun 0 0).st = .running) ∧
    (let s := collective 2 .off
     s.dev.issuedWhere 6 (fun b => decide (b % 16 = 2)) = some (0, 0) ∧ collOk s = true ∧ s.dev.route 1 = none ∧
       ((nx .reduceScatter s).dev.slot 0).state = .loaded) ∧
    (collective 3 .up).dev.issuedWhere 6 (fun b => decide (b % 16 = 3)) = some (0, 0) ∧ collOk (collective 3 .up) = true ∧
    (collective 4 .up).dev.issuedWhere 6 (fun b => decide (b % 16 = 4)) = some (0, 0) ∧ collOk (collective 4 .up) = true ∧
    (collective 5 .up).dev.issuedWhere 6 (fun b => decide (b % 16 = 5)) = some (0, 0) ∧ collOk (collective 5 .up) = true ∧
    (let s := collective 6 .up
     s.dev.issuedWhere 6 (fun b => decide (b % 16 = 6)) = some (0, 0) ∧ collOk s = true ∧ s.dev.lnk.sends = [] ∧
       (nx .receive s).dev.grf.colls.map (·.kind) = [6]) ∧
    (let s := collective 7 .up
     s.dev.issuedWhere 6 (fun b => decide (b % 16 = 7)) = some (0, 0) ∧ collOk s = true ∧ (nx .relay s).dev.grf.colls.map (·.kind) = [7]) ∧
    (let s := collective 8 .up
     refused (Chk.thn (s.dev.readBody 0 0 64) checkColl) = some 0x0A07 ∧ ((nx .allReduce s).dev.slot 0).state = .loaded) ∧
    axisOrder 8 0xC3 = [6, 7, 0, 1] := by decide +kernel

/-- A collective under way in slot 0. -/
def running1 (c : CollTask) (f : Dev → Dev) : State := inFabric 0 fun d =>
  f (hot (graph .running [(6, collBody 1)] ({ d with grf := { d.grf with colls := [c] } })))

/-- A RELAY of two units, of which the first has landed. -/
def relay2 : CollTask := { kind := 7, space := 1, count := 8192, src := 0x201000, dst := 0x203000, peer := 1, landed := List.range 64 }

theorem wit_CollectivesGoOn :
    (let s := running1 relay2 id
     s.dev.grf.colls = [relay2] ∧ s.dev.stopped 0 0 = false ∧
       ((List.range relay2.units).find? fun u => !relay2.sent.contains u && relay2.unitLanded u) = some 0 ∧
       relay2.sent.length + 1 < relay2.units ∧
       (went (s.dev.readVa (s.dev.collReader relay2) 1 0x201000 (min 4096 8192))).isSome = true) ∧
    (let s := running1 { kind := 1, lastPacketAt := 9 } fun d => d.setReg Off.lnkTimeout 2
     (∃ c ∈ s.dev.grf.colls, c.waits = true ∧ s.dev.stopped c.slot c.task = false) ∧ (nx .collectiveTimeout s).dev.now = 2009 ∧
       nx .relayUnit s = s) ∧
    nx .collectiveTimeout (running1 relay2 id) = running1 relay2 id := by decide +kernel

/-- An ABORT of the first collective of TAG 5 and the group of devices 0 and 1. -/
def abortOf (index : Nat) : Packet := { src := 1, payload := padWords (le 0x10103 4 ++ le 5 4 ++ le index 4) }

/-- A hand-off of one row of request 9 and two bytes, all but its END packet. -/
def handing : State := inFabric 0 fun d =>
  { d with srv := { d.srv with hands := [{ src := 1, tag := 5, head := le 1 2 ++ List.replicate 62 0 ++ le 9 4 ++ le 6 4 ++ List.replicate 20 0 ++ le 3 4 }]
                               requests := [{ id := 9, seqSlot := 4 }] }
           lnk := { d.lnk with inbound := [{ src := 1, sid := 5 + 65536, bytes := [1, 2] }] } }

/-- Its END packet. -/
def handEnd : Packet := { src := 1, dst := 0, channel := 1, type := 2, tag := 5, payload := endPayload [1, 2] }

theorem wit_CollectivesGoOn_packets :
    (let s := running1 { kind := 1, tag := 5, gx := 3, gy := 1, gz := 1 } id
     let q : Packet := { abortOf 0 with channel := 4, type := 4 }
     (s.dev.grf.colls.find? fun c => c.owns q || c.abortedBy q).isSome = true ∧ (nx (.abort (abortOf 0)) s).dev.grf.colls = [] ∧
       (∀ c ∈ s.dev.grf.colls, c.abortedBy { abortOf 1 with channel := 4, type := 4 } = false) ∧
       s.dev.awaitsStart { abortOf 1 with channel := 4, type := 4 } = true ∧ (nx (.abort (abortOf 1)) s).dev.lnk.collWait.length = 1) ∧
    handEnd.type ≠ 1 ∧ handing.dev.lnk.landWait = [] ∧ handing.dev.grf.colls = [] ∧
    (handing.dev.srv.hands.find? fun h => decide (h.src = 1) && decide (h.tag = 5)).isSome = true ∧
    inKey { handEnd with channel := 1 } = 5 + 65536 ∧ crc64 [1, 2] = leAt handEnd.payload 0 8 ∧
    (handing.dev.request 9).any (fun r => decide (r.state ≠ .ended) && !r.retiring) = true ∧
    (nx (.handoffReceive handEnd) handing).dev.srv.arrivals.map (fun w => (w.request, w.position, w.edition, w.seqSlot)) = [(9, 6, 3, 4)] := by
  decide +kernel

/-! ## The configuration store and firmware -/

/-- A blob of 1,024 bytes with a generation and the frame length 100 µs. -/
def blob (gen : Nat) : List Byte :=
  padTo (le 0x46435753 4 ++ le 1 4 ++ le 1024 4 ++ le gen 4 ++ le 8 4 ++ List.replicate 44 0 ++ le 0x0201 2 ++ le 2 2 ++ le 100 4) 1024

/-- A store that holds the blob with its marker. -/
def stored (s : State) (gen : Nat) : State := { s with flash := { s.flash with config := blob gen, marker := markerOf (blob gen) } }

/-- The device in a state of bring-up, its admin mailbox open; `f` changes it. -/
def inState (b : Bringup) (f : Dev → Dev) : State := host fun d => f { d with bring := b }

/-- Host memory from 0x2_0000 holds bytes. -/
def hostBytes (l : List Byte) (d : Dev) : Dev :=
  { d with host := (l.zipIdx.filter fun x => decide (x.1 ≠ 0)).map fun x => (0x20000 + x.2, x.1) }

/-- Every host access fails. -/
def noHost (d : Dev) : Dev := { d with env := { d.env with hostHoles := [(0, 2 ^ 52)] } }

/-- CRC-32C with its running value evaluated at each byte. -/
def crcRun : List Byte → Nat → Nat
  | [], r => r
  | b :: l, r =>
    match crcByte 32 0x1EDC6F41 true r b with
    | 0 => crcRun l 0
    | n + 1 => crcRun l (n + 1)

theorem crcRun_eq (l : List Byte) : ∀ r, crcRun l r = l.foldl (crcByte 32 0x1EDC6F41 true) r := by
  induction l with
  | nil => exact fun _ => rfl
  | cons b l ih =>
    intro r
    rw [List.foldl_cons, ← ih, crcRun]
    split <;> simp_all

theorem crc32c_run : crc32c = fun l => crcResult 32 true true (crcRun l 0xFFFFFFFF) := by
  funext l
  rw [crc32c, crcRun_eq]

/-- Where the signature verifies, which no rule of the manual decides for a concrete blob, the store passes its tests. -/
theorem stored_passes (gen : Nat) (h : gen = 0 ∨ gen = 1) (s : State) (hc : s.flash.counters.getD 0 0 = gen)
    (hs : blobSigned s.configKey (blob gen) = true) : (stored s gen).storeReason = none := by
  have hk : (stored s gen).storeReason = firstFail
      [(!markerErased (markerOf (blob gen)), 1), (markerOk (blob gen) (markerOf (blob gen)), 2),
       (decide (leAt (markerOf (blob gen)) 0xC 4 = crc32c ((blob gen).take (leAt (blob gen) 8 4))), 3), (blobFormat (blob gen), 4),
       (blobSigned s.configKey (blob gen), 5), (decide (leAt (blob gen) 0xC 4 = s.flash.counters.getD 0 0), 6),
       (blobContent (blob gen), 7)] := rfl
  rw [hk, hs, hc]
  unfold markerOk markerOf
  rw [crc32c_run]
  rcases h with rfl | rfl <;> decide +kernel

theorem wit_ConfigurationStore :
    (let s := inState .fw id
     s.dev.bring = .fw ∧ s.storeReason = some 1 ∧ (nx .storeCheck s).dev.bring = .hold ∧ (nx .storeCheck s).dev.holdReason = 1 ∧
       s.flash.counters.getD 0 0 = 0) ∧
    nx .storeCheck (inState .link id) = inState .link id ∧
    (let s := host id
     acc s 0x0002 = true ∧ acc s 0x0003 = true ∧ acc s 0x0004 = true ∧ aligned 0x20000 4096 = true ∧ aligned 0x20800 4096 = false ∧
       lastStatus (nx (.identify (cmd 0x0002) 0x20800) s) = some (true, 0x000A) ∧
       lastStatus (nx (.identify (cmd 0x0002) 0x20000) s) = some (true, 0) ∧ s.storeReason = some 1 ∧
       lastStatus (nx (.configRead (cmd 0x0003) 0x20000 65536) s) = some (true, 0x000F) ∧
       lastStatus (nx (.configWrite (cmd 0x0004) 0x20000 1024 false) s) = some (true, 0x0009) ∧
       ((s.dev.accept (cmd 0x0004)).2.readHost 0x20000 1024).isSome = true ∧
       s.blobStatus (List.replicate 1024 0) 1024 = some 0x000F ∧
       lastStatus (nx (.configWrite (cmd 0x0004) 0x20000 1024 true) s) = some (true, 0x000F)) ∧
    (let s := host noHost
     acc s 0x0002 = true ∧ ((s.dev.accept (cmd 0x0002)).2.writeHost 0x20000 (List.replicate 4096 0)).isSome = false ∧
       lastStatus (nx (.identify (cmd 0x0002) 0x20000) s) = some (true, 0x0506)) := by decide +kernel

theorem wit_ConfigurationStore_signed (hs : blobSigned State.reset.configKey (blob 0) = true) :
    (stored (inState .fw id) 0).dev.bring = .fw ∧ (stored (inState .fw id) 0).storeReason = none ∧
    (stored (host id) 0).storeReason = none ∧ leAt (stored (host id) 0).flash.config 8 4 = 1024 :=
  ⟨rfl, stored_passes 0 (.inl rfl) _ rfl hs, stored_passes 0 (.inl rfl) _ rfl hs, by decide +kernel⟩

/-- A state in the approved mode (R445). -/
def approvedOf (s : State) : State := { s with sec := { s.sec with approved := true } }

/-- A state in which CONFIG_WRITE finds the blob of generation 1 in host memory. -/
def writing (b : Bringup) : State := approvedOf (inState b (hostBytes (blob 1)))

theorem wit_ConfigurationStore_writes (hs : blobSigned State.reset.configKey (blob 1) = true) :
    ((writing .hold).dev.accept (cmd 0x0004)).2.readHost 0x20000 1024 = some (blob 1) ∧ acc (writing .hold) 0x0004 = true ∧
    ((writing .ready).dev.accept (cmd 0x0004)).2.readHost 0x20000 1024 = some (blob 1) ∧ acc (writing .ready) 0x0004 = true ∧
    (writing .hold).fw.flashBad = false ∧ 0 < (writing .hold).flash.counters.length ∧
    (writing .hold).blobStatus (blob 1) 1024 = none ∧ (writing .ready).blobStatus (blob 1) 1024 = none := by
  have h : ∀ s : State, s.flash.counters.getD 0 0 = 0 → s.sec.approved = true → blobSigned s.configKey (blob 1) = true →
      s.blobStatus (blob 1) 1024 = none := by
    intro s hc ha hb
    unfold State.blobStatus
    rw [hb, hc, ha]
    decide +kernel
  exact ⟨by decide +kernel, by decide +kernel, by decide +kernel, by decide +kernel, rfl, by decide +kernel, h _ rfl rfl hs, h _ rfl rfl hs⟩

/-- A slot that fails. -/
def broken (i : Nat) (s : State) : State := s.modComp i fun c => { c with slotA := {} }

/-- The device in ROM after BOOT_ROM. -/
def booted : State := { State.reset with sec := { State.reset.sec with keys := some [] } }

theorem wit_BootChoosesSlots :
    State.reset.dev.bring = .rom ∧ State.reset.sec.keys = none ∧ State.reset.running = true ∧
    (nx (.bootRom false) State.reset).dev.bring = .recovery ∧ (nx (.bootRom false) State.reset).sec.reason = 4 ∧
    State.reset.dev.env.recovery = false ∧ State.reset.dev.mbx.recoveryDue = false ∧ (State.reset.comp 1).isPending = false ∧
    State.reset.boots 1 (State.reset.comp 1).active = true ∧ (nx (.bootRom true) State.reset).dev.bring = .rom ∧
    (let s := dv fun d => { d with env := { d.env with recovery := true } }
     s.dev.env.recovery = true ∧ (nx (.bootRom true) s).sec.reason = 1) ∧
    (let s := dv fun d => { d with mbx := { d.mbx with recoveryDue := true } }
     s.dev.mbx.recoveryDue = true ∧ (nx (.bootRom true) s).sec.reason = 2) ∧
    (let s := broken 1 State.reset
     s.boots 1 (s.comp 1).slotA = false ∧ s.boots 1 (s.comp 1).slotB = false ∧ (nx (.bootRom true) s).sec.reason = 3) ∧
    nx (.bootRom true) (host id) = host id ∧ nx .enterFw State.reset = State.reset := by decide +kernel

theorem wit_BootChoosesSlots_enterFw :
    booted.dev.bring = .rom ∧ booted.sec.keys ≠ none ∧ booted.running = true ∧ booted.flash.eraseMarker = false ∧
    (∀ i ∈ [2, 3, 4, 5, 6, 7, 8], (booted.comp i).isPending = false ∧ booted.boots i (booted.comp i).active = true) ∧
    (let s := broken 8 booted
     s.boots 8 (s.comp 8).slotA = false ∧ s.boots 8 (s.comp 8).slotB = false) ∧
    (let s := { booted with flash := { booted.flash with eraseMarker := true } }
     s.flash.eraseMarker = true ∧ s.fw.flashBad = false ∧ s.running = true ∧ s.sec.keys ≠ none) := by decide +kernel

/-- A manifest of component 3, version 7, for an image of 16 bytes and its records, open to every other version. -/
def manifest3 : List Byte :=
  padTo (le 0x4D465753 4 ++ le 1 2 ++ [3, 0] ++ le 7 4 ++ le 0 4 ++ le 16 4 ++ le 8 4 ++ List.replicate (0xA0 - 0x18) 0 ++
    (List.range 7).flatMap fun i => le 0 4 ++ le (if i = 2 then 0 else 0xFFFFFFFF) 4) 2048

/-- The package: a record of a kind, with 16 as its length. -/
def package3 (kind : Nat) : List Byte := manifest3 ++ le kind 4 ++ le 16 4

/-- A package in host memory, for FW_STAGE. -/
def staging (kind : Nat) : State := approvedOf (host (hostBytes (package3 kind)))

theorem wit_FirmwareUpdates_stage :
    acc (host id) 0x0032 = true ∧ (nx (.fwRecovery (cmd 0x0032)) (host id)).dev.mbx.recoveryDue = true ∧
    (let s := host id
     acc s 0x0030 = true ∧ aligned 0x20000 4096 = true ∧ s.sec.approved = false ∧
       lastStatus (nx (.fwStage (cmd 0x0030) 0x20000 2056 9) s) = some (true, 0x000A) ∧
       lastStatus (nx (.fwStage (cmd 0x0030) 0x20000 2056 3) s) = some (true, 0x0B0F)) ∧
    (let s := approvedOf (host id)
     acc s 0x0030 = true ∧ s.dev.bring ≠ .recovery ∧ s.sec.approved = true ∧
       lastStatus (nx (.fwStage (cmd 0x0030) 0x20000 2047 8) s) = some (true, 0x0B01) ∧
       s.stageTests (List.replicate 2048 0) 2056 3 = some 0x0B01 ∧
       lastStatus (nx (.fwStage (cmd 0x0030) 0x20000 2056 3) s) = some (true, 0x0B01)) ∧
    (let s := approvedOf (host noHost)
     acc s 0x0030 = true ∧ (s.dev.accept (cmd 0x0030)).2.readHost 0x20000 2048 = none ∧
       lastStatus (nx (.fwStage (cmd 0x0030) 0x20000 2048 1) s) = some (true, 0x0506)) ∧
    (let s := { inState .recovery id with sec := { State.reset.sec with reason := 4 } }
     acc s 0x0030 = true ∧ s.dev.bring = .recovery ∧ s.sec.reason = 4) := by decide +kernel

/-- Two byte strings agree in every 128 bytes. -/
def agree (a b : List Byte) : Bool :=
  (List.range 17).all fun i => decide ((a.drop (128 * i)).take 128 = (b.drop (128 * i)).take 128)

theorem wit_FirmwareUpdates_package (hs : manifestSigned manifest3 = true) :
    acc (staging 3) 0x0030 = true ∧ (((staging 3).dev.accept (cmd 0x0030)).2.readHost 0x20000 2056).any (fun l => agree l (package3 3)) = true ∧
    (staging 3).sec.approved = true ∧ (staging 3).dev.bring ≠ .recovery ∧ (staging 3).stageTests manifest3 2056 3 = none ∧ (staging 3).fw.comps.length = 8 ∧ (staging 3).fw.flashBad = false ∧
    applyDelta none 258 ((package3 3).drop 2048) [] = some (List.replicate 16 0) ∧ leAt manifest3 0x10 4 = 16 ∧
    leAt manifest3 0x60 64 = 0 ∧ agree ((package3 3).take 2048) manifest3 = true ∧
    applyDelta none 258 ((package3 9).drop 2048) [] = none := by
  have ht : (staging 3).stageTests manifest3 2056 3 = none := by
    unfold State.stageTests
    rw [hs]
    decide +kernel
  exact ⟨by decide +kernel, by decide +kernel, rfl, by decide +kernel, ht, by decide +kernel, by decide +kernel, by decide +kernel, by decide +kernel,
    by decide +kernel, by decide +kernel, by decide +kernel⟩

/-- A component staged in its inactive slot. -/
def stagedOf (i : Nat) (b : Bringup) (bad : Bool) : State :=
  let s := inState b id
  let s := s.modComp i fun c => { c with slotB := { valid := true, version := 9, handMin := 1, handMax := 2 } }
  { s with fw := { s.fw with staged := some i, flashBad := bad } }

theorem wit_FirmwareUpdates_activate :
    acc (host id) 0x0031 = true ∧ (host id).fw.comps.length = 8 ∧ (host id).fw.staged = none ∧
    lastStatus (nx (.fwActivate (cmd 0x0031)) (host id)) = some (true, 0x0B0B) ∧
    (let s := stagedOf 3 .ready true
     acc s 0x0031 = true ∧ s.fw.staged = some 3 ∧ s.fw.flashBad = true ∧ lastStatus (nx (.fwActivate (cmd 0x0031)) s) = some (true, 0x0B0C)) ∧
    (let s := stagedOf 1 .ready false
     acc s 0x0031 = true ∧ s.fw.flashBad = false ∧ ((nx (.fwActivate (cmd 0x0031)) s).comp 1).activeB = true) ∧
    (let s := stagedOf 3 .hold false
     acc s 0x0031 = true ∧ s.dev.bring = .hold ∧ (nx (.fwActivate (cmd 0x0031)) s).dev.mbx.resetDue = true) ∧
    (let s := stagedOf 2 .ready false
     acc s 0x0031 = true ∧ s.handsOver = false ∧ (nx (.fwActivate (cmd 0x0031)) s).dev.mbx.resetDue = true) ∧
    (let s := stagedOf 8 .ready false
     acc s 0x0031 = true ∧ ((nx (.fwActivate (cmd 0x0031)) s).comp 8).activeB = true ∧ ((nx (.fwActivate (cmd 0x0031)) s).comp 8).isPending = false) ∧
    (let s := stagedOf 3 .ready false
     acc s 0x0031 = true ∧ (nx (.fwActivate (cmd 0x0031)) s).fw.activating = some 3) ∧
    (let s := inState .recovery id
     acc s 0x0031 = true ∧ s.dev.env.recovery = false ∧
       (let ms := ((List.range 8).map (· + 1)).filterMap fun i => (s.wouldBoot i).map fun m => (i, m.2)
        ms.length = 8 ∧ allCompatible ms = true) ∧ s.fw.written = [] ∧ (nx (.fwActivate (cmd 0x0031)) s).dev.mbx.resetDue = true) ∧
    (let s := broken 4 (inState .recovery id)
     acc s 0x0031 = true ∧ (((List.range 8).map (· + 1)).filterMap fun i => (s.wouldBoot i).map fun m => (i, m.2)).length < 8) ∧
    (let s := inState .recovery fun d => { d with env := { d.env with recovery := true } }
     acc s 0x0031 = true ∧ s.dev.env.recovery = true) := by decide +kernel

/-- Component `i` activates; its pause tick is the next. -/
def pausing (i : Nat) : State :=
  let s := stagedOf i .ready false
  { s with fw := { s.fw with staged := none, activating := some i }, dev := { s.dev with grf := { s.dev.grf with pauseAt := some 0 } } }

/-- Component `i` waits for confirmation in a window that began at 0. -/
def confirmingOf (i : Nat) (bad : Bool) (health : Nat) : State :=
  let s := (host id).modComp i fun c => { c with isPending := true, confirmed := false, slotA := { c.slotA with svn := 4 } }
  { s with fw := { s.fw with confirming := some i, windowEnd := 120 * 10 ^ 9, health := health, flashBad := bad } }

theorem wit_PausesAndConfirmation_pause :
    (pausing 3).fw.comps.length = 8 ∧ (pausing 3).flash.counters.length = 11 ∧ (pausing 3).dev.grf.pauseAt = some 0 ∧
    (pausing 3).dev.grf.paused = false ∧ (pausing 3).dev.grf.pauser = (pausing 3).dev.deviceId ∧
    (nx .pauseTick (pausing 3)).fw.swapping = some 3 ∧ nx .pauseTick (host id) = host id ∧
    (let s := nx .pauseTick (pausing 6)
     s.dev.quiesced = true ∧ s.fw.swapping = some 6 ∧ s.fw.reverting = false ∧ s.pendingComps.head? = some 6 ∧ s.dev.lnk.formed = false ∧
       (nx .swapEnd s).dev.lnk.linkFw = 9 ∧ (nx .swapEnd s).fw.confirming = some 6 ∧ (nx .swapEnd s).dev.now = 20000000 ∧
       (nx .swapEnd s).dev.grf.resumeAt = 21000000) ∧
    (let s := nx .swapEnd (nx .pauseTick (pausing 6))
     s.running = true ∧ s.dev.grf.paused = true ∧ s.dev.grf.resumeAt ≠ 0 ∧ s.fw.swapping = none ∧ (nx .resumeTick s).dev.grf.paused = false ∧
       (nx .resumeTick s).dev.grf.tickTime = 21000000 ∧ (nx .resumeTick s).dev.reg Off.hubFwLastPause = 21000) ∧
    nx .swapEnd (host id) = host id ∧ nx .resumeTick (host id) = host id ∧ nx .fwConfirm (host id) = host id := by decide +kernel

theorem wit_PausesAndConfirmation_confirm :
    (let s := confirmingOf 3 false 1000
     s.healthy 3 = (true, 0) ∧ s.windowStart = 0 ∧ ((nx .fwConfirm s).comp 3).isPending = false ∧ (nx .fwConfirm s).counter 3 = 4) ∧
    (let s := confirmingOf 3 false 999
     s.healthy 3 = (false, 0) ∧ nx .fwConfirm s = s) ∧
    (let s := confirmingOf 3 true 1000
     (nx .fwConfirm s).fw.counterRetry = true ∧ ((nx .fwConfirm s).comp 3).isPending = true) ∧
    (let s := confirmingOf 4 false 0
     s.healthy 4 = (true, 60 * 10 ^ 9) ∧ (nx .fwConfirm s).dev.now = 60 * 10 ^ 9) ∧
    ((nx .confirmationWindowEnd (confirmingOf 3 false 0)).fw.activating = some 3) ∧
    ((nx .confirmationWindowEnd (confirmingOf 2 false 0)).dev.mbx.resetDue = true) ∧
    ((nx .confirmationWindowEnd (confirmingOf 1 false 0)).comp 1).activeB = true := by decide +kernel

/-! ## Resets, power and security -/

/-- A powered device that runs in READY with tile 0 programmed and memory in use. -/
def inUse (f : State → State) : State := f (rdy fun d => { tile0 .ready d with mem := [(0x4000000, 7)] })

/-- Its environment changed. -/
def inEnv (f : Env → Env) : State := inUse fun s => { s with dev := { s.dev with env := f s.dev.env } }

theorem wit_ResetsAndPower_resets :
    nx .warmReset (inUse id) = inUse id ∧ (inUse id).dev.pln.rounds = [] ∧ (inUse id).dev.pln.prog = [] ∧
    (let s := inUse fun s => s.dueReset
     s.dev.mbx.resetDue = true ∧ s.flash.writeAt ≠ some s.dev.now ∧ (∀ c ∈ s.fw.comps, c.selAt ≠ some s.dev.now) ∧
       s.fw.stagedAt = none ∧ s.dev.upsets = [] ∧ s.dev.bring ≠ .rom ∧ (nx .warmReset s).dev.evr.records.length = 1 ∧
       (nx .warmReset s).dev.bitAt Off.mbxStatus 0 = true ∧ (nx .warmReset s).dev.bring = .rom ∧ ((nx .warmReset s).dev.phys 0).levels = [1, 2, 3, 4] ∧
       (nx .warmReset s).dev.mem = [(0x4000000, 7)] ∧ (nx .warmReset s).dev.evr.boot = s.dev.evr.boot + 1) ∧
    (inUse id).dev.env.powered = true ∧ (inUse id).flash.latch = false ∧
    (nx .perstAssert (inUse id)).dev.env.perst = true ∧ (nx .moduleRstAssert (inUse id)).running = false ∧
    (let s := nx .perstAssert (inUse id)
     s.dev.released = false ∧ s.dev.env.powered = true ∧ (nx (.resetDeassert 0x41 true) s).dev.deviceId = 3 ∧
       (nx (.resetDeassert 0x41 true) s).dev.env.recovery = true) ∧
    (inUse id).dev.released = true ∧ nx (.resetDeassert 0x41 true) (inUse id) = inUse id ∧
    (let s := inEnv fun e => { e with powered := false }
     s.dev.env.powered = false ∧ nx .perstAssert s = s ∧ nx .moduleRstAssert s = s ∧ nx .powerFail s = s) := by decide +kernel

theorem wit_ResetsAndPower_power :
    nx .powerUp (inUse id) = inUse id ∧ (nx .powerFail (inUse id)).dev.mem = [] ∧ inNear 0x8000000000 = true ∧ ((nx .powerFail (inUse id)).dev.phys 0).levels = [1, 2, 3, 4] ∧
    (let s := nx .powerFail (inUse fun s => { s with flash := { s.flash with shutdown := some (3, 420), shutdownNew := true } })
     s.dev.env.powered = false ∧ s.flash.latch = false ∧ s.dev.released = true ∧ s.flash.shutdownNew = true ∧
       (nx .powerUp s).dev.bitAt Off.thmStatus 8 = true ∧ (nx .powerUp s).dev.evr.boot = s.dev.evr.boot + 1) ∧
    (let s := inUse id
     let l := s.dev.shutdownLevel 71
     s.dev.env.powered = true ∧ (71 : Nat) < 72 ∧ (nx (.thermalShutdown 71 l) s).flash.latch = true ∧
       nx (.thermalShutdown 71 (l - 1)) s = s ∧ nx (.thermalShutdown 72 l) s = s ∧
       nx .powerUp (nx (.thermalShutdown 71 l) s) = nx (.thermalShutdown 71 l) s ∧
       (nx .shutdownLatchClear (nx (.thermalShutdown 71 l) s)).flash.latch = false) := by decide +kernel

/-- By R368, the straps CUBE_X 1 and BX 1 stand for device 3. -/
theorem test_strap_example : strapId 0x41 = 3 ∧ strapId 0x1FF = 7 + 8 * 7 + 64 * 7 := by decide +kernel

/-- The device in READY and in the approved mode. -/
def approved : State := { inUse id with sec := { State.reset.sec with keys := some [], selftestOk := true, approved := true } }

theorem wit_AttestationAnswers :
    State.reset.spdmServed = false ∧ nx .getVersion State.reset = State.reset ∧
    (inUse id).spdmServed = true ∧ (inUse id).sec.approved = false ∧ (nx .getVersion (inUse id)).dev.env.answers = [[0x12]] ∧
    (nx (.challenge []) (inUse id)).dev.env.answers = [[0x7F, 5]] ∧ approved.spdmServed = true ∧ approved.sec.approved = true ∧
    13 ∈ approved.measurements ∧ 14 ∉ approved.measurements ∧ (nx (.getMeasurements [] 14) approved).dev.env.answers = [[0x7F, 1]] ∧
    (let s := inState .recovery id
     s.dev.bring = .recovery ∧ s.spdmServed = true ∧ s.measurements = [1, 12]) ∧
    (inUse id).running = true ∧ (nx (.hubFwSelect 8) (inUse id)).dev.reg Off.hubFwRecord % 16 = 8 ∧
    (nx (.hubFwSelect 9) (inUse id)).dev.reg Off.hubFwRecord = 0 ∧
    (let s := inUse fun s => { s with flash := { s.flash with counters := upd s.flash.counters 10 fun _ => 7 } }
     (nx (.hubSecCounterSelect 10) s).liveReg Off.hubSecCounter = 7 ∧ (nx (.hubSecCounterSelect 11) s).liveReg Off.hubSecCounter = 0) ∧
    (let s := inEnv fun e => { e with perst := true }
     s.running = false ∧ nx (.hubFwSelect 8) s = s ∧ nx (.hubSecCounterSelect 1) s = s) := by decide +kernel

/-- A nonce was given at time 0; it is now `now`. -/
def nonced (now : Nat) : State := inUse fun s => { s with sec := { s.sec with nonce := some (5, 0) }, dev := { s.dev with now := now } }

theorem wit_EraseAndUnlock :
    State.reset.spdmServed = false ∧ nx .eraseNonce State.reset = State.reset ∧ (inUse id).spdmServed = true ∧
    (inUse id).sec.nonce = none ∧ nx .eraseNonceExpiry (inUse id) = inUse id ∧
    (nx (.eraseWeights []) (inUse id)).dev.env.answers = [[0x7F, 1]] ∧
    (nonced 7).sec.nonce = some (5, 0) ∧ (nx .eraseNonceExpiry (nonced 7)).dev.now = 60 * 10 ^ 9 ∧
    (nonced (60 * 10 ^ 9)).spdmServed = true ∧ ¬ (nonced (60 * 10 ^ 9)).dev.now < 0 + 60 * 10 ^ 9 ∧
    (nx (.eraseWeights []) (nonced (60 * 10 ^ 9))).sec.nonce = none ∧
    (inState .recovery id).dev.bring = .recovery ∧ (inState .recovery id).running = true ∧
    nx (.jtagUnlock []) (inUse id) = inUse id := by decide +kernel

theorem wit_EraseAndUnlock_signed (sig : List Byte)
    (h : Config.verifies (nonced 7).configKey (le 5 32 ++ (nonced 7).flash.serial ++ [0x45, 0x52, 0x41, 0x53, 0x45]) sig = true) :
    (nonced 7).spdmServed = true ∧ (nonced 7).dev.now < 0 + 60 * 10 ^ 9 ∧
    Config.verifies (nonced 7).configKey (le 5 32 ++ (nonced 7).flash.serial ++ [0x45, 0x52, 0x41, 0x53, 0x45]) sig = true ∧
    (nonced 7).fw.flashBad = false ∧ (nonced 7).flash.counters.length = 11 ∧ (nonced 7).counter 10 < 0xFFFFFFFF ∧
    (nonced 7).eraseAll.counter 10 = 1 ∧ ((nonced 7).eraseAll.dev.phys 0).levels = [0, 0, 0, 0] :=
  ⟨by decide +kernel, by decide +kernel, h, by decide +kernel⟩

/-! ## Housekeeping, temperature, power and management -/

/-- Entry 4 enabled on ADC0 with its input, its average code and its open-wire test on; limits 10 and 20. -/
def entry4 (input avg : Nat) (f : Dev → Dev) : State := dv fun d =>
  f ((d.setReg Off.hkaSeq (2 ^ 31 + 2 ^ 27 + avg * 2 ^ 24 + input * 2 ^ 16 + 10)).setReg Off.hkaLimit (20 * 2 ^ 16 + 10))

/-- Entry 4 in a pass. -/
def inPass (input avg : Nat) (f : Dev → Dev) : State := nx (.sequenceEntryDue 4) (entry4 input avg f)

theorem wit_HousekeepingSequence_due :
    State.reset.dev.hka.entries.length = 32 ∧ nx (.sequenceEntryDue 32) State.reset = State.reset ∧
    bit (State.reset.dev.seqWord 4) 31 = false ∧
    (let s := dv fun d => { d with env := { d.env with pwrgd := false } }
     s.dev.env.pwrgd = false ∧ nx (.sequenceEntryDue 1) s = s) ∧
    (let s := entry4 3 0 id
     s.dev.hka.entries.length = 32 ∧ bit (s.dev.seqWord 4) 31 = true ∧ s.dev.env.pwrgd = true ∧ (s.dev.entry 4).running = false ∧
       (s.dev.entry 4).testing = false ∧ (∀ m < 32, m ≠ 4 → (s.dev.entry m).due = false) ∧
       s.dev.takes (bits (s.dev.seqWord 4) 30 29) = some 0 ∧ (nx (.sequenceEntryDue 4) s).dev.hka.busy0 = true) ∧
    State.reset.dev.takes (bits (State.reset.dev.seqWord 31) 30 29) = some 0 ∧
    State.reset.dev.takes (bits (State.reset.dev.seqWord 0) 30 29) = some 3 ∧
    (nx (.sequenceEntryDue 0) State.reset).dev.hka.busy1 = true ∧
    State.reset.dev.takes (bits (State.reset.dev.seqWord 3) 30 29) = some 1 ∧
    (let s := inPass 3 0 id
     (∀ m < 32, m ≠ 0 → (s.dev.entry m).due = false) ∧ s.dev.takes (bits (s.dev.seqWord 0) 30 29) = none ∧
       ((nx (.sequenceEntryDue 0) s).dev.entry 0).due = true) := by decide +kernel

theorem wit_HousekeepingSequence_pass :
    (State.reset.dev.entry 4).running = false ∧ nx (.conversionComplete 4 [15]) State.reset = State.reset ∧
    nx (.conversionComplete 4 [15, 15]) (inPass 3 0 id) = inPass 3 0 id ∧
    (let s := inPass 3 0 id
     let hi := nx (.conversionComplete 4 [21]) s
     (s.dev.entry 4).running = true ∧ (hi.dev.entry 4).passes = 1 ∧ hi.dev.fld (resultOff 4) 11 0 = 21 ∧
       hi.dev.bitAt (resultOff 4) 29 = true ∧ hi.dev.reg Off.hkaLimitEvents = 1 ∧ hi.dev.bitAt Off.hkaStatus 3 = true ∧
       hi.dev.evr.records.map (·.code) = [0x0F03] ∧ hi.dev.hka.busy0 = false ∧
       (nx (.conversionComplete 4 [20]) s).dev.reg Off.hkaLimitEvents = 0 ∧
       (nx (.conversionComplete 4 [10]) s).dev.bitAt (resultOff 4) 29 = false ∧
       (nx (.conversionComplete 4 [9]) s).dev.reg Off.hkaLimitEvents = 1) ∧
    (nx (.conversionComplete 4 [10, 11]) (inPass 3 1 id)).dev.fld (resultOff 4) 11 0 = 10 ∧
    (nx (.conversionComplete 4 [11, 12]) (inPass 3 1 id)).dev.fld (resultOff 4) 11 0 = 12 ∧
    (nx (.conversionComplete 4 [4095]) (inPass 57 0 id)).dev.fld (resultOff 4) 11 0 = 0 ∧
    (let s := inPass 3 0 fun d => d.setReg Off.hkaTestDac (2 ^ 31 + 3 * 2 ^ 16)
     s.dev.dacDrives 3 = true ∧ (nx (.conversionComplete 4 [4095]) s).dev.bitAt (resultOff 4) 28 = true ∧
       (nx (.conversionComplete 4 [4095]) s).dev.reg Off.hkaLimitEvents = 0) := by decide +kernel

/-- Entry 4 in its open-wire test. -/
def testing : State := dv fun d => d.modEntry 4 fun e => { e with testing := true }

theorem wit_HousekeepingSequence_test : testing.dev.hka.entries.length = 32 ∧ (testing.dev.entry 4).testing = true ∧
    nx (.openWireTest 4 4000 1) State.reset = State.reset ∧ testing.dev.fld Off.hkaOpenCtrl 31 20 = 2048 ∧
    (nx (.openWireTest 4 2148 100) testing).dev.bitAt (resultOff 4) 30 = true ∧
    (nx (.openWireTest 4 2148 100) testing).dev.reg Off.hkaOpenEvents = 1 ∧
    (nx (.openWireTest 4 2147 100) testing).dev.bitAt (resultOff 4) 30 = false := by decide +kernel

/-- GO on ADC0, input 5. -/
def go : Word := 0x80000005

theorem wit_UrgentConversions : State.reset.running = true ∧
    (nx (.urgentConversion 5) State.reset).dev.reg Off.hkaUrgent = 5 ∧
    State.reset.dev.convBusy 0 = false ∧ (nx (.urgentConversion go) State.reset).dev.hka.urgent = [(0, 5, 0, some 1)] ∧
    (let s := nx (.urgentConversion go) State.reset
     (nx (.urgentConversion go) s).dev.bitAt Off.hkaStatus 5 = true ∧
       (nx (.urgentDone 0 77) s).dev.reg (urgentOff 0) = 0x8001004D ∧ (nx (.urgentDone 0 77) s).dev.hka.urgent = []) ∧
    (let s := inPass 3 0 id
     s.dev.convBusy 0 = true ∧ s.dev.inBurst 0 = false ∧ (nx (.urgentConversion go) s).dev.hka.urgent = [(0, 5, 0, none)] ∧
       (nx (.conversionComplete 4 [15]) (nx (.urgentConversion go) s)).dev.hka.urgent = [(0, 5, 0, some 0)]) ∧
    (inPass 3 1 id).dev.convBusy 0 = true ∧ (inPass 3 1 id).dev.inBurst 0 = true ∧
    (State.reset.dev.hka.urgent.find? fun u => decide (u.1 = 1) && u.2.2.2.isSome).isNone = true ∧
    nx (.testDac 0x80180000) State.reset = State.reset ∧ (nx (.testDac 0x801703FF) State.reset).dev.fld Off.hkaTestDac 20 16 = 23 ∧
    (let s := dv fun d => { d with env := { d.env with perst := true } }
     s.running = false ∧ nx (.testDac 0x801703FF) s = s) := by decide +kernel

theorem wit_SensorsAndGovernor_sensors : State.reset.dev.env.pwrgd = true ∧ State.reset.dev.thm.sensors.length = 72 ∧
    (let l := State.reset.dev.levels 2
     let t := nx (.sensorSample 71 (some l.2)) State.reset
     t.dev.bitAt (sensorOff 71) 18 = true ∧ t.dev.bitAt (sensorOff 71) 17 = true ∧ t.dev.bitAt Off.thmStatus 6 = true ∧
       (nx (.sensorSample 71 (some (l.2 - 24))) t).dev.bitAt (sensorOff 71) 18 = true ∧
       (nx (.sensorSample 71 (some (l.2 - 25))) t).dev.bitAt (sensorOff 71) 18 = false ∧
       (nx (.sensorSample 71 (some (l.2 - 20))) State.reset).dev.bitAt (sensorOff 71) 16 = true ∧
       (nx (.sensorSample 71 (some (l.2 - 21))) State.reset).dev.bitAt (sensorOff 71) 16 = false) ∧
    (nx (.sensorSample 0 (some (-4))) State.reset).dev.fld (sensorOff 0) 15 0 = 0xFFFC ∧
    (let s (k : Nat) := dv fun d => { d with thm := { d.thm with sensors := upd d.thm.sensors 3 fun t => { t with bad := k } } }
     ((s 2).dev.thm.sensors.getD 3 {}).bad = 2 ∧ (nx (.sensorSample 3 none) (s 2)).dev.bitAt (sensorOff 3) 19 = true ∧
       ((s 1).dev.thm.sensors.getD 3 {}).bad < 2 ∧ (nx (.sensorSample 3 none) (s 1)).dev.bitAt (sensorOff 3) 19 = false) ∧
    nx (.sensorSample 72 none) State.reset = State.reset := by decide +kernel

/-- A period in which the housekeeping entries 0 and 1 read codes: 96 µW each product; the limit is 700 W. -/
def drawing (code0 code1 l : Nat) (f : Dev → Dev) : State := dv fun d =>
  f { ((d.setReg (resultOff 0) code0).setReg (resultOff 1) code1).setFld Off.pwrLimit 9 0 700 with pwr := { d.pwr with level := l } }

theorem wit_SensorsAndGovernor_governor :
    (let s := drawing 4000 2000 0 id
     s.dev.env.pwrgd = true ∧ s.dev.powerMicro = 768000000 ∧ s.dev.powerLimit = 700 ∧ s.dev.grf.paused = false ∧
       s.dev.pwr.boardDue = none ∧ s.dev.floorLevel = 0 ∧ s.dev.pwr.level ≤ 15 ∧ (nx .governorPeriod s).dev.pwr.level = 1 ∧
       (nx .governorPeriod s).dev.bitAt Off.pwrStatus 3 = true ∧ (nx .governorPeriod s).dev.fld Off.pwrModule 15 0 = 7680) ∧
    (nx .governorPeriod (drawing 4000 2000 15 id)).dev.pwr.level = 15 ∧
    (drawing 3500 2000 4 id).dev.powerMicro = 672000000 ∧ (nx .governorPeriod (drawing 3500 2000 4 id)).dev.pwr.level = 4 ∧
    (nx .governorPeriod (drawing 3400 2000 4 id)).dev.pwr.level = 3 ∧ (nx .governorPeriod (drawing 3400 2000 0 id)).dev.pwr.level = 0 ∧
    (let s := drawing 3400 2000 0 fun d => d.setReg (sensorOff 0) 0x40000
     s.dev.floorLevel = s.dev.fld Off.thmCtrl 3 0 ∧ (nx .governorPeriod s).dev.pwr.level = s.dev.floorLevel ∧ s.dev.floorLevel ≠ 0) ∧
    (let s := drawing 4000 2000 3 fun d => { d with grf := { d.grf with paused := true } }
     s.dev.grf.paused = true ∧ (nx .governorPeriod s).dev.pwr.level = 3) ∧
    (let s := drawing 4000 2000 3 fun d => { d with pwr := { d.pwr with boardDue := some 400 } }
     s.dev.pwr.boardDue = some 400 ∧ (nx .governorPeriod s).dev.fld Off.pwrLimit 25 16 = 400) ∧
    (let s := dv fun d => { d with env := { d.env with pwrgd := false } }
     s.dev.env.pwrgd = false ∧ nx .governorPeriod s = s ∧ nx .telemetryRefresh s = s) ∧
    (rdy id).dev.env.pwrgd = true ∧ (rdy id).dev.bring ≠ .rom ∧ (rdy id).fw.swapping ≠ some 7 ∧
    (nx .telemetryRefresh (rdy id)).dev.pwr.telemetrySeq = 2 := by decide +kernel

/-- R465's example: 760.0, 744.4, 728.8, 713.1 and 697.5 W under a limit of 700 W. -/
theorem test_governor_example : nextLevel 0 760000000 700 0 = 1 ∧ nextLevel 1 744400000 700 0 = 2 ∧
    nextLevel 2 728800000 700 0 = 3 ∧ nextLevel 3 713100000 700 0 = 4 ∧ nextLevel 4 697500000 700 0 = 4 := by decide

/-- A domain requested off or off, with what else the test sets. -/
def domain (off stateOff : Nat) (f : Dev → Dev) : State :=
  rdy fun d => f { d with pwr := { d.pwr with off := off, stateOff := stateOff } }

theorem wit_PowerDomains_request : (rdy id).running = true ∧
    (nx (.pwrOff true 0x3F) (rdy id)).dev.bitAt Off.pwrStatus 4 = true ∧ (nx (.pwrOff true 0x1F) (rdy id)).dev.pwr.off = 0x1F00000000 ∧
    (nx (.pwrOff true 0x3C0) (rdy id)).dev.bitAt Off.pwrStatus 4 = true ∧ (nx (.pwrOff true 0x1C0) (rdy id)).dev.pwr.off = 0x1C000000000 ∧
    (let s := rdy fun d => tile0 .ready d
     s.dev.halfAllocated 0 = true ∧ (nx (.pwrOff true 0x400) s).dev.bitAt Off.pwrStatus 4 = true) ∧
    (nx (.pwrOff true 0x400) (rdy id)).dev.pwr.off = 2 ^ 42 ∧ (nx (.pwrOff false 0xFFFFFFFF) (rdy id)).dev.pwr.off = 0xFFFFFFFF ∧
    (let s := rdy fun d => { d with mmu := { d.mmu with alloc := [(0x80F0000000, 4096)] } }
     s.dev.halfAllocated 1 = true ∧ (nx (.pwrOff true 0x800) s).dev.bitAt Off.pwrStatus 4 = true) := by decide +kernel

theorem wit_PowerDomains_switch :
    nx (.domainSwitchOff 50) (rdy id) = rdy id ∧ bit (rdy id).dev.pwr.off 0 = false ∧ nx (.domainSwitchOff 0) (rdy id) = rdy id ∧
    (let s := domain 1 0 fun d => tile0 .ready d
     bit s.dev.pwr.off 0 = true ∧ bit s.dev.pwr.stateOff 0 = false ∧ s.dev.domainQuiet 0 = true ∧
       (nx (.domainSwitchOff 0) s).dev.pwr.stateOff = 1) ∧
    (domain (2 ^ 49) 0 id).dev.domainQuiet 49 = true ∧ ((nx (.domainSwitchOff 49) (domain (2 ^ 49) 0 id)).dev.port 5).state = .off ∧
    (let s := domain (2 ^ 42) 0 fun d => tile0 .ready d
     s.dev.domainQuiet 42 = false ∧ nx (.domainSwitchOff 42) s = s) ∧
    nx (.domainOn 50) (rdy id) = rdy id ∧ nx (.domainOn 0) (domain 1 1 id) = domain 1 1 id ∧
    (let s := domain 0 1 fun d => (tile0 .ready d).modPhys 0 fun t => { t with passDue := 0, nearCopyOk := true }
     bit s.dev.pwr.off 0 = false ∧ bit s.dev.pwr.stateOff 0 = true ∧ 0 ∈ s.dev.bankTiles 0 ∧ (s.dev.phys 0).logical ≠ none ∧
       (s.dev.phys 0).state = .ready ∧ (s.dev.phys 0).nearCopyOk = true ∧ s.dev.badWords (trimArea 0) trimBytes = [] ∧
       (s.dev.phys 0).grade = 2 ∧ s.dev.background = true ∧ ((nx (.domainOn 0) s).dev.phys 0).passDue = 1) ∧
    (let s := domain 0 (2 ^ 49) fun d => { d with bring := .fw, lnk := { d.lnk with ports := List.replicate 6 {} } }
     s.dev.bring = .fw ∧ (49 : Nat) - 44 < s.dev.lnk.ports.length ∧
       (s.dev.portEnabled 5 = true → ((nx (.domainOn 49) s).dev.port 5).state = .listen)) := by decide +kernel

theorem wit_ManagementMessages :
    (nx (.getTelemetry 16) State.reset).dev.env.mctp = [(0x40, [2])] ∧
    ((nx (.getTelemetry 15) State.reset).dev.env.mctp.map (·.2.length)) = [257] ∧
    (nx (.getCper 64) State.reset).dev.env.mctp = [(0x40, [2])] ∧ State.reset.dev.evr.recent.length ≤ 63 ∧
    (nx (.getCper 63) State.reset).dev.env.mctp = [(0x40, [0])] ∧
    (nx (.setBoardLimit 299) State.reset).dev.env.mctp = [(0x40, [2])] ∧ (nx (.setBoardLimit 951) State.reset).dev.pwr.boardDue = none ∧
    (nx (.setBoardLimit 300) State.reset).dev.pwr.boardDue = some 300 ∧ (nx (.setBoardLimit 950) State.reset).dev.pwr.boardDue = some 950 ∧
    (nx (.setBoardLimit 0) State.reset).dev.pwr.boardDue = some 950 ∧
    (nx .getShutdown State.reset).dev.env.mctp = [(0x40, [0, 0, 0, 0, 0])] ∧
    ((nx .getIdentity State.reset).dev.env.mctp.map (·.2.length)) = [37] := by decide +kernel

/-! ## Register accesses, limit ratios and the frame tick -/

theorem wit_RegisterAccesses_writes :
    (let s := dv fun d => { d with env := { d.env with perst := true } }
     s.running = false ∧ nx (.registerWrite Off.thmCtrl 4 [1, 0, 0, 0]) s = s) ∧
    State.reset.running = true ∧ rowOf (Off.thmCtrl + 2) = none ∧
    nx (.registerWrite Off.thmCtrl 2 [1, 0]) State.reset = State.reset ∧ rowOf 0xFFFFFC = none ∧
    nx (.registerWrite (Off.curCtrl + 2) 4 [1, 0, 0, 0]) State.reset = State.reset ∧
    Off.curCtrl / 0x10000 = 2 ∧ Off.curCtrl % 4 = 0 ∧ rowOf Off.curCtrl ≠ none ∧
    ((nx (.registerWrite Off.curCtrl 4 (le 3 4)) State.reset).dev.shadow.map (·.1)) = [Off.curCtrl] := by decide +kernel

theorem wit_RegisterAccesses_fields :
    regTakes Off.hkaTestDac 0x180000 = false ∧ State.reset.dev.regWrite Off.hkaTestDac 0x180000 = State.reset.dev ∧
    (let d := (rdy fun d => { tile0 .ready d with cal := { d.cal with passes := [{ phys := 0 }] } }).dev
     let v := d.reg Off.calCtrl - 2 ^ 11
     regTakes Off.calCtrl v = true ∧ d.changesS Off.calCtrl v = true ∧ d.blockIdle Off.calCtrl = false ∧
       violationBit Off.calCtrl = (Off.calStatus, 4) ∧ (d.regWrite Off.calCtrl v).bitAt Off.calStatus 4 = true ∧
       (d.regWrite Off.calCtrl v).reg Off.calCtrl = d.reg Off.calCtrl ∧
       ({ d with cal := { d.cal with passes := [] } }.regWrite Off.calCtrl v).reg Off.calCtrl = v) ∧
    regTakes Off.hubRatioCtrl 0 = true ∧ State.reset.dev.changesS Off.hubRatioCtrl 0 = false ∧
    ((fieldsOf Off.hubRatioCtrl).map fun f => (f.hi, f.lo, f.cls)) = [(8, 8, .l), (7, 0, .f)] ∧
    (State.reset.dev.regWrite Off.hubRatioCtrl 0).bitAt Off.hubRatioCtrl 8 = false ∧
    fieldTakes Off.hubRatioCtrl 0 0 = false ∧ (State.reset.dev.regWrite Off.hubRatioCtrl 0).fld Off.hubRatioCtrl 7 0 = 16 ∧
    fieldTakes Off.hubRatioCtrl 0 255 = true ∧ (State.reset.dev.regWrite Off.hubRatioCtrl 0x1FF).fld Off.hubRatioCtrl 7 0 = 16 ∧
    (State.reset.dev.regWrite Off.hubRatioCtrl 0x1FF).applyShadows.fld Off.hubRatioCtrl 7 0 = 255 ∧
    (let d := State.reset.dev.setReg Off.evrStatus 0xC
     (d.regWrite Off.evrStatus 4).bitAt Off.evrStatus 2 = false ∧ (d.regWrite Off.evrStatus 4).bitAt Off.evrStatus 3 = true ∧
       (d.regWrite Off.evrCount 7).reg Off.evrCount = d.reg Off.evrCount) := by decide +kernel

theorem wit_RegisterAccesses_latch :
    latches Off.thmCtrl = false ∧ nx (.lowHalfRead Off.thmCtrl) State.reset = State.reset ∧ latches Off.grfTickLo = true ∧
    (let s := dv fun d => { d with grf := { d.grf with tick := 5 * 2 ^ 32 + 1 } }
     let t := nx (.lowHalfRead Off.grfTickLo) s
     s.running = true ∧ t.readReg (Off.grfTickLo + 4) = 5 ∧
       ({ t with dev := { t.dev with grf := { t.dev.grf with tick := 6 * 2 ^ 32 } } } : State).readReg (Off.grfTickLo + 4) = 5) := by
  decide +kernel

/-- The times of R29's example: a share took 44.84 µs; KV reads ran for 1,000 ns, and the first two ports sent for as long. -/
def meas : RatioMeas where
  kvTime := 1000
  latTime := 44840
  linkTime := [1000, 1000, 0, 0, 0, 0]

/-- READY with a window that has ended: `kv` bytes of KV, and array steps that bound the example's share by 27.88 µs; ports 0
and 1 sent 0.94 of their capacity, and one byte in four less. -/
def window (kv : Nat) (f : Dev → Dev) : State := rdy fun d =>
  let d := (d.modPort 1 fun t => { t with lanes := 4 }).modPort 0 fun t => { t with lanes := 8 }
  f { d with hub := { d.hub with
      frames := 16
      winKv := kv
      winStep := 27880 - kv / 8200
      winLink := [110450, 55224, 0, 0, 0, 0] } }

theorem wit_RatioWindows :
    (rdy id).dev.hub.frames < (rdy id).dev.fld Off.hubRatioCtrl 7 0 ∧ nx (.ratioWindowEnd meas) (rdy id) = rdy id ∧
    (let s := window 0 fun d => { d with bring := .hold }
     s.dev.fld Off.hubRatioCtrl 7 0 ≤ s.dev.hub.frames ∧ s.dev.bring ≠ .ready ∧ (nx (.ratioWindowEnd meas) s).dev.hub.frames = 0) ∧
    (window 0 fun d => d.setFld Off.hubRatioCtrl 8 8 0).dev.bitAt Off.hubRatioCtrl 8 = false ∧
    (let s := window 7380000 id
     let t := nx (.ratioWindowEnd meas) s
     let u := nx (.ratioWindowEnd meas) (window 7379999 id)
     s.dev.bring = .ready ∧ s.dev.bitAt Off.hubRatioCtrl 8 = true ∧ s.dev.hub.bound ≠ 0 ∧ t.dev.fld Off.hubRatioLatency 15 0 = 0x19BC ∧
       t.dev.bitAt Off.hubRatioStatus 1 = false ∧ t.dev.bitAt Off.hubRatioStatus 0 = false ∧ u.dev.bitAt Off.hubRatioStatus 0 = true ∧
       t.dev.bitAt Off.hubRatioStatus 2 = false ∧ t.dev.bitAt Off.hubRatioStatus 3 = true ∧
       t.dev.reg (Off.hubRatioLink + 8) = 0 ∧ t.dev.fld Off.hubRatioKv 31 16 = 3686) ∧
    (let s := window 0 id
     let t := nx (.ratioWindowEnd { kvTime := 1000, latTime := 16 * 27880 }) s
     t.dev.reg Off.hubRatioKv = s.dev.reg Off.hubRatioKv ∧ t.dev.reg Off.hubRatioClips = 1 ∧
       (nx (.ratioWindowEnd { latTime := 2 * 27880 + 1 }) s).dev.bitAt Off.hubRatioStatus 1 = true) := by
  decide +kernel

theorem wit_FrameTicks :
    (let s := dv fun d => { d with env := { d.env with perst := true } }
     s.running = false ∧ nx .frameTick s = s) ∧
    (let s := rdy fun d => { d with grf := { d.grf with paused := true } }
     s.dev.grf.paused = true ∧ nx .frameTick s = s) ∧
    (let s := rdy fun d => { d with grf := { d.grf with pauseAt := some 7, tick := 7 } }
     s.dev.grf.pauseAt = some 7 ∧ nx .frameTick s = s) ∧
    (let s := rdy fun d => { d with grf := { d.grf with pauseAt := some 7, tick := 6 } }
     s.running = true ∧ s.dev.grf.paused = false ∧ s.dev.lnk.formAt = none ∧ s.fw.confirming = none ∧
       (nx .frameTick s).dev.grf.tick = 7 ∧ (nx .frameTick s).dev.grf.tickTime = 50000) ∧
    (let s := rdy fun d => { d with lnk := { d.lnk with formAt := some (40000, 900, 100) } }
     s.dev.lnk.formAt = some (40000, 900, 100) ∧ (nx .frameTick s).dev.grf.tick = 900 ∧
       (nx .frameTick s).dev.grf.tickTime = 40000 ∧ (nx .frameTick s).dev.fld Off.grfFrame 27 16 = 100) ∧
    (let s := rdy fun d => { d with lnk := { d.lnk with formAt := some (50001, 900, 100) } }
     (nx .frameTick s).dev.grf.tick = 1) ∧
    (let s := rdy fun d => { d with grf := { d.grf with frameAt := 1, frameNext := 25 } }
     s.dev.grf.frameAt ≠ 0 ∧ s.dev.grf.frameAt ≤ s.dev.grf.tick + 1 ∧ (nx .frameTick s).dev.fld Off.grfFrame 27 16 = 25) ∧
    (let s := rdy fun d => { d with grf := { d.grf with frameAt := 2, frameNext := 25 } }
     s.dev.grf.tick + 1 < s.dev.grf.frameAt ∧ (nx .frameTick s).dev.fld Off.grfFrame 27 16 = 50) := by decide +kernel

/-! ## Where commands complete -/

/-- A check's value, its device and the state of the unit's task after it. -/
def prepared (s : State) (back : Bool) : Bool :=
  match s.dev.issuedWhere 3 (fun k => decide (k % 16 = 3) == back), s.dev.loadAtt 0 0 with
  | some (0, 0), (.ok x, d) =>
    let d0 := ({ d with att := { d.att with tasks := d.att.tasks ++ [x] } } : Dev).startTask 0 0
    let r := d0.reader 5 0 0 0
    match d0.attRows r x with
    | (.ok y, d1) =>
      match d1.attArrays r y with
      | (.ok z, d2) =>
        let p := d2.prepare r z (prepSteps z.body z.rows)
        s.dev.wideIdle && decide (d.att.tasks = [] ∧ z.blocks ≠ []) && (got p).isSome && !p.2.stopped 0 0
      | _ => false
    | _ => false
  | _, _ => false

/-- A log entry's master copy lies in device memory, and no word is bad. -/
def inDevice (s : State) (l : Nat) : Bool :=
  (s.dev.log l).any fun x => decide (s.dev.upsets = []) && x.pages.all fun p => decide (p < hostPage)

theorem wit_EngineCommandsComplete :
    (let s := rdy id
     s.running = true ∧ s.dev.grf.paused = false ∧ s.dev.grf.pauseAt = none ∧ s.dev.lnk.formAt = none ∧ s.fw.confirming = none ∧
       (nx .frameTick s).dev.grf.tick = 1) ∧
    (let s := auditing 4 id
     s.dev.cur.queue = [auditOf 4] ∧ s.dev.bitAt Off.wdeCtrl 0 = false ∧ s.dev.auditMay = true ∧ inDevice s 0 = true ∧
       (s.dev.log 0).map (fun x => decide ((x.auditGrid (auditOf 4)).1 ≤ (auditOf 4).tilesDone + 1)) = some true ∧
       (nx .auditRun s).dev.cur.queue = []) ∧
    (let s := firingState [0, 1]
     s.dev.cur.firings.map (fun f => (f.shots, s.dev.auditStale f.audit)) = [([0, 1], false)] ∧
       (s.dev.log 0).bind (·.phys) = some 0 ∧ inDevice s 0 = true ∧
       (nx .confirmationFiring s).dev.cur.firings.map (·.shots) = [[1]]) ∧
    (let p : ProgTask := { slot := 16, todo := [(0, 0)] }
     let s := waitingProg p
     s.dev.pln.prog = [p] ∧ dieOf 0 = 0 ∧ inDevice s 0 = true ∧ s.dev.bitAt Off.plnCtrl 2 = false ∧ s.dev.pln.rounds = [] ∧
       s.dev.progBlocked p 0 0 = false ∧ 1 ≤ s.dev.fld Off.plnProgLimit 22 16 ∧
       (nx (.programRoundStart 0) s).dev.pln.rounds.length = 1) ∧
    prepared (attend 1 1 id) false = true ∧ prepared (attend 3 0 id) true = true ∧
    (let s := rdy (graph .issued [(5, copyBody 1)])
     s.dev.issuedWhere 5 (fun k => (k % 16 == 2) == false) = some (0, 0) ∧ s.dev.freeEngine = some 0 ∧
       (got (Chk.thn (s.dev.readBody 0 0 64) checkDma)).isSome = true ∧ (nx .dmaCopy s).dev.dma.tasks.map (·.engine) = [0]) ∧
    (let s := rdy (graph .issued [(5, fillBody)])
     s.dev.issuedWhere 5 (fun k => (k % 16 == 2) == true) = some (0, 0) ∧ s.dev.freeEngine = some 0 ∧
       (got (Chk.thn (s.dev.readBody 0 0 64) checkDma)).isSome = true) ∧
    (let s := cached3 false
     s.running = true ∧ s.dev.mmu.inv = false ∧
       [Instr.invalidateAll, .invalidateSpace 1, .invalidateRange 1 0x200 1, .invalidateKvSpace 1, .invalidateKvAll].map
         (fun c => (nx c s).dev.mmu.tlb.length) = [0, 1, 2, 2, 1]) ∧
    (let s := fineTile .ready (fun t => { t with decades := 3 }) id
     (s.dev.phys 0).logical ≠ none ∧ (s.dev.phys 0).grade = 2 ∧ s.dev.background = true ∧ (s.dev.phys 0).decades < 4 ∧
       s.dev.fld Off.calPeriod 15 0 ≠ 0 ∧ s.dev.fld Off.calPeriod 31 16 ≠ 0 ∧
       [Instr.passPendingDecade 0, .passPendingTrackPeriod 0, .passPendingFinePeriod 0].map (fun c => ((nx c s).dev.phys 0).passDue) =
         [1, 1, 2]) := by decide +kernel

/-- A NOP in slot 0 of mailbox 1. -/
def nopSlot : State := host fun d => d.modBox 1 fun b =>
  { b with doorbell := 1, slots := [(0, 0xFF), (1, 0x01), (2, 1)] }

/-- Space 1 and its tables, in an extent of their own. -/
def tables : State := host fun d => { page1 d with mmu := { (page1 d).mmu with alloc := put (page1 d).mmu.alloc 0 0x8000000, tables := [(1, 0x10000)] } }

/-- The device that serves edition 5 without embedding or sampling. -/
def between : State := serving fun d =>
  { d with srv := { d.srv with templates := [{ tpl with embeds := false, samples := false }] } }

/-- An admission without prefix or adapter. -/
def plainBody : AdmitBody := { body 3 with pfx := 0xFFFFFFFF, adapter := 0xFFFFFFFF }

/-- A port that is UP and has received FLIT_SEQ 7. -/
def upPort : State := linked 2 .up (fun t => { t with rxSeq := 7 }) id

/-- An IDLE flit of FLIT_SEQ 7, and a DATA flit of the next with the first of two words of a packet of channel 2. -/
def idle7 : List Byte := flitBytes 0 0 [] false false 1 4 0 7
/-- The DATA flit. -/
def data8 : List Byte := flitBytes 1 2 [le 0x0001000A00010000 8 ++ List.replicate 24 0] false false 0 0 0 8

/-- A flit's header and words decode. -/
def decodes (l : List Byte) : Bool :=
  (flitWord (l.take 11) 8).any fun w => (List.range (bits (ofLe w.1) 56 54)).all fun i =>
    (flitWord ((l.drop (11 + 35 * i)).take 35) 32).isSome

theorem wit_InterfaceCommandsComplete :
    (let s := nopSlot
     let h := parseHeader 1 (s.dev.nextSlot 1)
     let s1 : Dev := { s.dev with mbx := { s.dev.mbx with served := 1 } }.modBox 1 fun b =>
       { b with consumed := (b.consumed + 1) % 32, rewritten := b.rewritten.filter (· ≠ b.consumed % 16) }
     s.running = true ∧ s.dev.turn = some 1 ∧ s.dev.slotRewritten 1 = false ∧ h.opcode = 0x01FF ∧ (s1.accept h).1.isSome = true ∧
       lastStatus (nx .commandTake s) = some (true, 0)) ∧
    (let s := tables
     let d := (s.dev.accept (cmd 0x0011)).2
     acc s 0x0011 = true ∧ mapReserved 0 0 = false ∧ pageOf 0 = 4096 ∧ (d.root 1).isSome = true ∧ d.mmu.maps = [] ∧
       meets 0x40000000 4096 (d.fld Off.attKvWindow 1 0 * 2 ^ 50) (2 ^ 50) = false ∧
       (d.allocPages 0 4096 0 1).any (fun x => (x.2.mapPage 1 0x40000000 4096 0 (x.1.headD 0) true false).isSome) = true ∧
       lastStatus (nx (.map (cmd 0x0011) 1 0 0 true false 0x40000000 4096 0) s) = some (true, 0)) ∧
    (let s := described 1
     let d := (s.dev.accept (cmd 0x0100)).2
     acc s 0x0100 = true ∧ (d.slot 0).state = .empty ∧
       (went (d.readEach { cls := 8 } 1 [(0x203000, 64)])).any (fun ls =>
         decide (ls.length = 1 ∧ firstFail (descTests (ls.headD []) 1) = none)) = true ∧
       (went ((d.readEach { cls := 8 } 1 [(0x203000, 64)]).2.readEach { cls := 8 } 1
         [(0x200000, 64), (0x200100, 64), (0x203040, 2)])).any (fun ls =>
           (ls.take 2).all (fun x => decide (hdrStatus x = none)) &&
           (List.range 2).all (edgesOk ((ls.take 2).map parseHdr) (leWords 2 1 (ls.getD 2 [])))) = true ∧
       ((nx (.graphLoad (cmd 0x0100) 0 1 0x203000) s).dev.slot 0).state = .loaded) ∧
    (let s := between
     let d := (s.dev.accept (cmd 0x0110)).2
     acc s 0x0110 = true ∧ (d.template d.srv.current).any (fun x => !x.embeds && !x.samples) = true ∧
       d.bitAt Off.plnCtrl 0 = false ∧ d.request 3 = none ∧ d.srv.requests = [] ∧ d.srv.releasing = [] ∧
       (nx (.requestAdmit (cmd 0x0110) plainBody) s).dev.srv.requests.map (·.id) = [3]) ∧
    (let s := upPort
     (s.dev.port 0).state = .up ∧ (s.dev.port 0).queue = [] ∧ idle7.length = 256 ∧ data8.length = 256 ∧ decodes idle7 = true ∧
       decodes data8 = true ∧ ((nx (.flitReceive 0 idle7) s).dev.port 0).rxSeq = 7 ∧
       ((nx (.flitReceive 0 data8) s).dev.port 0).rxSeq = 8 ∧
       ((nx (.flitReceive 0 data8) s).dev.port 0).words.map (·.length) = [0, 1, 0, 0]) ∧
    (let p : Packet := { src := 1, channel := 4, type := 2, payload := List.replicate 64 0 }
     upPort.dev.bring = .ready ∧ headerOk p = true ∧ p.dst = upPort.dev.deviceId ∧ upPort.dev.request 0 = none ∧
       p.seq = pairVal upPort.dev.lnk.recvNext 1 4 ∧ upPort.dev.lnk.reorder = [] ∧ pairVal upPort.dev.lnk.ackDue 1 4 + 1 < 64 ∧
       pairVal (nx (.packetReceive p) upPort).dev.lnk.recvNext 1 4 = 1) ∧
    [1, 2, 3, 4, 5, 6, 7].all (fun k => collOk (collective k .up)) = true ∧
    [(1, Instr.allReduce), (2, .reduceScatter), (3, .allGather), (4, .broadcast), (5, .send), (6, .receive), (7, .relay)].all
      (fun k => decide ((nx k.2 (collective k.1 .up)).dev.lnk.collIndex.map Prod.snd = [1])) = true := by decide +kernel

theorem wit_InterfaceCommandsComplete_answers :
    (rdy id).running = true ∧ (rdy id).dev.crc.length = 8 ∧ ((rdy id).dev.crcUnit 7).holder = none ∧
    ((nx (.crcFeedW 7 5) (rdy id)).dev.crcUnit 7).r ≠ ((rdy id).dev.crcUnit 7).r ∧
    approved.spdmServed = true ∧ approved.sec.approved = true ∧ 13 ∈ approved.measurements ∧
    (nx (.challenge []) approved).dev.env.answers.length = 1 ∧
    (let s := dv fun d => { d with evr := { d.evr with recent := [{ recordId := 1 }] } }
     (s.dev.evr.recent[0]?).isSome = true ∧ (nx (.getCper 0) s).dev.env.mctp.map (fun a => a.2.headD 7) = [0]) ∧
    (nx (.setBoardLimit 300) State.reset).dev.env.mctp.map (·.2) = [[0]] ∧
    (nx .getIdentity State.reset).dev.env.mctp.map (·.2.length) = [37] := by decide +kernel

/-! ## What every step keeps -/

/-- A queued command at reset: the hypotheses of the three invariants meet. -/
def queued (c : Instr) : State := { State.reset with pending := [c] }

theorem wit_CountersOnlyRise : Safety.FlashWf (queued (.fwActivate {})) ∧ (nx .perstAssert State.reset).running = false ∧
    (match step (queued .perstAssert) with | .next t => t.dev.env.perst | _ => false) = true := by
  refine ⟨⟨by decide +kernel, fun k => ?_, by decide +kernel, by decide +kernel, by decide +kernel⟩, by decide +kernel, by decide +kernel⟩
  have h : ∀ k, (queued (.fwActivate {})).counter k = 0 := fun k => by
    rcases Nat.lt_or_ge k 11 with h | h
    · revert k; decide +kernel
    · exact List.getD_eq_default _ _ h
  rw [h k]; decide

theorem wit_ApprovedModeIsEarned : Safety.ApprovedWf (queued (.bootRom true)) := fun h =>
  absurd h (by decide +kernel)

/-! ## Well-formed commands: for each check, an ill-formed command that it refuses -/

/-- A header of no mailbox. -/
def badHdr : CmdHdr := { mbx := 17 }

/-- A packet on channel 1 without payload. -/
def p : Packet := { channel := 1 }

/-- A packet on no channel. -/
def badPacket : Packet := { channel := 0 }

/-- A body whose request number is too wide. -/
def badBody : AdmitBody := { id := 2 ^ 32 }

theorem test_wf_header :
    ({} : CmdHdr).wf = true ∧ badHdr.wf = false ∧ ({ version := 256 } : CmdHdr).wf = false ∧ ({ seq := 2 ^ 32 } : CmdHdr).wf = false ∧
    ({ hostTs := 2 ^ 64 } : CmdHdr).wf = false ∧ ({ bodyBytes := 2 ^ 32 } : CmdHdr).wf = false ∧ ({ tag := 2 ^ 32 } : CmdHdr).wf = false := by
  decide +kernel

theorem test_wf_packet :
    p.wf = true ∧ badPacket.wf = false ∧ { p with channel := 5 }.wf = false ∧ { p with dst := 2 ^ 16 }.wf = false ∧
    { p with src := 2 ^ 16 }.wf = false ∧ { p with seq := 2 ^ 32 }.wf = false ∧ { p with payload := List.replicate 31 0 }.wf = false ∧
    { p with payload := List.replicate 4128 0 }.wf = false ∧ { p with payload := List.replicate 4096 0 }.wf = true := by decide +kernel

theorem test_wf_body :
    ({} : AdmitBody).wf = true ∧ badBody.wf = false ∧ ({ adapter := 2 ^ 32 } : AdmitBody).wf = false ∧
    ({ maxTokens := 2 ^ 32 } : AdmitBody).wf = false ∧ ({ seed := 2 ^ 64 } : AdmitBody).wf = false ∧
    ({ ring := 2 ^ 64 } : AdmitBody).wf = false ∧ ({ ringEntries := 2 ^ 32 } : AdmitBody).wf = false ∧
    ({ promptTokens := 2 ^ 32 } : AdmitBody).wf = false ∧ ({ prompt := 2 ^ 64 } : AdmitBody).wf = false ∧
    ({ sampling := 2 ^ 64 } : AdmitBody).wf = false ∧ ({ pfx := 2 ^ 32 } : AdmitBody).wf = false := by decide +kernel

/-- Ill-formed commands of the engines, the memory and the host interface. -/
def illFormedA : List Instr :=
  [.programRoundStart 4, .programRoundEnd 4, .walkComplete 0 0 0 0 false, .walkComplete 10 0 0 0 false,
   .walkComplete 1 0 16 0 false, .faultResume 256, .faultFail 256 0, .faultFail 0 65536, .faultTimeout 256,
   .invalidateSpace 16, .invalidateRange 16 0 0, .invalidateKvSpace 16, .checkUnitAcquire 16, .transferUnit 16,
   .hostAccess 16, .dmaSave 16, .arbiterGrant 4 0 [], .arbiterGrant 0 128 [], .burstLimitExpiry 4 0,
   .burstLimitExpiry 0 128, .requestDrop 4 0 0, .requestDrop 0 128 0, .requestDrop 0 0 32, .doorbellWrite 17 0 0,
   .mbxCqHead 17 0, .mbxCtrl 17 0, .hello badHdr 0 0 false 0 0, .identify badHdr 0, .configRead badHdr 0 0,
   .configWrite badHdr 0 0 false, .resetWarm badHdr, .spaceSet badHdr 0 false, .spaceSet {} 16 false,
   .map badHdr 0 0 0 false false 0 0 0, .map {} 16 0 0 false false 0 0 0, .unmap badHdr 0 0 0, .unmap {} 16 0 0,
   .calibrate badHdr 0 0 0, .referenceSet badHdr false, .fwStage badHdr 0 0 0, .fwStage {} 0 0 256,
   .fwActivate badHdr, .fwRecovery badHdr, .fabricForm badHdr false, .fabricCut badHdr 0 0 0,
   .editionSwitch badHdr 0, .editionRelease badHdr 0, .graphLoad badHdr 0 0 0, .graphLoad {} 16 0 0,
   .graphLoad {} 0 16 0, .graphRun badHdr 0, .graphRun {} 16, .graphCancel badHdr 0, .graphCancel {} 16,
   .graphUnload badHdr 0, .graphUnload {} 16, .requestAdmit badHdr {}, .requestAdmit {} badBody]

/-- Ill-formed commands of the other families. -/
def illFormedB : List Instr :=
  [.requestRetire badHdr 0, .adapterLoad badHdr 0 0 0 0, .adapterUnload badHdr 0, .nop badHdr,
   .earlyLinkRequest 6 p, .earlyLinkRequest 0 badPacket, .pipCoreExit 128 0 [], .pipException 128,
   .pipQuantumEnd 128, .graphComplete 16, .graphOverrun 16, .frameLimit 16, .runStart 4,
   .handoffReceive badPacket, .token badPacket, .rollback badPacket, .passPendingDecade 6336,
   .passPendingTrackPeriod 6336, .passPendingFinePeriod 32768, .passStart 4, .passMeasurementEnd 6336 {}, .passMeasurementEnd 0 {},
   .portTraining 6 0, .portTraining 0 9, .portRetrain 6 0, .portRetrain 0 9, .linkHello 6 {}, .planCheckTimeout 6,
   .form badPacket, .flitReceive 6 [], .linkFailure 6 0, .linkFailure 0 3, .packetReceive badPacket,
   .e2eAck 65536 1, .e2eAck 0 0, .e2eAck 0 5, .e2eReplay 65536 1, .e2eReplay 0 0, .e2eReplay 0 5,
   .retryAfter 65536 1 0 0, .retryAfter 0 0 0 0, .retryAfter 0 5 0 0, .retryAfter 0 1 4294967296 0,
   .lost 65536 1 0 0, .lost 0 0 0 0, .lost 0 5 0 0, .lost 0 1 4294967296 0, .lost 0 1 0 65536,
   .syncExchange 6 0 0 0 0, .deviceSilentCut 65536, .abort badPacket, .expel badPacket, .crcFeedB 8 0,
   .crcFeedH 8 0, .crcFeedW 8 0, .crcRestart 8, .crcValueLo 8 0, .crcValueHi 8 0, .sequenceEntryDue 32,
   .conversionComplete 32 [], .openWireTest 32 0 0, .urgentDone 2 0, .urgentDone 0 4096, .sensorSample 72 none,
   .thermalShutdown 72 0, .domainSwitchOff 50, .domainOn 50, .dmaResume 16]

theorem test_wf_refuses : (illFormedA ++ illFormedB).all (fun c => !c.wf) = true := by decide +kernel

theorem test_wf_admits : Instr.wf .frameTick = true ∧ Instr.wf (.programRoundStart 3) = true ∧ Instr.wf (.walkComplete 9 0 15 0 0) = true ∧
    Instr.wf (.nop {}) = true ∧ Instr.wf (.packetReceive p) = true ∧ Instr.wf (.sensorSample 71 none) = true := by decide +kernel

end Sys2Proof.Tests
end

section
/-! PROOFS. What no command touches: the queue of commands. Every update of the whole state leaves it as it is (R11, R249, R257). -/

namespace Sys2Proof.Machine

/-! ## The queue stands -/

/-- A fold of steps that each leave the queue as it is leaves it. -/
theorem foldl_pending {α : Type} {f : State → α → State} (hf : ∀ s a, (f s a).pending = s.pending) (l : List α) (s : State) :
    (l.foldl f s).pending = s.pending := by
  induction l generalizing s with
  | nil => rfl
  | cons a l ih => exact (ih _).trans (hf s a)

/-! ### Resets and power -/

@[simp] theorem State.afterReset_pending (s : State) (cold : Bool) : (s.afterReset cold).pending = s.pending := rfl

@[simp] theorem State.cutWrite_pending (s : State) : s.cutWrite.pending = s.pending := by
  unfold State.cutWrite
  split <;> rfl

@[simp] theorem State.cutFirmware_pending (s : State) : s.cutFirmware.pending = s.pending := by
  unfold State.cutFirmware
  extract_lets now t
  have selectors : t.pending = s.pending := foldl_pending (fun _ _ => by split <;> rfl) _ s
  split
  · exact selectors
  · split
    · exact selectors
    · exact selectors

@[simp] theorem State.warmReset_pending (s : State) : s.warmReset.pending = s.pending := s.cutFirmware_pending

@[simp] theorem State.assertReset_pending (s : State) (perst : Bool) : (s.assertReset perst).pending = s.pending := by
  unfold State.assertReset
  split
  · rfl
  · simp

@[simp] theorem State.releaseReset_pending (s : State) (straps : BitVec 9) (recovery : Bool) :
    (s.releaseReset straps recovery).pending = s.pending := by
  unfold State.releaseReset
  split <;> rfl

@[simp] theorem State.powerUp_pending (s : State) : s.powerUp.pending = s.pending := by
  unfold State.powerUp
  split <;> rfl

@[simp] theorem State.powerLost_pending (s : State) : s.powerLost.pending = s.pending := by simp [State.powerLost]

@[simp] theorem State.thermalShutdown_pending (s : State) (n : Nat) (reading : Int) :
    (s.thermalShutdown n reading).pending = s.pending := by
  unfold State.thermalShutdown
  split
  · rfl
  · simp

@[simp] theorem State.latchClear_pending (s : State) : s.latchClear.pending = s.pending := by
  unfold State.latchClear
  dsimp only
  split
  · simp
  · rfl

/-! ### The store, IDENTIFY and the erase -/

@[simp] theorem State.enterLink_pending (s : State) (blob : List Byte) : (s.enterLink blob).pending = s.pending := rfl
@[simp] theorem State.doIdentify_pending (s : State) (h : CmdHdr) (buffer : Nat) : (s.doIdentify h buffer).pending = s.pending := rfl
@[simp] theorem State.doConfigRead_pending (s : State) (h : CmdHdr) (buffer bytes : Nat) :
    (s.doConfigRead h buffer bytes).pending = s.pending := rfl

@[simp] theorem State.doConfigWrite_pending (s : State) (h : CmdHdr) (source bytes : Nat) (persist : Bool) :
    (s.doConfigWrite h source bytes persist).pending = s.pending := by
  unfold State.doConfigWrite
  dsimp only
  repeat' split
  all_goals rfl

@[simp] theorem State.eraseAll_pending (s : State) : s.eraseAll.pending = s.pending := by
  unfold State.eraseAll
  dsimp only
  split <;> rfl

/-! ### Firmware -/

@[simp] theorem State.modComp_pending (s : State) (i : Nat) (f : FwComp → FwComp) : (s.modComp i f).pending = s.pending := rfl
@[simp] theorem State.select_pending (s : State) (i : Nat) (b p : Bool) : (s.select i b p).pending = s.pending := rfl
@[simp] theorem State.fwEvent_pending (s : State) (b i : Nat) : (s.fwEvent b i).pending = s.pending := rfl
@[simp] theorem State.switchPending_pending (s : State) (i : Nat) : (s.switchPending i).pending = s.pending := rfl
@[simp] theorem State.confirm_pending (s : State) (i : Nat) : (s.confirm i).pending = s.pending := rfl
@[simp] theorem State.dueReset_pending (s : State) : s.dueReset.pending = s.pending := rfl
@[simp] theorem State.nextConfirming_pending (s : State) (i : Nat) : (s.nextConfirming i).pending = s.pending := rfl
@[simp] theorem State.enterRecovery_pending (s : State) (r : Nat) : (s.enterRecovery r).pending = s.pending := rfl
@[simp] theorem State.loadFirmware_pending (s : State) : s.loadFirmware.pending = s.pending := rfl

@[simp] theorem State.countAttempt_pending (s : State) (i : Nat) : (s.countAttempt i).pending = s.pending := by
  unfold State.countAttempt
  dsimp only
  split
  · rfl
  · split <;> rfl

@[simp] theorem State.chooseSlot_pending (s : State) (i : Nat) : (s.chooseSlot i).2.pending = s.pending := by
  unfold State.chooseSlot
  dsimp only
  split
  · simp
  · split <;> simp

@[simp] theorem State.chooseSlots_pending (s : State) (l : List Nat) : (s.chooseSlots l).2.pending = s.pending := by
  induction l generalizing s with
  | nil => rfl
  | cons i l ih =>
    have one := s.chooseSlot_pending i
    unfold State.chooseSlots
    split
    · next t h => rw [ih, ← one, h]
    · next t h => rw [← one, h]

@[simp] theorem State.checkSettings_pending (s : State) (i : Nat) : (s.checkSettings i).pending = s.pending := by
  unfold State.checkSettings
  dsimp only
  split
  · rfl
  · split <;> rfl

@[simp] theorem State.startWindow_pending (s : State) : s.startWindow.pending = s.pending := by
  unfold State.startWindow
  split <;> rfl

@[simp] theorem State.bootRom_pending (s : State) (selftest : Bool) : (s.bootRom selftest).pending = s.pending := by
  unfold State.bootRom
  dsimp only
  split
  · rfl
  split
  · rfl
  split
  · rfl
  split
  · rfl
  split
  · next t h => exact (congrArg (·.2.pending) h).symm.trans (State.chooseSlot_pending _ 1)
  · next t h => exact (congrArg (·.2.pending) h).symm.trans (State.chooseSlot_pending _ 1)

@[simp] theorem State.enterFw_pending (s : State) : s.enterFw.pending = s.pending := by
  unfold State.enterFw
  split
  · rfl
  have erased : (if s.flash.eraseMarker then s.eraseAll else s).pending = s.pending := by
    split
    · exact s.eraseAll_pending
    · rfl
  dsimp only
  split
  · next t h => exact (congrArg (·.2.pending) h).symm.trans ((State.chooseSlots_pending _ _).trans erased)
  · next t h =>
    have chosen : t.pending = s.pending := (congrArg (·.2.pending) h).symm.trans ((State.chooseSlots_pending _ _).trans erased)
    simp [chosen]

@[simp] theorem State.storeCheck_pending (s : State) : s.storeCheck.pending = s.pending := by
  unfold State.storeCheck
  split
  · rfl
  · dsimp only
    split <;> rfl

@[simp] theorem State.doFwStage_pending (s : State) (h : CmdHdr) (source bytes component : Nat) :
    (s.doFwStage h source bytes component).pending = s.pending := by
  unfold State.doFwStage
  dsimp only
  repeat' split
  all_goals rfl

@[simp] theorem State.activateStaged_pending (s : State) (h : CmdHdr) : (s.activateStaged h).pending = s.pending := by
  unfold State.activateStaged
  dsimp only
  repeat' split
  all_goals rfl

@[simp] theorem State.activateRecovery_pending (s : State) (h : CmdHdr) : (s.activateRecovery h).pending = s.pending := by
  unfold State.activateRecovery
  dsimp only
  repeat' split
  · rfl
  · rfl
  · rfl
  · exact foldl_pending (f := fun (s : State) (w : Nat × Bool) => s.select w.1 w.2 true) (fun _ _ => rfl) _ s

@[simp] theorem State.doFwActivate_pending (s : State) (h : CmdHdr) : (s.doFwActivate h).pending = s.pending := by
  unfold State.doFwActivate
  split <;> simp

@[simp] theorem State.doFwRecovery_pending (s : State) (h : CmdHdr) : (s.doFwRecovery h).pending = s.pending := rfl

@[simp] theorem State.pauseTick_pending (s : State) : s.pauseTick.pending = s.pending := by
  unfold State.pauseTick
  dsimp only
  repeat' split
  all_goals rfl

@[simp] theorem State.swapEnd_pending (s : State) : s.swapEnd.pending = s.pending := by
  unfold State.swapEnd
  split
  · rfl
  split
  · rfl
  · have window (t : State) : (if t.fw.reverting then t else t.startWindow).pending = t.pending := by
      split
      · rfl
      · exact t.startWindow_pending
    exact (window _).trans (State.checkSettings_pending _ _)

@[simp] theorem State.fwConfirm_pending (s : State) : s.fwConfirm.pending = s.pending := by
  unfold State.fwConfirm
  dsimp only
  repeat' split
  all_goals rfl

@[simp] theorem State.windowOver_pending (s : State) : s.windowOver.pending = s.pending := by
  unfold State.windowOver
  split
  · rfl
  · dsimp only
    split
    · simp
    split <;> simp

@[simp] theorem State.fwSelect_pending (s : State) (v : Nat) : (s.fwSelect v).pending = s.pending := by
  unfold State.fwSelect
  with_reducible rfl

/-! ### Commands of the mailboxes -/

theorem State.command_pending {s : State} {k : CmdHdr → State → State} (hk : ∀ h t, (k h t).pending = t.pending)
    (h : CmdHdr) (opcode : Nat) : (s.command h opcode k).pending = s.pending := by
  unfold State.command
  split
  · rfl
  · exact hk _ _

@[simp] theorem State.cmdEffect_pending (s : State) (h : CmdHdr) (b : List Byte) : (s.cmdEffect h b).pending = s.pending := by
  unfold State.cmdEffect
  split
  · exact s.doIdentify_pending _ _
  · exact s.doConfigRead_pending _ _ _
  · exact s.doConfigWrite_pending _ _ _ _
  · exact s.doFwStage_pending _ _ _ _
  · exact s.doFwActivate_pending _
  · exact s.doFwRecovery_pending _
  · with_reducible rfl

@[simp] theorem State.commandTake_pending (s : State) : s.commandTake.pending = s.pending := by
  unfold State.commandTake
  split
  · rfl
  split
  · rfl
  · dsimp only
    split
    · rfl
    · exact State.cmdEffect_pending _ _ _

/-! ### Security -/

@[simp] theorem State.answer_pending (s : State) (l : List Byte) : (s.answer l).pending = s.pending := rfl
@[simp] theorem State.spdmError_pending (s : State) (code : Byte) : (s.spdmError code).pending = s.pending := rfl
@[simp] theorem State.freeBytes_pending (s : State) (n : Nat) : (s.freeBytes n).2.pending = s.pending := rfl
@[simp] theorem State.eraseNonce_pending (s : State) : s.eraseNonce.pending = s.pending := rfl

theorem State.spdm_pending {k : State → State} (hk : ∀ t, (k t).pending = t.pending) (s : State) :
    (s.spdm k).pending = s.pending := by
  unfold State.spdm
  split
  · exact hk s
  · rfl

@[simp] theorem State.signedAnswer_pending (s : State) (nonce body : List Byte) : (s.signedAnswer nonce body).pending = s.pending := by
  unfold State.signedAnswer
  split <;> rfl

@[simp] theorem State.getMeasurements_pending (s : State) (nonce : List Byte) (index : Nat) :
    (s.getMeasurements nonce index).pending = s.pending := by
  unfold State.getMeasurements
  dsimp only
  repeat' split
  all_goals simp

@[simp] theorem State.nonceExpiry_pending (s : State) : s.nonceExpiry.pending = s.pending := by
  unfold State.nonceExpiry
  split <;> with_reducible rfl

@[simp] theorem State.eraseWeights_pending (s : State) (sig : List Byte) : (s.eraseWeights sig).pending = s.pending := by
  unfold State.eraseWeights
  split
  · rfl
  · next n _ =>
    extract_lets
    split
    · exact State.spdmError_pending _ _
    · have answered (u : State) : (if u.flash.eraseMarker then u.spdmError 5 else u.answer []).pending = u.pending := by
        split <;> rfl
      rw [State.warmReset_pending, answered, State.eraseAll_pending]

@[simp] theorem State.jtagUnlock_pending (s : State) (token : List Byte) : (s.jtagUnlock token).pending = s.pending := by
  unfold State.jtagUnlock
  split
  · rfl
  · dsimp only
    split <;> rfl

/-! ### Register accesses and ticks -/

@[simp] theorem State.hostReg_pending (s : State) (off v : Nat) : (s.hostReg off v).pending = s.pending := by
  unfold State.hostReg
  repeat' split
  all_goals rfl

@[simp] theorem State.barWrite_pending (s : State) (off size : Nat) (l : List Byte) : (s.barWrite off size l).pending = s.pending := by
  unfold State.barWrite
  repeat' split
  · rfl
  · rfl
  · exact s.hostReg_pending _ _
  · rfl

@[simp] theorem State.lowHalfRead_pending (s : State) (off : Nat) : (s.lowHalfRead off).pending = s.pending := by
  unfold State.lowHalfRead
  split <;> rfl

@[simp] theorem State.fwTick_pending (s : State) : s.fwTick.pending = s.pending := by
  unfold State.fwTick
  dsimp only
  repeat' split
  all_goals rfl

@[simp] theorem State.frameTick_pending (s : State) : s.frameTick.pending = s.pending := by
  unfold State.frameTick
  extract_lets held
  split
  · rfl
  · exact State.fwTick_pending _

@[simp] theorem State.activateDone_pending (s : State) (us : Nat) : (s.activateDone us).pending = s.pending := by
  unfold State.activateDone
  dsimp only
  repeat' split
  all_goals rfl

@[simp] theorem State.resumeTick_pending (s : State) : s.resumeTick.pending = s.pending := by
  unfold State.resumeTick
  dsimp only
  split
  · rfl
  · simp

/-! ### Every command -/

/-- The outcome is a next state, with the queue as `s` has it. -/
def KeepsQueue (s : State) (o : Host.Outcome State Fault Refusal) : Prop := ∃ t, o = .next t ∧ t.pending = s.pending

theorem keepsQueue_next {s t : State} (h : t.pending = s.pending) : KeepsQueue s (.next t) := ⟨t, rfl, h⟩

/-- A host access to BAR0, whether or not the module runs. -/
theorem keepsQueue_hostWrite (f : Dev → Dev) (s : State) : KeepsQueue s (hostWrite f s) := by
  cases h : s.running with
  | true => exact ⟨_, hostWrite_running f h, rfl⟩
  | false => exact ⟨s, hostWrite_stopped f h, rfl⟩

theorem ite_pending {s t u : State} {p : Prop} [Decidable p] (ht : t.pending = s.pending) (hu : u.pending = s.pending) :
    (if p then t else u).pending = s.pending := by
  split
  · exact ht
  · exact hu

/-- Whatever the command, `exec` answers a next state with the queue as it was. The first group of commands acts on the device
alone, the second are host accesses to BAR0, and each of the others acts on firmware, security or flash too. -/
theorem exec_keepsQueue (s : State) (c : Instr) : KeepsQueue s (exec c s) := by
  cases c with
  | ratioWindowEnd | planeForward | planeTransposed | planeProgram | stepUnit | correctionPass | operationTailEnd | planeSave
  | planeResume | programRoundStart | programRoundEnd | reAttach | enduranceWindowStart | auditRun | confirmationFiring
  | wideProduct | wideReduction | chunkPass | tileDrain | adapterTerm | wideSave | wideResume | attentionForward
  | attentionBackward | pageArrival | attentionSave | quarantineEnd | walkComplete | faultResume | faultFail | faultTimeout
  | invalidationComplete | dmaCopy | dmaFill | checkUnitAcquire | transferUnit | hostAccess | dmaSave | arbiterGrant
  | burstLimitExpiry | requestDrop | hello | resetWarm | spaceSet | map | unmap | calibrate | referenceSet | fabricForm
  | fabricCut | editionSwitch | editionRelease | graphLoad | graphRun | graphCancel | graphUnload | requestAdmit
  | requestRetire | retireEffect | adapterLoad | adapterUnload | nop | earlyLinkRequest | taskIssue | taskComplete
  | pipTaskStart | pipCoreExit | pipException | pipQuantumEnd | graphComplete | graphOverrun | frameLimit | stepCompose
  | runStart | handoffReceive | sampleAndVerify | draft | token | rollback | tierWindowEnd | passPendingDecade
  | passPendingTrackPeriod | passPendingFinePeriod | passStart | calibrationStep | passMeasurementEnd | portTraining
  | portRetrain | linkHello | planCheckTimeout | planReport | form | flitReceive | linkFailure | packetReceive | e2eAck
  | e2eReplay | retryAfter | lost | syncExchange | deviceSilentCut | allReduce | reduceScatter | allGather | broadcast | send
  | receive | relay | relayUnit | collectiveTimeout | abort | digestSlice | digestReport | expel | deviceError
  | cperRingWrite | sequenceEntryDue | conversionComplete | openWireTest | urgentDone | sensorSample | governorPeriod
  | domainSwitchOff | domainOn | getTelemetry | getCper | setBoardLimit | attentionResume | dmaResume =>
    exact keepsQueue_next rfl
  | plnTileSelect | invalidateAll | invalidateSpace | invalidateRange | invalidateKvSpace | invalidateKvAll | mmuFaultRead
  | bar2Access | arbSelect | arbClearAll | arbClearSelected | doorbellWrite | mbxCqHead | mbxCtrl | grfFrameRequest
  | calTileSelect | lnkPeerSelect | evrRestart | evrCperHead | evrCperCtrl | crcFeedB | crcFeedH | crcFeedW | crcRestart
  | crcValueLo | crcValueHi | hubSecCounterSelect | srvRequestSelect | urgentConversion | testDac | pwrOff =>
    exact keepsQueue_hostWrite _ s
  | registerWrite => exact keepsQueue_next (s.barWrite_pending _ _ _)
  | frameTick => exact keepsQueue_next s.frameTick_pending
  | commandTake => exact keepsQueue_next s.commandTake_pending
  | identify h buffer => exact keepsQueue_next (State.command_pending (fun h t => t.doIdentify_pending h buffer) h _)
  | configRead h buffer bytes =>
    exact keepsQueue_next (State.command_pending (fun h t => t.doConfigRead_pending h buffer bytes) h _)
  | configWrite h source bytes persist =>
    exact keepsQueue_next (State.command_pending (fun h t => t.doConfigWrite_pending h source bytes persist) h _)
  | warmReset => exact keepsQueue_next (ite_pending s.warmReset_pending rfl)
  | fwStage h source bytes component =>
    exact keepsQueue_next (State.command_pending (fun h t => t.doFwStage_pending h source bytes component) h _)
  | fwActivate h => exact keepsQueue_next (State.command_pending (fun h t => t.doFwActivate_pending h) h _)
  | fwRecovery h => exact keepsQueue_next (State.command_pending (fun h t => t.doFwRecovery_pending h) h _)
  | bootRom => exact keepsQueue_next (s.bootRom_pending _)
  | enterFw => exact keepsQueue_next s.enterFw_pending
  | storeCheck => exact keepsQueue_next s.storeCheck_pending
  | pauseTick => exact keepsQueue_next s.pauseTick_pending
  | swapEnd => exact keepsQueue_next s.swapEnd_pending
  | resumeTick => exact keepsQueue_next s.resumeTick_pending
  | fwConfirm => exact keepsQueue_next s.fwConfirm_pending
  | confirmationWindowEnd => exact keepsQueue_next s.windowOver_pending
  | getVersion | getCapabilities | negotiateAlgorithms | getDigests | getCertificate =>
    exact keepsQueue_next (State.spdm_pending (fun t => t.answer_pending _) s)
  | challenge => exact keepsQueue_next (State.spdm_pending (fun t => t.signedAnswer_pending _ _) s)
  | getMeasurements => exact keepsQueue_next (State.spdm_pending (fun t => t.getMeasurements_pending _ _) s)
  | eraseNonce => exact keepsQueue_next (State.spdm_pending State.eraseNonce_pending s)
  | eraseNonceExpiry => exact keepsQueue_next s.nonceExpiry_pending
  | eraseWeights => exact keepsQueue_next (State.spdm_pending (fun t => t.eraseWeights_pending _) s)
  | jtagUnlock => exact keepsQueue_next (s.jtagUnlock_pending _)
  | hubFwSelect => exact keepsQueue_next (ite_pending (s.fwSelect_pending _) rfl)
  | thermalShutdown => exact keepsQueue_next (s.thermalShutdown_pending _ _)
  | telemetryRefresh => exact keepsQueue_next (ite_pending rfl rfl)
  | powerUp => exact keepsQueue_next s.powerUp_pending
  | powerFail => exact keepsQueue_next (ite_pending s.powerLost_pending rfl)
  | perstAssert | moduleRstAssert => exact keepsQueue_next (s.assertReset_pending _)
  | resetDeassert => exact keepsQueue_next (s.releaseReset_pending _ _)
  | shutdownLatchClear => exact keepsQueue_next s.latchClear_pending
  | getShutdown | getIdentity => exact keepsQueue_next rfl
  | lowHalfRead => exact keepsQueue_next (s.lowHalfRead_pending _)

end Sys2Proof.Machine

/-- Settles O2: `exec` answers a next state for every command and never touches the queue, whose rest a step leaves waiting. -/
theorem everyStepRuns : Obligations.EveryStepRuns := by
  unfold Obligations.EveryStepRuns
  intro s c rest h
  rw [Sys2Proof.Machine.step_cons h]
  exact Sys2Proof.Machine.exec_keepsQueue _ c

end

section
/-! PROOFS. The state after reset (R10, R266, R270, R393, R438). -/

namespace Sys2Proof.Machine

/-! ## The state after reset -/

/-- Every counter of R438 is 0 at reset, as is one that there is not. -/
theorem reset_counter (k : Nat) : State.reset.counter k = 0 :=
  List.getD_eq_getElem?_getD.trans (List.getElem?_getD_replicate_default_eq _ 11 k)

theorem reset_flashWf : Safety.FlashWf State.reset :=
  ⟨rfl, fun k => by rw [reset_counter k]; exact Nat.zero_le _, Nat.zero_le _, rfl, rfl, rfl⟩

theorem reset_approvedWf : Safety.ApprovedWf State.reset := fun h => absurd h Bool.false_ne_true

/-- No register is listed at reset, so each reads its reset value (R10). -/
theorem reset_reg (off : Nat) : State.reset.dev.reg off = (resetOf off).toNat := rfl

theorem reset_memGet (a : Nat) : memGet State.reset.dev.mem a = 0 := rfl

/-- The seventeen mailboxes are as new (R270). -/
theorem reset_box {m : Nat} (h : m < 17) : State.reset.dev.box m = {} := by
  revert m; decide

/-- No slot holds a graph. -/
theorem reset_slot {i : Nat} (h : i < 16) : (State.reset.dev.slot i).state = .empty := by
  revert i; decide

/-- A field at reset is the field of the register's reset value (R10). -/
theorem reset_fld (off hi lo : Nat) : State.reset.dev.fld off hi lo = bits (resetOf off).toNat hi lo := rfl

end Sys2Proof.Machine

/-- Settles O58: the reset state lists nothing, so each clause is read off the reset values. -/
theorem resetState : Obligations.ResetState := by
  unfold Obligations.ResetState
  open Sys2Proof.Machine in
  exact ⟨reset_flashWf, reset_approvedWf, rfl, rfl, rfl, rfl, rfl, reset_reg, reset_wf.1, reset_wf.2, reset_memGet, reset_counter,
    fun _ => reset_box, fun _ => reset_slot, by decide +kernel, by decide +kernel, by decide +kernel, by decide +kernel,
    by decide +kernel, by decide +kernel⟩

end

section
/-! PROOFS. Why the clause on class F fields of the register accesses fails (R10). -/

namespace Sys2Proof.Machine

/-! ## A frame-latched write that a read does not return -/

/-- A read of a class F field finds the word written in the hub cycle of a due tick, while there is one, before any other
(R10). -/
theorem Dev.shadowWord_of_late {d : Dev} {off : Nat} {w : Word} (h : look d.late off = some w) : d.shadowWord off = w.toNat := by
  simp [Dev.shadowWord, h]

/-- Away from a due tick, a class F write leaves the words that wait for the tick after it. -/
theorem Dev.setShadow_late {d : Dev} (off hi lo v : Nat) (h : d.inTick = false) : (d.setShadow off hi lo v).late = d.late := by
  simp [Dev.setShadow, h]

/-- Away from a due tick, no class F write to a register changes what a read of it returns while an earlier write of it waits
for the tick after the one that was due: the later of the two writes is hidden by the earlier. -/
theorem Dev.shadowWord_setShadow_of_late {d : Dev} {off : Nat} {w : Word} (hi lo v : Nat) (due : d.inTick = false)
    (h : look d.late off = some w) : (d.setShadow off hi lo v).shadowWord off = d.shadowWord off := by
  rw [Dev.shadowWord_of_late h, Dev.shadowWord_of_late ((congrArg (look · off) (d.setShadow_late off hi lo v due)).trans h)]

/-- A pause tick has fallen, and a whole frame of 50 µs has gone by since. The host writes 30 to PWR_PERIOD, and the pause
begins. -/
def pauseOverdue : State :=
  { State.reset with
    dev := { State.reset.dev with now := 50000, grf := { State.reset.dev.grf with tick := 5, pauseAt := some 5 } }
    pending := [.registerWrite Off.pwrPeriod 4 (le 30 4), .pauseTick] }

/-- The device once `pauseOverdue` has carried out its two commands. -/
def pausedDev : Dev :=
  match core.run 2 pauseOverdue with
  | .next t => t.dev
  | _ => {}

/-- PERIOD of PWR_PERIOD. -/
def periodField : Field := ⟨9, 0, .f, 0x14⟩

/-- The write of 30 came in the hub cycle of a due tick, and no tick is due during the pause (R10, R429). -/
theorem pausedDev_late : pausedDev.inTick = false ∧ look pausedDev.late Off.pwrPeriod = some 30 := by decide +kernel

/-- The write of 40 to PWR_PERIOD in the pause is a class F write and nothing else. -/
theorem pausedDev_regWrite : pausedDev.regWrite Off.pwrPeriod 40 = pausedDev.setShadow Off.pwrPeriod 9 0 40 := by
  decide +kernel

/-- A read after the write of 40 still returns 30. -/
theorem pausedDev_fieldNow : (pausedDev.regWrite Off.pwrPeriod 40).fieldNow Off.pwrPeriod periodField = 30 := by
  obtain ⟨due, late⟩ := pausedDev_late
  have word : (pausedDev.setShadow Off.pwrPeriod 9 0 40).shadowWord Off.pwrPeriod = 30 :=
    (Dev.shadowWord_setShadow_of_late 9 0 40 due late).trans (Dev.shadowWord_of_late late)
  rw [pausedDev_regWrite]
  exact congrArg (bits · 9 0) word

end Sys2Proof.Machine

/-- Refutes O53: PWR_PERIOD is written with 30 in the hub cycle of a due tick, a service pause begins, and PWR_PERIOD is written
with 40. The field takes 40, and yet a read returns 30: the first write waits for the tick after the due one and hides the
second. -/
theorem not_registerAccesses : ¬ Obligations.RegisterAccesses := by
  unfold Obligations.RegisterAccesses
  open Sys2Proof.Machine in
  rintro ⟨-, -, writes, -⟩
  obtain ⟨-, -, carriedOut⟩ := writes pausedDev Off.pwrPeriod 40 (by decide)
  obtain ⟨-, -, frameLatched, -⟩ := carriedOut (by decide) (by decide +kernel) periodField (by decide)
  obtain ⟨-, taken⟩ := frameLatched rfl
  exact absurd (pausedDev_fieldNow.symm.trans (taken (by decide))) (by decide)

end

section
/-! PROOFS. Limit ratios: what the end of a window writes to each ratio's register and status bit, and what it leaves alone
(R28-R32, R361). -/

namespace Sys2Proof.Machine

/-! ## What judging ratios leaves alone -/

/-- Between `d` and `d'` ratios were judged: of the HUB_ registers at most `offs` differ, and of HUB_RATIO_STATUS at most the bits
`bs`. Device memory, the links and all that a window counts stand. -/
structure Dev.RatioFrame (offs bs : List Nat) (d d' : Dev) : Prop where
  mem : d'.mem = d.mem
  lnk : d'.lnk = d.lnk
  hub : d'.hub = { d.hub with restartWorst := d'.hub.restartWorst }
  reg : ∀ o, o / 0x10000 = 0 → o ≠ Off.hubRatioStatus → o ∉ offs → d'.reg o = d.reg o
  bit : ∀ b, b ∉ bs → d'.bitAt Off.hubRatioStatus b = d.bitAt Off.hubRatioStatus b

theorem Dev.RatioFrame.refl (offs bs : List Nat) (d : Dev) : d.RatioFrame offs bs d :=
  ⟨rfl, rfl, rfl, fun _ _ _ _ => rfl, fun _ _ => rfl⟩

theorem Dev.RatioFrame.trans {a b c : Dev} {offs offs' bs bs' : List Nat} (h : a.RatioFrame offs bs b)
    (k : b.RatioFrame offs' bs' c) : a.RatioFrame (offs ++ offs') (bs ++ bs') c where
  mem := k.mem.trans h.mem
  lnk := k.lnk.trans h.lnk
  hub := k.hub.trans (congrArg (fun x : Hub => { x with restartWorst := c.hub.restartWorst }) h.hub)
  reg o block status out := by
    rw [List.mem_append, not_or] at out
    exact (k.reg o block status out.2).trans (h.reg o block status out.1)
  bit b out := by
    rw [List.mem_append, not_or] at out
    exact (k.bit b out.2).trans (h.bit b out.1)

theorem Dev.RatioFrame.ite {a b c : Dev} {offs bs : List Nat} (p : Prop) [Decidable p] (h : a.RatioFrame offs bs b)
    (k : a.RatioFrame offs bs c) : a.RatioFrame offs bs (if p then b else c) := by
  split
  · exact h
  · exact k

/-- The event of a status bit may write the recorder's own registers, which lie in another block. -/
theorem Dev.reg_flagEvent_of_hub (d : Dev) (off b : Nat) (e : EventRec) {o : Nat} (block : o / 0x10000 = 0) :
    (d.flagEvent off b e).reg o = (d.setBit off b).reg o :=
  (Dev.kept_event _ _ e).reg o (by omega) (by omega) (by omega)

theorem Dev.bitAt_flagEvent_ratioStatus (d : Dev) {b : Nat} (e : EventRec) (h : b < 32) :
    (d.flagEvent Off.hubRatioStatus b e).bitAt Off.hubRatioStatus b = true := by
  rw [Dev.bitAt, d.reg_flagEvent_of_hub _ _ _ rfl]
  exact d.bitAt_setBit_same _ h

theorem Dev.ratioFrame_flagEvent (d : Dev) {b : Nat} (e : EventRec) (h : b < 32) :
    d.RatioFrame [] [b] (d.flagEvent Off.hubRatioStatus b e) where
  mem := d.flagEvent_mem _ _ e
  lnk := d.flagEvent_lnk _ _ e
  hub := by rw [d.flagEvent_hub]
  reg o block status _ := by rw [d.reg_flagEvent_of_hub _ _ e block, d.reg_setBit_other _ status]
  bit c out := by
    rw [Dev.bitAt, d.reg_flagEvent_of_hub _ _ e rfl]
    exact d.bitAt_setBit_other _ h (by simpa using out)

/-! ## One ratio -/

/-- `off` is a ratio's register, and `i` its bit in HUB_RATIO_STATUS (R32). -/
structure IsRatio (off i : Nat) : Prop where
  block : off / 0x10000 = 0
  ne_status : off ≠ Off.hubRatioStatus
  bit_lt : i < 32

theorem isRatio_kv : IsRatio Off.hubRatioKv 0 := by constructor <;> decide

theorem isRatio_latency : IsRatio Off.hubRatioLatency 1 := by constructor <;> decide

theorem isRatio_link {p : Nat} (h : p < 6) : IsRatio (Off.hubRatioLink + 4 * p) (2 + p) := by
  have link : Off.hubRatioLink = 0x610 := rfl
  have status : Off.hubRatioStatus = 0x628 := rfl
  constructor <;> omega

theorem ratioCode_le (num den : Nat) : ratioCode num den ≤ 0xFFFF := Nat.min_le_right _ _

/-- WORST of a ratio once a window has updated it with `v` (R32). -/
def Dev.worstWith (d : Dev) (off i : Nat) (low : Bool) (v : Nat) : Nat :=
  if d.hub.restartWorst.getD i true then v else if low then min (d.fld off 31 16) v else max (d.fld off 31 16) v

theorem Dev.worstWith_le (d : Dev) (off i : Nat) (low : Bool) {v : Nat} (hv : v ≤ 0xFFFF) :
    d.worstWith off i low v ≤ 0xFFFF := by
  have was : d.fld off 31 16 < 2 ^ 16 := bits_lt _ _ _
  unfold Dev.worstWith
  split
  · exact hv
  · split <;> omega

theorem Dev.reg_updateRatio_same (d : Dev) (off i : Nat) (low : Bool) {v : Nat} (hv : v ≤ 0xFFFF) :
    (d.updateRatio off i low v).reg off = d.worstWith off i low v * 2 ^ 16 + v := by
  have worst := d.worstWith_le off i low hv
  have fits : d.worstWith off i low v * 2 ^ 16 + v < 2 ^ 32 := by omega
  exact (d.reg_setReg_same off _).trans (Nat.mod_eq_of_lt fits)

theorem Dev.reg_updateRatio_other (d : Dev) {off o : Nat} (i : Nat) (low : Bool) (v : Nat) (h : o ≠ off) :
    (d.updateRatio off i low v).reg o = d.reg o := d.reg_setReg_other _ h

/-- LAST is the window's value. -/
theorem Dev.last_updateRatio (d : Dev) (off i : Nat) (low : Bool) {v : Nat} (hv : v ≤ 0xFFFF) :
    (d.updateRatio off i low v).fld off 15 0 = v := by
  rw [Dev.fld, d.reg_updateRatio_same off i low hv, bits]
  omega

theorem Dev.worst_updateRatio (d : Dev) (off i : Nat) (low : Bool) {v : Nat} (hv : v ≤ 0xFFFF) :
    (d.updateRatio off i low v).fld off 31 16 = d.worstWith off i low v := by
  have worst := d.worstWith_le off i low hv
  rw [Dev.fld, d.reg_updateRatio_same off i low hv, bits]
  omega

theorem Dev.ratioFrame_updateRatio (d : Dev) {off i : Nat} (low : Bool) (v : Nat) (h : IsRatio off i) :
    d.RatioFrame [off] [] (d.updateRatio off i low v) where
  mem := rfl
  lnk := rfl
  hub := rfl
  reg _ _ _ out := d.reg_updateRatio_other i low v (by simpa using out)
  bit b _ := congrArg (bit · b) (d.reg_updateRatio_other i low v h.ne_status.symm)

/-- The status bit of ratio `i` is set where its value lies `beyond` its factor (R30). -/
def Dev.judgeRatio (d : Dev) (i : Nat) (beyond : Prop) [Decidable beyond] (e : EventRec) : Dev :=
  if beyond then d.flagEvent Off.hubRatioStatus i e else d

theorem Dev.ratioFrame_judgeRatio (d : Dev) {i : Nat} (beyond : Prop) [Decidable beyond] (e : EventRec) (h : i < 32) :
    d.RatioFrame [] [i] (d.judgeRatio i beyond e) :=
  .ite _ (d.ratioFrame_flagEvent e h) (.refl _ _ d)

theorem Dev.bitAt_judgeRatio (d : Dev) {i : Nat} (beyond : Prop) [Decidable beyond] (e : EventRec) (h : i < 32) :
    (d.judgeRatio i beyond e).bitAt Off.hubRatioStatus i = (d.bitAt Off.hubRatioStatus i || decide beyond) := by
  unfold Dev.judgeRatio
  split
  · next out => rw [d.bitAt_flagEvent_ratioStatus e h, decide_eq_true out, Bool.or_true]
  · next within => rw [decide_eq_false within, Bool.or_false]

/-- What a window does to a ratio's register and status bit: nothing where the window was `idle`, and else LAST takes the value
`v`, and a value `beyond` the factor sets the status bit. -/
structure Dev.RatioOutcome (off i v : Nat) (idle beyond : Prop) [Decidable beyond] (d d' : Dev) : Prop where
  kept : idle → d'.reg off = d.reg off
  last : ¬ idle → d'.fld off 15 0 = v
  status : ¬ idle → d'.bitAt Off.hubRatioStatus i = (d.bitAt Off.hubRatioStatus i || decide beyond)

theorem Dev.RatioOutcome.of_idle {off i v : Nat} {idle beyond : Prop} [Decidable beyond] (d : Dev) (h : idle) :
    d.RatioOutcome off i v idle beyond d :=
  ⟨fun _ => rfl, fun active => absurd h active, fun active => absurd h active⟩

/-- A ratio is updated, a clip may be noted in registers and status bits of its own, and the value is judged. -/
theorem Dev.RatioOutcome.of_judged {d x : Dev} {off i v : Nat} {low : Bool} {idle beyond : Prop} [Decidable beyond]
    {offs bs : List Nat} (e : EventRec) (h : IsRatio off i) (active : ¬ idle) (hv : v ≤ 0xFFFF)
    (clip : (d.updateRatio off i low v).RatioFrame offs bs x) (ho : off ∉ offs) (hi : i ∉ bs) :
    d.RatioOutcome off i v idle beyond (x.judgeRatio i beyond e) := by
  have judged := x.ratioFrame_judgeRatio beyond e h.bit_lt
  refine ⟨fun idles => absurd idles active, fun _ => ?_, fun _ => ?_⟩
  · rw [Dev.fld, judged.reg off h.block h.ne_status List.not_mem_nil, clip.reg off h.block h.ne_status ho]
    exact d.last_updateRatio off i low hv
  · rw [x.bitAt_judgeRatio beyond e h.bit_lt, clip.bit i hi,
      (d.ratioFrame_updateRatio low v h).bit i List.not_mem_nil]

/-- A ratio's outcome stands where what goes before it and after it leaves its register and its status bit alone. -/
theorem Dev.RatioOutcome.of_frames {d₀ d d' d₁ : Dev} {off i v : Nat} {idle beyond : Prop} [Decidable beyond]
    {offs bs offs' bs' : List Nat} (h : IsRatio off i) (before : d₀.RatioFrame offs bs d)
    (outcome : d.RatioOutcome off i v idle beyond d') (after : d'.RatioFrame offs' bs' d₁) (ho : off ∉ offs) (hi : i ∉ bs)
    (ho' : off ∉ offs') (hi' : i ∉ bs') : d₀.RatioOutcome off i v idle beyond d₁ where
  kept idles := by
    rw [after.reg off h.block h.ne_status ho', outcome.kept idles, before.reg off h.block h.ne_status ho]
  last active := by
    rw [Dev.fld, after.reg off h.block h.ne_status ho']
    exact outcome.last active
  status active := by rw [after.bit i hi', outcome.status active, before.bit i hi]

/-! ## The KV ratio -/

theorem Dev.kvRatio_idle {d : Dev} {m : RatioMeas} (h : m.kvTime = 0 ∨ d.hub.winKv = 0) : d.kvRatio m = d := if_pos h

theorem Dev.kvRatio_active {d : Dev} {m : RatioMeas} (h : ¬ (m.kvTime = 0 ∨ d.hub.winKv = 0)) :
    d.kvRatio m =
      (d.updateRatio Off.hubRatioKv 0 true (ratioCode d.hub.winKv (8200 * m.kvTime))).judgeRatio 0
        (100 * d.hub.winKv < 90 * (8200 * m.kvTime)) { arg1 := ratioCode d.hub.winKv (8200 * m.kvTime) } := if_neg h

theorem Dev.ratioFrame_kvRatio (d : Dev) (m : RatioMeas) : d.RatioFrame [Off.hubRatioKv] [0] (d.kvRatio m) := by
  by_cases h : m.kvTime = 0 ∨ d.hub.winKv = 0
  · rw [Dev.kvRatio_idle h]
    exact .refl _ _ d
  · rw [Dev.kvRatio_active h]
    exact (d.ratioFrame_updateRatio true _ isRatio_kv).trans (Dev.ratioFrame_judgeRatio _ _ _ (by decide))

theorem Dev.kvRatio_outcome (d : Dev) (m : RatioMeas) :
    d.RatioOutcome Off.hubRatioKv 0 (ratioCode d.hub.winKv (8200 * m.kvTime)) (m.kvTime = 0 ∨ d.hub.winKv = 0)
      (100 * d.hub.winKv < 90 * (8200 * m.kvTime)) (d.kvRatio m) := by
  by_cases h : m.kvTime = 0 ∨ d.hub.winKv = 0
  · rw [Dev.kvRatio_idle h]
    exact .of_idle d h
  · rw [Dev.kvRatio_active h]
    exact .of_judged _ isRatio_kv h (ratioCode_le _ _) (.refl [] [] _) List.not_mem_nil List.not_mem_nil

theorem Dev.kvRatio_worst {d : Dev} {m : RatioMeas} (h : ¬ (m.kvTime = 0 ∨ d.hub.winKv = 0)) :
    (d.kvRatio m).fld Off.hubRatioKv 31 16 =
      d.worstWith Off.hubRatioKv 0 true (ratioCode d.hub.winKv (8200 * m.kvTime)) := by
  rw [Dev.kvRatio_active h, Dev.fld, (Dev.ratioFrame_judgeRatio _ _ _ (by decide)).reg _ rfl (by decide) List.not_mem_nil]
  exact d.worst_updateRatio _ _ _ (ratioCode_le _ _)

/-! ## The latency ratio -/

/-- The latency ratio updated, with a value of 16.0 or more counted as clipped, and not yet judged (R31). -/
def Dev.latencyUpdated (d : Dev) (m : RatioMeas) : Dev :=
  let u := d.updateRatio Off.hubRatioLatency 1 false (ratioCode (131200 * m.latTime) d.hub.bound)
  if 16 * d.hub.bound ≤ 131200 * m.latTime then (u.bump Off.hubRatioClips).setBit Off.hubRatioStatus 8 else u

theorem Dev.latencyRatio_idle {d : Dev} {m : RatioMeas} (h : m.latTime = 0 ∨ d.hub.bound = 0) : d.latencyRatio m = d := if_pos h

theorem Dev.latencyRatio_active {d : Dev} {m : RatioMeas} (h : ¬ (m.latTime = 0 ∨ d.hub.bound = 0)) :
    d.latencyRatio m = (d.latencyUpdated m).judgeRatio 1 (2 * d.hub.bound < 131200 * m.latTime)
      { arg1 := ratioCode (131200 * m.latTime) d.hub.bound } := if_neg h

theorem Dev.ratioFrame_clip (d : Dev) :
    d.RatioFrame [Off.hubRatioClips] [8] ((d.bump Off.hubRatioClips).setBit Off.hubRatioStatus 8) where
  mem := rfl
  lnk := rfl
  hub := rfl
  reg o _ status out := by rw [Dev.reg_setBit_other _ _ status, d.reg_bump_other _ (by simpa using out)]
  bit c out := (Dev.bitAt_setBit_other _ _ (by decide) (by simpa using out)).trans
    (congrArg (bit · c) (d.reg_bump_other _ (by decide)))

theorem Dev.ratioFrame_latencyUpdated (d : Dev) (m : RatioMeas) :
    (d.updateRatio Off.hubRatioLatency 1 false (ratioCode (131200 * m.latTime) d.hub.bound)).RatioFrame [Off.hubRatioClips] [8]
      (d.latencyUpdated m) :=
  .ite _ (Dev.ratioFrame_clip _) (.refl _ _ _)

theorem Dev.ratioFrame_latencyRatio (d : Dev) (m : RatioMeas) :
    d.RatioFrame [Off.hubRatioLatency, Off.hubRatioClips] [8, 1] (d.latencyRatio m) := by
  by_cases h : m.latTime = 0 ∨ d.hub.bound = 0
  · rw [Dev.latencyRatio_idle h]
    exact .refl _ _ d
  · rw [Dev.latencyRatio_active h]
    exact ((d.ratioFrame_updateRatio false _ isRatio_latency).trans (d.ratioFrame_latencyUpdated m)).trans
      (Dev.ratioFrame_judgeRatio _ _ _ (by decide))

theorem Dev.latencyRatio_outcome (d : Dev) (m : RatioMeas) :
    d.RatioOutcome Off.hubRatioLatency 1 (ratioCode (131200 * m.latTime) d.hub.bound) (m.latTime = 0 ∨ d.hub.bound = 0)
      (2 * d.hub.bound < 131200 * m.latTime) (d.latencyRatio m) := by
  by_cases h : m.latTime = 0 ∨ d.hub.bound = 0
  · rw [Dev.latencyRatio_idle h]
    exact .of_idle d h
  · rw [Dev.latencyRatio_active h]
    exact .of_judged _ isRatio_latency h (ratioCode_le _ _) (d.ratioFrame_latencyUpdated m) (by decide) (by decide)

/-- A latency ratio of 16.0 or more is counted and sets LATENCY_CLIPPED (R31). -/
theorem Dev.latencyRatio_clipped {d : Dev} {m : RatioMeas} (h : ¬ (m.latTime = 0 ∨ d.hub.bound = 0))
    (clipped : 16 * d.hub.bound ≤ 131200 * m.latTime) :
    (d.latencyRatio m).bitAt Off.hubRatioStatus 8 = true ∧
      (d.latencyRatio m).reg Off.hubRatioClips = min (d.reg Off.hubRatioClips + 1) 0xFFFFFFFF := by
  have judged := (d.latencyUpdated m).ratioFrame_judgeRatio (i := 1) (2 * d.hub.bound < 131200 * m.latTime)
    { arg1 := ratioCode (131200 * m.latTime) d.hub.bound } (by decide)
  rw [Dev.latencyRatio_active h]
  constructor
  · rw [judged.bit 8 (by decide), Dev.latencyUpdated, if_pos clipped]
    exact Dev.bitAt_setBit_same _ _ (by decide)
  · rw [judged.reg _ rfl (by decide) List.not_mem_nil, Dev.latencyUpdated, if_pos clipped, Dev.reg_setBit_other _ _ (by decide),
      Dev.reg_bump_same, d.reg_updateRatio_other _ _ _ (by decide)]

/-! ## The link ratios -/

/-- Four times the bytes that port `p` sent in the window. -/
def Dev.linkSent (d : Dev) (p : Nat) : Nat := 4 * d.hub.winLink.getD p 0

/-- Four times the bytes that port `p` could have sent: 117.5 in a ns on 8 lanes and 58.75 on 4 (R361). -/
def Dev.linkBound (d : Dev) (m : RatioMeas) (p : Nat) : Nat :=
  (if (d.port p).lanes = 4 then 235 else 470) * m.linkTime.getD p 0

/-- The outcome of port `p`'s ratio, as `d` counted it. -/
def Dev.LinkOutcome (m : RatioMeas) (p : Nat) (d d' : Dev) : Prop :=
  d.RatioOutcome (Off.hubRatioLink + 4 * p) (2 + p) (ratioCode (d.linkSent p) (d.linkBound m p)) (m.linkTime.getD p 0 = 0)
    (100 * d.linkSent p < 94 * d.linkBound m p) d'

theorem Dev.linkRatio_idle {d : Dev} {m : RatioMeas} {p : Nat} (h : m.linkTime.getD p 0 = 0) : d.linkRatio m p = d := if_pos h

theorem Dev.linkRatio_active {d : Dev} {m : RatioMeas} {p : Nat} (h : ¬ m.linkTime.getD p 0 = 0) :
    d.linkRatio m p =
      (d.updateRatio (Off.hubRatioLink + 4 * p) (2 + p) true (ratioCode (d.linkSent p) (d.linkBound m p))).judgeRatio (2 + p)
        (100 * d.linkSent p < 94 * d.linkBound m p)
        { arg0 := p, arg1 := ratioCode (d.linkSent p) (d.linkBound m p) } := if_neg h

theorem Dev.ratioFrame_linkRatio (d : Dev) (m : RatioMeas) {p : Nat} (hp : p < 6) :
    d.RatioFrame [Off.hubRatioLink + 4 * p] [2 + p] (d.linkRatio m p) := by
  by_cases h : m.linkTime.getD p 0 = 0
  · rw [Dev.linkRatio_idle h]
    exact .refl _ _ d
  · rw [Dev.linkRatio_active h]
    exact (d.ratioFrame_updateRatio true _ (isRatio_link hp)).trans (Dev.ratioFrame_judgeRatio _ _ _ (isRatio_link hp).bit_lt)

theorem Dev.linkRatio_outcome (d : Dev) (m : RatioMeas) {p : Nat} (hp : p < 6) : d.LinkOutcome m p (d.linkRatio m p) := by
  unfold Dev.LinkOutcome
  by_cases h : m.linkTime.getD p 0 = 0
  · rw [Dev.linkRatio_idle h]
    exact .of_idle d h
  · rw [Dev.linkRatio_active h]
    exact .of_judged _ (isRatio_link hp) h (ratioCode_le _ _) (.refl [] [] _) List.not_mem_nil List.not_mem_nil

theorem Dev.RatioFrame.linkSent_eq {d d' : Dev} {offs bs : List Nat} (h : d.RatioFrame offs bs d') (p : Nat) :
    d'.linkSent p = d.linkSent p := by rw [Dev.linkSent, h.hub, Dev.linkSent]

theorem Dev.RatioFrame.linkBound_eq {d d' : Dev} {offs bs : List Nat} (h : d.RatioFrame offs bs d') (m : RatioMeas) (p : Nat) :
    d'.linkBound m p = d.linkBound m p := by
  rw [Dev.linkBound, Dev.port, h.lnk, Dev.linkBound, Dev.port]

/-- A port's outcome stands where other ratios are judged before it and after it: they leave what it is measured from. -/
theorem Dev.LinkOutcome.of_frames {m : RatioMeas} {p : Nat} {d₀ d d' d₁ : Dev} {offs bs offs' bs' : List Nat} (hp : p < 6)
    (before : d₀.RatioFrame offs bs d) (outcome : d.LinkOutcome m p d') (after : d'.RatioFrame offs' bs' d₁)
    (ho : Off.hubRatioLink + 4 * p ∉ offs) (hi : 2 + p ∉ bs) (ho' : Off.hubRatioLink + 4 * p ∉ offs') (hi' : 2 + p ∉ bs') :
    d₀.LinkOutcome m p d₁ := by
  unfold Dev.LinkOutcome at outcome ⊢
  rw [before.linkSent_eq, before.linkBound_eq] at outcome
  exact .of_frames (isRatio_link hp) before outcome after ho hi ho' hi'

/-- The ratios of the ports `ps`, one after another. -/
def Dev.linkRatios (d : Dev) (m : RatioMeas) (ps : List Nat) : Dev := ps.foldl (fun d p => d.linkRatio m p) d

theorem Dev.ratioFrame_linkRatios (m : RatioMeas) {ps : List Nat} (hps : ∀ p ∈ ps, p < 6) (d : Dev) :
    d.RatioFrame (ps.map (Off.hubRatioLink + 4 * ·)) (ps.map (2 + ·)) (d.linkRatios m ps) := by
  induction ps generalizing d with
  | nil => exact .refl _ _ d
  | cons p ps ih =>
    obtain ⟨hp, rest⟩ := List.forall_mem_cons.mp hps
    exact (d.ratioFrame_linkRatio m hp).trans (ih rest _)

theorem Dev.linkRatios_outcome (m : RatioMeas) {ps : List Nat} (hps : ∀ p ∈ ps, p < 6) (once : ps.Nodup) {p : Nat} (hp : p ∈ ps)
    (d : Dev) : d.LinkOutcome m p (d.linkRatios m ps) := by
  induction ps generalizing d with
  | nil => exact absurd hp List.not_mem_nil
  | cons q ps ih =>
    obtain ⟨hq, rest⟩ := List.forall_mem_cons.mp hps
    obtain ⟨new, once⟩ := List.nodup_cons.mp once
    rcases List.mem_cons.mp hp with rfl | later
    · exact .of_frames hq (.refl [] [] d) (d.linkRatio_outcome m hq) (Dev.ratioFrame_linkRatios m rest _) List.not_mem_nil
        List.not_mem_nil (by simpa using new) (by simpa using new)
    · have other : p ≠ q := fun same => new (same ▸ later)
      exact .of_frames (rest p later) (d.ratioFrame_linkRatio m hq) (ih rest once later _) (.refl [] [] _)
        (by simpa using other) (by simpa using other) List.not_mem_nil List.not_mem_nil

/-! ## The end of a window -/

theorem Dev.RatioFrame.bound_eq {d d' : Dev} {offs bs : List Nat} (h : d.RatioFrame offs bs d') :
    d'.hub.bound = d.hub.bound := by
  rw [h.hub, Hub.bound, Hub.bound]

/-- The KV, latency and link ratios of a window, in this order. -/
def Dev.judgeRatios (d : Dev) (m : RatioMeas) : Dev := ((d.kvRatio m).latencyRatio m).linkRatios m (List.range 6)

section
variable (d : Dev) (m : RatioMeas)

theorem ports_lt : ∀ p ∈ List.range 6, p < 6 := fun _ => List.mem_range.mp

theorem Dev.ratioFrame_links :
    ((d.kvRatio m).latencyRatio m).RatioFrame ((List.range 6).map (Off.hubRatioLink + 4 * ·)) ((List.range 6).map (2 + ·))
      (d.judgeRatios m) := Dev.ratioFrame_linkRatios m ports_lt _

theorem Dev.ratioFrame_afterKv :
    (d.kvRatio m).RatioFrame
      ([Off.hubRatioLatency, Off.hubRatioClips] ++ (List.range 6).map (Off.hubRatioLink + 4 * ·))
      ([8, 1] ++ (List.range 6).map (2 + ·)) (d.judgeRatios m) :=
  (Dev.ratioFrame_latencyRatio _ m).trans (d.ratioFrame_links m)

theorem Dev.judgeRatios_kv :
    d.RatioOutcome Off.hubRatioKv 0 (ratioCode d.hub.winKv (8200 * m.kvTime)) (m.kvTime = 0 ∨ d.hub.winKv = 0)
      (100 * d.hub.winKv < 90 * (8200 * m.kvTime)) (d.judgeRatios m) :=
  .of_frames isRatio_kv (.refl [] [] d) (d.kvRatio_outcome m) (d.ratioFrame_afterKv m) (by decide) (by decide) (by decide)
    (by decide)

theorem Dev.judgeRatios_latency :
    d.RatioOutcome Off.hubRatioLatency 1 (ratioCode (131200 * m.latTime) d.hub.bound) (m.latTime = 0 ∨ d.hub.bound = 0)
      (2 * d.hub.bound < 131200 * m.latTime) (d.judgeRatios m) := by
  have outcome := (d.kvRatio m).latencyRatio_outcome m
  rw [(d.ratioFrame_kvRatio m).bound_eq] at outcome
  exact .of_frames isRatio_latency (d.ratioFrame_kvRatio m) outcome (d.ratioFrame_links m) (by decide) (by decide) (by decide)
    (by decide)

theorem Dev.judgeRatios_link {p : Nat} (hp : p < 6) : d.LinkOutcome m p (d.judgeRatios m) := by
  have outcome := Dev.linkRatios_outcome m ports_lt List.nodup_range (List.mem_range.mpr hp) ((d.kvRatio m).latencyRatio m)
  have apart : ∀ p < 6, Off.hubRatioLink + 4 * p ∉ [Off.hubRatioKv] ++ [Off.hubRatioLatency, Off.hubRatioClips] ∧
      2 + p ∉ [0] ++ [8, 1] := by decide
  obtain ⟨otherReg, otherBit⟩ := apart p hp
  exact .of_frames hp ((d.ratioFrame_kvRatio m).trans (Dev.ratioFrame_latencyRatio _ m)) outcome (.refl [] [] _) otherReg
    otherBit List.not_mem_nil List.not_mem_nil

theorem Dev.ratioFrame_judgeRatios :
    d.RatioFrame
      ([Off.hubRatioKv] ++ ([Off.hubRatioLatency, Off.hubRatioClips] ++ (List.range 6).map (Off.hubRatioLink + 4 * ·)))
      ([0] ++ ([8, 1] ++ (List.range 6).map (2 + ·))) (d.judgeRatios m) :=
  (d.ratioFrame_kvRatio m).trans (d.ratioFrame_afterKv m)

variable {d m}

theorem Dev.judgeRatios_kvWorst (h : ¬ (m.kvTime = 0 ∨ d.hub.winKv = 0)) :
    (d.judgeRatios m).fld Off.hubRatioKv 31 16 =
      d.worstWith Off.hubRatioKv 0 true (ratioCode d.hub.winKv (8200 * m.kvTime)) := by
  rw [Dev.fld, (d.ratioFrame_afterKv m).reg _ rfl (by decide) (by decide)]
  exact Dev.kvRatio_worst h

theorem Dev.judgeRatios_clipped (h : ¬ (m.latTime = 0 ∨ d.hub.bound = 0)) (clipped : 16 * d.hub.bound ≤ 131200 * m.latTime) :
    (d.judgeRatios m).bitAt Off.hubRatioStatus 8 = true ∧
      (d.judgeRatios m).reg Off.hubRatioClips = min (d.reg Off.hubRatioClips + 1) 0xFFFFFFFF := by
  have kv := d.ratioFrame_kvRatio m
  have links := d.ratioFrame_links m
  rw [← kv.bound_eq] at h clipped
  obtain ⟨noted, counted⟩ := Dev.latencyRatio_clipped h clipped
  constructor
  · rw [links.bit 8 (by decide), noted]
  · rw [links.reg _ rfl (by decide) (by decide), counted, kv.reg _ rfl (by decide) (by decide)]

end

/-- The frames of the next window count from 0. -/
def Dev.framesCleared (d : Dev) : Dev := { d with hub := { d.hub with frames := 0 } }

/-- What a window measures counts from 0. -/
def Hub.countsCleared (h : Hub) : Hub := { h with winKv := 0, winStep := 0, winHand := 0, winLink := List.replicate 6 0 }

theorem Dev.framesCleared_bound (d : Dev) : d.framesCleared.hub.bound = d.hub.bound := rfl

theorem Dev.ratioWindowEnd_early {d : Dev} (m : RatioMeas) (h : d.hub.frames < d.fld Off.hubRatioCtrl 7 0) :
    d.ratioWindowEnd m = d := if_pos h

theorem Dev.ratioWindowEnd_unjudged {d : Dev} (m : RatioMeas) (due : d.fld Off.hubRatioCtrl 7 0 ≤ d.hub.frames)
    (h : d.bring ≠ .ready ∨ d.bitAt Off.hubRatioCtrl 8 = false) :
    d.ratioWindowEnd m = { d with hub := d.framesCleared.hub.countsCleared } := by
  have off : d.framesCleared.bring ≠ .ready ∨ (!d.framesCleared.bitAt Off.hubRatioCtrl 8) = true :=
    h.imp_right fun disabled => by rw [Bool.not_eq_true']; exact disabled
  exact (if_neg (Nat.not_lt.mpr due)).trans (congrArg (fun x : Dev => { x with hub := x.hub.countsCleared }) (if_pos off))

theorem Dev.ratioWindowEnd_judged {d : Dev} (m : RatioMeas) (due : d.fld Off.hubRatioCtrl 7 0 ≤ d.hub.frames)
    (ready : d.bring = .ready) (enabled : d.bitAt Off.hubRatioCtrl 8 = true) :
    d.ratioWindowEnd m =
      { d.framesCleared.judgeRatios m with hub := (d.framesCleared.judgeRatios m).hub.countsCleared } := by
  have on : ¬ (d.framesCleared.bring ≠ .ready ∨ (!d.framesCleared.bitAt Off.hubRatioCtrl 8) = true) := by
    rintro (other | disabled)
    · exact other ready
    · rw [Bool.not_eq_true'] at disabled
      exact Bool.false_ne_true (disabled.symm.trans enabled)
  exact (if_neg (Nat.not_lt.mpr due)).trans (congrArg (fun x : Dev => { x with hub := x.hub.countsCleared }) (if_neg on))

end Sys2Proof.Machine

/-- Settles O54: each ratio's outcome stands beside those of the others, which write other registers and other status bits. -/
theorem ratioWindows : Obligations.RatioWindows := by
  unfold Obligations.RatioWindows
  open Sys2Proof.Machine in
  intro s m
  refine ⟨fun early => ?_, fun due off => ?_, fun due ready enabled => ?_⟩
  · rw [exec_ratioWindowEnd, execRatioWindowEnd, lift_eq, Dev.ratioWindowEnd_early m early]
  · rw [exec_ratioWindowEnd, execRatioWindowEnd, lift_eq, Dev.ratioWindowEnd_unjudged m due off]
    rfl
  · have frame := s.dev.framesCleared.ratioFrame_judgeRatios m
    have kv := s.dev.framesCleared.judgeRatios_kv m
    have worst := Dev.judgeRatios_kvWorst (d := s.dev.framesCleared) (m := m)
    have latency := s.dev.framesCleared.judgeRatios_latency m
    have clipped := Dev.judgeRatios_clipped (d := s.dev.framesCleared) (m := m)
    have link {p : Nat} (hp : p < 6) := s.dev.framesCleared.judgeRatios_link m hp
    rw [Dev.framesCleared_bound] at latency clipped
    rw [exec_ratioWindowEnd, execRatioWindowEnd, lift_eq, Dev.ratioWindowEnd_judged m due ready enabled]
    generalize s.dev.framesCleared.judgeRatios m = e at *
    refine ⟨_, rfl, frame.mem, congrArg Hub.countsCleared frame.hub, kv.kept, fun time read => ?_, latency.kept,
      fun time bound => ?_, fun p hp => ⟨(link hp).kept, fun time => ⟨(link hp).last time, (link hp).status time⟩⟩⟩
    · have active := not_or.mpr ⟨time, read⟩
      exact ⟨kv.last active, worst active, kv.status active⟩
    · have active := not_or.mpr ⟨time, bound⟩
      exact ⟨latency.last active, latency.status active, clipped active⟩

end

section
/-! PROOFS. Tasks of running graphs: where they stand, and what is read of a task's progress once it has changed (R280, R281,
R289). -/

namespace Sys2Proof.Machine

/-! ## What is read of a part that stands -/

theorem Dev.reg_congr {d d' : Dev} (h : d'.regs = d.regs) (o : Nat) : d'.reg o = d.reg o := by rw [Dev.reg, h, Dev.reg]

theorem Dev.bitAt_congr {d d' : Dev} (h : d'.regs = d.regs) (o b : Nat) : d'.bitAt o b = d.bitAt o b := by
  rw [Dev.bitAt, Dev.reg_congr h, Dev.bitAt]

theorem Dev.slot_congr {d d' : Dev} (h : d'.grf = d.grf) (i : Nat) : d'.slot i = d.slot i := by rw [Dev.slot, h, Dev.slot]

theorem Dev.log_congr {d d' : Dev} (h : d'.pln = d.pln) (l : Nat) : d'.log l = d.log l := by rw [Dev.log, h, Dev.log]

theorem Dev.phys_congr {d d' : Dev} (h : d'.pln = d.pln) (p : Nat) : d'.phys p = d.phys p := by rw [Dev.phys, h, Dev.phys]

/-! ## Tasks that there are -/

/-- The slot has a run with that task. -/
structure Dev.HasTask (d : Dev) (slot task : Nat) : Prop where
  slot_lt : slot < d.grf.slots.length
  task_lt : task < (d.slot slot).run.length

theorem Dev.HasTask.congr {d d' : Dev} {slot task : Nat} (h : d.HasTask slot task) (k : d'.grf = d.grf) :
    d'.HasTask slot task :=
  ⟨k ▸ h.slot_lt, (Dev.slot_congr k slot).symm ▸ h.task_lt⟩

/-- A slot that is not there has no run. -/
theorem Dev.slot_of_le {d : Dev} {i : Nat} (h : d.grf.slots.length ≤ i) : d.slot i = {} :=
  List.getD_eq_default _ _ h

theorem Dev.hasTask_of_lt {d : Dev} {slot task : Nat} (h : task < (d.slot slot).run.length) : d.HasTask slot task where
  slot_lt := Nat.lt_of_not_le fun out => by
    rw [Dev.slot_of_le out] at h
    exact Nat.not_lt_zero _ h
  task_lt := h

/-- A task whose progress differs from that of one that is not there is there. -/
theorem Dev.hasTask_of_ne {d : Dev} {slot task : Nat} (h : d.taskRun slot task ≠ {}) : d.HasTask slot task :=
  Dev.hasTask_of_lt (Nat.lt_of_not_le fun out => h (List.getD_eq_default _ _ out))

theorem Dev.hasTask_of_marked {d : Dev} {slot task : Nat} (h : d.marked slot task = true) : d.HasTask slot task :=
  Dev.hasTask_of_ne fun none => by
    rw [Dev.marked, none] at h
    exact Bool.false_ne_true h

theorem Dev.hasTask_of_mem_tasksIn {d : Dev} {st : TaskSt} {t : Nat × Nat} (h : t ∈ d.tasksIn st) : d.HasTask t.1 t.2 := by
  obtain ⟨slot, -, h⟩ := List.mem_flatMap.mp h
  dsimp only at h
  split at h
  · obtain ⟨task, run, h⟩ := List.mem_filterMap.mp h
    split at h
    · cases h
      exact Dev.hasTask_of_lt (List.mem_range.mp run)
    · cases h
  · cases h

theorem Dev.firstTask_mem {d : Dev} {l : List (Nat × Nat)} {t : Nat × Nat} (h : d.firstTask l = some t) : t ∈ l := by
  induction l generalizing t with
  | nil => cases h
  | cons a l ih =>
    unfold Dev.firstTask at h
    split at h
    · cases h
      exact List.mem_cons_self
    · next u first =>
      split at h <;> cases h
      · exact List.mem_cons_of_mem _ (ih first)
      · exact List.mem_cons_self

/-- The task that a unit takes up is there. -/
theorem Dev.hasTask_of_issued {d : Dev} {type slot task : Nat} {p : Nat → Bool} (h : d.issuedWhere type p = some (slot, task)) :
    d.HasTask slot task :=
  Dev.hasTask_of_mem_tasksIn (List.mem_filter.mp (Dev.firstTask_mem h)).1

/-! ## A task's progress changed -/

/-- A task's progress changed by `f`. -/
def Dev.modTask (d : Dev) (slot task : Nat) (f : TaskRun → TaskRun) : Dev :=
  d.modSlot slot fun g => { g with run := upd g.run task f }

theorem Dev.setTask_eq (d : Dev) (slot task : Nat) (st : TaskSt) :
    d.setTask slot task st = d.modTask slot task fun t => { t with st := st } := rfl

theorem Dev.unmark_eq (d : Dev) (slot task : Nat) (st : TaskSt) :
    d.unmark slot task st = d.modTask slot task fun t => { t with st := st, marked := false } := rfl

theorem Dev.endTask_eq (d : Dev) (slot task flags : Nat) :
    d.endTask slot task flags = d.modTask slot task fun t => { t with st := .ended, flags := t.flags ||| flags } := rfl

theorem Dev.taskRun_modTask {d : Dev} {slot task : Nat} (h : d.HasTask slot task) (f : TaskRun → TaskRun) :
    (d.modTask slot task f).taskRun slot task = f (d.taskRun slot task) := by
  have run : (d.modTask slot task f).slot slot = { d.slot slot with run := upd (d.slot slot).run task f } := by
    simp only [Dev.slot, Dev.modTask, Dev.modSlot, List.getD_eq_getElem?_getD, upd_get_same,
      List.getElem?_eq_getElem h.slot_lt, Option.map_some, Option.getD_some]
  rw [Dev.taskRun, run]
  simp only [Dev.taskRun, List.getD_eq_getElem?_getD, upd_get_same, List.getElem?_eq_getElem h.task_lt, Option.map_some,
    Option.getD_some]

theorem Dev.st_setTask {d : Dev} {slot task : Nat} (h : d.HasTask slot task) (st : TaskSt) :
    ((d.setTask slot task st).taskRun slot task).st = st := by rw [Dev.setTask_eq, Dev.taskRun_modTask h]

theorem Dev.st_endTask {d : Dev} {slot task : Nat} (h : d.HasTask slot task) (flags : Nat) :
    ((d.endTask slot task flags).taskRun slot task).st = .ended := by rw [Dev.endTask_eq, Dev.taskRun_modTask h]

theorem Dev.st_unmark {d : Dev} {slot task : Nat} (h : d.HasTask slot task) (st : TaskSt) :
    ((d.unmark slot task st).taskRun slot task).st = st := by rw [Dev.unmark_eq, Dev.taskRun_modTask h]

theorem Dev.marked_unmark {d : Dev} {slot task : Nat} (h : d.HasTask slot task) (st : TaskSt) :
    (d.unmark slot task st).marked slot task = false := by rw [Dev.marked, Dev.unmark_eq, Dev.taskRun_modTask h]

end Sys2Proof.Machine
end

section
/-! PROOFS. What reads of memory leave alone: everything but registers, the recorder, interrupts and the free values drawn
(R216, R217, R398-R401, R486). -/

namespace Sys2Proof.Machine

/-- Between `d` and `d'` memory was read: at most registers, the recorder, the interrupts sent and the free values drawn
differ. -/
def Dev.Looked (d d' : Dev) : Prop := d' = { d with fresh := d'.fresh, regs := d'.regs, evr := d'.evr, env := d'.env }

theorem Dev.Looked.refl (d : Dev) : d.Looked d := rfl

theorem Dev.Looked.trans {a b c : Dev} (h : a.Looked b) (k : b.Looked c) : a.Looked c :=
  Eq.trans k (congrArg (fun x : Dev => { x with fresh := c.fresh, regs := c.regs, evr := c.evr, env := c.env }) h)

section
variable {d d' : Dev} (h : d.Looked d')
include h

theorem Dev.Looked.mem : d'.mem = d.mem := by rw [h]
theorem Dev.Looked.pln : d'.pln = d.pln := by rw [h]
theorem Dev.Looked.grf : d'.grf = d.grf := by rw [h]

end

/-- A fold of looks is a look. -/
theorem Dev.Looked.foldl {α β : Type} {f : α × Dev → β → α × Dev} (hf : ∀ (x : α × Dev) (b : β), x.2.Looked (f x b).2) (l : List β)
    (x : α × Dev) : x.2.Looked (l.foldl f x).2 := by
  induction l generalizing x with
  | nil => exact .refl _
  | cons b l ih => exact (hf x b).trans (ih _)

/-! ## Counts and records -/

theorem Dev.looked_setReg (d : Dev) (o v : Nat) : d.Looked (d.setReg o v) := rfl
theorem Dev.looked_setBit (d : Dev) (o b : Nat) : d.Looked (d.setBit o b) := rfl
theorem Dev.looked_bump (d : Dev) (o n : Nat) : d.Looked (d.bump o n) := rfl
theorem Dev.looked_bumpWrap (d : Dev) (o n : Nat) : d.Looked (d.bumpWrap o n) := rfl
theorem Dev.looked_drawBytes (d : Dev) (n : Nat) : d.Looked (d.drawBytes n).2 := rfl
theorem Dev.looked_vector (d : Dev) (n : Nat) : d.Looked (d.vector n) := rfl

theorem Dev.looked_evr (d : Dev) (e : Evr) : d.Looked { d with evr := e } := rfl

theorem Dev.looked_bump64 (d : Dev) (o n : Nat) : d.Looked (d.bump64 o n) :=
  (d.looked_setReg _ _).trans (Dev.looked_setReg _ _ _)

theorem Dev.looked_event (d : Dev) (c : Nat) (e : EventRec) : d.Looked (d.event c e) := by
  unfold Dev.event
  split
  · dsimp only
    split
    · exact (d.looked_evr _).trans (Dev.looked_vector _ _)
    · exact d.looked_evr _
  · exact (d.looked_bump _ _).trans (Dev.looked_setBit _ _ _)

theorem Dev.looked_cper (d : Dev) (c : CperRec) : d.Looked (d.cper c) := by
  unfold Dev.cper
  extract_lets c e numbered
  have counted : d.Looked numbered := d.looked_evr _
  split
  · exact counted.trans (numbered.looked_evr _)
  · exact ((counted.trans (numbered.looked_bump _ _)).trans (Dev.looked_setBit _ _ _)).trans (Dev.looked_event _ _ _)

theorem Dev.looked_signature (d : Dev) (c : Nat) (e : EventRec) (r : CperRec) : d.Looked (d.signature c e r) :=
  (d.looked_event _ _).trans (Dev.looked_cper _ _)

theorem Dev.looked_corrected (d : Dev) (r : Reader) (pa k syn : Nat) : d.Looked (d.corrected r pa k syn) := by
  have counted : d.Looked ((d.bumpWrap (ceCounter pa)).detect pa).2 := (d.looked_bumpWrap _ _).trans rfl
  unfold Dev.corrected
  dsimp only
  split
  · exact counted
  · exact (counted.trans (Dev.looked_evr _ _)).trans (Dev.looked_signature _ _ _ _)

theorem Dev.looked_uncorrectable (d : Dev) (r : Reader) (pa syn : Nat) : d.Looked (d.uncorrectable r pa syn) := by
  have counted : d.Looked ((d.bump Off.evrUeCount).detect pa).2 := (d.looked_bump _ _).trans rfl
  unfold Dev.uncorrectable
  dsimp only
  split
  · exact counted.trans (Dev.looked_event _ _ _)
  · exact (counted.trans (Dev.looked_evr _ _)).trans (Dev.looked_signature _ _ _ _)

/-! ## Reads by physical address -/

theorem Dev.looked_checkPa (d : Dev) (r : Reader) (pa n : Nat) : d.Looked (d.checkPa r pa n).2.2 := by
  have step (l : List Nat) (x : Bool × List Host.Cell × Dev) : x.2.2.Looked (l.foldl (fun x w =>
      let v := x.2.2.storedWord w
      let (s0, s1, s2) := rsSyndromes v
      match rsDecode v with
      | .good => (x.1, memStore x.2.1 (32 * w) (v.take 32), x.2.2)
      | .corrected k v' =>
        (x.1, memStore x.2.1 (32 * w) (v'.take 32), x.2.2.corrected r (32 * w) k (s0 + 256 * s1 + 65536 * s2))
      | .bad => (false, x.2.1, x.2.2.uncorrectable r (32 * w) (s0 + 256 * s1 + 65536 * s2))) x).2.2 := by
    induction l generalizing x with
    | nil => exact .refl _
    | cons w l ih =>
      refine .trans ?_ (ih _)
      dsimp only
      split
      · exact .refl _
      · exact Dev.looked_corrected _ _ _ _ _
      · exact Dev.looked_uncorrectable _ _ _ _
  exact step _ _

theorem Dev.looked_readPa (d : Dev) (r : Reader) (pa n : Nat) : d.Looked (d.readPa r pa n).2 := by
  unfold Dev.readPa
  dsimp only
  split
  · exact d.looked_checkPa _ _ _
  · exact d.looked_checkPa _ _ _

/-! ## Reads by virtual address -/

theorem Dev.looked_walkFrom (r : Reader) (space va : Nat) (write : Bool) (fuel : Nat) (d : Dev) (table level : Nat) (g : Bool) :
    d.Looked (d.walkFrom r space va write fuel table level g).2 := by
  induction fuel generalizing d table level g with
  | zero => exact .refl d
  | succ fuel ih =>
    have read := d.looked_readPa r (table + 8 * tableIndex level g va) 8
    unfold Dev.walkFrom
    split
    · next e => rwa [e] at read
    · next e =>
      rw [e] at read
      dsimp only
      split
      · exact read
      split
      · exact read
      split
      · split
        · exact read
        · exact read.trans (ih _ _ _ _)
      · split
        · exact read
        · split <;> exact read

theorem Dev.looked_walk (d : Dev) (r : Reader) (space va : Nat) (write : Bool) : d.Looked (d.walk r space va write).2 := by
  unfold Dev.walk
  dsimp only
  split
  · exact d.looked_bump64 _ _
  · split
    · exact d.looked_bump64 _ _
    · exact (d.looked_bump64 _ _).trans (Dev.looked_walkFrom _ _ _ _ _ _ _ _ _)

theorem Dev.looked_translate (d : Dev) (r : Reader) (space va : Nat) (write : Bool) :
    d.Looked (d.translate r space va write).2 := by
  unfold Dev.translate
  split
  · exact .refl d
  · exact d.looked_walk _ _ _ _

theorem Dev.looked_readPiece (d : Dev) (r : Reader) (space va n : Nat) : d.Looked (d.readPiece r space va n).2 := by
  have place := d.looked_translate r space va false
  unfold Dev.readPiece
  split
  · next e => rwa [e] at place
  · next e => rwa [e] at place
  · next t d' e =>
    rw [e] at place
    dsimp only
    split
    · split
      · exact place
      · exact place
    · have read := place.trans (d'.looked_readPa r (t.pa + (va - t.va)) n)
      split
      · next e => rwa [e] at read
      · next e => rwa [e] at read

theorem Dev.looked_readVa (d : Dev) (r : Reader) (space va n : Nat) : d.Looked (d.readVa r space va n).2 := by
  refine Dev.Looked.foldl (fun x p => ?_) (pieces va n) (Acc.ok [], d)
  split
  · have read := x.2.looked_readPiece r space p.1 p.2
    split
    · next e => rwa [e] at read
    · exact read
  · exact .refl _

/-! ## Checks in sequence -/

theorem Dev.Looked.thn {α β : Type} {d : Dev} {x : Chk α × Dev} {k : α → Dev → Chk β × Dev} (h : d.Looked x.2)
    (hk : ∀ a (e : Dev), e.Looked (k a e).2) : d.Looked (Chk.thn x k).2 := by
  unfold Chk.thn
  split
  · exact h.trans (hk _ _)
  · exact h
  · exact h
  · exact h

theorem Dev.Looked.chk {α : Type} {d : Dev} {x : Acc α × Dev} (h : d.Looked x.2) : d.Looked (Acc.chk x).2 := by
  unfold Acc.chk
  split <;> exact h

theorem Dev.looked_tests {α : Type} (l : List (Bool × Nat)) (a : α) (d : Dev) : d.Looked (tests l a d).2 := by
  unfold tests
  split <;> exact .refl d

theorem Dev.looked_readBody (d : Dev) (slot task n : Nat) : d.Looked (d.readBody slot task n).2 := by
  have read := d.looked_readVa (d.reader 8 0 slot task) (d.slot slot).space (d.bodyVa slot task) n
  unfold Dev.readBody
  split <;> · next e => rwa [e] at read

theorem Dev.looked_checkPlane (l : List Byte) (d : Dev) : d.Looked (checkPlane l d).2 := Dev.looked_tests _ _ d

theorem Dev.looked_loadList (d : Dev) (r : Reader) (space : Nat) (b : PlaneBody) : d.Looked (d.loadList r space b).2 :=
  .thn (.chk (d.looked_readVa _ _ _ _)) fun _ e => Dev.looked_tests _ _ e

theorem Dev.looked_checkTiles (d : Dev) (b : PlaneBody) (es : List TileEntry) : d.Looked (d.checkTiles b es).2 := by
  unfold Dev.checkTiles
  extract_lets ref st r
  have tested : d.Looked r.2 := Dev.looked_tests _ _ d
  split
  · dsimp only
    split
    · exact tested.trans (Dev.looked_setBit _ _ _)
    · exact tested
  · exact tested

theorem Dev.looked_loadEpi (d : Dev) (r : Reader) (space va dIn dOut : Nat) (bad : Bool) :
    d.Looked (d.loadEpi r space va dIn dOut bad).2 := by
  refine .thn (.chk (d.looked_readVa _ _ _ _)) fun _ e => .thn (Dev.looked_tests _ _ e) fun _ e => ?_
  split
  · exact .refl e
  · exact .thn (.chk (e.looked_readVa _ _ _ _)) fun _ e => .thn (Dev.looked_tests _ _ e) fun _ e => .refl e

end Sys2Proof.Machine
end

section
/-! PROOFS. Tile selects, endurance windows and tier windows (R97, R105, R178, R352-R354). -/

namespace Sys2Proof.Machine

/-! ## Registers alone -/

/-- `d'` differs from `d` in registers alone. -/
def Dev.OnlyRegs (d d' : Dev) : Prop := d' = { d with regs := d'.regs }

theorem Dev.OnlyRegs.trans {a b c : Dev} (h : a.OnlyRegs b) (k : b.OnlyRegs c) : a.OnlyRegs c :=
  Eq.trans k (congrArg (fun x : Dev => { x with regs := c.regs }) h)

theorem Dev.onlyRegs_setReg (d : Dev) (o v : Nat) : d.OnlyRegs (d.setReg o v) := rfl

theorem Dev.onlyRegs_setReg64 (d : Dev) (o v : Nat) : d.OnlyRegs (d.setReg64 o v) :=
  (d.onlyRegs_setReg _ _).trans (Dev.onlyRegs_setReg _ _ _)

/-! ## The endurance window -/

/-- The multiple of `a` that `n` is rounded up to, and where it lies. -/
theorem alignUp_bounds (n : Nat) {a : Nat} (h : 0 < a) :
    alignUp n a % a = 0 ∧ n ≤ alignUp n a ∧ alignUp n a < n + a := by
  have split := Nat.div_add_mod' (n + a - 1) a
  have rest := Nat.mod_lt (n + a - 1) h
  unfold alignUp
  exact ⟨Nat.mul_mod_left _ _, by omega, by omega⟩

theorem enduranceWindow_pos : 0 < enduranceWindow := by decide

section
variable (d : Dev)

theorem Dev.enduranceWindowStart_boundary : d.enduranceWindowStart.now % enduranceWindow = 0 :=
  (alignUp_bounds d.now enduranceWindow_pos).1

theorem Dev.enduranceWindowStart_later : d.now ≤ d.enduranceWindowStart.now := (alignUp_bounds d.now enduranceWindow_pos).2.1

theorem Dev.enduranceWindowStart_next : d.enduranceWindowStart.now < d.now + enduranceWindow :=
  (alignUp_bounds d.now enduranceWindow_pos).2.2

end

/-! ## The snapshot of a tile -/

theorem Dev.reg_setReg64_lo (d : Dev) (o v : Nat) : (d.setReg64 o v).reg o = v % 2 ^ 32 := by
  rw [Dev.setReg64, Dev.reg_setReg_other _ _ (by omega), Dev.reg_setReg_same, Nat.mod_mod]

theorem TileState.code_lt (st : TileState) : st.code < 8 := by cases st <;> decide

/-- PLN_TILE_INFO as it is put together: the code of a state stands in bits [22:20], above an index of 20 bits (R105). -/
theorem bits_tileInfo (st : TileState) {n : Nat} (h : n < 2 ^ 20) : bits ((st.code * 2 ^ 20 + n) % 2 ^ 32) 22 20 = st.code := by
  have := st.code_lt
  unfold bits
  omega

/-- An index of at most 20 bits, or the one that stands for none. -/
theorem getD_lt_index {o : Option Nat} (h : ∀ n, o = some n → n < 2 ^ 20) : o.getD 0xFFFFF < 2 ^ 20 := by
  cases o with
  | none => decide
  | some n => exact h n rfl

section
variable (d : Dev) (v : Word)

/-- The snapshot that a write of `v` to PLN_TILE_SELECT takes. -/
def Dev.selected : Nat × Nat × Nat × Nat := d.tileSnapshot (v.toNat.testBit 31) (v.toNat % 2 ^ 20)

theorem bits_select : bits v.toNat 19 0 = v.toNat % 2 ^ 20 := by simp [bits]

theorem Dev.plnTileSelect_stuck : (d.plnTileSelect v).reg Off.plnTileStuck = (d.selected v).2.2.2 % 2 ^ 32 := by
  rw [Dev.plnTileSelect, bits_select, Dev.reg_setReg_same, Dev.selected]

theorem Dev.plnTileSelect_edition : (d.plnTileSelect v).reg Off.plnTileEdition = (d.selected v).2.2.1 % 2 ^ 32 := by
  rw [Dev.plnTileSelect, bits_select, Dev.reg_setReg_other _ _ (by decide), Dev.reg_setReg_same, Dev.selected]

theorem Dev.plnTileSelect_wear : (d.plnTileSelect v).reg Off.plnTileWear = (d.selected v).2.1 % 2 ^ 32 := by
  rw [Dev.plnTileSelect, bits_select, Dev.reg_setReg_other _ _ (by decide), Dev.reg_setReg_other _ _ (by decide),
    Dev.reg_setReg_same, Dev.selected]

theorem Dev.plnTileSelect_info : (d.plnTileSelect v).reg Off.plnTileInfo = (d.selected v).1 % 2 ^ 32 := by
  rw [Dev.plnTileSelect, bits_select, Dev.reg_setReg_other _ _ (by decide), Dev.reg_setReg_other _ _ (by decide),
    Dev.reg_setReg_other _ _ (by decide), Dev.reg_setReg_same, Dev.selected]

theorem Dev.plnTileSelect_index : (d.plnTileSelect v).fld Off.plnTileSelect 19 0 = v.toNat % 2 ^ 20 := by
  have word : withBits (withBits 0 19 0 (v.toNat % 2 ^ 20)) 31 31 (bits v.toNat 31 31) < 2 ^ 32 :=
    withBits_lt _ (withBits_lt _ (by decide) (by decide)) (by decide)
  rw [Dev.fld, Dev.plnTileSelect, bits_select, Dev.reg_setReg_other _ _ (by decide), Dev.reg_setReg_other _ _ (by decide),
    Dev.reg_setReg_other _ _ (by decide), Dev.reg_setReg_other _ _ (by decide), Dev.reg_setReg_same, Nat.mod_eq_of_lt word,
    bits_withBits_below _ _ (by decide), bits_withBits_same, Nat.mod_mod]

end

theorem Dev.onlyRegs_plnTileSelect (d : Dev) (v : Word) : d.OnlyRegs (d.plnTileSelect v) :=
  ((((d.onlyRegs_setReg _ _).trans (Dev.onlyRegs_setReg _ _ _)).trans (Dev.onlyRegs_setReg _ _ _)).trans
    (Dev.onlyRegs_setReg _ _ _)).trans (Dev.onlyRegs_setReg _ _ _)

/-- The snapshot that a physical index shows (R105). -/
theorem Dev.tileSnapshot_physical (d : Dev) {i : Nat} (there : physExists i = true) :
    (d.tileSnapshot true i).1 = (d.phys i).state.code * 2 ^ 20 + (d.phys i).logical.getD 0xFFFFF ∧
      (d.tileSnapshot true i).2.1 = (d.phys i).wear ∧ (d.tileSnapshot true i).2.2.2 = (d.phys i).stuckCount := by
  simp only [Dev.tileSnapshot, there, if_true, and_self]

/-- A physical index that names no tile reads 0 (R105). -/
theorem Dev.tileSnapshot_absent (d : Dev) {i : Nat} (there : physExists i = false) : d.tileSnapshot true i = (0, 0, 0, 0) := by
  simp only [Dev.tileSnapshot, there, if_true, Bool.false_eq_true, if_false]

/-- The snapshot that the number of a tile of a live edition shows (R105). -/
theorem Dev.tileSnapshot_logical {d : Dev} {i : Nat} {x : LogTile} (range : i ≤ 24575) (live : d.log i = some x) :
    (d.tileSnapshot false i).1 = (d.tileState i).code * 2 ^ 20 + x.phys.getD 0xFFFFF ∧
      (d.tileSnapshot false i).2.2.1 = x.edition := by
  simp only [Dev.tileSnapshot, live, Nat.not_lt.mpr range, Bool.false_eq_true, if_false, and_self]

/-! ## The calibration snapshot -/

/-- CAL_TILE_SELECT with the four registers beside it (R178): status, epoch, count and time of the last correction. -/
def Dev.calShown (d : Dev) (l : Nat) (s : Nat × Nat × Nat × Nat) : Dev :=
  ((((d.setReg Off.calTileSelect l).setReg Off.calTileStatus s.1).setReg Off.calTileEpoch s.2.1).setReg Off.calTileCount
    s.2.2.1).setReg64 Off.calTileLastLo s.2.2.2

theorem Dev.calShown_select (d : Dev) {v : Word} (s : Nat × Nat × Nat × Nat) :
    (d.calShown (v.toNat % 2 ^ 20) s).reg Off.calTileSelect = v.toNat % 2 ^ 20 := by
  rw [Dev.calShown, Dev.reg_setReg64_other _ _ (by decide) (by decide), Dev.reg_setReg_other _ _ (by decide),
    Dev.reg_setReg_other _ _ (by decide), Dev.reg_setReg_other _ _ (by decide), Dev.reg_setReg_same,
    Nat.mod_eq_of_lt (by omega)]

theorem Dev.calShown_status (d : Dev) (l : Nat) (s : Nat × Nat × Nat × Nat) :
    (d.calShown l s).reg Off.calTileStatus = s.1 % 2 ^ 32 := by
  rw [Dev.calShown, Dev.reg_setReg64_other _ _ (by decide) (by decide), Dev.reg_setReg_other _ _ (by decide),
    Dev.reg_setReg_other _ _ (by decide), Dev.reg_setReg_same]

theorem Dev.calShown_epoch (d : Dev) (l : Nat) (s : Nat × Nat × Nat × Nat) :
    (d.calShown l s).reg Off.calTileEpoch = s.2.1 % 2 ^ 32 := by
  rw [Dev.calShown, Dev.reg_setReg64_other _ _ (by decide) (by decide), Dev.reg_setReg_other _ _ (by decide),
    Dev.reg_setReg_same]

theorem Dev.calShown_count (d : Dev) (l : Nat) (s : Nat × Nat × Nat × Nat) :
    (d.calShown l s).reg Off.calTileCount = s.2.2.1 % 2 ^ 32 := by
  rw [Dev.calShown, Dev.reg_setReg64_other _ _ (by decide) (by decide), Dev.reg_setReg_same]

theorem Dev.calShown_last (d : Dev) (l : Nat) (s : Nat × Nat × Nat × Nat) :
    (d.calShown l s).reg64 Off.calTileLastLo = s.2.2.2 % 2 ^ 64 := Dev.reg64_setReg64 _ _ _

theorem Dev.onlyRegs_calShown (d : Dev) (l : Nat) (s : Nat × Nat × Nat × Nat) : d.OnlyRegs (d.calShown l s) :=
  ((((d.onlyRegs_setReg _ _).trans (Dev.onlyRegs_setReg _ _ _)).trans (Dev.onlyRegs_setReg _ _ _)).trans
    (Dev.onlyRegs_setReg _ _ _)).trans (Dev.onlyRegs_setReg64 _ _ _)

/-- What CAL_TILE_SELECT shows of a logical tile (R178). -/
def Dev.calSnapshot (d : Dev) (l : Nat) : Nat × Nat × Nat × Nat :=
  if 24575 < l then (0, 0, 0, 0)
  else
    match d.log l with
    | none => (0, 0, 0, 0)
    | some x =>
      let t := match x.phys with
        | some p => d.phys p
        | none => {}
      (t.grade * 2 ^ 30 + t.passDue * 2 ^ 28 + min t.attempts 3 * 2 ^ 24 + t.temperature % 256 * 2 ^ 16 +
        min t.gainMax 200 * 2 ^ 8, x.epoch, t.count, t.last)

theorem Dev.calTileSelect_eq (d : Dev) (v : Word) :
    d.calTileSelect v = d.calShown (v.toNat % 2 ^ 20) (d.calSnapshot (v.toNat % 2 ^ 20)) := by
  rw [← bits_select]
  rfl

/-- The snapshot of a live tile that a physical tile serves (R178). -/
theorem Dev.calSnapshot_served {d : Dev} {l p : Nat} {x : LogTile} (range : l ≤ 24575) (live : d.log l = some x)
    (served : x.phys = some p) :
    (d.calSnapshot l).2 = (x.epoch, (d.phys p).count, (d.phys p).last) := by
  simp only [Dev.calSnapshot, Nat.not_lt.mpr range, live, served, if_false]

/-- A number that names no tile of a live edition shows zeros (R178). -/
theorem Dev.calSnapshot_absent {d : Dev} {l : Nat} (none : 24575 < l ∨ d.log l = none) : d.calSnapshot l = (0, 0, 0, 0) := by
  unfold Dev.calSnapshot
  split
  · rfl
  · next range => rw [none.resolve_left range]

/-! ## The tier window -/

/-- What the moves of a tier window have done between `d` and `d'`, while its moves are counted in `tierMoves`: each has
queued one program, none is beyond TIER_MOVES, and the settings, memory and the budget stand (R353, R354). -/
structure Dev.Moved (d d' : Dev) : Prop where
  cfg : d'.hub = d.hub
  mem : d'.mem = d.mem
  frames : d'.srv.tierFrames = d.srv.tierFrames
  budget : d'.reg Off.plnBudgetUsed = d.reg Off.plnBudgetUsed
  queued : d'.pln.prog.length + d.srv.tierMoves = d.pln.prog.length + d'.srv.tierMoves
  within : d.srv.tierMoves ≤ d.tierCfg 3 → d'.srv.tierMoves ≤ d'.tierCfg 3

theorem Dev.tierCfg_congr {d d' : Dev} (h : d'.hub = d.hub) (i : Nat) : d'.tierCfg i = d.tierCfg i := by
  rw [Dev.tierCfg, h, Dev.tierCfg]

theorem Dev.Moved.refl (d : Dev) : d.Moved d := ⟨rfl, rfl, rfl, rfl, rfl, id⟩

theorem Dev.Moved.trans {a b c : Dev} (h : a.Moved b) (k : b.Moved c) : a.Moved c where
  cfg := k.cfg.trans h.cfg
  mem := k.mem.trans h.mem
  frames := k.frames.trans h.frames
  budget := k.budget.trans h.budget
  queued := by have := h.queued; have := k.queued; omega
  within start := k.within (h.within start)

theorem Dev.Moved.foldl {α : Type} {f : Dev → α → Dev} (hf : ∀ (d : Dev) (a : α), d.Moved (f d a)) (l : List α) (d : Dev) :
    d.Moved (l.foldl f d) := by
  induction l generalizing d with
  | nil => exact .refl d
  | cons a l ih => exact (hf d a).trans (ih _)

/-- An event record writes at most the recorder's own registers. -/
theorem Dev.reg_event_budget (d : Dev) (c : Nat) (e : EventRec) :
    (d.event c e).reg Off.plnBudgetUsed = d.reg Off.plnBudgetUsed :=
  (d.kept_event c e).reg _ (by decide) (by decide) (by decide)

/-- A tile's own update starts no move. -/
theorem Dev.moved_modLog (d : Dev) (l : Nat) (f : LogTile → LogTile) : d.Moved (d.modLog l f) := by
  unfold Dev.modLog
  split
  · exact ⟨rfl, rfl, rfl, rfl, rfl, id⟩
  · exact .refl d

theorem Dev.moved_modPhys (d : Dev) (p : Nat) (f : PhysTile → PhysTile) : d.Moved (d.modPhys p f) :=
  ⟨rfl, rfl, rfl, rfl, rfl, id⟩

theorem Dev.moved_event (d : Dev) (c : Nat) (e : EventRec) : d.Moved (d.event c e) where
  cfg := d.event_hub c e
  mem := d.event_mem c e
  frames := by rw [Dev.event_srv]
  budget := d.reg_event_budget c e
  queued := by rw [Dev.event_srv, Dev.event_pln]
  within start := by rwa [Dev.event_srv, Dev.tierCfg_congr (d.event_hub c e)]

/-- A move queues one program and counts itself. -/
theorem Dev.moved_counted (d : Dev) (l p : Nat) (room : d.srv.tierMoves < d.tierCfg 3) :
    d.Moved { d.queueProgram l p with srv := { d.srv with tierMoves := d.srv.tierMoves + 1 } } where
  cfg := rfl
  mem := rfl
  frames := rfl
  budget := rfl
  queued := by
    show (d.pln.prog ++ [_]).length + _ = _ + (_ + 1)
    rw [List.length_append, List.length_singleton]
    omega
  within _ := room

theorem Dev.modLog_srv (d : Dev) (l : Nat) (f : LogTile → LogTile) : (d.modLog l f).srv = d.srv := by
  unfold Dev.modLog
  split <;> rfl

theorem Dev.moved_promote (d : Dev) (l p uses : Nat) (room : d.srv.tierMoves < d.tierCfg 3) :
    d.Moved (d.promote l p uses) := by
  have spare := d.moved_modLog l fun t => { t with spare := some p }
  have room' : (d.modLog l fun t => { t with spare := some p }).srv.tierMoves <
      (d.modLog l fun t => { t with spare := some p }).tierCfg 3 := by
    rwa [Dev.modLog_srv, Dev.tierCfg_congr spare.cfg]
  exact (spare.trans (Dev.moved_counted _ l p room')).trans (Dev.moved_event _ _ _)

/-- One candidate moves at most once, and not beyond TIER_MOVES (R354). -/
theorem Dev.moved_moveTile (d : Dev) (die : Nat) (c : Nat × Nat) : d.Moved (d.moveTile die c) := by
  unfold Dev.moveTile
  dsimp only
  split
  · exact .refl d
  · next limits =>
    have room : d.srv.tierMoves < d.tierCfg 3 := Nat.lt_of_not_le fun full => limits (.inl full)
    split
    · exact (d.moved_modPhys _ _).trans (Dev.moved_promote _ _ _ _ room)
    · split
      · exact .refl d
      · next l p uses _ =>
        have told := (d.moved_modLog l fun t => { t with due := t.due ++ [.toDigital] }).trans
          (Dev.moved_event _ 0x0181 { arg0 := l, arg1 := uses, arg2 := p })
        refine told.trans (Dev.moved_promote _ _ _ _ ?_)
        rwa [Dev.event_srv, Dev.modLog_srv, Dev.tierCfg_congr told.cfg]

/-- The device as a tier window ends: moves and frames count from 0. -/
def Dev.windowOpened (d : Dev) : Dev := { d with srv := { d.srv with tierMoves := 0, tierFrames := 0 } }

/-- The moves of every die's candidates, in turn. -/
def Dev.moveAll (d : Dev) : Dev :=
  (List.range 4).foldl (fun d die => (d.candidates die).foldl (fun d c => d.moveTile die c) d) d

theorem Dev.moved_moveAll (d : Dev) : d.Moved d.moveAll :=
  .foldl (fun d die => .foldl (fun d c => d.moved_moveTile die c) _ d) _ d

/-- The use counts restart (R352). -/
def Dev.usesCleared (d : Dev) : Dev :=
  { d with
    srv := { d.srv with tierMoves := 0 }
    pln := { d.pln with logical := d.pln.logical.map fun x => (x.1, { x.2 with uses := 0 }) } }

theorem Dev.usesCleared_uses (d : Dev) : ∀ x ∈ d.usesCleared.pln.logical, x.2.uses = 0 := by
  intro x hx
  obtain ⟨y, -, rfl⟩ := List.mem_map.mp hx
  rfl

theorem Dev.tierWindowEnd_early {d : Dev} (h : d.tierCfg 0 = 0 ∨ d.srv.tierFrames < d.tierCfg 0) : d.tierWindowEnd = d :=
  if_pos h

theorem Dev.tierWindowEnd_due {d : Dev} (on : d.tierCfg 0 ≠ 0) (due : d.tierCfg 0 ≤ d.srv.tierFrames) :
    d.tierWindowEnd = (if d.movesHeld = true then d.windowOpened else d.windowOpened.moveAll).usesCleared :=
  if_neg (not_or.mpr ⟨on, Nat.not_lt.mpr due⟩)

/-- Whether or not moves are held, what the moves of a window have done. -/
theorem Dev.moved_window (d : Dev) :
    d.windowOpened.Moved (if d.movesHeld = true then d.windowOpened else d.windowOpened.moveAll) := by
  split
  · exact .refl _
  · exact Dev.moved_moveAll _

end Sys2Proof.Machine

open Sys2Proof Sys2Proof.Machine in
/-- The select registers show the snapshots, which are 0 where the index names no tile. -/
theorem tileSnapshots : Clause.TileSnapshots := by
  intro s
  refine ⟨⟨_, rfl, s.dev.enduranceWindowStart_boundary, s.dev.enduranceWindowStart_later, s.dev.enduranceWindowStart_next,
    Dev.reg_setReg_same _ _ _, rfl⟩, fun v running => ⟨?_, ?_⟩⟩
  · rw [exec_plnTileSelect, execPlnTileSelect, hostWrite_running _ running]
    refine ⟨_, rfl, s.dev.plnTileSelect_index v, fun physical there small => ?_, fun physical there => ?_,
      fun logical range x live small => ?_,
      congrArg (fun e : Dev => { s with dev := e }) (s.dev.onlyRegs_plnTileSelect v)⟩
    · obtain ⟨info, wear, stuck⟩ := s.dev.tileSnapshot_physical there
      rw [Dev.fld, Dev.plnTileSelect_info, Dev.plnTileSelect_wear, Dev.plnTileSelect_stuck, Dev.selected, physical, info, wear,
        stuck]
      exact ⟨bits_tileInfo _ (getD_lt_index small), rfl, rfl⟩
    · rw [Dev.plnTileSelect_info, Dev.plnTileSelect_wear, Dev.plnTileSelect_edition, Dev.plnTileSelect_stuck, Dev.selected,
        physical, Dev.tileSnapshot_absent _ there]
      exact ⟨rfl, rfl, rfl, rfl⟩
    · obtain ⟨info, edition⟩ := Dev.tileSnapshot_logical range live
      rw [Dev.fld, Dev.plnTileSelect_info, Dev.plnTileSelect_edition, Dev.selected, logical, info, edition]
      exact ⟨bits_tileInfo _ (getD_lt_index small), rfl⟩
  · rw [exec_calTileSelect, execCalTileSelect, hostWrite_running _ running]
    rw [Dev.calTileSelect_eq]
    refine ⟨_, rfl, s.dev.calShown_select _, fun x p range live served => ?_, fun absent => ?_,
      congrArg (fun e : Dev => { s with dev := e }) (s.dev.onlyRegs_calShown _ _)⟩
    · rw [Dev.calShown_epoch, Dev.calShown_count, Dev.calShown_last,
        Dev.calSnapshot_served range live served]
      exact ⟨rfl, rfl, rfl⟩
    · rw [Dev.calShown_status, Dev.calShown_epoch, Dev.calShown_count, Dev.calSnapshot_absent absent]
      exact ⟨rfl, rfl, rfl⟩

open Sys2Proof Sys2Proof.Machine in
/-- Each move queues one program and counts itself, so that no more programs are queued than TIER_MOVES allows. -/
theorem tierWindowsMoveTiles : Clause.TierWindowsMoveTiles := by
  intro s
  refine ⟨fun early => ?_, fun on due => ?_⟩
  · rw [exec_tierWindowEnd, execTierWindowEnd, lift_eq, Dev.tierWindowEnd_early early]
  · rw [exec_tierWindowEnd, execTierWindowEnd, lift_eq, Dev.tierWindowEnd_due on due]
    have moved := s.dev.moved_window
    refine ⟨_, rfl, Dev.usesCleared_uses _, moved.frames, ?_, fun held => ?_, moved.mem, moved.budget⟩
    · have queued : _ + 0 = s.dev.pln.prog.length + _ := moved.queued
      have within := moved.within (Nat.zero_le _)
      rw [Dev.tierCfg_congr moved.cfg] at within
      exact queued.le.trans (Nat.add_le_add_left within _)
    · rw [if_pos held]
      exact ⟨rfl, rfl, rfl⟩

/-- Settles O32: what the select registers show, and what the moves of a tier window add up to. -/
theorem tileSnapshotsAndTiers : Obligations.TileSnapshotsAndTiers := ⟨tileSnapshots, tierWindowsMoveTiles⟩

end

section
/-! PROOFS. Saves and resumptions of plane operations and of tasks of the wide engine (R90, R91, R144, R157, R288, R289). -/

namespace Sys2Proof.Machine

/-! ## Plane operations -/

section
variable {d : Dev} {o : PlaneOp}

/-- The running operation as it is saved. -/
def Dev.opSaved (d : Dev) (o : PlaneOp) : Dev := { d with pln := { d.pln with op := none, saved := d.pln.saved ++ [o] } }

/-- A marked operation is saved, with its task (R90). -/
theorem Dev.planeSave_marked (op : d.pln.op = some o) (h : d.marked o.slot o.task = true) :
    d.planeSave = (d.opSaved o).unmark o.slot o.task .saved := by
  simp only [Dev.planeSave, op, h, Bool.true_or, if_true]
  rfl

/-- An operation that a fault stopped is saved, and its task runs on (R90). -/
theorem Dev.planeSave_stopped (op : d.pln.op = some o) (unmarked : d.marked o.slot o.task = false)
    (h : d.stopped o.slot o.task = true) : d.planeSave = d.opSaved o := by
  simp only [Dev.planeSave, op, unmarked, h, Bool.false_or, if_true, Bool.false_eq_true, if_false]
  rfl

/-- An operation that is neither marked nor stopped runs on, and with no program task nothing else is saved (R90, R95). -/
theorem Dev.planeSave_runs (op : d.pln.op = some o) (unmarked : d.marked o.slot o.task = false)
    (h : d.stopped o.slot o.task = false) (prog : d.pln.prog = []) : d.planeSave = d := by
  simp only [Dev.planeSave, op, unmarked, h, Bool.or_self, Bool.false_eq_true, if_false, prog, List.find?_nil]

/-- A marked operation that a fault had stopped gives its task up (R90). -/
theorem Dev.planeSave_preempted (op : d.pln.op = none)
    (h : (d.pln.saved.find? fun o => d.faultSaved o && d.marked o.slot o.task) = some o) :
    d.planeSave = d.unmark o.slot o.task .saved := by simp only [Dev.planeSave, op, h]

/-- The operation that an idle sequencer with no pending fault takes up: one whose fault is resolved, else, while none waits
for its fault, the saved one that comes first (R90, R91, R289). -/
def Dev.Resumes (d : Dev) (o : PlaneOp) : Prop :=
  (d.pln.saved.find? fun o => d.faultSaved o && !d.marked o.slot o.task && !d.stopped o.slot o.task) = some o ∨
    d.seqHeld = false ∧
      d.firstTask ((d.pln.saved.filter fun o => d.canResume o.slot o.task).map fun o => (o.slot, o.task)) =
        some (o.slot, o.task) ∧
      (d.pln.saved.find? fun p => decide (p.slot = o.slot) && decide (p.task = o.task)) = some o

/-- While the sequencer is not held, no saved operation waits for its fault. -/
theorem Dev.find_faultSaved_of_not_held (h : d.seqHeld = false) (p : PlaneOp → Bool) :
    (d.pln.saved.find? fun o => d.faultSaved o && p o) = none := by
  have none_waits := (Bool.or_eq_false_iff.mp h).2
  rw [List.any_eq_false] at none_waits
  exact List.find?_eq_none.mpr fun o ho waits => none_waits o ho (Bool.and_eq_true_iff.mp waits).1

theorem Dev.planeResume_resumes (op : d.pln.op = none) (fault : d.seqFault = false) (h : d.Resumes o) :
    d.planeResume = d.resumeOp o := by
  unfold Dev.planeResume
  simp only [op, fault, Option.isSome_none, Bool.or_self, Bool.false_eq_true, if_false]
  rcases h with resolved | ⟨free, first, found⟩
  · simp only [resolved]
  · simp only [Bool.and_assoc, Dev.find_faultSaved_of_not_held free, free, first, found, Bool.false_eq_true, if_false]

/-- The saved operation `o` leaves the list, and takes the sequencer as `o'`; its task runs. -/
def Dev.opResumed (d : Dev) (o o' : PlaneOp) : Dev :=
  ({ d.takeSaved o with pln := { (d.takeSaved o).pln with op := some o' } } : Dev).setTask o.slot o.task .running

theorem Dev.opResumed_regs (d : Dev) (o o' : PlaneOp) : (d.opResumed o o').regs = d.regs := rfl

theorem Dev.opResumed_mem (d : Dev) (o o' : PlaneOp) : (d.opResumed o o').mem = d.mem := rfl

theorem Dev.resumeOp_unchanged (h : d.needsRestart o = false) : d.resumeOp o = d.opResumed o o := by
  simp only [Dev.resumeOp, h, Bool.false_eq_true, if_false]
  rfl

/-- The operation that restarts from its first unit with the input `x`; its adapter term is kept (R91, R152). -/
def PlaneOp.restarted (o : PlaneOp) (x : List Nat × List Nat) : PlaneOp :=
  { o with elems := x.1, mxScales := x.2, started := false, unit := 0, codes := [], fired := [], passes := 1, passesDone := 0
           flags := 0 }

/-- A restart counted, with its status bit (R91). -/
def Dev.restartCounted (d : Dev) : Dev := (d.bump Off.plnRestarts).setBit Off.plnStatus 8

theorem Dev.reg_restartCounted (d : Dev) :
    d.restartCounted.reg Off.plnRestarts = min (d.reg Off.plnRestarts + 1) 0xFFFFFFFF := by
  rw [Dev.restartCounted, Dev.reg_setBit_other _ _ (by decide), Dev.reg_bump_same]

theorem Dev.restartCounted_mem (d : Dev) : d.restartCounted.mem = d.mem := by rw [Dev.restartCounted, Dev.setBit_mem, Dev.bump_mem]

theorem Dev.bitAt_restartCounted (d : Dev) : d.restartCounted.bitAt Off.plnStatus 8 = true :=
  Dev.bitAt_setBit_same _ _ (by decide)

theorem Dev.resumeOp_restarts {d' : Dev} {x : List Nat × List Nat} (h : d.needsRestart o = true)
    (input : d.readInput (d.reader 2 0 o.slot o.task) o.space o.body = (.ok x, d')) :
    d.resumeOp o = d'.restartCounted.opResumed o (o.restarted x) := by
  simp only [Dev.resumeOp, h, if_true, Dev.restartOp, input]
  rfl

end

/-! ## Tasks of the wide engine -/

section
variable {d : Dev} {x : WideTask}

/-- The task that the engine serves next is one of its tasks, is not saved, and meets the condition (R156). -/
theorem Dev.wideNext_spec {p : WideTask → Bool} (h : d.wideNext p = some x)
    (once : ∀ y ∈ d.wde.tasks, y.slot = x.slot → y.task = x.task → y = x) : x ∈ d.wde.tasks ∧ x.saved = false ∧ p x = true := by
  obtain ⟨k, first, found⟩ := Option.bind_eq_some_iff.mp h
  obtain ⟨y, candidate, rfl⟩ := List.mem_map.mp (Dev.firstTask_mem first)
  obtain ⟨there, may⟩ := List.mem_filter.mp candidate
  have named := List.find?_some found
  simp only [Bool.and_eq_true, decide_eq_true_eq, Bool.not_eq_true'] at named may
  obtain rfl := once y there named.1.symm named.2.symm
  exact ⟨there, may.1.1, may.2⟩

theorem find_of_once {l : List WideTask} (h : x ∈ l) (once : ∀ y ∈ l, y.slot = x.slot → y.task = x.task → y = x) :
    (l.find? fun t => decide (t.slot = x.slot) && decide (t.task = x.task)) = some x := by
  cases found : l.find? fun t => decide (t.slot = x.slot) && decide (t.task = x.task) with
  | none => simpa using List.find?_eq_none.mp found x h
  | some y =>
    have named := List.find?_some found
    simp only [Bool.and_eq_true, decide_eq_true_eq] at named
    rw [once y (List.mem_of_find?_eq_some found) named.1 named.2]

/-- The device once the filling tile of `x` is given up; the drain of its tree counts (R144). -/
def Dev.tileGivenUp (d : Dev) (x : WideTask) : Dev :=
  match d.filling x with
  | some i => (d.bumpWrap Off.wdeDrainWaits).setTile i none
  | none => d

/-- A task as it is saved, with its filling tile. -/
def WideTask.asSaved (o : Option OutTile) (t : WideTask) : WideTask := { t with saved := true, savedTile := o }

/-- A task as it resumes. -/
def WideTask.asResumed (t : WideTask) : WideTask := { t with saved := false, savedTile := none }

/-- A task that is not saved is saved with its filling tile (R157). -/
theorem Dev.saveWide_eq (found : (d.wde.tasks.find? fun t => decide (t.slot = x.slot) && decide (t.task = x.task)) = some x)
    (h : x.saved = false) :
    d.saveWide x.slot x.task =
      ((d.tileGivenUp x).modWide x.slot x.task (.asSaved ((d.filling x).bind d.outTile))).unmark x.slot x.task .saved := by
  simp only [Dev.saveWide, found, h, Bool.false_eq_true, if_false]
  rfl

@[simp] theorem Dev.setTile_tasks (d : Dev) (i : Nat) (o : Option OutTile) : (d.setTile i o).wde.tasks = d.wde.tasks := by
  unfold Dev.setTile
  split <;> rfl

@[simp] theorem Dev.setTile_grf (d : Dev) (i : Nat) (o : Option OutTile) : (d.setTile i o).grf = d.grf := by
  unfold Dev.setTile
  split <;> rfl

@[simp] theorem Dev.setTile_mem (d : Dev) (i : Nat) (o : Option OutTile) : (d.setTile i o).mem = d.mem := by
  unfold Dev.setTile
  split <;> rfl

@[simp] theorem Dev.setTile_regs (d : Dev) (i : Nat) (o : Option OutTile) : (d.setTile i o).regs = d.regs := by
  unfold Dev.setTile
  split <;> rfl

theorem Dev.outTile_setTile (d : Dev) (i : Nat) (o : Option OutTile) : (d.setTile i o).outTile i = o := by
  unfold Dev.setTile Dev.outTile
  split <;> rfl

@[simp] theorem Dev.tileGivenUp_tasks (d : Dev) (x : WideTask) : (d.tileGivenUp x).wde.tasks = d.wde.tasks := by
  unfold Dev.tileGivenUp
  split <;> simp

@[simp] theorem Dev.tileGivenUp_grf (d : Dev) (x : WideTask) : (d.tileGivenUp x).grf = d.grf := by
  unfold Dev.tileGivenUp
  split <;> simp

@[simp] theorem Dev.tileGivenUp_mem (d : Dev) (x : WideTask) : (d.tileGivenUp x).mem = d.mem := by
  unfold Dev.tileGivenUp
  split <;> simp

theorem Dev.tileGivenUp_filling {i : Nat} (h : d.filling x = some i) :
    (d.tileGivenUp x).outTile i = none ∧
      (d.tileGivenUp x).reg Off.wdeDrainWaits = (d.reg Off.wdeDrainWaits + 1) % 2 ^ 32 := by
  simp only [Dev.tileGivenUp, h]
  exact ⟨Dev.outTile_setTile _ _ _, by rw [Dev.reg_congr (Dev.setTile_regs _ _ _), Dev.reg_bumpWrap_same]⟩

theorem Dev.tileGivenUp_none (h : d.filling x = none) : d.tileGivenUp x = d := by simp only [Dev.tileGivenUp, h]

/-- A task of that name, once changed, is the change of a task of that name. -/
theorem Dev.mem_modWide {slot task : Nat} {f : WideTask → WideTask} {y : WideTask}
    (h : y ∈ (d.modWide slot task f).wde.tasks) (hs : y.slot = slot) (ht : y.task = task) :
    ∃ z ∈ d.wde.tasks, (z.slot = slot ∧ z.task = task) ∧ y = f z := by
  obtain ⟨z, there, rfl⟩ := List.mem_map.mp h
  by_cases named : z.slot = slot ∧ z.task = task
  · exact ⟨z, there, named, if_pos named⟩
  · rw [if_neg named] at hs ht
    exact absurd ⟨hs, ht⟩ named

/-- A saved task takes its tile back in a free place (R157). -/
def Dev.tileTakenBack (d : Dev) (o : OutTile) : Dev := d.setTile (if d.wde.tile0.isNone then 0 else 1) (some o)

theorem Dev.wideResume_held (h : d.wideFree = false) : d.wideResume = d := by
  simp only [Dev.wideResume, h, Bool.not_false, if_true]

theorem Dev.wideResume_eq {slot task : Nat} {o : OutTile} (free : d.wideFree = true)
    (first : d.firstTask ((d.wde.tasks.filter fun t => t.saved && d.canResume t.slot t.task).map fun t => (t.slot, t.task)) =
      some (slot, task))
    (found : (d.wde.tasks.find? fun t => decide (t.slot = slot) && decide (t.task = task)) = some x)
    (tile : x.savedTile = some o) (place : d.wde.tile0 = none ∨ d.wde.tile1 = none) :
    d.wideResume = ((d.tileTakenBack o).modWide slot task .asResumed).setTask slot task .running := by
  have room : (d.wde.tile0.isNone || d.wde.tile1.isNone) = true := by simpa using place
  simp only [Dev.wideResume, free, first, found, tile, room, Bool.not_true, Bool.and_false, Bool.false_eq_true, if_false]
  rfl

theorem Dev.tileTakenBack_place (d : Dev) (o : OutTile) :
    ((d.tileTakenBack o).wde.tile0 = some o ∨ (d.tileTakenBack o).wde.tile1 = some o) ∧
      ∀ p, d.wde.tile0 = some p → (d.tileTakenBack o).wde.tile0 = some p := by
  cases tile : d.wde.tile0 with
  | none => simp [Dev.tileTakenBack, Dev.setTile, tile]
  | some p => simp [Dev.tileTakenBack, Dev.setTile, tile]

end

end Sys2Proof.Machine

open Sys2Proof Sys2Proof.Machine in
/-- A plane operation leaves the sequencer whole and comes back whole, or restarts where a tile has changed. -/
theorem planeSavesAndResumes : Clause.PlaneSavesAndResumes := by
  refine ⟨fun s o op => ⟨fun leaves => ?_, fun unmarked goes prog => ?_⟩, fun s o op saved => ?_,
    fun s o op fault resumes => ?_⟩
  · rw [exec_planeSave, execPlaneSave, lift_eq]
    cases marked : s.dev.marked o.slot o.task with
    | true =>
      rw [Dev.planeSave_marked op marked]
      have there : (s.dev.opSaved o).HasTask o.slot o.task := (Dev.hasTask_of_marked marked).congr rfl
      exact ⟨_, rfl, rfl, fun _ _ _ => ⟨Dev.st_unmark there _, Dev.marked_unmark there _⟩, nofun, rfl⟩
    | false =>
      rw [Dev.planeSave_stopped op marked (leaves.resolve_left (by simp [marked]))]
      exact ⟨_, rfl, rfl, nofun, fun _ => rfl, rfl⟩
  · rw [exec_planeSave, execPlaneSave, lift_eq, Dev.planeSave_runs op unmarked goes prog]
  · rw [exec_planeSave, execPlaneSave, lift_eq, Dev.planeSave_preempted op saved]
    have marked : s.dev.marked o.slot o.task = true :=
      (Bool.and_eq_true_iff.mp (List.find?_some (p := fun o => s.dev.faultSaved o && s.dev.marked o.slot o.task) saved)).2
    exact ⟨_, rfl, rfl, Dev.st_unmark (Dev.hasTask_of_marked marked) _, rfl⟩
  · rw [exec_planeResume, execPlaneResume, lift_eq, Dev.planeResume_resumes op fault resumes]
    refine ⟨fun unchanged => ?_, fun changed x d input => ?_⟩
    · rw [Dev.resumeOp_unchanged unchanged]
      exact ⟨_, rfl, rfl, rfl⟩
    · rw [Dev.resumeOp_restarts changed input]
      exact ⟨_, o.restarted x, rfl, rfl, rfl, rfl, rfl, rfl, rfl, rfl, rfl,
        (Dev.reg_congr (Dev.opResumed_regs _ _ _) _).trans d.reg_restartCounted,
        (Dev.bitAt_congr (Dev.opResumed_regs _ _ _) _ _).trans d.bitAt_restartCounted,
        (Dev.opResumed_mem _ _ _).trans d.restartCounted_mem⟩

open Sys2Proof Sys2Proof.Machine in
/-- A task of the wide engine is saved with its filling tile, and takes it back in a free place. -/
theorem wideSavesAndResumes : Clause.WideSavesAndResumes := by
  refine ⟨fun s x next once => ?_, fun s => ⟨fun held => ?_, fun slot task x o free first found tile place => ?_⟩⟩
  · obtain ⟨there, unsaved, marked⟩ := Dev.wideNext_spec next once
    have saved : s.dev.wideSave = _ :=
      (congrArg (fun n : Option WideTask => match n with | none => s.dev | some t => s.dev.saveWide t.slot t.task) next).trans
        (Dev.saveWide_eq (find_of_once there once) unsaved)
    rw [exec_wideSave, execWideSave, lift_eq, saved]
    have task : ((s.dev.tileGivenUp x).modWide x.slot x.task (.asSaved ((s.dev.filling x).bind s.dev.outTile))).HasTask
        x.slot x.task := (Dev.hasTask_of_marked marked).congr (s.dev.tileGivenUp_grf x)
    refine ⟨_, rfl, Dev.marked_unmark task _, fun y hy hs ht => ?_, fun i filling => Dev.tileGivenUp_filling filling,
      fun empty => ?_, s.dev.tileGivenUp_mem x⟩
    · obtain ⟨z, hz, ⟨zs, zt⟩, rfl⟩ := Dev.mem_modWide hy hs ht
      rw [Dev.tileGivenUp_tasks] at hz
      rw [once z hz zs zt]
      rfl
    · show (s.dev.tileGivenUp x).regs = s.dev.regs
      rw [Dev.tileGivenUp_none empty]
  · rw [exec_wideResume, execWideResume, lift_eq, Dev.wideResume_held held]
  · rw [exec_wideResume, execWideResume, lift_eq, Dev.wideResume_eq free first found tile place]
    obtain ⟨back, kept⟩ := s.dev.tileTakenBack_place o
    refine ⟨_, rfl, back, kept, fun y hy hs ht => ?_, s.dev.setTile_mem _ _, s.dev.setTile_regs _ _⟩
    obtain ⟨z, -, -, rfl⟩ := Dev.mem_modWide hy hs ht
    exact ⟨rfl, rfl⟩

/-- Settles O34: plane operations and tasks of the wide engine, each saved and resumed. -/
theorem savesAndResumes : Obligations.SavesAndResumes := ⟨planeSavesAndResumes, wideSavesAndResumes⟩

end

section
/-! PROOFS. Plane operations: how one starts, and what it latches (R72-R74, R80-R84, R90, R118, R162, R282). -/

namespace Sys2Proof.Machine

/-! ## Outcomes of checks -/

theorem Dev.act_ok {α : Type} {x : Chk α × Dev} {a : α} {d : Dev} (h : x = (.ok a, d)) (cls index slot task space : Nat)
    (k : α → Dev → Dev) : Dev.act x cls index slot task space k = k a d := by rw [h]; rfl

theorem Dev.act_reject {α : Type} {x : Chk α × Dev} {st : Nat} {d : Dev} (h : x = (.reject st, d))
    (cls index slot task space : Nat) (k : α → Dev → Dev) : Dev.act x cls index slot task space k = d.rejectTask slot st := by
  rw [h]; rfl

theorem Chk.thn_ok {α β : Type} {x : Chk α × Dev} {a : α} {d : Dev} (h : x = (.ok a, d)) (k : α → Dev → Chk β × Dev) :
    Chk.thn x k = k a d := by rw [h]; rfl

theorem Chk.thn_reject {α β : Type} {x : Chk α × Dev} {st : Nat} {d : Dev} (h : x = (.reject st, d))
    (k : α → Dev → Chk β × Dev) : Chk.thn x k = (.reject st, d) := by rw [h]; rfl

/-! ## An operation starts -/

theorem Dev.looked_checkOp (d : Dev) (r : Reader) (slot task space : Nat) : d.Looked (d.checkOp r slot task space).2 :=
  .thn (d.looked_readBody _ _ _) fun _ e => .thn (Dev.looked_checkPlane _ e) fun _ e => .thn (e.looked_loadList _ _ _)
    fun _ e => .thn (e.looked_checkTiles _ _) fun _ e => .thn (e.looked_loadEpi _ _ _ _ _ _) fun _ e => Dev.looked_tests _ _ e

theorem Dev.looked_readInput (d : Dev) (r : Reader) (space : Nat) (b : PlaneBody) : d.Looked (d.readInput r space b).2 :=
  .thn (.chk (d.looked_readVa _ _ _ _)) fun _ e => e.looked_drawBytes _

/-- The operation that starts with this body, list and input. -/
def PlaneOp.starting (slot task space : Nat) (body : PlaneBody) (entries : List TileEntry) (noAdapter : Bool)
    (input : List Nat × List Nat) : PlaneOp :=
  { slot := slot, task := task, space := space, body := body, entries := entries, elems := input.1, mxScales := input.2
    y := if noAdapter then some [] else none }

/-- The operation takes the sequencer, and its task runs. -/
def Dev.opStarted (d : Dev) (o : PlaneOp) : Dev :=
  ({ d with pln := { d.pln with op := some o } } : Dev).setTask o.slot o.task .running

theorem Dev.st_opStarted {d : Dev} {o : PlaneOp} (h : d.HasTask o.slot o.task) :
    ((d.opStarted o).taskRun o.slot o.task).st = .running := Dev.st_setTask (h.congr rfl) _

section
variable {d : Dev} {tr : Bool} {slot task : Nat}

theorem Dev.startPlane_waits (h : d.pln.op.isSome = true ∨ d.seqHeld = true) : d.startPlane tr = d :=
  if_pos (Bool.or_eq_true_iff.mpr h)

variable (op : d.pln.op = none) (free : d.seqHeld = false)
  (issued : d.issuedWhere 1 (fun k => decide (k % 16 ≠ 3) && (decide (k % 16 = 2) == tr)) = some (slot, task))
include op free issued

/-- The first issued task of the kind is checked, and its input read. -/
theorem Dev.startPlane_issued :
    d.startPlane tr = Dev.act
      (Chk.thn (d.checkOp (d.reader 2 0 slot task) slot task (d.slot slot).space) fun x d' =>
        Chk.thn (d'.readInput (d.reader 2 0 slot task) (d.slot slot).space x.1) fun y d' => (.ok (x, y), d'))
      2 0 slot task (d.slot slot).space fun x d' =>
        d'.opStarted (.starting slot task (d.slot slot).space x.1.1 x.1.2.1 x.1.2.2 x.2) := by
  simp only [Dev.startPlane, op, free, issued, Option.isSome_none, Bool.or_self, Bool.false_eq_true, if_false]
  rfl

theorem Dev.startPlane_rejects {st : Nat} {d' : Dev}
    (checked : d.checkOp (d.reader 2 0 slot task) slot task (d.slot slot).space = (.reject st, d')) :
    d.startPlane tr = d'.rejectTask slot st := by
  rw [Dev.startPlane_issued op free issued]
  exact Dev.act_reject (Chk.thn_reject checked _) _ _ _ _ _ _

theorem Dev.startPlane_starts {b : PlaneBody} {es : List TileEntry} {noAdapter : Bool} {input : List Nat × List Nat}
    {d' d1 : Dev} (checked : d.checkOp (d.reader 2 0 slot task) slot task (d.slot slot).space = (.ok (b, es, noAdapter), d'))
    (read : d'.readInput (d.reader 2 0 slot task) (d.slot slot).space b = (.ok input, d1)) :
    d.startPlane tr = d1.opStarted (.starting slot task (d.slot slot).space b es noAdapter input) := by
  rw [Dev.startPlane_issued op free issued]
  refine Dev.act_ok (a := ((b, es, noAdapter), input)) ?_ _ _ _ _ _ _
  rw [Chk.thn_ok checked]
  exact Chk.thn_ok read _

end

/-! ## Range codes and phases -/

/-- The largest range code that holds a bound, else 0 (R73, R74). -/
theorem rangeOf_spec (x : Nat) :
    rangeOf x ≤ 3 ∧ (0 < rangeOf x → x ≤ fullScale (rangeOf x)) ∧ ∀ k ≤ 3, rangeOf x < k → fullScale k < x := by
  have scales : fullScale 3 = 7168 ∧ fullScale 2 = 14336 ∧ fullScale 1 = 28672 := by decide
  obtain ⟨s3, s2, s1⟩ := scales
  by_cases h3 : x ≤ fullScale 3
  · have r : rangeOf x = 3 := by simp [rangeOf, h3]
    rw [r]
    exact ⟨by omega, fun _ => h3, fun k hk hlt => by omega⟩
  by_cases h2 : x ≤ fullScale 2
  · have r : rangeOf x = 2 := by simp [rangeOf, h3, h2]
    rw [r]
    refine ⟨by omega, fun _ => h2, fun k hk hlt => ?_⟩
    obtain rfl : k = 3 := by omega
    omega
  by_cases h1 : x ≤ fullScale 1
  · have r : rangeOf x = 1 := by simp [rangeOf, h3, h2, h1]
    rw [r]
    refine ⟨by omega, fun _ => h1, fun k hk hlt => ?_⟩
    obtain rfl | rfl : k = 2 ∨ k = 3 := by omega
    · omega
    · omega
  · have r : rangeOf x = 0 := by simp [rangeOf, h3, h2, h1]
    rw [r]
    refine ⟨by omega, fun pos => absurd pos (Nat.lt_irrefl 0), fun k hk hlt => ?_⟩
    obtain rfl | rfl | rfl : k = 1 ∨ k = 2 ∨ k = 3 := by omega
    · omega
    · omega
    · omega

/-- Every bound of a split is at most the full scale of range 0. -/
def Dev.splitFits (d : Dev) (o : PlaneOp) (p : Nat) : Bool := (d.opBounds o p).all fun x => decide (x ≤ 57344)

theorem Dev.splitFits_iff {d : Dev} {o : PlaneOp} {p : Nat} : d.splitFits o p = true ↔ ∀ x ∈ d.opBounds o p, x ≤ 57344 := by
  simp only [Dev.splitFits, List.all_eq_true, decide_eq_true_eq]

theorem Dev.not_splitFits_iff {d : Dev} {o : PlaneOp} {p : Nat} :
    d.splitFits o p = false ↔ ∃ x ∈ d.opBounds o p, 57344 < x := by
  simp only [Dev.splitFits, List.all_eq_false, decide_eq_true_eq, Nat.not_le]

/-- The phases of an operation that forces none: the first split that fits, else the last one there is (R72, R88). -/
theorem Dev.opPhases_spec (d : Dev) {o : PlaneOp} (h : o.body.forced = 0) :
    let last := if o.body.transposed then 2 else 4
    1 ≤ d.opPhases o ∧ d.opPhases o ≤ last ∧ (∀ p, 1 ≤ p → p < d.opPhases o → d.splitFits o p = false) ∧
      (d.opPhases o < last → d.splitFits o (d.opPhases o) = true) := by
  have phases : d.opPhases o = if d.splitFits o 1 then 1 else if o.body.transposed then 2 else if d.splitFits o 2 then 2
      else if d.splitFits o 3 then 3 else 4 := by
    simp only [Dev.opPhases, h, ne_eq, not_true_eq_false, if_false]
    rfl
  intro last
  cases f1 : d.splitFits o 1 with
  | true =>
    have one : d.opPhases o = 1 := by rw [phases, f1, if_pos rfl]
    rw [one]
    exact ⟨by omega, by simp only [last]; split <;> omega, fun p _ _ => by omega, fun _ => f1⟩
  | false =>
    have upTo1 {p : Nat} (lo : 1 ≤ p) (hi : p < 2) : d.splitFits o p = false := by
      obtain rfl : p = 1 := by omega
      exact f1
    cases tr : o.body.transposed with
    | true =>
      have two : d.opPhases o = 2 := by simp [phases, f1, tr]
      simp only [two, last, tr, if_true]
      exact ⟨by omega, by omega, fun p => upTo1, fun lt => absurd lt (Nat.lt_irrefl 2)⟩
    | false =>
      have four : last = 4 := by simp [last, tr]
      rw [four]
      cases f2 : d.splitFits o 2 with
      | true =>
        have two : d.opPhases o = 2 := by simp [phases, f1, tr, f2]
        rw [two]
        exact ⟨by omega, by omega, fun p => upTo1, fun _ => f2⟩
      | false =>
        have upTo2 {p : Nat} (lo : 1 ≤ p) (hi : p < 3) : d.splitFits o p = false := by
          obtain rfl | rfl : p = 1 ∨ p = 2 := by omega
          · exact f1
          · exact f2
        cases f3 : d.splitFits o 3 with
        | true =>
          have three : d.opPhases o = 3 := by simp [phases, f1, tr, f2, f3]
          rw [three]
          exact ⟨by omega, by omega, fun p => upTo2, fun _ => f3⟩
        | false =>
          have all : d.opPhases o = 4 := by simp [phases, f1, tr, f2, f3]
          rw [all]
          refine ⟨by omega, by omega, fun p lo hi => ?_, fun lt => absurd lt (Nat.lt_irrefl 4)⟩
          obtain lt | rfl : p < 3 ∨ p = 3 := by omega
          · exact upTo2 lo lt
          · exact f3

/-! ## Groups -/

/-- The entries of a group, where its cap would part a pair of slices or not (R81; log entry 32). -/
def groupSize (cap : Nat) (parts : Bool) : Nat := if parts then (if cap ≤ 1 then 2 else cap - 1) else cap

theorem groupSize_pos {cap : Nat} (h : 1 ≤ cap) (parts : Bool) : 1 ≤ groupSize cap parts := by
  cases parts with
  | false => exact h
  | true =>
    show 1 ≤ if cap ≤ 1 then 2 else cap - 1
    split <;> omega

theorem groupSize_le (cap : Nat) (parts : Bool) : groupSize cap parts ≤ max cap 2 := by
  cases parts with
  | false => exact Nat.le_max_left _ _
  | true =>
    show (if cap ≤ 1 then 2 else cap - 1) ≤ max cap 2
    split <;> omega

theorem formGroups_cons (cap n : Nat) (a : Nat × TileEntry) (l : List (Nat × TileEntry)) :
    ∃ parts, formGroups cap (n + 1) (a :: l) =
      ((a :: l).take (groupSize cap parts)).map (·.1) :: formGroups cap n ((a :: l).drop (groupSize cap parts)) :=
  ⟨_, rfl⟩

/-- Groups cover the list in its order, and none is above the cap but for a pair of slices. -/
theorem formGroups_spec {cap : Nat} (pos : 1 ≤ cap) (n : Nat) (l : List (Nat × TileEntry)) (fuel : l.length ≤ n) :
    (formGroups cap n l).flatten = l.map (·.1) ∧ ∀ g ∈ formGroups cap n l, g.length ≤ max cap 2 := by
  induction n generalizing l with
  | zero =>
    obtain rfl := List.length_eq_zero_iff.mp (Nat.le_zero.mp fuel)
    exact ⟨rfl, nofun⟩
  | succ n ih =>
    cases l with
    | nil => exact ⟨rfl, nofun⟩
    | cons a l =>
      obtain ⟨parts, first⟩ := formGroups_cons cap n a l
      have shorter : ((a :: l).drop (groupSize cap parts)).length ≤ n := by
        have := groupSize_pos pos parts
        rw [List.length_drop]
        omega
      obtain ⟨covers, bounded⟩ := ih _ shorter
      rw [first]
      refine ⟨?_, List.forall_mem_cons.mpr ⟨?_, bounded⟩⟩
      · rw [List.flatten_cons, covers, ← List.map_append, List.take_append_drop]
      · rw [List.length_map, List.length_take]
        exact (Nat.min_le_left _ _).trans (groupSize_le cap parts)

/-! ## Latching -/

section
variable {d : Dev} {r : Reader} {o : PlaneOp}

theorem Dev.latchOp_reference (h : d.bitAt Off.curCtrl 7 = true) : d.latchOp r o = (.ok (d.latchSettings o), d) := by
  simp only [Dev.latchOp, h, if_true]
  rfl

theorem Dev.latchOp_read {d' : Dev} {u : Unit} (h : d.bitAt Off.curCtrl 7 = false) (read : d.readStats r o = (.ok u, d')) :
    d.latchOp r o = (.ok (d'.latchSettings o), d') := by
  simp only [Dev.latchOp, h, Bool.false_eq_true, if_false]
  exact Chk.thn_ok read _

/-- The bounds of an operation depend on its body, its list and its drive alone. -/
theorem Dev.opBounds_congr {o' : PlaneOp} (body : o'.body = o.body) (entries : o'.entries = o.entries)
    (drive : o'.drive = o.drive) : d.opBounds o' = d.opBounds o := by
  funext p
  simp only [Dev.opBounds, PlaneOp.levels, PlaneOp.blockIdx, body, entries, drive]

theorem Dev.opPhases_congr {o' : PlaneOp} (body : o'.body = o.body) (bounds : d.opBounds o' = d.opBounds o) :
    d.opPhases o' = d.opPhases o := by simp only [Dev.opPhases, body, bounds]

/-- What the settings are before phases and ranges. -/
def Dev.drawnUp (d : Dev) (o : PlaneOp) : PlaneOp := { (d.latchSettings o).1 with phases := o.phases, ranges := o.ranges }

theorem Dev.latched_bounds : d.opBounds (d.latchSettings o).1 = d.opBounds (d.drawnUp o) :=
  Dev.opBounds_congr rfl rfl rfl

theorem Dev.latched_phases :
    (d.latchSettings o).1.phases = if d.bitAt Off.curCtrl 7 then 1 else d.opPhases (d.latchSettings o).1 := by
  rw [Dev.opPhases_congr (o := d.drawnUp o) (o' := (d.latchSettings o).1) rfl Dev.latched_bounds]
  rfl

theorem Dev.latched_ranges (h : d.bitAt Off.curCtrl 7 = false) :
    (d.latchSettings o).1.ranges = (d.opBounds (d.latchSettings o).1 (d.latchSettings o).1.phases).map rangeOf := by
  rw [Dev.latched_bounds]
  exact (if_neg (by rw [h]; exact Bool.false_ne_true))

end

theorem Dev.latched_groups (d : Dev) (o : PlaneOp) (pos : 1 ≤ (d.latchSettings o).1.cap) :
    (d.latchSettings o).1.groups.flatten = List.range o.entries.length ∧
      ∀ g ∈ (d.latchSettings o).1.groups, g.length ≤ max (d.latchSettings o).1.cap 2 := by
  obtain ⟨covers, bounded⟩ := formGroups_spec pos (o.entries.length + 1) (o.entries.zipIdx.map fun e => (e.2, e.1)) (by simp)
  refine ⟨covers.trans ?_, bounded⟩
  rw [List.map_map]
  exact (List.zipIdx_map_snd 0 o.entries).trans List.range_eq_range'.symm

end Sys2Proof.Machine

open Sys2Proof Sys2Proof.Machine in
/-- A plane operation starts once its checks pass and its input is read. -/
theorem operationsStart : Clause.OperationsStart := by
  intro s tr c
  have acts : exec c s = .next { s with dev := s.dev.startPlane tr } := by cases tr <;> rfl
  rw [acts]
  refine ⟨fun held => ?_, fun op free slot task issued => ⟨fun st d rejected => ?_,
    fun b es noAdapter d elems scales d1 checked read => ?_⟩⟩
  · rw [Dev.startPlane_waits held]
  · rw [Dev.startPlane_rejects op free issued rejected]
  · rw [Dev.startPlane_starts op free issued checked read]
    have looked : s.dev.Looked d1 := by
      have body := s.dev.looked_checkOp (s.dev.reader 2 0 slot task) slot task (s.dev.slot slot).space
      have input := d.looked_readInput (s.dev.reader 2 0 slot task) (s.dev.slot slot).space b
      rw [checked] at body
      rw [read] at input
      exact body.trans input
    have there := (Dev.hasTask_of_issued issued).congr looked.grf
    let o : PlaneOp := .starting slot task (s.dev.slot slot).space b es noAdapter (elems, scales)
    exact ⟨_, o, rfl, rfl, rfl, rfl, rfl, rfl, rfl, rfl, rfl, rfl, rfl, rfl, rfl, Dev.st_opStarted (o := o) there, rfl, rfl, rfl,
      rfl⟩

open Sys2Proof Sys2Proof.Machine in
/-- What an operation latches, setting by setting. -/
theorem operationsLatchTheirSettings : Clause.OperationsLatchTheirSettings := by
  refine ⟨fun d d1 r o u => ⟨Dev.latchOp_reference, Dev.latchOp_read⟩, fun d o => ?_, rangeOf_spec⟩
  refine ⟨rfl, rfl, rfl, d.latched_groups o, fun i e entry => ?_, fun ref => ?_, fun plain forced => ?_, fun plain free => ?_,
    fun plain i x bound => ?_⟩
  · exact (List.getElem?_map ..).trans (by rw [entry]; rfl)
  · rw [Dev.latched_phases, if_pos ref]
  · rw [Dev.latched_phases, plain]
    exact if_pos forced
  · have phases : (d.latchSettings o).1.phases = d.opPhases (d.latchSettings o).1 := by
      rw [Dev.latched_phases, plain]
      rfl
    obtain ⟨least, most, skipped, fits⟩ := d.opPhases_spec (o := (d.latchSettings o).1) free
    rw [← phases] at least most skipped fits
    exact ⟨least, most, fun p lo hi => Dev.not_splitFits_iff.mp (skipped p lo hi), fun lt => Dev.splitFits_iff.mp (fits lt)⟩
  · rw [Dev.latched_ranges plain, List.getElem?_map, bound]
    rfl

/-- Settles O24: how a plane operation starts, and what it latches. -/
theorem planeOperationsStart : Obligations.PlaneOperationsStart := ⟨operationsStart, operationsLatchTheirSettings⟩

end

section
/-! PROOFS. Step units: which codes a unit delivers, and where it leaves its operation (R67-R69, R76-R80, R90, R102, R118, R126,
R400). -/

namespace Sys2Proof.Machine

/-! ## Codes -/

/-- A code lies in the converter's range (R68). -/
theorem codeOf_range (trims : List Int) (draw idx lsb bound : Nat) (s : Int) :
    -128 ≤ codeOf trims draw idx lsb bound s ∧ codeOf trims draw idx lsb bound s ≤ 127 :=
  ⟨Int.le_max_left _ _, Int.max_le.mpr ⟨by decide, Int.min_le_left _ _⟩⟩

/-- The codes of an entry's tile `p` for a phase and a shot, with the draw of the noise `draw`: those of its exact sums, with the
latched bank, in its range (R68, R102, R161). -/
def Dev.tileCodes (d : Dev) (o : PlaneOp) (i shot phase p draw : Nat) : List Int :=
  let lsb := lsbOf (o.ranges.getD i 0)
  (phaseSums (d.phys p) o.body.transposed ((phaseSets o.body.transposed o.phases).getD phase [])
    (o.levels (o.entries.getD i {}) shot)).zipIdx.map fun x =>
      codeOf (trimImage (o.banks.getD i {})) draw x.2 lsb
        (systematicBound (d.phys p).grade lsb x.1 ((d.phys p).ages d.now (d.dieTemp (dieOf p)))) x.1

theorem Dev.tileCodes_range {d : Dev} {o : PlaneOp} {i shot phase p draw : Nat} {q : Int}
    (h : q ∈ d.tileCodes o i shot phase p draw) : -128 ≤ q ∧ q ≤ 127 := by
  obtain ⟨x, -, rfl⟩ := List.mem_map.mp h
  exact codeOf_range _ _ _ _ _ _

/-- The record is one that a unit of the group and shot delivers: its entry fires, and its codes are those of its tile. -/
def Dev.Delivers (d : Dev) (o : PlaneOp) (group : List Nat) (shot : Nat) (c : CodeRec) : Prop :=
  c.entry ∈ group ∧ c.shot = shot ∧ o.fires.getD c.entry false = true ∧
    ∃ p draw, (d.log (o.entries.getD c.entry {}).logical).bind (·.phys) = some p ∧
      c.codes = d.tileCodes o c.entry shot c.phase p draw

/-- Tiles, the time and the temperatures of the dies decide which codes a unit delivers. -/
theorem Dev.Delivers.congr {d d' : Dev} {o : PlaneOp} {group : List Nat} {shot : Nat} {c : CodeRec}
    (h : d.Delivers o group shot c) (pln : d'.pln = d.pln) (now : d'.now = d.now) (temp : ∀ n, d'.dieTemp n = d.dieTemp n) :
    d'.Delivers o group shot c := by
  unfold Dev.Delivers Dev.tileCodes at *
  simpa only [Dev.log_congr pln, Dev.phys_congr pln, now, temp] using h

/-- What firing has gathered so far: records that a unit delivers, and a device that differs in the draws taken alone. -/
def Dev.Gathered (d : Dev) (o : PlaneOp) (group : List Nat) (shot : Nat) (cs : List CodeRec) (d' : Dev) : Prop :=
  (∀ c ∈ cs, d.Delivers o group shot c) ∧ ∃ n, d' = { d with fresh := n }

/-- An entry of a unit's group fires in a phase: where a tile serves it that fires and whose drive levels are not all 0 (R77). -/
def Dev.fireEntry (d : Dev) (o : PlaneOp) (shot : Nat) (ph : List Nat × Nat) (y : List CodeRec × Nat × Dev) (i : Nat) :
    List CodeRec × Nat × Dev :=
  let e := o.entries.getD i {}
  match (d.log e.logical).bind (·.phys) with
  | none => y
  | some p =>
    if !o.fires.getD i false then y
    else
      let lv := o.levels e shot
      if zeroSlice ph.1 lv then (y.1, y.2.1 + 1, y.2.2)
      else
        let x := y.2.2.fireTile p (o.banks.getD i {}) o.body.transposed (o.ranges.getD i 0) ph.1 lv i shot ph.2
        (y.1 ++ [x.1], y.2.1, x.2)

/-- A unit's group fires in a phase (R79). -/
def Dev.firePhase (d : Dev) (o : PlaneOp) (group : List Nat) (shot : Nat) (x : List CodeRec × Nat × Nat × Dev)
    (ph : List Nat × Nat) : List CodeRec × Nat × Nat × Dev :=
  let y := group.foldl (d.fireEntry o shot ph) ([], 0, x.2.2.2)
  (x.1 ++ y.1, x.2.1 + (if y.1 = [] then 0 else if o.body.transposed then 2 else 1), x.2.2.1 + y.2.1, y.2.2)

theorem Dev.fireUnit_eq (d : Dev) (o : PlaneOp) (group : List Nat) (shot : Nat) :
    d.fireUnit o group shot = (phaseSets o.body.transposed o.phases).zipIdx.foldl (d.firePhase o group shot) ([], 0, 0, d) := rfl

section
variable {d : Dev} {o : PlaneOp} {group : List Nat} {shot : Nat}

/-- One more entry of the group adds at most its record. -/
theorem Dev.Gathered.entry {y : List CodeRec × Nat × Dev} (h : d.Gathered o group shot y.1 y.2.2) {ph : List Nat × Nat}
    (phase : (phaseSets o.body.transposed o.phases).getD ph.2 [] = ph.1) {i : Nat} (mem : i ∈ group) :
    d.Gathered o group shot (d.fireEntry o shot ph y i).1 (d.fireEntry o shot ph y i).2.2 := by
  unfold Dev.fireEntry
  dsimp only
  split
  · exact h
  next p served =>
  split
  · exact h
  next fires =>
  split
  · exact h
  · obtain ⟨delivered, n, same⟩ := h
    have fires : o.fires.getD i false = true := by simpa using fires
    rw [← phase, same]
    exact ⟨List.forall_mem_append.mpr ⟨delivered, List.forall_mem_singleton.mpr ⟨mem, rfl, fires, p, n, served, rfl⟩⟩, _, rfl⟩

/-- A unit delivers records of its group and shot, and takes draws (R79). -/
theorem Dev.fireUnit_gathered (d : Dev) (o : PlaneOp) (group : List Nat) (shot : Nat) :
    d.Gathered o group shot (d.fireUnit o group shot).1 (d.fireUnit o group shot).2.2.2 := by
  rw [Dev.fireUnit_eq]
  refine List.foldlRecOn (motive := fun x : List CodeRec × Nat × Nat × Dev => d.Gathered o group shot x.1 x.2.2.2) _ _
    ⟨fun _ none => absurd none List.not_mem_nil, _, rfl⟩ fun x before ph mem => ?_
  have phase : (phaseSets o.body.transposed o.phases).getD ph.2 [] = ph.1 := by
    rw [List.getD_eq_getElem?_getD, List.mem_zipIdx_iff_getElem?.mp mem, Option.getD_some]
  have fired := List.foldlRecOn (motive := fun y : List CodeRec × Nat × Dev => d.Gathered o group shot y.1 y.2.2) group (d.fireEntry o shot ph)
    (b := ([], 0, x.2.2.2)) ⟨fun _ none => absurd none List.not_mem_nil, before.2⟩ fun y gathered i mem => gathered.entry phase mem
  exact ⟨List.forall_mem_append.mpr ⟨before.1, fired.1⟩, fired.2⟩

end

/-! ## A unit and its counts -/

@[simp] theorem Dev.countFlag_pln (d : Dev) (status b counter n : Nat) : (d.countFlag status b counter n).pln = d.pln := by
  unfold Dev.countFlag
  split <;> simp

@[simp] theorem Dev.countFlag_mem (d : Dev) (status b counter n : Nat) : (d.countFlag status b counter n).mem = d.mem := by
  unfold Dev.countFlag
  split <;> simp

@[simp] theorem Dev.edge_pln (d : Dev) (status : Nat) (c : EdgeCount) : (d.edge status c).pln = d.pln := by simp [Dev.edge]

/-- What the next unit of an operation delivers, with its array steps and skipped firings. -/
def Dev.unitFires (d : Dev) (o : PlaneOp) : List CodeRec × Nat × Nat × Dev :=
  (d.setFld Off.plnFiringCap 26 16 o.cap).fireUnit o (o.groups.getD (o.unit / shotsOf o.body.dfmt) [])
    (o.unit % shotsOf o.body.dfmt)

/-- The cap in force, seen in PLN_FIRING_CAP, is none of the sensors that give a die's temperature. -/
theorem Dev.dieTemp_setCap (d : Dev) (cap die : Nat) : (d.setFld Off.plnFiringCap 26 16 cap).dieTemp die = d.dieTemp die := by
  have apart (b : Nat) : Off.thmSensor + 4 * (24 + 8 * die + b) ≠ Off.plnFiringCap := by
    have sensor : Off.thmSensor = 0x100100 := rfl
    have firing : Off.plnFiringCap = 0x10008 := rfl
    omega
  simp only [Dev.dieTemp, Dev.fld_setFld_other _ _ _ _ _ _ (apart _)]

theorem Dev.unitFires_delivers {d : Dev} {o : PlaneOp} : ∀ c ∈ (d.unitFires o).1,
    d.Delivers o (o.groups.getD (o.unit / shotsOf o.body.dfmt) []) (o.unit % shotsOf o.body.dfmt) c :=
  fun c mem => ((Dev.fireUnit_gathered _ o _ _).1 c mem).congr (d.setFld_pln _ _ _ _).symm (d.setFld_now _ _ _ _).symm
    fun n => (d.dieTemp_setCap _ n).symm

theorem Dev.unitFires_dev (d : Dev) (o : PlaneOp) :
    (d.unitFires o).2.2.2.pln = d.pln ∧ (d.unitFires o).2.2.2.mem = d.mem := by
  obtain ⟨-, n, same⟩ := Dev.fireUnit_gathered (d.setFld Off.plnFiringCap 26 16 o.cap) o
    (o.groups.getD (o.unit / shotsOf o.body.dfmt) []) (o.unit % shotsOf o.body.dfmt)
  rw [Dev.unitFires, same]
  exact ⟨d.setFld_pln Off.plnFiringCap 26 16 o.cap, d.setFld_mem Off.plnFiringCap 26 16 o.cap⟩

/-- A code of the unit is of a tile of Coarse grade. -/
def Dev.unitCoarse (d : Dev) (o : PlaneOp) (cs : List CodeRec) : Bool :=
  cs.any fun c =>
    match (d.log (o.entries.getD c.entry {}).logical).bind (·.phys) with
    | some p => decide ((d.phys p).grade = 1)
    | none => false

/-- The counts of array steps, skipped firings and saturated codes. -/
def Dev.unitCounted (d : Dev) (o : PlaneOp) : Dev :=
  let x := d.unitFires o
  (((x.2.2.2.bump64 Off.plnStepsLo x.2.1).bumpWrap Off.plnZeroSkips x.2.2.1).countFlag Off.plnStatus 4
    Off.plnSaturatedColumns ((x.1.map fun c => (c.codes.filter saturated).length).sum))

/-- The largest number of parked terms, kept (R142). -/
def Dev.peakKept (d : Dev) (o : PlaneOp) : Dev :=
  let parked := parkedAt o.body o.entries
    ((o.groups.take ((o.unit + 1) / shotsOf o.body.dfmt)).map (·.length)).sum
  d.setFld Off.wdeTermPeak 15 0 (max (d.fld Off.wdeTermPeak 15 0) (min parked 0xFFFF))

/-- The operation after its next unit. -/
def Dev.unitDone (d : Dev) (o : PlaneOp) : PlaneOp :=
  let cs := (d.unitFires o).1
  { o with codes := o.codes ++ cs, unit := o.unit + 1
           fired := (o.fired ++ cs.map (·.entry)).dedup
           flags := o.flags ||| (if (d.unitCounted o).unitCoarse o cs then qCoarse else 0) }

theorem Dev.runUnit_eq (d : Dev) (o : PlaneOp) :
    d.runUnit o =
      let e := (d.unitCounted o).peakKept o
      if o.unit + 1 < o.groups.length * shotsOf o.body.dfmt then { e with pln := { e.pln with op := some (d.unitDone o) } }
      else { e with pln := { e.pln with op := none, tails := e.pln.tails ++ [d.unitDone o] } } := rfl

theorem Dev.unitCounted_pln (d : Dev) (o : PlaneOp) : ((d.unitCounted o).peakKept o).pln = d.pln := by
  simp [Dev.peakKept, Dev.unitCounted, (d.unitFires_dev o).1]

theorem Dev.unitCounted_mem (d : Dev) (o : PlaneOp) : ((d.unitCounted o).peakKept o).mem = d.mem := by
  simp [Dev.peakKept, Dev.unitCounted, (d.unitFires_dev o).2]

/-- Where a unit leaves its operation: with the sequencer while units are left, and in its tail after the last (R79, R119). -/
structure Dev.UnitRan (d : Dev) (o o' : PlaneOp) (d' : Dev) : Prop where
  on : o.unit + 1 < o.groups.length * shotsOf o.body.dfmt → d'.pln = { d.pln with op := some o' }
  off : o.groups.length * shotsOf o.body.dfmt ≤ o.unit + 1 → d'.pln = { d.pln with op := none, tails := d.pln.tails ++ [o'] }
  mem : d'.mem = d.mem

theorem Dev.runUnit_ran (d : Dev) (o : PlaneOp) : d.UnitRan o (d.unitDone o) (d.runUnit o) := by
  rw [Dev.runUnit_eq]
  refine ⟨fun more => ?_, fun last => ?_, ?_⟩
  · rw [if_pos more, ← d.unitCounted_pln o]
  · rw [if_neg (Nat.not_lt.mpr last), ← d.unitCounted_pln o]
  · rw [← d.unitCounted_mem o]
    split <;> rfl

namespace Dev.UnitRan
variable {d d' : Dev} {o o' : PlaneOp} (h : d.UnitRan o o' d')
include h

theorem place : d'.pln.op = some o' ∨ d'.pln.op = none ∧ d'.pln.tails = d.pln.tails ++ [o'] := by
  rcases Nat.lt_or_ge (o.unit + 1) (o.groups.length * shotsOf o.body.dfmt) with more | last
  · exact .inl (by rw [h.on more])
  · exact .inr (by rw [h.off last]; exact ⟨rfl, rfl⟩)

theorem tiles : d'.pln.phys = d.pln.phys ∧ d'.pln.saved = d.pln.saved := by
  rcases Nat.lt_or_ge (o.unit + 1) (o.groups.length * shotsOf o.body.dfmt) with more | last
  · rw [h.on more]
    exact ⟨rfl, rfl⟩
  · rw [h.off last]
    exact ⟨rfl, rfl⟩

end Dev.UnitRan

/-! ## The first unit -/

theorem Chk.ok_of_thn {α β : Type} {x : Chk α × Dev} {k : α → Dev → Chk β × Dev} {b : β} {d : Dev}
    (h : Chk.thn x k = (.ok b, d)) : ∃ a e, x = (.ok a, e) ∧ k a e = (.ok b, d) := by
  obtain ⟨c, e⟩ := x
  cases c with
  | ok a => exact ⟨a, e, rfl, h⟩
  | reject | fault | bad => cases h

/-- Whatever is latched comes of the operation's settings as the statistics leave them. -/
theorem Dev.latchOp_settings {d d' : Dev} {r : Reader} {o : PlaneOp} {x : PlaneOp × EdgeCount}
    (h : d.latchOp r o = (.ok x, d')) : x = d'.latchSettings o := by
  obtain ⟨u, e, -, settings⟩ := Chk.ok_of_thn h
  cases settings
  rfl

/-- An operation that has latched, with its flags (R116, R118). -/
def PlaneOp.begun (o : PlaneOp) (c : EdgeCount) : PlaneOp := { o with flags := o.startFlags c, started := true }

/-- An operation whose clipped candidates are counted (R116; log entry 95). -/
def PlaneOp.clipsCounted (o : PlaneOp) : PlaneOp := { o with counted := o.counted || decide (o.clippedCand ≠ 0) }

theorem Dev.firstUnit_latched {d d' : Dev} {o : PlaneOp} {x : PlaneOp × EdgeCount}
    (h : d.latchOp (d.reader 3 0 o.slot o.task) o = (.ok x, d')) :
    d.firstUnit o = ((d'.edge Off.plnEdgeStatus x.2).countOutliers (x.1.begun x.2)).runUnit (x.1.begun x.2).clipsCounted := by
  unfold Dev.firstUnit
  exact Dev.act_ok h _ _ _ _ _ _

@[simp] theorem Dev.countOutliers_pln (d : Dev) (o : PlaneOp) : (d.countOutliers o).pln = d.pln := by
  unfold Dev.countOutliers
  dsimp only
  split
  · simp
  split
  · simp
  · simp

/-! ## STEP_UNIT -/

/-- Why the next unit of the running operation waits (R79, R90, R119, R126). -/
def Dev.UnitWaits (d : Dev) (o : PlaneOp) : Prop :=
  d.stopped o.slot o.task = true ∨ d.marked o.slot o.task = true ∨ 2 ≤ d.pln.tails.length ∨ d.cur.firings ≠ []

section
variable {d : Dev} {o : PlaneOp} (op : d.pln.op = some o)
include op

theorem Dev.stepUnit_waits (h : d.UnitWaits o) (transfer : Transfer) : d.stepUnit transfer = d := by
  have waits : (d.stopped o.slot o.task || d.marked o.slot o.task || decide (2 ≤ d.pln.tails.length) ||
      decide (d.cur.firings ≠ [])) = true := by
    simpa [Dev.UnitWaits, or_assoc] using h
  simp only [Dev.stepUnit, op, waits, if_true]

omit op in
theorem Dev.unitWaits_bumpWrap (off : Nat) : (d.bumpWrap off).UnitWaits o ↔ d.UnitWaits o := Iff.rfl

/-- The next unit of the operation, latched or not. -/
def Dev.nextUnit (d : Dev) (o : PlaneOp) : Dev := if o.started then d.runUnit o else d.firstUnit o

theorem Dev.stepUnit_goes (h : ¬ d.UnitWaits o) :
    d.stepUnit .bad = d.busError 2 0 o.slot o.task ∧ d.stepUnit .good = d.nextUnit o ∧
      d.stepUnit .corrected = (d.bumpWrap Off.evrCeBus).nextUnit o := by
  have goes : (d.stopped o.slot o.task || d.marked o.slot o.task || decide (2 ≤ d.pln.tails.length) ||
      decide (d.cur.firings ≠ [])) = false := by
    simpa [Dev.UnitWaits, and_assoc] using h
  simp only [Dev.stepUnit, op, goes, Dev.nextUnit, reduceCtorEq, Bool.false_eq_true, if_true, if_false, and_self]

end

end Sys2Proof.Machine

open Sys2Proof Sys2Proof.Machine in
/-- Settles O25: a unit waits, meets a bad transfer, or delivers the codes of its group and shot, after latching where it is the
first. -/
theorem stepUnitsFire : Obligations.StepUnitsFire := by
  intro s o op
  refine ⟨fun waits transfer => ?_, fun stopped marked tails firings => ?_⟩
  · rw [exec_stepUnit, execStepUnit, lift_eq, Dev.stepUnit_waits op waits]
  have goes : ¬ s.dev.UnitWaits o := by
    rintro (h | h | h | h)
    · exact Bool.false_ne_true (stopped.symm.trans h)
    · exact Bool.false_ne_true (marked.symm.trans h)
    · exact Nat.not_lt.mpr h tails
    · exact h firings
  have goesCorrected := mt (Dev.unitWaits_bumpWrap Off.evrCeBus).mp goes
  obtain ⟨onBad, onGood, onCorrected⟩ := Dev.stepUnit_goes op goes
  simp only [exec_stepUnit, execStepUnit, lift_eq]
  rw [onBad, onGood, onCorrected, (Dev.stepUnit_goes (d := s.dev.bumpWrap Off.evrCeBus) op goesCorrected).2.1]
  refine ⟨rfl, rfl, fun fresh x d latched => ?_, fun started => ?_⟩
  · rw [Dev.nextUnit, fresh, if_neg Bool.false_ne_true, Dev.firstUnit_latched latched]
    have ran := Dev.runUnit_ran ((d.edge Off.plnEdgeStatus x.2).countOutliers (x.1.begun x.2)) (x.1.begun x.2).clipsCounted
    have same : ((d.edge Off.plnEdgeStatus x.2).countOutliers (x.1.begun x.2)).pln = d.pln := by simp
    generalize (d.edge Off.plnEdgeStatus x.2).countOutliers (x.1.begun x.2) = e at ran same ⊢
    obtain rfl := Dev.latchOp_settings latched
    have place := ran.place
    have tiles := ran.tiles
    rw [same] at place tiles
    exact ⟨_, e.unitDone ((d.latchSettings o).1.begun (d.latchSettings o).2).clipsCounted, rfl, rfl, rfl, rfl, rfl, rfl, rfl, rfl,
      rfl, rfl, rfl, place, tiles⟩
  · rw [Dev.nextUnit, if_pos started]
    have ran := s.dev.runUnit_ran o
    refine ⟨_, s.dev.unitDone o, (s.dev.unitFires o).1, rfl, rfl, rfl, rfl, rfl, rfl, fun more => ?_, fun last => ?_,
      fun c mem => ?_, ran.tiles.1, ran.tiles.2, ran.mem⟩
    · exact ⟨by rw [ran.on more], by rw [ran.on more]⟩
    · exact ⟨by rw [ran.off last], by rw [ran.off last]⟩
    · obtain ⟨entry, shot, fires, p, draw, served, codes⟩ := Dev.unitFires_delivers c mem
      exact ⟨entry, shot, fires, p, draw, served, codes, fun q hq => Dev.tileCodes_range (codes ▸ hq)⟩

end

section
/-! PROOFS. What notices, completions, failures of graphs and page tables leave of the plane: its tiles, and the rounds in
progress (R94, R95, R230, R343). -/

namespace Sys2Proof.Machine

/-! ## The plane stands -/

/-- A fold of steps that each leave the plane as it is leaves it. -/
theorem foldl_pln {α : Type} {f : Dev → α → Dev} (hf : ∀ d a, (f d a).pln = d.pln) (l : List α) (d : Dev) :
    (l.foldl f d).pln = d.pln := by
  induction l generalizing d with
  | nil => rfl
  | cons a l ih => exact (ih _).trans (hf d a)

@[simp] theorem Dev.measure_pln (d : Dev) (f : Hub → Hub) : (d.measure f).pln = d.pln := by
  unfold Dev.measure
  split <;> rfl

@[simp] theorem Dev.modBox_pln (d : Dev) (m : Nat) (f : Mailbox → Mailbox) : (d.modBox m f).pln = d.pln := rfl
@[simp] theorem Dev.modSlot_pln (d : Dev) (i : Nat) (f : GraphSlot → GraphSlot) : (d.modSlot i f).pln = d.pln := rfl
@[simp] theorem Dev.modPort_pln (d : Dev) (p : Nat) (f : Port → Port) : (d.modPort p f).pln = d.pln := rfl
@[simp] theorem Dev.modRequest_pln (d : Dev) (id : Nat) (f : Request → Request) : (d.modRequest id f).pln = d.pln := rfl
@[simp] theorem Dev.writePa_pln (d : Dev) (pa : Nat) (l : List Byte) : (d.writePa pa l).pln = d.pln := rfl
@[simp] theorem Dev.zeroPa_pln (d : Dev) (pa n : Nat) : (d.zeroPa pa n).pln = d.pln := rfl
@[simp] theorem Dev.setTask_pln (d : Dev) (slot task : Nat) (st : TaskSt) : (d.setTask slot task st).pln = d.pln := rfl
@[simp] theorem Dev.endTask_pln (d : Dev) (slot task flags : Nat) : (d.endTask slot task flags).pln = d.pln := rfl

/-! ### Completions -/

theorem Dev.writeHost_pln {d d' : Dev} {a : Nat} {l : List Byte} (h : d.writeHost a l = some d') : d'.pln = d.pln := by
  rcases d.writeHost_cases a l with e | e
  · rw [e] at h
    cases h
  · rw [e] at h
    cases h
    rfl

@[simp] theorem Dev.postHost_pln (d : Dev) (a : Nat) (l : List Byte) : (d.postHost a l).pln = d.pln := by
  unfold Dev.postHost
  split
  · next written => exact Dev.writeHost_pln written
  · simp

@[simp] theorem Dev.postRecord_pln (d : Dev) (m : Nat) (l : List Byte) : (d.postRecord m l).pln = d.pln := by
  unfold Dev.postRecord
  dsimp only
  split
  · rfl
  split
  · simp
  · simp

@[simp] theorem Dev.respond_pln (d : Dev) (h : CmdHdr) (status result : Nat) : (d.respond h status result).pln = d.pln := by
  unfold Dev.respond
  dsimp only
  split <;> simp

@[simp] theorem Dev.complete_pln (d : Dev) (h : CmdHdr) (status result : Nat) : (d.complete h status result).pln = d.pln := by
  unfold Dev.complete
  dsimp only
  split <;> simp

@[simp] theorem Dev.finishRun_pln (d : Dev) (slot status : Nat) : (d.finishRun slot status).pln = d.pln := by
  unfold Dev.finishRun
  dsimp only
  rw [Dev.modSlot_pln]
  split
  · rw [Dev.complete_pln]
    split <;> simp
  · split <;> simp

@[simp] theorem Dev.settle_pln (d : Dev) (slot : Nat) : (d.settle slot).pln = d.pln := by
  unfold Dev.settle
  dsimp only
  split <;> simp

/-! ### Notices -/

@[simp] theorem Dev.pumpPort_pln (d : Dev) (p : Nat) : (d.pumpPort p).pln = d.pln := by
  unfold Dev.pumpPort
  dsimp only
  split <;> simp

@[simp] theorem Dev.transmit_pln (d : Dev) (p : Packet) : (d.transmit p).pln = d.pln := by
  unfold Dev.transmit
  split <;> simp

@[simp] theorem Dev.sendPacket_pln (d : Dev) (p : Packet) : (d.sendPacket p).pln = d.pln := by
  unfold Dev.sendPacket Dev.sendOrHold
  dsimp only
  split <;> simp

@[simp] theorem Dev.notice_pln (d : Dev) (dst type tag : Nat) (l : List Byte) : (d.notice dst type tag l).pln = d.pln :=
  d.sendPacket_pln _

@[simp] theorem Dev.noticeAll_pln (d : Dev) (type tag : Nat) (l : List Byte) : (d.noticeAll type tag l).pln = d.pln :=
  foldl_pln (fun d _ => d.notice_pln _ _ _ _) _ d

/-! ### Requests -/

/-- The writes of a ring's records, one after another, where none ends in error. -/
theorem ringRecords_pln {r : Request} {recs : List (List Byte)} {x : Option Dev × Nat} {d' : Dev}
    (h : (recs.foldl (fun (x : Option Dev × Nat) rec =>
      (x.1.bind fun d => d.writeHost (r.ring + 64 + 32 * (x.2 % r.ringEntries)) rec, x.2 + 1)) x).1 = some d') :
    ∃ d, x.1 = some d ∧ d'.pln = d.pln := by
  induction recs generalizing x with
  | nil => exact ⟨d', h, rfl⟩
  | cons rec recs ih =>
    obtain ⟨e, written, rest⟩ := ih h
    obtain ⟨d, start, written⟩ := Option.bind_eq_some_iff.mp written
    exact ⟨d, start, rest.trans (Dev.writeHost_pln written)⟩

@[simp] theorem Dev.ringWrite_pln (d : Dev) (id : Nat) (recs : List (List Byte)) : (d.ringWrite id recs).pln = d.pln := by
  unfold Dev.ringWrite
  split
  · rfl
  split
  · rfl
  dsimp only
  split
  · simp [Dev.ringFailed]
  · next written =>
    obtain ⟨e, records, tail⟩ := Option.bind_eq_some_iff.mp written
    obtain ⟨_, start, records⟩ := ringRecords_pln records
    cases start
    have kept := (Dev.writeHost_pln tail).trans records
    split
    · exact kept
    · exact kept

@[simp] theorem Dev.endRequest_pln (d : Dev) (id reason status : Nat) : (d.endRequest id reason status).pln = d.pln := by
  unfold Dev.endRequest
  split
  · rfl
  split
  · rfl
  · simp

@[simp] theorem Dev.storeCounts_pln (d : Dev) (id : Nat) (toks : List Nat) : (d.storeCounts id toks).pln = d.pln := by
  unfold Dev.storeCounts
  split
  · rfl
  split
  · rfl
  · exact foldl_pln (fun d _ => d.writePa_pln _ _) _ d

@[simp] theorem Dev.rollbackRequest_pln (d : Dev) (id q k : Nat) : (d.rollbackRequest id q k).pln = d.pln := by
  unfold Dev.rollbackRequest
  split
  · rfl
  split
  · rfl
  · rw [Dev.noticeAll_pln]
    show (Dev.storeCounts _ _ _).pln = d.pln
    simp

@[simp] theorem Dev.runFailed_pln (d : Dev) (tmpl slot status : Nat) : (d.runFailed tmpl slot status).pln = d.pln := by
  unfold Dev.runFailed
  split
  · rfl
  · dsimp only
    rw [foldl_pln]
    · simp
    · intro d id
      split
      · rfl
      · simp [apply_ite Dev.pln]

@[simp] theorem Dev.damageAdapters_pln (d : Dev) (words : List Nat) : (d.damageAdapters words).pln = d.pln := by
  unfold Dev.damageAdapters
  dsimp only
  rw [foldl_pln]
  exact fun d a => foldl_pln (fun d _ => d.endRequest_pln _ _ _) _ d

/-! ### Faults -/

@[simp] theorem Dev.abortColls_pln (d : Dev) (slot status : Nat) : (d.abortColls slot status).pln = d.pln := by
  refine foldl_pln (fun d c => ?_) _ d
  rw [foldl_pln fun d _ => d.notice_pln _ _ _ _]
  simp [Dev.countAbort]

@[simp] theorem Dev.resolveFault_pln (d : Dev) (slot outcome status : Nat) :
    (d.resolveFault slot outcome status).pln = d.pln := by
  unfold Dev.resolveFault
  split
  · rfl
  · split <;> rfl

@[simp] theorem Dev.closeFaults_pln (d : Dev) (slot status : Nat) : (d.closeFaults slot status).pln = d.pln :=
  foldl_pln (fun d _ => d.resolveFault_pln _ _ _) _ d

@[simp] theorem Dev.recordFault_pln (d : Dev) (f : FaultRec) : (d.recordFault f).pln = d.pln := by
  unfold Dev.recordFault
  split
  · rfl
  · exact (Dev.setReg_pln _ _ _).trans ((Dev.setBit_pln _ _ _).trans (Dev.bumpWrap_pln _ _ _))

/-! ## The rounds stand -/

theorem foldl_rounds {α : Type} {f : Dev → α → Dev} (hf : ∀ d a, (f d a).pln.rounds = d.pln.rounds) (l : List α) (d : Dev) :
    (l.foldl f d).pln.rounds = d.pln.rounds := by
  induction l generalizing d with
  | nil => rfl
  | cons a l ih => exact (ih _).trans (hf d a)

/-! ### Tiles -/

@[simp] theorem Dev.modPhys_rounds (d : Dev) (p : Nat) (f : PhysTile → PhysTile) : (d.modPhys p f).pln.rounds = d.pln.rounds := rfl
@[simp] theorem Dev.makePending_rounds (d : Dev) (p kind : Nat) : (d.makePending p kind).pln.rounds = d.pln.rounds := rfl
@[simp] theorem Dev.queueProgram_rounds (d : Dev) (l p : Nat) : (d.queueProgram l p).pln.rounds = d.pln.rounds := rfl

@[simp] theorem Dev.setPhysState_rounds (d : Dev) (p : Nat) (st : TileState) :
    (d.setPhysState p st).pln.rounds = d.pln.rounds := by
  unfold Dev.setPhysState
  dsimp only
  split <;> rfl

@[simp] theorem Dev.modLog_rounds (d : Dev) (l : Nat) (f : LogTile → LogTile) : (d.modLog l f).pln.rounds = d.pln.rounds := by
  unfold Dev.modLog
  split <;> rfl

@[simp] theorem Dev.markEpoch_rounds (d : Dev) (l : Nat) : (d.markEpoch l).pln.rounds = d.pln.rounds := d.modLog_rounds _ _

@[simp] theorem Dev.abandonPass_rounds (d : Dev) (p : Nat) : (d.abandonPass p).pln.rounds = d.pln.rounds := by
  unfold Dev.abandonPass
  split <;> rfl

@[simp] theorem Dev.dropPasses_rounds (d : Dev) (p : Nat) : (d.dropPasses p).pln.rounds = d.pln.rounds := d.abandonPass_rounds p

@[simp] theorem Dev.freePhys_rounds (d : Dev) (p : Nat) : (d.freePhys p).pln.rounds = d.pln.rounds := by simp [Dev.freePhys]

@[simp] theorem Dev.dropAudits_pln (d : Dev) (l : Nat) : (d.dropAudits l).pln = d.pln := by
  unfold Dev.dropAudits
  dsimp only
  rw [foldl_pln]
  intro d e
  simp [Dev.skipAudit, Dev.auditDone]

@[simp] theorem Dev.assignSpare_rounds (d : Dev) (l die : Nat) : (d.assignSpare l die).pln.rounds = d.pln.rounds := by
  unfold Dev.assignSpare
  split <;> simp

@[simp] theorem Dev.retireTile_rounds (d : Dev) (p : Nat) : (d.retireTile p).pln.rounds = d.pln.rounds := by
  unfold Dev.retireTile
  dsimp only
  split
  · simp
  split
  · simp
  split
  · simp
  split <;> simp

/-! ### Changes of tiles -/

@[simp] theorem Dev.applyBank_rounds (d : Dev) (p : Nat) : (d.applyBank p).pln.rounds = d.pln.rounds := by
  unfold Dev.applyBank
  dsimp only
  have banked (t : PhysTile) (n : Nat) : ((((d.zeroPa (trimArea p) trimBytes).setPhys p t).bump Off.calCount).setReg64
      Off.calLastLo n).pln.rounds = d.pln.rounds := by simp [Dev.setPhys]
  split
  · exact banked _ _
  split
  · exact banked _ _
  split
  · split
    · rw [Dev.setPhysState_rounds, Dev.markEpoch_rounds, banked]
    · rw [Dev.markEpoch_rounds, banked]
  split
  · rw [Dev.modLog_rounds, Dev.setPhysState_rounds, banked]
  · exact banked _ _

@[simp] theorem Dev.applyChange_rounds (d : Dev) (l : Nat) (c : TileChange) : (d.applyChange l c).pln.rounds = d.pln.rounds := by
  unfold Dev.applyChange
  split
  · rfl
  dsimp only
  cases c with
  | toSuspect | calSuspect =>
    dsimp only
    split
    · split <;> simp
    · rfl
  | refresh =>
    dsimp only
    split
    · split
      · split <;> simp
      · split <;> simp
    · rfl
  | toReady =>
    dsimp only
    split
    · split <;> simp
    · rfl
  | toDigital =>
    dsimp only
    rw [Dev.markEpoch_rounds, Dev.modLog_rounds]
    split
    · split <;> simp
    · rfl
  | remap =>
    dsimp only
    split <;> simp
  | damaged => simp

@[simp] theorem Dev.applyHeld_rounds (d : Dev) (ls : List Nat) : (d.applyHeld ls).pln.rounds = d.pln.rounds := by
  unfold Dev.applyHeld
  dsimp only
  split
  · rfl
  · rw [foldl_rounds]
    · split
      · simp [Dev.advanceEpoch]
      · rfl
    · intro d x
      simp

/-! ### Failures -/

theorem Dev.releaseUnit_pln (d : Dev) (e : Nat) : (d.releaseUnit e).pln = d.pln := rfl

@[simp] theorem Dev.discardTasks_rounds (d : Dev) (slot : Nat) : (d.discardTasks slot).pln.rounds = d.pln.rounds := by
  unfold Dev.discardTasks
  dsimp only
  exact foldl_rounds (fun d t => congrArg (·.rounds) (d.releaseUnit_pln t.engine)) _ d

@[simp] theorem Dev.failGraph_rounds (d : Dev) (slot status arg2 : Nat) :
    (d.failGraph slot status arg2).pln.rounds = d.pln.rounds := by
  unfold Dev.failGraph
  dsimp only
  split
  · rfl
  · simp only [apply_ite Dev.pln, Dev.modSlot_pln, Dev.finishRun_pln, ite_self]
    split <;> simp

theorem Dev.rejectTask_rounds (d : Dev) (slot status : Nat) : (d.rejectTask slot status).pln.rounds = d.pln.rounds := by
  simp [Dev.rejectTask]

theorem Dev.dataBad_rounds (d : Dev) (slot : Nat) : (d.dataBad slot).pln.rounds = d.pln.rounds := by simp [Dev.dataBad]

theorem Dev.unitFault_rounds (d : Dev) (cls index slot task space : Nat) (f : FaultInfo) :
    (d.unitFault cls index slot task space f).pln.rounds = d.pln.rounds := by
  unfold Dev.unitFault
  dsimp only
  split
  · rfl
  split <;> simp

/-- A unit acts on its checks: the rounds are as the checks leave them, or as what it goes on to do leaves them. -/
theorem Dev.act_rounds {α : Type} (x : Chk α × Dev) (cls index slot task space : Nat) (k : α → Dev → Dev) :
    (∃ a, x.1 = .ok a ∧ (Dev.act x cls index slot task space k).pln.rounds = (k a x.2).pln.rounds) ∨
      (Dev.act x cls index slot task space k).pln.rounds = x.2.pln.rounds := by
  unfold Dev.act
  split
  · next a ok => exact .inl ⟨a, ok, rfl⟩
  · exact .inr (Dev.rejectTask_rounds _ _ _)
  · split
    · exact .inr (Dev.unitFault_rounds _ _ _ _ _ _ _)
    · exact .inr (Dev.unitFault_rounds _ _ _ _ _ _ _)
  · exact .inr (Dev.dataBad_rounds _ _)

end Sys2Proof.Machine
end

section
/-! PROOFS. Where the tiles of a program task go (R95, R348). -/

namespace Sys2Proof.Machine

theorem dieOf_homeTile (l : Nat) : dieOf (homeTile l) = l / 6144 := by
  unfold dieOf homeTile
  omega

theorem Dev.dieOf_freesOf {d : Dev} {die q : Nat} (h : q ∈ d.freesOf die) : dieOf q = die := by
  obtain ⟨i, range, rfl⟩ := List.mem_map.mp (List.mem_of_mem_filter h)
  have lt := List.mem_range.mp range
  unfold dieOf
  omega

/-- A physical tile can be taken: it is FREE, and neither a program nor an earlier tile of the list, in `got`, has it. -/
def Dev.canTake (d : Dev) (got : List Nat) (p : Nat) : Bool :=
  decide ((d.phys p).state = .free) && !d.taken.contains p && !got.contains p

theorem Dev.canTake_iff {d : Dev} {got : List Nat} {p : Nat} :
    d.canTake got p = true ↔ (d.phys p).state = .free ∧ p ∉ d.taken ∧ p ∉ got := by
  simp [Dev.canTake, and_assoc]

/-- The place of one tile, where the tiles before it have those in `got`. -/
def Dev.placeTile (d : Dev) (got : List Nat) (e : TileEntry) : Option Nat :=
  if d.canTake got (homeTile e.logical) then some (homeTile e.logical)
  else (d.freesOf (e.logical / 6144)).find? (d.canTake got)

theorem Dev.placeTile_spec {d : Dev} {got : List Nat} {e : TileEntry} {q : Nat} (h : d.placeTile got e = some q) :
    d.canTake got q = true ∧ dieOf q = e.logical / 6144 ∧
      (d.canTake got (homeTile e.logical) = true → q = homeTile e.logical) := by
  unfold Dev.placeTile at h
  split at h
  · next home =>
    cases h
    exact ⟨home, dieOf_homeTile _, fun _ => rfl⟩
  · next away => exact ⟨List.find?_some h, Dev.dieOf_freesOf (List.mem_of_find?_eq_some h), fun home => absurd home away⟩

/-- The places of a list's tiles, one after another. -/
def Dev.placeFrom (d : Dev) (got : List Nat) : List TileEntry → List (TileEntry × Option Nat)
  | [] => []
  | e :: es => (e, d.placeTile got e) :: d.placeFrom (got ++ (d.placeTile got e).toList) es

/-- A list's places, and the tiles that they take, with one tile more placed. -/
def Dev.placeStep (d : Dev) (x : List (TileEntry × Option Nat) × List Nat) (e : TileEntry) :
    List (TileEntry × Option Nat) × List Nat :=
  (x.1 ++ [(e, d.placeTile x.2 e)], match d.placeTile x.2 e with
    | some p => x.2 ++ [p]
    | none => x.2)

theorem Dev.placeStep_eq (d : Dev) (acc : List (TileEntry × Option Nat)) (got : List Nat) (e : TileEntry) :
    d.placeStep (acc, got) e = (acc ++ [(e, d.placeTile got e)], got ++ (d.placeTile got e).toList) := by
  unfold Dev.placeStep
  cases d.placeTile got e with
  | none => rw [Option.toList_none, List.append_nil]
  | some p => rfl

theorem Dev.placeTiles_eq (d : Dev) (es : List TileEntry) : d.placeTiles es = d.placeFrom [] es := by
  have step (acc : List (TileEntry × Option Nat)) (got : List Nat) :
      (es.foldl d.placeStep (acc, got)).1 = acc ++ d.placeFrom got es := by
    induction es generalizing acc got with
    | nil => exact (List.append_nil acc).symm
    | cons e es ih => rw [List.foldl_cons, Dev.placeStep_eq, ih, Dev.placeFrom, List.append_assoc, List.singleton_append]
  exact (step [] []).trans (List.nil_append _)

theorem Dev.placeFrom_spec {d : Dev} {got : List Nat} {es : List TileEntry} {i : Nat} {e : TileEntry} {q : Nat}
    (h : (d.placeFrom got es)[i]? = some (e, some q)) :
    es[i]? = some e ∧ d.canTake got q = true ∧ dieOf q = e.logical / 6144 ∧
      (d.canTake got (homeTile e.logical) = true → q = homeTile e.logical ∨
        ∃ j e', j < i ∧ (d.placeFrom got es)[j]? = some (e', some (homeTile e.logical))) := by
  induction es generalizing got i with
  | nil => cases h
  | cons a es ih =>
    cases i with
    | zero =>
      obtain ⟨rfl, place⟩ := Prod.mk.inj (Option.some.inj h)
      obtain ⟨free, die, home⟩ := Dev.placeTile_spec place
      exact ⟨rfl, free, die, fun can => .inl (home can)⟩
    | succ i =>
      obtain ⟨entry, free, die, home⟩ := ih h
      rw [Dev.canTake_iff] at free
      obtain ⟨free, untaken, ungot⟩ := free
      refine ⟨entry, Dev.canTake_iff.mpr ⟨free, untaken, fun mem => ungot (List.mem_append_left _ mem)⟩, die, fun can => ?_⟩
      obtain ⟨homeFree, homeUntaken, homeUngot⟩ := Dev.canTake_iff.mp can
      by_cases first : d.placeTile got a = some (homeTile e.logical)
      · exact .inr ⟨0, a, Nat.succ_pos i, congrArg (fun p => some (a, p)) first⟩
      · have ungot : homeTile e.logical ∉ got ++ (d.placeTile got a).toList := by
          simp only [List.mem_append, Option.mem_toList, not_or]
          exact ⟨homeUngot, first⟩
        rcases home (Dev.canTake_iff.mpr ⟨homeFree, homeUntaken, ungot⟩) with at_home | ⟨j, e', lt, other⟩
        · exact .inl at_home
        · exact .inr ⟨j + 1, e', Nat.succ_lt_succ lt, other⟩

theorem Dev.placeTiles_spec {d : Dev} {es : List TileEntry} {i : Nat} {e : TileEntry} {q : Nat}
    (h : (d.placeTiles es)[i]? = some (e, some q)) :
    es[i]? = some e ∧ (d.phys q).state = .free ∧ q ∉ d.taken ∧ dieOf q = e.logical / 6144 ∧
      ((d.phys (homeTile e.logical)).state = .free → homeTile e.logical ∉ d.taken → q = homeTile e.logical ∨
        ∃ j e', j < i ∧ (d.placeTiles es)[j]? = some (e', some (homeTile e.logical))) := by
  rw [Dev.placeTiles_eq] at h ⊢
  obtain ⟨entry, can, die, home⟩ := Dev.placeFrom_spec h
  obtain ⟨free, untaken, -⟩ := Dev.canTake_iff.mp can
  exact ⟨entry, free, untaken, die, fun homeFree homeUntaken =>
    home (Dev.canTake_iff.mpr ⟨homeFree, homeUntaken, List.not_mem_nil⟩)⟩

/-- Every place is FREE. -/
theorem Dev.placeTiles_free {d : Dev} {es : List TileEntry} {e : TileEntry} {q : Nat}
    (h : (e, some q) ∈ d.placeTiles es) : (d.phys q).state = .free := by
  obtain ⟨i, at_i⟩ := List.mem_iff_getElem?.mp h
  exact (Dev.placeTiles_spec at_i).2.1

end Sys2Proof.Machine
end

section
/-! PROOFS. PLANE_PROGRAM: a program task's checks and places (R95, R97, R113, R348). -/

namespace Sys2Proof.Machine

/-! ## Reads of a master copy -/

theorem Dev.looked_pagesOf (d : Dev) (r : Reader) (space va n : Nat) : d.Looked (d.pagesOf r space va n).2 :=
  Dev.Looked.foldl (fun x _ => .thn (.refl x.2) fun _ e => .thn (.chk (e.looked_translate _ _ _ _)) fun _ e => .refl e) _ _

theorem Dev.looked_loadProg (d : Dev) (r : Reader) (slot task space : Nat) : d.Looked (d.loadProg r slot task space).2 :=
  .thn (d.looked_readBody _ _ _) fun _ e => .thn (Dev.looked_checkPlane _ e) fun _ e => .thn (e.looked_loadList _ _ _)
    fun _ e => .refl e

theorem Dev.looked_loadPages (d : Dev) (r : Reader) (space : Nat) (p : ProgSetup) : d.Looked (d.loadPages r space p).2 :=
  .thn (d.looked_pagesOf _ _ _ _) fun _ e => .refl e

theorem Dev.looked_readMaster (d : Dev) (r : Reader) (pages : List Nat) (off0 off n : Nat) :
    d.Looked (d.readMaster r pages off0 off n).2 := by
  refine Dev.Looked.foldl (fun x p => .thn (.refl x.2) fun l e => ?_) _ _
  dsimp only
  split
  · split <;> exact .refl e
  · have read := e.looked_readPa r (pages.getD (p.1 / 4096) 0 % hostPage + p.1 % 4096) p.2
    split <;> · next h => rwa [h] at read

theorem Dev.looked_masterRows (d : Dev) (r : Reader) (t : LogTile) : d.Looked (d.masterRows r t).2 :=
  Dev.Looked.foldl (fun x _ => .thn (.refl x.2) fun _ e => .thn (e.looked_readMaster _ _ _ _ _) fun _ e => .refl e) _ _

theorem Dev.looked_masterCodes (d : Dev) (r : Reader) (t : LogTile) : d.Looked (d.masterCodes r t).2 :=
  .thn (d.looked_masterRows r t) fun _ e => .refl e

theorem Dev.looked_masterDigest (d : Dev) (r : Reader) (t : LogTile) : d.Looked (d.masterDigest r t).2 :=
  .thn (d.looked_masterRows r t) fun _ e => .refl e

/-- A bad word of a master copy marks records of the plane alone. -/
theorem Dev.masterChk_grf {α : Type} (x : Chk α × Dev) (t : LogTile) : (Dev.masterChk x t).2.grf = x.2.grf := by
  unfold Dev.masterChk
  split <;> rfl

/-- A fold keeps what its steps keep. -/
theorem foldl_keep {α β γ : Type} (get : Dev → γ) {f : α × Dev → β → α × Dev} (hf : ∀ x b, get (f x b).2 = get x.2)
    (l : List β) (x : α × Dev) : get (l.foldl f x).2 = get x.2 := by
  induction l generalizing x with
  | nil => rfl
  | cons b l ih => exact (ih _).trans (hf x b)

/-- Checks in sequence keep what each keeps. -/
theorem Chk.thn_keep {α β γ : Type} (get : Dev → γ) (x : Chk α × Dev) {k : α → Dev → Chk β × Dev}
    (hk : ∀ a e, get (k a e).2 = get e) : get (Chk.thn x k).2 = get x.2 := by
  unfold Chk.thn
  split
  · exact hk _ _
  all_goals rfl

theorem Dev.countClipped_grf (d : Dev) (r : Reader) (b : PlaneBody) (es : List TileEntry) (pages : List Nat) (off : Nat)
    (reg : Word) : (d.countClipped r b es pages off reg).2.grf = d.grf := by
  refine foldl_keep Dev.grf (fun x t => Chk.thn_keep Dev.grf x fun _ e => ?_) es _
  refine (Chk.thn_keep Dev.grf _ fun _ e => (Dev.looked_tests _ _ e).grf).trans ?_
  exact (Dev.masterChk_grf _ _).trans (e.looked_masterCodes _ _).grf

/-! ## Places taken -/

/-- The tiles of a list that have places. -/
def placedTiles (ps : List (TileEntry × Option Nat)) : List (Nat × Nat) :=
  ps.filterMap fun x => x.2.map fun q => (x.1.logical, q)

/-- Where as many tiles have places as there are, each has one. -/
theorem placed_of_length {ps : List (TileEntry × Option Nat)} (h : (placedTiles ps).length = ps.length)
    {x : TileEntry × Option Nat} (mem : x ∈ ps) : ∃ q, x.2 = some q ∧ (x.1.logical, q) ∈ placedTiles ps := by
  have all := List.filterMap_length_eq_length.mp h x mem
  obtain ⟨q, place⟩ := Option.isSome_iff_exists.mp ((Option.isSome_map ..).symm.trans all)
  exact ⟨q, place, List.mem_filterMap.mpr ⟨x, mem, by rw [place, Option.map_some]⟩⟩

/-- Every tile of the list has a place, on a FREE tile that is not worn out. -/
def Dev.Fits (d : Dev) (ps : List (TileEntry × Option Nat)) : Prop :=
  ∀ x ∈ ps, ∃ q, x.2 = some q ∧ (d.phys q).state = .free ∧ (d.phys q).wear < 10000000

theorem Dev.fits_placeTiles {d : Dev} {es : List TileEntry}
    (all : (placedTiles (d.placeTiles es)).length = (d.placeTiles es).length)
    (fresh : ∀ x ∈ placedTiles (d.placeTiles es), (d.phys x.2).wear < 10000000) : d.Fits (d.placeTiles es) := by
  rintro ⟨e, p⟩ mem
  obtain ⟨q, rfl, placed⟩ := placed_of_length all mem
  exact ⟨q, rfl, Dev.placeTiles_free mem, fresh _ placed⟩

theorem Dev.Fits.charged {d : Dev} {ps : List (TileEntry × Option Nat)} (h : d.Fits ps) : d.charged ps = ps.length := by
  refine congrArg List.length (List.filter_eq_self.mpr fun x mem => ?_)
  obtain ⟨q, place, -, fresh⟩ := h x mem
  rw [place]
  exact decide_eq_true fresh

/-- A program task whose checks have passed, and the tiles that it still has to program. -/
def newProg (slot task : Nat) (reg : Word) (p : ProgSetup) (todo : List (Nat × Nat)) : ProgTask :=
  { slot := slot, task := task, clipReg := reg, body := p.body, entries := p.entries
    pages := p.pages, masterOff := p.off, todo := todo }

/-- The programs of a task are queued, and it runs. -/
def Dev.queueProgs (d : Dev) (t : ProgTask) : Dev :=
  ({ d with pln := { d.pln with prog := d.pln.prog ++ [t] } }).setTask t.slot t.task .running

/-- A tile without a place, or with one on a tile that is worn out, is recorded at once. -/
def Dev.recordPlace (r : Reader) (p : ProgSetup) (d : Dev) (e : TileEntry × Option Nat) : Dev :=
  match e.2 with
  | none => d.placeNowhere r e.1.logical (newLog p.body e.1 p.pages p.off)
  | some q => if (d.phys q).wear < 10000000 then d else d.placeWorn r e.1.logical q (newLog p.body e.1 p.pages p.off)

/-- A tile that has a place, on a tile not retired, is to be programmed. -/
def Dev.toProgram (d : Dev) (e : TileEntry × Option Nat) : Option (Nat × Nat) :=
  match e.2 with
  | some q => if (d.phys q).state = .retired then none else some (e.1.logical, q)
  | none => none

/-- The tiles of a list are recorded, and the programs of those with places queued (R95, R96, R348). -/
def Dev.takePlaces (r : Reader) (slot task : Nat) (reg : Word) (x : ProgSetup × List (TileEntry × Option Nat)) (d : Dev) : Dev :=
  let (p, ps) := x
  let d := ps.foldl (Dev.recordPlace r p) d
  let todo := ps.filterMap d.toProgram
  if todo = [] then d.endTask slot task 0 else d.queueProgs (newProg slot task reg p todo)

theorem Dev.Fits.recordPlaces {d : Dev} {ps : List (TileEntry × Option Nat)} (h : d.Fits ps) (r : Reader) (p : ProgSetup) :
    ps.foldl (Dev.recordPlace r p) d = d := by
  induction ps with
  | nil => rfl
  | cons x ps ih =>
    obtain ⟨q, place, -, fresh⟩ := h x List.mem_cons_self
    have kept : Dev.recordPlace r p d x = d := by
      unfold Dev.recordPlace
      rw [place]
      exact if_pos fresh
    rw [List.foldl_cons, kept]
    exact ih fun y mem => h y (List.mem_cons_of_mem _ mem)

theorem Dev.Fits.toPrograms {d : Dev} {ps : List (TileEntry × Option Nat)} (h : d.Fits ps) :
    ps.filterMap d.toProgram = placedTiles ps := by
  refine List.filterMap_congr fun x mem => ?_
  obtain ⟨q, place, free, -⟩ := h x mem
  unfold Dev.toProgram
  rw [place]
  exact if_neg (by rw [free]; decide)

/-- The programs of a task whose tiles all fit are queued, and nothing else of the plane changes. -/
theorem Dev.takePlaces_of_fits {d : Dev} {p : ProgSetup} {ps : List (TileEntry × Option Nat)} (h : d.Fits ps)
    (some_placed : placedTiles ps ≠ []) (r : Reader) (slot task : Nat) (reg : Word) :
    Dev.takePlaces r slot task reg (p, ps) d = d.queueProgs (newProg slot task reg p (placedTiles ps)) := by
  unfold Dev.takePlaces
  dsimp only
  rw [h.recordPlaces, h.toPrograms, if_neg some_placed]

/-! ## The task's checks -/

theorem Dev.planeProgram_waits {d : Dev} (h : ∃ p ∈ d.pln.prog, p.slot < 16 ∧ p.held = false) : d.planeProgram = d := by
  refine if_pos (List.any_eq_true.mpr ?_)
  obtain ⟨p, mem, host, held⟩ := h
  exact ⟨p, mem, by rw [held, decide_eq_true host]; rfl⟩

section
variable {d d1 d2 d3 : Dev} {slot task : Nat} {p p' : ProgSetup} {u : Unit}
variable (issued : d.issuedWhere 1 (fun k => decide (k % 16 = 3)) = some (slot, task))
variable (load : d.loadProg (d.reader 2 0 slot task) slot task (d.slot slot).space = (.ok p, d1))
variable (pages : d1.loadPages (d.reader 2 0 slot task) (d.slot slot).space p = (.ok p', d2))
variable (turn : ∀ x ∈ d.pln.prog, x.slot < 16 → x.held = true)
variable (new : d.isReattach p.body p.entries = false)
variable (unnamed : ∀ e ∈ p.entries, d1.log e.logical = none)
variable (clipped : d2.countClipped (d.reader 2 0 slot task) p'.body p'.entries p'.pages p'.off
  (BitVec.ofNat 32 (d.reg Off.curWeightClip)) = (.ok u, d3))
include issued load pages turn new unnamed clipped

/-- A task that passes its other checks comes to the endurance budget. -/
theorem Dev.planeProgram_counted (fit : d3.Fits (d3.placeTiles p'.entries)) (some_placed : d3.placeTiles p'.entries ≠ []) :
    d.planeProgram =
      if d3.reg Off.plnBudget < d3.reg Off.plnBudgetUsed + (d3.placeTiles p'.entries).length then
        ((d3.bump Off.plnBudgetRejects).setBit Off.plnStatus 5).rejectTask slot 0x0108
      else Dev.takePlaces (d.reader 2 0 slot task) slot task (BitVec.ofNat 32 (d.reg Off.curWeightClip))
        (p', d3.placeTiles p'.entries) d3 := by
  have idle : ¬ (d.pln.prog.any fun p => decide (p.slot < 16) && !p.held) = true := by
    simp only [List.any_eq_true, Bool.and_eq_true, decide_eq_true_eq, Bool.not_eq_true', not_exists, not_and,
      Bool.not_eq_false]
    exact turn
  have tested : tests [(p.entries.all fun e => (d1.log e.logical).isNone, 0x0107)] p d1 = (.ok p, d1) := by
    rw [List.all_eq_true.mpr fun e mem => by rw [unnamed e mem]; rfl]
    rfl
  unfold Dev.planeProgram
  rw [if_neg idle, issued]
  dsimp -zeta only
  extract_lets space r reg exceeds
  rw [show d.loadProg r slot task space = (.ok p, d1) from load]
  dsimp -zeta only
  rw [if_neg (by rw [new]; decide)]
  have budget : exceeds d3 (d3.placeTiles p'.entries) =
      decide (d3.reg Off.plnBudget < d3.reg Off.plnBudgetUsed + (d3.placeTiles p'.entries).length) := by
    dsimp only [exceeds]
    rw [fit.charged, decide_eq_true (show _ ≠ 0 from mt List.eq_nil_of_length_eq_zero some_placed),
      Bool.true_and]
  split
  · next exceeded =>
    refine Dev.act_reject ?_ ..
    refine (Chk.thn_ok rfl _).trans <| (Chk.thn_ok tested _).trans <| (Chk.thn_ok pages _).trans <|
      (Chk.thn_ok clipped _).trans (if_pos ?_)
    rw [budget, decide_eq_true exceeded]
  · next within =>
    refine (Dev.act_ok (a := (p', d3.placeTiles p'.entries)) (d := d3) ?_ ..).trans rfl
    refine (Chk.thn_ok rfl _).trans <| (Chk.thn_ok tested _).trans <| (Chk.thn_ok pages _).trans <|
      (Chk.thn_ok clipped _).trans (if_neg ?_)
    rw [budget, decide_eq_false within]
    decide

end

end Sys2Proof.Machine
end

section
/-! PROOFS. RE_ATTACH: page tables that a record of an edition changes, and the records written (R213, R343, R351). -/

namespace Sys2Proof.Machine

/-! ## Page tables -/

/-- Between `d` and `d'` page tables were written: at most memory, its upsets and Damson's part differ. -/
def Dev.Mapped (d d' : Dev) : Prop := d' = { d with mem := d'.mem, upsets := d'.upsets, mmu := d'.mmu }

theorem Dev.Mapped.refl (d : Dev) : d.Mapped d := rfl

theorem Dev.Mapped.trans {a b c : Dev} (h : a.Mapped b) (k : b.Mapped c) : a.Mapped c :=
  Eq.trans k (congrArg (fun x : Dev => { x with mem := c.mem, upsets := c.upsets, mmu := c.mmu }) h)

section
variable {d d' : Dev} (h : d.Mapped d')
include h

theorem Dev.Mapped.pln : d'.pln = d.pln := by rw [h]
theorem Dev.Mapped.grf : d'.grf = d.grf := by rw [h]

end

theorem Dev.Mapped.foldl {α : Type} {f : Dev → α → Dev} (hf : ∀ (d : Dev) a, d.Mapped (f d a)) (l : List α) (d : Dev) :
    d.Mapped (l.foldl f d) := by
  induction l generalizing d with
  | nil => exact .refl d
  | cons a l ih => exact (hf d a).trans (ih _)

theorem Dev.mapped_putEntry (d : Dev) (a e : Nat) : d.Mapped (d.putEntry a e) := rfl
theorem Dev.mapped_dropTlb (d : Dev) (p : Tlb → Bool) : d.Mapped (d.dropTlb p) := rfl

theorem Dev.mapped_newTable {d d' : Dev} {n t : Nat} (h : d.newTable n = some (t, d')) : d.Mapped d' := by
  unfold Dev.newTable Dev.allocMem at h
  simp only [Option.map_map, Option.map_eq_some_iff, Function.comp_apply, Prod.mk.injEq] at h
  obtain ⟨a, -, rfl, rfl⟩ := h
  rfl

theorem Dev.mapped_descend {va target : Nat} {want64 : Bool} {fuel table level : Nat} {g g' : Bool} {d d' : Dev} {t : Nat}
    (h : d.descend va target want64 fuel table level g = some (t, g', d')) : d.Mapped d' := by
  induction fuel generalizing d table level g with
  | zero => cases h; exact .refl _
  | succ fuel ih =>
    unfold Dev.descend at h
    split at h
    · cases h; exact .refl _
    · dsimp only at h
      split at h
      · exact ih h
      · split at h
        · cases h
        · next new => exact (Dev.mapped_newTable new).trans ((Dev.mapped_putEntry _ _ _).trans (ih h))

theorem Dev.mapped_splitRegion {d d' : Dev} {space root va table t : Nat}
    (h : d.splitRegion space root va table = some (t, d')) : d.Mapped d' := by
  unfold Dev.splitRegion at h
  split at h
  · cases h
  · next new =>
    dsimp only at h
    split at h
    · cases h
    · next down =>
      cases h
      refine (Dev.mapped_newTable new).trans (.trans ?_ ((Dev.mapped_descend down).trans rfl))
      refine Dev.Mapped.foldl (fun d i => ?_) _ _
      split
      · exact Dev.Mapped.foldl (fun d _ => d.mapped_putEntry _ _) _ d
      · exact .refl d

theorem Dev.mapped_setLeaf {d d' : Dev} {space va page : Nat} {leaf : Nat → Nat}
    (h : d.setLeaf space va page leaf = some d') : d.Mapped d' := by
  unfold Dev.setLeaf at h
  split at h
  · cases h
  extract_lets target at h
  split at h
  · cases h
  next down =>
  refine (Dev.mapped_descend down).trans ?_
  split at h
  · cases h
    exact Dev.mapped_putEntry _ _ _
  split at h
  · obtain ⟨x, split, rfl⟩ := Option.map_eq_some_iff.mp h
    exact (Dev.mapped_splitRegion split).trans (Dev.mapped_putEntry _ _ _)
  split at h
  · cases h
    exact Dev.Mapped.foldl (fun d _ => d.mapped_putEntry _ _) _ _
  · cases h
    exact Dev.mapped_putEntry _ _ _

/-- A page mapped where there is memory for its tables. -/
theorem Dev.mapped_mapPage (d : Dev) (space va page target addr : Nat) (write kv : Bool) :
    d.Mapped ((d.mapPage space va page target addr write kv).getD d) := by
  cases h : d.mapPage space va page target addr write kv with
  | none => exact .refl d
  | some d' => exact Dev.mapped_setLeaf h

theorem Dev.mapped_exposePage (d : Dev) (pa : Nat) : d.Mapped (d.exposePage pa) := by
  unfold Dev.exposePage
  split
  · exact .refl d
  · exact d.mapped_mapPage _ _ _ _ _ _ _

theorem Dev.mapped_protectPage (d : Dev) (pa : Nat) : d.Mapped (d.protectPage pa) := by
  unfold Dev.protectPage
  split
  · exact .refl d
  · refine .trans (Dev.Mapped.foldl (fun d m => Dev.Mapped.foldl (fun d p => ?_) _ d) _ d) (Dev.mapped_dropTlb _ _)
    split
    · exact d.mapped_mapPage _ _ _ _ _ _ _
    · exact .refl d

/-! ## Edition records -/

theorem Dev.mapped_recordEdition (d : Dev) (l : Nat) (t : LogTile) :
    ({ d with pln := { d.pln with logical := put d.pln.logical l t } } : Dev).Mapped (d.recordEdition l t) :=
  Dev.Mapped.foldl (fun d _ => (d.mapped_protectPage _).trans (Dev.mapped_exposePage _ _)) _ _

theorem Dev.recordEdition_pln (d : Dev) (l : Nat) (t : LogTile) :
    (d.recordEdition l t).pln = { d.pln with logical := put d.pln.logical l t } := (d.mapped_recordEdition l t).pln

theorem Dev.recordEdition_grf (d : Dev) (l : Nat) (t : LogTile) : (d.recordEdition l t).grf = d.grf :=
  (d.mapped_recordEdition l t).grf

theorem Dev.log_recordEdition_same (d : Dev) (l : Nat) (t : LogTile) : (d.recordEdition l t).log l = some t := by
  rw [Dev.log, d.recordEdition_pln]
  exact look_put_same _ _ _

theorem Dev.log_recordEdition_other (d : Dev) {l k : Nat} (t : LogTile) (h : k ≠ l) :
    (d.recordEdition l t).log k = d.log k := by
  rw [Dev.log, d.recordEdition_pln]
  exact look_put_other _ _ h

/-! ## Re-attach (R351) -/

section
variable (p : ProgSetup)

/-- A tile's record with the new pages of its master copy. -/
def LogTile.reattached (t : LogTile) : LogTile :=
  { t with pages := p.pages, masterOff := p.off, masterAbsent := false, masterDamaged := false }

/-- One tile is re-attached. -/
def Dev.attachTile (d : Dev) (e : TileEntry) : Dev :=
  match d.log e.logical with
  | none => d
  | some t => d.recordEdition e.logical (t.reattached p)

/-- The tile is recorded with the new pages. -/
def Dev.Attached (d : Dev) (l : Nat) : Prop := ∃ x, d.log l = some x ∧ x.masterAbsent = false ∧ x.masterDamaged = false ∧
  x.pages = p.pages ∧ x.masterOff = p.off

variable {p}

theorem Dev.attachTile_grf (d : Dev) (e : TileEntry) : (d.attachTile p e).grf = d.grf := by
  unfold Dev.attachTile
  split
  · rfl
  · exact d.recordEdition_grf _ _

/-- What is recorded stays recorded. -/
theorem Dev.log_attachTile {d : Dev} {l : Nat} (h : d.log l ≠ none) (e : TileEntry) : (d.attachTile p e).log l ≠ none := by
  unfold Dev.attachTile
  split
  · exact h
  · by_cases same : l = e.logical
    · rw [same, Dev.log_recordEdition_same]
      exact Option.some_ne_none _
    · rwa [Dev.log_recordEdition_other _ _ same]

theorem Dev.attached_attachTile_self {d : Dev} {e : TileEntry} (h : d.log e.logical ≠ none) :
    (d.attachTile p e).Attached p e.logical := by
  unfold Dev.attachTile
  split
  · next absent => exact absurd absent h
  · exact ⟨_, d.log_recordEdition_same _ _, rfl, rfl, rfl, rfl⟩

theorem Dev.Attached.attachTile {d : Dev} {l : Nat} (h : d.Attached p l) (e : TileEntry) : (d.attachTile p e).Attached p l := by
  by_cases same : l = e.logical
  · obtain ⟨x, record, -⟩ := h
    rw [same] at record ⊢
    exact Dev.attached_attachTile_self (by rw [record]; exact Option.some_ne_none x)
  · unfold Dev.attachTile
    split
    · exact h
    · unfold Dev.Attached
      rwa [Dev.log_recordEdition_other _ _ same]

theorem Dev.Attached.foldl {l : Nat} (es : List TileEntry) {d : Dev} (h : d.Attached p l) :
    (es.foldl (Dev.attachTile p) d).Attached p l := by
  induction es generalizing d with
  | nil => exact h
  | cons e es ih => exact ih (h.attachTile e)

theorem Dev.attached_foldl {es : List TileEntry} {d : Dev} (h : ∀ e ∈ es, d.log e.logical ≠ none) :
    ∀ e ∈ es, (es.foldl (Dev.attachTile p) d).Attached p e.logical := by
  induction es generalizing d with
  | nil => exact fun _ mem => absurd mem List.not_mem_nil
  | cons a es ih =>
    intro e mem
    rcases List.mem_cons.mp mem with rfl | mem
    · exact (Dev.attached_attachTile_self (h e List.mem_cons_self)).foldl es
    · exact ih (fun e mem => Dev.log_attachTile (h e (List.mem_cons_of_mem _ mem)) a) e mem

theorem Dev.foldl_attachTile_grf (es : List TileEntry) (d : Dev) : (es.foldl (Dev.attachTile p) d).grf = d.grf := by
  induction es generalizing d with
  | nil => rfl
  | cons e es ih => exact (ih _).trans (d.attachTile_grf e)

/-- The digest of one tile is compared. -/
def Dev.matchTile (r : Reader) (p : ProgSetup) (x : Chk Unit × Dev) (e : TileEntry) : Chk Unit × Dev :=
  Chk.thn x fun _ d =>
    match d.log e.logical with
    | none => (.reject 0x0902, d)
    | some t =>
      if t.edition ≠ p.body.edition ∨ t.format ≠ p.body.wfmt ∨ t.slice ≠ e.slice ∨ t.rowTile ≠ e.rowTile ∨
          t.colTile ≠ e.colTile then (.reject 0x0902, d)
      else
        Chk.thn (d.masterDigest r { t with pages := p.pages, masterOff := p.off }) fun g d =>
          if g = t.digest then (.ok (), d) else (.reject 0x0902, d)

theorem Dev.matchMasters_eq (d : Dev) (r : Reader) (p : ProgSetup) :
    d.matchMasters r p = p.entries.foldl (Dev.matchTile r p) (.ok (), d) := rfl

theorem Dev.looked_matchTile (r : Reader) (p : ProgSetup) (x : Chk Unit × Dev) (e : TileEntry) :
    x.2.Looked (Dev.matchTile r p x e).2 := by
  refine .thn (.refl x.2) fun _ d => ?_
  split
  · exact .refl d
  split
  · exact .refl d
  · refine .thn (d.looked_masterDigest _ _) fun _ d => ?_
    split <;> exact .refl d

theorem Dev.looked_matchMasters (d : Dev) (r : Reader) (p : ProgSetup) : d.Looked (d.matchMasters r p).2 := by
  rw [Dev.matchMasters_eq]
  exact Dev.Looked.foldl (Dev.looked_matchTile r p) _ _

/-- Where the digest of a tile matches, the tile is recorded. -/
theorem Dev.log_of_matchTile {r : Reader} {x : Chk Unit × Dev} {e : TileEntry} {u : Unit} {d : Dev}
    (h : Dev.matchTile r p x e = (.ok u, d)) : (∃ v d', x = (.ok v, d')) ∧ x.2.log e.logical ≠ none := by
  obtain ⟨v, d', rfl, now⟩ := Chk.ok_of_thn h
  refine ⟨⟨v, d', rfl⟩, fun absent => ?_⟩
  rw [show d'.log e.logical = none from absent] at now
  cases now

theorem Dev.log_of_matchTiles {r : Reader} {es : List TileEntry} {x : Chk Unit × Dev} {u : Unit} {d : Dev}
    (h : es.foldl (Dev.matchTile r p) x = (.ok u, d)) : (∃ v d', x = (.ok v, d')) ∧ ∀ e ∈ es, x.2.log e.logical ≠ none := by
  induction es generalizing x with
  | nil => exact ⟨⟨u, d, h⟩, fun _ mem => absurd mem List.not_mem_nil⟩
  | cons a es ih =>
    obtain ⟨⟨v, d', first⟩, rest⟩ := ih h
    obtain ⟨before, record⟩ := Dev.log_of_matchTile first
    refine ⟨before, fun e mem => ?_⟩
    rcases List.mem_cons.mp mem with rfl | mem
    · exact record
    · exact Dev.log_congr (Dev.looked_matchTile r p x a).pln e.logical ▸ rest e mem

/-- A task whose digests all match re-attaches its tiles, and ends. -/
theorem Dev.reAttach_matched {d d1 d2 d3 : Dev} {slot task : Nat} {p' : ProgSetup} {u : Unit}
    (issued : d.issuedWhere 1 (fun k => decide (k % 16 = 3)) = some (slot, task))
    (load : d.loadProg (d.reader 2 0 slot task) slot task (d.slot slot).space = (.ok p, d1))
    (pages : d1.loadPages (d.reader 2 0 slot task) (d.slot slot).space p = (.ok p', d2))
    (again : d.isReattach p.body p.entries = true) (matched : d2.matchMasters (d.reader 2 0 slot task) p' = (.ok u, d3)) :
    d.reAttach = (p'.entries.foldl (Dev.attachTile p') d3).endTask slot task 0 := by
  unfold Dev.reAttach
  rw [issued]
  dsimp -zeta only
  extract_lets space r
  rw [show d.loadProg r slot task space = (.ok p, d1) from load]
  dsimp -zeta only
  rw [if_neg (by rw [again]; decide)]
  refine (Dev.act_ok (a := p') (d := d3) ?_ ..).trans rfl
  exact (Chk.thn_ok rfl _).trans <| (Chk.thn_ok pages _).trans (Chk.thn_ok matched _)

end

end Sys2Proof.Machine
end

section
/-! PROOFS. PROGRAM_ROUND_START: tiles that enter a round, and what each changes (R94-R97, R112). -/

namespace Sys2Proof.Machine

/-! ## Tiles and their records, after a write -/

@[simp] theorem Dev.phys_setPhys_same (d : Dev) (p : Nat) (t : PhysTile) : (d.setPhys p t).phys p = t := by
  simp [Dev.phys, Dev.setPhys]

theorem Dev.phys_setPhys_other (d : Dev) {p q : Nat} (t : PhysTile) (h : q ≠ p) : (d.setPhys p t).phys q = d.phys q := by
  simp [Dev.phys, Dev.setPhys, look_put_other _ _ h]

@[simp] theorem Dev.phys_modPhys_same (d : Dev) (p : Nat) (f : PhysTile → PhysTile) : (d.modPhys p f).phys p = f (d.phys p) :=
  d.phys_setPhys_same _ _

theorem Dev.phys_modPhys_other (d : Dev) {p q : Nat} (f : PhysTile → PhysTile) (h : q ≠ p) :
    (d.modPhys p f).phys q = d.phys q := d.phys_setPhys_other _ h

theorem Dev.setPhysState_pln (d : Dev) (p : Nat) (st : TileState) :
    (d.setPhysState p st).pln = (d.modPhys p fun t => { t with state := st }).pln := by
  unfold Dev.setPhysState
  dsimp only
  split <;> rfl

theorem Dev.setPhysState_regs (d : Dev) (p : Nat) (st : TileState) : (d.setPhysState p st).regs = d.regs := by
  unfold Dev.setPhysState
  dsimp only
  split <;> rfl

@[simp] theorem Dev.phys_setPhysState_same (d : Dev) (p : Nat) (st : TileState) :
    (d.setPhysState p st).phys p = { d.phys p with state := st } :=
  (Dev.phys_congr (d.setPhysState_pln p st) p).trans (d.phys_modPhys_same _ _)

/-! ## Audits and passes of a tile, dropped -/

theorem Dev.reg_dropAudits (d : Dev) (l : Nat) : (d.dropAudits l).reg Off.plnBudgetUsed = d.reg Off.plnBudgetUsed := by
  have skip (d : Dev) (e : AuditEntry) : ((d.auditDone e false).skipAudit).reg Off.plnBudgetUsed = d.reg Off.plnBudgetUsed := by
    rw [Dev.skipAudit, Dev.reg_setBit_other _ _ (by decide), Dev.reg_bump_other _ _ (by decide)]
    rfl
  have all (es : List AuditEntry) (d : Dev) :
      (es.foldl (fun d e => (d.auditDone e false).skipAudit) d).reg Off.plnBudgetUsed = d.reg Off.plnBudgetUsed := by
    induction es generalizing d with
    | nil => rfl
    | cons e es ih => exact (ih _).trans (skip d e)
  exact all _ _

/-- Dropping the passes of a tile changes nothing of it but its passes. -/
theorem Dev.dropPasses_phys (d : Dev) (p : Nat) :
    ((d.dropPasses p).phys p).state = (d.phys p).state ∧ ((d.dropPasses p).phys p).wear = (d.phys p).wear := by
  unfold Dev.dropPasses Dev.abandonPass
  rw [Dev.phys_modPhys_same]
  split
  · rw [Dev.phys_modPhys_same]
    exact ⟨rfl, rfl⟩
  · exact ⟨rfl, rfl⟩

theorem Dev.dropPasses_log (d : Dev) (p l : Nat) : (d.dropPasses p).log l = d.log l := by
  unfold Dev.dropPasses Dev.abandonPass
  split <;> rfl

theorem Dev.dropPasses_regs (d : Dev) (p : Nat) : (d.dropPasses p).regs = d.regs := by
  unfold Dev.dropPasses Dev.abandonPass
  split <;> rfl

/-! ## A tile's program starts -/

section
variable (d : Dev) (p : ProgTask) (l q : Nat) (t : LogTile) (m : List (List Int))

/-- Whether a tile serves is the same once its audits and passes are dropped. -/
theorem Dev.serving_dropped : ((d.dropAudits l).dropPasses q).serving l q = d.serving l q := by
  have log := (Dev.dropPasses_log (d.dropAudits l) q l).trans (Dev.log_congr (d.dropAudits_pln l) l)
  have state := (Dev.dropPasses_phys (d.dropAudits l) q).1.trans
    (congrArg PhysTile.state (Dev.phys_congr (d.dropAudits_pln l) q))
  unfold Dev.serving
  rw [log, state]

/-- The tile as its program finds it: PROGRAMMING, unless it serves while the device refreshes it. -/
def Dev.tileTaken : Dev :=
  let d := (d.dropAudits l).dropPasses q
  if p.slot = 16 ∧ d.serving l q = true then d else d.setPhysState q .programming

theorem Dev.tileTaken_wear : ((d.tileTaken p l q).phys q).wear = (d.phys q).wear := by
  have kept := (Dev.dropPasses_phys (d.dropAudits l) q).2.trans
    (congrArg PhysTile.wear (Dev.phys_congr (d.dropAudits_pln l) q))
  unfold Dev.tileTaken
  dsimp only
  split
  · exact kept
  · rw [Dev.phys_setPhysState_same]
    exact kept

theorem Dev.tileTaken_state (h : ¬ (p.slot = 16 ∧ d.serving l q = true)) :
    ((d.tileTaken p l q).phys q).state = .programming := by
  unfold Dev.tileTaken
  rw [← d.serving_dropped] at h
  dsimp only
  rw [if_neg h, Dev.phys_setPhysState_same]

theorem Dev.tileTaken_rounds : (d.tileTaken p l q).pln.rounds = d.pln.rounds := by
  unfold Dev.tileTaken
  dsimp only
  split <;> simp

theorem Dev.reg_tileTaken : (d.tileTaken p l q).reg Off.plnBudgetUsed = d.reg Off.plnBudgetUsed := by
  have dropped := (Dev.reg_congr ((d.dropAudits l).dropPasses_regs q) Off.plnBudgetUsed).trans (d.reg_dropAudits l)
  unfold Dev.tileTaken
  dsimp only
  split
  · exact dropped
  · exact (Dev.reg_congr (Dev.setPhysState_regs _ _ _) _).trans dropped

/-- The tile with its levels to reach and one pulse sequence more. -/
def PhysTile.programs (x : PhysTile) : PhysTile :=
  { x with wear := min (x.wear + 1) 0xFFFFFFFF, logical := some l, tileRows := t.nrows, tileCols := t.ncols
           levels := m.flatten.map (clampLevel (clipOf p.clipReg (weightFmt t.format) t.slice)), grade := 0 }

theorem Dev.startTile_phys : (d.startTile p l q t m).phys q = ((d.tileTaken p l q).phys q).programs p l t m := by
  have counted := Dev.phys_congr (((d.tileTaken p l q).modPhys q (·.programs p l t m)).bump_pln Off.plnBudgetUsed 1) q
  exact counted.trans (Dev.phys_modPhys_same _ _ _)

theorem Dev.startTile_rounds : (d.startTile p l q t m).pln.rounds = d.pln.rounds := by
  have counted := congrArg Pln.rounds (((d.tileTaken p l q).modPhys q (·.programs p l t m)).bump_pln Off.plnBudgetUsed 1)
  exact counted.trans (d.tileTaken_rounds p l q)

theorem Dev.reg_startTile :
    (d.startTile p l q t m).reg Off.plnBudgetUsed = min (d.reg Off.plnBudgetUsed + 1) 0xFFFFFFFF := by
  have counted := ((d.tileTaken p l q).modPhys q (·.programs p l t m)).reg_bump_same Off.plnBudgetUsed 1
  rw [show ((d.tileTaken p l q).modPhys q (·.programs p l t m)).reg Off.plnBudgetUsed = d.reg Off.plnBudgetUsed from
    d.reg_tileTaken p l q] at counted
  exact counted

end

end Sys2Proof.Machine
end

section
/-! PROOFS. PROGRAM_ROUND_START: the round that starts (R94, R95). -/

namespace Sys2Proof.Machine

theorem Dev.masterChk_rounds {α : Type} (x : Chk α × Dev) (t : LogTile) :
    (Dev.masterChk x t).2.pln.rounds = x.2.pln.rounds := by
  unfold Dev.masterChk
  split <;> rfl

/-- A read of a master copy that meets no bad word is the read itself. -/
theorem Dev.ok_of_masterChk {α : Type} {x : Chk α × Dev} {t : LogTile} {a : α} {d : Dev}
    (h : Dev.masterChk x t = (.ok a, d)) : x = (.ok a, d) := by
  unfold Dev.masterChk at h
  split at h
  · cases h
  · exact h

theorem Dev.pln_of_masterChk {d d' : Dev} {r : Reader} {t : LogTile} {cs : List (List Nat)}
    (h : Dev.masterChk (d.masterCodes r t) t = (.ok cs, d')) : d'.pln = d.pln := by
  have read := (d.looked_masterCodes r t).pln
  rwa [Dev.ok_of_masterChk h] at read

/-! ## A tile enters a round -/

/-- The round of the die with one tile more. -/
def Round.join (die : Nat) (p : ProgTask) (l q : Nat) (x : Round) : Round :=
  if x.die = die then { x with tiles := x.tiles ++ [(l, q)], owner := x.owner ++ [(p.slot, p.task)] } else x

/-- The program of a tile starts in its die's round. -/
def Dev.beginTile (die : Nat) (p : ProgTask) (l q : Nat) (t : LogTile) (cs : List (List Nat)) (d : Dev) : Dev :=
  let d := (d.takeTodo p l q).startTile p l q t (cs.map fun row => row.map (levelOf (weightFmt t.format) t.slice))
  { d with pln := { d.pln with rounds := d.pln.rounds.map (Round.join die p l q) } }

theorem Dev.beginTile_rounds (die : Nat) (p : ProgTask) (l q : Nat) (t : LogTile) (cs : List (List Nat)) (d : Dev) :
    (d.beginTile die p l q t cs).pln.rounds = d.pln.rounds.map (Round.join die p l q) :=
  congrArg (List.map (Round.join die p l q)) (Dev.startTile_rounds _ p l q t _)

/-- A tile that enters a round joins it, or leaves the rounds as they are. -/
theorem Dev.enterRound_rounds (d : Dev) (die : Nat) (p : ProgTask) (l q : Nat) :
    (d.enterRound die p l q).pln.rounds = d.pln.rounds ∨
      (d.enterRound die p l q).pln.rounds = d.pln.rounds.map (Round.join die p l q) := by
  have read (r : Reader) (t : LogTile) : (Dev.masterChk (d.masterCodes r t) t).2.pln.rounds = d.pln.rounds :=
    (Dev.masterChk_rounds _ _).trans (congrArg Pln.rounds (d.looked_masterCodes r t).pln)
  unfold Dev.enterRound
  split
  · exact .inl rfl
  next t _ =>
  extract_lets start
  have begins (cs : List (List Nat)) (e : Dev) : (start cs e).pln.rounds = e.pln.rounds.map (Round.join die p l q) :=
    Dev.beginTile_rounds die p l q t cs e
  split
  · have read := read { cls := 2 } t
    split
    · next e =>
      rw [e] at read
      exact .inr ((begins _ _).trans (congrArg _ read))
    · next e =>
      refine .inl (Eq.trans ?_ read)
      rw [e]
      rfl
  split
  · exact .inl rfl
  · have read := read (d.reader 2 0 p.slot p.task) t
    rcases Dev.act_rounds (Dev.masterChk (d.masterCodes (d.reader 2 0 p.slot p.task) t) t) 2 0 p.slot p.task
      (d.slot p.slot).space start with ⟨cs, -, started⟩ | kept
    · exact .inr (started.trans ((begins cs _).trans (congrArg _ read)))
    · exact .inl (kept.trans read)

/-! ## Rounds within their limit -/

/-- Each round stood before, on another die, or is the die's own, with at most `n` tiles, of that die alone. -/
def RoundsWithin (before : List Round) (die n : Nat) (rs : List Round) : Prop :=
  ∀ r ∈ rs, (r ∈ before ∧ r.die ≠ die) ∨ (r.die = die ∧ r.tiles.length ≤ n ∧ ∀ x ∈ r.tiles, dieOf x.2 = die)

section
variable {before rs : List Round} {die n : Nat}

theorem RoundsWithin.mono (h : RoundsWithin before die n rs) {m : Nat} (le : n ≤ m) : RoundsWithin before die m rs :=
  fun r mem => (h r mem).imp_right fun ⟨own, length, tiles⟩ => ⟨own, length.trans le, tiles⟩

theorem RoundsWithin.join (h : RoundsWithin before die n rs) (p : ProgTask) {l q : Nat} (on : dieOf q = die) :
    RoundsWithin before die (n + 1) (rs.map (Round.join die p l q)) := by
  intro r mem
  obtain ⟨x, was, rfl⟩ := List.mem_map.mp mem
  unfold Round.join
  rcases h x was with ⟨old, other⟩ | ⟨own, length, tiles⟩
  · rw [if_neg other]
    exact .inl ⟨old, other⟩
  · rw [if_pos own]
    refine .inr ⟨own, ?_, fun y mem => ?_⟩
    · rw [List.length_append]
      exact Nat.succ_le_succ length
    · rcases List.mem_append.mp mem with mem | mem
      · exact tiles y mem
      · rw [List.mem_singleton.mp mem]
        exact on

theorem RoundsWithin.enterRound {d : Dev} (h : RoundsWithin before die n d.pln.rounds) (p : ProgTask) {l q : Nat}
    (on : dieOf q = die) : RoundsWithin before die (n + 1) (d.enterRound die p l q).pln.rounds := by
  rcases d.enterRound_rounds die p l q with e | e
  · rw [e]
    exact h.mono (Nat.le_succ n)
  · rw [e]
    exact h.join p on

theorem RoundsWithin.enterAll {now : List (ProgTask × Nat × Nat)} (on : ∀ x ∈ now, dieOf x.2.2 = die) {d : Dev}
    (h : RoundsWithin before die n d.pln.rounds) :
    RoundsWithin before die (n + now.length) (now.foldl (fun d x => d.enterRound die x.1 x.2.1 x.2.2) d).pln.rounds := by
  induction now generalizing n d with
  | nil => exact h
  | cons x now ih =>
    have rest := ih (fun y mem => on y (List.mem_cons_of_mem _ mem)) (h.enterRound x.1 (l := x.2.1) (on x List.mem_cons_self))
    rwa [Nat.add_assoc, Nat.add_comm 1] at rest

end

/-! ## The round starts -/

theorem Dev.programRoundStart_waits {d : Dev} {die : Nat}
    (h : d.bitAt Off.plnCtrl 2 = true ∨ ∃ r ∈ d.pln.rounds, r.die = die) : d.programRoundStart die = d := by
  refine if_pos (Bool.or_eq_true_iff.mpr (h.imp_right fun ⟨r, mem, own⟩ => ?_))
  exact List.any_eq_true.mpr ⟨r, mem, decide_eq_true own⟩

/-- The tiles of the die that a round can take, device programs first. -/
def Dev.roundTodo (d : Dev) (die : Nat) : List (ProgTask × Nat × Nat) :=
  ((d.pln.prog.filter fun p => decide (p.slot = 16)) ++ (d.pln.prog.filter fun p =>
      decide (p.slot < 16) && (decide (p.slot = 16) || (!p.held && !d.marked p.slot p.task && !d.stopped p.slot p.task)))).flatMap
    fun p => (p.todo.filter fun x => decide (dieOf x.2 = die) && !d.progBlocked p x.1 x.2).map fun x => (p, x)

/-- A round of the die that no tile has entered yet. -/
def Dev.openRound (d : Dev) (die : Nat) : Dev :=
  { d with pln := { d.pln with rounds := d.pln.rounds ++ [({ die := die } : Round)] } }

theorem Dev.programRoundStart_starts {d : Dev} {die : Nat} (free : d.bitAt Off.plnCtrl 2 = false)
    (idle : ∀ r ∈ d.pln.rounds, r.die ≠ die) :
    d.programRoundStart die =
      if (d.roundTodo die).take (d.fld Off.plnProgLimit 22 16) = [] then d
      else (((d.roundTodo die).take (d.fld Off.plnProgLimit 22 16)).foldl (fun d x => d.enterRound die x.1 x.2.1 x.2.2)
        (d.openRound die)).dropEmpty die := by
  refine (if_neg ?_).trans rfl
  rw [free, Bool.false_or]
  refine fun runs => ?_
  obtain ⟨r, mem, own⟩ := List.any_eq_true.mp runs
  exact idle r mem (of_decide_eq_true own)

theorem Dev.dieOf_roundTodo {d : Dev} {die : Nat} {x : ProgTask × Nat × Nat} (h : x ∈ d.roundTodo die) : dieOf x.2.2 = die := by
  obtain ⟨p, -, h⟩ := List.mem_flatMap.mp h
  obtain ⟨y, mem, rfl⟩ := List.mem_map.mp h
  exact of_decide_eq_true (Bool.and_eq_true_iff.mp (List.mem_filter.mp mem).2).1

theorem Dev.programRoundStart_rounds (d : Dev) (die : Nat) : ∀ r ∈ (d.programRoundStart die).pln.rounds, r ∈ d.pln.rounds ∨
    r.die = die ∧ r.tiles.length ≤ d.fld Off.plnProgLimit 22 16 ∧ ∀ x ∈ r.tiles, dieOf x.2 = die := by
  by_cases waits : d.bitAt Off.plnCtrl 2 = true ∨ ∃ r ∈ d.pln.rounds, r.die = die
  · rw [Dev.programRoundStart_waits waits]
    exact fun r mem => .inl mem
  obtain ⟨free, idle⟩ := not_or.mp waits
  have idle : ∀ r ∈ d.pln.rounds, r.die ≠ die := fun r mem own => idle ⟨r, mem, own⟩
  rw [Dev.programRoundStart_starts (Bool.eq_false_of_not_eq_true free) idle]
  split
  · exact fun r mem => .inl mem
  have opened : RoundsWithin d.pln.rounds die 0 (d.openRound die).pln.rounds := by
    intro r mem
    rcases List.mem_append.mp mem with old | new
    · exact .inl ⟨old, idle r old⟩
    · rw [List.mem_singleton.mp new]
      exact .inr ⟨rfl, Nat.le_refl 0, fun _ mem => absurd mem List.not_mem_nil⟩
  have entered := (opened.enterAll fun x mem => Dev.dieOf_roundTodo (List.mem_of_mem_take mem)).mono
    ((Nat.zero_add _).trans_le (List.length_take_le (d.fld Off.plnProgLimit 22 16) (d.roundTodo die)))
  exact fun r mem => (entered r (List.mem_of_mem_filter mem)).imp_left And.left

end Sys2Proof.Machine
end

section
/-! PROOFS. PROGRAM_ROUND_START: a round of one program (R94-R97, R112). -/

namespace Sys2Proof.Machine

section
variable {d : Dev} {die : Nat} {p : ProgTask} {l q : Nat}

theorem Dev.roundTodo_single (only : d.pln.prog = [p]) (todo : p.todo = [(l, q)]) (on : dieOf q = die)
    (runs : p.slot = 16 ∨ p.slot < 16 ∧ p.held = false ∧ d.marked p.slot p.task = false ∧ d.stopped p.slot p.task = false)
    (unblocked : d.progBlocked p l q = false) : d.roundTodo die = [(p, l, q)] := by
  have taken : (p.todo.filter fun x => decide (dieOf x.2 = die) && !d.progBlocked p x.1 x.2) = [(l, q)] := by
    rw [todo]
    exact List.filter_cons_of_pos (by rw [decide_eq_true on, unblocked]; rfl)
  unfold Dev.roundTodo
  rw [only]
  rcases runs with device | ⟨host, held, unmarked, going⟩
  · simp [device, taken]
  · simp [host, host.ne, held, unmarked, going, taken]

/-- A tile whose master copy is read enters the round. -/
theorem Dev.enterRound_ok {t : LogTile} {cs : List (List Nat)} {d' : Dev} (record : d.progLog p l q = some t)
    (runs : p.slot = 16 ∨ p.slot ≠ 16 ∧ p ∈ d.pln.prog ∧ d.stopped p.slot p.task = false)
    (read : Dev.masterChk (d.masterCodes (if p.slot = 16 then { cls := 2 } else d.reader 2 0 p.slot p.task) t) t =
      (.ok cs, d')) : d.enterRound die p l q = d'.beginTile die p l q t cs := by
  unfold Dev.enterRound
  rw [record]
  dsimp -zeta only
  extract_lets start
  rcases runs with device | ⟨host, mem, going⟩
  · rw [if_pos device] at read ⊢
    rw [read]
    rfl
  · rw [if_neg host] at read ⊢
    have listed : d.pln.prog.any (fun x => decide (x.slot = p.slot) && decide (x.task = p.task)) = true :=
      List.any_eq_true.mpr ⟨p, mem, by rw [decide_eq_true rfl, decide_eq_true rfl]; rfl⟩
    rw [if_neg (by rw [listed, going]; decide)]
    exact Dev.act_ok read ..

theorem Round.join_other {r : Round} (h : r.die ≠ die) : r.join die p l q = r := if_neg h

/-- The rounds of a die that ran none, once one tile has entered the round opened. -/
theorem Dev.rounds_begun {d' : Dev} {t : LogTile} {cs : List (List Nat)} (idle : ∀ r ∈ d.pln.rounds, r.die ≠ die)
    (same : d'.pln.rounds = (d.openRound die).pln.rounds) :
    ((d'.beginTile die p l q t cs).dropEmpty die).pln.rounds =
      d.pln.rounds ++ [({ die := die, tiles := [(l, q)], owner := [(p.slot, p.task)] } : Round)] := by
  have others : d.pln.rounds.map (Round.join die p l q) = d.pln.rounds :=
    (List.map_congr_left fun r mem => Round.join_other (idle r mem)).trans (List.map_id' _)
  have stay : d.pln.rounds.filter (fun r => decide (r.die ≠ die) || decide (r.tiles ≠ [])) = d.pln.rounds :=
    List.filter_eq_self.mpr fun r mem => by rw [decide_eq_true (idle r mem)]; rfl
  show ((d'.beginTile die p l q t cs).pln.rounds.filter fun r => decide (r.die ≠ die) || decide (r.tiles ≠ [])) = _
  rw [Dev.beginTile_rounds, same, Dev.openRound, List.map_append, others, List.filter_append, stay]
  simp [Round.join]

/-- A round of one program: its tile takes its levels, and counts as one program more. -/
theorem Dev.programRoundStart_single {t : LogTile} {cs : List (List Nat)} {d' : Dev} (free : d.bitAt Off.plnCtrl 2 = false)
    (idle : ∀ r ∈ d.pln.rounds, r.die ≠ die) (only : d.pln.prog = [p]) (todo : p.todo = [(l, q)]) (on : dieOf q = die)
    (runs : p.slot = 16 ∨ p.slot < 16 ∧ p.held = false ∧ d.marked p.slot p.task = false ∧ d.stopped p.slot p.task = false)
    (unblocked : d.progBlocked p l q = false) (limit : 1 ≤ d.fld Off.plnProgLimit 22 16)
    (record : d.progLog p l q = some t)
    (read : Dev.masterChk ((d.openRound die).masterCodes
      (if p.slot = 16 then { cls := 2 } else d.reader 2 0 p.slot p.task) t) t = (.ok cs, d')) :
    d.programRoundStart die = (d'.beginTile die p l q t cs).dropEmpty die := by
  have now : (d.roundTodo die).take (d.fld Off.plnProgLimit 22 16) = [(p, l, q)] := by
    rw [Dev.roundTodo_single only todo on runs unblocked]
    exact List.take_of_length_le limit
  have runs : p.slot = 16 ∨ p.slot ≠ 16 ∧ p ∈ (d.openRound die).pln.prog ∧ (d.openRound die).stopped p.slot p.task = false :=
    runs.imp_right fun ⟨host, _, _, going⟩ => ⟨host.ne, only ▸ List.mem_singleton_self p, going⟩
  rw [Dev.programRoundStart_starts free idle, now, if_neg (List.cons_ne_nil _ _)]
  exact congrArg (Dev.dropEmpty · die) (Dev.enterRound_ok record runs read)

theorem Dev.phys_rounds (d : Dev) (rs : List Round) (q : Nat) :
    ({ d with pln := { d.pln with rounds := rs } } : Dev).phys q = d.phys q := rfl

theorem Dev.reg_rounds (d : Dev) (rs : List Round) (o : Nat) :
    ({ d with pln := { d.pln with rounds := rs } } : Dev).reg o = d.reg o := rfl

/-- What the program of a tile whose master copy has been read leaves of the tile and of the budget. -/
theorem Dev.beginTile_tile {t : LogTile} {cs : List (List Nat)} {d' : Dev} (same : d'.pln = (d.openRound die).pln) :
    let e := (d'.beginTile die p l q t cs).dropEmpty die
    (e.phys q).wear = min ((d.phys q).wear + 1) 0xFFFFFFFF ∧
      (e.phys q).levels = ((cs.map fun row => row.map (levelOf (weightFmt t.format) t.slice)).flatten).map
        (clampLevel (clipOf p.clipReg (weightFmt t.format) t.slice)) ∧
      (¬ (p.slot = 16 ∧ d.serving l q = true) → (e.phys q).state = .programming) ∧
      e.reg Off.plnBudgetUsed = min (d'.reg Off.plnBudgetUsed + 1) 0xFFFFFFFF := by
  intro e
  have phys : (d'.takeTodo p l q).phys q = d.phys q := (Dev.phys_congr same q : d'.phys q = (d.openRound die).phys q)
  have serving : (d'.takeTodo p l q).serving l q = d.serving l q := by
    have log : (d'.takeTodo p l q).log l = d.log l := (Dev.log_congr same l : d'.log l = (d.openRound die).log l)
    unfold Dev.serving
    rw [log, phys]
  have tile : e.phys q = (((d'.takeTodo p l q).tileTaken p l q).phys q).programs p l t
      (cs.map fun row => row.map (levelOf (weightFmt t.format) t.slice)) :=
    (Dev.phys_rounds _ _ q).trans ((Dev.phys_rounds _ _ q).trans (Dev.startTile_phys _ p l q t _))
  have counted : e.reg Off.plnBudgetUsed = min ((d'.takeTodo p l q).reg Off.plnBudgetUsed + 1) 0xFFFFFFFF :=
    (Dev.reg_rounds _ _ _).trans ((Dev.reg_rounds _ _ _).trans (Dev.reg_startTile _ p l q t _))
  refine ⟨?_, ?_, fun refreshed => ?_, counted⟩
  · rw [tile, PhysTile.programs, Dev.tileTaken_wear, phys]
  · rw [tile, PhysTile.programs]
  · rw [← serving] at refreshed
    rw [tile, PhysTile.programs, Dev.tileTaken_state _ _ _ _ refreshed]

end

end Sys2Proof.Machine
end

section
/-! PROOFS. PROGRAM_ROUND_END: the tiles of the round, and what closes with it (R92-R95). -/

namespace Sys2Proof.Machine

/-! ## No tile becomes PROGRAMMING -/

/-- Every tile that is PROGRAMMING in `d'` is so in `d`. -/
def Dev.NoneBegin (d d' : Dev) : Prop := ∀ q, (d'.phys q).state = .programming → (d.phys q).state = .programming

theorem Dev.NoneBegin.trans {a b c : Dev} (h : a.NoneBegin b) (k : b.NoneBegin c) : a.NoneBegin c := fun q now => h q (k q now)

theorem Dev.NoneBegin.of_phys {d d' : Dev} (h : d'.pln.phys = d.pln.phys) : d.NoneBegin d' := fun q now => by
  rwa [Dev.phys, h] at now

theorem Dev.NoneBegin.of_pln {d d' : Dev} (h : d'.pln = d.pln) : d.NoneBegin d' := .of_phys (congrArg Pln.phys h)

theorem Dev.NoneBegin.refl (d : Dev) : d.NoneBegin d := .of_pln rfl

theorem Dev.noneBegin_modPhys (d : Dev) (p : Nat) {f : PhysTile → PhysTile}
    (h : ∀ x, (f x).state = .programming → x.state = .programming) : d.NoneBegin (d.modPhys p f) := by
  intro q now
  by_cases same : q = p
  · subst same
    rw [Dev.phys_modPhys_same] at now
    exact h _ now
  · rwa [Dev.phys_modPhys_other _ _ same] at now

theorem Dev.noneBegin_setPhysState (d : Dev) (p : Nat) {st : TileState} (h : st ≠ .programming) :
    d.NoneBegin (d.setPhysState p st) :=
  (d.noneBegin_modPhys p fun _ now => absurd now h).trans (.of_pln (d.setPhysState_pln p st))

theorem Dev.noneBegin_dropPasses (d : Dev) (p : Nat) : d.NoneBegin (d.dropPasses p) := by
  refine .trans ?_ (Dev.noneBegin_modPhys _ p fun _ now => now)
  unfold Dev.abandonPass
  split
  · exact .trans (.of_pln rfl) (Dev.noneBegin_modPhys _ p fun _ now => now)
  · exact .refl d

theorem Dev.modLog_phys (d : Dev) (l : Nat) (f : LogTile → LogTile) : (d.modLog l f).pln.phys = d.pln.phys := by
  unfold Dev.modLog
  split <;> rfl

theorem Dev.noneBegin_modLog (d : Dev) (l : Nat) (f : LogTile → LogTile) : d.NoneBegin (d.modLog l f) :=
  .of_phys (d.modLog_phys l f)

theorem Dev.noneBegin_flagEvent (d : Dev) (off b : Nat) (e : EventRec) : d.NoneBegin (d.flagEvent off b e) :=
  .of_pln (Dev.looked_event _ _ _).pln

theorem Dev.noneBegin_assignSpare (d : Dev) (l die : Nat) : d.NoneBegin (d.assignSpare l die) := by
  unfold Dev.assignSpare
  split
  · exact (d.noneBegin_modLog _ _).trans (Dev.noneBegin_flagEvent _ _ _ _)
  · extract_lets n d1 d2
    refine .trans (.of_pln (d.setFld_pln _ _ _ _) : d.NoneBegin d1) ?_
    refine .trans (d1.noneBegin_modPhys _ fun x now => nomatch now : d1.NoneBegin d2) ?_
    exact (Dev.noneBegin_modLog _ _ _).trans (.of_phys rfl)

/-- Once a tile is RETIRED, what its retirement does further makes no tile PROGRAMMING. -/
theorem Dev.noneBegin_retired (d : Dev) (p : Nat) : ((d.dropPasses p).setPhysState p .retired).NoneBegin (d.retireTile p) := by
  unfold Dev.retireTile
  extract_lets lo d1 name d2 d3
  have dropped : d1.NoneBegin d2 := .trans (.of_pln (d1.dropAudits_pln name)) (Dev.noneBegin_flagEvent _ _ _ _)
  refine dropped.trans ?_
  clear_value lo d1 name
  cases lo with
  | none => exact .refl d2
  | some l =>
    refine .trans (d2.noneBegin_modPhys p fun _ now => now : d2.NoneBegin d3) ?_
    dsimp only
    split
    · exact .refl d3
    split
    · exact (d3.noneBegin_modLog _ _).trans (Dev.noneBegin_assignSpare _ _ _)
    split
    · exact d3.noneBegin_assignSpare _ _
    · exact d3.noneBegin_modLog _ _

theorem Dev.noneBegin_retireTile (d : Dev) (p : Nat) : d.NoneBegin (d.retireTile p) :=
  (d.noneBegin_dropPasses p).trans ((Dev.noneBegin_setPhysState _ p (st := .retired) nofun).trans (d.noneBegin_retired p))

theorem Dev.retireTile_state (d : Dev) (p : Nat) : ((d.retireTile p).phys p).state ≠ .programming := fun now => by
  have before := d.noneBegin_retired p p now
  rw [Dev.phys_setPhysState_same] at before
  cases before

/-! ## A tile's program ends -/

theorem Dev.looked_recordDigest (d : Dev) (r : Reader) (t : LogTile) : d.Looked (d.recordDigest r t).2 := by
  have read := d.looked_masterDigest r t
  unfold Dev.recordDigest
  split <;> · next e => rwa [e] at read

theorem Dev.writeTables_pln (d : Dev) (l p : Nat) : (d.writeTables l p).pln = d.pln := by
  unfold Dev.writeTables
  extract_lets e
  refine (e.writePa_pln _ _).trans ?_
  dsimp only [e]
  split
  · exact d.writePa_pln _ _
  · rfl

/-- A tile with the levels that its cells have reached, some of them stuck. -/
def PhysTile.programmed (now n : Nat) (levels : List Int) (x : PhysTile) : PhysTile :=
  { x with levels := levels, stuckCount := n, programmedAt := now, decades := 0 }

/-- The tables, the record and the levels of a tile whose program ends are written: its cells count `n` stuck ones. -/
def Dev.tileWritten (d : Dev) (l q n : Nat) (levels : List Int) (t : LogTile) : Dev :=
  ((d.modPhys q (PhysTile.programmed d.now n levels)).recordEdition l t).writeTables l q

section
variable (d : Dev) (l q n : Nat) (levels : List Int) (t : LogTile)

theorem Dev.tileWritten_pln : (d.tileWritten l q n levels t).pln =
    { (d.modPhys q (PhysTile.programmed d.now n levels)).pln with logical := put d.pln.logical l t } :=
  (Dev.writeTables_pln _ l q).trans (Dev.recordEdition_pln _ l t)

theorem Dev.tileWritten_rounds : (d.tileWritten l q n levels t).pln.rounds = d.pln.rounds :=
  (congrArg Pln.rounds (d.tileWritten_pln l q n levels t)).trans rfl

theorem Dev.noneBegin_tileWritten : d.NoneBegin (d.tileWritten l q n levels t) :=
  (d.noneBegin_modPhys q (f := PhysTile.programmed d.now n levels) fun _ now => now).trans 
    (.of_phys ((congrArg Pln.phys (d.tileWritten_pln l q n levels t)).trans rfl))

/-- A tile with its tables written is UNCALIBRATED or serves on, and takes a calibration; one with too many stuck cells is
retired. -/
def Dev.tileEnded (tooMany : Bool) : Dev :=
  if tooMany then d.retireTile q
  else
    let d := if (d.phys q).state = .programming then d.setPhysState q .uncalibrated else d
    d.makePending q (if d.cal.powerup then 3 else 2)

theorem Dev.tileEnded_retired : d.tileEnded q true = d.retireTile q := if_pos rfl

theorem Dev.tileEnded_kept : d.tileEnded q false =
    let e := if (d.phys q).state = .programming then d.setPhysState q .uncalibrated else d
    e.makePending q (if e.cal.powerup then 3 else 2) := if_neg Bool.false_ne_true

theorem Dev.noneBegin_tileEnded (tooMany : Bool) : d.NoneBegin (d.tileEnded q tooMany) := by
  unfold Dev.tileEnded
  split
  · exact d.noneBegin_retireTile q
  · refine .trans ?_ (Dev.noneBegin_modPhys _ q fun _ now => now)
    split
    · exact d.noneBegin_setPhysState q nofun
    · exact .refl d

theorem Dev.tileEnded_state (tooMany : Bool) : ((d.tileEnded q tooMany).phys q).state ≠ .programming := by
  unfold Dev.tileEnded
  split
  · exact d.retireTile_state q
  · rw [Dev.makePending, Dev.phys_modPhys_same]
    split
    · rw [Dev.phys_setPhysState_same]
      nofun
    · assumption

theorem Dev.tileEnded_rounds (tooMany : Bool) : (d.tileEnded q tooMany).pln.rounds = d.pln.rounds := by
  unfold Dev.tileEnded
  split
  · exact d.retireTile_rounds q
  · rw [Dev.makePending_rounds]
    split
    · exact d.setPhysState_rounds _ _
    · rfl

end

/-- A tile whose program ends: one without a record is FREE again; another has its tables written first. -/
theorem Dev.endTile_cases (d : Dev) (l q : Nat) :
    d.endTile l q = d.modPhys q (fun x => { x with state := .free, logical := none }) ∨
      ∃ e n levels t b, d.Looked e ∧ d.endTile l q = (e.tileWritten l q n levels t).tileEnded q b := by
  unfold Dev.endTile
  split
  · exact .inl rfl
  next t _ =>
  extract_lets ss drawn ph tab levels
  have looked : d.Looked (drawn.recordDigest { cls := 2 } t).2 :=
    Dev.Looked.trans (b := drawn) rfl (drawn.looked_recordDigest _ _)
  generalize drawn.recordDigest { cls := 2 } t = read at looked ⊢
  obtain ⟨g, e⟩ := read
  refine .inr ⟨e, ss.length, levels, { t with outliers := tab.map (·.2), digest := g },
    decide (4096 < ss.length ∨ 20971 < tab.length), looked, ?_⟩
  dsimp -zeta only
  extract_lets e1 e2 e3
  have written : e2 = e.tileWritten l q ss.length levels { t with outliers := tab.map (·.2), digest := g } := rfl
  by_cases tooMany : 4096 < ss.length ∨ 20971 < tab.length
  · rw [if_pos tooMany, decide_eq_true tooMany, Dev.tileEnded_retired, written]
  · rw [if_neg tooMany, decide_eq_false tooMany, Dev.tileEnded_kept, ← written]

theorem Dev.noneBegin_endTile (d : Dev) (l q : Nat) : d.NoneBegin (d.endTile l q) := by
  rcases d.endTile_cases l q with free | ⟨e, n, levels, t, b, looked, ended⟩
  · rw [free]
    exact d.noneBegin_modPhys q fun _ now => nomatch now
  · rw [ended]
    exact (Dev.NoneBegin.of_pln looked.pln).trans ((e.noneBegin_tileWritten l q n levels t).trans
      (Dev.noneBegin_tileEnded _ q b))

theorem Dev.endTile_state (d : Dev) (l q : Nat) : ((d.endTile l q).phys q).state ≠ .programming := by
  rcases d.endTile_cases l q with free | ⟨e, n, levels, t, b, -, ended⟩
  · rw [free, Dev.phys_modPhys_same]
    nofun
  · rw [ended]
    exact Dev.tileEnded_state _ q b

theorem Dev.endTile_rounds (d : Dev) (l q : Nat) : (d.endTile l q).pln.rounds = d.pln.rounds := by
  rcases d.endTile_cases l q with free | ⟨e, n, levels, t, b, looked, ended⟩
  · rw [free, Dev.modPhys_rounds]
  · rw [ended, Dev.tileEnded_rounds, Dev.tileWritten_rounds]
    exact congrArg Pln.rounds looked.pln

/-! ## The round ends -/

/-- The programs of a round's tiles end. -/
def Dev.endTiles (d : Dev) (tiles : List (Nat × Nat)) : Dev := tiles.foldl (fun d x => d.endTile x.1 x.2) d

theorem Dev.noneBegin_endTiles (d : Dev) (tiles : List (Nat × Nat)) : d.NoneBegin (d.endTiles tiles) := by
  induction tiles generalizing d with
  | nil => exact .refl d
  | cons x tiles ih => exact (d.noneBegin_endTile x.1 x.2).trans (ih _)

theorem Dev.endTiles_state (d : Dev) (tiles : List (Nat × Nat)) :
    ∀ x ∈ tiles, ((d.endTiles tiles).phys x.2).state ≠ .programming := by
  induction tiles generalizing d with
  | nil => exact fun _ mem => absurd mem List.not_mem_nil
  | cons a tiles ih =>
    intro x mem
    rcases List.mem_cons.mp mem with rfl | mem
    · exact fun now => d.endTile_state x.1 x.2 ((Dev.noneBegin_endTiles _ tiles) x.2 now)
    · exact ih _ x mem

theorem Dev.endTiles_rounds (d : Dev) (tiles : List (Nat × Nat)) : (d.endTiles tiles).pln.rounds = d.pln.rounds :=
  foldl_rounds (fun (d : Dev) (x : Nat × Nat) => d.endTile_rounds x.1 x.2) tiles d

theorem Dev.closeProgs_pln (d : Dev) : ∃ ps, d.closeProgs.pln = { d.pln with prog := ps } := by
  refine ⟨_, foldl_pln (fun d p => ?_) _ _⟩
  split <;> rfl

theorem Dev.programRoundEnd_idle {d : Dev} {die : Nat} (h : ∀ r ∈ d.pln.rounds, r.die ≠ die) : d.programRoundEnd die = d := by
  have none : (d.pln.rounds.find? fun r => decide (r.die = die)) = none :=
    List.find?_eq_none.mpr fun r mem own => h r mem (of_decide_eq_true own)
  unfold Dev.programRoundEnd
  rw [none]

/-- The round of the die runs no more. -/
def Dev.closeRound (d : Dev) (die : Nat) : Dev :=
  { d with pln := { d.pln with rounds := d.pln.rounds.filter fun r => decide (r.die ≠ die) } }

/-- A round that ends leaves the plane as the ends of its programs leave it, but for program tasks that are over. -/
theorem Dev.programRoundEnd_pln {d : Dev} {die : Nat} {r : Round}
    (h : (d.pln.rounds.find? fun r => decide (r.die = die)) = some r) :
    ∃ ps, (d.programRoundEnd die).pln = { ((d.closeRound die).endTiles r.tiles).pln with prog := ps } := by
  obtain ⟨ps, closed⟩ := ((d.closeRound die).endTiles r.tiles).closeProgs_pln
  unfold Dev.programRoundEnd
  rw [h]
  exact ⟨ps, (foldl_pln (fun d s => d.settle_pln s) _ _).trans closed⟩

theorem Dev.programRoundEnd_rounds {d : Dev} {die : Nat} {r : Round}
    (h : (d.pln.rounds.find? fun r => decide (r.die = die)) = some r) :
    (d.programRoundEnd die).pln.rounds = d.pln.rounds.filter fun r => decide (r.die ≠ die) := by
  obtain ⟨ps, plane⟩ := Dev.programRoundEnd_pln h
  rw [plane]
  exact Dev.endTiles_rounds _ _

theorem Dev.programRoundEnd_state {d : Dev} {die : Nat} {r : Round}
    (h : (d.pln.rounds.find? fun r => decide (r.die = die)) = some r) :
    ∀ x ∈ r.tiles, ((d.programRoundEnd die).phys x.2).state ≠ .programming := by
  obtain ⟨ps, plane⟩ := Dev.programRoundEnd_pln h
  intro x mem
  rw [Dev.phys, plane]
  exact Dev.endTiles_state _ _ x mem

end Sys2Proof.Machine
end

section
/-! PROOFS. Programs, rounds and re-attached tiles (R92-R97, R343, R348, R351). -/

namespace Sys2Proof.Machine

section
variable {d d1 d2 d3 : Dev} {slot task : Nat} {p p' : ProgSetup} {u : Unit}

/-- The pages of a task's master copy are known, and its graph stands where the device found it. -/
theorem Dev.pagesLoaded_grf
    (load : d.loadProg (d.reader 2 0 slot task) slot task (d.slot slot).space = (.ok p, d1))
    (pages : d1.loadPages (d.reader 2 0 slot task) (d.slot slot).space p = (.ok p', d2)) : d2.grf = d.grf := by
  have first := (d.looked_loadProg (d.reader 2 0 slot task) slot task (d.slot slot).space).grf
  have second := (d1.looked_loadPages (d.reader 2 0 slot task) (d.slot slot).space p).grf
  rw [load] at first
  rw [pages] at second
  exact second.trans first

/-- The tiles of a task whose digests all match are re-attached, and the task ends. -/
theorem Dev.reAttach_spec
    (issued : d.issuedWhere 1 (fun k => decide (k % 16 = 3)) = some (slot, task))
    (load : d.loadProg (d.reader 2 0 slot task) slot task (d.slot slot).space = (.ok p, d1))
    (pages : d1.loadPages (d.reader 2 0 slot task) (d.slot slot).space p = (.ok p', d2))
    (again : d.isReattach p.body p.entries = true) (matched : d2.matchMasters (d.reader 2 0 slot task) p' = (.ok u, d3)) :
    (d.reAttach.taskRun slot task).st = .ended ∧ ∀ e ∈ p'.entries, d.reAttach.Attached p' e.logical := by
  have looked := d2.looked_matchMasters (d.reader 2 0 slot task) p'
  rw [matched] at looked
  have stands : (p'.entries.foldl (Dev.attachTile p') d3).HasTask slot task :=
    (Dev.hasTask_of_issued issued).congr
      ((Dev.foldl_attachTile_grf _ d3).trans (looked.grf.trans (Dev.pagesLoaded_grf load pages)))
  have recorded : ∀ e ∈ p'.entries, d3.log e.logical ≠ none := fun e mem => by
    rw [Dev.log_congr looked.pln]
    exact (Dev.log_of_matchTiles matched).2 e mem
  rw [Dev.reAttach_matched issued load pages again matched]
  exact ⟨Dev.st_endTask stands 0, Dev.attached_foldl recorded⟩

end

end Sys2Proof.Machine

open Sys2Proof Sys2Proof.Machine in
/-- Settles O27, part by part: where a list's tiles go; the checks of a program task, and what its places leave; the records
that a re-attach writes; the rounds, each a fold of tiles that enter it or end in it. -/
theorem programsAndRounds : Obligations.ProgramsAndRounds := by
  unfold Obligations.ProgramsAndRounds
  refine ⟨fun d es i e q place => Dev.placeTiles_spec place, fun s busy => ?_,
    fun s slot task p p' u d1 d2 d3 issued => ?_, fun s die => ⟨fun waits => ?_, ?_, ?_, fun idle => ?_, fun r running => ?_⟩⟩
  · rw [exec_planeProgram, execPlaneProgram, lift_eq, Dev.planeProgram_waits busy]
  · intro r load pages
    refine ⟨fun again matched => ⟨_, rfl, Dev.reAttach_spec issued load pages again matched⟩, ?_⟩
    intro new turn unnamed reg clipped ps todo all some_placed fresh d4
    have fit : d3.Fits ps := Dev.fits_placeTiles all fresh
    have nonempty : ps ≠ [] := fun none => some_placed (by rw [show todo = placedTiles ps from rfl, none]; rfl)
    have counted := Dev.planeProgram_counted issued load pages turn new unnamed clipped fit nonempty
    refine ⟨fun exceeded => ?_, fun within => ?_⟩
    · rw [exec_planeProgram, execPlaneProgram, lift_eq, counted, if_pos exceeded]
    · rw [exec_planeProgram, execPlaneProgram, lift_eq, counted, if_neg (Nat.not_lt.mpr within), Dev.takePlaces_of_fits fit some_placed]
      have grf := d2.countClipped_grf r p'.body p'.entries p'.pages p'.off reg
      rw [clipped] at grf
      have stands := (Dev.hasTask_of_issued issued).congr (grf.trans (Dev.pagesLoaded_grf load pages))
      exact ⟨_, rfl, Dev.st_setTask (stands.congr rfl) _, rfl, newProg slot task reg p' todo, rfl, rfl, rfl, rfl, rfl, rfl,
        rfl, rfl, rfl, rfl⟩
  · rw [exec_programRoundStart, execProgramRoundStart, lift_eq, Dev.programRoundStart_waits waits]
  · exact ⟨_, rfl, s.dev.programRoundStart_rounds die⟩
  · intro p l q t cs d free idle only todo on runs unblocked limit record read
    have same : d.pln = (s.dev.openRound die).pln := Dev.pln_of_masterChk read
    rw [exec_programRoundStart, execProgramRoundStart, lift_eq,
      Dev.programRoundStart_single free idle only todo on runs unblocked limit record read]
    exact ⟨_, rfl, Dev.rounds_begun idle (congrArg Pln.rounds same), Dev.beginTile_tile same⟩
  · rw [exec_programRoundEnd, execProgramRoundEnd, lift_eq, Dev.programRoundEnd_idle idle]
  · exact ⟨_, rfl, Dev.programRoundEnd_rounds running, Dev.programRoundEnd_state running⟩
end

section
/-! PROOFS. The tolerance of an audit (R125). -/

namespace Sys2Proof.Machine

theorem lsbOf_pos {g : Nat} (h : g ≤ 3) : 0 < lsbOf g := by interval_cases g <;> decide

/-- σ_g as a fraction of an LSB (R125). -/
theorem sigmaOf_eq {g : Nat} (h : g ≤ 3) :
    ([25 / 100, 30 / 100, 40 / 100, 55 / 100] : List ℚ).getD g 0 = (sigmaOf g : ℚ) / 100 := by
  interval_cases g <;> norm_num [sigmaOf]

/-- τ in units of 1 / 8,000 of an LSB's worth of sum (R125). -/
def toleranceOf (g k d4 dt : Nat) (e : Int) : Nat :=
  6400 * lsbOf g + 32 * e.natAbs + 200 * d4 * lsbOf g + 160 * dt * lsbOf g + 5 * k * sigmaOf g * lsbOf g

/-- There is an excess exactly where the distance is beyond the tolerance: rounding up hides none. -/
theorem missExcess_ne_zero {g : Nat} (h : g ≤ 3) (k d4 dt : Nat) (q e : Int) :
    missExcess g k d4 dt q e ≠ 0 ↔ toleranceOf g k d4 dt e < 8000 * (q * lsbOf g - e).natAbs := by
  have unit : 0 < 8000 * lsbOf g := Nat.mul_pos (by decide) (lsbOf_pos h)
  show (if 8000 * (q * lsbOf g - e).natAbs ≤ toleranceOf g k d4 dt e then 0
    else (8000 * (q * lsbOf g - e).natAbs - toleranceOf g k d4 dt e + 8000 * lsbOf g - 1) / (8000 * lsbOf g)) ≠ 0 ↔ _
  split
  · next within => simpa using within
  · next beyond =>
    have up : 1 ≤ (8000 * (q * lsbOf g - e).natAbs - toleranceOf g k d4 dt e + 8000 * lsbOf g - 1) / (8000 * lsbOf g) :=
      (Nat.le_div_iff_mul_le unit).mpr (by omega)
    exact ⟨fun _ => Nat.lt_of_not_le beyond, fun _ => Nat.one_le_iff_ne_zero.mp up⟩

/-- The tolerance, scaled by 8,000 LSB. -/
theorem toleranceOf_cast {g : Nat} (h : g ≤ 3) (k d4 dt : Nat) (e : Int) :
    (80 / 100 + 4 / 1000 * |(e : ℚ)| / (lsbOf g : ℚ) + 10 / 100 * ((d4 : ℚ) / 4) + 2 / 100 * (dt : ℚ) +
      (k : ℚ) / 16 * ((sigmaOf g : ℚ) / 100)) * (8000 * (lsbOf g : ℚ)) = (toleranceOf g k d4 dt e : ℚ) := by
  have lsb : (lsbOf g : ℚ) ≠ 0 := Nat.cast_ne_zero.mpr (lsbOf_pos h).ne'
  rw [← Int.cast_abs, ← Nat.cast_natAbs, toleranceOf]
  push_cast
  field_simp
  ring

/-- The distance of a code from its exact sum, scaled by 8,000 LSB. -/
theorem distance_cast {g : Nat} (h : g ≤ 3) (q e : Int) :
    |(q : ℚ) - (e : ℚ) / (lsbOf g : ℚ)| * (8000 * (lsbOf g : ℚ)) = ((8000 * (q * lsbOf g - e).natAbs : Nat) : ℚ) := by
  have lsb : (0 : ℚ) < lsbOf g := Nat.cast_pos.mpr (lsbOf_pos h)
  rw [← abs_of_pos (mul_pos (by norm_num : (0 : ℚ) < 8000) lsb), ← abs_mul, Nat.cast_mul, Nat.cast_natAbs, Int.cast_abs,
    ← abs_of_pos (by norm_num : (0 : ℚ) < (8000 : Nat)), ← abs_mul]
  congr 1
  push_cast
  field_simp

end Sys2Proof.Machine

open Sys2Proof Sys2Proof.Machine in
/-- Settles O28: both sides of the comparison, scaled by 8,000 LSB, are the naturals that `missExcess` compares. -/
theorem auditTolerance : Obligations.AuditTolerance := by
  intro g k d4 dt q e range lsb sigma
  have unit : (0 : ℚ) < 8000 * (lsbOf g : ℚ) := mul_pos (by norm_num) (Nat.cast_pos.mpr (lsbOf_pos range))
  rw [missExcess_ne_zero range, ← Nat.cast_lt (α := ℚ), ← toleranceOf_cast range, ← distance_cast range,
    mul_lt_mul_iff_left₀ unit]
  show _ ↔ _ + _ / 16 * ([25 / 100, 30 / 100, 40 / 100, 55 / 100] : List ℚ).getD g 0 < _
  rw [sigmaOf_eq range]
end

section
/-! PROOFS. What completions, notices and ends of requests leave alone: every part of the device but registers, memories, the
recorder, mailboxes, requests and links (R250-R252, R319-R324, R336, R365, R389). -/

namespace Sys2Proof.Machine

/-- Between `d` and `d'` hosts, peers and requests were told something: at most registers, memories, the ratio windows,
mailboxes, requests, links, the recorder and the free values drawn differ. -/
def Dev.Told (d d' : Dev) : Prop :=
  d' = { d with
    fresh := d'.fresh, regs := d'.regs, mem := d'.mem, host := d'.host, upsets := d'.upsets, hub := d'.hub
    mbx := d'.mbx, srv := d'.srv, lnk := d'.lnk, evr := d'.evr, env := d'.env }

theorem Dev.Told.refl (d : Dev) : d.Told d := rfl

theorem Dev.Told.trans {a b c : Dev} (h : a.Told b) (k : b.Told c) : a.Told c :=
  Eq.trans k (congrArg (fun x : Dev => { x with
    fresh := c.fresh, regs := c.regs, mem := c.mem, host := c.host, upsets := c.upsets, hub := c.hub
    mbx := c.mbx, srv := c.srv, lnk := c.lnk, evr := c.evr, env := c.env }) h)

theorem Dev.Told.grf {d d' : Dev} (h : d.Told d') : d'.grf = d.grf := by rw [h]

theorem Dev.Told.foldl {α : Type} {f : Dev → α → Dev} (hf : ∀ (d : Dev) (a : α), d.Told (f d a)) (l : List α) (d : Dev) :
    d.Told (l.foldl f d) := by
  induction l generalizing d with
  | nil => exact .refl d
  | cons a l ih => exact (hf d a).trans (ih _)

/-- Reads tell no more than that. -/
theorem Dev.Looked.told {d d' : Dev} (h : d.Looked d') : d.Told d' := by
  rw [h]
  rfl

theorem Dev.told_event (d : Dev) (c : Nat) (e : EventRec) : d.Told (d.event c e) := (d.looked_event c e).told

/-! ## Completions -/

theorem Dev.told_modBox (d : Dev) (m : Nat) (f : Mailbox → Mailbox) : d.Told (d.modBox m f) := rfl

theorem Dev.told_vector (d : Dev) (n : Nat) : d.Told (d.vector n) := rfl

theorem Dev.told_writeHost {d d' : Dev} {a : Nat} {l : List Byte} (h : d.writeHost a l = some d') : d.Told d' := by
  rcases d.writeHost_cases a l with e | e <;> rw [e] at h <;> cases h
  rfl

theorem Dev.told_postHost (d : Dev) (a : Nat) (l : List Byte) : d.Told (d.postHost a l) := by
  unfold Dev.postHost
  split
  · next written => exact Dev.told_writeHost written
  · exact d.told_event _ _

theorem Dev.told_postRecord (d : Dev) (m : Nat) (l : List Byte) : d.Told (d.postRecord m l) := by
  unfold Dev.postRecord
  dsimp only
  split
  · exact .refl d
  split
  · exact (d.told_modBox _ _).trans (Dev.told_vector _ _)
  · exact ((d.told_postHost _ _).trans (Dev.told_modBox _ _ _)).trans (Dev.told_vector _ _)

theorem Dev.told_respond (d : Dev) (h : CmdHdr) (status result : Nat) : d.Told (d.respond h status result) := by
  unfold Dev.respond
  dsimp only
  split
  · exact d.told_modBox _ _
  · exact d.told_postRecord _ _

theorem Dev.told_complete (d : Dev) (h : CmdHdr) (status result : Nat) : d.Told (d.complete h status result) := by
  unfold Dev.complete
  dsimp only
  split
  · exact rfl
  · refine .trans ?_ (Dev.told_respond _ _ _ _)
    exact rfl

/-! ## Notices -/

theorem Dev.told_measure (d : Dev) (f : Hub → Hub) : d.Told (d.measure f) := by
  unfold Dev.measure
  split <;> exact rfl

theorem Dev.told_pumpPort (d : Dev) (p : Nat) : d.Told (d.pumpPort p) := by
  unfold Dev.pumpPort
  dsimp only
  split
  · exact .refl d
  · refine .trans ?_ (Dev.told_measure _ _)
    exact rfl

theorem Dev.told_transmit (d : Dev) (p : Packet) : d.Told (d.transmit p) := by
  unfold Dev.transmit
  split
  · exact .refl d
  · refine .trans ?_ (Dev.told_pumpPort _ _)
    exact rfl

theorem Dev.told_notice (d : Dev) (dst type tag : Nat) (l : List Byte) : d.Told (d.notice dst type tag l) := by
  unfold Dev.notice Dev.sendPacket Dev.sendOrHold
  dsimp only
  split
  · exact rfl
  · refine .trans ?_ (Dev.told_transmit _ _)
    exact rfl

theorem Dev.told_noticeAll (d : Dev) (type tag : Nat) (l : List Byte) : d.Told (d.noticeAll type tag l) :=
  .foldl (fun d _ => d.told_notice _ _ _ _) _ d

/-! ## Requests -/

theorem Dev.told_modRequest (d : Dev) (id : Nat) (f : Request → Request) : d.Told (d.modRequest id f) := rfl

/-- The writes of a ring's records, one after another, where none ends in error. -/
theorem ringRecords_told {r : Request} {recs : List (List Byte)} {x : Option Dev × Nat} {d' : Dev}
    (h : (recs.foldl (fun (x : Option Dev × Nat) rec =>
      (x.1.bind fun d => d.writeHost (r.ring + 64 + 32 * (x.2 % r.ringEntries)) rec, x.2 + 1)) x).1 = some d') :
    ∃ d, x.1 = some d ∧ d.Told d' := by
  induction recs generalizing x with
  | nil => exact ⟨d', h, .refl d'⟩
  | cons rec recs ih =>
    obtain ⟨e, written, rest⟩ := ih h
    obtain ⟨d, start, written⟩ := Option.bind_eq_some_iff.mp written
    exact ⟨d, start, (Dev.told_writeHost written).trans rest⟩

theorem Dev.told_ringWrite (d : Dev) (id : Nat) (recs : List (List Byte)) : d.Told (d.ringWrite id recs) := by
  unfold Dev.ringWrite
  split
  · exact .refl d
  split
  · exact .refl d
  dsimp only
  split
  · exact (d.told_event _ _).trans rfl
  · next written =>
    obtain ⟨e, records, tail⟩ := Option.bind_eq_some_iff.mp written
    obtain ⟨_, start, records⟩ := ringRecords_told records
    cases start
    have kept := records.trans (Dev.told_writeHost tail)
    split <;> exact kept.trans rfl

theorem Dev.told_endRequest (d : Dev) (id reason status : Nat) : d.Told (d.endRequest id reason status) := by
  unfold Dev.endRequest
  split
  · exact .refl d
  split
  · exact .refl d
  · refine .trans ?_ (Dev.told_ringWrite _ _ _)
    exact rfl

theorem Dev.told_storeCounts (d : Dev) (id : Nat) (toks : List Nat) : d.Told (d.storeCounts id toks) := by
  unfold Dev.storeCounts
  split
  · exact .refl d
  split
  · exact .refl d
  · refine .foldl (fun _ _ => ?_) _ d
    exact rfl

theorem Dev.told_dropArrivals (d : Dev) (id q : Nat) : d.Told (d.dropArrivals id q) := rfl

theorem Dev.told_rollTo (d : Dev) (id q k : Nat) : d.Told (d.rollTo id q k) := by
  refine .trans (.trans ?_ (Dev.told_storeCounts _ _ _)) (Dev.told_dropArrivals _ _ _)
  exact rfl

theorem Dev.told_rollbackRequest (d : Dev) (id q k : Nat) : d.Told (d.rollbackRequest id q k) := by
  unfold Dev.rollbackRequest
  split
  · exact .refl d
  split
  · exact .refl d
  · exact (d.told_rollTo _ _ _).trans (Dev.told_noticeAll _ _ _ _)

theorem Dev.told_runFailed (d : Dev) (tmpl slot status : Nat) : d.Told (d.runFailed tmpl slot status) := by
  unfold Dev.runFailed
  split
  · exact .refl d
  · extract_lets draft rows counted srv cleared
    refine .trans (rfl : d.Told cleared) (.foldl (fun d id => ?_) _ _)
    split
    · exact .refl d
    extract_lets mine low
    split
    · exact d.told_endRequest _ _ _
    · exact (d.told_rollbackRequest _ _ _).trans (Dev.told_modRequest _ _ _)

end Sys2Proof.Machine
end

section
/-! PROOFS. Changes of tiles take effect beside the tasks: they leave every task's progress, the tails of operations, device
memory below the near store, and the registers of all blocks but two (R86, R90, R165, R172-R174). -/

namespace Sys2Proof.Machine

/-! ## Registers and their records -/

theorem Dev.reg64_congr {d d' : Dev} {o : Nat} (lo : d'.reg o = d.reg o) (hi : d'.reg (o + 4) = d.reg (o + 4)) :
    d'.reg64 o = d.reg64 o := by rw [Dev.reg64, lo, hi, Dev.reg64]

@[simp] theorem Dev.reg64_bump64 (d : Dev) (o n : Nat) : (d.bump64 o n).reg64 o = (d.reg64 o + n) % 2 ^ 64 := by
  have low : o ≠ o + 4 := by omega
  rw [Dev.bump64, Dev.reg64, Dev.reg_setReg_same, Dev.reg_setReg_other _ _ low, Dev.reg_setReg_same, Dev.reg64]
  omega

/-- An event record writes at most the recorder's own registers. -/
theorem Dev.reg_event (d : Dev) (c : Nat) (e : EventRec) {o : Nat} (h : o / 0x10000 ≠ 13) : (d.event c e).reg o = d.reg o := by
  have lost : o ≠ Off.evrLost := by rintro rfl; exact h rfl
  have status : o ≠ Off.evrStatus := by rintro rfl; exact h rfl
  unfold Dev.event
  split
  · dsimp only
    split <;> rfl
  · rw [Dev.reg_setBit_other _ _ status, Dev.reg_bump_other _ _ lost]

theorem Dev.reg_cper (d : Dev) (r : CperRec) {o : Nat} (h : o / 0x10000 ≠ 13) : (d.cper r).reg o = d.reg o := by
  have lost : o ≠ Off.evrCperLost := by rintro rfl; exact h rfl
  have status : o ≠ Off.evrStatus := by rintro rfl; exact h rfl
  unfold Dev.cper
  dsimp only
  split
  · rfl
  · rw [Dev.reg_event _ _ _ h, Dev.reg_setBit_other _ _ status, Dev.reg_bump_other _ _ lost]
    rfl

/-- A failure signature writes at most the recorder's own registers. -/
theorem Dev.reg_signature (d : Dev) (c : Nat) (e : EventRec) (r : CperRec) {o : Nat} (h : o / 0x10000 ≠ 13) :
    (d.signature c e r).reg o = d.reg o := (Dev.reg_cper _ _ h).trans (d.reg_event _ _ h)

theorem Dev.onlyRegs_bump64 (d : Dev) (o n : Nat) : d.OnlyRegs (d.bump64 o n) :=
  (d.onlyRegs_setReg _ _).trans (Dev.onlyRegs_setReg _ _ _)

theorem Dev.onlyRegs_wideWork (d : Dev) (tiles rows : Nat) : d.OnlyRegs (d.wideWork tiles rows) :=
  (d.onlyRegs_bump64 _ _).trans (Dev.onlyRegs_bump64 _ _ _)

/-! ## Graph slots -/

theorem Dev.slot_modSlot_same {d : Dev} {i : Nat} (h : i < d.grf.slots.length) (f : GraphSlot → GraphSlot) :
    (d.modSlot i f).slot i = f (d.slot i) := by
  simp only [Dev.slot, Dev.modSlot, List.getD_eq_getElem?_getD, upd_get_same, List.getElem?_eq_getElem h, Option.map_some,
    Option.getD_some]

theorem Dev.slot_modSlot_other (d : Dev) {i k : Nat} (h : k ≠ i) (f : GraphSlot → GraphSlot) :
    (d.modSlot i f).slot k = d.slot k := by
  simp only [Dev.slot, Dev.modSlot, List.getD_eq_getElem?_getD, upd_get_other _ _ h]

@[simp] theorem Dev.modSlot_length (d : Dev) (i : Nat) (f : GraphSlot → GraphSlot) :
    (d.modSlot i f).grf.slots.length = d.grf.slots.length := upd_length _ _ _

/-! ## Changes of tiles -/

/-- A register of a block that changes of tiles write: CAL_ and EVR_. -/
@[reducible] def tileBlock (o : Nat) : Prop := o / 0x10000 = 4 ∨ o / 0x10000 = 13

/-- Between `d` and `d'` tiles changed: every task's progress, the tails of operations, the other blocks' registers, and device
memory below the near store stand. -/
structure Dev.TilesChanged (d d' : Dev) : Prop where
  slots : d'.grf.slots.length = d.grf.slots.length
  run : ∀ i, (d'.slot i).run = (d.slot i).run
  tails : d'.pln.tails = d.pln.tails
  reg : ∀ o, ¬ tileBlock o → d'.reg o = d.reg o
  hbm : ∀ a, a < 0x8000000000 → memGet d'.mem a = memGet d.mem a

theorem Dev.TilesChanged.refl (d : Dev) : d.TilesChanged d := ⟨rfl, fun _ => rfl, rfl, fun _ _ => rfl, fun _ _ => rfl⟩

theorem Dev.TilesChanged.trans {a b c : Dev} (h : a.TilesChanged b) (k : b.TilesChanged c) : a.TilesChanged c where
  slots := k.slots.trans h.slots
  run i := (k.run i).trans (h.run i)
  tails := k.tails.trans h.tails
  reg o ho := (k.reg o ho).trans (h.reg o ho)
  hbm a ha := (k.hbm a ha).trans (h.hbm a ha)

theorem Dev.TilesChanged.foldl {α : Type} {f : Dev → α → Dev} (hf : ∀ (d : Dev) (a : α), d.TilesChanged (f d a)) (l : List α)
    (d : Dev) : d.TilesChanged (l.foldl f d) := by
  induction l generalizing d with
  | nil => exact .refl d
  | cons a l ih => exact (hf d a).trans (ih _)

/-- What changes neither graphs nor tails nor registers nor memory. -/
theorem Dev.TilesChanged.of_parts {d d' : Dev} (grf : d'.grf = d.grf) (tails : d'.pln.tails = d.pln.tails)
    (regs : d'.regs = d.regs) (mem : d'.mem = d.mem) : d.TilesChanged d' :=
  ⟨by rw [grf], fun i => by rw [Dev.slot_congr grf], tails, fun o _ => Dev.reg_congr regs o, fun _ _ => by rw [mem]⟩

/-- What writes registers and records alone, in those blocks. -/
theorem Dev.Looked.tilesChanged {d d' : Dev} (h : d.Looked d') (reg : ∀ o, ¬ tileBlock o → d'.reg o = d.reg o) :
    d.TilesChanged d' :=
  ⟨by rw [h.grf], fun i => by rw [Dev.slot_congr h.grf], by rw [h.pln], reg, fun _ _ => by rw [h.mem]⟩

/-! ### Counts and records -/

theorem Dev.tilesChanged_setReg (d : Dev) {o : Nat} (v : Nat) (h : tileBlock o) : d.TilesChanged (d.setReg o v) :=
  (d.looked_setReg o v).tilesChanged fun _ ho => d.reg_setReg_other _ (by rintro rfl; exact ho h)

theorem Dev.tilesChanged_setReg64 (d : Dev) {o : Nat} (v : Nat) (h : tileBlock o) (h' : tileBlock (o + 4)) :
    d.TilesChanged (d.setReg64 o v) := (d.tilesChanged_setReg _ h).trans (Dev.tilesChanged_setReg _ _ h')

theorem Dev.tilesChanged_bump (d : Dev) {o : Nat} (n : Nat) (h : tileBlock o) : d.TilesChanged (d.bump o n) :=
  d.tilesChanged_setReg _ h

theorem Dev.tilesChanged_event (d : Dev) (c : Nat) (e : EventRec) : d.TilesChanged (d.event c e) :=
  (d.looked_event c e).tilesChanged fun _ h => d.reg_event c e fun records => h (.inr records)

theorem Dev.tilesChanged_flagEvent (d : Dev) {o : Nat} (b : Nat) (e : EventRec) (h : tileBlock o) :
    d.TilesChanged (d.flagEvent o b e) := (d.tilesChanged_setReg _ h).trans (Dev.tilesChanged_event _ _ _)

theorem Dev.tilesChanged_signature (d : Dev) (c : Nat) (e : EventRec) (r : CperRec) : d.TilesChanged (d.signature c e r) :=
  (d.looked_signature c e r).tilesChanged fun _ h => d.reg_signature c e r fun records => h (.inr records)

/-- A graph slot changed in no task's progress. -/
theorem Dev.tilesChanged_modSlot (d : Dev) (i : Nat) {f : GraphSlot → GraphSlot} (h : ∀ g, (f g).run = g.run) :
    d.TilesChanged (d.modSlot i f) where
  slots := d.modSlot_length i f
  run k := by
    by_cases same : k = i
    · subst same
      rcases Nat.lt_or_ge k d.grf.slots.length with there | out
      · rw [Dev.slot_modSlot_same there, h]
      · rw [Dev.slot_of_le out, Dev.slot_of_le ((d.modSlot_length k f).symm ▸ out)]
    · rw [Dev.slot_modSlot_other _ same]
  tails := rfl
  reg _ _ := rfl
  hbm _ _ := rfl

/-! ### Memory of the device's own -/

theorem look_filter_kept {α : Type} {p : Nat × α → Bool} {k : Nat} (h : ∀ v, p (k, v) = true) (l : List (Nat × α)) :
    look (l.filter p) k = look l k := by
  induction l with
  | nil => rfl
  | cons x l ih =>
    obtain ⟨k', v⟩ := x
    by_cases same : k' = k
    · subst same
      rw [List.filter_cons_of_pos (h v)]
      simp [look]
    · by_cases kept : p (k', v) = true
      · rw [List.filter_cons_of_pos kept]
        simp [look, same, ih]
      · rw [List.filter_cons_of_neg kept]
        simp [look, same, ih]

theorem memGet_memZero_below (m : List Host.Cell) {a pa : Nat} (n : Nat) (h : a < pa) :
    memGet (memZero m pa n) a = memGet m a := by
  rw [memGet, memZero, look_filter_kept (fun v => by simp [h]), memGet]

theorem Dev.tilesChanged_zeroPa (d : Dev) {pa : Nat} (n : Nat) (h : 0x8000000000 ≤ pa) : d.TilesChanged (d.zeroPa pa n) :=
  ⟨rfl, fun _ => rfl, rfl, fun _ _ => rfl, fun _ ha => memGet_memZero_below _ _ (Nat.lt_of_lt_of_le ha h)⟩

/-! ### Tiles and their banks -/

theorem Dev.tilesChanged_setPhys (d : Dev) (p : Nat) (t : PhysTile) : d.TilesChanged (d.setPhys p t) := .of_parts rfl rfl rfl rfl

theorem Dev.tilesChanged_modPhys (d : Dev) (p : Nat) (f : PhysTile → PhysTile) : d.TilesChanged (d.modPhys p f) :=
  .of_parts rfl rfl rfl rfl

theorem Dev.tilesChanged_setPhysState (d : Dev) (p : Nat) (st : TileState) : d.TilesChanged (d.setPhysState p st) := by
  unfold Dev.setPhysState
  dsimp only
  split <;> exact .of_parts rfl rfl rfl rfl

theorem Dev.tilesChanged_modLog (d : Dev) (l : Nat) (f : LogTile → LogTile) : d.TilesChanged (d.modLog l f) := by
  unfold Dev.modLog
  split
  · exact .of_parts rfl rfl rfl rfl
  · exact .refl d

theorem Dev.tilesChanged_markEpoch (d : Dev) (l : Nat) : d.TilesChanged (d.markEpoch l) := d.tilesChanged_modLog _ _

theorem Dev.tilesChanged_freePhys (d : Dev) (p : Nat) : d.TilesChanged (d.freePhys p) := by
  unfold Dev.freePhys Dev.dropPasses
  refine .trans (.trans ?_ (Dev.tilesChanged_setPhysState _ _ _)) (Dev.tilesChanged_modPhys _ _ _)
  refine .trans ?_ (Dev.tilesChanged_modPhys _ _ _)
  unfold Dev.abandonPass
  split
  · exact .of_parts rfl rfl rfl rfl
  · exact .refl d

/-- A tile becomes SUSPECT, and its pass is due. -/
theorem Dev.tilesChanged_suspect (d : Dev) (l p : Nat) :
    d.TilesChanged ((((d.setPhysState p .suspect).modPhys p fun x => { x with attempts := 0 }).makePending p 2).markEpoch l) :=
  (((d.tilesChanged_setPhysState _ _).trans (Dev.tilesChanged_modPhys _ _ _)).trans (Dev.tilesChanged_modPhys _ _ _)).trans
    (Dev.tilesChanged_markEpoch _ _)

theorem Dev.tilesChanged_applyBank (d : Dev) (p : Nat) : d.TilesChanged (d.applyBank p) := by
  unfold Dev.applyBank
  extract_lets t zeroed banked
  have near : 0x8000000000 ≤ trimArea p := by
    unfold trimArea tileArea
    omega
  have base : d.TilesChanged banked :=
    (((d.tilesChanged_zeroPa trimBytes near).trans (Dev.tilesChanged_setPhys _ _ _)).trans
      (Dev.tilesChanged_bump (o := Off.calCount) _ 1 (by decide))).trans
        (Dev.tilesChanged_setReg64 (o := Off.calLastLo) _ _ (by decide) (by decide))
  clear_value banked
  split
  · exact base
  next l _ =>
  split
  · exact base
  split
  · have marked := base.trans (banked.tilesChanged_markEpoch l)
    split
    · exact marked.trans (Dev.tilesChanged_setPhysState _ _ _)
    · exact marked
  split
  · exact base.trans ((Dev.tilesChanged_setPhysState _ _ _).trans (Dev.tilesChanged_modLog _ _ _))
  · exact base

theorem Dev.tilesChanged_applyChange (d : Dev) (l : Nat) (c : TileChange) : d.TilesChanged (d.applyChange l c) := by
  unfold Dev.applyChange
  split
  · exact .refl d
  next t _ =>
  dsimp only
  cases c with
  | toSuspect =>
    dsimp only
    split
    · split
      · exact d.tilesChanged_suspect _ _
      · exact .refl d
    · exact .refl d
  | calSuspect =>
    dsimp only
    split
    · split
      · exact ((d.tilesChanged_suspect _ _).trans (Dev.tilesChanged_bump (o := Off.calSuspects) _ 1 (by decide))).trans
          (Dev.tilesChanged_flagEvent (o := Off.calStatus) _ 6 _ (by decide))
      · exact .refl d
    · exact .refl d
  | refresh =>
    dsimp only
    split
    · next p _ =>
      have turned : d.TilesChanged (if (d.phys p).state = .ready then
          (((d.setPhysState p .suspect).modPhys p fun x => { x with attempts := 0 }).makePending p 2).markEpoch l else d) := by
        split
        · exact d.tilesChanged_suspect _ _
        · exact .refl d
      generalize (if (d.phys p).state = .ready then _ else d) = d' at turned ⊢
      split
      · exact turned.trans (.of_parts rfl rfl rfl rfl)
      · exact turned
    · exact .refl d
  | toReady =>
    dsimp only
    split
    · split
      · exact ((d.tilesChanged_setPhysState _ _).trans (Dev.tilesChanged_applyBank _ _)).trans (Dev.tilesChanged_markEpoch _ _)
      · exact .refl d
    · exact .refl d
  | toDigital =>
    refine .trans (.trans ?_ (Dev.tilesChanged_modLog _ _ _)) (Dev.tilesChanged_markEpoch _ _)
    split
    · split
      · exact .refl d
      · exact d.tilesChanged_freePhys _
    · exact .refl d
  | remap =>
    dsimp only
    split
    · refine .trans (.trans ?_ (Dev.tilesChanged_modLog _ _ _)) (Dev.tilesChanged_markEpoch _ _)
      exact .of_parts rfl rfl rfl rfl
    · exact .refl d
  | damaged => exact d.tilesChanged_modLog _ _

/-- The changes that an operation held back take effect in tiles alone (R86, R90). -/
theorem Dev.tilesChanged_applyHeld (d : Dev) (ls : List Nat) : d.TilesChanged (d.applyHeld ls) := by
  unfold Dev.applyHeld
  extract_lets due advanced
  split
  · exact .refl d
  · refine .trans (b := advanced) ?_ (.foldl (fun d x => (d.tilesChanged_applyChange _ _).trans (Dev.tilesChanged_modLog _ _ _)) _ _)
    show d.TilesChanged (if _ then _ else _)
    split
    · exact d.tilesChanged_setReg _ (by decide)
    · exact .refl d

end Sys2Proof.Machine
end

section
/-! PROOFS. The ends of graphs: completion, overruns and frame limits (R128, R230, R274, R283, R287). -/

namespace Sys2Proof.Machine

/-! ## A run ends -/

/-- A slot whose run is over (R274, R283). -/
def GraphSlot.ended (g : GraphSlot) : GraphSlot :=
  { g with state := .loaded, cmd := none, cancel := none, status := 0, ticks := 0, overran := false, audits := 0
           auditFailed := false, template := none }

/-- A run that no GRAPH_CANCEL waits for completes its GRAPH_RUN and leaves its slot LOADED. -/
theorem Dev.finishRun_eq {d : Dev} {slot : Nat} {h : CmdHdr} (cmd : (d.slot slot).cmd = some h)
    (cancel : (d.slot slot).cancel = none) (status : Nat) :
    d.finishRun slot status = (d.complete h status (d.slot slot).result).modSlot slot .ended := by
  simp only [Dev.finishRun, cmd, cancel]
  rfl

/-- The commands that a run's end completes touch no graph. -/
theorem Dev.finishRun_grf (d : Dev) (slot status : Nat) : (d.finishRun slot status).grf = (d.modSlot slot .ended).grf := by
  have run : d.Told (match (d.slot slot).cmd with
      | some h => d.complete h status (d.slot slot).result
      | none => d) := by
    split
    · exact d.told_complete _ _ _
    · exact .refl d
  have both : d.Told (match (d.slot slot).cancel with
      | some h => (match (d.slot slot).cmd with
        | some h => d.complete h status (d.slot slot).result
        | none => d).complete h 0 0
      | none => match (d.slot slot).cmd with
        | some h => d.complete h status (d.slot slot).result
        | none => d) := by
    split
    · exact run.trans (Dev.told_complete _ _ _ _)
    · exact run
  exact congrArg (fun g : Grf => { g with slots := upd g.slots slot .ended }) both.grf

theorem Dev.state_finishRun {d : Dev} {slot : Nat} (h : slot < d.grf.slots.length) (status : Nat) :
    ((d.finishRun slot status).slot slot).state = .loaded := by
  rw [Dev.slot_congr (d.finishRun_grf slot status), Dev.slot_modSlot_same h]
  rfl

/-! ## Completion -/

theorem Dev.graphComplete_unfinished {d : Dev} {slot : Nat}
    (h : (d.slot slot).state ≠ .running ∨ (∃ x ∈ (d.slot slot).run, x.st ≠ .complete) ∨ (d.slot slot).audits ≠ 0) :
    d.graphComplete slot = d := by
  refine if_pos (Bool.not_eq_true' _ ▸ ?_)
  simp only [GraphSlot.finished, Bool.and_eq_false_iff, decide_eq_false_iff_not, List.all_eq_false]
  rcases h with idle | ⟨x, there, open_⟩ | audits
  · exact .inl (.inl idle)
  · exact .inl (.inr ⟨x, there, by simpa using open_⟩)
  · exact .inr audits

theorem Dev.graphComplete_alone {d : Dev} {slot : Nat} (done : (d.slot slot).finished = true)
    (alone : (d.slot slot).template = none) :
    d.graphComplete slot = d.finishRun slot (if (d.slot slot).auditFailed then 0x0202 else 0) := by
  simp only [Dev.graphComplete, done, alone, Bool.not_true, Bool.false_eq_true, if_false, Option.bind_none]

/-! ## Failure -/

/-- Between `d` and `d'` no graph slot is lost, and the registers of the graph engine stand. -/
structure Dev.GraphsStand (d d' : Dev) : Prop where
  slots : d'.grf.slots.length = d.grf.slots.length
  reg : ∀ o, o / 0x10000 = 10 → d'.reg o = d.reg o

theorem Dev.GraphsStand.refl (d : Dev) : d.GraphsStand d := ⟨rfl, fun _ _ => rfl⟩

theorem Dev.GraphsStand.trans {a b c : Dev} (h : a.GraphsStand b) (k : b.GraphsStand c) : a.GraphsStand c :=
  ⟨k.slots.trans h.slots, fun o ho => (k.reg o ho).trans (h.reg o ho)⟩

theorem Dev.GraphsStand.foldl {α : Type} {f : Dev → α → Dev} (hf : ∀ (d : Dev) (a : α), d.GraphsStand (f d a)) (l : List α)
    (d : Dev) : d.GraphsStand (l.foldl f d) := by
  induction l generalizing d with
  | nil => exact .refl d
  | cons a l ih => exact (hf d a).trans (ih _)

theorem Dev.TilesChanged.graphsStand {d d' : Dev} (h : d.TilesChanged d') : d.GraphsStand d' :=
  ⟨h.slots, fun o ho => h.reg o (by unfold tileBlock; omega)⟩

theorem Dev.Kept.graphsStand {d d' : Dev} (h : d.Kept d') (slots : d'.grf.slots.length = d.grf.slots.length) :
    d.GraphsStand d' :=
  ⟨slots, fun o ho => h.reg o (by omega) (by omega) (by omega)⟩

/-- What is told, and kept, leaves the graphs alone. -/
theorem Dev.Told.graphsStand {d d' : Dev} (h : d.Told d') (k : d.Kept d') : d.GraphsStand d' := k.graphsStand (by rw [h.grf])

theorem Dev.told_abortColls (d : Dev) (slot status : Nat) : d.Told (d.abortColls slot status) :=
  .foldl (fun d _ => .trans (b := d.countAbort) rfl (.foldl (fun d _ => d.told_notice _ _ _ _) _ _)) _ d

theorem Dev.discardTasks_slots (d : Dev) (slot : Nat) : (d.discardTasks slot).grf.slots = d.grf.slots := by
  have released (l : List DmaTask) (d : Dev) : (l.foldl (fun d t => d.releaseUnit t.engine) d).grf = d.grf := by
    induction l generalizing d with
    | nil => rfl
    | cons t l ih => exact ih _
  unfold Dev.discardTasks
  dsimp only
  rw [released]

theorem Dev.resolveFault_grf (d : Dev) (slot outcome status : Nat) : (d.resolveFault slot outcome status).grf = d.grf := by
  unfold Dev.resolveFault
  split
  · rfl
  · split <;> rfl

theorem Dev.closeFaults_grf (d : Dev) (slot status : Nat) : (d.closeFaults slot status).grf = d.grf := by
  unfold Dev.closeFaults
  generalize d.mmu.faults.filter _ = l
  induction l generalizing d with
  | nil => rfl
  | cons f l ih => exact (ih _).trans (d.resolveFault_grf _ _ _)

theorem Dev.graphsStand_writePa (d : Dev) (pa : Nat) (l : List Byte) : d.GraphsStand (d.writePa pa l) := ⟨rfl, fun _ _ => rfl⟩

theorem Dev.graphsStand_storeCounts (d : Dev) (id : Nat) (toks : List Nat) : d.GraphsStand (d.storeCounts id toks) := by
  unfold Dev.storeCounts
  split
  · exact .refl d
  split
  · exact .refl d
  · exact .foldl (fun d _ => d.graphsStand_writePa _ _) _ d

theorem Dev.graphsStand_modRequest (d : Dev) (id : Nat) (f : Request → Request) : d.GraphsStand (d.modRequest id f) :=
  ⟨rfl, fun _ _ => rfl⟩

theorem Dev.graphsStand_dropArrivals (d : Dev) (id q : Nat) : d.GraphsStand (d.dropArrivals id q) := ⟨rfl, fun _ _ => rfl⟩

theorem Dev.graphsStand_rollTo (d : Dev) (id q k : Nat) : d.GraphsStand (d.rollTo id q k) :=
  ((d.graphsStand_modRequest _ _).trans (Dev.graphsStand_storeCounts _ _ _)).trans (Dev.graphsStand_dropArrivals _ _ _)

theorem Dev.graphsStand_rollbackRequest (d : Dev) (id q k : Nat) : d.GraphsStand (d.rollbackRequest id q k) := by
  unfold Dev.rollbackRequest
  split
  · exact .refl d
  split
  · exact .refl d
  · exact (d.graphsStand_rollTo id q k).trans ((Dev.told_noticeAll _ _ _ _).graphsStand (Dev.kept_noticeAll _ _ _ _))

theorem Dev.graphsStand_runFailed (d : Dev) (tmpl slot status : Nat) : d.GraphsStand (d.runFailed tmpl slot status) := by
  refine ⟨by rw [(d.told_runFailed tmpl slot status).grf], ?_⟩
  suffices stands : d.GraphsStand (d.runFailed tmpl slot status) from stands.reg
  unfold Dev.runFailed
  split
  · exact .refl d
  · extract_lets draft rows counted srv cleared
    have kept : d.Kept counted := (d.kept_bump 1 (.inl rfl)).trans (Dev.kept_setBit _ 1 (.inl rfl))
    have first : d.GraphsStand cleared := .trans (kept.graphsStand rfl) ⟨rfl, fun _ _ => rfl⟩
    refine first.trans (.foldl (fun d id => ?_) _ _)
    split
    · exact .refl d
    dsimp only
    split
    · exact (d.told_endRequest _ _ _).graphsStand (d.kept_endRequest _ _ _)
    · exact (d.graphsStand_rollbackRequest _ _ _).trans (Dev.graphsStand_modRequest _ _ _)

/-- A failing graph as its run ends: its tasks are gone, its faults closed, its failure recorded, and its template told. -/
def Dev.runStopped (d : Dev) (slot status arg2 : Nat) : Dev :=
  let e := ((((d.abortColls slot status).discardTasks slot).applyHeld (d.tilesNamed slot)).closeFaults slot status).event 0x0A80
    { status := status, graph := slot, arg0 := slot, arg1 := (d.slot slot).label, arg2 := arg2 }
  match (d.slot slot).template with
  | some t => e.runFailed t slot status
  | none => e

theorem Dev.failGraph_running {d : Dev} {slot : Nat} (h : (d.slot slot).state = .running) (status arg2 : Nat) :
    d.failGraph slot status arg2 =
      let e := d.runStopped slot status arg2
      if e.programming slot then e.modSlot slot fun g => { g with state := .stopping, status := status }
      else e.finishRun slot status := by
  simp only [Dev.failGraph, h, ne_eq, not_true_eq_false, if_false]
  rfl

theorem Dev.graphsStand_runStopped (d : Dev) (slot status arg2 : Nat) : d.GraphsStand (d.runStopped slot status arg2) := by
  have aborted := (d.told_abortColls slot status).graphsStand (d.kept_abortColls slot status)
  have discarded := (Dev.kept_discardTasks (d.abortColls slot status) slot).graphsStand (by rw [Dev.discardTasks_slots])
  have applied := (Dev.tilesChanged_applyHeld ((d.abortColls slot status).discardTasks slot) (d.tilesNamed slot)).graphsStand
  have ended := ((aborted.trans discarded).trans applied).trans
    ((Dev.kept_closeFaults _ slot status).graphsStand (by rw [Dev.closeFaults_grf]))
  unfold Dev.runStopped
  dsimp only
  split
  · exact (ended.trans (Dev.tilesChanged_event _ _ _).graphsStand).trans (Dev.graphsStand_runFailed _ _ _ _)
  · exact ended.trans (Dev.tilesChanged_event _ _ _).graphsStand

/-- A failed graph runs no more, and its failure touches no register of the graph engine (R230, R274). -/
theorem Dev.failGraph_ends {d : Dev} {slot : Nat} (range : slot < d.grf.slots.length) (status arg2 : Nat) :
    ((d.failGraph slot status arg2).slot slot).state ≠ .running ∧ d.GraphsStand (d.failGraph slot status arg2) := by
  by_cases running : (d.slot slot).state = .running
  · rw [Dev.failGraph_running running]
    have stands := d.graphsStand_runStopped slot status arg2
    have there := stands.slots.symm ▸ range
    dsimp only
    split
    · rw [Dev.slot_modSlot_same there]
      exact ⟨nofun, stands.trans ⟨Dev.modSlot_length _ _ _, fun _ _ => rfl⟩⟩
    · rw [Dev.state_finishRun there]
      refine ⟨nofun, stands.trans ((Dev.kept_finishRun _ _ _).graphsStand ?_)⟩
      rw [Dev.finishRun_grf, Dev.modSlot_length]
  · have idle : d.failGraph slot status arg2 = d := if_pos running
    rw [idle]
    exact ⟨running, .refl d⟩

/-! ## Overruns and limits -/

section
variable {d : Dev} {slot : Nat}

theorem Dev.graphOverrun_waits (h : (d.slot slot).frames = 0 ∨ (d.slot slot).ticks < (d.slot slot).frames ∨ (d.slot slot).overran = true) :
    d.graphOverrun slot = d := if_pos (.inr h)

/-- The graph has overrun: it is counted (R287). -/
def Dev.overrunCounted (d : Dev) (slot : Nat) : Dev :=
  ((d.modSlot slot fun g => { g with overran := true }).bump Off.grfOverruns).setBit Off.grfStatus 3

theorem Dev.overrunCounted_evr (d : Dev) (slot : Nat) : (d.overrunCounted slot).evr = d.evr := rfl

theorem Dev.overrunCounted_slot {d : Dev} {slot : Nat} (range : slot < d.grf.slots.length) :
    (d.overrunCounted slot).slot slot = { d.slot slot with overran := true } := Dev.slot_modSlot_same range _

theorem Dev.frameLimit_waits (h : (d.slot slot).limit = 0 ∨ (d.slot slot).ticks < (d.slot slot).limit) :
    d.frameLimit slot = d := if_pos (.inr h)

/-- A graph at its frame limit is counted (R287). -/
def Dev.limitCounted (d : Dev) : Dev := (d.bump Off.grfFrameLimits).setBit Off.grfStatus 4

variable (running : (d.slot slot).state = .running)
include running

theorem Dev.graphOverrun_due (on : (d.slot slot).frames ≠ 0) (due : (d.slot slot).frames ≤ (d.slot slot).ticks)
    (first : (d.slot slot).overran = false) :
    d.graphOverrun slot =
      (d.overrunCounted slot).event 0x0A03 { graph := slot, arg0 := slot, arg1 := (d.slot slot).label } :=
  if_neg (by simp [running, on, due, first])

theorem Dev.frameLimit_due (on : (d.slot slot).limit ≠ 0) (due : (d.slot slot).limit ≤ (d.slot slot).ticks) :
    d.frameLimit slot = d.limitCounted.failGraph slot 0x0707 := if_neg (by simp [running, on, due])

end

/-- A record that the recorder has room for is the last of its records. -/
theorem Dev.event_appends {d : Dev} (room : d.evr.records.length < 65536) (c : Nat) (e : EventRec) :
    (d.event c e).evr.records =
      d.evr.records ++ [{ e with seq := d.evr.nextSeq, code := c, ts := d.now, boot := d.evr.boot }] := by
  unfold Dev.event
  rw [if_pos room]
  dsimp only
  split <;> rfl

end Sys2Proof.Machine

open Sys2Proof Sys2Proof.Machine in
theorem graphCompletes : Clause.GraphCompletes := by
  intro s slot range
  refine ⟨fun done alone cancel h cmd => ?_, fun left => ?_⟩
  · rw [exec_graphComplete, execGraphComplete, lift_eq, Dev.graphComplete_alone done alone, Dev.finishRun_eq cmd cancel]
    have grf := (s.dev.told_complete h (if (s.dev.slot slot).auditFailed then 0x0202 else 0) (s.dev.slot slot).result).grf
    have ended := Dev.slot_modSlot_same (grf.symm ▸ range : slot < (s.dev.complete h _ _).grf.slots.length) .ended
    refine ⟨_, rfl, by rw [ended]; rfl, by rw [ended]; rfl, fun k other => ?_, rfl, (s.dev.kept_complete _ _ _).mem⟩
    rw [Dev.slot_modSlot_other _ other, Dev.slot_congr grf]
  · rw [exec_graphComplete, execGraphComplete, lift_eq, Dev.graphComplete_unfinished left]

open Sys2Proof Sys2Proof.Machine in
theorem overrunsAndFrameLimits : Clause.OverrunsAndFrameLimits := by
  intro s slot range running
  refine ⟨fun on due first room => ?_, fun early => ?_, fun on due => ?_, fun early => ?_⟩
  · rw [exec_graphOverrun, execGraphOverrun, lift_eq, Dev.graphOverrun_due running on due first]
    have recorded := Dev.event_appends ((s.dev.overrunCounted_evr slot).symm ▸ room) 0x0A03
      { graph := slot, arg0 := slot, arg1 := (s.dev.slot slot).label }
    rw [Dev.overrunCounted_evr] at recorded
    refine ⟨_, rfl, ?_, ?_, ?_, ?_, ?_, ⟨_, recorded, rfl, rfl⟩, fun k other => ?_, Dev.event_mem _ _ _⟩
    · rw [Dev.slot_congr (Dev.event_grf _ _ _), Dev.overrunCounted_slot range]
    · rw [Dev.slot_congr (Dev.event_grf _ _ _), Dev.overrunCounted_slot range]
    · rw [Dev.slot_congr (Dev.event_grf _ _ _), Dev.overrunCounted_slot range]
      exact running
    · rw [Dev.reg_event _ _ _ (by decide), Dev.overrunCounted, Dev.reg_setBit_other _ _ (by decide), Dev.reg_bump_same]
      rfl
    · rw [Dev.bitAt, Dev.reg_event _ _ _ (by decide)]
      exact Dev.bitAt_setBit_same _ _ (by decide)
    · rw [Dev.slot_congr (Dev.event_grf _ _ _)]
      exact Dev.slot_modSlot_other _ other _
  · rw [exec_graphOverrun, execGraphOverrun, lift_eq, Dev.graphOverrun_waits early]
  · rw [exec_frameLimit, execFrameLimit, lift_eq, Dev.frameLimit_due running on due]
    obtain ⟨stopped, stands⟩ := Dev.failGraph_ends (d := s.dev.limitCounted) range 0x0707 0
    refine ⟨_, rfl, stopped, ?_, ?_, fun alone => ?_⟩
    · rw [stands.reg _ (by decide), Dev.limitCounted, Dev.reg_setBit_other _ _ (by decide), Dev.reg_bump_same]
    · rw [Dev.bitAt, stands.reg _ (by decide)]
      exact Dev.bitAt_setBit_same _ _ (by decide)
    · exact (Dev.kept_failGraph s.dev.limitCounted slot 0x0707 0 alone.2 alone.1).mem
  · rw [exec_frameLimit, execFrameLimit, lift_eq, Dev.frameLimit_waits early]

/-- Settles O17: how a graph completes, and what its ticks make of it. -/
theorem graphsEnd : Obligations.GraphsEnd := ⟨graphCompletes, overrunsAndFrameLimits⟩
end

section
/-! PROOFS. Audits and confirmation firings: what is read for one, how it is judged, and what its outcome leaves (R124-R127,
R156, R159). -/

namespace Sys2Proof.Machine

/-! ## Reads of an audit -/

theorem Dev.Looked.cur {d d' : Dev} (h : d.Looked d') : d'.cur = d.cur := by rw [h]

/-- A read of a tile's outlier table that meets no bad word. -/
theorem Dev.looked_of_tableChk {d d' : Dev} {r : Reader} {l p : Nat} {t : LogTile} {u : Unit}
    (h : d.tableChk r l p t = (.ok u, d')) : d.Looked d' := by
  unfold Dev.tableChk at h
  split at h
  · cases h
    exact .refl d
  split at h
  · exact (Prod.mk.inj h).2 ▸ d.looked_checkPa r t.mirrorAt t.tableBytes
  · unfold Dev.areaChk at h
    extract_lets x at h
    split at h
    · exact (Prod.mk.inj h).2 ▸ d.looked_checkPa r (tileArea p) t.tableBytes
    · cases h

/-- An audit's reads that meet no bad word. -/
theorem Dev.looked_of_auditReads {d d' : Dev} {e : AuditEntry} {t : LogTile} {master : List (List Nat)}
    (h : d.auditReads e t = (.ok master, d')) : d.Looked d' := by
  unfold Dev.auditReads at h
  obtain ⟨_, d1, entry, h⟩ := Chk.ok_of_thn h
  obtain ⟨_, d2, table, h⟩ := Chk.ok_of_thn h
  have staged : d.Looked d1 := (Prod.mk.inj entry).2 ▸ d.looked_checkPa _ _ _
  have read := d2.looked_masterCodes { cls := 4, graph := e.slot, task := e.task, request := e.request } t
  rw [Dev.ok_of_masterChk h] at read
  exact (staged.trans (Dev.looked_of_tableChk table)).trans read

/-! ## Outcomes -/

theorem Dev.modLog_regs (d : Dev) (l : Nat) (f : LogTile → LogTile) : (d.modLog l f).regs = d.regs := by
  unfold Dev.modLog
  split <;> rfl

theorem Dev.modLog_cur (d : Dev) (l : Nat) (f : LogTile → LogTile) : (d.modLog l f).cur = d.cur := by
  unfold Dev.modLog
  split <;> rfl

theorem Dev.log_modLog_same (d : Dev) (l : Nat) (f : LogTile → LogTile) : (d.modLog l f).log l = (d.log l).map f := by
  unfold Dev.modLog
  split
  · next t there =>
    rw [there]
    exact look_put_same _ _ _
  · next none => rw [none]; rfl

theorem Dev.tileState_congr {d d' : Dev} (h : d'.pln = d.pln) (l : Nat) : d'.tileState l = d.tileState l := by
  simp only [Dev.tileState, Dev.log_congr h, Dev.phys_congr h]

theorem Dev.auditStale_congr {d d' : Dev} (h : d'.pln = d.pln) (e : AuditEntry) : d'.auditStale e = d.auditStale e := by
  simp only [Dev.auditStale, Dev.log_congr h, Dev.tileState_congr h]

section
variable (d : Dev) (e : AuditEntry) (x : Nat)

theorem Dev.auditDone_cur (failed : Bool) : (d.auditDone e failed).cur = d.cur := rfl
theorem Dev.auditDone_pln (failed : Bool) : (d.auditDone e failed).pln = d.pln := rfl
theorem Dev.auditDone_regs (failed : Bool) : (d.auditDone e failed).regs = d.regs := rfl

theorem Dev.failAudit_cur (sat : Bool) :
    (d.failAudit e x sat).cur = { d.cur with failing := d.cur.failing ++ [(e.logical, e.serial)] } := by
  unfold Dev.failAudit
  dsimp only
  rw [Dev.modLog_cur]
  simp only [Dev.signature_cur, Dev.setBit_cur, Dev.setReg_cur, Dev.bump_cur]

/-- A failed audit raises CUR_AUDIT_FAILURES, and writes CUR_AUDIT_LAST, CUR_STATUS and its records besides. -/
theorem Dev.reg_failAudit (sat : Bool) {o : Nat} (last : o ≠ Off.curAuditLast) (status : o ≠ Off.curStatus)
    (records : o / 0x10000 ≠ 13) : (d.failAudit e x sat).reg o = (d.bump Off.curAuditFailures).reg o := by
  have marked (d : Dev) (c : Cur) (l : Nat) (f : LogTile → LogTile) :
      (({ d with cur := c } : Dev).modLog l f).reg o = d.reg o :=
    Dev.reg_congr (Dev.modLog_regs _ _ _) o
  unfold Dev.failAudit
  dsimp only
  rw [marked, Dev.reg_signature _ _ _ _ records, Dev.reg_setBit_other _ _ status, Dev.reg_setReg_other _ _ last]

/-- Its tile is to become SUSPECT at the next tick (R127). -/
theorem Dev.log_failAudit (sat : Bool) {t : LogTile} (h : d.log e.logical = some t) :
    (d.failAudit e x sat).log e.logical = some { t with due := t.due ++ [.toSuspect] } := by
  have beside (d : Dev) (c : Cur) (l : Nat) : ({ d with cur := c } : Dev).log l = d.log l := rfl
  unfold Dev.failAudit
  dsimp only
  rw [Dev.log_modLog_same, beside, Dev.log_congr (Dev.signature_pln _ _ _ _), Dev.log_congr (Dev.setBit_pln _ _ _),
    Dev.log_congr (Dev.setReg_pln _ _ _), Dev.log_congr (Dev.bump_pln _ _ _), h]
  rfl

/-- An audit that fails, with its count of what its graph waits for (R126-R128). -/
def Dev.auditFails : Dev := (d.failAudit e x false).auditDone e true

theorem Dev.auditFails_cur : (d.auditFails e x).cur = { d.cur with failing := d.cur.failing ++ [(e.logical, e.serial)] } :=
  (Dev.auditDone_cur _ e true).trans (d.failAudit_cur e x false)

theorem Dev.reg_auditFails {o : Nat} (last : o ≠ Off.curAuditLast) (status : o ≠ Off.curStatus)
    (records : o / 0x10000 ≠ 13) : (d.auditFails e x).reg o = (d.bump Off.curAuditFailures).reg o :=
  (Dev.reg_congr (Dev.auditDone_regs _ e true) o).trans (d.reg_failAudit e x false last status records)

theorem Dev.log_auditFails {t : LogTile} (h : d.log e.logical = some t) :
    (d.auditFails e x).log e.logical = some { t with due := t.due ++ [.toSuspect] } :=
  (Dev.log_congr (Dev.auditDone_pln _ e true) _).trans (d.log_failAudit e x false h)

theorem Dev.passAudit_regs : (d.passAudit e).regs = d.regs := by
  unfold Dev.passAudit
  dsimp only
  split <;> rfl

theorem Dev.passAudit_queues : (d.passAudit e).cur.queue = d.cur.queue ∧ (d.passAudit e).cur.firings = d.cur.firings := by
  unfold Dev.passAudit
  dsimp only
  split <;> exact ⟨rfl, rfl⟩

/-- A passed audit clears what its tile's earlier outputs wait for (R127). -/
theorem Dev.mem_affected_passAudit (h : d.failurePending e.logical = false) (a : Nat × Nat × Nat × Nat) :
    a ∈ (d.passAudit e).cur.affected ↔ a ∈ d.cur.affected ∧ ¬ (a.1 = e.logical ∧ a.2.1 ≤ e.serial) := by
  have clear : (d.auditDone e false).failurePending e.logical = false := h
  unfold Dev.passAudit
  dsimp only
  rw [clear]
  refine List.mem_filter.trans (and_congr .rfl ?_)
  simp only [Bool.not_eq_true', Bool.and_eq_false_iff, decide_eq_false_iff_not, not_and_or]

end

/-! ## Judgement -/

/-- The columns of an audit that miss, each with its shot and its excess (R125). -/
def AuditEntry.misses (e : AuditEntry) (t : LogTile) (master : List (List Nat)) : List (Nat × Nat × Nat) :=
  e.codes.flatMap fun c => (recordMisses e t master e.decades e.warmer c).map fun m => (m.1, c.shot, m.2)

theorem AuditEntry.misses_eq_nil {e : AuditEntry} {t : LogTile} {master : List (List Nat)} :
    e.misses t master = [] ↔ e.codes.flatMap (recordMisses e t master e.decades e.warmer) = [] := by
  simp only [AuditEntry.misses, List.flatMap_eq_nil_iff, List.map_eq_nil_iff]

/-- The firing that confirms an audit's misses (R126). -/
def AuditEntry.confirmation (e : AuditEntry) (ms : List (Nat × Nat × Nat)) : Firing :=
  { audit := e, shots := (ms.map (·.2.1)).dedup, cols := (ms.map fun m => (m.1, m.2.1)).dedup
    missExcess := (ms.map (·.2.2)).foldl max 0 }

/-- An audit is counted, and one with a miss counted as such. -/
def Dev.missCounted (d : Dev) : Dev := (d.bump64 Off.curAuditsLo).bump Off.curAuditMisses

theorem Dev.missCounted_cur (d : Dev) : d.missCounted.cur = d.cur :=
  (Dev.bump_cur _ _ _).trans (d.bump64_cur _ _)

theorem Dev.missCounted_pln (d : Dev) : d.missCounted.pln = d.pln :=
  (Dev.bump_pln _ _ _).trans (d.bump64_pln _ _)

theorem Dev.missCounted_audits (d : Dev) :
    d.missCounted.reg64 Off.curAuditsLo = (d.reg64 Off.curAuditsLo + 1) % 2 ^ 64 := by
  rw [← Dev.reg64_bump64]
  exact Dev.reg64_congr (Dev.reg_bump_other _ _ (by decide)) (Dev.reg_bump_other _ _ (by decide))

theorem Dev.missCounted_failures (d : Dev) : d.missCounted.reg Off.curAuditFailures = d.reg Off.curAuditFailures := by
  rw [Dev.missCounted, Dev.reg_bump_other _ _ (by decide), Dev.reg_bump64_other _ _ (by decide) (by decide)]

/-- The tile of an audit is to fire again (R126). -/
def Dev.toConfirm (d : Dev) (e : AuditEntry) (ms : List (Nat × Nat × Nat)) : Dev :=
  { d with cur := { d.cur with firings := d.cur.firings ++ [e.confirmation ms] } }

theorem Dev.toConfirm_regs (d : Dev) (e : AuditEntry) (ms : List (Nat × Nat × Nat)) : (d.toConfirm e ms).regs = d.regs := rfl

theorem Dev.toConfirm_cur (d : Dev) (e : AuditEntry) (ms : List (Nat × Nat × Nat)) :
    (d.toConfirm e ms).cur = { d.cur with firings := d.cur.firings ++ [e.confirmation ms] } := rfl

section
variable {d d' : Dev} {e : AuditEntry} {t : LogTile} {master : List (List Nat)}
  (read : d.auditReads e t = (.ok master, d'))
include read

theorem Dev.judgeAudit_passes (hit : e.misses t master = []) :
    d.judgeAudit e t = (d'.bump64 Off.curAuditsLo).passAudit e := by
  unfold Dev.judgeAudit
  rw [read]
  exact if_pos hit

/-- An audit with a miss fails where its tile has changed since, and is confirmed otherwise (R126). -/
theorem Dev.judgeAudit_misses (missed : e.misses t master ≠ []) :
    d.judgeAudit e t = if d'.auditStale e = true then
        d'.missCounted.auditFails e (((e.misses t master).map (·.2.2)).foldl max 0)
      else d'.missCounted.toConfirm e (e.misses t master) := by
  rw [← Dev.auditStale_congr d'.missCounted_pln]
  unfold Dev.judgeAudit
  rw [read]
  exact if_neg missed

end

/-! ## A tile slot of the wide engine -/

section
variable {d : Dev} {e : AuditEntry} {rest : List AuditEntry}

theorem Dev.auditRun_waits (h : d.cur.queue = [] ∨ d.bitAt Off.wdeCtrl 0 = true ∨ d.auditMay = false) : d.auditRun = d := by
  unfold Dev.auditRun
  split
  · rfl
  · next some =>
    refine if_pos ?_
    rcases h with none | held | turn
    · rw [none] at some
      cases some
    · rw [held, Bool.true_or]
    · rw [turn, Bool.not_false, Bool.or_true]

/-- The oldest audit is off its queue, for a tile slot of its own (R156). -/
def Dev.slotOpened (d : Dev) (rest : List AuditEntry) : Dev :=
  { d with cur := { d.cur with queue := rest }, wde := { d.wde with slotCount := 0 } }

/-- The audit has taken the slot, for its tile's share of the rows (R156, R159). -/
def Dev.slotTaken (d : Dev) (rest : List AuditEntry) (e : AuditEntry) (x : LogTile) : Dev :=
  ((d.slotOpened rest).bumpWrap Off.wdeAuditTiles).wideWork 1 ((x.auditGrid e).2 / max (x.auditGrid e).1 1)

theorem Dev.onlyRegs_slotTaken (d : Dev) (rest : List AuditEntry) (e : AuditEntry) (x : LogTile) :
    (d.slotOpened rest).OnlyRegs (d.slotTaken rest e x) :=
  (Dev.onlyRegs_setReg _ _ _).trans (Dev.onlyRegs_wideWork _ _ _)

theorem Dev.slotTaken_pln (d : Dev) (rest : List AuditEntry) (e : AuditEntry) (x : LogTile) :
    (d.slotTaken rest e x).pln = d.pln := by
  rw [d.onlyRegs_slotTaken rest e x]
  rfl

theorem Dev.slotTaken_cur (d : Dev) (rest : List AuditEntry) (e : AuditEntry) (x : LogTile) :
    (d.slotTaken rest e x).cur = { d.cur with queue := rest } := by
  rw [d.onlyRegs_slotTaken rest e x]
  rfl

theorem Dev.slotTaken_tiles (d : Dev) (rest : List AuditEntry) (e : AuditEntry) (x : LogTile) :
    (d.slotTaken rest e x).reg Off.wdeAuditTiles = (d.reg Off.wdeAuditTiles + 1) % 2 ^ 32 := by
  rw [Dev.slotTaken, Dev.wideWork, Dev.reg_bump64_other _ _ (by decide) (by decide),
    Dev.reg_bump64_other _ _ (by decide) (by decide), Dev.reg_bumpWrap_same]
  rfl

/-- The audit has had one tile slot more. -/
def AuditEntry.advanced (e : AuditEntry) : AuditEntry := { e with tilesDone := e.tilesDone + 1 }

/-- An audit that has not had its last slot goes back to the front of the queue. -/
def Dev.auditWaits (d : Dev) (rest : List AuditEntry) (e : AuditEntry) : Dev :=
  { d with cur := { d.cur with queue := e.advanced :: rest } }

theorem Dev.auditRun_turn {x : LogTile} (queue : d.cur.queue = e :: rest) (on : d.bitAt Off.wdeCtrl 0 = false)
    (turn : d.auditMay = true) (there : d.log e.logical = some x) :
    d.auditRun = if e.tilesDone + 1 < (x.auditGrid e).1 then (d.slotTaken rest e x).auditWaits rest e
      else (d.slotTaken rest e x).judgeAudit e.advanced x := by
  have found : ({ d with cur := { d.cur with queue := rest }, wde := { d.wde with slotCount := 0 } } : Dev).log e.logical =
      some x := there
  unfold Dev.auditRun
  rw [queue]
  dsimp only
  rw [on, turn, if_neg (by decide), found]
  rfl

/-- A slot that is not an audit's last one changes nothing but the queue, the count of slots and registers. -/
theorem Dev.auditWaits_eq (d : Dev) (rest : List AuditEntry) (e : AuditEntry) (x : LogTile) :
    (d.slotTaken rest e x).auditWaits rest e = { d with
      cur := { d.cur with queue := e.advanced :: rest }, wde := { d.wde with slotCount := 0 }
      regs := ((d.slotTaken rest e x).auditWaits rest e).regs } := by
  have taken := d.onlyRegs_slotTaken rest e x
  generalize d.slotTaken rest e x = d' at taken ⊢
  rw [taken]
  rfl

theorem Dev.auditWaits_regs (d : Dev) (rest : List AuditEntry) (e : AuditEntry) : (d.auditWaits rest e).regs = d.regs := rfl

theorem Dev.auditWaits_tiles (d : Dev) (rest : List AuditEntry) (e : AuditEntry) (x : LogTile) :
    ((d.slotTaken rest e x).auditWaits rest e).reg Off.wdeAuditTiles = (d.reg Off.wdeAuditTiles + 1) % 2 ^ 32 := by
  rw [Dev.reg_congr (Dev.auditWaits_regs _ _ _), Dev.slotTaken_tiles]

end

/-! ## Firings -/

/-- The temperature of a die is what its eight sensors read. -/
theorem Dev.dieTemp_congr {d d' : Dev} {die : Nat}
    (h : ∀ b, d'.reg (Off.thmSensor + 4 * (24 + 8 * die + b)) = d.reg (Off.thmSensor + 4 * (24 + 8 * die + b))) :
    d'.dieTemp die = d.dieTemp die := by simp only [Dev.dieTemp, Dev.fld, h]

theorem Dev.dieTemp_steps (d : Dev) (n die : Nat) : (d.bump64 Off.plnStepsLo n).dieTemp die = d.dieTemp die := by
  have sensor : Off.thmSensor = 0x100100 := rfl
  have steps : Off.plnStepsLo = 0x10018 := rfl
  exact Dev.dieTemp_congr fun b => d.reg_bump64_other n (by omega) (by omega)

/-- A shot that fires draws its noise and changes nothing else. -/
theorem Dev.fireShot_dev (d : Dev) (e : AuditEntry) (p shot : Nat) :
    ∃ n, (d.fireShot e p shot).2 = { d with fresh := n } := by
  refine List.foldlRecOn (motive := fun x : List CodeRec × Dev => ∃ n, x.2 = { d with fresh := n }) _ _ ⟨d.fresh, rfl⟩ ?_
  rintro x ⟨n, same⟩ phase -
  dsimp only
  split
  · exact ⟨n, same⟩
  · rw [same]
    exact ⟨n + 1, rfl⟩

section
variable {d : Dev} {f : Firing} {rest : List Firing}

/-- The pending firings after the oldest. -/
def Dev.firingsLeft (d : Dev) (rest : List Firing) : Dev := { d with cur := { d.cur with firings := rest } }

theorem Dev.confirmationFiring_none (h : d.cur.firings = []) : d.confirmationFiring = d := by
  unfold Dev.confirmationFiring
  rw [h]

/-- The firing of a tile that has changed since is not made: its audit fails (R126). -/
theorem Dev.confirmationFiring_stale (firings : d.cur.firings = f :: rest) (stale : d.auditStale f.audit = true) :
    d.confirmationFiring = (d.firingsLeft rest).auditFails f.audit f.missExcess := by
  have changed : (d.firingsLeft rest).auditStale f.audit = true := stale
  unfold Dev.confirmationFiring
  rw [firings]
  dsimp only
  split
  · split
    · exact if_pos changed
    · rfl
  · rfl

/-- The columns that miss again, of those that the firing confirms (R126). -/
def Firing.missesAgain (f : Firing) (t : LogTile) (master : List (List Nat)) (shot : Nat) (ages : Nat × Nat)
    (cs : List CodeRec) : List (Nat × Nat) :=
  cs.flatMap fun c => (recordMisses f.audit t master ages.1 ages.2 c).filter fun m => f.cols.contains (m.1, shot)

variable {x : LogTile} {p shot : Nat}

/-- The oldest firing of a tile that has not changed since fires its next shot. -/
theorem Dev.confirmationFiring_fires (firings : d.cur.firings = f :: rest) (fresh : d.auditStale f.audit = false)
    (there : d.log f.audit.logical = some x) (served : x.phys = some p) (last : f.shots = [shot]) :
    d.confirmationFiring = (d.firingsLeft rest).confirmShot f x p shot [] := by
  have unchanged : (d.firingsLeft rest).auditStale f.audit = false := fresh
  have record : (d.firingsLeft rest).log f.audit.logical = some x := there
  simp only [Dev.firingsLeft] at unchanged record
  simp only [Dev.confirmationFiring, firings, record, last, served, unchanged, Bool.false_eq_true, if_false]
  rfl

/-- A firing's last shot decides its audit (R126). -/
theorem Dev.confirmShot_last {cs : List CodeRec} {d1 d2 : Dev} {master : List (List Nat)} (good : f.failed = false)
    (fired : d.fireShot f.audit p shot = (cs, d1))
    (read : (d1.bump64 Off.plnStepsLo (stepsOf f.audit.transposed cs.length)).auditReads f.audit x = (.ok master, d2)) :
    d.confirmShot f x p shot [] =
      let again := f.missesAgain x master shot ((d.phys p).ages d.now (d.dieTemp (dieOf p))) cs
      if again = [] then d2.passAudit f.audit else d2.auditFails f.audit ((again.map (·.2)).foldl max f.excess) := by
  obtain ⟨n, same⟩ := d.fireShot_dev f.audit p shot
  rw [fired] at same
  have ages : ((d1.bump64 Off.plnStepsLo (stepsOf f.audit.transposed cs.length)).phys p).ages
      (d1.bump64 Off.plnStepsLo (stepsOf f.audit.transposed cs.length)).now
      ((d1.bump64 Off.plnStepsLo (stepsOf f.audit.transposed cs.length)).dieTemp (dieOf p)) =
      (d.phys p).ages d.now (d.dieTemp (dieOf p)) := by
    rw [Dev.dieTemp_steps, show d1 = { d with fresh := n } from same]
    rfl
  simp only [Dev.confirmShot, fired, read, ages, good, Bool.false_or, decide_eq_true_eq, ne_eq, not_true_eq_false, if_false]
  exact ite_not _ _ _

end

end Sys2Proof.Machine

/-! ## The obligation -/

open Sys2Proof Sys2Proof.Machine in
/-- Settles O29: a tile slot advances or judges the oldest audit; a firing decides its own. -/
theorem auditsJudgeCodes : Obligations.AuditsJudgeCodes := by
  refine ⟨fun s => ⟨fun waits => ?_, fun e rest x queue on turn there => ⟨fun more => ?_, ?_⟩⟩,
    fun s f rest => ⟨fun none => ?_, fun firings stale => ?_, ?_⟩⟩
  · rw [exec_auditRun, execAuditRun, lift_eq, Dev.auditRun_waits waits]
  · rw [exec_auditRun, execAuditRun, lift_eq, Dev.auditRun_turn queue on turn there, if_pos more]
    exact ⟨_, rfl, rfl, s.dev.auditWaits_tiles rest e x,
      congrArg (fun d : Dev => { s with dev := d }) (s.dev.auditWaits_eq rest e x)⟩
  · intro final master d read misses
    rw [exec_auditRun, execAuditRun, lift_eq, Dev.auditRun_turn queue on turn there, if_neg (Nat.not_lt.mpr final)]
    change (s.dev.slotTaken rest e x).auditReads e.advanced x = _ at read
    have looked := Dev.looked_of_auditReads read
    have left : d.cur.queue = rest := by rw [looked.cur, Dev.slotTaken_cur]
    have record : d.log e.logical = some x := (Dev.log_congr (looked.pln.trans (Dev.slotTaken_pln _ _ _ _)) _).trans there
    by_cases hit : misses = []
    · rw [Dev.judgeAudit_passes read (AuditEntry.misses_eq_nil.mpr hit)]
      obtain ⟨queued, pending⟩ := (d.bump64 Off.curAuditsLo).passAudit_queues e.advanced
      have regs := Dev.reg_congr ((d.bump64 Off.curAuditsLo).passAudit_regs e.advanced)
      refine ⟨_, rfl, queued.trans left, ?_, fun _ => ⟨?_, pending, fun clear => ?_⟩, absurd hit, absurd hit⟩
      · rw [Dev.reg64_congr (regs _) (regs _), Dev.reg64_bump64]
      · rw [regs, Dev.reg_bump64_other _ _ (by decide) (by decide)]
      · exact (d.bump64 Off.curAuditsLo).mem_affected_passAudit e.advanced clear
    · have missed := fun none => hit (AuditEntry.misses_eq_nil.mp none)
      rw [Dev.judgeAudit_misses read missed]
      cases stale : d.auditStale e.advanced with
      | false =>
        rw [if_neg Bool.false_ne_true]
        have regs := Dev.reg_congr (d.missCounted.toConfirm_regs e.advanced (e.advanced.misses x master))
        refine ⟨_, rfl, ?_, ?_, fun none => absurd none hit, fun _ _ =>
          ⟨?_, e.advanced.confirmation (e.advanced.misses x master), ?_, rfl, rfl⟩,
          fun _ changed => absurd (stale.symm.trans changed) Bool.false_ne_true⟩
        · rw [Dev.toConfirm_cur]
          exact left
        · rw [Dev.reg64_congr (regs _) (regs _), Dev.missCounted_audits]
        · rw [regs, Dev.missCounted_failures]
        · rw [Dev.toConfirm_cur, Dev.missCounted_cur]
      | true =>
        rw [if_pos rfl]
        have regs {o : Nat} := d.missCounted.reg_auditFails e.advanced
          (((e.advanced.misses x master).map (·.2.2)).foldl max 0) (o := o)
        refine ⟨_, rfl, ?_, ?_, fun none => absurd none hit, fun _ fresh => ?_,
          fun _ _ => ⟨?_, ?_, _, Dev.log_auditFails _ _ _ record, ?_⟩⟩
        · rw [Dev.auditFails_cur]
          exact left
        · refine (Dev.reg64_congr ?_ ?_).trans d.missCounted_audits
          · rw [regs (by decide) (by decide) (by decide), Dev.reg_bump_other _ _ (by decide)]
          · rw [regs (by decide) (by decide) (by decide), Dev.reg_bump_other _ _ (by decide)]
        · exact absurd (fresh.symm.trans stale) Bool.false_ne_true
        · rw [regs (by decide) (by decide) (by decide), Dev.reg_bump_same, Dev.missCounted_failures]
        · rw [Dev.auditFails_cur, Dev.missCounted_cur]
        · exact List.mem_append_right _ (List.mem_singleton_self _)
  · rw [exec_confirmationFiring, execConfirmationFiring, lift_eq, Dev.confirmationFiring_none none]
  · rw [exec_confirmationFiring, execConfirmationFiring, lift_eq, Dev.confirmationFiring_stale firings stale]
    refine ⟨_, rfl, by rw [Dev.auditFails_cur]; rfl, ?_⟩
    rw [Dev.reg_auditFails _ _ _ (by decide) (by decide) (by decide), Dev.reg_bump_same]
    rfl
  · intro x p shot cs d master d' firings fresh there served last good fired read ages again
    rw [exec_confirmationFiring, execConfirmationFiring, lift_eq,
      Dev.confirmationFiring_fires firings fresh there served last, Dev.confirmShot_last (d := s.dev.firingsLeft rest) good fired read]
    have left : d'.cur.firings = rest := by
      obtain ⟨n, same⟩ := (s.dev.firingsLeft rest).fireShot_dev f.audit p shot
      rw [(Dev.looked_of_auditReads read).cur, Dev.bump64_cur, show d = { s.dev.firingsLeft rest with fresh := n } from
        (congrArg Prod.snd fired).symm.trans same]
      rfl
    dsimp only
    rw [show f.missesAgain x master shot (((s.dev.firingsLeft rest).phys p).ages (s.dev.firingsLeft rest).now
      ((s.dev.firingsLeft rest).dieTemp (dieOf p))) cs = again from rfl]
    by_cases clear : again = []
    · rw [if_pos clear, if_pos clear]
      exact ⟨_, rfl, (d'.passAudit_queues f.audit).2.trans left, Dev.reg_congr (d'.passAudit_regs f.audit) _⟩
    · rw [if_neg clear, if_neg clear]
      refine ⟨_, rfl, by rw [Dev.auditFails_cur]; exact left, ?_⟩
      rw [Dev.reg_auditFails _ _ _ (by decide) (by decide) (by decide), Dev.reg_bump_same]
end

section
/-! PROOFS. What an operation counts when it completes: beside the tasks, the tails and device memory below the near store
(R76, R105, R120-R124, R127, R132). -/

namespace Sys2Proof.Machine

/-- A half of the count of plane operations. -/
@[reducible] def opsCount (o : Nat) : Prop := o = Off.plnOpsLo ∨ o = Off.plnOpsHi

/-- Between `d` and `d'` an operation was counted: every task's progress, the tails of operations, the count of operations,
and device memory below the near store stand. -/
structure Dev.Counted (d d' : Dev) : Prop where
  slots : d'.grf.slots.length = d.grf.slots.length
  run : ∀ i, (d'.slot i).run = (d.slot i).run
  tails : d'.pln.tails = d.pln.tails
  reg : ∀ o, opsCount o → d'.reg o = d.reg o
  hbm : ∀ a, a < 0x8000000000 → memGet d'.mem a = memGet d.mem a

theorem Dev.TilesChanged.counted {d d' : Dev} (h : d.TilesChanged d') : d.Counted d' :=
  ⟨h.slots, h.run, h.tails, fun o ho => h.reg o (by rcases ho with rfl | rfl <;> decide), h.hbm⟩

theorem Dev.Counted.refl (d : Dev) : d.Counted d := (Dev.TilesChanged.refl d).counted

theorem Dev.Counted.trans {a b c : Dev} (h : a.Counted b) (k : b.Counted c) : a.Counted c where
  slots := k.slots.trans h.slots
  run i := (k.run i).trans (h.run i)
  tails := k.tails.trans h.tails
  reg o ho := (k.reg o ho).trans (h.reg o ho)
  hbm a ha := (k.hbm a ha).trans (h.hbm a ha)

theorem Dev.Counted.foldl {α : Type} {f : Dev → α → Dev} (hf : ∀ (d : Dev) (a : α), d.Counted (f d a)) (l : List α) (d : Dev) :
    d.Counted (l.foldl f d) := by
  induction l generalizing d with
  | nil => exact .refl d
  | cons a l ih => exact (hf d a).trans (ih _)

theorem Dev.Counted.hasTask {d d' : Dev} (h : d.Counted d') {slot task : Nat} (k : d.HasTask slot task) : d'.HasTask slot task :=
  ⟨h.slots ▸ k.slot_lt, (h.run slot).symm ▸ k.task_lt⟩

/-! ## Registers -/

theorem Dev.counted_setReg (d : Dev) {o : Nat} (v : Nat) (h : ¬ opsCount o) : d.Counted (d.setReg o v) :=
  ⟨rfl, fun _ => rfl, rfl, fun _ ho => d.reg_setReg_other _ (by rintro rfl; exact h ho), fun _ _ => rfl⟩

theorem Dev.counted_setBit (d : Dev) {o : Nat} (b : Nat) (h : ¬ opsCount o) : d.Counted (d.setBit o b) := d.counted_setReg _ h

theorem Dev.counted_bump (d : Dev) {o : Nat} (n : Nat) (h : ¬ opsCount o) : d.Counted (d.bump o n) := d.counted_setReg _ h

theorem Dev.counted_bump64 (d : Dev) {o : Nat} (n : Nat) (h : ¬ opsCount o) (h' : ¬ opsCount (o + 4)) :
    d.Counted (d.bump64 o n) := (d.counted_setReg _ h).trans (Dev.counted_setReg _ _ h')

theorem Dev.counted_countFlag (d : Dev) {status counter : Nat} (b n : Nat) (h : ¬ opsCount status) (h' : ¬ opsCount counter) :
    d.Counted (d.countFlag status b counter n) := by
  unfold Dev.countFlag
  split
  · exact .refl d
  · exact (d.counted_bump n h').trans (Dev.counted_setBit _ b h)

/-- What the tail's edge and accumulations count (R58, R139). -/
theorem Dev.counted_edge (d : Dev) (c : EdgeCount) (clips : Nat) :
    d.Counted ((d.edge Off.plnEdgeStatus c).accClipped clips) :=
  (((d.counted_countFlag _ _ (by decide) (by decide)).trans (Dev.counted_countFlag _ _ _ (by decide) (by decide))).trans
    (Dev.counted_countFlag _ _ _ (by decide) (by decide))).trans
      (Dev.counted_countFlag (status := Off.wdeStatus) (counter := Off.wdeAccClipped) _ _ _ (by decide) (by decide))

theorem Dev.counted_wideWork (d : Dev) (tiles rows : Nat) : d.Counted (d.wideWork tiles rows) :=
  (d.counted_bump64 _ (by decide) (by decide)).trans (Dev.counted_bump64 (o := Off.wdeTilesLo) _ _ (by decide) (by decide))

theorem Dev.counted_measure (d : Dev) (f : Hub → Hub) : d.Counted (d.measure f) := by
  unfold Dev.measure
  split
  · refine Dev.TilesChanged.counted ?_
    exact .of_parts rfl rfl rfl rfl
  · exact .refl d

/-! ## Participations -/

theorem Dev.counted_modLog (d : Dev) (l : Nat) (f : LogTile → LogTile) : d.Counted (d.modLog l f) := (d.tilesChanged_modLog l f).counted

theorem Dev.counted_cur (d : Dev) (c : Cur) : d.Counted { d with cur := c } := by
  refine Dev.TilesChanged.counted ?_
  exact .of_parts rfl rfl rfl rfl

/-- A captured entry joins the audit queue, at its place in the staging SRAM (R124). -/
def Dev.auditQueued (d : Dev) (slot : Nat) (a : AuditEntry) : Dev :=
  let d := d.zeroPa (auditArea a.place) auditBytes
  let d := { d with cur := { d.cur with queue := d.cur.queue ++ [a] } }
  let d := d.modSlot slot fun g => { g with audits := g.audits + 1 }
  d.setFld Off.curAuditQueue 25 16 (max (d.fld Off.curAuditQueue 25 16) d.cur.queue.length)

theorem Dev.counted_auditQueued (d : Dev) (slot : Nat) (a : AuditEntry) : d.Counted (d.auditQueued slot a) := by
  have staging : 0x8000000000 ≤ auditArea a.place := by
    unfold auditArea
    omega
  unfold Dev.auditQueued
  extract_lets zeroed cur queued counted
  have h1 : d.Counted zeroed := (d.tilesChanged_zeroPa auditBytes staging).counted
  have h2 : zeroed.Counted queued := zeroed.counted_cur _
  have h3 : queued.Counted counted :=
    (queued.tilesChanged_modSlot slot (f := fun g => { g with audits := g.audits + 1 }) fun _ => rfl).counted
  exact ((h1.trans h2).trans h3).trans (counted.counted_setReg _ (by decide))

theorem Dev.capture_taken {d : Dev} (h : ¬ 512 ≤ d.cur.queue.length) (o : PlaneOp) (i serial : Nat) :
    ∃ a, d.capture o i serial = d.auditQueued o.slot a := by
  unfold Dev.capture
  extract_lets e
  rw [if_neg h]
  exact ⟨_, rfl⟩

theorem Dev.counted_capture (d : Dev) (o : PlaneOp) (i serial : Nat) : d.Counted (d.capture o i serial) := by
  by_cases full : 512 ≤ d.cur.queue.length
  · unfold Dev.capture Dev.skipAudit
    extract_lets e
    rw [if_pos full]
    exact (d.counted_bump 1 (by decide)).trans (Dev.counted_setBit (o := Off.curStatus) _ 5 (by decide))
  · obtain ⟨a, e⟩ := Dev.capture_taken full o i serial
    rw [e]
    exact d.counted_auditQueued _ _

theorem Dev.counted_participate (d : Dev) (o : PlaneOp) (i : Nat) : d.Counted (d.participate o i) := by
  unfold Dev.participate
  extract_lets l serial rows cur joined used n reset
  have base : d.Counted used := .trans (b := joined) (d.counted_cur _) (joined.counted_modLog _ _)
  split
  · exact base
  split
  · exact (base.trans (used.counted_cur _)).trans (Dev.counted_capture _ _ _ _)
  · exact base.trans (used.counted_cur _)

/-! ## Tiles replaced -/

theorem Dev.counted_failAudit (d : Dev) (e : AuditEntry) (excess : Nat) (sat : Bool) : d.Counted (d.failAudit e excess sat) := by
  unfold Dev.failAudit
  dsimp only
  refine .trans (.trans (.trans ?_ (Dev.tilesChanged_signature _ _ _ _).counted) (Dev.counted_cur _ _)) (Dev.counted_modLog _ _ _)
  exact ((d.counted_bump (o := Off.curAuditFailures) 1 (by decide)).trans
    (Dev.counted_setReg (o := Off.curAuditLast) _ _ (by decide))).trans (Dev.counted_setBit (o := Off.curStatus) _ 4 (by decide))

theorem Dev.counted_satDigital (d : Dev) (o : PlaneOp) (serial i : Nat) : d.Counted (d.satDigital o serial i) := by
  unfold Dev.satDigital
  split
  · refine .trans ?_ (Dev.TilesChanged.counted (Dev.tilesChanged_modSlot _ _ ?_))
    · exact ((d.counted_bump 1 (by decide)).trans (Dev.counted_setBit (o := Off.curStatus) _ 6 (by decide))).trans
        (Dev.counted_failAudit _ _ _ _)
    · exact fun _ => rfl
  · exact .refl d

/-! ## The whole count -/

/-- Once it is counted in PLN_OPS, what an operation counts further leaves that count alone. -/
theorem Dev.counted_countOp (d : Dev) (o : PlaneOp) : (d.bump64 Off.plnOpsLo).Counted (d.countOp o) := by
  have phase : ¬ opsCount (Off.plnPhaseOps + 4 * (o.phases - 1)) := by
    unfold opsCount Off.plnPhaseOps Off.plnOpsLo Off.plnOpsHi
    omega
  have pass : ¬ opsCount (Off.curPassOps + 4 * (o.passes - 2)) := by
    unfold opsCount Off.curPassOps Off.plnOpsLo Off.plnOpsHi
    omega
  unfold Dev.countOp
  extract_lets is serial counted steps phases passes recomputed participated used
  have h1 : counted.Counted steps := by
    show counted.Counted (if _ then _ else _)
    split
    · exact .refl _
    · exact counted.counted_measure _
  have h2 : steps.Counted phases := by
    show steps.Counted (if _ then _ else _)
    split
    · exact .refl _
    · exact steps.counted_bump 1 phase
  have h3 : phases.Counted passes := by
    show phases.Counted (if _ then _ else _)
    split
    · exact phases.counted_bump 1 pass
    · exact .refl _
  have h4 : passes.Counted recomputed := passes.counted_bump _ (by decide)
  have h5 : recomputed.Counted participated := .foldl (fun d i => d.counted_participate o i) _ _
  have h6 : participated.Counted used := .foldl (fun d i => d.counted_modLog _ _) _ _
  exact (((((h1.trans h2).trans h3).trans h4).trans h5).trans h6).trans (.foldl (fun d i => d.counted_satDigital o serial i) _ _)

end Sys2Proof.Machine
end

section
/-! PROOFS. Correction passes, the adapter term of a plane operation, and the end of its tail (R107, R119, R129, R141, R152,
R156, R159, R403). -/

namespace Sys2Proof.Machine

/-! ## Reads of an adapter -/

theorem Dev.looked_readAll (d : Dev) (r : Reader) (space : Nat) (rs : List (Nat × Nat)) : d.Looked (d.readAll r space rs).2 := by
  refine Dev.Looked.foldl (fun x w => ?_) rs (Acc.ok [], d)
  split
  · have read := x.2.looked_readVa r space w.1 w.2
    split <;> · next e => rwa [e] at read
  · exact .refl _

theorem Dev.looked_readMatrix (d : Dev) (r : Reader) (space va : Nat) (f : NumFmt) (n k : Nat) :
    d.Looked (d.readMatrix r space va f n k).2 := .thn (.chk (d.looked_readAll _ _ _)) fun _ e => .refl e

theorem Dev.looked_adapterY (d : Dev) (r : Reader) (space : Nat) (a : AdapterDesc) (dIn n : Nat) (xs : List (Exact × Bool)) :
    d.Looked (d.adapterY r space a dIn n xs).2 :=
  .thn (.thn (d.looked_readMatrix _ _ _ _ _ _) fun _ e => .refl e) fun _ e =>
    .thn (.thn (e.looked_readMatrix _ _ _ _ _ _) fun _ e => .refl e) fun _ e => .refl e

/-! ## Correction passes -/

section
variable {d d' : Dev} {o : PlaneOp} {u : Unit}

/-- The reads of the master rows of an operation's next pass (R107). -/
def Dev.passReads (d : Dev) (o : PlaneOp) : Chk Unit × Dev :=
  let r := d.reader 3 0 o.slot o.task
  (o.passChannels o.passesDone).foldl (fun (x : Chk Unit × Dev) c =>
    Chk.thn x fun _ d => Chk.thn (d.channelRow r o c.1 c.2.1) fun _ d => (.ok (), d)) (.ok (), d)

theorem Dev.correctionPass_idle (h : d.passOp = none) : d.correctionPass = d := by
  unfold Dev.correctionPass
  rw [h]

theorem Dev.correctionPass_reads (h : d.passOp = some o) (reads : d.passReads o = (.ok u, d')) :
    d.correctionPass = d'.modOp o.slot o.task fun o => { o with passesDone := o.passesDone + 1 } := by
  unfold Dev.correctionPass
  rw [h]
  exact Dev.act_ok reads _ _ _ _ _ _

end

/-! ## The adapter term -/

section
variable {d d1 d2 : Dev} {o : PlaneOp} {e : Epi} {a : AdapterDesc} {y : List Word} {n : Nat} {c : EdgeCount}

theorem Dev.adapterTerm_waits
    (h : d.bitAt Off.wdeCtrl 0 = true ∨ d.wde.tile0.isSome = true ∧ d.wde.tile1.isSome = true) : d.adapterTerm = d := by
  unfold Dev.adapterTerm
  exact if_pos (by simpa using h)

/-- What the wide engine counts for a term: its edge, its clips, and the tiles and rows it took (R58, R139, R159). -/
def Dev.termCounted (d : Dev) (c : EdgeCount) (n tiles rows : Nat) : Dev :=
  ((d.edge Off.wdeEdgeStatus c).accClipped n).wideWork tiles rows

theorem Dev.wideWork_pln (d : Dev) (tiles rows : Nat) : (d.wideWork tiles rows).pln = d.pln :=
  (Dev.bump64_pln _ _ _).trans (Dev.bump64_pln _ _ _)

theorem Dev.wideWork_mem (d : Dev) (tiles rows : Nat) : (d.wideWork tiles rows).mem = d.mem :=
  (Dev.bump64_mem _ _ _).trans (Dev.bump64_mem _ _ _)

@[simp] theorem Dev.termCounted_pln (d : Dev) (c : EdgeCount) (n tiles rows : Nat) : (d.termCounted c n tiles rows).pln = d.pln := by
  rw [Dev.termCounted, Dev.wideWork_pln, Dev.accClipped, Dev.countFlag_pln, Dev.edge_pln]

@[simp] theorem Dev.termCounted_mem (d : Dev) (c : EdgeCount) (n tiles rows : Nat) : (d.termCounted c n tiles rows).mem = d.mem := by
  rw [Dev.termCounted, Dev.wideWork_mem]
  simp [Dev.accClipped, Dev.edge]

/-- The running operation waits for its term where no tail does: it is computed. -/
theorem Dev.adapterTerm_computes (held : d.bitAt Off.wdeCtrl 0 = false) (tile : d.wde.tile0 = none ∨ d.wde.tile1 = none)
    (tails : d.pln.tails = []) (op : d.pln.op = some o) (waits : o.y = none) (runs : d.stopped o.slot o.task = false)
    (epi : d.loadEpi (d.reader 4 0 o.slot o.task) o.space o.body.epilogue o.body.rows o.body.cols o.body.transposed =
      (.ok (e, some a), d1))
    (term : d1.adapterY (d.reader 4 0 o.slot o.task) o.space a o.body.rows o.body.cols
      ((inElems o.body.inFmt o.mxScales o.elems).map InElem.wide) = (.ok (y, n, c), d2)) :
    ∃ tiles rows, d.adapterTerm = (d2.termCounted c n tiles rows).modOp o.slot o.task fun o =>
      { o with y := some y, yFlags := accFlag n ||| c.quality } := by
  have free : ¬ (d.bitAt Off.wdeCtrl 0 || (d.wde.tile0.isSome && d.wde.tile1.isSome)) = true := by
    rcases tile with tile | tile <;> simp [held, tile]
  have first : (d.pln.tails ++ [o] ++ d.pln.saved).find? (fun o => o.y.isNone && !d.stopped o.slot o.task) = some o := by
    simp [tails, waits, runs]
  unfold Dev.adapterTerm
  rw [if_neg free, op]
  dsimp only
  rw [first]
  dsimp only
  rw [Chk.thn_ok epi]
  dsimp only
  rw [Chk.thn_ok term]
  exact ⟨_, _, Dev.act_ok rfl _ _ _ _ _ _⟩

theorem Dev.modOp_mem (d : Dev) (slot task : Nat) (f : PlaneOp → PlaneOp) : (d.modOp slot task f).mem = d.mem := rfl

/-- An operation changed where it runs. -/
theorem Dev.modOp_running (h : d.pln.op = some o) (f : PlaneOp → PlaneOp) : (d.modOp o.slot o.task f).pln.op = some (f o) := by
  simp [Dev.modOp, h]

end

/-! ## The end of a tail -/

/-- The operation whose tail ends next: the oldest with its passes done that no fault stops. -/
def Dev.tailOp (d : Dev) : Option PlaneOp :=
  d.pln.tails.find? fun o => decide (o.passes ≤ o.passesDone) && !d.stopped o.slot o.task

/-- The edge and the accumulations of a tail counted (R58, R139). -/
def Dev.tailEdge (d : Dev) (x : TailOut) : Dev := (d.edge Off.plnEdgeStatus x.counts).accClipped x.clips

/-- A tail counted, with its reference-mode sums (R129). -/
def Dev.tailCounted (d : Dev) (o : PlaneOp) (x : TailOut) : Dev :=
  let d := (d.tailEdge x).countOp o
  if o.reference then d.wideWork (d.refGrid o).1 (d.refGrid o).2 else d

/-- The tails of one task gone. -/
def Dev.dropTails (d : Dev) (slot task : Nat) : Dev :=
  { d with pln := { d.pln with tails := d.pln.tails.filter fun p => !(decide (p.slot = slot) && decide (p.task = task)) } }

/-- A tail whose writes are made ends: it is counted, its task ends, and the changes its tiles waited with take effect. -/
def Dev.tailEnded (d : Dev) (o : PlaneOp) (x : TailOut) : Dev :=
  (((d.tailCounted o x).dropTails o.slot o.task).endTask o.slot o.task
    (o.flags ||| o.yFlags ||| x.counts.quality ||| accFlag x.clips)).applyHeld (o.entries.map (·.logical))

section
variable {d d' : Dev} {o : PlaneOp} (found : d.tailOp = some o)

include found

theorem Dev.operationTailEnd_mismatch : d.operationTailEnd true = d.logicCheck 3 0 o.slot o.task := by
  unfold Dev.operationTailEnd
  unfold Dev.tailOp at found
  rw [found]
  exact if_pos rfl

theorem Dev.operationTailEnd_held (ref : o.reference = true) (busy : d.refMay o = false) : d.operationTailEnd false = d := by
  unfold Dev.operationTailEnd
  unfold Dev.tailOp at found
  rw [found]
  simp [ref, busy]

variable (may : o.reference = false ∨ d.refMay o = true)

include may

theorem Dev.operationTailEnd_unserved (waits : o.y = none) :
    d.operationTailEnd false = d.drawNat.2.bumpWrap Off.wdeAdapterWait d.drawNat.1 := by
  have served : ¬ (o.reference && !d.refMay o) = true := by
    rcases may with may | may <;> simp [may]
  unfold Dev.operationTailEnd
  unfold Dev.tailOp at found
  rw [found]
  dsimp only
  rw [if_neg Bool.false_ne_true, if_neg served, waits]

theorem Dev.operationTailEnd_works {y : List Word} {x : TailOut} (term : o.y = some y)
    (work : d.tailWork (d.reader 3 0 o.slot o.task) o y = (.ok x, d')) : d.operationTailEnd false = d'.tailEnded o x := by
  have served : ¬ (o.reference && !d.refMay o) = true := by
    rcases may with may | may <;> simp [may]
  unfold Dev.operationTailEnd
  unfold Dev.tailOp at found
  rw [found]
  dsimp only
  rw [if_neg Bool.false_ne_true, if_neg served, term]
  exact Dev.act_ok work _ _ _ _ _ _

end

/-! ### What the end of a tail leaves -/

section
variable (d : Dev) (o : PlaneOp) (x : TailOut)

/-- Beside the one operation in PLN_OPS, the count of a tail leaves what it is judged by alone. -/
theorem Dev.counted_tailCounted : ((d.tailEdge x).bump64 Off.plnOpsLo).Counted (d.tailCounted o x) := by
  unfold Dev.tailCounted
  dsimp only
  split
  · exact ((d.tailEdge x).counted_countOp o).trans (Dev.counted_wideWork _ _ _)
  · exact (d.tailEdge x).counted_countOp o

theorem Dev.tails_bump64 (d : Dev) (off n : Nat) : (d.bump64 off n).pln.tails = d.pln.tails := rfl

theorem Dev.hbm_tailCounted {a : Nat} (h : a < 0x8000000000) : memGet (d.tailCounted o x).mem a = memGet d.mem a :=
  ((d.counted_tailCounted o x).hbm a h).trans ((d.counted_edge x.counts x.clips).hbm a h)

theorem Dev.tails_tailCounted : (d.tailCounted o x).pln.tails = d.pln.tails :=
  ((d.counted_tailCounted o x).tails.trans (Dev.tails_bump64 _ _ _)).trans (d.counted_edge x.counts x.clips).tails

theorem Dev.hasTask_tailCounted {slot task : Nat} (h : d.HasTask slot task) : (d.tailCounted o x).HasTask slot task :=
  (d.counted_tailCounted o x).hasTask (((d.counted_edge x.counts x.clips).hasTask h).congr rfl)

/-- PLN_OPS counts the operation (R76). -/
theorem Dev.ops_tailCounted : (d.tailCounted o x).reg64 Off.plnOpsLo = (d.reg64 Off.plnOpsLo + 1) % 2 ^ 64 := by
  have edge : (d.tailEdge x).reg64 Off.plnOpsLo = d.reg64 Off.plnOpsLo :=
    Dev.reg64_congr ((d.counted_edge x.counts x.clips).reg _ (.inl rfl)) ((d.counted_edge x.counts x.clips).reg _ (.inr rfl))
  have count := d.counted_tailCounted o x
  rw [Dev.reg64_congr (count.reg _ (.inl rfl)) (count.reg _ (.inr rfl)), Dev.reg64_bump64, edge]

/-- From the counted tail on, the tiles' changes are all that follows the task's end. -/
theorem Dev.tilesChanged_tailEnded : (((d.tailCounted o x).dropTails o.slot o.task).endTask o.slot o.task
    (o.flags ||| o.yFlags ||| x.counts.quality ||| accFlag x.clips)).TilesChanged (d.tailEnded o x) :=
  Dev.tilesChanged_applyHeld _ _

theorem Dev.st_tailEnded (h : d.HasTask o.slot o.task) : ((d.tailEnded o x).taskRun o.slot o.task).st = .ended := by
  have dropped : ((d.tailCounted o x).dropTails o.slot o.task).HasTask o.slot o.task := (d.hasTask_tailCounted o x h).congr rfl
  rw [Dev.taskRun, (d.tilesChanged_tailEnded o x).run]
  exact Dev.st_endTask dropped _

theorem Dev.mem_tails_tailEnded (p : PlaneOp) :
    p ∈ (d.tailEnded o x).pln.tails ↔ p ∈ d.pln.tails ∧ ¬ (p.slot = o.slot ∧ p.task = o.task) := by
  rw [(d.tilesChanged_tailEnded o x).tails, Dev.endTask_pln, ← d.tails_tailCounted o x]
  simp [Dev.dropTails, imp_iff_not_or]

theorem Dev.endTask_reg64 (d : Dev) (slot task flags off : Nat) : (d.endTask slot task flags).reg64 off = d.reg64 off := rfl
theorem Dev.dropTails_reg64 (d : Dev) (slot task off : Nat) : (d.dropTails slot task).reg64 off = d.reg64 off := rfl

theorem Dev.ops_tailEnded : (d.tailEnded o x).reg64 Off.plnOpsLo = (d.reg64 Off.plnOpsLo + 1) % 2 ^ 64 := by
  have changed := d.tilesChanged_tailEnded o x
  rw [Dev.reg64_congr (changed.reg _ (by decide)) (changed.reg _ (by decide)), Dev.endTask_reg64, Dev.dropTails_reg64,
    Dev.ops_tailCounted]

theorem Dev.hbm_tailEnded {a : Nat} (h : a < 0x8000000000) : memLoad (d.tailEnded o x).mem a 1 = memLoad d.mem a 1 := by
  refine memLoad_congr fun i hi => ?_
  rw [Nat.lt_one_iff.mp hi, Nat.add_zero]
  exact ((d.tilesChanged_tailEnded o x).hbm a h).trans (d.hbm_tailCounted o x h)

end

end Sys2Proof.Machine

/-! ## The obligation -/

open Sys2Proof Sys2Proof.Machine in
/-- Settles O26: a pass and the adapter term act on the outcome of their reads; the end of a tail counts one operation and ends
its task, and its counts, records, audit entries and tile changes write no device memory below the near store. -/
theorem correctionsAndTail : Obligations.CorrectionsAndTail := by
  unfold Obligations.CorrectionsAndTail
  refine ⟨fun s => ⟨fun idle => ?_, fun o u d op reads => ?_⟩, fun s => ⟨fun waits => ?_, ?_⟩, fun s o found => ⟨?_, ?_, ?_⟩⟩
  · rw [exec_correctionPass, execCorrectionPass, lift_eq, Dev.correctionPass_idle idle]
  · rw [exec_correctionPass, execCorrectionPass, lift_eq, Dev.correctionPass_reads op reads]
  · rw [exec_adapterTerm, execAdapterTerm, lift_eq, Dev.adapterTerm_waits waits]
  · intro o e a d d' y n c held tile tails op waits runs epi term
    obtain ⟨tiles, rows, computed⟩ := Dev.adapterTerm_computes held tile tails op waits runs epi term
    have looked : s.dev.Looked d' := by
      have first := s.dev.looked_loadEpi (s.dev.reader 4 0 o.slot o.task) o.space o.body.epilogue o.body.rows o.body.cols
        o.body.transposed
      have second := d.looked_adapterY (s.dev.reader 4 0 o.slot o.task) o.space a o.body.rows o.body.cols
        ((inElems o.body.inFmt o.mxScales o.elems).map InElem.wide)
      rw [epi] at first
      rw [term] at second
      exact first.trans second
    have counted : (d'.termCounted c n tiles rows).pln.op = some o := by rw [Dev.termCounted_pln, looked.pln, op]
    rw [exec_adapterTerm, execAdapterTerm, lift_eq, computed]
    exact ⟨_, _, rfl, Dev.modOp_running counted _, rfl, rfl, rfl, rfl, (Dev.modOp_mem _ _ _ _).trans (d'.termCounted_mem c n tiles rows)⟩
  · rw [exec_operationTailEnd, execOperationTailEnd, lift_eq, Dev.operationTailEnd_mismatch found]
  · intro ref busy
    rw [exec_operationTailEnd, execOperationTailEnd, lift_eq, Dev.operationTailEnd_held found ref busy]
  · intro may
    constructor
    · intro waits
      rw [exec_operationTailEnd, execOperationTailEnd, lift_eq, Dev.operationTailEnd_unserved found may waits]
      exact ⟨_, rfl, rfl, rfl, rfl⟩
    · intro y x d term work slot task
      rw [exec_operationTailEnd, execOperationTailEnd, lift_eq, Dev.operationTailEnd_works found may term work]
      exact ⟨_, rfl, d.st_tailEnded o x ⟨slot, task⟩, d.mem_tails_tailEnded o x, d.ops_tailEnded o x,
        fun _ below => d.hbm_tailEnded o x below⟩
end

section
/-! PROOFS. What writes of memory leave alone: everything but memory, registers, the recorder, interrupts and the free values
drawn (R216, R224, R399, R401). -/

namespace Sys2Proof.Machine

/-- Between `d` and `d'` memory was read and written: at most memory and its stored errors, registers, the recorder, the
interrupts sent and the free values drawn differ. -/
def Dev.Stored (d d' : Dev) : Prop :=
  d' = { d with fresh := d'.fresh, regs := d'.regs, evr := d'.evr, env := d'.env, mem := d'.mem, host := d'.host
                upsets := d'.upsets }

theorem Dev.Stored.refl (d : Dev) : d.Stored d := rfl

theorem Dev.Stored.trans {a b c : Dev} (h : a.Stored b) (k : b.Stored c) : a.Stored c :=
  Eq.trans k (congrArg (fun x : Dev => { x with
    fresh := c.fresh, regs := c.regs, evr := c.evr, env := c.env, mem := c.mem, host := c.host, upsets := c.upsets }) h)

theorem Dev.Looked.stored {d d' : Dev} (h : d.Looked d') : d.Stored d' := by
  rw [h]
  rfl

section
variable {d d' : Dev} (h : d.Stored d')
include h

theorem Dev.Stored.grf : d'.grf = d.grf := by rw [h]
theorem Dev.Stored.wde : d'.wde = d.wde := by rw [h]

end

/-- A fold of reads and writes is one. -/
theorem Dev.Stored.foldl {α β : Type} {f : α × Dev → β → α × Dev} (hf : ∀ (x : α × Dev) (b : β), x.2.Stored (f x b).2)
    (l : List β) (x : α × Dev) : x.2.Stored (l.foldl f x).2 := by
  induction l generalizing x with
  | nil => exact .refl _
  | cons b l ih => exact (hf x b).trans (ih _)

theorem Dev.stored_writePa (d : Dev) (pa : Nat) (l : List Byte) : d.Stored (d.writePa pa l) := rfl

theorem Dev.stored_writeHost {d d' : Dev} {a : Nat} {l : List Byte} (h : d.writeHost a l = some d') : d.Stored d' := by
  rcases d.writeHost_cases a l with fails | stores
  · rw [fails] at h
    cases h
  · rw [stores] at h
    cases h
    rfl

theorem Dev.stored_writePiece (d : Dev) (r : Reader) (space va : Nat) (l : List Byte) :
    d.Stored (d.writePiece r space va l).2 := by
  have place := (d.looked_translate r space va true).stored
  unfold Dev.writePiece
  split
  · next e => rwa [e] at place
  · next e => rwa [e] at place
  · next t d' e =>
    rw [e] at place
    dsimp only
    split
    · split
      · next w => exact place.trans (Dev.stored_writeHost w)
      · exact place
    · split
      · exact place.trans (d'.looked_uncorrectable _ _ _).stored
      · exact place.trans (d'.stored_writePa _ _)

theorem Dev.stored_writeVa (d : Dev) (r : Reader) (space va : Nat) (l : List Byte) : d.Stored (d.writeVa r space va l).2 := by
  refine Dev.Stored.foldl (fun x p => ?_) (pieces va l.length) (Acc.ok (), d)
  split
  · exact x.2.stored_writePiece _ _ _ _
  · exact .refl _

theorem Dev.stored_writeAll (d : Dev) (r : Reader) (space : Nat) (ws : List (Nat × List Byte)) :
    d.Stored (d.writeAll r space ws).2 := by
  refine Dev.Stored.foldl (fun x w => ?_) ws (Acc.ok (), d)
  split
  · exact x.2.stored_writeVa _ _ _ _
  · exact .refl _

end Sys2Proof.Machine
end

section
/-! PROOFS. What the wide engine counts: registers alone (R58, R139, R159). -/

namespace Sys2Proof.Machine

section
variable {d d' : Dev} (h : d.OnlyRegs d')
include h

theorem Dev.OnlyRegs.mem : d'.mem = d.mem := by rw [h]
theorem Dev.OnlyRegs.host : d'.host = d.host := by rw [h]
theorem Dev.OnlyRegs.grf : d'.grf = d.grf := by rw [h]
theorem Dev.OnlyRegs.wde : d'.wde = d.wde := by rw [h]
theorem Dev.OnlyRegs.mmu : d'.mmu = d.mmu := by rw [h]

end

theorem Dev.onlyRegs_countFlag (d : Dev) (status b counter n : Nat) : d.OnlyRegs (d.countFlag status b counter n) := by
  unfold Dev.countFlag
  split <;> rfl

theorem Dev.onlyRegs_edge (d : Dev) (status : Nat) (c : EdgeCount) : d.OnlyRegs (d.edge status c) :=
  ((d.onlyRegs_countFlag _ _ _ _).trans (Dev.onlyRegs_countFlag _ _ _ _ _)).trans (Dev.onlyRegs_countFlag _ _ _ _ _)

/-- The wide edge's counts, and the clips (R58, R139). -/
def Dev.wideEdge (d : Dev) (c : EdgeCount) (clips : Nat) : Dev := (d.edge Off.wdeEdgeStatus c).accClipped clips

theorem Dev.onlyRegs_wideEdge (d : Dev) (c : EdgeCount) (clips : Nat) : d.OnlyRegs (d.wideEdge c clips) :=
  (d.onlyRegs_edge _ _).trans (Dev.onlyRegs_countFlag _ _ _ _ _)

/-- Away from its registers, a count of a flag leaves a register alone. -/
theorem Dev.reg_countFlag_other (d : Dev) {o status counter : Nat} (b n : Nat) (hs : o ≠ status) (hc : o ≠ counter) :
    (d.countFlag status b counter n).reg o = d.reg o := by
  unfold Dev.countFlag
  split
  · rfl
  · rw [Dev.reg_setBit_other _ _ hs, Dev.reg_bump_other _ _ hc]

/-- The edge and the clips leave the count of output tiles alone. -/
theorem Dev.reg64_wideEdge_tiles (d : Dev) (c : EdgeCount) (clips : Nat) :
    (d.wideEdge c clips).reg64 Off.wdeTilesLo = d.reg64 Off.wdeTilesLo := by
  have reg (o : Nat) (h : o = Off.wdeTilesLo ∨ o = Off.wdeTilesLo + 4) : (d.wideEdge c clips).reg o = d.reg o := by
    unfold Dev.wideEdge Dev.accClipped Dev.edge
    dsimp only
    rcases h with rfl | rfl <;>
      rw [Dev.reg_countFlag_other _ _ _ (by decide) (by decide), Dev.reg_countFlag_other _ _ _ (by decide) (by decide),
        Dev.reg_countFlag_other _ _ _ (by decide) (by decide), Dev.reg_countFlag_other _ _ _ (by decide) (by decide)]
  exact Dev.reg64_congr (reg _ (.inl rfl)) (reg _ (.inr rfl))

end Sys2Proof.Machine
end

section
/-! PROOFS. WIDE_PRODUCT and WIDE_REDUCTION: how a task of the wide engine starts (R136, R153, R156, R282). -/

namespace Sys2Proof.Machine

/-! ## Reads and checks -/

theorem Dev.looked_readRows (d : Dev) (r : Reader) (space va scales : Nat) (f tgt : NumFmt) (row0 nrows k k0 kn : Nat) :
    d.Looked (d.readRows r space va scales f tgt row0 nrows k k0 kn).2 :=
  .thn (.chk (d.looked_readAll _ _ _)) fun _ e => .thn (.chk (e.looked_readAll _ _ _)) fun _ e => .refl e

theorem Dev.looked_checkWide (l : List Byte) (d : Dev) : d.Looked (checkWide l d).2 := Dev.looked_tests _ _ d

/-- The checks of a product: its body, and the descriptors that it names; with its body, whether it has no adapter (R136,
R137, R146, R150). -/
def Dev.checkedProduct (d : Dev) (slot task : Nat) : Chk (WideBody × Bool) × Dev :=
  Chk.thn (d.readBody slot task 64) fun l e => Chk.thn (checkWide l e) fun b e =>
    Chk.thn (e.loadEpi (d.reader 4 0 slot task) (d.slot slot).space b.epilogue b.k b.n false) fun ea e =>
      (.ok (b, ea.2.isNone), e)

theorem Dev.looked_checkedProduct (d : Dev) (slot task : Nat) : d.Looked (d.checkedProduct slot task).2 :=
  .thn (d.looked_readBody _ _ _) fun _ e => .thn (Dev.looked_checkWide _ e) fun _ e =>
    .thn (e.looked_loadEpi _ _ _ _ _ _) fun _ e => .refl e

/-- An access that goes on as a check. -/
theorem Acc.chk_ok {α : Type} {x : Acc α × Dev} {a : α} {d : Dev} (h : x = (.ok a, d)) : Acc.chk x = (.ok a, d) := by
  rw [h]
  rfl

/-! ## A product starts -/

/-- The task of a product that starts: none of its output tiles is filled yet. -/
def WideTask.starting (slot task space : Nat) (b : WideBody) (noAdapter : Bool) : WideTask :=
  { slot := slot, task := task, space := space, body := b, total := b.colBlocks * b.rowBlocks
    us := if noAdapter then some [] else none }

/-- The task joins those of the engine, and runs. -/
def Dev.wideStarted (d : Dev) (x : WideTask) : Dev :=
  ({ d with wde := { d.wde with tasks := d.wde.tasks ++ [x] } } : Dev).setTask x.slot x.task .running

theorem Dev.st_wideStarted {d : Dev} {x : WideTask} (h : d.HasTask x.slot x.task) :
    ((d.wideStarted x).taskRun x.slot x.task).st = .running := Dev.st_setTask (h.congr rfl) _

section
variable {d d' : Dev} {slot task : Nat}

theorem Dev.wideProduct_waits (h : d.wideIdle = false) : d.wideProduct = d := by
  simp only [Dev.wideProduct, h, Bool.not_false, if_true]

theorem Dev.wideReduction_waits (h : d.wideIdle = false) : d.wideReduction = d := by
  simp only [Dev.wideReduction, h, Bool.not_false, if_true]

section
variable (idle : d.wideIdle = true) (issued : d.issuedWhere 2 (fun k => decide (k % 16 ≠ 2)) = some (slot, task))
include idle issued

theorem Dev.wideProduct_issued :
    d.wideProduct = Dev.act (d.checkedProduct slot task) 4 0 slot task (d.slot slot).space fun x e =>
      e.wideStarted (.starting slot task (d.slot slot).space x.1 x.2) := by
  simp only [Dev.wideProduct, idle, issued, Bool.not_true, Bool.false_eq_true, if_false]
  rfl

theorem Dev.wideProduct_rejects {st : Nat} (checked : d.checkedProduct slot task = (.reject st, d')) :
    d.wideProduct = d'.rejectTask slot st := by
  rw [Dev.wideProduct_issued idle issued, Dev.act_reject checked]

theorem Dev.wideProduct_starts {b : WideBody} {noAdapter : Bool} (checked : d.checkedProduct slot task = (.ok (b, noAdapter), d')) :
    d.wideProduct = d'.wideStarted (.starting slot task (d.slot slot).space b noAdapter) := by
  rw [Dev.wideProduct_issued idle issued, Dev.act_ok checked]

end

/-! ## A reduction -/

/-- The writes of a reduction's results, one for each row, at the next 64-byte boundaries (R153). -/
def reduceWrites (b : WideBody) (rows : List (List Exact × List Nat × List Nat)) : List (Nat × List Byte) :=
  ((rows.map fun x => reduceRow b x.1 x.2.2).zipIdx.map fun o =>
    (b.output + o.2 * alignUp (if b.reduce = 3 then 8 * b.n else 4) 64, o.1.1))

theorem Dev.st_endTaskRows {d : Dev} {slot task : Nat} (h : d.HasTask slot task) (flags : Nat) (rows : List (Nat × Nat)) :
    ((d.endTaskRows slot task flags rows).taskRun slot task).st = .ended := by
  have there : (d.endTask slot task flags).HasTask slot task :=
    ⟨(Dev.modSlot_length d slot _).symm ▸ h.slot_lt, by
      rw [Dev.endTask, Dev.slot_modSlot_same h.slot_lt]
      exact (upd_length _ _ _).symm ▸ h.task_lt⟩
  exact (congrArg TaskRun.st (Dev.taskRun_modTask there _)).trans (Dev.st_endTask h flags)

variable {l : List Byte} {b : WideBody} {rows : List (List Exact × List Nat × List Nat)} {u : Unit} {d1 d2 d3 d4 : Dev}

theorem Dev.reduced_grf {r : Reader} {space va scales row0 nrows k k0 kn : Nat} {f tgt : NumFmt} {ws : List (Nat × List Byte)}
    (body : d.readBody slot task 64 = (.ok l, d1)) (checked : checkWide l d1 = (.ok b, d2))
    (read : d2.readRows r space va scales f tgt row0 nrows k k0 kn = (.ok rows, d3))
    (written : d3.writeAll r space ws = (.ok u, d4)) : d4.grf = d.grf := by
  have first := (d.looked_readBody slot task 64).grf
  have second := (Dev.looked_checkWide l d1).grf
  have third := (d2.looked_readRows r space va scales f tgt row0 nrows k k0 kn).grf
  have fourth := (d3.stored_writeAll r space ws).grf
  rw [body] at first
  rw [checked] at second
  rw [read] at third
  rw [written] at fourth
  exact ((fourth.trans third).trans second).trans first

theorem Dev.wideReduction_ends (idle : d.wideIdle = true)
    (issued : d.issuedWhere 2 (fun k => decide (k % 16 = 2)) = some (slot, task))
    (body : d.readBody slot task 64 = (.ok l, d1)) (checked : checkWide l d1 = (.ok b, d2))
    (read : d2.readRows (d.reader 4 0 slot task) (d.slot slot).space b.a b.ascales b.fa b.fa 0 b.m b.k 0 b.k = (.ok rows, d3))
    (written : d3.writeAll (d.reader 4 0 slot task) (d.slot slot).space (reduceWrites b rows) = (.ok u, d4)) :
    ∃ c clips flags, d.wideReduction = (d4.wideEdge c clips).endTaskRows slot task 0 flags := by
  simp only [Dev.wideReduction, idle, issued, Bool.not_true, Bool.false_eq_true, if_false]
  rw [Chk.thn_ok body, Chk.thn_ok checked, Chk.thn_ok read]
  exact ⟨_, _, _, Dev.act_ok (Chk.thn_ok (Acc.chk_ok written) _) _ _ _ _ _ _⟩

end

end Sys2Proof.Machine

open Sys2Proof Sys2Proof.Machine in
/-- Products and reductions start with their checks: the first part of the obligation holds as it stands. -/
theorem wideTasksStart : Clause.WideTasksStart := by
  refine ⟨fun s busy => ⟨?_, ?_⟩, fun s slot task idle issued => ⟨fun st d checked => ?_, fun b noAdapter d checked => ?_⟩,
    fun s slot task l b rows u d1 d2 d3 d4 idle issued body checked read written => ?_⟩
  · rw [exec_wideProduct, execWideProduct, lift_eq, Dev.wideProduct_waits busy]
  · rw [exec_wideReduction, execWideReduction, lift_eq, Dev.wideReduction_waits busy]
  · rw [exec_wideProduct, execWideProduct, lift_eq, Dev.wideProduct_rejects idle issued checked]
  · rw [exec_wideProduct, execWideProduct, lift_eq, Dev.wideProduct_starts idle issued checked]
    have looked := s.dev.looked_checkedProduct slot task
    rw [show s.dev.checkedProduct slot task = _ from checked] at looked
    have there : d.HasTask slot task := (Dev.hasTask_of_issued issued).congr looked.grf
    exact ⟨_, _, rfl, rfl, rfl, rfl, rfl, rfl, rfl, rfl, rfl, rfl, Dev.st_wideStarted there, rfl⟩
  · obtain ⟨c, clips, flags, ends⟩ := Dev.wideReduction_ends idle issued body checked read written
    have there := (Dev.hasTask_of_issued issued).congr (Dev.reduced_grf body checked read written)
    have counted := d4.onlyRegs_wideEdge c clips
    rw [exec_wideReduction, execWideReduction, lift_eq, ends]
    exact ⟨_, rfl, Dev.st_endTaskRows (there.congr counted.grf) _ _, counted.mem, counted.host, congrArg Wde.tasks counted.wde⟩

end

section
/-! PROOFS. CHUNK_PASS and TILE_DRAIN: how output tiles fill and drain (R135, R138, R144, R151, R152, R159, R403). -/

namespace Sys2Proof.Machine

/-! ## Output tiles -/

theorem Dev.outTile_setTile_other (d : Dev) {i : Nat} (h : i < 2) (o : Option OutTile) :
    (d.setTile i o).outTile (1 - i) = d.outTile (1 - i) := by
  obtain rfl | rfl : i = 0 ∨ i = 1 := by omega
  · rfl
  · rfl

theorem Dev.outTile_congr {d d' : Dev} (h : d'.wde = d.wde) (i : Nat) : d'.outTile i = d.outTile i := by
  rw [Dev.outTile, h, Dev.outTile]

@[simp] theorem Dev.setTile_mmu (d : Dev) (i : Nat) (o : Option OutTile) : (d.setTile i o).mmu = d.mmu := by
  unfold Dev.setTile
  split <;> rfl

/-! ## Accesses of a task -/

theorem Dev.stopped_congr {d d' : Dev} (h : d'.mmu = d.mmu) (slot task : Nat) : d'.stopped slot task = d.stopped slot task := by
  rw [Dev.stopped, h, Dev.stopped]

/-- A task that no fault stops goes on with what its accesses gave (R158). -/
theorem Dev.wideAct_ok {α : Type} {x : Chk α × Dev} {a : α} {d : Dev} {slot task : Nat} (h : x = (.ok a, d)) (space : Nat)
    {k : α → Dev → Dev} (kept : (k a d).mmu = d.mmu) (runs : d.stopped slot task = false) :
    Dev.wideAct x slot task space k = k a d := by
  have acts := Dev.act_ok h 4 0 slot task space k
  simp only [Dev.wideAct, acts, Dev.stopped_congr kept, runs, Bool.false_eq_true, if_false]

theorem Dev.onlyRegs_termCounted (d : Dev) (c : EdgeCount) (n tiles rows : Nat) : d.OnlyRegs (d.termCounted c n tiles rows) :=
  (d.onlyRegs_wideEdge c n).trans (Dev.onlyRegs_wideWork _ _ _)

theorem Dev.termCounted_modWide_mmu (d : Dev) (c : EdgeCount) (n tiles rows slot task : Nat) (f : WideTask → WideTask) :
    ((d.termCounted c n tiles rows).modWide slot task f).mmu = d.mmu := (d.onlyRegs_termCounted c n tiles rows).mmu

/-! ## Chunk passes -/

/-- A tile once its next K chunk has entered its accumulators; after the last it drains, where no adapter is to come (R138). -/
def OutTile.accumulated (o : OutTile) (x : WideTask) (as bs : List (List Exact × List Nat × List Nat)) : OutTile :=
  { o with acc := (foldChunk x.body o.acc as bs).1, chunk := o.chunk + 1
           draining := decide (x.body.chunks ≤ o.chunk + 1) && !x.hasAdapter }

/-- A tile that has taken the adapter's y drains (R152). -/
def OutTile.adapted (o : OutTile) (y : List (List Word)) : OutTile := { o with y := y, draining := true }

/-- A chunk pass counted, with tile `o` in place `i` and its task changed. -/
def Dev.passed (d : Dev) (c : EdgeCount) (clips rows i : Nat) (o : OutTile) (slot task : Nat) (f : WideTask → WideTask) : Dev :=
  ((d.termCounted c clips 0 rows).setTile i (some o)).modWide slot task f

section
variable (d : Dev) (c : EdgeCount) (clips rows i : Nat) (o : OutTile) (slot task : Nat) (f : WideTask → WideTask)

theorem Dev.passed_mem : (d.passed c clips rows i o slot task f).mem = d.mem :=
  (Dev.setTile_mem _ _ _).trans (d.termCounted_mem c clips 0 rows)

theorem Dev.passed_mmu : (d.passed c clips rows i o slot task f).mmu = d.mmu :=
  (Dev.setTile_mmu _ _ _).trans (d.onlyRegs_termCounted c clips 0 rows).mmu

theorem Dev.passed_tile : (d.passed c clips rows i o slot task f).outTile i = some o := Dev.outTile_setTile _ _ _

theorem Dev.passed_otherTile (h : i < 2) : (d.passed c clips rows i o slot task f).outTile (1 - i) = d.outTile (1 - i) :=
  (Dev.outTile_setTile_other _ h _).trans (Dev.outTile_congr (d.onlyRegs_termCounted c clips 0 rows).wde _)

end

section
variable {d d' : Dev} {x : WideTask} {i : Nat} {o : OutTile}

theorem Dev.chunkPass_held (h : d.bitAt Off.wdeCtrl 0 = true) (mismatch : Bool) : d.chunkPass mismatch = d := by
  simp only [Dev.chunkPass, h, if_true]

variable (on : d.bitAt Off.wdeCtrl 0 = false) (next : d.wideNext (fun t => !d.marked t.slot t.task && d.canFill t) = some x)
include on next

theorem Dev.chunkPass_mismatch : d.chunkPass true = d.logicCheck 4 0 x.slot x.task := by
  simp only [Dev.chunkPass, on, next, Bool.false_eq_true, if_false, if_true]

theorem Dev.chunkPass_down (us : x.us = none) : d.chunkPass false = d.wideDown x := by
  simp only [Dev.chunkPass, on, next, us, Option.isNone_none, Bool.false_eq_true, if_false, if_true]

theorem Dev.chunkPass_tile (us : x.us ≠ none) (taken : d.takeTile x = some (i, d')) (tile : d'.outTile i = some o) :
    d.chunkPass false = if o.chunk < x.body.chunks then d'.wideChunk x i o else d'.wideUp x i o := by
  have computed : x.us.isNone = false := Option.isNone_eq_false_iff.mpr (Option.isSome_iff_ne_none.mpr us)
  simp only [Dev.chunkPass, on, next, computed, taken, tile, Bool.false_eq_true, if_false]

end

section
variable {d d1 d2 d3 : Dev} {x : WideTask} {e : Epi} {a : AdapterDesc}

/-- u of all rows of the task, before its first chunk (R152). -/
theorem Dev.wideDown_computes {rows : List (List Exact × List Nat × List Nat)} {u : AdapterPart}
    (epi : d.loadEpi (d.reader 4 0 x.slot x.task) x.space x.body.epilogue x.body.k x.body.n false = (.ok (e, some a), d1))
    (read : d1.readRows (d.reader 4 0 x.slot x.task) x.space x.body.a x.body.ascales x.body.fa x.body.fa 0 x.body.m x.body.k 0
      x.body.k = (.ok rows, d2))
    (down : d2.adapterDown (d.reader 4 0 x.slot x.task) x.space a x.body.k (adapterRows rows) = (.ok u, d3))
    (runs : d3.stopped x.slot x.task = false) :
    ∃ c clips tiles n f, d.wideDown x = (d3.termCounted c clips tiles n).modWide x.slot x.task f ∧ ∀ t, (f t).us = some u.vs := by
  unfold Dev.wideDown
  extract_lets b r
  rw [Chk.thn_ok epi]
  dsimp only
  rw [Chk.thn_ok read, Chk.thn_ok down]
  exact ⟨_, _, _, _, _, Dev.wideAct_ok rfl _ (d3.termCounted_modWide_mmu _ _ _ _ _ _ _) runs, fun _ => rfl⟩

variable {i : Nat} {o : OutTile}

/-- The next K chunk enters the tile (R135, R138). -/
theorem Dev.wideChunk_accumulates {as bs : List (List Exact × List Nat × List Nat)}
    (rows : d.readRows (d.reader 4 0 x.slot x.task) x.space x.body.a x.body.ascales x.body.fa (widenBeside x.body.fa x.body.fb)
      o.row0 o.nrows x.body.k (1536 * o.chunk) (min 1536 (x.body.k - 1536 * o.chunk)) = (.ok as, d1))
    (cols : d1.readCols (d.reader 4 0 x.slot x.task) x.space x.body o.col0 o.ncols (1536 * o.chunk)
      (min 1536 (x.body.k - 1536 * o.chunk)) = (.ok bs, d2))
    (runs : d2.stopped x.slot x.task = false) :
    ∃ c clips f, d.wideChunk x i o = d2.passed c clips o.nrows i (o.accumulated x as bs) x.slot x.task f := by
  unfold Dev.wideChunk
  extract_lets b k0 kn r
  rw [Chk.thn_ok rows, Chk.thn_ok cols]
  exact ⟨_, _, _, Dev.wideAct_ok rfl _ (d2.passed_mmu _ _ _ _ _ _ _ _) runs⟩

/-- After its last chunk the tile takes the adapter's y (R152). -/
theorem Dev.wideUp_adapts {y : AdapterPart}
    (epi : d.loadEpi (d.reader 4 0 x.slot x.task) x.space x.body.epilogue x.body.k x.body.n false = (.ok (e, some a), d1))
    (up : d1.adapterUp (d.reader 4 0 x.slot x.task) x.space a o.col0 o.ncols (((x.us.getD []).drop o.row0).take o.nrows) =
      (.ok y, d2))
    (runs : d2.stopped x.slot x.task = false) :
    ∃ c clips rows f, d.wideUp x i o = d2.passed c clips rows i (o.adapted y.vs) x.slot x.task f := by
  unfold Dev.wideUp
  extract_lets b r
  rw [Chk.thn_ok epi]
  dsimp only
  rw [Chk.thn_ok up]
  exact ⟨_, _, _, _, Dev.wideAct_ok rfl _ (d2.passed_mmu _ _ _ _ _ _ _ _) runs⟩

end

/-! ## Drains -/

/-- The rows of a tile through the epilogue (R147). -/
def epiRows (e : Epi) (b : WideBody) (a : Option AdapterDesc) (seed : Nat) (o : OutTile) (wb : List Word × List Word) :
    List (List Byte × List Byte × Nat × EdgeCount) :=
  (List.range o.nrows).map fun j => epiRow e b.ints a seed ((o.row0 + j) * b.n + o.col0)
    (((o.acc.drop (j * o.ncols)).take o.ncols).map fun v => v.getD 0) wb.1 wb.2 (o.y.getD j [])

/-- Where the rows of a tile are written (R137). -/
def drainWrites (e : Epi) (b : WideBody) (o : OutTile) (rows : List (List Byte)) : List (Nat × List Byte) :=
  rows.zipIdx.map fun w =>
    (b.output + (o.row0 + w.2) * rowStride e.outFormat b.n + o.col0 * e.outFormat.bits / 8, w.1)

/-- A tile drained: it is counted, and its place is free (R144, R159). -/
def Dev.tileDrained (d : Dev) (i : Nat) (c : EdgeCount) (clips : Nat) : Dev :=
  (((d.wideEdge c clips).bump64 Off.wdeTilesLo).bumpWrap Off.wdeDrainWaits).setTile i none

/-- The tasks that own the tile gone. -/
def Dev.dropWide (d : Dev) (o : OutTile) : Dev :=
  { d with wde := { d.wde with tasks := d.wde.tasks.filter fun u => !o.owns u } }

/-- A task with one more tile drained, its row flags and the half blocks that wait. -/
def WideTask.tileDone (fl : List (Nat × Nat)) (halves : List OutTile) (t : WideTask) : WideTask :=
  { t with drained := t.drained + 1, rowFlags := fl, halves := halves }

/-- A tile drained: its task ends with the last one, and counts it otherwise (R144, R156). -/
def Dev.drainEnded (d : Dev) (x : WideTask) (i : Nat) (o : OutTile) (c : EdgeCount) (clips : Nat) (fl : List (Nat × Nat))
    (halves : List OutTile) : Dev :=
  if x.drained + 1 = x.total then ((d.tileDrained i c clips).dropWide o).endTaskRows x.slot x.task x.flags fl
  else (d.tileDrained i c clips).modWide x.slot x.task (.tileDone fl halves)

theorem joinHalf_owns (x : WideTask) (o : OutTile) : (joinHalf x o).owns = o.owns := by
  unfold joinHalf
  split <;> rfl

theorem OutTile.owns_iff (o : OutTile) (t : WideTask) : o.owns t = true ↔ o.slot = t.slot ∧ o.task = t.task := by
  simp [OutTile.owns]

section
variable (d : Dev) (i : Nat) (c : EdgeCount) (clips : Nat)

theorem Dev.onlyRegs_drainCounted :
    d.OnlyRegs (((d.wideEdge c clips).bump64 Off.wdeTilesLo).bumpWrap Off.wdeDrainWaits) :=
  ((d.onlyRegs_wideEdge c clips).trans (Dev.onlyRegs_bump64 _ _ _)).trans (Dev.onlyRegs_setReg _ _ _)

theorem Dev.tileDrained_mem : (d.tileDrained i c clips).mem = d.mem :=
  (Dev.setTile_mem _ _ _).trans (d.onlyRegs_drainCounted c clips).mem

theorem Dev.tileDrained_mmu : (d.tileDrained i c clips).mmu = d.mmu :=
  (Dev.setTile_mmu _ _ _).trans (d.onlyRegs_drainCounted c clips).mmu

theorem Dev.tileDrained_grf : (d.tileDrained i c clips).grf = d.grf :=
  (Dev.setTile_grf _ _ _).trans (d.onlyRegs_drainCounted c clips).grf

theorem Dev.tileDrained_tasks : (d.tileDrained i c clips).wde.tasks = d.wde.tasks :=
  (Dev.setTile_tasks _ _ _).trans (congrArg Wde.tasks (d.onlyRegs_drainCounted c clips).wde)

theorem Dev.tileDrained_place : (d.tileDrained i c clips).outTile i = none := Dev.outTile_setTile _ _ _

/-- WDE_TILES counts the tile (R159). -/
theorem Dev.tileDrained_count : (d.tileDrained i c clips).reg64 Off.wdeTilesLo = (d.reg64 Off.wdeTilesLo + 1) % 2 ^ 64 := by
  have regs (o : Nat) : (d.tileDrained i c clips).reg o = _ := Dev.reg_congr (Dev.setTile_regs _ _ _) o
  rw [Dev.reg64_congr ((regs _).trans (Dev.reg_bumpWrap_other _ _ (by decide)))
    ((regs _).trans (Dev.reg_bumpWrap_other _ _ (by decide))), Dev.reg64_bump64, Dev.reg64_wideEdge_tiles]

end

section
variable (d : Dev) (x : WideTask) (i : Nat) (o : OutTile) (c : EdgeCount) (clips : Nat) (fl : List (Nat × Nat))
  (halves : List OutTile)

theorem Dev.drainEnded_mmu : (d.drainEnded x i o c clips fl halves).mmu = d.mmu := by
  unfold Dev.drainEnded
  split <;> exact d.tileDrained_mmu i c clips

theorem Dev.drainEnded_mem : (d.drainEnded x i o c clips fl halves).mem = d.mem := by
  unfold Dev.drainEnded
  split <;> exact d.tileDrained_mem i c clips

theorem Dev.drainEnded_place : (d.drainEnded x i o c clips fl halves).outTile i = none := by
  unfold Dev.drainEnded
  split <;> exact d.tileDrained_place i c clips

theorem Dev.drainEnded_count :
    (d.drainEnded x i o c clips fl halves).reg64 Off.wdeTilesLo = (d.reg64 Off.wdeTilesLo + 1) % 2 ^ 64 := by
  unfold Dev.drainEnded
  split <;> exact d.tileDrained_count i c clips

end

theorem Dev.tileDrain_idle {d : Dev} (h : d.drainTile = none) : d.tileDrain = d := by simp only [Dev.tileDrain, h]

section
variable {d d1 d2 d3 : Dev} {x : WideTask} {i : Nat} {o : OutTile} {e : Epi} {a : Option AdapterDesc}
  {wb : List Word × List Word} {u : Unit}

/-- A tile through the epilogue: its rows are written, unless it waits as the first half of an MX block; what each row counts,
and whether it waits (R36, R48, R147). -/
def Dev.drainOut (d : Dev) (x : WideTask) (o : OutTile) (e : Epi) (a : Option AdapterDesc) (seed : Nat) (r : Reader)
    (wb : List Word × List Word) : Chk (List (Nat × EdgeCount) × Bool) × Dev :=
  let rows := epiRows e x.body a seed o wb
  let outs := if halfBlock e x.body o then [] else rows.zipIdx.map fun w =>
    (x.body.output + (o.row0 + w.2) * rowStride e.outFormat x.body.n + o.col0 * e.outFormat.bits / 8, w.1.1)
  let scs := if e.scaleMode = 2 ∧ !halfBlock e x.body o then
      rows.zipIdx.map fun w => (e.outScales + (o.row0 + w.2) * ((x.body.n + 31) / 32) + o.col0 / 32, w.1.2.1)
    else []
  Chk.thn (Acc.chk (d.writeAll r x.space (outs ++ scs))) fun _ d =>
    (.ok (if halfBlock e x.body o then ([], true) else (rows.map fun w => (w.2.2.1, w.2.2.2), false)), d)

/-- A tile through an epilogue of no MX output: each of its rows is written. -/
theorem Dev.drainOut_writes {seed : Nat} {r : Reader} (noMx : e.scaleMode ≠ 2)
    (written : d.writeAll r x.space (drainWrites e x.body o ((epiRows e x.body a seed o wb).map (·.1))) = (.ok u, d1)) :
    d.drainOut x o e a seed r wb = (.ok ((epiRows e x.body a seed o wb).map (fun w => (w.2.2.1, w.2.2.2)), false), d1) := by
  have whole : halfBlock e x.body o = false := by simp [halfBlock, noMx]
  rw [drainWrites, List.zipIdx_map, List.map_map] at written
  simp only [Dev.drainOut, whole, noMx, false_and, if_false, Bool.false_eq_true, List.append_nil]
  exact Chk.thn_ok (Acc.chk_ok written) _

/-- The tile that is due drains through the epilogue of its task. -/
theorem Dev.tileDrain_due (due : d.drainTile = some (i, o)) (owner : (d.wde.tasks.find? fun t => o.owns t) = some x) :
    d.tileDrain = Dev.wideAct
      (Chk.thn (d.loadEpi (d.reader 4 0 x.slot x.task) x.space x.body.epilogue x.body.k x.body.n false) fun ea d' =>
        Chk.thn (d'.epiArrays (d.reader 4 0 x.slot x.task) x.space ea.1 (joinHalf x o).col0 (joinHalf x o).ncols) fun wb d' =>
          d'.drainOut x (joinHalf x o) ea.1 ea.2 (d.taskHdr x.slot x.task).seed (d.reader 4 0 x.slot x.task) wb)
      x.slot x.task x.space fun y d' => d'.drainEnded x i (joinHalf x o) (sumCounts (y.1.map (·.2))) (y.1.map (·.1)).sum
        (orRows x.rowFlags (rowsFrom (joinHalf x o).row0 (y.1.map fun w => rowFlag w.1 w.2)))
        (if y.2 then x.halves ++ [joinHalf x o] else x.halves) := by
  unfold Dev.tileDrain
  rw [due]
  dsimp -zeta only
  rw [owner]
  rfl

/-- A tile that drains through an epilogue of no MX output is counted, and its task ends with its last tile (R144, R156). -/
theorem Dev.tileDrain_drains (due : d.drainTile = some (i, o)) (owner : (d.wde.tasks.find? fun t => o.owns t) = some x)
    (epi : d.loadEpi (d.reader 4 0 x.slot x.task) x.space x.body.epilogue x.body.k x.body.n false = (.ok (e, a), d1))
    (noMx : e.scaleMode ≠ 2)
    (arrays : d1.epiArrays (d.reader 4 0 x.slot x.task) x.space e (joinHalf x o).col0 (joinHalf x o).ncols = (.ok wb, d2))
    (written : d2.writeAll (d.reader 4 0 x.slot x.task) x.space (drainWrites e x.body (joinHalf x o)
      ((epiRows e x.body a (d.taskHdr x.slot x.task).seed (joinHalf x o) wb).map (·.1))) = (.ok u, d3))
    (runs : d3.stopped x.slot x.task = false) :
    ∃ c clips fl halves, d.tileDrain = d3.drainEnded x i (joinHalf x o) c clips fl halves := by
  rw [Dev.tileDrain_due due owner, Chk.thn_ok epi, Chk.thn_ok arrays, Dev.drainOut_writes noMx written]
  exact ⟨_, _, _, _, Dev.wideAct_ok rfl _ (d3.drainEnded_mmu x i (joinHalf x o) _ _ _ _) runs⟩

end

end Sys2Proof.Machine
end

section
/-! PROOFS. What holds of CHUNK_PASS and TILE_DRAIN where the engine lists a task once (R135, R138, R144, R151, R152, R159,
R403). -/

namespace Sys2Proof.Machine

theorem Dev.looked_epiArrays (d : Dev) (r : Reader) (space : Nat) (e : Epi) (c0 n : Nat) :
    d.Looked (d.epiArrays r space e c0 n).2 := .thn (.chk (d.looked_readAll _ _ _)) fun _ e => .refl e

/-! ## CHUNK_PASS -/

section
variable {s : State} {x : WideTask} {d d1 d2 : Dev} {i : Nat} {o : OutTile} {e : Epi} {a : AdapterDesc}

theorem exec_chunkPass_held (h : s.dev.bitAt Off.wdeCtrl 0 = true) (m : Bool) : exec (.chunkPass m) s = .next s := by
  rw [exec_chunkPass, execChunkPass, lift_eq, Dev.chunkPass_held h]

variable (on : s.dev.bitAt Off.wdeCtrl 0 = false)
  (next : s.dev.wideNext (fun t => !s.dev.marked t.slot t.task && s.dev.canFill t) = some x)
include on next

theorem exec_chunkPass_mismatch :
    exec (.chunkPass true) s = .next { s with dev := s.dev.logicCheck 4 0 x.slot x.task } := by
  rw [exec_chunkPass, execChunkPass, lift_eq, Dev.chunkPass_mismatch on next]

/-- A task with an adapter has u computed first, for all its rows; the output tiles stand. -/
theorem exec_chunkPass_down {rows : List (List Exact × List Nat × List Nat)} {u : AdapterPart} (us : x.us = none)
    (epi : s.dev.loadEpi (s.dev.reader 4 0 x.slot x.task) x.space x.body.epilogue x.body.k x.body.n false = (.ok (e, some a), d))
    (read : d.readRows (s.dev.reader 4 0 x.slot x.task) x.space x.body.a x.body.ascales x.body.fa x.body.fa 0 x.body.m x.body.k 0
      x.body.k = (.ok rows, d1))
    (down : d1.adapterDown (s.dev.reader 4 0 x.slot x.task) x.space a x.body.k (adapterRows rows) = (.ok u, d2))
    (runs : d2.stopped x.slot x.task = false) :
    ∃ t, exec (.chunkPass false) s = .next t ∧ t.dev.mem = d2.mem ∧ (∀ k, t.dev.outTile k = d2.outTile k) ∧
      ∀ y ∈ t.dev.wde.tasks, y.slot = x.slot → y.task = x.task → y.us = some u.vs := by
  obtain ⟨c, clips, tiles, n, f, computes, sets⟩ := Dev.wideDown_computes epi read down runs
  have counted := d2.onlyRegs_termCounted c clips tiles n
  rw [exec_chunkPass, execChunkPass, lift_eq, Dev.chunkPass_down on next us, computes]
  refine ⟨_, rfl, counted.mem, fun k => Dev.outTile_congr counted.wde k, fun y hy hs ht => ?_⟩
  obtain ⟨z, -, -, rfl⟩ := Dev.mem_modWide hy hs ht
  exact sets z

variable (us : x.us ≠ none) (taken : s.dev.takeTile x = some (i, d)) (place : i < 2) (tile : d.outTile i = some o)
include us taken place tile

/-- The task's tile accumulates its next K chunk; the other tile stands. -/
theorem exec_chunkPass_accumulates {as bs : List (List Exact × List Nat × List Nat)} (more : o.chunk < x.body.chunks)
    (rows : d.readRows (d.reader 4 0 x.slot x.task) x.space x.body.a x.body.ascales x.body.fa (widenBeside x.body.fa x.body.fb)
      o.row0 o.nrows x.body.k (1536 * o.chunk) (min 1536 (x.body.k - 1536 * o.chunk)) = (.ok as, d1))
    (cols : d1.readCols (d.reader 4 0 x.slot x.task) x.space x.body o.col0 o.ncols (1536 * o.chunk)
      (min 1536 (x.body.k - 1536 * o.chunk)) = (.ok bs, d2))
    (runs : d2.stopped x.slot x.task = false) :
    ∃ t, exec (.chunkPass false) s = .next t ∧ t.dev.outTile i = some (o.accumulated x as bs) ∧
      t.dev.outTile (1 - i) = d2.outTile (1 - i) ∧ t.dev.mem = d2.mem := by
  obtain ⟨c, clips, f, accumulates⟩ := Dev.wideChunk_accumulates (i := i) rows cols runs
  rw [exec_chunkPass, execChunkPass, lift_eq, Dev.chunkPass_tile on next us taken tile, if_pos more, accumulates]
  exact ⟨_, rfl, Dev.passed_tile _ _ _ _ _ _ _ _ _, Dev.passed_otherTile _ _ _ _ _ _ _ _ _ place, Dev.passed_mem _ _ _ _ _ _ _ _ _⟩

/-- After its last chunk the task's tile takes the adapter's y and drains; the other tile stands. -/
theorem exec_chunkPass_adapts {y : AdapterPart} (last : x.body.chunks ≤ o.chunk)
    (epi : d.loadEpi (d.reader 4 0 x.slot x.task) x.space x.body.epilogue x.body.k x.body.n false = (.ok (e, some a), d1))
    (up : d1.adapterUp (d.reader 4 0 x.slot x.task) x.space a o.col0 o.ncols (((x.us.getD []).drop o.row0).take o.nrows) =
      (.ok y, d2))
    (runs : d2.stopped x.slot x.task = false) :
    ∃ t, exec (.chunkPass false) s = .next t ∧ t.dev.outTile i = some (o.adapted y.vs) ∧
      t.dev.outTile (1 - i) = d2.outTile (1 - i) ∧ t.dev.mem = d2.mem := by
  obtain ⟨c, clips, rows, f, adapts⟩ := Dev.wideUp_adapts (i := i) epi up runs
  rw [exec_chunkPass, execChunkPass, lift_eq, Dev.chunkPass_tile on next us taken tile, if_neg (Nat.not_lt.mpr last), adapts]
  exact ⟨_, rfl, Dev.passed_tile _ _ _ _ _ _ _ _ _, Dev.passed_otherTile _ _ _ _ _ _ _ _ _ place, Dev.passed_mem _ _ _ _ _ _ _ _ _⟩

end

/-! ## TILE_DRAIN -/

section
variable {d d1 d2 d3 : Dev} {x : WideTask} {i : Nat} {o : OutTile} {c : EdgeCount} {clips : Nat} {fl : List (Nat × Nat)}
  {halves : List OutTile}

theorem Dev.drainEnded_last (last : x.drained + 1 = x.total) :
    d.drainEnded x i o c clips fl halves = ((d.tileDrained i c clips).dropWide o).endTaskRows x.slot x.task x.flags fl :=
  if_pos last

theorem Dev.drainEnded_more (more : x.drained + 1 ≠ x.total) :
    d.drainEnded x i o c clips fl halves = (d.tileDrained i c clips).modWide x.slot x.task (.tileDone fl halves) := if_neg more

/-- With the last tile of the task no entry of it stays. -/
theorem Dev.drainEnded_gone (owns : o.owns x = true) (last : x.drained + 1 = x.total) :
    ∀ y ∈ (d.drainEnded x i o c clips fl halves).wde.tasks, ¬ (y.slot = x.slot ∧ y.task = x.task) := by
  rw [Dev.drainEnded_last last]
  rintro y hy ⟨hs, ht⟩
  obtain ⟨slot, task⟩ := (o.owns_iff x).mp owns
  have stays := (List.mem_filter.mp hy).2
  rw [(o.owns_iff y).mpr ⟨slot.trans hs.symm, task.trans ht.symm⟩] at stays
  exact Bool.false_ne_true stays

theorem Dev.drainEnded_st (there : d.HasTask x.slot x.task) (last : x.drained + 1 = x.total) :
    ((d.drainEnded x i o c clips fl halves).taskRun x.slot x.task).st = .ended := by
  rw [Dev.drainEnded_last last]
  have dropped : ((d.tileDrained i c clips).dropWide o).HasTask x.slot x.task := there.congr (d.tileDrained_grf i c clips)
  exact Dev.st_endTaskRows dropped _ _

/-- Before, each entry of the task counts one more drained tile than it did. -/
theorem Dev.drainEnded_counts (more : x.drained + 1 ≠ x.total) {y : WideTask}
    (hy : y ∈ (d.drainEnded x i o c clips fl halves).wde.tasks) (hs : y.slot = x.slot) (ht : y.task = x.task) :
    ∃ z ∈ d.wde.tasks, (z.slot = x.slot ∧ z.task = x.task) ∧ y = z.tileDone fl halves := by
  rw [Dev.drainEnded_more more] at hy
  rw [← d.tileDrained_tasks i c clips]
  exact Dev.mem_modWide hy hs ht

end

theorem exec_tileDrain_idle {s : State} (h : s.dev.drainTile = none) : exec .tileDrain s = .next s := by
  rw [exec_tileDrain, execTileDrain, lift_eq, Dev.tileDrain_idle h]

/-- Where the engine lists the owner of the tile once: a tile that drains through an epilogue of no MX output writes its rows, is
counted, and is free; its task ends with its last tile, and counts it otherwise. -/
theorem exec_tileDrain_of_once {s : State} {x : WideTask} {i : Nat} {o : OutTile} {e : Epi} {a : Option AdapterDesc}
    {wb : List Word × List Word} {u : Unit} {d1 d2 d3 : Dev} (due : s.dev.drainTile = some (i, o))
    (owner : (s.dev.wde.tasks.find? fun t => o.owns t) = some x)
    (once : ∀ y ∈ s.dev.wde.tasks, y.slot = x.slot → y.task = x.task → y = x)
    (epi : s.dev.loadEpi (s.dev.reader 4 0 x.slot x.task) x.space x.body.epilogue x.body.k x.body.n false = (.ok (e, a), d1))
    (noMx : e.scaleMode ≠ 2)
    (arrays : d1.epiArrays (s.dev.reader 4 0 x.slot x.task) x.space e (joinHalf x o).col0 (joinHalf x o).ncols = (.ok wb, d2))
    (written : d2.writeAll (s.dev.reader 4 0 x.slot x.task) x.space (drainWrites e x.body (joinHalf x o)
      ((epiRows e x.body a (s.dev.taskHdr x.slot x.task).seed (joinHalf x o) wb).map (·.1))) = (.ok u, d3))
    (runs : d3.stopped x.slot x.task = false) :
    ∃ t, exec .tileDrain s = .next t ∧ t.dev.outTile i = none ∧
      t.dev.reg64 Off.wdeTilesLo = (d3.reg64 Off.wdeTilesLo + 1) % 2 ^ 64 ∧ t.dev.mem = d3.mem ∧
      (x.drained + 1 = x.total → (∀ y ∈ t.dev.wde.tasks, ¬ (y.slot = x.slot ∧ y.task = x.task)) ∧
        (d3.HasTask x.slot x.task → (t.dev.taskRun x.slot x.task).st = .ended)) ∧
      (x.drained + 1 ≠ x.total → ∀ y ∈ t.dev.wde.tasks, y.slot = x.slot → y.task = x.task →
        y.drained = x.drained + 1 ∧ y.next = x.next) := by
  have tasks : d3.wde = s.dev.wde := by
    have first := s.dev.looked_loadEpi (s.dev.reader 4 0 x.slot x.task) x.space x.body.epilogue x.body.k x.body.n false
    have second := d1.looked_epiArrays (s.dev.reader 4 0 x.slot x.task) x.space e (joinHalf x o).col0 (joinHalf x o).ncols
    have third := d2.stored_writeAll (s.dev.reader 4 0 x.slot x.task) x.space (drainWrites e x.body (joinHalf x o)
      ((epiRows e x.body a (s.dev.taskHdr x.slot x.task).seed (joinHalf x o) wb).map (·.1)))
    rw [epi] at first
    rw [arrays] at second
    rw [written] at third
    exact ((first.trans second).stored.trans third).wde
  have owns : (joinHalf x o).owns x = true := by
    rw [joinHalf_owns]
    exact List.find?_some (p := fun t => o.owns t) owner
  obtain ⟨c, clips, fl, halves, drains⟩ := Dev.tileDrain_drains due owner epi noMx arrays written runs
  rw [exec_tileDrain, execTileDrain, lift_eq, drains]
  refine ⟨_, rfl, Dev.drainEnded_place _ _ _ _ _ _ _ _, Dev.drainEnded_count _ _ _ _ _ _ _ _, Dev.drainEnded_mem _ _ _ _ _ _ _ _,
    fun last => ⟨Dev.drainEnded_gone owns last, fun there => Dev.drainEnded_st there last⟩, fun more y hy hs ht => ?_⟩
  obtain ⟨z, hz, ⟨zs, zt⟩, rfl⟩ := Dev.drainEnded_counts more hy hs ht
  rw [tasks] at hz
  rw [once z hz zs zt]
  exact ⟨rfl, rfl⟩

end Sys2Proof.Machine
end

section
/-! PROOFS. Why the clause on TILE_DRAIN fails without the hypothesis of `exec_tileDrain_of_once` (R137, R144). -/

namespace Sys2Proof.Machine

/-! ## A drain of a task that the engine lists twice -/

/-- A product of 513 × 1 elements in FP32, in two output tiles. -/
def listedTask : WideTask := { body := { afmt := 13, bfmt := 13, m := 513, n := 1, k := 1, output := 64 }, next := 2, total := 2 }

/-- Its second output tile, of one element, whose drain is due. -/
def dueTile : OutTile := { row0 := 512, nrows := 1, ncols := 1, chunk := 1, acc := [some 1], draining := true }

/-- The engine lists the task twice, with none and with one of its output tiles drained. A cached translation maps its
operands, and its epilogue answers in FP32. -/
def listedTwice : State :=
  { State.reset with
    dev := { State.reset.dev with
      mem := memStore State.reset.dev.mem 0 [13]
      mmu := { State.reset.dev.mmu with tlb := [{ bytes := 2 ^ 16, write := true }] }
      wde := { tasks := [listedTask, { listedTask with drained := 1 }], tile0 := some dueTile } } }

/-- The reader of the drain, for the task. -/
def listedReader : Reader := listedTwice.dev.reader 4 0 0 0

/-- The bytes of the drained tile, at their address. -/
def listedOut : List (Nat × List Byte) := [(64 + 512 * 64, [1, 0, 0, 0])]

/-- The device once the tile's bytes are written. -/
def listedWritten : Dev := (listedTwice.dev.writeAll listedReader 0 listedOut).2

theorem loadEpi_listedTwice : listedTwice.dev.loadEpi listedReader 0 0 1 1 false = (.ok ({}, none), listedTwice.dev) := by
  decide +kernel

theorem epiArrays_listedTwice : listedTwice.dev.epiArrays listedReader 0 {} 0 1 = (.ok ([], []), listedTwice.dev) := by
  decide +kernel

theorem writeAll_listedTwice : listedTwice.dev.writeAll listedReader 0 listedOut = (.ok (), listedWritten) := by
  decide +kernel

/-- The drain counts in each entry from the entry's own count. -/
theorem tileDrain_listedTwice :
    listedTwice.dev.tileDrain.wde.tasks.map (fun y => (y.slot, y.task, y.drained)) = [(0, 0, 1), (0, 0, 2)] := by decide +kernel

theorem exists_two_drained_listedTwice : ∃ y ∈ listedTwice.dev.tileDrain.wde.tasks, y.slot = 0 ∧ y.task = 0 ∧ y.drained = 2 := by
  have listed : (0, 0, 2) ∈ listedTwice.dev.tileDrain.wde.tasks.map (fun y => (y.slot, y.task, y.drained)) := by
    rw [tileDrain_listedTwice]
    exact List.mem_cons_of_mem _ List.mem_cons_self
  simpa only [List.mem_map, Prod.mk.injEq] using listed

end Sys2Proof.Machine

open Sys2Proof Sys2Proof.Machine in
/-- Refutes O33: no hypothesis of the clause on TILE_DRAIN says that the engine lists a task once. It lists one twice here, with
none and with one of its two output tiles drained; the tile due drains, and the second entry then counts two drained tiles, where
the clause has one more than the first entry's none. -/
theorem not_wideTasksFillAndDrain : ¬ Obligations.WideTasksFillAndDrain := by
  unfold Obligations.WideTasksFillAndDrain
  rintro ⟨-, -, -, drains⟩
  obtain ⟨t, drained, -, -, -, -, counts⟩ := drains listedTwice 0 dueTile listedTask {} none ([], []) () listedTwice.dev
    listedTwice.dev listedWritten rfl rfl loadEpi_listedTwice (by decide) epiArrays_listedTwice writeAll_listedTwice
    (by decide +kernel)
  rw [exec_tileDrain, execTileDrain, lift_eq] at drained
  cases drained
  obtain ⟨y, listed, slot, task, two⟩ := exists_two_drained_listedTwice
  obtain ⟨-, -, -, -, one, -⟩ := counts (by decide) y listed slot task
  exact absurd (two.symm.trans one) (by decide)

end

section
/-! PROOFS. Triggers of calibration passes, CALIBRATE and REFERENCE_SET (R169, R257). -/

namespace Sys2Proof.Machine

/-! ## Tiles after a write -/

theorem Dev.phys_of_list {d d' : Dev} (h : d'.pln.phys = d.pln.phys) (p : Nat) : d'.phys p = d.phys p := by
  rw [Dev.phys, h, Dev.phys]

@[simp] theorem Dev.phys_makePending_same (d : Dev) (p kind : Nat) :
    (d.makePending p kind).phys p = { d.phys p with passDue := max (d.phys p).passDue kind } := d.phys_modPhys_same p _

theorem Dev.phys_makePending_other (d : Dev) {p q : Nat} (kind : Nat) (h : q ≠ p) : (d.makePending p kind).phys q = d.phys q :=
  d.phys_modPhys_other _ h

/-- Between `d` and `d'` tiles were changed, and nothing else. -/
def Dev.OnlyTiles (d d' : Dev) : Prop := d' = { d with pln := { d.pln with phys := d'.pln.phys } }

theorem Dev.OnlyTiles.trans {a b c : Dev} (h : a.OnlyTiles b) (k : b.OnlyTiles c) : a.OnlyTiles c :=
  Eq.trans k (congrArg (fun x : Dev => { x with pln := { x.pln with phys := c.pln.phys } }) h)

theorem Dev.onlyTiles_makePending (d : Dev) (p kind : Nat) : d.OnlyTiles (d.makePending p kind) := rfl

/-! ## Time triggers (R169) -/

/-- The tile with the pass of a trigger pending, where the trigger applies to it (R169, R170). -/
def PhysTile.triggered (x : PhysTile) (background : Bool) (kind : Nat) : PhysTile :=
  if background = true ∧ x.grade = 2 then { x with passDue := max x.passDue kind } else x

theorem PhysTile.triggered_passDue (x : PhysTile) (background : Bool) (kind : Nat) :
    (x.triggered background kind).passDue =
      if background = true ∧ x.grade = 2 then max x.passDue kind else x.passDue := by
  unfold PhysTile.triggered
  split <;> rfl

theorem PhysTile.triggered_rest (x : PhysTile) (background : Bool) (kind : Nat) :
    x.triggered background kind = { x with passDue := (x.triggered background kind).passDue } := by
  unfold PhysTile.triggered
  split <;> rfl

section
variable {d : Dev} {p : Nat}

theorem Dev.fineTrigger_applies (kind due : Nat) (h : d.background = true ∧ (d.phys p).grade = 2) :
    d.fineTrigger p kind due = ({ d with now := max d.now due } : Dev).makePending p kind :=
  if_pos (Bool.and_eq_true_iff.mpr ⟨h.1, decide_eq_true h.2⟩)

theorem Dev.fineTrigger_passes (kind due : Nat) (h : ¬ (d.background = true ∧ (d.phys p).grade = 2)) :
    d.fineTrigger p kind due = { d with now := max d.now due } :=
  if_neg fun both => h ⟨(Bool.and_eq_true_iff.mp both).1, of_decide_eq_true (Bool.and_eq_true_iff.mp both).2⟩

variable (d p) (kind due : Nat)

/-- A trigger at its due time: the clock and the tile's pending pass alone change. -/
theorem Dev.fineTrigger_frame : d.fineTrigger p kind due =
    { d with now := max d.now due, pln := { d.pln with phys := (d.fineTrigger p kind due).pln.phys } } := by
  by_cases h : d.background = true ∧ (d.phys p).grade = 2
  · rw [Dev.fineTrigger_applies kind due h]
    rfl
  · rw [Dev.fineTrigger_passes kind due h]

theorem Dev.fineTrigger_phys_same : (d.fineTrigger p kind due).phys p = (d.phys p).triggered d.background kind := by
  unfold PhysTile.triggered
  by_cases h : d.background = true ∧ (d.phys p).grade = 2
  · rw [Dev.fineTrigger_applies kind due h, if_pos h]
    exact Dev.phys_makePending_same _ p kind
  · rw [Dev.fineTrigger_passes kind due h, if_neg h]
    rfl

theorem Dev.fineTrigger_phys_other {q : Nat} (h : q ≠ p) : (d.fineTrigger p kind due).phys q = d.phys q := by
  by_cases applies : d.background = true ∧ (d.phys p).grade = 2
  · rw [Dev.fineTrigger_applies kind due applies]
    exact Dev.phys_makePending_other _ kind h
  · rw [Dev.fineTrigger_passes kind due applies]
    rfl

end

/-- What a time trigger does to the device by its due time: the tile's pending pass is the larger one where the trigger applies,
and other tiles and all but the clock stand (R169). -/
structure Dev.Triggers (d d' : Dev) (p kind due : Nat) : Prop where
  now : d'.now = max d.now due
  passDue : (d'.phys p).passDue =
    if d.background = true ∧ (d.phys p).grade = 2 then max (d.phys p).passDue kind else (d.phys p).passDue
  state : (d'.phys p).state = (d.phys p).state
  active : (d'.phys p).active = (d.phys p).active
  others : ∀ q, q ≠ p → d'.phys q = d.phys q
  frame : d' = { d with now := d'.now, pln := { d.pln with phys := d'.pln.phys } }

theorem Dev.triggers_fineTrigger (d : Dev) (p kind due : Nat) : d.Triggers (d.fineTrigger p kind due) p kind due where
  now := by rw [Dev.fineTrigger_frame]
  passDue := by rw [Dev.fineTrigger_phys_same, PhysTile.triggered_passDue]
  state := by rw [Dev.fineTrigger_phys_same, PhysTile.triggered_rest]
  active := by rw [Dev.fineTrigger_phys_same, PhysTile.triggered_rest]
  others _ h := d.fineTrigger_phys_other p kind due h
  frame := (d.fineTrigger_frame p kind due).trans (by rw [Dev.fineTrigger_frame])

/-- A decade that passes for a tile is counted beside its trigger. -/
theorem Dev.triggers_decade (d : Dev) (p kind due : Nat) :
    d.Triggers ((d.modPhys p fun t => { t with decades := t.decades + 1 }).fineTrigger p kind due) p kind due := by
  obtain ⟨now, passDue, state, active, others, frame⟩ :=
    (d.modPhys p fun t => { t with decades := t.decades + 1 }).triggers_fineTrigger p kind due
  rw [Dev.phys_modPhys_same] at passDue state active
  exact ⟨now, passDue, state, active, fun q h => (others q h).trans (d.phys_modPhys_other _ h), frame⟩

/-! ### Each trigger -/

section
variable {d : Dev} {p : Nat}

theorem Dev.passPendingDecade_off (h : 4 ≤ (d.phys p).decades ∨ (d.phys p).logical = none) : d.passPendingDecade p = d :=
  if_pos h

theorem Dev.passPendingDecade_comes (on : (d.phys p).decades < 4) (live : (d.phys p).logical ≠ none) :
    d.passPendingDecade p = (d.modPhys p fun t => { t with decades := t.decades + 1 }).fineTrigger p 1
      ((d.phys p).programmedAt + 10 ^ ((d.phys p).decades + 1) * 10 ^ 9) :=
  if_neg (not_or.mpr ⟨Nat.not_le_of_lt on, live⟩)

theorem Dev.passPendingTrackPeriod_off (h : d.fld Off.calPeriod 15 0 = 0 ∨ (d.phys p).logical = none) :
    d.passPendingTrackPeriod p = d := if_pos h

theorem Dev.passPendingTrackPeriod_comes (on : d.fld Off.calPeriod 15 0 ≠ 0) (live : (d.phys p).logical ≠ none) :
    d.passPendingTrackPeriod p = d.fineTrigger p 1 ((d.phys p).passedAt + d.fld Off.calPeriod 15 0 * 10 ^ 9) :=
  if_neg (not_or.mpr ⟨on, live⟩)

theorem Dev.passPendingFinePeriod_off (h : d.fld Off.calPeriod 31 16 = 0 ∨ (d.phys p).logical = none) :
    d.passPendingFinePeriod p = d := if_pos h

theorem Dev.passPendingFinePeriod_comes (on : d.fld Off.calPeriod 31 16 ≠ 0) (live : (d.phys p).logical ≠ none) :
    d.passPendingFinePeriod p = d.fineTrigger p 2 ((d.phys p).fineAt + d.fld Off.calPeriod 31 16 * 3600 * 10 ^ 9) :=
  if_neg (not_or.mpr ⟨on, live⟩)

end

/-- The command is a time trigger of a tile: the pass it asks for, its due time, and whether it is on (R169). -/
def Dev.TimeTrigger (d : Dev) (p : Nat) (c : Instr) (kind due : Nat) (go : Bool) : Prop :=
  let x := d.phys p
  let track := d.fld Off.calPeriod 15 0
  let fine := d.fld Off.calPeriod 31 16
  c = .passPendingDecade p ∧ kind = 1 ∧ due = x.programmedAt + 10 ^ (x.decades + 1) * 10 ^ 9 ∧ go = decide (x.decades < 4) ∨
  c = .passPendingTrackPeriod p ∧ kind = 1 ∧ due = x.passedAt + track * 10 ^ 9 ∧ go = decide (track ≠ 0) ∨
  c = .passPendingFinePeriod p ∧ kind = 2 ∧ due = x.fineAt + fine * 3600 * 10 ^ 9 ∧ go = decide (fine ≠ 0)

/-- A trigger that is off, or of a tile that no logical tile holds, changes nothing; any other comes. -/
theorem exec_timeTrigger {s : State} {p : Nat} {c : Instr} {kind due : Nat} {go : Bool}
    (h : s.dev.TimeTrigger p c kind due go) : ∃ d, exec c s = .next { s with dev := d } ∧
      (go = false ∨ (s.dev.phys p).logical = none → d = s.dev) ∧
      (go = true → (s.dev.phys p).logical ≠ none → s.dev.Triggers d p kind due) := by
  rcases h with ⟨rfl, rfl, rfl, rfl⟩ | ⟨rfl, rfl, rfl, rfl⟩ | ⟨rfl, rfl, rfl, rfl⟩
  · refine ⟨s.dev.passPendingDecade p, rfl, fun off => Dev.passPendingDecade_off ?_, fun on live => ?_⟩
    · exact off.imp_left fun past => Nat.le_of_not_lt (of_decide_eq_false past)
    · rw [Dev.passPendingDecade_comes (of_decide_eq_true on) live]
      exact s.dev.triggers_decade p 1 _
  · refine ⟨s.dev.passPendingTrackPeriod p, rfl, fun off => Dev.passPendingTrackPeriod_off ?_, fun on live => ?_⟩
    · exact off.imp_left fun never => not_not.mp (of_decide_eq_false never)
    · rw [Dev.passPendingTrackPeriod_comes (of_decide_eq_true on) live]
      exact s.dev.triggers_fineTrigger p 1 _
  · refine ⟨s.dev.passPendingFinePeriod p, rfl, fun off => Dev.passPendingFinePeriod_off ?_, fun on live => ?_⟩
    · exact off.imp_left fun never => not_not.mp (of_decide_eq_false never)
    · rw [Dev.passPendingFinePeriod_comes (of_decide_eq_true on) live]
      exact s.dev.triggers_fineTrigger p 2 _

/-! ## Commands (R257) -/

/-- A command that is accepted is carried out. -/
theorem Dev.command_accepted {d d' : Dev} {h h' : CmdHdr} {opcode : Nat}
    (accepted : d.accept { h with opcode := opcode } = (some h', d')) (k : CmdHdr → Dev → Dev) :
    d.command h opcode k = k h' d' := by
  unfold Dev.command
  rw [accepted]

theorem lift_command {s : State} {h h' : CmdHdr} {d : Dev} {opcode : Nat}
    (accepted : s.dev.accept { h with opcode := opcode } = (some h', d)) (k : CmdHdr → Dev → Dev) :
    lift (·.command h opcode k) s = .next { s with dev := k h' d } := by
  rw [lift_eq, Dev.command_accepted accepted]

theorem Dev.Told.pln {d d' : Dev} (h : d.Told d') : d'.pln = d.pln := by rw [h]

/-- A pass is pending on each tile of a list: what of the tiles comes of it. -/
theorem Dev.foldl_makePending (pass : Nat) (ps : List Nat) (d : Dev) :
    d.OnlyTiles (ps.foldl (fun d p => d.makePending p pass) d) ∧
    (∀ q ∉ ps, (ps.foldl (fun d p => d.makePending p pass) d).phys q = d.phys q) ∧
    ∀ q ∈ ps, ((ps.foldl (fun d p => d.makePending p pass) d).phys q).passDue = max (d.phys q).passDue pass := by
  induction ps generalizing d with
  | nil => exact ⟨rfl, fun _ _ => rfl, fun _ none => absurd none List.not_mem_nil⟩
  | cons p ps ih =>
    obtain ⟨only, others, due⟩ := ih (d.makePending p pass)
    refine ⟨(d.onlyTiles_makePending p pass).trans only, fun q away => ?_, fun q listed => ?_⟩
    · obtain ⟨first, rest⟩ := not_or.mp (List.mem_cons.not.mp away)
      exact (others q rest).trans (d.phys_makePending_other pass first)
    · by_cases again : q ∈ ps
      · refine (due q again).trans ?_
        by_cases same : q = p
        · subst same
          rw [Dev.phys_makePending_same]
          exact (Nat.max_assoc ..).trans (congrArg (max _) (Nat.max_self _))
        · rw [Dev.phys_makePending_other _ _ same]
      · obtain rfl := (List.mem_cons.mp listed).resolve_right again
        show ((ps.foldl _ (d.makePending q pass)).phys q).passDue = _
        rw [others q again, Dev.phys_makePending_same]

/-! ### CALIBRATE -/

/-- The live tiles of a range of logical tiles (R175). -/
def Dev.liveIn (d : Dev) (first count : Nat) : List (Nat × Nat) :=
  d.liveSet.filter fun x => decide (first ≤ x.1) && decide (x.1 < first + count)

/-- The pass of CALIBRATE is pending on the live tiles of its range. -/
def Dev.calibrated (d : Dev) (first pass count : Nat) : Dev :=
  ((d.liveIn first count).map (·.2)).foldl (fun d p => d.makePending p pass) d

section
variable {d : Dev} {first pass count : Nat}

theorem Dev.doCalibrate_refuses (h : pass = 0 ∨ 3 < pass ∨ 24576 < first + count) :
    d.doCalibrate first pass count = d.no 0x000A := by
  refine if_pos ?_
  simp only [inRange, Bool.not_eq_true', Bool.and_eq_false_iff, decide_eq_false_iff_not]
  omega

theorem Dev.doCalibrate_makes_pending (low : 1 ≤ pass) (high : pass ≤ 3) (range : first + count ≤ 24576) :
    d.doCalibrate first pass count = (d.calibrated first pass count).yes (d.liveIn first count).length := by
  have inside : ¬ ((!inRange pass 1 3) = true ∨ 24576 < first + count) := by
    simp only [inRange, Bool.not_eq_true', Bool.and_eq_false_iff, decide_eq_false_iff_not]
    omega
  refine (if_neg inside).trans ?_
  dsimp only
  rw [List.length_map]
  rfl

end

/-! ### REFERENCE_SET -/

theorem Dev.postHost_mbx (d : Dev) (a : Nat) (l : List Byte) : (d.postHost a l).mbx = d.mbx := by
  unfold Dev.postHost
  split
  · next written => rcases d.writeHost_cases a l with e | e <;> rw [e] at written <;> cases written; rfl
  · exact d.event_mbx _ _

theorem Dev.postRecord_refCmd (d : Dev) (m : Nat) (l : List Byte) : (d.postRecord m l).mbx.refCmd = d.mbx.refCmd := by
  unfold Dev.postRecord
  dsimp only
  split
  · rfl
  split
  · rfl
  · exact (congrArg Mbx.refCmd (Dev.postHost_mbx d _ _) :)

/-- A completion leaves a REFERENCE_SET that waits where it is. -/
theorem Dev.complete_refCmd (d : Dev) (h : CmdHdr) (status result : Nat) :
    (d.complete h status result).mbx.refCmd = d.mbx.refCmd := by
  unfold Dev.complete
  dsimp only
  split
  · rfl
  unfold Dev.respond
  dsimp only
  split
  · rfl
  · exact Dev.postRecord_refCmd _ _ _

/-! ### One bit of a register -/

theorem bit_withBits_same (n b v : Nat) : bit (withBits n b b v) b = decide (v % 2 = 1) := by
  rw [bit_eq_bits, bits_withBits_same, Nat.add_sub_cancel_left, pow_one]

theorem bit_withBits_other (n v : Nat) {b c : Nat} (h : c ≠ b) : bit (withBits n b b v) c = bit n c := by
  rw [bit_eq_bits, bit_eq_bits]
  rcases Nat.lt_or_gt_of_ne h with below | above
  · rw [bits_withBits_below _ _ below]
  · rw [bits_withBits_above _ _ above (Nat.le_succ b)]

section
variable (d : Dev) (o v : Nat) {b : Nat}

theorem Dev.reg_setFld_bit (h : b < 32) : (d.setFld o b b v).reg o = withBits (d.reg o) b b v := by
  rw [Dev.setFld, Dev.reg_setReg_same, Nat.mod_eq_of_lt (withBits_lt v (d.reg_lt o) h)]

theorem Dev.bitAt_setFld_same (h : b < 32) : (d.setFld o b b v).bitAt o b = decide (v % 2 = 1) := by
  rw [Dev.bitAt, d.reg_setFld_bit o v h, bit_withBits_same]

theorem Dev.bitAt_setFld_other (h : b < 32) {c : Nat} (other : c ≠ b) : (d.setFld o b b v).bitAt o c = d.bitAt o c := by
  rw [Dev.bitAt, d.reg_setFld_bit o v h, bit_withBits_other _ _ other, Dev.bitAt]

end

/-! ### Once Currant is idle -/

/-- Reference mode as a REFERENCE_SET sets it, which waits no longer. -/
def Dev.referenceMode (d : Dev) (enable : Bool) : Dev :=
  ({ d with mbx := { d.mbx with refCmd := none } } : Dev).setFld Off.curCtrl 7 7 (if enable then 1 else 0)

section
variable {d : Dev} (h : CmdHdr) (enable : Bool)

theorem Dev.doReferenceSet_waits (busy : d.curIdle = false) :
    d.doReferenceSet h enable = { d with mbx := { d.mbx with refCmd := some (h, enable) } } :=
  if_pos ((Bool.not_eq_true' _).mpr busy)

theorem Dev.doReferenceSet_settles (idle : d.curIdle = true) :
    d.doReferenceSet h enable = (d.referenceMode enable).complete h 0 0 :=
  if_neg fun busy => Bool.false_ne_true (((Bool.not_eq_true' _).mp busy).symm.trans idle)

/-- Currant's control register as a REFERENCE_SET leaves it. -/
theorem Dev.reg_referenceSet (status result : Nat) :
    ((d.referenceMode enable).complete h status result).reg Off.curCtrl = (d.referenceMode enable).reg Off.curCtrl :=
  (Dev.kept_complete _ h status result).reg _ (by decide) (by decide) (by decide)

theorem Dev.bitAt_referenceMode_same : (d.referenceMode enable).bitAt Off.curCtrl 7 = enable := by
  rw [Dev.referenceMode, Dev.bitAt_setFld_same _ _ _ (by decide)]
  cases enable <;> rfl

theorem Dev.bitAt_referenceMode_other {i : Nat} (other : i ≠ 7) :
    (d.referenceMode enable).bitAt Off.curCtrl i = d.bitAt Off.curCtrl i :=
  Dev.bitAt_setFld_other _ _ _ (by decide) other

end

end Sys2Proof.Machine

open Sys2Proof Sys2Proof.Machine in
/-- Settles O30: each trigger of time is a `Dev.Triggers`; CALIBRATE is a fold over the live tiles of its range, and
REFERENCE_SET waits or settles with Currant. -/
theorem calibrationTriggers : Obligations.CalibrationTriggers := by
  refine ⟨fun s p c kind due go => ?_, fun s h h' d first pass count accepted => ?_, fun s h h' d enable accepted => ?_⟩
  · intro x track fine trigger
    obtain ⟨d, run, rests, fires⟩ := exec_timeTrigger trigger
    refine ⟨fun off => by rw [run, rests off], fun on live => ⟨_, run, ?_⟩⟩
    obtain ⟨now, passDue, state, active, others, frame⟩ := fires on live
    exact ⟨now, passDue, state, active, others, congrArg (fun d => { s with dev := d }) frame⟩
  · have run : exec (.calibrate h first pass count) s = .next { s with dev := (d.doCalibrate first pass count).finish h' } :=
      lift_command accepted _
    refine ⟨fun refused => by rw [run, Dev.doCalibrate_refuses refused], fun low high range => ?_⟩
    intro live
    obtain ⟨only, others, due⟩ := d.foldl_makePending pass ((d.liveIn first count).map (·.2))
    let e := ((d.calibrated first pass count).yes live.length).finish h'
    have told : e.pln = (d.calibrated first pass count).pln := Dev.Told.pln (Dev.told_complete _ h' 0 live.length)
    have stands : d.calibrated first pass count = { d with pln := { d.pln with phys := e.pln.phys } } := by
      rw [told]
      exact only
    rw [Dev.doCalibrate_makes_pending low high range] at run
    refine ⟨_, run, fun x listed => ?_, fun q away => ?_,
      congrArg (fun d : Dev => { s with dev := d.complete h' 0 live.length }) stands⟩
    · exact (congrArg PhysTile.passDue (Dev.phys_congr told x.2)).trans (due x.2 (List.mem_map_of_mem listed))
    · refine (Dev.phys_congr told q).trans (others q fun listed => ?_)
      obtain ⟨x, there, same⟩ := List.mem_map.mp listed
      exact away x there same
  · have run : exec (.referenceSet h enable) s = .next { s with dev := d.doReferenceSet h' enable } :=
      lift_command accepted _
    refine ⟨fun busy => by rw [run, Dev.doReferenceSet_waits h' enable busy], fun idle => ?_⟩
    rw [Dev.doReferenceSet_settles h' enable idle] at run
    have bits (i : Nat) := congrArg (bit · i) (d.reg_referenceSet h' enable 0 0)
    exact ⟨_, run, (bits 7).trans (d.bitAt_referenceMode_same enable), Dev.complete_refCmd _ _ _ _,
      fun i other => (bits i).trans (d.bitAt_referenceMode_other enable other), (Dev.kept_complete _ _ _ _).mem,
      Dev.Told.pln (Dev.told_complete _ _ _ _)⟩

end

section
/-! PROOFS. PASS_START and CALIBRATION_STEP: the pass that starts next, its slot, and the steps that passes take (R163, R167, R168,
R170). -/

namespace Sys2Proof.Machine

/-! ## The first of a list by a key -/

/-- One element against the first so far: its key and its name, where its key is lower. -/
def firstBy {α : Type} (key name : α → Nat) (b : Option (Nat × Nat)) (x : α) : Option (Nat × Nat) :=
  match b with
  | none => some (key x, name x)
  | some y => if key x < y.1 then some (key x, name x) else b

section
variable {α : Type} {key name : α → Nat}

/-- What is first after one more element is that element or what was first, and neither has a lower key. -/
theorem firstBy_spec (b : Option (Nat × Nat)) (x : α) : ∃ y, firstBy key name b x = some y ∧
    (b = some y ∨ y = (key x, name x)) ∧ y.1 ≤ key x ∧ ∀ z, b = some z → y.1 ≤ z.1 := by
  cases b with
  | none => exact ⟨_, rfl, .inr rfl, Nat.le_refl _, nofun⟩
  | some z =>
    by_cases lower : key x < z.1
    · exact ⟨_, if_pos lower, .inr rfl, Nat.le_refl _, fun _ h => Option.some.inj h ▸ Nat.le_of_lt lower⟩
    · exact ⟨z, if_neg lower, .inl rfl, Nat.le_of_not_lt lower, fun _ h => Option.some.inj h ▸ Nat.le_refl _⟩

theorem foldl_firstBy {l : List α} {b : Option (Nat × Nat)} {y : Nat × Nat} (h : l.foldl (firstBy key name) b = some y) :
    (b = some y ∨ ∃ x ∈ l, y = (key x, name x)) ∧ (∀ x ∈ l, y.1 ≤ key x) ∧ ∀ z, b = some z → y.1 ≤ z.1 := by
  induction l generalizing b with
  | nil => exact ⟨.inl h, fun _ none => absurd none List.not_mem_nil, fun z hz => by rw [Option.some.inj (h.symm.trans hz)]⟩
  | cons a l ih =>
    obtain ⟨w, first, source, lowA, lowB⟩ := firstBy_spec (key := key) (name := name) b a
    obtain ⟨found, low, lowW⟩ := ih h
    have below := lowW w first
    refine ⟨?_, fun x listed => ?_, fun z hz => below.trans (lowB z hz)⟩
    · rcases found with same | ⟨x, there, eq⟩
      · obtain rfl := Option.some.inj (first.symm.trans same)
        exact source.imp_right fun eq => ⟨a, List.mem_cons_self, eq⟩
      · exact .inr ⟨x, List.mem_cons_of_mem _ there, eq⟩
    · rcases List.mem_cons.mp listed with rfl | there
      · exact below.trans lowA
      · exact low x there

end

/-! ## The pass that starts next (R163, R168, R170) -/

/-- A pending pass of a die may start. -/
def Dev.canStart (d : Dev) (die : Nat) (x : Nat × PhysTile) : Bool :=
  decide (dieOf x.1 = die) && decide (x.2.passDue ≠ 0) && !(d.cal.passes.any fun c => decide (c.phys = x.1)) &&
    decide (x.2.state = .suspect ∨ x.2.state = .uncalibrated ∨ (x.2.state = .ready ∧ !d.bitAt Off.curCtrl 7)) &&
    !x.2.waiting && (decide (x.2.passDue ≠ 1) || decide (x.2.grade = 2) || x.2.warmTrack) &&
    !d.domainOff (bankDomain x.1) && !d.programDue x.1

/-- Its place in the start order: its rank, then its logical tile. -/
def startKey (x : Nat × PhysTile) : Nat := passRank x.2 * 2 ^ 20 + x.2.logical.getD 0xFFFFF

theorem Dev.nextPass_eq (d : Dev) (die : Nat) : d.nextPass die =
    ((d.pln.phys.filter (d.canStart die)).foldl (firstBy startKey Prod.fst) none).map (·.2) := rfl

theorem Dev.canStart_iff {d : Dev} {die : Nat} {x : Nat × PhysTile} : d.canStart die x = true ↔
    dieOf x.1 = die ∧ x.2.passDue ≠ 0 ∧ (∀ c ∈ d.cal.passes, c.phys ≠ x.1) ∧
    (x.2.state = .suspect ∨ x.2.state = .uncalibrated ∨ x.2.state = .ready ∧ d.bitAt Off.curCtrl 7 = false) ∧
    x.2.waiting = false ∧ (x.2.passDue ≠ 1 ∨ x.2.grade = 2 ∨ x.2.warmTrack = true) ∧
    d.domainOff (bankDomain x.1) = false ∧ d.programDue x.1 = false := by
  simp only [Dev.canStart, Bool.and_eq_true, Bool.or_eq_true, decide_eq_true_eq, Bool.not_eq_true', List.any_eq_false, and_assoc,
    or_assoc]

/-- The tile chosen may start, and none that may start stands before it. -/
theorem Dev.nextPass_some {d : Dev} {die p : Nat} (h : d.nextPass die = some p) :
    ∃ x, (p, x) ∈ d.pln.phys ∧ d.canStart die (p, x) = true ∧
      ∀ y ∈ d.pln.phys, d.canStart die y = true → startKey (p, x) ≤ startKey y := by
  rw [Dev.nextPass_eq] at h
  obtain ⟨y, first, rfl⟩ := Option.map_eq_some_iff.mp h
  obtain ⟨found, low, -⟩ := foldl_firstBy first
  obtain ⟨⟨p, x⟩, listed, rfl⟩ := found.resolve_left nofun
  obtain ⟨there, may⟩ := List.mem_filter.mp listed
  exact ⟨x, there, may, fun y there may => low y (List.mem_filter.mpr ⟨there, may⟩)⟩

theorem startKey_suspect {x : Nat × PhysTile} (suspect : x.2.state = .suspect) (named : ∀ l, x.2.logical = some l → l < 2 ^ 20) :
    startKey x < 2 ^ 20 := by
  have rank : passRank x.2 = 0 := by rw [passRank, suspect]
  rw [startKey, rank, Nat.zero_mul, Nat.zero_add]
  exact getD_lt_index named

theorem suspect_of_startKey {x : Nat × PhysTile} (h : startKey x < 2 ^ 20) : x.2.state = .suspect := by
  have rank : passRank x.2 = 0 := by
    unfold startKey at h
    omega
  unfold passRank at rank
  split at rank
  · assumption
  · cases rank
  · split at rank <;> cases rank

/-! ## PASS_START -/

/-- The slots of the passes in progress on a die. -/
def Dev.slotsOf (d : Dev) (die : Nat) : List Nat := (d.cal.passes.filter fun c => decide (dieOf c.phys = die)).map (·.cslot)

/-- The lowest free calibration slot of a die (R167). -/
def Dev.freeSlot (d : Dev) (die : Nat) : Option Nat :=
  (List.range (d.fld Off.calCtrl 15 11)).find? fun i => !(d.slotsOf die).contains i

theorem Dev.freeSlot_some {d : Dev} {die i : Nat} (h : d.freeSlot die = some i) :
    i < d.fld Off.calCtrl 15 11 ∧ ∀ c ∈ d.cal.passes, dieOf c.phys = die → c.cslot ≠ i := by
  refine ⟨List.mem_range.mp (List.mem_of_find?_eq_some h), fun c there here same => ?_⟩
  have free := List.find?_some h
  rw [Bool.not_eq_true', List.contains_eq_mem, decide_eq_false_iff_not] at free
  exact free (List.mem_map.mpr ⟨c, List.mem_filter.mpr ⟨there, decide_eq_true here⟩, same⟩)

/-- A pass begins on a tile, in a slot. -/
def Dev.passStarted (d : Dev) (p i : Nat) : Dev :=
  ({ d with cal := { d.cal with passes :=
      d.cal.passes ++ [{ phys := p, kind := (d.phys p).passDue, cslot := i, startedAt := d.now }] } } : Dev).modPhys p fun t =>
    { t with passDue := 0, attempts := 0 }

theorem Dev.passStart_waits {d : Dev} {die : Nat}
    (h : d.bitAt Off.calCtrl 0 = true ∨ d.nextPass die = none ∨ d.freeSlot die = none) : d.passStart die = d := by
  unfold Dev.passStart
  dsimp only
  split
  · next slot next =>
    refine if_pos (.inl (h.resolve_right ?_))
    rintro (none | none)
    · exact absurd (none.symm.trans next) nofun
    · exact absurd (none.symm.trans slot) nofun
  · rfl

theorem Dev.passStart_starts {d : Dev} {die p i : Nat} (on : d.bitAt Off.calCtrl 0 = false) (next : d.nextPass die = some p)
    (slot : d.freeSlot die = some i)
    (up : d.bring = .link ∨ d.bring = .digital ∨ d.bring = .coarse ∨ d.bring = .ready) : d.passStart die = d.passStarted p i := by
  have runs : ¬ (d.bitAt Off.calCtrl 0 = true ∨ d.bring = .rom ∨ d.bring = .fw ∨ d.bring = .hold ∨ d.bring = .recovery) := by
    rw [on]
    rcases up with up | up | up | up <;> rw [up] <;> decide
  unfold Dev.freeSlot Dev.slotsOf at slot
  unfold Dev.passStart
  dsimp only
  rw [slot, next]
  exact if_neg runs

/-! ## CALIBRATION_STEP -/

/-- The elements of a list gathered by a value below a bound are no more than there are. -/
theorem length_gathered_le {α : Type} (f : α → Nat) (n : Nat) (l : List α) :
    ((List.range n).flatMap fun i => l.filter fun c => decide (f c = i)).length ≤ l.length := by
  suffices below : ((List.range n).flatMap fun i => l.filter fun c => decide (f c = i)).length =
      (l.filter fun c => decide (f c < n)).length from below ▸ List.length_filter_le _ l
  induction n with
  | zero => simp
  | succ n ih =>
    rw [List.range_succ, List.flatMap_append, List.length_append, ih, List.flatMap_singleton, ← List.countP_eq_length_filter,
      ← List.countP_eq_length_filter, ← List.countP_eq_length_filter]
    clear ih
    induction l with
    | nil => rfl
    | cons c l ih =>
      simp only [List.countP_cons, decide_eq_true_eq]
      split <;> split <;> split <;> omega

/-- The passes in the order in which they fire: by slot (R168). -/
def Dev.firingOrder (d : Dev) : List Nat :=
  (List.range 16).flatMap fun i => (d.cal.passes.filter fun c => decide (c.cslot = i)).map (·.phys)

/-- The firing cap (R168). -/
def Dev.firingCap (d : Dev) : Nat := min (d.fld Off.plnFiringCap 10 0) (1024 - 64 * d.pwr.level)

/-- A pass after the step: one more step, where its tile has fired. -/
def CalPass.fired (fires : List Nat) (c : CalPass) : CalPass := if fires.contains c.phys then { c with steps := c.steps + 1 } else c

theorem CalPass.fired_cases (fires : List Nat) (c : CalPass) :
    c.fired fires = c ∨ c.fired fires = { c with steps := c.steps + 1 } := by
  unfold CalPass.fired
  split
  · exact .inr rfl
  · exact .inl rfl

/-- The passes after the step. -/
def Dev.passesFired (d : Dev) : List CalPass := d.cal.passes.map (CalPass.fired (d.firingOrder.take d.firingCap))

theorem Dev.firingOrder_length_le (d : Dev) : d.firingOrder.length ≤ d.cal.passes.length := by
  rw [Dev.firingOrder, ← List.map_flatMap, List.length_map]
  exact length_gathered_le _ _ _

theorem Dev.mem_firingOrder {d : Dev} {c : CalPass} (there : c ∈ d.cal.passes) (slot : c.cslot < 16) : c.phys ∈ d.firingOrder :=
  List.mem_flatMap.mpr ⟨c.cslot, List.mem_range.mpr slot,
    List.mem_map.mpr ⟨c, List.mem_filter.mpr ⟨there, decide_eq_true rfl⟩, rfl⟩⟩

/-- Where there are no more passes than the cap, all fire. -/
theorem Dev.passesFired_all {d : Dev} (slots : ∀ c ∈ d.cal.passes, c.cslot < 16) (few : d.cal.passes.length ≤ d.firingCap) :
    d.passesFired = d.cal.passes.map fun (c : CalPass) => { c with steps := c.steps + 1 } := by
  unfold Dev.passesFired
  rw [List.take_of_length_le (d.firingOrder_length_le.trans few)]
  refine List.map_congr_left fun c there => if_pos ?_
  exact List.contains_iff_mem.mpr (Dev.mem_firingOrder there (slots c there))

/-- The device with the step of its passes taken. -/
def Dev.calibrationStepped (d : Dev) : Dev :=
  ({ d with cal := { d.cal with passes := d.passesFired }, pln := { d.pln with calFired := d.pln.calFired + 1 } } : Dev).bump64
    Off.plnStepsLo

theorem Dev.calibrationStep_waits {d : Dev} (h : d.unitReady = true ∨ d.cal.passes = []) : d.calibrationStep = d := if_pos h

theorem Dev.calibrationStep_steps {d : Dev} (unready : d.unitReady = false) (passes : d.cal.passes ≠ []) :
    d.calibrationStep = d.calibrationStepped := if_neg (not_or.mpr ⟨Bool.eq_false_iff.mp unready, passes⟩)

theorem Dev.getElem?_passesFired {d : Dev} {i : Nat} {c : CalPass} (h : d.cal.passes[i]? = some c) :
    d.passesFired[i]? = some c ∨ d.passesFired[i]? = some { c with steps := c.steps + 1 } := by
  rw [Dev.passesFired, List.getElem?_map, h]
  exact (c.fired_cases _).imp (congrArg some) (congrArg some)

end Sys2Proof.Machine

open Sys2Proof Sys2Proof.Machine in
/-- The clause of O31 on PASS_START and CALIBRATION_STEP. -/
theorem passesStartAndStep : Clause.PassesStartAndStep := by
  refine ⟨fun s die => ?_, fun s => ⟨fun waits => ?_, fun unready passes => ?_⟩⟩
  · intro mine free
    refine ⟨fun waits => ?_, fun i p on next slot => ⟨fun up => ?_, ?_⟩⟩
    · rw [exec_passStart, execPassStart, lift_eq, Dev.passStart_waits waits]
    · rw [exec_passStart, execPassStart, lift_eq, Dev.passStart_starts on next slot up]
      exact ⟨_, rfl, rfl, by rw [Dev.passStarted, Dev.phys_modPhys_same], by rw [Dev.passStarted, Dev.phys_modPhys_same],
        fun q other => Dev.phys_modPhys_other _ _ other, rfl⟩
    · obtain ⟨inside, alone⟩ := Dev.freeSlot_some slot
      obtain ⟨x, there, may, before⟩ := Dev.nextPass_some next
      obtain ⟨here, due, -, state, settled, -⟩ := Dev.canStart_iff.mp may
      refine ⟨inside, alone, here, x, there, due, settled, state,
        fun named y there' here' suspect due' settled' track idle bank free => ?_⟩
      have mayToo := Dev.canStart_iff.mpr ⟨here', due', idle, .inl suspect, settled', track, bank, free⟩
      exact suspect_of_startKey ((before y there' mayToo).trans_lt (startKey_suspect suspect (named y there')))
  · rw [exec_calibrationStep, execCalibrationStep, lift_eq, Dev.calibrationStep_waits waits]
  · intro cap
    rw [exec_calibrationStep, execCalibrationStep, lift_eq, Dev.calibrationStep_steps unready passes]
    exact ⟨_, rfl, Dev.reg64_bump64 _ _ _, List.length_map _, fun i c => Dev.getElem?_passesFired, Dev.passesFired_all, rfl, rfl, rfl⟩

end

section
/-! PROOFS. PASS_MEASUREMENT_END: how the repeat measurement of a pass is judged, and what comes of it (R101, R103, R163-R166, R171,
R172). -/

namespace Sys2Proof.Machine

/-! ## Tiles that stand beside a change of one -/

theorem Dev.phys_setPhysState_other (d : Dev) {p q : Nat} (st : TileState) (h : q ≠ p) :
    (d.setPhysState p st).phys q = d.phys q :=
  (Dev.phys_congr (d.setPhysState_pln p st) q).trans (d.phys_modPhys_other _ h)

theorem Dev.setPhysState_cal (d : Dev) (p : Nat) (st : TileState) : (d.setPhysState p st).cal = d.cal := by
  unfold Dev.setPhysState
  dsimp only
  split <;> rfl

theorem Dev.log_setPhysState (d : Dev) (p l : Nat) (st : TileState) : (d.setPhysState p st).log l = d.log l := by
  rw [Dev.log, d.setPhysState_pln p st]
  rfl

theorem Dev.phys_modLog (d : Dev) (l p : Nat) (f : LogTile → LogTile) : (d.modLog l f).phys p = d.phys p :=
  Dev.phys_of_list (d.modLog_phys l f) p

theorem Dev.modLog_cal (d : Dev) (l : Nat) (f : LogTile → LogTile) : (d.modLog l f).cal = d.cal := by
  unfold Dev.modLog
  split <;> rfl

theorem Dev.reg_flagEvent (d : Dev) {off o : Nat} (b : Nat) (e : EventRec) (status : o ≠ off) (records : o / 0x10000 ≠ 13) :
    (d.flagEvent off b e).reg o = d.reg o := (Dev.reg_event _ _ _ records).trans (d.reg_setBit_other b status)

/-! ## A pass in progress ends (R166) -/

theorem Dev.abandonPass_passes (d : Dev) (p : Nat) :
    (d.abandonPass p).cal.passes = d.cal.passes.filter fun c => decide (c.phys ≠ p) := by
  unfold Dev.abandonPass
  split
  · rfl
  · next none =>
    refine (List.filter_eq_self.mpr fun c there => ?_).symm
    rw [decide_eq_true_eq]
    exact fun same => none (List.any_eq_true.mpr ⟨c, there, decide_eq_true same⟩)

theorem Dev.abandonPass_phys_other (d : Dev) {p q : Nat} (h : q ≠ p) : (d.abandonPass p).phys q = d.phys q := by
  unfold Dev.abandonPass
  split
  · exact Dev.phys_modPhys_other _ _ h
  · rfl

/-- The tile whose pass ends keeps everything but its attempts and its candidate bank. -/
theorem Dev.abandonPass_phys_same (d : Dev) (p : Nat) : (d.abandonPass p).phys p =
    { d.phys p with attempts := ((d.abandonPass p).phys p).attempts, candidate := ((d.abandonPass p).phys p).candidate } := by
  unfold Dev.abandonPass
  split
  · rw [Dev.phys_modPhys_same]
    rfl
  · rfl

/-- A pass that ends changes the passes and its tile alone. -/
theorem Dev.abandonPass_frame (d : Dev) (p : Nat) : d.abandonPass p =
    { d with cal := { d.cal with passes := (d.abandonPass p).cal.passes }
             pln := { d.pln with phys := (d.abandonPass p).pln.phys } } := by
  unfold Dev.abandonPass
  split <;> rfl

section
variable (d : Dev) (p : Nat)

theorem Dev.abandonPass_regs : (d.abandonPass p).regs = d.regs := by rw [d.abandonPass_frame p]

theorem Dev.abandonPass_log (l : Nat) : (d.abandonPass p).log l = d.log l := by
  rw [Dev.log, d.abandonPass_frame p]
  rfl

/-- No pass of the tile is left. -/
theorem Dev.abandonPass_none : ∀ c ∈ (d.abandonPass p).cal.passes, c.phys ≠ p := by
  rw [Dev.abandonPass_passes]
  simp

end

/-! ## A tile is retired (R98) -/

/-- Between `d` and `d'` a spare was prepared: passes, the registers of calibration, and a tile that is no spare stand. -/
structure Dev.Spared (d d' : Dev) (p : Nat) : Prop where
  cal : d'.cal = d.cal
  reg : ∀ o, o / 0x10000 = 4 → d'.reg o = d.reg o
  tile : (d.phys p).state ≠ .spare → d'.phys p = d.phys p

theorem Dev.Spared.trans {a b c : Dev} {p : Nat} (h : a.Spared b p) (k : b.Spared c p) : a.Spared c p where
  cal := k.cal.trans h.cal
  reg o block := (k.reg o block).trans (h.reg o block)
  tile used := (k.tile (h.tile used ▸ used)).trans (h.tile used)

theorem Dev.Spared.refl (d : Dev) (p : Nat) : d.Spared d p := ⟨rfl, fun _ _ => rfl, fun _ => rfl⟩

section
variable (d : Dev) (p : Nat)

theorem Dev.spared_setReg {o : Nat} (v : Nat) (h : o / 0x10000 ≠ 4) : d.Spared (d.setReg o v) p :=
  ⟨rfl, fun _ block => d.reg_setReg_other v (by rintro rfl; exact h block), fun _ => rfl⟩

theorem Dev.spared_flagEvent {o : Nat} (b : Nat) (e : EventRec) (h : o / 0x10000 ≠ 4) : d.Spared (d.flagEvent o b e) p where
  cal := d.flagEvent_cal _ _ _
  reg _ block := d.reg_flagEvent b e (by rintro rfl; exact h block) (by omega)
  tile _ := Dev.phys_congr (d.flagEvent_pln _ _ _) p

theorem Dev.spared_modLog (l : Nat) (f : LogTile → LogTile) : d.Spared (d.modLog l f) p :=
  ⟨d.modLog_cal l f, fun o _ => Dev.reg_congr (d.modLog_regs l f) o, fun _ => d.phys_modLog l p f⟩

theorem Dev.spared_modPhys {q : Nat} (spare : (d.phys q).state = .spare) (f : PhysTile → PhysTile) : d.Spared (d.modPhys q f) p :=
  ⟨rfl, fun _ _ => rfl, fun used => d.phys_modPhys_other f (by rintro rfl; exact used spare)⟩

theorem Dev.spared_queueProgram (l q : Nat) : d.Spared (d.queueProgram l q) p := ⟨rfl, fun _ _ => rfl, fun _ => rfl⟩

theorem Dev.spared_assignSpare (l die : Nat) : d.Spared (d.assignSpare l die) p := by
  unfold Dev.assignSpare
  split
  · exact (d.spared_modLog p _ _).trans (Dev.spared_flagEvent _ p _ _ (by decide))
  · next q qs spares =>
    have spare : (d.phys q).state = .spare :=
      of_decide_eq_true (List.mem_filter.mp (spares ▸ List.mem_cons_self : q ∈ d.sparesOf die)).2
    extract_lets n counted assigned
    have first : d.Spared counted p := d.spared_setReg p _ (by decide)
    have second : counted.Spared assigned p := counted.spared_modPhys p spare _
    exact ((first.trans second).trans (Dev.spared_modLog _ p _ _)).trans (Dev.spared_queueProgram _ p _ _)

theorem Dev.spared_dropAudits (l : Nat) : d.Spared (d.dropAudits l) p := by
  have skip (d : Dev) (e : AuditEntry) : d.Spared ((d.auditDone e false).skipAudit) p := by
    refine .trans (b := d.auditDone e false) ⟨rfl, fun _ _ => rfl, fun _ => rfl⟩ ?_
    exact (Dev.spared_setReg _ p _ (by decide)).trans (Dev.spared_setReg _ p _ (by decide))
  have all (es : List AuditEntry) (d : Dev) : d.Spared (es.foldl (fun d e => (d.auditDone e false).skipAudit) d) p := by
    induction es generalizing d with
    | nil => exact .refl d p
    | cons e es ih => exact (skip d e).trans (ih _)
  unfold Dev.dropAudits
  extract_lets gone cur kept
  exact .trans (⟨rfl, fun _ _ => rfl, fun _ => rfl⟩ : d.Spared kept p) (all _ _)

/-- The tile marked RETIRED, with no pass. -/
def Dev.markedRetired : Dev := (d.dropPasses p).setPhysState p .retired

theorem Dev.markedRetired_state : ((d.markedRetired p).phys p).state = .retired := by
  rw [Dev.markedRetired, Dev.phys_setPhysState_same]

theorem Dev.markedRetired_logical : ((d.markedRetired p).phys p).logical = (d.phys p).logical := by
  rw [Dev.markedRetired, Dev.phys_setPhysState_same, Dev.dropPasses, Dev.phys_modPhys_same, d.abandonPass_phys_same p]

/-- What retirement leaves of the tile and of calibration (R98, R166). -/
structure Dev.Retires (d d' : Dev) (p : Nat) : Prop where
  state : (d'.phys p).state = .retired
  logical : (d'.phys p).logical = none
  passes : ∀ c ∈ d'.cal.passes, c.phys ≠ p
  reg : ∀ o, o / 0x10000 = 4 → d'.reg o = d.reg o

/-- A spare prepared for it changes nothing of a retired tile. -/
theorem Dev.Retires.spared {d d' d'' : Dev} {p : Nat} (h : d.Retires d' p) (k : d'.Spared d'' p) : d.Retires d'' p := by
  have same := k.tile (by rw [h.state]; decide)
  exact ⟨same ▸ h.state, same ▸ h.logical, k.cal ▸ h.passes, fun o block => (k.reg o block).trans (h.reg o block)⟩

theorem Dev.markedRetired_passes : ∀ c ∈ (d.markedRetired p).cal.passes, c.phys ≠ p := by
  rw [Dev.markedRetired, Dev.setPhysState_cal]
  exact d.abandonPass_none p

theorem Dev.markedRetired_regs : (d.markedRetired p).regs = d.regs := (Dev.setPhysState_regs _ _ _).trans (d.dropPasses_regs p)

theorem Dev.retires_retireTile : d.Retires (d.retireTile p) p := by
  have state := d.markedRetired_state p
  have passes := d.markedRetired_passes p
  have reg := Dev.reg_congr (d.markedRetired_regs p)
  have logical := d.markedRetired_logical p
  unfold Dev.retireTile
  extract_lets lo marked name dropped unnamed
  have drops : marked.Spared dropped p := (marked.spared_dropAudits p name).trans (Dev.spared_flagEvent _ p _ _ (by decide))
  change ((marked.phys p).state = _) at state
  change ((marked.phys p).logical = lo) at logical
  have tile := drops.tile (by rw [state]; decide)
  rw [← tile] at state logical
  have gone : ∀ c ∈ dropped.cal.passes, c.phys ≠ p := drops.cal ▸ passes
  have stand (o : Nat) (block : o / 0x10000 = 4) : dropped.reg o = d.reg o := (drops.reg o block).trans (reg o)
  clear_value lo marked dropped
  cases lo with
  | none => exact ⟨state, logical, gone, stand⟩
  | some l =>
    have base : d.Retires unnamed p :=
      ⟨by rwa [Dev.phys_modPhys_same], by rw [Dev.phys_modPhys_same], gone, stand⟩
    dsimp only
    split
    · exact base
    split
    · exact (base.spared (Dev.spared_modLog _ p _ _)).spared (Dev.spared_assignSpare _ p _ _)
    split
    · exact base.spared (Dev.spared_assignSpare _ p _ _)
    · exact base.spared (Dev.spared_modLog _ p _ _)

end

/-! ## Failed attempts (R164) -/

/-- A failed attempt is counted. -/
def Dev.attemptCounted (d : Dev) : Dev := (d.bump Off.calAttemptsFailed).setBit Off.calStatus 5

theorem Dev.reg_attemptCounted (d : Dev) :
    d.attemptCounted.reg Off.calAttemptsFailed = min (d.reg Off.calAttemptsFailed + 1) 0xFFFFFFFF := by
  rw [Dev.attemptCounted, Dev.reg_setBit_other _ _ (by decide), Dev.reg_bump_same]

/-- The pass of a tile starts over. -/
def CalPass.retried (now p : Nat) (c : CalPass) : CalPass := if c.phys = p then { c with startedAt := now, steps := 0 } else c

theorem CalPass.retried_phys (now p : Nat) (c : CalPass) : (c.retried now p).phys = c.phys := by
  unfold CalPass.retried
  split <;> rfl

theorem CalPass.retried_of_phys {now p : Nat} {c : CalPass} (h : c.phys = p) :
    (c.retried now p).startedAt = now ∧ (c.retried now p).steps = 0 := by
  rw [CalPass.retried, if_pos h]
  exact ⟨rfl, rfl⟩

section
variable {d : Dev} {c : CalPass}

/-- The pass tries again, with one attempt more. -/
def Dev.attemptRetried (d : Dev) (p : Nat) : Dev :=
  ({ d.attemptCounted with
      cal := { d.cal with passes := d.cal.passes.map (CalPass.retried d.now p) } } : Dev).modPhys p fun t =>
    { t with attempts := (d.phys p).attempts + 1 }

theorem Dev.attemptFailed_retries (few : (d.phys c.phys).attempts + 1 < 4) : d.attemptFailed c = d.attemptRetried c.phys :=
  if_pos few

theorem Dev.attemptFailed_fails (last : 4 ≤ (d.phys c.phys).attempts + 1) :
    d.attemptFailed c = (d.attemptCounted.abandonPass c.phys).cycleFailed c.phys := if_neg (Nat.not_lt_of_le last)

end

/-! ### The cycle fails -/

section
variable {d : Dev} {p : Nat}

/-- An UNCALIBRATED tile whose cycle fails. -/
def Dev.uncalibratedFailed (d : Dev) (p : Nat) : Dev :=
  ((((d.setPhysState p .suspect).makePending p 2).modPhys p fun t => { t with attempts := 0 }).bump Off.calSuspects).flagEvent
    Off.calStatus 6 { arg0 := (d.phys p).logical.getD 0xFFFFF }

/-- A tile of another state, READY or none of a pass, whose cycle fails. -/
def Dev.readyFailed (d : Dev) (p : Nat) : Dev :=
  (d.modPhys p fun t => { t with attempts := 0 }).modLog ((d.phys p).logical.getD 0xFFFFF) fun x =>
    { x with due := x.due ++ [.calSuspect] }

theorem Dev.cycleFailed_uncalibrated (h : (d.phys p).state = .uncalibrated) : d.cycleFailed p = d.uncalibratedFailed p := by
  unfold Dev.cycleFailed
  dsimp only
  rw [h]
  rfl

theorem Dev.cycleFailed_suspect (h : (d.phys p).state = .suspect) : d.cycleFailed p = d.retireTile p := by
  unfold Dev.cycleFailed
  dsimp only
  rw [h]

theorem Dev.cycleFailed_ready (h : (d.phys p).state ≠ .uncalibrated) (k : (d.phys p).state ≠ .suspect) :
    d.cycleFailed p = d.readyFailed p := by
  unfold Dev.cycleFailed
  dsimp only
  split
  · contradiction
  · contradiction
  · rfl

theorem Dev.uncalibratedFailed_phys : ((d.uncalibratedFailed p).phys p).state = .suspect ∧
    ((d.uncalibratedFailed p).phys p).passDue = max (d.phys p).passDue 2 := by
  rw [Dev.uncalibratedFailed, Dev.phys_congr (Dev.flagEvent_pln _ _ _ _), Dev.phys_congr (Dev.bump_pln _ _ _), Dev.phys_modPhys_same,
    Dev.phys_makePending_same, Dev.phys_setPhysState_same]
  exact ⟨rfl, rfl⟩

/-- Whatever the tile's state, no pass starts, and the count of failed attempts stands. -/
theorem Dev.cycleFailed_stands (d : Dev) (p : Nat) (none : ∀ c ∈ d.cal.passes, c.phys ≠ p) :
    (∀ c ∈ (d.cycleFailed p).cal.passes, c.phys ≠ p) ∧
    (d.cycleFailed p).reg Off.calAttemptsFailed = d.reg Off.calAttemptsFailed := by
  by_cases uncalibrated : (d.phys p).state = .uncalibrated
  · rw [Dev.cycleFailed_uncalibrated uncalibrated, Dev.uncalibratedFailed]
    constructor
    · rw [Dev.flagEvent_cal, Dev.bump_cal]
      show ∀ c ∈ (d.setPhysState p .suspect).cal.passes, c.phys ≠ p
      rwa [Dev.setPhysState_cal]
    · rw [Dev.reg_flagEvent _ _ _ (by decide) (by decide), Dev.reg_bump_other _ _ (by decide)]
      exact Dev.reg_congr (d.setPhysState_regs p _) _
  by_cases suspect : (d.phys p).state = .suspect
  · rw [Dev.cycleFailed_suspect suspect]
    exact ⟨(d.retires_retireTile p).passes, (d.retires_retireTile p).reg _ (by decide)⟩
  · rw [Dev.cycleFailed_ready uncalibrated suspect, Dev.readyFailed]
    exact ⟨by rwa [Dev.modLog_cal], Dev.reg_congr (Dev.modLog_regs _ _ _) _⟩

end

/-! ### What a failed attempt leaves -/

section
variable {d : Dev} {c : CalPass}

theorem Dev.attemptFailed_count :
    (d.attemptFailed c).reg Off.calAttemptsFailed = min (d.reg Off.calAttemptsFailed + 1) 0xFFFFFFFF := by
  rcases Nat.lt_or_ge ((d.phys c.phys).attempts + 1) 4 with few | last
  · rw [Dev.attemptFailed_retries few]
    exact d.reg_attemptCounted
  · rw [Dev.attemptFailed_fails last, (Dev.cycleFailed_stands _ _ (Dev.abandonPass_none _ _)).2,
      Dev.reg_congr (Dev.abandonPass_regs _ _), Dev.reg_attemptCounted]

variable {p : Nat}

theorem Dev.attemptRetried_phys_same : (d.attemptRetried p).phys p = { d.phys p with attempts := (d.phys p).attempts + 1 } := by
  rw [Dev.attemptRetried, Dev.phys_modPhys_same]
  rfl

theorem Dev.attemptRetried_phys_other {q : Nat} (h : q ≠ p) : (d.attemptRetried p).phys q = d.phys q :=
  Dev.phys_modPhys_other _ _ h

/-- A retried pass starts over. -/
theorem Dev.attemptRetried_restarts : ∀ y ∈ (d.attemptRetried p).cal.passes, y.phys = p → y.startedAt = d.now ∧ y.steps = 0 := by
  intro y there same
  obtain ⟨x, -, rfl⟩ := List.mem_map.mp there
  exact CalPass.retried_of_phys (x.retried_phys d.now p ▸ same)

/-- The device at a cycle's end: the attempt is counted, and the pass over. -/
theorem Dev.attemptCounted_abandon_phys : (d.attemptCounted.abandonPass p).phys p =
    { d.phys p with attempts := ((d.attemptCounted.abandonPass p).phys p).attempts
                    candidate := ((d.attemptCounted.abandonPass p).phys p).candidate } :=
  d.attemptCounted.abandonPass_phys_same p

end

end Sys2Proof.Machine
end

section
/-! PROOFS. PASS_MEASUREMENT_END, continued: refreshes and accepted passes (R101, R103, R161, R163-R166, R171, R172). -/

namespace Sys2Proof.Machine

/-! ## The tile that a physical tile serves (R65) -/

theorem Dev.serves_iff {d : Dev} {p l : Nat} :
    d.serves p = some l ↔ (d.phys p).logical = some l ∧ ∃ t, d.log l = some t ∧ t.phys = some p := by
  unfold Dev.serves
  constructor
  · intro h
    split at h
    · cases h
    next k logical =>
    split at h
    · next t record =>
      split at h
      · next own => exact Option.some.inj h ▸ ⟨logical, t, record, own⟩
      · cases h
    · cases h
  · rintro ⟨logical, t, record, own⟩
    simp only [logical, record, own, if_true]

theorem Dev.serves_congr {d d' : Dev} {p l : Nat} (logical : (d'.phys p).logical = (d.phys p).logical)
    (log : ∀ k, d'.log k = d.log k) (h : d.serves p = some l) : d'.serves p = some l := by
  rw [Dev.serves_iff] at h ⊢
  rwa [logical, log l]

/-! ## Refreshes (R103, R171) -/

section
variable {d : Dev} {p : Nat}

theorem Dev.reg_countRefresh : (d.countRefresh p).reg Off.calRefreshes = min (d.reg Off.calRefreshes + 1) 0xFFFFFFFF := by
  rw [Dev.countRefresh, Dev.reg_setBit_other _ _ (by decide), Dev.reg_bump_same, Dev.reg_congr (d.abandonPass_regs p)]

theorem Dev.countRefresh_phys (q : Nat) : (d.countRefresh p).phys q = (d.abandonPass p).phys q := rfl

theorem Dev.countRefresh_log (l : Nat) : (d.countRefresh p).log l = d.log l := d.abandonPass_log p l

theorem Dev.countRefresh_none : ∀ c ∈ (d.countRefresh p).cal.passes, c.phys ≠ p := d.abandonPass_none p

/-- A READY tile beyond the limit is to be refreshed at a tick. -/
def Dev.refreshDue (d : Dev) (p : Nat) : Dev :=
  match d.serves p with
  | some l => (d.countRefresh p).modLog l fun x => { x with due := x.due ++ [.refresh] }
  | none => d.countRefresh p

/-- What a refresh that is due leaves of calibration: the tile's pass is over, and it is counted. -/
structure Dev.Refreshes (d d' : Dev) (p : Nat) : Prop where
  count : d'.reg Off.calRefreshes = min (d.reg Off.calRefreshes + 1) 0xFFFFFFFF
  active : (d'.phys p).active = (d.phys p).active
  passes : ∀ c ∈ d'.cal.passes, c.phys ≠ p

theorem Dev.refreshes_countRefresh : d.Refreshes (d.countRefresh p) p where
  count := Dev.reg_countRefresh
  active := by rw [Dev.countRefresh_phys, d.abandonPass_phys_same p]
  passes := Dev.countRefresh_none

theorem Dev.Refreshes.modLog {d' : Dev} (h : d.Refreshes d' p) (l : Nat) (f : LogTile → LogTile) : d.Refreshes (d'.modLog l f) p where
  count := (Dev.reg_congr (d'.modLog_regs l f) _).trans h.count
  active := by rw [Dev.phys_modLog, h.active]
  passes := by rw [Dev.modLog_cal]; exact h.passes

theorem Dev.refreshes_refreshDue : d.Refreshes (d.refreshDue p) p := by
  unfold Dev.refreshDue
  split
  · exact Dev.refreshes_countRefresh.modLog _ _
  · exact Dev.refreshes_countRefresh

theorem Dev.due_refreshDue {l : Nat} (h : d.serves p = some l) : ∃ y, (d.refreshDue p).log l = some y ∧ .refresh ∈ y.due := by
  obtain ⟨-, t, record, -⟩ := Dev.serves_iff.mp h
  refine ⟨{ t with due := t.due ++ [.refresh] }, ?_, List.mem_append_right _ List.mem_cons_self⟩
  rw [Dev.refreshDue, h]
  dsimp only
  rw [Dev.log_modLog_same, Dev.countRefresh_log, record]
  rfl

/-- A tile beyond the trim range is UNCALIBRATED, with a FINE pass pending. -/
def Dev.beyondTrim (d : Dev) (p : Nat) : Dev := ((d.countRefresh p).setPhysState p .uncalibrated).makePending p 2

theorem Dev.beyondTrim_phys : (d.beyondTrim p).phys p =
    { (d.abandonPass p).phys p with state := .uncalibrated, passDue := max ((d.abandonPass p).phys p).passDue 2 } := by
  rw [Dev.beyondTrim, Dev.phys_makePending_same, Dev.phys_setPhysState_same, Dev.countRefresh_phys]

theorem Dev.refreshes_beyondTrim : d.Refreshes (d.beyondTrim p) p where
  count := (Dev.reg_congr (Dev.setPhysState_regs _ _ _) _).trans Dev.reg_countRefresh
  active := by rw [Dev.beyondTrim_phys, d.abandonPass_phys_same p]
  passes := by
    show ∀ c ∈ ((d.countRefresh p).setPhysState p .uncalibrated).cal.passes, c.phys ≠ p
    rw [Dev.setPhysState_cal]
    exact Dev.countRefresh_none

/-- Its program is queued, unless it is queued already. -/
def Dev.refreshed (d : Dev) (p : Nat) : Dev :=
  match ((d.beyondTrim p).phys p).logical with
  | some l => if (d.beyondTrim p).refreshQueued l p then d.beyondTrim p else (d.beyondTrim p).queueProgram l p
  | none => d.beyondTrim p

/-- Queueing the program touches none of it. -/
theorem Dev.refreshed_eq : d.refreshed p =
    { d.beyondTrim p with pln := { (d.beyondTrim p).pln with prog := (d.refreshed p).pln.prog } } := by
  unfold Dev.refreshed
  split
  · split <;> rfl
  · rfl

theorem Dev.refreshed_phys : (d.refreshed p).phys p = (d.beyondTrim p).phys p :=
  Dev.phys_of_list (congrArg (·.pln.phys) Dev.refreshed_eq :) p

theorem Dev.refreshes_refreshed : d.Refreshes (d.refreshed p) p where
  count := (Dev.reg_congr (congrArg Dev.regs Dev.refreshed_eq :) _).trans Dev.refreshes_beyondTrim.count
  active := by rw [Dev.refreshed_phys, Dev.refreshes_beyondTrim.active]
  passes := by
    rw [Dev.refreshed_eq]
    exact Dev.refreshes_beyondTrim.passes

theorem Dev.refreshQueued_queueProgram (d : Dev) (l p : Nat) : (d.queueProgram l p).refreshQueued l p = true := by
  simp [Dev.refreshQueued, Dev.queueProgram]

theorem Dev.refreshQueued_refreshed {l : Nat} (h : (d.phys p).logical = some l) : (d.refreshed p).refreshQueued l p = true := by
  have same : ((d.beyondTrim p).phys p).logical = some l := by rw [Dev.beyondTrim_phys, d.abandonPass_phys_same p, h]
  rw [Dev.refreshed, same]
  dsimp only
  split
  · assumption
  · exact Dev.refreshQueued_queueProgram _ _ _

end

/-! ## An accepted pass (R164, R165) -/

/-- The tile of an accepted pass: its candidate bank waits. -/
def PhysTile.accepted (t : PhysTile) (c : CalPass) (r : PassReading) (now : Nat) : PhysTile :=
  let bank := candidateOf c.kind t.active r.trims
  { t with attempts := 0, candidate := bank, waiting := true, waitTemp := r.temperature
           waitGain := maxGain bank * 25 / 128, waitGrade := if c.kind = 3 then 1 else 2, passedAt := now
           fineAt := if c.kind = 2 then now else t.fineAt
           passDue := if c.kind = 3 then max t.passDue 2 else t.passDue }

/-- The pass is over, and its tile's candidate bank waits. -/
def Dev.passAccepted (d : Dev) (c : CalPass) (r : PassReading) : Dev :=
  let p := c.phys
  let bank := candidateOf c.kind (d.phys p).active r.trims
  let d := (d.abandonPass p).modPhys p fun t =>
    { t with attempts := 0, candidate := bank, waiting := true, waitTemp := r.temperature
             waitGain := maxGain bank * 25 / 128, waitGrade := if c.kind = 3 then 1 else 2, passedAt := d.now
             fineAt := if c.kind = 2 then d.now else t.fineAt }
  if c.kind = 3 then d.makePending p 2 else d

section
variable {d : Dev} {c : CalPass} {r : PassReading}

theorem Dev.passAccepted_phys_same : (d.passAccepted c r).phys c.phys = (d.phys c.phys).accepted c r d.now := by
  unfold Dev.passAccepted PhysTile.accepted
  dsimp only
  split
  · rw [Dev.phys_makePending_same, Dev.phys_modPhys_same, d.abandonPass_phys_same c.phys]
  · rw [Dev.phys_modPhys_same, d.abandonPass_phys_same c.phys]

theorem Dev.passAccepted_phys_other {q : Nat} (h : q ≠ c.phys) : (d.passAccepted c r).phys q = d.phys q := by
  unfold Dev.passAccepted
  dsimp only
  split
  · rw [Dev.phys_makePending_other _ _ h, Dev.phys_modPhys_other _ _ h, d.abandonPass_phys_other h]
  · rw [Dev.phys_modPhys_other _ _ h, d.abandonPass_phys_other h]

theorem Dev.passAccepted_frame : d.passAccepted c r =
    { d with cal := { d.cal with passes := (d.passAccepted c r).cal.passes }
             pln := { d.pln with phys := (d.passAccepted c r).pln.phys } } := by
  unfold Dev.passAccepted
  dsimp only
  split
  · rw [d.abandonPass_frame c.phys]
    rfl
  · rw [d.abandonPass_frame c.phys]
    rfl

theorem Dev.passAccepted_none : ∀ y ∈ (d.passAccepted c r).cal.passes, y.phys ≠ c.phys := by
  unfold Dev.passAccepted
  dsimp only
  split <;> exact d.abandonPass_none c.phys

theorem Dev.passAccepted_regs : (d.passAccepted c r).regs = d.regs := by rw [Dev.passAccepted_frame]
theorem Dev.passAccepted_now : (d.passAccepted c r).now = d.now := by rw [Dev.passAccepted_frame]

theorem Dev.passAccepted_log (l : Nat) : (d.passAccepted c r).log l = d.log l := by
  rw [Dev.log, Dev.passAccepted_frame]
  rfl

theorem Dev.passAccepted_tileIdle (l : Nat) : (d.passAccepted c r).tileIdle l = d.tileIdle l := by
  rw [Dev.passAccepted_frame]
  rfl

theorem Dev.passAccepted_serves {l : Nat} (h : d.serves c.phys = some l) : (d.passAccepted c r).serves c.phys = some l :=
  Dev.serves_congr (by rw [Dev.passAccepted_phys_same]; rfl) Dev.passAccepted_log h

theorem Dev.passAccepted_state : ((d.passAccepted c r).phys c.phys).state = (d.phys c.phys).state := by
  rw [Dev.passAccepted_phys_same]
  rfl

/-- The return of the tile to READY is due at a tick. -/
def Dev.returnDue (d : Dev) (c : CalPass) (r : PassReading) (l : Nat) : Dev :=
  (d.passAccepted c r).modLog l fun x => { x with due := x.due ++ [.toReady] }

theorem Dev.returnDue_phys (l : Nat) : (d.returnDue c r l).phys c.phys = (d.phys c.phys).accepted c r d.now := by
  rw [Dev.returnDue, Dev.phys_modLog, Dev.passAccepted_phys_same]

theorem Dev.returnDue_none (l : Nat) : ∀ y ∈ (d.returnDue c r l).cal.passes, y.phys ≠ c.phys := by
  rw [Dev.returnDue, Dev.modLog_cal]
  exact Dev.passAccepted_none

theorem Dev.returnDue_log {l : Nat} {y : LogTile} (h : d.log l = some y) :
    (d.returnDue c r l).log l = some { y with due := y.due ++ [.toReady] } := by
  rw [Dev.returnDue, Dev.log_modLog_same, Dev.passAccepted_log, h]
  rfl

/-! ### When its bank takes effect (R165, R172) -/

variable {l : Nat} (serves : d.serves c.phys = some l)
include serves

/-- On a SUSPECT tile it waits for the tick that returns the tile to READY. -/
theorem Dev.acceptPass_suspect (suspect : (d.phys c.phys).state = .suspect) :
    d.acceptPass c r = d.returnDue c r l := by
  unfold Dev.acceptPass
  extract_lets p bank ended accepted suspects
  have on : suspects = true := decide_eq_true (Dev.passAccepted_state.trans suspect)
  rw [show accepted.serves p = some l from Dev.passAccepted_serves serves]
  exact if_pos on

/-- On a tile in use, or where CAL_CTRL does not allow more, it waits for a tick. -/
theorem Dev.acceptPass_waits (healthy : (d.phys c.phys).state ≠ .suspect)
    (held : d.tileIdle l = false ∨ d.bitAt Off.calCtrl 2 = false) : d.acceptPass c r = d.passAccepted c r := by
  unfold Dev.acceptPass
  extract_lets p bank ended accepted suspects
  have off : ¬ suspects = true := fun on => healthy (Dev.passAccepted_state.symm.trans (of_decide_eq_true on))
  rw [show accepted.serves p = some l from Dev.passAccepted_serves serves]
  refine (if_neg off).trans (if_neg ?_)
  rw [show accepted.tileIdle l = _ from Dev.passAccepted_tileIdle l,
    show accepted.bitAt Off.calCtrl 2 = _ from Dev.bitAt_congr Dev.passAccepted_regs _ _]
  rcases held with no | no <;> simp [no]

/-- On an idle tile, where CAL_CTRL allows that, it takes effect at once. -/
theorem Dev.acceptPass_applies (healthy : (d.phys c.phys).state ≠ .suspect) (idle : d.tileIdle l = true)
    (allowed : d.bitAt Off.calCtrl 2 = true) :
    d.acceptPass c r = (d.passAccepted c r).advanceEpoch.applyBank c.phys := by
  unfold Dev.acceptPass
  extract_lets p bank ended accepted suspects
  have off : ¬ suspects = true := fun on => healthy (Dev.passAccepted_state.symm.trans (of_decide_eq_true on))
  rw [show accepted.serves p = some l from Dev.passAccepted_serves serves]
  refine (if_neg off).trans (if_pos ?_)
  rw [show accepted.tileIdle l = _ from Dev.passAccepted_tileIdle l,
    show accepted.bitAt Off.calCtrl 2 = _ from Dev.bitAt_congr Dev.passAccepted_regs _ _, idle, allowed]
  rfl

end

/-! ## A bank takes effect (R161, R163, R174) -/

/-- The tile with its candidate bank active. -/
def PhysTile.banked (t : PhysTile) (now : Nat) : PhysTile :=
  { t with active := t.candidate, nearCopy := t.candidate, nearCopyOk := true, candidate := {}, waiting := false
           warmTrack := false, temperature := t.waitTemp, gainMax := t.waitGain, grade := t.waitGrade
           count := min (t.count + 1) 0xFFFFFFFF, last := now }

/-- The bank is active, and counted. -/
def Dev.banked (d : Dev) (p : Nat) : Dev :=
  (((d.zeroPa (trimArea p) trimBytes).setPhys p ((d.phys p).banked d.now)).bump Off.calCount).setReg64 Off.calLastLo d.now

section
variable {d : Dev} {p l : Nat}

theorem Dev.banked_phys_same : (d.banked p).phys p = (d.phys p).banked d.now :=
  Dev.phys_setPhys_same (d.zeroPa (trimArea p) trimBytes) p _

theorem Dev.banked_phys_other {q : Nat} (h : q ≠ p) : (d.banked p).phys q = d.phys q :=
  Dev.phys_setPhys_other (d.zeroPa (trimArea p) trimBytes) _ h

theorem Dev.banked_log (k : Nat) : (d.banked p).log k = d.log k := rfl
theorem Dev.banked_cal : (d.banked p).cal = d.cal := rfl

theorem Dev.reg_banked_epoch : (d.banked p).reg Off.calEpoch = d.reg Off.calEpoch := by
  rw [Dev.banked, Dev.reg_setReg64_other _ _ (by decide) (by decide), Dev.reg_bump_other _ _ (by decide)]
  rfl

/-- The bank of a tile that serves: the logical tile takes the device epoch, and an UNCALIBRATED tile is READY. -/
theorem Dev.applyBank_serving (h : d.serves p = some l) : d.applyBank p =
    if (d.phys p).state = .uncalibrated then ((d.banked p).markEpoch l).setPhysState p .ready else (d.banked p).markEpoch l := by
  obtain ⟨logical, t, record, own⟩ := Dev.serves_iff.mp h
  unfold Dev.applyBank
  extract_lets tile taken counted
  rw [show tile.logical = some l from logical]
  dsimp only
  rw [show counted.log l = some t from record]
  exact if_pos own

/-- What a bank that takes effect at once leaves: of its tile, which is READY, of the others, of the passes and of the epoch. -/
structure Dev.Applies (d d' : Dev) (p l : Nat) : Prop where
  tile : d'.phys p = { (d.phys p).banked d.now with state := .ready }
  others : ∀ q, q ≠ p → d'.phys q = d.phys q
  cal : d'.cal = d.cal
  epoch : d'.reg Off.calEpoch = nextEpoch (d.reg Off.calEpoch) % 2 ^ 32
  marked : ∃ y, d'.log l = some y ∧ y.epoch = d'.reg Off.calEpoch

theorem PhysTile.banked_of_ready {t : PhysTile} (now : Nat) (h : t.state = .ready) :
    t.banked now = { t.banked now with state := .ready } := by
  cases t
  cases h
  rfl

theorem Dev.advanceEpoch_phys (d : Dev) (p : Nat) : d.advanceEpoch.phys p = d.phys p := rfl
theorem Dev.advanceEpoch_log (d : Dev) (l : Nat) : d.advanceEpoch.log l = d.log l := rfl
theorem Dev.advanceEpoch_now (d : Dev) : d.advanceEpoch.now = d.now := rfl
theorem Dev.advanceEpoch_cal (d : Dev) : d.advanceEpoch.cal = d.cal := rfl

theorem Dev.reg_advanceEpoch (d : Dev) : d.advanceEpoch.reg Off.calEpoch = nextEpoch (d.reg Off.calEpoch) % 2 ^ 32 :=
  d.reg_setReg_same _ _

/-- The bank with its epoch, on the device whose epoch has advanced. -/
def Dev.bankMarked (d : Dev) (p l : Nat) : Dev := (d.advanceEpoch.banked p).markEpoch l

theorem Dev.bankMarked_phys (q : Nat) : (d.bankMarked p l).phys q = (d.advanceEpoch.banked p).phys q := Dev.phys_modLog _ _ _ _

theorem Dev.bankMarked_cal : (d.bankMarked p l).cal = d.cal := by
  rw [Dev.bankMarked, Dev.markEpoch, Dev.modLog_cal, Dev.banked_cal, Dev.advanceEpoch_cal]

theorem Dev.reg_bankMarked : (d.bankMarked p l).reg Off.calEpoch = nextEpoch (d.reg Off.calEpoch) % 2 ^ 32 := by
  rw [Dev.bankMarked, Dev.markEpoch, Dev.reg_congr (Dev.modLog_regs _ _ _), Dev.reg_banked_epoch, Dev.reg_advanceEpoch]

theorem Dev.bankMarked_log {t : LogTile} (record : d.log l = some t) :
    (d.bankMarked p l).log l = some { t with epoch := (d.bankMarked p l).reg Off.calEpoch } := by
  rw [Dev.reg_bankMarked, Dev.bankMarked, Dev.markEpoch, Dev.log_modLog_same, Dev.banked_log, Dev.advanceEpoch_log, record,
    Dev.reg_banked_epoch, Dev.reg_advanceEpoch]
  rfl

/-- The bank of a tile that serves and is READY or UNCALIBRATED takes effect. -/
theorem Dev.applies_applyBank (h : d.serves p = some l)
    (state : (d.phys p).state = .ready ∨ (d.phys p).state = .uncalibrated) : d.Applies (d.advanceEpoch.applyBank p) p l := by
  obtain ⟨-, t, record, -⟩ := Dev.serves_iff.mp h
  have tile : (d.bankMarked p l).phys p = (d.phys p).banked d.now := by
    rw [Dev.bankMarked_phys, Dev.banked_phys_same, Dev.advanceEpoch_phys, Dev.advanceEpoch_now]
  have others (q : Nat) (other : q ≠ p) : (d.bankMarked p l).phys q = d.phys q := by
    rw [Dev.bankMarked_phys, Dev.banked_phys_other other, Dev.advanceEpoch_phys]
  rw [Dev.applyBank_serving (Dev.serves_congr (d.advanceEpoch_phys p ▸ rfl) d.advanceEpoch_log h), Dev.advanceEpoch_phys]
  change d.Applies (if _ then (d.bankMarked p l).setPhysState p .ready else d.bankMarked p l) p l
  rcases state with ready | uncalibrated
  · rw [if_neg (by rw [ready]; decide)]
    exact ⟨tile.trans (PhysTile.banked_of_ready _ ready), others, Dev.bankMarked_cal, Dev.reg_bankMarked,
      _, Dev.bankMarked_log record, rfl⟩
  · rw [if_pos uncalibrated]
    have epoch : ((d.bankMarked p l).setPhysState p .ready).reg Off.calEpoch = (d.bankMarked p l).reg Off.calEpoch :=
      Dev.reg_congr (Dev.setPhysState_regs _ _ _) _
    refine ⟨by rw [Dev.phys_setPhysState_same, tile], fun q other => ?_, ?_, epoch.trans Dev.reg_bankMarked,
      { t with epoch := (d.bankMarked p l).reg Off.calEpoch }, ?_, epoch.symm⟩
    · rw [Dev.phys_setPhysState_other _ _ other, others q other]
    · rw [Dev.setPhysState_cal, Dev.bankMarked_cal]
    · rw [Dev.log_setPhysState, Dev.bankMarked_log record]

end

/-! ## PASS_MEASUREMENT_END -/

section
variable {d : Dev} {p : Nat} {r : PassReading}

theorem Dev.passMeasurementEnd_none (h : ∀ c ∈ d.cal.passes, c.phys ≠ p) : d.passMeasurementEnd p r = d := by
  have none : (d.cal.passes.find? fun c => decide (c.phys = p)) = none :=
    List.find?_eq_none.mpr fun c there same => h c there (of_decide_eq_true same)
  unfold Dev.passMeasurementEnd
  rw [none]

variable {c : CalPass} (find : (d.cal.passes.find? fun c => decide (c.phys = p)) = some c)
include find

theorem phys_of_find : c.phys = p := of_decide_eq_true (List.find?_some find :)

theorem Dev.passMeasurementEnd_fails (off : agrees r = false) : d.passMeasurementEnd p r = d.attemptFailed c := by
  unfold Dev.passMeasurementEnd
  rw [find]
  exact if_pos (by rw [off]; rfl)

theorem Dev.passMeasurementEnd_agrees (on : agrees r = true) : d.passMeasurementEnd p r =
    let gain := maxGain (candidateOf c.kind (d.phys p).active r.trims)
    if (d.phys p).state = .ready ∧ 4096 * d.fld Off.calTrigger 7 0 < 100 * gain then d.refreshDue p
    else if (d.phys p).state ≠ .ready ∧ 1024 < gain then d.refreshed p
    else d.acceptPass c r := by
  unfold Dev.passMeasurementEnd
  rw [find]
  exact if_neg (by rw [on]; decide)

end

/-! ### The outcomes on the whole state -/

section
variable {s : State} {p : Nat} {r : PassReading} {c : CalPass}
    (find : (s.dev.cal.passes.find? fun c => decide (c.phys = p)) = some c)
include find

theorem exec_passMeasurementEnd_fails (off : agrees r = false) :
    exec (.passMeasurementEnd p r) s = .next { s with dev := s.dev.attemptFailed c } := by
  rw [exec_passMeasurementEnd, execPassMeasurementEnd, lift_eq, Dev.passMeasurementEnd_fails find off]

variable (on : agrees r = true)
include on

theorem exec_passMeasurementEnd_refreshDue (ready : (s.dev.phys p).state = .ready)
    (beyond : 4096 * s.dev.fld Off.calTrigger 7 0 < 100 * maxGain (candidateOf c.kind (s.dev.phys p).active r.trims)) :
    exec (.passMeasurementEnd p r) s = .next { s with dev := s.dev.refreshDue p } := by
  rw [exec_passMeasurementEnd, execPassMeasurementEnd, lift_eq, Dev.passMeasurementEnd_agrees find on]
  dsimp only
  rw [if_pos ⟨ready, beyond⟩]

theorem exec_passMeasurementEnd_refreshed (other : (s.dev.phys p).state ≠ .ready)
    (beyond : 1024 < maxGain (candidateOf c.kind (s.dev.phys p).active r.trims)) :
    exec (.passMeasurementEnd p r) s = .next { s with dev := s.dev.refreshed p } := by
  rw [exec_passMeasurementEnd, execPassMeasurementEnd, lift_eq, Dev.passMeasurementEnd_agrees find on]
  dsimp only
  rw [if_neg fun both => other both.1, if_pos ⟨other, beyond⟩]

/-- Within the limit of its state, the pass is accepted. -/
theorem exec_passMeasurementEnd_accepts
    (ready : (s.dev.phys p).state = .ready →
      100 * maxGain (candidateOf c.kind (s.dev.phys p).active r.trims) ≤ 4096 * s.dev.fld Off.calTrigger 7 0)
    (other : (s.dev.phys p).state ≠ .ready → maxGain (candidateOf c.kind (s.dev.phys p).active r.trims) ≤ 1024) :
    exec (.passMeasurementEnd p r) s = .next { s with dev := s.dev.acceptPass c r } := by
  rw [exec_passMeasurementEnd, execPassMeasurementEnd, lift_eq, Dev.passMeasurementEnd_agrees find on]
  dsimp only
  rw [if_neg fun both => Nat.not_lt_of_le (ready both.1) both.2, if_neg fun both => Nat.not_lt_of_le (other both.1) both.2]

end

end Sys2Proof.Machine

open Sys2Proof Sys2Proof.Machine in
/-- The clause of O31 on PASS_MEASUREMENT_END. -/
theorem passesAreJudged : Clause.PassesAreJudged := by
  refine fun s p r => ⟨fun none => ?_, fun c find => ?_⟩
  · rw [exec_passMeasurementEnd, execPassMeasurementEnd, lift_eq, Dev.passMeasurementEnd_none none]
  obtain rfl := phys_of_find find
  intro x bank limit
  refine ⟨fun off => ?_, fun on ready beyond => ?_, fun on other beyond => ?_, fun on suspect within l y serves record => ?_,
    fun on within l serves => ?_⟩
  · refine ⟨_, exec_passMeasurementEnd_fails find off, Dev.attemptFailed_count, fun few => ?_, fun last => ?_⟩
    · rw [Dev.attemptFailed_retries few]
      exact ⟨by rw [Dev.attemptRetried_phys_same], by rw [Dev.attemptRetried_phys_same],
        fun q => Dev.attemptRetried_phys_other, Dev.attemptRetried_restarts⟩
    · rw [Dev.attemptFailed_fails last]
      have tile := s.dev.attemptCounted_abandon_phys (p := c.phys)
      refine ⟨(Dev.cycleFailed_stands _ _ (Dev.abandonPass_none _ _)).1, fun uncalibrated => ?_, fun suspect => ?_⟩
      · rw [Dev.cycleFailed_uncalibrated (by rw [tile]; exact uncalibrated)]
        obtain ⟨state, passDue⟩ := (s.dev.attemptCounted.abandonPass c.phys).uncalibratedFailed_phys (p := c.phys)
        exact ⟨state, by rw [passDue, tile]⟩
      · rw [Dev.cycleFailed_suspect (by rw [tile]; exact suspect)]
        have retires := (s.dev.attemptCounted.abandonPass c.phys).retires_retireTile c.phys
        exact ⟨retires.state, retires.logical⟩
  · have refreshes := s.dev.refreshes_refreshDue (p := c.phys)
    exact ⟨_, exec_passMeasurementEnd_refreshDue find on ready beyond, refreshes.count, refreshes.active, refreshes.passes,
      fun l serves => Dev.due_refreshDue serves⟩
  · have refreshes := s.dev.refreshes_refreshed (p := c.phys)
    have tile := (s.dev.refreshed_phys (p := c.phys)).trans Dev.beyondTrim_phys
    refine ⟨_, exec_passMeasurementEnd_refreshed find on other beyond, refreshes.count, by rw [tile], ?_, refreshes.active,
      refreshes.passes, fun l => Dev.refreshQueued_refreshed⟩
    rw [tile, s.dev.abandonPass_phys_same c.phys]
  · have run := exec_passMeasurementEnd_accepts find on (fun ready => absurd (suspect.symm.trans ready) nofun) fun _ => within
    rw [Dev.acceptPass_suspect serves suspect] at run
    have tile := s.dev.returnDue_phys (c := c) (r := r) l
    exact ⟨_, _, run, Dev.returnDue_none l, by rw [tile]; exact suspect, by rw [tile]; rfl, by rw [tile]; rfl, by rw [tile]; rfl,
      Dev.returnDue_log record, rfl⟩
  · have healthy : x.state ≠ .suspect := by
      rcases within with ⟨ready, -⟩ | ⟨uncalibrated, -⟩
      · rw [ready]; decide
      · rw [uncalibrated]; decide
    have run := exec_passMeasurementEnd_accepts find on
      (fun ready => within.elim And.right fun h => absurd (h.1.symm.trans ready) nofun)
      fun other => within.elim (fun h => absurd h.1 other) And.right
    refine ⟨_, run, ?_⟩
    by_cases now : s.dev.tileIdle l = true ∧ s.dev.bitAt Off.calCtrl 2 = true
    · rw [Dev.acceptPass_applies serves healthy now.1 now.2]
      obtain ⟨tile, others, cal, epoch, marked⟩ := (s.dev.passAccepted c r).applies_applyBank (Dev.passAccepted_serves serves)
        (by rw [Dev.passAccepted_state]; exact within.imp And.left And.left)
      rw [Dev.passAccepted_phys_same, Dev.passAccepted_now] at tile
      rw [Dev.reg_congr Dev.passAccepted_regs] at epoch
      refine ⟨cal ▸ Dev.passAccepted_none, fun q other => (others q other).trans (Dev.passAccepted_phys_other other),
        fun held => ?_, fun _ _ => ⟨by rw [tile]; rfl, by rw [tile]; rfl, by rw [tile], by rw [tile]; rfl, by rw [tile]; rfl,
          by rw [tile]; rfl, epoch, marked⟩⟩
      rcases held with use | held
      · exact absurd (use.symm.trans now.1) nofun
      · exact absurd (held.symm.trans now.2) nofun
    · have held : s.dev.tileIdle l = false ∨ s.dev.bitAt Off.calCtrl 2 = false := by
        rwa [not_and_or, Bool.not_eq_true, Bool.not_eq_true] at now
      rw [Dev.acceptPass_waits serves healthy held]
      have tile := s.dev.passAccepted_phys_same (c := c) (r := r)
      exact ⟨Dev.passAccepted_none, fun q => Dev.passAccepted_phys_other, fun _ => ⟨by rw [tile]; rfl, by rw [tile]; rfl,
        by rw [tile]; rfl, Dev.reg_congr Dev.passAccepted_regs _⟩, fun idle allowed => absurd ⟨idle, allowed⟩ now⟩

open Sys2Proof Sys2Proof.Machine in
/-- Settles O31: passes start in order and step, and are judged by their readings. -/
theorem calibrationPasses : Obligations.CalibrationPasses := ⟨passesStartAndStep, passesAreJudged⟩

end

section
/-! PROOFS. What a link's failure leaves of the power domains and of the ports there are (R358, R363, R379, R387, R462). -/

namespace Sys2Proof.Machine

/-- Between `d` and `d'` no power domain changed, and no port is gone. -/
structure Dev.PowerStands (d d' : Dev) : Prop where
  pwr : d'.pwr = d.pwr
  ports : d'.lnk.ports.length = d.lnk.ports.length

theorem Dev.PowerStands.refl (d : Dev) : d.PowerStands d := ⟨rfl, rfl⟩

theorem Dev.PowerStands.trans {a b c : Dev} (h : a.PowerStands b) (k : b.PowerStands c) : a.PowerStands c :=
  ⟨k.pwr.trans h.pwr, k.ports.trans h.ports⟩

/-- The same, where the first of the two steps changes neither. -/
theorem Dev.PowerStands.after {a b c : Dev} (k : b.PowerStands c) (pwr : b.pwr = a.pwr)
    (ports : b.lnk.ports.length = a.lnk.ports.length) : a.PowerStands c :=
  ⟨k.pwr.trans pwr, k.ports.trans ports⟩

theorem Dev.PowerStands.foldl {α : Type} {f : Dev → α → Dev} (hf : ∀ (d : Dev) (a : α), d.PowerStands (f d a)) (l : List α)
    (d : Dev) : d.PowerStands (l.foldl f d) := by
  induction l generalizing d with
  | nil => exact .refl d
  | cons a l ih => exact (hf d a).trans (ih _)

/-- What touches neither power nor links. -/
theorem Dev.PowerStands.of_parts {d d' : Dev} (pwr : d'.pwr = d.pwr) (lnk : d'.lnk = d.lnk) : d.PowerStands d' := ⟨pwr, by rw [lnk]⟩

theorem Dev.Looked.powerStands {d d' : Dev} (h : d.Looked d') : d.PowerStands d' := .of_parts (by rw [h]) (by rw [h])

/-! ## Completions and packets -/

theorem Dev.powerStands_modPort (d : Dev) (p : Nat) (f : Port → Port) : d.PowerStands (d.modPort p f) := ⟨rfl, upd_length _ _ _⟩

theorem Dev.powerStands_modSlot (d : Dev) (i : Nat) (f : GraphSlot → GraphSlot) : d.PowerStands (d.modSlot i f) := ⟨rfl, rfl⟩

theorem Dev.powerStands_writeHost {d d' : Dev} {a : Nat} {l : List Byte} (h : d.writeHost a l = some d') : d.PowerStands d' := by
  rcases d.writeHost_cases a l with e | e <;> rw [e] at h <;> cases h
  exact ⟨rfl, rfl⟩

theorem Dev.powerStands_postHost (d : Dev) (a : Nat) (l : List Byte) : d.PowerStands (d.postHost a l) := by
  unfold Dev.postHost
  split
  · next written => exact Dev.powerStands_writeHost written
  · exact (d.looked_event _ _).powerStands

theorem Dev.powerStands_postRecord (d : Dev) (m : Nat) (l : List Byte) : d.PowerStands (d.postRecord m l) := by
  unfold Dev.postRecord
  dsimp only
  split
  · exact .refl d
  split
  · exact ⟨rfl, rfl⟩
  · exact (d.powerStands_postHost _ _).trans ⟨rfl, rfl⟩

theorem Dev.powerStands_complete (d : Dev) (h : CmdHdr) (status result : Nat) : d.PowerStands (d.complete h status result) := by
  unfold Dev.complete
  dsimp only
  split
  · exact ⟨rfl, rfl⟩
  unfold Dev.respond
  dsimp only
  split
  · exact ⟨rfl, rfl⟩
  · exact (Dev.powerStands_postRecord _ _ _).after rfl rfl

theorem Dev.powerStands_measure (d : Dev) (f : Hub → Hub) : d.PowerStands (d.measure f) := by
  unfold Dev.measure
  split <;> exact ⟨rfl, rfl⟩

theorem Dev.powerStands_pumpPort (d : Dev) (p : Nat) : d.PowerStands (d.pumpPort p) := by
  unfold Dev.pumpPort
  dsimp only
  split
  · exact .refl d
  · exact ((d.powerStands_modPort _ _).trans (Dev.looked_bump64 _ _ _).powerStands).trans (Dev.powerStands_measure _ _)

theorem Dev.powerStands_transmit (d : Dev) (p : Packet) : d.PowerStands (d.transmit p) := by
  unfold Dev.transmit
  split
  · exact .refl d
  · exact (d.powerStands_modPort _ _).trans (Dev.powerStands_pumpPort _ _)

theorem Dev.powerStands_notice (d : Dev) (dst type tag : Nat) (l : List Byte) : d.PowerStands (d.notice dst type tag l) := by
  unfold Dev.notice Dev.sendPacket Dev.sendOrHold
  dsimp only
  split
  · exact ⟨rfl, rfl⟩
  · exact (Dev.powerStands_transmit _ _).after rfl rfl

theorem Dev.powerStands_noticeAll (d : Dev) (type tag : Nat) (l : List Byte) : d.PowerStands (d.noticeAll type tag l) :=
  .foldl (fun d _ => d.powerStands_notice _ _ _ _) _ d

theorem Dev.powerStands_replayMoved (d old : Dev) : d.PowerStands (d.replayMoved old) := by
  unfold Dev.replayMoved Dev.resend
  split
  · exact .refl d
  · exact .trans (Dev.looked_bumpWrap _ _ _).powerStands (.foldl (fun d _ => d.powerStands_transmit _) _ _)

theorem Dev.powerStands_rebuildSync (d : Dev) : d.PowerStands d.rebuildSync := by
  unfold Dev.rebuildSync
  extract_lets me root
  split
  · exact ⟨rfl, rfl⟩
  split
  · exact ⟨rfl, rfl⟩
  · dsimp only
    split
    · exact ((Dev.looked_setBit _ _ _).trans (Dev.looked_event _ _ _)).powerStands.after rfl rfl
    · exact ⟨rfl, rfl⟩

/-! ## Requests -/

/-- The writes of a ring's records, one after another, where none ends in error. -/
theorem ringRecords_powerStands {r : Request} {recs : List (List Byte)} {x : Option Dev × Nat} {d' : Dev}
    (h : (recs.foldl (fun (x : Option Dev × Nat) rec =>
      (x.1.bind fun d => d.writeHost (r.ring + 64 + 32 * (x.2 % r.ringEntries)) rec, x.2 + 1)) x).1 = some d') :
    ∃ d, x.1 = some d ∧ d.PowerStands d' := by
  induction recs generalizing x with
  | nil => exact ⟨d', h, .refl d'⟩
  | cons rec recs ih =>
    obtain ⟨e, written, rest⟩ := ih h
    obtain ⟨d, start, written⟩ := Option.bind_eq_some_iff.mp written
    exact ⟨d, start, (Dev.powerStands_writeHost written).trans rest⟩

theorem Dev.powerStands_ringWrite (d : Dev) (id : Nat) (recs : List (List Byte)) : d.PowerStands (d.ringWrite id recs) := by
  unfold Dev.ringWrite
  split
  · exact .refl d
  split
  · exact .refl d
  dsimp only
  split
  · exact (d.looked_event _ _).powerStands.trans ⟨rfl, rfl⟩
  · next written =>
    obtain ⟨e, records, tail⟩ := Option.bind_eq_some_iff.mp written
    obtain ⟨_, start, records⟩ := ringRecords_powerStands records
    cases start
    have kept := records.trans (Dev.powerStands_writeHost tail)
    split <;> exact kept.trans ⟨rfl, rfl⟩

theorem Dev.powerStands_endRequest (d : Dev) (id reason status : Nat) : d.PowerStands (d.endRequest id reason status) := by
  unfold Dev.endRequest
  split
  · exact .refl d
  split
  · exact .refl d
  · exact (Dev.powerStands_ringWrite _ _ _).after rfl rfl

theorem Dev.powerStands_storeCounts (d : Dev) (id : Nat) (toks : List Nat) : d.PowerStands (d.storeCounts id toks) := by
  unfold Dev.storeCounts
  split
  · exact .refl d
  split
  · exact .refl d
  · refine .foldl (fun _ _ => ?_) _ d
    exact ⟨rfl, rfl⟩

theorem Dev.powerStands_dropArrivals (d : Dev) (id q : Nat) : d.PowerStands (d.dropArrivals id q) := ⟨rfl, rfl⟩

theorem Dev.powerStands_rollTo (d : Dev) (id q k : Nat) : d.PowerStands (d.rollTo id q k) := by
  unfold Dev.rollTo
  refine .trans ?_ (Dev.powerStands_dropArrivals _ _ _)
  exact (Dev.powerStands_storeCounts _ _ _).after rfl rfl

theorem Dev.powerStands_rollbackRequest (d : Dev) (id q k : Nat) : d.PowerStands (d.rollbackRequest id q k) := by
  unfold Dev.rollbackRequest
  split
  · exact .refl d
  split
  · exact .refl d
  · refine .trans ?_ (Dev.powerStands_noticeAll _ _ _ _)
    exact d.powerStands_rollTo id q k

theorem Dev.powerStands_runFailed (d : Dev) (tmpl slot status : Nat) : d.PowerStands (d.runFailed tmpl slot status) := by
  unfold Dev.runFailed
  split
  · exact .refl d
  · extract_lets draft rows counted srv cleared
    refine .trans (⟨rfl, rfl⟩ : d.PowerStands cleared) (.foldl (fun d id => ?_) _ _)
    split
    · exact .refl d
    dsimp only
    split
    · exact d.powerStands_endRequest _ _ _
    · exact (d.powerStands_rollbackRequest _ _ _).trans ⟨rfl, rfl⟩

/-! ## Changes of tiles -/

theorem Dev.powerStands_setPhysState (d : Dev) (p : Nat) (st : TileState) : d.PowerStands (d.setPhysState p st) := by
  unfold Dev.setPhysState
  dsimp only
  split <;> exact ⟨rfl, rfl⟩

theorem Dev.powerStands_modLog (d : Dev) (l : Nat) (f : LogTile → LogTile) : d.PowerStands (d.modLog l f) := by
  unfold Dev.modLog
  split <;> exact ⟨rfl, rfl⟩

theorem Dev.powerStands_markEpoch (d : Dev) (l : Nat) : d.PowerStands (d.markEpoch l) := d.powerStands_modLog _ _

theorem Dev.powerStands_abandonPass (d : Dev) (p : Nat) : d.PowerStands (d.abandonPass p) := by
  rw [d.abandonPass_frame p]
  exact ⟨rfl, rfl⟩

theorem Dev.powerStands_modPhys (d : Dev) (p : Nat) (f : PhysTile → PhysTile) : d.PowerStands (d.modPhys p f) := ⟨rfl, rfl⟩

theorem Dev.powerStands_makePending (d : Dev) (p k : Nat) : d.PowerStands (d.makePending p k) := ⟨rfl, rfl⟩

theorem Dev.powerStands_freePhys (d : Dev) (p : Nat) : d.PowerStands (d.freePhys p) :=
  (((d.powerStands_abandonPass p).trans (Dev.powerStands_modPhys _ _ _)).trans (Dev.powerStands_setPhysState _ _ _)).trans
    (Dev.powerStands_modPhys _ _ _)

/-- A tile becomes SUSPECT, and its pass is due. -/
theorem Dev.powerStands_suspect (d : Dev) (l p : Nat) :
    d.PowerStands ((((d.setPhysState p .suspect).modPhys p fun x => { x with attempts := 0 }).makePending p 2).markEpoch l) :=
  (((d.powerStands_setPhysState p .suspect).trans (Dev.powerStands_modPhys _ _ _)).trans
    (Dev.powerStands_makePending _ _ _)).trans (Dev.powerStands_markEpoch _ _)

theorem Dev.powerStands_applyBank (d : Dev) (p : Nat) : d.PowerStands (d.applyBank p) := by
  unfold Dev.applyBank
  extract_lets tile taken counted
  have base : d.PowerStands counted := ⟨rfl, rfl⟩
  clear_value counted
  split
  · exact base
  split
  · exact base
  split
  · next l _ _ _ _ _ =>
    have marked := base.trans (counted.powerStands_markEpoch l)
    dsimp only
    split
    · exact marked.trans (Dev.powerStands_setPhysState _ _ _)
    · exact marked
  split
  · exact base.trans ((Dev.powerStands_setPhysState _ _ _).trans (Dev.powerStands_modLog _ _ _))
  · exact base

theorem Dev.powerStands_applyChange (d : Dev) (l : Nat) (c : TileChange) : d.PowerStands (d.applyChange l c) := by
  unfold Dev.applyChange
  split
  · exact .refl d
  next t _ =>
  dsimp only
  cases c with
  | toSuspect =>
    dsimp only
    split
    · split
      · exact d.powerStands_suspect _ _
      · exact .refl d
    · exact .refl d
  | calSuspect =>
    dsimp only
    split
    · split
      · exact (d.powerStands_suspect _ _).trans
          (((Dev.looked_bump _ _ _).trans (Dev.looked_setBit _ _ _)).trans (Dev.looked_event _ _ _)).powerStands
      · exact .refl d
    · exact .refl d
  | refresh =>
    dsimp only
    split
    · next p _ =>
      have turned : d.PowerStands (if (d.phys p).state = .ready then
          (((d.setPhysState p .suspect).modPhys p fun x => { x with attempts := 0 }).makePending p 2).markEpoch l else d) := by
        split
        · exact d.powerStands_suspect _ _
        · exact .refl d
      generalize (if (d.phys p).state = .ready then _ else d) = d' at turned ⊢
      split
      · exact turned.trans ⟨rfl, rfl⟩
      · exact turned
    · exact .refl d
  | toReady =>
    dsimp only
    split
    · split
      · exact ((d.powerStands_setPhysState _ _).trans (Dev.powerStands_applyBank _ _)).trans (Dev.powerStands_markEpoch _ _)
      · exact .refl d
    · exact .refl d
  | toDigital =>
    refine .trans (.trans ?_ (Dev.powerStands_modLog _ _ _)) (Dev.powerStands_markEpoch _ _)
    split
    · split
      · exact .refl d
      · exact d.powerStands_freePhys _
    · exact .refl d
  | remap =>
    dsimp only
    split
    · exact ((Dev.powerStands_modLog _ _ _).trans (Dev.powerStands_markEpoch _ _)).after rfl rfl
    · exact .refl d
  | damaged => exact d.powerStands_modLog _ _

theorem Dev.powerStands_applyHeld (d : Dev) (ls : List Nat) : d.PowerStands (d.applyHeld ls) := by
  unfold Dev.applyHeld
  extract_lets due advanced
  split
  · exact .refl d
  · refine .trans (b := advanced) ?_
      (.foldl (fun d x => (d.powerStands_applyChange _ _).trans (Dev.powerStands_modLog _ _ _)) _ _)
    show d.PowerStands (if _ then _ else _)
    split <;> exact ⟨rfl, rfl⟩

/-! ## Graphs that fail -/

theorem Dev.powerStands_abortColls (d : Dev) (slot status : Nat) : d.PowerStands (d.abortColls slot status) :=
  .foldl (fun d _ => .trans (b := d.countAbort) ⟨rfl, rfl⟩ (.foldl (fun d _ => d.powerStands_notice _ _ _ _) _ _)) _ d

theorem Dev.powerStands_discardTasks (d : Dev) (slot : Nat) : d.PowerStands (d.discardTasks slot) := by
  unfold Dev.discardTasks
  dsimp only
  have released := Dev.PowerStands.foldl (fun (d : Dev) (t : DmaTask) => (⟨rfl, rfl⟩ : d.PowerStands (d.releaseUnit t.engine)))
    (d.dma.tasks.filter fun t => decide (t.slot = slot) && !t.saved) d
  exact released.trans ⟨rfl, rfl⟩

theorem Dev.powerStands_closeFaults (d : Dev) (slot status : Nat) : d.PowerStands (d.closeFaults slot status) := by
  refine .foldl (fun d f => ?_) _ d
  unfold Dev.resolveFault
  split
  · exact .refl d
  · split <;> exact ⟨rfl, rfl⟩

theorem Dev.powerStands_runStopped (d : Dev) (slot status arg2 : Nat) : d.PowerStands (d.runStopped slot status arg2) := by
  have ended := ((d.powerStands_abortColls slot status).trans (Dev.powerStands_discardTasks _ slot)).trans
    ((Dev.powerStands_applyHeld _ (d.tilesNamed slot)).trans (Dev.powerStands_closeFaults _ slot status))
  have recorded (e : EventRec) := ended.trans (Dev.looked_event _ 0x0A80 e).powerStands
  unfold Dev.runStopped
  dsimp only
  split
  · exact (recorded _).trans (Dev.powerStands_runFailed _ _ _ _)
  · exact recorded _

theorem Dev.powerStands_finishRun (d : Dev) (slot status : Nat) : d.PowerStands (d.finishRun slot status) := by
  unfold Dev.finishRun
  dsimp only
  refine .trans ?_ (Dev.powerStands_modSlot _ _ _)
  have run : d.PowerStands (match (d.slot slot).cmd with
      | some h => d.complete h status (d.slot slot).result
      | none => d) := by
    split
    · exact d.powerStands_complete _ _ _
    · exact .refl d
  split
  · exact run.trans (Dev.powerStands_complete _ _ _ _)
  · exact run

theorem Dev.powerStands_failGraph (d : Dev) (slot status arg2 : Nat) : d.PowerStands (d.failGraph slot status arg2) := by
  by_cases running : (d.slot slot).state = .running
  · rw [Dev.failGraph_running running]
    have stopped := d.powerStands_runStopped slot status arg2
    dsimp only
    split
    · exact stopped.trans (Dev.powerStands_modSlot _ _ _)
    · exact stopped.trans (Dev.powerStands_finishRun _ _ _)
  · have idle : d.failGraph slot status arg2 = d := if_pos running
    rw [idle]
    exact .refl d

theorem Dev.powerStands_abortUnroutable (d : Dev) : d.PowerStands d.abortUnroutable :=
  .foldl (fun d _ => d.powerStands_failGraph _ _ _) _ d

/-- A link that fails for good, with neither half of its lanes left, changes no power domain, and no port is gone. -/
theorem Dev.powerStands_linkFailure (d : Dev) (p : Nat) : d.PowerStands (d.linkFailure p 0) := by
  unfold Dev.linkFailure
  extract_lets st old counted stopped
  split
  · exact .refl d
  have first : d.PowerStands counted := ((Dev.looked_setBit _ _ _).trans (Dev.looked_event _ _ _)).powerStands.after rfl rfl
  rw [if_neg fun half => half.2.1 rfl]
  have down : d.PowerStands stopped := first.trans (counted.powerStands_modPort _ _)
  split
  · exact (((down.trans (Dev.powerStands_noticeAll _ _ _ _)).trans (Dev.powerStands_replayMoved _ _)).trans
      (Dev.powerStands_rebuildSync _)).trans (Dev.powerStands_abortUnroutable _)
  · exact down

end Sys2Proof.Machine
end

section
/-! PROOFS. Power domains: which requests are refused, and what a domain's switching off and on does (R166, R358, R462, R463). -/

namespace Sys2Proof.Machine

/-! ## PWR_OFF_LO and PWR_OFF_HI (R463) -/

/-- The request for domains off with one of its two words written anew. -/
def Dev.offWritten (d : Dev) (hi : Bool) (v : Nat) : Nat :=
  if hi then withBits d.pwr.off 49 32 (v % 2 ^ 18) else withBits d.pwr.off 31 0 v

theorem Dev.refusesOff_iff (d : Dev) (off : Nat) : d.refusesOff off = true ↔
    bits off 37 32 = 63 ∨ bits off 41 38 = 15 ∨ bit off 42 = true ∧ d.halfAllocated 0 = true ∨
      bit off 43 = true ∧ d.halfAllocated 1 = true := by
  simp [Dev.refusesOff, or_assoc]

section
variable {d : Dev} {hi : Bool} {v : Nat}

theorem Dev.pwrOffWrite_refused (h : d.refusesOff (d.offWritten hi v) = true) : d.pwrOffWrite hi v = d.setBit Off.pwrStatus 4 :=
  if_pos h

theorem Dev.pwrOffWrite_taken (h : ¬ d.refusesOff (d.offWritten hi v) = true) : d.pwrOffWrite hi v =
    (({ d with pwr := { d.pwr with off := d.offWritten hi v } } : Dev).setReg Off.pwrOffLo (d.offWritten hi v % 2 ^ 32)).setReg
      Off.pwrOffHi (d.offWritten hi v / 2 ^ 32) :=
  if_neg h

end

/-! ## Domains that switch off (R358, R462, R463) -/

/-- The domain is marked off or on. -/
def Dev.domainMarked (d : Dev) (n v : Nat) : Dev := { d with pwr := { d.pwr with stateOff := withBits d.pwr.stateOff n n v } }

/-- A device with the domain marked, and every other domain as it is. -/
structure Dev.Marked (d d' : Dev) (n : Nat) (off : Bool) : Prop where
  same : bit d'.pwr.stateOff n = off
  others : ∀ k < 50, k ≠ n → bit d'.pwr.stateOff k = bit d.pwr.stateOff k

theorem Dev.marked_of_pwr (d : Dev) {d' : Dev} {n v : Nat} (h : d'.pwr = (d.domainMarked n v).pwr) :
    d.Marked d' n (decide (v % 2 = 1)) where
  same := by rw [h]; exact bit_withBits_same _ n v
  others k _ other := by rw [h]; exact bit_withBits_other _ v other

/-- The passes of a list of tiles end: power and memory stand, and none of their passes is left. -/
theorem Dev.foldl_abandonPass (ps : List Nat) (d : Dev) :
    (ps.foldl Dev.abandonPass d).pwr = d.pwr ∧ (ps.foldl Dev.abandonPass d).mem = d.mem ∧
    ∀ c ∈ (ps.foldl Dev.abandonPass d).cal.passes, c ∈ d.cal.passes ∧ c.phys ∉ ps := by
  induction ps generalizing d with
  | nil => exact ⟨rfl, rfl, fun c there => ⟨there, List.not_mem_nil⟩⟩
  | cons p ps ih =>
    obtain ⟨pwr, mem, left⟩ := ih (d.abandonPass p)
    refine ⟨pwr.trans (by rw [d.abandonPass_frame p]), mem.trans (by rw [d.abandonPass_frame p]), fun c there => ?_⟩
    obtain ⟨before, rest⟩ := left c there
    rw [Dev.abandonPass_passes, List.mem_filter, decide_eq_true_eq] at before
    exact ⟨before.1, List.not_mem_cons_of_ne_of_not_mem before.2 rest⟩

theorem Dev.port_modPort_same (d : Dev) {p : Nat} (f : Port → Port) (h : p < d.lnk.ports.length) :
    (d.modPort p f).port p = f (d.port p) := by
  simp only [Dev.port, Dev.modPort, List.getD_eq_getElem?_getD, upd_get_same, List.getElem?_eq_getElem h, Option.map_some,
    Option.getD_some]

/-- The link of a port that goes off fails first, where it is up (R358, R462). -/
def Dev.portLeft (d : Dev) (p : Nat) : Dev := if (d.port p).state = .up then d.linkFailure p 0 else d

theorem Dev.powerStands_portLeft (d : Dev) (p : Nat) : d.PowerStands (d.portLeft p) := by
  unfold Dev.portLeft
  split
  · exact d.powerStands_linkFailure p
  · exact .refl d

section
variable {d : Dev} {n : Nat}

theorem Dev.domainSwitchOff_waits (h : 50 ≤ n ∨ bit d.pwr.off n = false ∨ bit d.pwr.stateOff n = true ∨ d.domainQuiet n = false) :
    d.domainSwitchOff n = d :=
  if_pos (by simpa using h)

theorem Dev.domainOn_waits (h : 50 ≤ n ∨ bit d.pwr.off n = true ∨ bit d.pwr.stateOff n = false) : d.domainOn n = d :=
  if_pos (by simpa using h)

section
variable (range : n < 50) (asked : bit d.pwr.off n = true) (on : bit d.pwr.stateOff n = false) (quiet : d.domainQuiet n = true)
include range asked on quiet

theorem Dev.domainSwitchOff_due : d.domainSwitchOff n =
    if n < 32 then (d.bankTiles n).foldl Dev.abandonPass (d.domainMarked n 1)
    else if 44 ≤ n then ((d.domainMarked n 1).portLeft (n - 44)).modPort (n - 44) fun t => { t with state := .off, lanes := 0 }
    else d.domainMarked n 1 :=
  if_neg (by simp [range, asked, on, quiet])

end
end

/-- What a domain's switching off does: the domain is marked, memory stands beside links (log entry 103), no pass of a bank's
tiles is left, and a port is off. -/
structure Dev.SwitchesOff (d d' : Dev) (n : Nat) : Prop where
  marked : d.Marked d' n true
  mem : n < 44 → d'.mem = d.mem
  passes : n < 32 → ∀ c ∈ d'.cal.passes, bankDomain c.phys ≠ n ∨ c.phys ∉ d.pln.phys.map (·.1)
  port : 44 ≤ n → n - 44 < d.lnk.ports.length → (d'.port (n - 44)).state = .off

theorem Dev.switchesOff {d : Dev} {n : Nat} (range : n < 50) (asked : bit d.pwr.off n = true) (on : bit d.pwr.stateOff n = false)
    (quiet : d.domainQuiet n = true) : d.SwitchesOff (d.domainSwitchOff n) n := by
  rcases Nat.lt_or_ge n 32 with bank | past
  · obtain ⟨pwr, mem, left⟩ := Dev.foldl_abandonPass (d.bankTiles n) (d.domainMarked n 1)
    rw [Dev.domainSwitchOff_due range asked on quiet, if_pos bank]
    refine ⟨d.marked_of_pwr (v := 1) pwr, fun _ => mem, fun _ c there => ?_, fun port => by omega⟩
    have away := (left c there).2
    rw [Dev.bankTiles, List.mem_filter, not_and_or, decide_eq_true_eq] at away
    exact away.symm
  · rcases Nat.lt_or_ge n 44 with inner | port
    · rw [Dev.domainSwitchOff_due range asked on quiet, if_neg past.not_gt, if_neg inner.not_ge]
      exact ⟨d.marked_of_pwr (v := 1) rfl, fun _ => rfl, fun bank => by omega, fun port => by omega⟩
    · rw [Dev.domainSwitchOff_due range asked on quiet, if_neg past.not_gt, if_pos port]
      obtain ⟨pwr, ports⟩ := (d.domainMarked n 1).powerStands_portLeft (n - 44)
      refine ⟨d.marked_of_pwr (v := 1) pwr, fun inner => by omega, fun bank => by omega, fun _ there => ?_⟩
      rw [Dev.port_modPort_same _ _ (ports ▸ there)]

/-! ## The read of a tile's trim area (R398-R401) -/

theorem Dev.reg_corrected (d : Dev) (r : Reader) (pa k syn : Nat) {o : Nat} (h : o / 0x10000 ≠ 13) :
    (d.corrected r pa k syn).reg o = d.reg o := by
  have counter : o ≠ ceCounter pa := by
    rintro rfl
    unfold ceCounter at h
    split at h <;> exact h rfl
  have counted : ((d.bumpWrap (ceCounter pa)).detect pa).2.reg o = d.reg o := d.reg_bumpWrap_other _ counter
  unfold Dev.corrected
  dsimp only
  split
  · exact counted
  · exact (Dev.reg_signature _ _ _ _ h).trans counted

theorem Dev.reg_uncorrectable (d : Dev) (r : Reader) (pa syn : Nat) {o : Nat} (h : o / 0x10000 ≠ 13) :
    (d.uncorrectable r pa syn).reg o = d.reg o := by
  have counter : o ≠ Off.evrUeCount := by rintro rfl; exact h rfl
  have counted : ((d.bump Off.evrUeCount).detect pa).2.reg o = d.reg o := d.reg_bump_other _ counter
  unfold Dev.uncorrectable
  dsimp only
  split
  · exact (Dev.reg_event _ _ _ h).trans counted
  · exact (Dev.reg_signature _ _ _ _ h).trans counted

/-- A checked read writes at most the recorder's own registers. -/
theorem Dev.reg_checkPa (d : Dev) (r : Reader) (pa n : Nat) {o : Nat} (h : o / 0x10000 ≠ 13) :
    (d.checkPa r pa n).2.2.reg o = d.reg o := by
  unfold Dev.checkPa
  refine List.foldlRecOn (motive := fun x : Bool × List Host.Cell × Dev => x.2.2.reg o = d.reg o) _ _ rfl fun x stands w _ => ?_
  dsimp only
  split
  · exact stands
  · exact (Dev.reg_corrected _ _ _ _ _ h).trans stands
  · exact (Dev.reg_uncorrectable _ _ _ _ h).trans stands

theorem Dev.checkPa_clean (d : Dev) (r : Reader) {pa n : Nat} (h : d.badWords pa n = []) : d.checkPa r pa n = (true, d.mem, d) := by
  rw [Dev.checkPa, h]
  rfl

/-! ## A bank that is on again (R166, R169) -/

/-- Between `d` and `d'` tiles of the list were reloaded: memory, its upsets, the power domains, CAL_CTRL and any other tile
stand. -/
structure Dev.Reloads (d d' : Dev) (ps : List Nat) : Prop where
  mem : d'.mem = d.mem
  upsets : d'.upsets = d.upsets
  pwr : d'.pwr = d.pwr
  ctrl : d'.reg Off.calCtrl = d.reg Off.calCtrl
  others : ∀ q ∉ ps, d'.phys q = d.phys q

theorem Dev.Reloads.refl (d : Dev) (ps : List Nat) : d.Reloads d ps := ⟨rfl, rfl, rfl, rfl, fun _ _ => rfl⟩

theorem Dev.Reloads.trans {a b c : Dev} {ps : List Nat} (h : a.Reloads b ps) (k : b.Reloads c ps) : a.Reloads c ps where
  mem := k.mem.trans h.mem
  upsets := k.upsets.trans h.upsets
  pwr := k.pwr.trans h.pwr
  ctrl := k.ctrl.trans h.ctrl
  others q away := (k.others q away).trans (h.others q away)

theorem Dev.Reloads.mono {a b : Dev} {ps qs : List Nat} (h : a.Reloads b ps) (sub : ps ⊆ qs) : a.Reloads b qs :=
  ⟨h.mem, h.upsets, h.pwr, h.ctrl, fun q away => h.others q fun there => away (sub there)⟩

section
variable {d d' : Dev} {ps : List Nat} (h : d.Reloads d' ps)
include h

theorem Dev.Reloads.background : d'.background = d.background := by
  rw [Dev.background, Dev.bitAt, h.ctrl, ← Dev.bitAt, ← Dev.background]

theorem Dev.Reloads.badWords (pa n : Nat) : d'.badWords pa n = d.badWords pa n := by
  rw [Dev.badWords, h.upsets, ← Dev.badWords]

end

section
variable (d : Dev) (p : Nat)

theorem Dev.reloads_modPhys (f : PhysTile → PhysTile) : d.Reloads (d.modPhys p f) [p] :=
  ⟨rfl, rfl, rfl, rfl, fun _ away => d.phys_modPhys_other f (List.ne_of_not_mem_cons away)⟩

theorem Dev.reloads_setPhysState (st : TileState) : d.Reloads (d.setPhysState p st) [p] := by
  refine .trans (d.reloads_modPhys p fun t => { t with state := st }) ?_
  unfold Dev.setPhysState
  dsimp only
  split
  · exact ⟨rfl, rfl, rfl, rfl, fun _ _ => rfl⟩
  · exact .refl _ _

theorem Dev.reloads_makePending (kind : Nat) : d.Reloads (d.makePending p kind) [p] := d.reloads_modPhys p _

theorem Dev.reloads_fineTrigger (kind due : Nat) : d.Reloads (d.fineTrigger p kind due) [p] := by
  have others (q : Nat) (away : q ∉ [p]) := d.fineTrigger_phys_other p kind due (List.ne_of_not_mem_cons away)
  have frame := d.fineTrigger_frame p kind due
  exact ⟨by rw [frame], by rw [frame], by rw [frame], by rw [frame]; rfl, others⟩

theorem Dev.reloads_loadCopy : d.Reloads (d.loadCopy p).2 [p] := by
  have looked := d.looked_checkPa {} (trimArea p) trimBytes
  refine ⟨looked.mem, ?_, looked.powerStands.pwr, d.reg_checkPa {} _ _ (by decide), fun q _ => Dev.phys_congr looked.pln q⟩
  exact (congrArg Dev.upsets looked).trans rfl

theorem Dev.reloads_reloadBank : d.Reloads (d.reloadBank p) [p] := by
  have loaded := d.reloads_loadCopy p
  unfold Dev.reloadBank
  dsimp only
  split
  · exact (loaded.trans (Dev.reloads_modPhys _ _ _)).trans (Dev.reloads_fineTrigger _ _ _ _)
  split
  · exact ((loaded.trans (Dev.reloads_setPhysState _ _ _)).trans (Dev.reloads_modPhys _ _ _)).trans (Dev.reloads_makePending _ _ _)
  · exact loaded

end

/-- The tile holds weights, and its bank's copy in the near store stands (R166). -/
structure PhysTile.Copied (x : PhysTile) : Prop where
  held : x.logical ≠ none
  used : x.state ≠ .free
  programmed : x.state ≠ .programming
  copy : x.nearCopyOk = true

/-- The tile with its bank from the near store and, where triggers are active, a TRACK pass pending (R166, R169). -/
def PhysTile.reloaded (x : PhysTile) (background : Bool) : PhysTile := { x with active := x.nearCopy }.triggered background 1

section
variable (x : PhysTile) (background : Bool)

theorem PhysTile.reloaded_rest : x.reloaded background =
    { x with active := x.nearCopy, passDue := (x.reloaded background).passDue } := PhysTile.triggered_rest _ _ _

theorem PhysTile.reloaded_reloaded : (x.reloaded background).reloaded background = x.reloaded background := by
  unfold PhysTile.reloaded PhysTile.triggered
  by_cases h : background = true ∧ x.grade = 2
  · simp only [if_pos h, max_self, Nat.max_assoc]
  · simp only [if_neg h]

theorem PhysTile.reloaded_due (fine : x.grade = 2) (on : background = true) : 1 ≤ (x.reloaded background).passDue := by
  rw [PhysTile.reloaded, PhysTile.triggered_passDue, if_pos ⟨on, fine⟩]
  exact Nat.le_max_right _ _

end

theorem PhysTile.Copied.reloaded {x : PhysTile} (h : x.Copied) (background : Bool) : (x.reloaded background).Copied := by
  rw [PhysTile.reloaded_rest]
  exact ⟨h.held, h.used, h.programmed, h.copy⟩

/-- A tile of a bank that is on again is reloaded, where it holds weights (R166). -/
def Dev.reloadLive (d : Dev) (p : Nat) : Dev :=
  if (d.phys p).logical = none ∨ (d.phys p).state = .free ∨ (d.phys p).state = .programming then d else d.reloadBank p

theorem Dev.reloads_reloadLive (d : Dev) (p : Nat) : d.Reloads (d.reloadLive p) [p] := by
  unfold Dev.reloadLive
  split
  · exact .refl d _
  · exact d.reloads_reloadBank p

/-- A tile whose copy reads clean takes it. -/
theorem Dev.phys_reloadLive {d : Dev} {p : Nat} (copied : (d.phys p).Copied) (clean : d.badWords (trimArea p) trimBytes = []) :
    (d.reloadLive p).phys p = (d.phys p).reloaded d.background := by
  obtain ⟨held, used, programmed, copy⟩ := copied
  have loaded : d.loadCopy p = (true, d) := by rw [Dev.loadCopy, d.checkPa_clean {} clean, copy]; rfl
  have reload : d.reloadLive p = (d.modPhys p fun t => { t with active := t.nearCopy }).fineTrigger p 1 0 := by
    rw [Dev.reloadLive, if_neg (not_or.mpr ⟨held, not_or.mpr ⟨used, programmed⟩⟩), Dev.reloadBank, loaded]
    rfl
  rw [reload, Dev.fineTrigger_phys_same, Dev.phys_modPhys_same]
  rfl

theorem Dev.reloads_foldl (ps : List Nat) (d : Dev) : d.Reloads (ps.foldl Dev.reloadLive d) ps := by
  induction ps generalizing d with
  | nil => exact .refl d _
  | cons p ps ih =>
    exact ((d.reloads_reloadLive p).mono (List.cons_subset_cons p (List.nil_subset ps))).trans
      ((ih _).mono (List.subset_cons_self p ps))

/-- Each tile of the list whose copy reads clean is reloaded, once or again. -/
theorem Dev.phys_foldl_reloadLive (ps : List Nat) (d : Dev) (q : Nat) (copied : (d.phys q).Copied)
    (clean : d.badWords (trimArea q) trimBytes = []) (listed : q ∈ ps) :
    (ps.foldl Dev.reloadLive d).phys q = (d.phys q).reloaded d.background := by
  induction ps generalizing d with
  | nil => exact absurd listed List.not_mem_nil
  | cons p ps ih =>
    have first := d.reloads_reloadLive p
    have clean' := (first.badWords _ _).trans clean
    rw [List.foldl_cons]
    by_cases same : q = p
    · subst same
      have now := Dev.phys_reloadLive copied clean
      by_cases again : q ∈ ps
      · rw [ih _ (now ▸ copied.reloaded _) clean' again, now, first.background, PhysTile.reloaded_reloaded]
      · rw [(Dev.reloads_foldl ps _).others q again, now]
    · have stands := first.others q (by simpa using same)
      rw [ih _ (stands ▸ copied) clean' ((List.mem_cons.mp listed).resolve_left same), stands, first.background]

/-! ## Domains that come back (R166, R358, R462) -/

/-- A port whose domain is on again: it listens while the device is not ready for links, and trains when it is. -/
def Dev.portBack (d : Dev) (p : Nat) : Dev :=
  if !d.portEnabled p then d
  else if d.bring = .fw ∨ d.bring = .hold then d.modPort p fun t => { t with state := .listen }
  else if d.linkOn then
    d.modPort p fun t => { t with state := if d.lnk.outOfPlan then .isolated else .training, plan := 0, lanes := 0 }
  else d

section
variable (d : Dev) {p : Nat}

theorem Dev.portBack_frame (p : Nat) : d.portBack p = { d with lnk := (d.portBack p).lnk } := by
  unfold Dev.portBack
  split
  · rfl
  split
  · rfl
  split <;> rfl

variable {d} (enabled : d.portEnabled p = true) (there : p < d.lnk.ports.length)
include enabled there

theorem Dev.portBack_listens (h : d.bring = .fw ∨ d.bring = .hold) : ((d.portBack p).port p).state = .listen := by
  rw [Dev.portBack, if_neg (by simp [enabled]), if_pos h, Dev.port_modPort_same _ _ there]

theorem Dev.portBack_trains (on : d.linkOn = true) (planned : d.lnk.outOfPlan = false) :
    ((d.portBack p).port p).state = .training := by
  have past : ¬ (d.bring = .fw ∨ d.bring = .hold) := by
    rintro (fw | hold)
    · rw [Dev.linkOn, fw] at on
      exact absurd on (by decide)
    · rw [Dev.linkOn, hold] at on
      exact absurd on (by decide)
  rw [Dev.portBack, if_neg (by simp [enabled]), if_neg past, if_pos on, Dev.port_modPort_same _ _ there, planned]
  rfl

end

section
variable {d : Dev} {n : Nat} (range : n < 50) (asked : bit d.pwr.off n = false) (off : bit d.pwr.stateOff n = true)
include range asked off

theorem Dev.domainOn_due : d.domainOn n =
    if n < 32 then (d.bankTiles n).foldl Dev.reloadLive (d.domainMarked n 0)
    else if 44 ≤ n then (d.domainMarked n 0).portBack (n - 44)
    else d.domainMarked n 0 :=
  if_neg (by simp [range, asked, off])

end

/-- What a domain's coming back does: the domain is marked and memory stands, a bank's tiles are reloaded, and a port listens
or trains. -/
structure Dev.ComesBack (d d' : Dev) (n : Nat) : Prop where
  marked : d.Marked d' n false
  mem : d'.mem = d.mem
  tiles : n < 32 → ∀ p ∈ d.bankTiles n, (d.phys p).Copied → d.badWords (trimArea p) trimBytes = [] →
    d'.phys p = (d.phys p).reloaded d.background
  listens : 44 ≤ n → n - 44 < d.lnk.ports.length → d.portEnabled (n - 44) = true → d.bring = .fw ∨ d.bring = .hold →
    (d'.port (n - 44)).state = .listen
  trains : 44 ≤ n → n - 44 < d.lnk.ports.length → d.portEnabled (n - 44) = true → d.linkOn = true → d.lnk.outOfPlan = false →
    (d'.port (n - 44)).state = .training

theorem Dev.comesBack {d : Dev} {n : Nat} (range : n < 50) (asked : bit d.pwr.off n = false) (off : bit d.pwr.stateOff n = true) :
    d.ComesBack (d.domainOn n) n := by
  rcases Nat.lt_or_ge n 32 with bank | past
  · rw [Dev.domainOn_due range asked off, if_pos bank]
    have back := (d.domainMarked n 0).reloads_foldl (d.bankTiles n)
    exact ⟨d.marked_of_pwr (v := 0) back.pwr, back.mem,
      fun _ p listed copied clean => (d.domainMarked n 0).phys_foldl_reloadLive _ p copied clean listed,
      fun port => by omega, fun port => by omega⟩
  · rcases Nat.lt_or_ge n 44 with inner | port
    · rw [Dev.domainOn_due range asked off, if_neg past.not_gt, if_neg inner.not_ge]
      exact ⟨d.marked_of_pwr (v := 0) rfl, rfl, fun bank => by omega, fun port => by omega, fun port => by omega⟩
    · rw [Dev.domainOn_due range asked off, if_neg past.not_gt, if_pos port]
      have frame := (d.domainMarked n 0).portBack_frame (n - 44)
      have pwr := congrArg Dev.pwr frame
      have mem := congrArg Dev.mem frame
      exact ⟨d.marked_of_pwr (v := 0) pwr, mem, fun bank => by omega,
        fun _ there enabled => Dev.portBack_listens (d := d.domainMarked n 0) enabled there,
        fun _ there enabled => Dev.portBack_trains (d := d.domainMarked n 0) enabled there⟩

end Sys2Proof.Machine

open Sys2Proof Sys2Proof.Machine in
/-- Settles O51: a request for domains off is tested as written; a domain that switches off is marked, its bank's passes end and
its port goes off, and one that comes back reloads its bank's tiles or starts its port. -/
theorem powerDomains : Obligations.PowerDomains := by
  unfold Obligations.PowerDomains
  refine ⟨fun s hi v run => ?_, fun s n =>
    ⟨fun waits => ?_, fun range asked on quiet => ?_, fun waits => ?_, fun range asked off => ?_⟩⟩
  · intro off refused
    refine ⟨_, hostWrite_running (·.pwrOffWrite hi v.toNat) run, fun bad => ?_, fun good => ?_⟩
    · dsimp only
      rw [Dev.pwrOffWrite_refused ((s.dev.refusesOff_iff off).mpr bad)]
      exact ⟨Dev.bitAt_setBit_same _ _ (by decide), rfl, fun o other => Dev.reg_setBit_other _ _ other⟩
    · dsimp only
      rw [Dev.pwrOffWrite_taken (mt (s.dev.refusesOff_iff off).mp good)]
      refine ⟨rfl, ?_, Dev.reg_setReg_same _ _ _, rfl, rfl⟩
      rw [Dev.reg_setReg_other _ _ (by decide), Dev.reg_setReg_same, Nat.mod_mod]
      rfl
  · rw [exec_domainSwitchOff, execDomainSwitchOff, lift_eq, Dev.domainSwitchOff_waits waits]
  · obtain ⟨marked, mem, passes, port⟩ := Dev.switchesOff range asked on quiet
    exact ⟨_, rfl, marked.same, marked.others, mem, passes, port⟩
  · rw [exec_domainOn, execDomainOn, lift_eq, Dev.domainOn_waits waits]
  · obtain ⟨marked, mem, tiles, listens, trains⟩ := Dev.comesBack range asked off
    refine ⟨_, rfl, marked.same, marked.others, mem, fun bank p listed held used programmed copy clean => ?_,
      fun port there enabled => ⟨listens port there enabled, trains port there enabled⟩⟩
    have reloaded := tiles bank p listed ⟨held, used, programmed, copy⟩ clean
    refine ⟨?_, fun fine on => ?_⟩
    · refine (congrArg PhysTile.active reloaded).trans ?_
      rw [PhysTile.reloaded_rest]
    · exact (PhysTile.reloaded_due _ _ fine on).trans_eq (congrArg PhysTile.passDue reloaded).symm

end

section
/-! PROOFS. The tasks of the attention unit: the one that a name stands for, and how one is changed, served and saved (R180, R206,
R289). -/

namespace Sys2Proof.Machine

/-! ## The task that a name stands for -/

/-- The first task of the unit with the graph slot and task index of `x` is `x`. -/
def Dev.Lists (d : Dev) (x : AttTask) : Prop :=
  (d.att.tasks.find? fun t => decide (t.slot = x.slot) && decide (t.task = x.task)) = some x

section
variable {d d' : Dev} {x : AttTask} {slot task : Nat}

/-- A task that comes first under a name has that name. -/
theorem Dev.lists_of_find (h : (d.att.tasks.find? fun t => decide (t.slot = slot) && decide (t.task = task)) = some x) :
    (x.slot = slot ∧ x.task = task) ∧ d.Lists x := by
  have named := List.find?_some h
  simp only [Bool.and_eq_true, decide_eq_true_eq] at named
  obtain ⟨rfl, rfl⟩ := named
  exact ⟨⟨rfl, rfl⟩, h⟩

theorem Dev.Lists.mem (h : d.Lists x) : x ∈ d.att.tasks := List.mem_of_find?_eq_some h

theorem Dev.Lists.congr (h : d.Lists x) (same : d'.att = d.att) : d'.Lists x := by rwa [Dev.Lists, same]

/-- A task that joins those of other names is listed. -/
theorem Dev.lists_joined {l : List AttTask} (h : d.att.tasks = l ++ [x])
    (new : ∀ w ∈ l, ¬ (w.slot = x.slot ∧ w.task = x.task)) : d.Lists x := by
  have none_named : (l.find? fun t => decide (t.slot = x.slot) && decide (t.task = x.task)) = none :=
    List.find?_eq_none.mpr fun w hw => by simpa using new w hw
  simp [Dev.Lists, h, List.find?_append, none_named]

/-- A task changed under its name is listed as it is changed. -/
theorem Dev.Lists.modAtt (h : d.Lists x) {f : AttTask → AttTask}
    (named : ∀ t, t.slot = x.slot → t.task = x.task → (f t).slot = x.slot ∧ (f t).task = x.task) :
    (d.modAtt x.slot x.task f).Lists (f x) := by
  obtain ⟨slot, task⟩ := named x rfl rfl
  have keeps : ((fun t : AttTask => decide (t.slot = x.slot) && decide (t.task = x.task)) ∘
      fun t => if t.slot = x.slot ∧ t.task = x.task then f t else t) =
      fun t => decide (t.slot = x.slot) && decide (t.task = x.task) := by
    funext t
    by_cases this : t.slot = x.slot ∧ t.task = x.task
    · simp [this, named t this.1 this.2]
    · simp only [Function.comp, if_neg this]
  rw [Dev.Lists, slot, task, Dev.modAtt, List.find?_map, keeps, show _ = some x from h]
  simp

theorem Dev.tasks_modAtt_congr (same : d'.att = d.att) (slot task : Nat) (f : AttTask → AttTask) :
    (d'.modAtt slot task f).att.tasks = (d.modAtt slot task f).att.tasks := by rw [Dev.modAtt, same, Dev.modAtt]

/-- A task of that name, once changed, is the change of a task of that name. -/
theorem Dev.mem_modAtt {f : AttTask → AttTask} {y : AttTask} (h : y ∈ (d.modAtt slot task f).att.tasks) (hs : y.slot = slot)
    (ht : y.task = task) : ∃ z ∈ d.att.tasks, (z.slot = slot ∧ z.task = task) ∧ y = f z := by
  obtain ⟨z, there, rfl⟩ := List.mem_map.mp h
  by_cases named : z.slot = slot ∧ z.task = task
  · exact ⟨z, there, named, if_pos named⟩
  · rw [if_neg named] at hs ht
    exact absurd ⟨hs, ht⟩ named

/-- Where the task that joined last alone has its name, a change under that name is a change of it. -/
theorem Dev.tasks_modAtt_joined {l : List AttTask} (h : d.att.tasks = l ++ [x]) (named : x.slot = slot ∧ x.task = task)
    (new : ∀ w ∈ l, ¬ (w.slot = slot ∧ w.task = task)) (f : AttTask → AttTask) :
    (d.modAtt slot task f).att.tasks = l ++ [f x] := by
  have others : (l.map fun t => if t.slot = slot ∧ t.task = task then f t else t) = l :=
    (List.map_congr_left fun w hw => if_neg (new w hw)).trans l.map_id
  simp [Dev.modAtt, h, others, named]

/-! ## The task that the unit serves -/

/-- The task served next is listed, and a task of its name meets the condition (R180). -/
theorem Dev.attNext_spec {p : AttTask → Bool} (h : d.attNext p = some x) :
    d.Lists x ∧ ∃ y ∈ d.att.tasks, (y.slot = x.slot ∧ y.task = x.task) ∧ p y = true := by
  obtain ⟨k, first, found⟩ := Option.bind_eq_some_iff.mp h
  obtain ⟨⟨slot, task⟩, lists⟩ := Dev.lists_of_find found
  obtain ⟨y, candidate, rfl⟩ := List.mem_map.mp (Dev.firstTask_mem first)
  obtain ⟨there, may⟩ := List.mem_filter.mp candidate
  exact ⟨lists, y, there, ⟨slot.symm, task.symm⟩, (Bool.and_eq_true_iff.mp may).2⟩

/-! ## Accesses of a task -/

/-- A task that no fault stops goes on with what its accesses gave (R206). -/
theorem Dev.attAct_ok {α : Type} {y : Chk α × Dev} {a : α} (h : y = (.ok a, d)) (space : Nat) {k : α → Dev → Dev}
    (runs : (k a d).stopped slot task = false) : Dev.attAct y slot task space k = k a d := by
  have acts := Dev.act_ok h 5 0 slot task space k
  simp only [Dev.attAct, acts, runs, Bool.false_eq_true, if_false]

end

end Sys2Proof.Machine
end

section
/-! PROOFS. ATTENTION_FORWARD and ATTENTION_BACKWARD: how a task of the attention unit starts (R180, R182, R191, R194, R196). -/

namespace Sys2Proof.Machine

/-! ## What the reads of its start leave alone -/

theorem Dev.looked_loadAtt (d : Dev) (slot task : Nat) : d.Looked (d.loadAtt slot task).2 :=
  .thn (d.looked_readBody _ _ _) fun _ e => .thn (Dev.looked_tests _ _ e) fun _ e => .refl e

theorem Dev.looked_loadRows (d : Dev) (r : Reader) (space : Nat) (b : AttBody) : d.Looked (d.loadRows r space b).2 :=
  .thn (.chk (d.looked_readVa _ _ _ _)) fun _ e => Dev.looked_tests _ _ e

theorem Dev.looked_loadScales (d : Dev) (r : Reader) (space : Nat) (b : AttBody) : d.Looked (d.loadScales r space b).2 := by
  refine .thn (.chk (d.looked_readVa _ _ _ _)) fun _ e => .thn (Dev.looked_tests _ _ e) fun _ e => .thn ?_ fun _ e => .refl e
  split
  · exact .refl e
  · exact .chk (e.looked_readVa _ _ _ _)

theorem Dev.looked_loadQueries (d : Dev) (r : Reader) (t : AttTask) (omega : List Word) :
    d.Looked (d.loadQueries r t omega).2 := .thn (.chk (d.looked_readVa _ _ _ _)) fun _ e => .refl e

theorem Dev.looked_loadGrads (d : Dev) (r : Reader) (t : AttTask) : d.Looked (d.loadGrads r t).2 :=
  .thn (.chk (d.looked_readVa _ _ _ _)) fun _ e => .thn (.chk (e.looked_readVa _ _ _ _)) fun _ e =>
    .thn (.chk (e.looked_readVa _ _ _ _)) fun _ e => .refl e

theorem Dev.Looked.att {d d' : Dev} (h : d.Looked d') : d'.att = d.att := by rw [h]

theorem Dev.OnlyRegs.att {d d' : Dev} (h : d.OnlyRegs d') : d'.att = d.att := by rw [h]

/-! ## What they find -/

section
variable {d d' : Dev} {r : Reader} {x y : AttTask} {slot task : Nat}

/-- A task that is checked has its name, and nothing of it is read yet. -/
theorem Dev.loadAtt_ok (h : d.loadAtt slot task = (.ok x, d')) :
    (x.slot = slot ∧ x.task = task) ∧ x.stage = 0 ∧ x.pagesRead = [] ∧ x.saved = false := by
  unfold Dev.loadAtt at h
  obtain ⟨l, e, -, h⟩ := Chk.ok_of_thn h
  obtain ⟨b, e, -, h⟩ := Chk.ok_of_thn h
  cases h
  exact ⟨⟨rfl, rfl⟩, rfl, rfl, rfl⟩

/-- From `d` to `d'`, something of the start of `x` was read: `y` takes its place, with its name, its body and its pages. -/
structure Dev.ReadAs (d d' : Dev) (x y : AttTask) : Prop where
  slot : y.slot = x.slot
  task : y.task = x.task
  body : y.body = x.body
  pagesRead : y.pagesRead = x.pagesRead
  saved : y.saved = x.saved
  tasks : d'.att.tasks = (d.modAtt x.slot x.task fun _ => y).att.tasks

/-- A task once its row table is read: its rows, its blocks, and its merge, or its gradients, at zero (R191, R194, R196). -/
def AttTask.withRows (t : AttTask) (rs : List RowRec) : AttTask :=
  let b := t.body
  let zero := List.replicate b.headDim 0
  if b.mode = 3 then
    { t with stage := 1, rows := rs, blocks := attBlocks b rs, dq := List.replicate (b.m * b.qHeads) zero
             dk := List.replicate (b.m * b.kvHeads) zero, dv := List.replicate (b.m * b.kvHeads) zero }
  else { t with stage := 1, rows := rs, blocks := attBlocks b rs, merge := List.replicate (b.m * b.qHeads) { o := zero } }

theorem AttTask.withRows_frame (t : AttTask) (rs : List RowRec) :
    t.withRows rs = { t with stage := 1, rows := rs, blocks := attBlocks t.body rs, merge := (t.withRows rs).merge
                             dq := (t.withRows rs).dq, dk := (t.withRows rs).dk, dv := (t.withRows rs).dv } := by
  unfold AttTask.withRows
  dsimp only
  split <;> rfl

theorem Dev.attRows_unread (unread : x.stage = 0) :
    d.attRows r x = Chk.thn (d.loadRows r x.space x.body) fun rs e =>
      (.ok (x.withRows rs), e.modAtt (x.withRows rs).slot (x.withRows rs).task fun _ => x.withRows rs) :=
  if_neg (by omega)

/-- The row table gives the blocks (R191, R194). -/
theorem Dev.attRows_ok (unread : x.stage = 0) (h : d.attRows r x = (.ok y, d')) :
    d.ReadAs d' x y ∧ y.stage = 1 ∧ y.blocks = attBlocks y.body y.rows := by
  rw [Dev.attRows_unread unread] at h
  obtain ⟨rs, e, read, h⟩ := Chk.ok_of_thn h
  have looked := d.looked_loadRows r x.space x.body
  rw [read] at looked
  cases h
  rw [x.withRows_frame rs]
  exact ⟨⟨rfl, rfl, rfl, rfl, rfl, Dev.tasks_modAtt_congr looked.att _ _ _⟩, rfl, rfl⟩

/-- The arrays leave the rows and the blocks. -/
theorem Dev.attArrays_ok (unread : x.stage = 1) (h : d.attArrays r x = (.ok y, d')) :
    d.ReadAs d' x y ∧ y.stage = 2 ∧ y.rows = x.rows ∧ y.blocks = x.blocks := by
  simp only [Dev.attArrays, unread, Nat.not_ofNat_le_one, if_false] at h
  obtain ⟨s, d1, scales, h⟩ := Chk.ok_of_thn h
  obtain ⟨q, d2, queries, h⟩ := Chk.ok_of_thn h
  obtain ⟨g, d3, grads, h⟩ := Chk.ok_of_thn h
  have first := d.looked_loadScales r x.space x.body
  have second := d1.looked_loadQueries r x s.2.1
  have third : d2.Looked d3 := by
    split at grads
    · have looked := d2.looked_loadGrads r x
      rwa [grads] at looked
    · cases grads
      exact .refl _
  rw [scales] at first
  rw [queries] at second
  have counted := d3.onlyRegs_wideEdge (((⟨s.2.2, 0, 0⟩ : EdgeCount).add g.2.2.2.2).add q.2.1) g.2.2.2.1
  cases h
  exact ⟨⟨rfl, rfl, rfl, rfl, rfl, Dev.tasks_modAtt_congr (counted.att.trans ((first.trans second).trans third).att) _ _ _⟩,
    rfl, rfl, rfl⟩

/-- A task that joined the unit's last, under a name of its own, is read: it stands in its place as it was read. -/
theorem Dev.ReadAs.joined {l : List AttTask} (h : d.ReadAs d' x y) (last : d.att.tasks = l ++ [x])
    (new : ∀ w ∈ l, ¬ (w.slot = x.slot ∧ w.task = x.task)) : d'.att.tasks = l ++ [y] :=
  h.tasks.trans (Dev.tasks_modAtt_joined last ⟨rfl, rfl⟩ new _)

end

/-! ## A task goes on -/

section
variable {d d1 d2 : Dev} {x y z : AttTask}

/-- A task with blocks left does not end. -/
theorem Dev.attFinish_waits (h : d.Lists x) (left : x.blocks ≠ []) : d.attFinish x.slot x.task = d := by
  unfold Dev.attFinish
  rw [show _ = some x from h]
  exact if_pos (.inl left)

/-- A task whose reads succeed, and whose copies and appends are done, goes on to its end (R182). -/
theorem Dev.attGo_prepared (h : d.Lists x) (rows : d.attRows (d.reader 5 0 x.slot x.task) x = (.ok y, d1))
    (arrays : d1.attArrays (d.reader 5 0 x.slot x.task) y = (.ok z, d2)) (prepared : (prepSteps z.body z.rows).length ≤ z.prep)
    (runs : (d2.attFinish x.slot x.task).stopped x.slot x.task = false) :
    d.attGo x.slot x.task = d2.attFinish x.slot x.task := by
  unfold Dev.attGo
  rw [show _ = some x from h]
  refine Dev.attAct_ok (a := ()) ?_ _ runs
  rw [Chk.thn_ok rows, Chk.thn_ok arrays, List.drop_eq_nil_of_le prepared]
  rfl

end

/-! ## A task starts -/

section
variable {d d' : Dev} {back : Bool} {slot task : Nat}

theorem Dev.attStart_waits (h : d.wideIdle = false) : d.attStart back = d := by
  simp only [Dev.attStart, h, Bool.not_false, if_true]

/-- The task joins those of the unit, and runs. -/
def Dev.attJoined (d : Dev) (x : AttTask) (slot task : Nat) : Dev :=
  ({ d with att := { d.att with tasks := d.att.tasks ++ [x] } } : Dev).startTask slot task

section
variable (idle : d.wideIdle = true) (issued : d.issuedWhere 3 (fun k => decide (k % 16 = 3) == back) = some (slot, task))
include idle issued

theorem Dev.attStart_issued :
    d.attStart back = Dev.act (d.loadAtt slot task) 5 0 slot task (d.slot slot).space fun x e =>
      (e.attJoined x slot task).attGo slot task := by
  simp only [Dev.attStart, idle, issued, Bool.not_true, Bool.false_eq_true, if_false]
  rfl

theorem Dev.attStart_rejects {st : Nat} (checked : d.loadAtt slot task = (.reject st, d')) :
    d.attStart back = d'.rejectTask slot st := by rw [Dev.attStart_issued idle issued, Dev.act_reject checked]

/-- A task with nothing to copy or append, and with blocks, waits for its pages once its rows and arrays are read. -/
theorem Dev.attStart_reads {x y z : AttTask} {d1 d2 : Dev} (checked : d.loadAtt slot task = (.ok x, d'))
    (new : ∀ w ∈ d'.att.tasks, ¬ (w.slot = slot ∧ w.task = task))
    (rows : (d'.attJoined x slot task).attRows ((d'.attJoined x slot task).reader 5 0 slot task) x = (.ok y, d1))
    (arrays : d1.attArrays ((d'.attJoined x slot task).reader 5 0 slot task) y = (.ok z, d2))
    (prepared : prepSteps z.body z.rows = []) (left : z.blocks ≠ []) (runs : d2.stopped slot task = false) :
    d.attStart back = d2 ∧ z ∈ d2.att.tasks ∧ z.slot = slot ∧ z.task = task ∧ z.stage = 2 ∧
      z.blocks = attBlocks z.body z.rows ∧ z.pagesRead = [] ∧ z.saved = false := by
  obtain ⟨⟨rfl, rfl⟩, unread, noPages, unsaved⟩ := Dev.loadAtt_ok checked
  obtain ⟨first, stage, blocks⟩ := Dev.attRows_ok unread rows
  obtain ⟨second, stage, sameRows, sameBlocks⟩ := Dev.attArrays_ok stage arrays
  have slot : z.slot = x.slot := second.slot.trans first.slot
  have task : z.task = x.task := second.task.trans first.task
  have joined : (d'.attJoined x x.slot x.task).att.tasks = d'.att.tasks ++ [x] := rfl
  have read : d2.att.tasks = d'.att.tasks ++ [z] :=
    second.joined (first.joined joined new) (by rwa [first.slot, first.task])
  have lists : d2.Lists z := Dev.lists_joined read (by rwa [slot, task])
  have waits : d2.attFinish x.slot x.task = d2 := by rw [← slot, ← task, Dev.attFinish_waits lists left]
  refine ⟨?_, lists.mem, slot, task, stage, ?_, second.pagesRead.trans (first.pagesRead.trans noPages),
    second.saved.trans (first.saved.trans unsaved)⟩
  · rw [Dev.attStart_issued idle issued, Dev.act_ok checked,
      Dev.attGo_prepared (Dev.lists_joined joined new) rows arrays (by simp [prepared]) (by rwa [waits]), waits]
  · rw [sameBlocks, blocks, second.body, sameRows]

end

end

end Sys2Proof.Machine
end

section
/-! PROOFS. PAGE_ARRIVAL: a page is read once, and a row group of the block whose turn has come enters the merge or the gradients
(R180, R194-R196, R198, R207). -/

namespace Sys2Proof.Machine

/-! ## Counts of the edge -/

/-- The wide edge and the clips count in the wide engine's registers alone. -/
theorem Dev.reg_wideEdge_other (d : Dev) (c : EdgeCount) (clips : Nat) {o : Nat} (h : o / 0x10000 ≠ 3) :
    (d.wideEdge c clips).reg o = d.reg o := by
  have away (k : Nat) (wide : k / 0x10000 = 3) : o ≠ k := by rintro rfl; exact h wide
  unfold Dev.wideEdge Dev.accClipped Dev.edge
  dsimp only
  rw [Dev.reg_countFlag_other _ _ _ (away _ rfl) (away _ rfl), Dev.reg_countFlag_other _ _ _ (away _ rfl) (away _ rfl),
    Dev.reg_countFlag_other _ _ _ (away _ rfl) (away _ rfl), Dev.reg_countFlag_other _ _ _ (away _ rfl) (away _ rfl)]

/-- A page counts in the count of pages read and in the KV ratio's bytes alone. -/
theorem Dev.countPage_frame (d : Dev) : d.countPage = { d with regs := d.countPage.regs, hub := d.countPage.hub } := by
  unfold Dev.countPage Dev.measure
  split <;> rfl

theorem Dev.reg64_countPage (d : Dev) :
    d.countPage.reg64 Off.attPagesReadLo = (d.reg64 Off.attPagesReadLo + 1) % 2 ^ 64 := by
  rw [← Dev.reg64_bump64]
  unfold Dev.countPage Dev.measure
  split <;> rfl

/-! ## A row group enters the merge -/

section
variable {d : Dev} {x u : AttTask} {blk : Nat} {rest : List Nat}

/-- `u` is the task `x` once the row group in turn of its block `blk` has entered its merge, or its gradients; `z` stands for a
quotient by 0 (R194, R196). -/
structure Dev.GroupMerged (d : Dev) (x : AttTask) (z : Word) (blk : Nat) (u : AttTask) : Prop where
  frame : u = { x with merge := u.merge, dq := u.dq, dk := u.dk, dv := u.dv, flags := u.flags, rowFlags := u.rowFlags }
  forward : x.body.mode ≠ 3 → u.merge = (d.mergeRows x blk).1
  backward : x.body.mode = 3 →
    u.dq = (d.gradRows x z blk).dq ∧ u.dk = (d.gradRows x z blk).dk ∧ u.dv = (d.gradRows x z blk).dv

/-- After a row group come the next one and, after the last, the next block (R180, R195). -/
theorem Dev.groupDone_turn (d : Dev) (u : AttTask) :
    (d.groupDone u).blocks = (if u.group + 1 < u.body.groups then u.blocks else u.blocks.tail) ∧
      (d.groupDone u).group = (if u.group + 1 < u.body.groups then u.group + 1 else 0) := by
  unfold Dev.groupDone
  split <;> exact ⟨rfl, rfl⟩

theorem Dev.groupDone_frame (d : Dev) (u : AttTask) :
    d.groupDone u =
      { u with group := (d.groupDone u).group, blocks := (d.groupDone u).blocks, buffer := (d.groupDone u).buffer } := by
  unfold Dev.groupDone
  split <;> rfl

theorem Dev.mergeUnit_waits (h : d.Lists x) (waits : d.blockReady x = false) : d.mergeUnit x.slot x.task = d := by
  unfold Dev.mergeUnit
  rw [show _ = some x from h]
  dsimp only
  split
  · rfl
  · rw [waits]
    rfl

/-- A block whose pages are there: its next row group is merged, and the edge counts. -/
theorem Dev.mergeUnit_merges (h : d.Lists x) (blocks : x.blocks = blk :: rest) (ready : d.blockReady x = true) :
    ∃ c clips u, d.draw.2.GroupMerged x d.draw.1 blk u ∧
      d.mergeUnit x.slot x.task = (d.draw.2.wideEdge c clips).modAtt x.slot x.task fun _ => d.draw.2.groupDone u := by
  unfold Dev.mergeUnit
  rw [show _ = some x from h]
  dsimp only
  split
  · next empty => cases empty.symm.trans blocks
  · next first =>
    cases first.symm.trans blocks
    simp only [ready, Bool.not_true, Bool.false_eq_true, if_false]
    by_cases mode : x.body.mode = 3
    · simp only [mode, if_true]
      exact ⟨_, _, _, ⟨rfl, fun other => absurd mode other, fun _ => ⟨rfl, rfl, rfl⟩⟩, rfl⟩
    · simp only [mode, if_false]
      exact ⟨_, _, _, ⟨rfl, fun _ => rfl, fun other => absurd other mode⟩, rfl⟩

/-! ### What a row group leaves -/

section
variable {z : Word} (h : d.GroupMerged x z blk u)
include h

theorem Dev.GroupMerged.name : u.slot = x.slot ∧ u.task = x.task := by
  rw [h.frame]
  exact ⟨rfl, rfl⟩

/-- The next row group of the same blocks, or the first of the next block. -/
theorem Dev.GroupMerged.turn (d' : Dev) (blocks : x.blocks = blk :: rest) :
    (d'.groupDone u).blocks = (if x.group + 1 < x.body.groups then x.blocks else rest) ∧
      (d'.groupDone u).group = (if x.group + 1 < x.body.groups then x.group + 1 else 0) := by
  have after := d'.groupDone_turn u
  rw [h.frame] at after ⊢
  simpa only [blocks, List.tail_cons] using after

theorem Dev.GroupMerged.kept (d' : Dev) :
    (d'.groupDone u).pagesRead = x.pagesRead ∧ (d'.groupDone u).body = x.body ∧ (d'.groupDone u).rows = x.rows := by
  rw [d'.groupDone_frame u, h.frame]
  exact ⟨rfl, rfl, rfl⟩

end

/-- Once the row groups in turn of its task `x` have been merged, the unit has `y` under the name of `x`; memory and the
registers of the other blocks stand. -/
structure Dev.Turned (d d' : Dev) (x y : AttTask) : Prop where
  mem : d'.mem = d.mem
  reg : ∀ o, o / 0x10000 ≠ 3 → d'.reg o = d.reg o
  tasks : ∀ w ∈ d'.att.tasks, w.slot = x.slot → w.task = x.task → w = y

/-- Where pages of its block are still to come, the task stands. -/
theorem Dev.turned_waits (h : d.Lists x) (once : ∀ y ∈ d.att.tasks, y.slot = x.slot → y.task = x.task → y = x)
    (left : x.blocks ≠ []) (waits : d.blockReady x = false) :
    d.Turned ((d.mergeUnit x.slot x.task).attFinish x.slot x.task) x x := by
  rw [Dev.mergeUnit_waits h waits, Dev.attFinish_waits h left]
  exact ⟨rfl, fun _ _ => rfl, once⟩

/-- Where its block's pages are there, and the row group is not the last of its last block, the group is merged and the task
goes on. -/
theorem Dev.turned_merges (h : d.Lists x) (blocks : x.blocks = blk :: rest) (ready : d.blockReady x = true)
    (more : rest ≠ [] ∨ x.group + 1 < x.body.groups) :
    ∃ u, d.draw.2.GroupMerged x d.draw.1 blk u ∧
      d.Turned ((d.mergeUnit x.slot x.task).attFinish x.slot x.task) x (d.draw.2.groupDone u) := by
  obtain ⟨c, clips, u, merged, merges⟩ := Dev.mergeUnit_merges h blocks ready
  have counted := d.draw.2.onlyRegs_wideEdge c clips
  have named : (d.draw.2.groupDone u).slot = x.slot ∧ (d.draw.2.groupDone u).task = x.task := by
    rw [d.draw.2.groupDone_frame u]
    exact merged.name
  have lists := (h.congr (d' := d.draw.2.wideEdge c clips) counted.att).modAtt (f := fun _ => d.draw.2.groupDone u)
    fun _ _ _ => named
  have left : (d.draw.2.groupDone u).blocks ≠ [] := by
    rw [(merged.turn d.draw.2 blocks).1]
    split
    · simp [blocks]
    · next last => exact more.resolve_right last
  have waits := Dev.attFinish_waits lists left
  rw [named.1, named.2] at waits
  rw [merges, waits]
  refine ⟨u, merged, counted.mem, fun o away => Dev.reg_wideEdge_other _ c clips away, fun w there slot task => ?_⟩
  obtain ⟨_, -, -, rfl⟩ := Dev.mem_modAtt there slot task
  rfl

/-- Whether or not its block's pages are there, the task keeps its pages, its body and its rows, and its blocks leave in their
order. -/
theorem Dev.turned_keeps (h : d.Lists x) (once : ∀ y ∈ d.att.tasks, y.slot = x.slot → y.task = x.task → y = x)
    (blocks : x.blocks = blk :: rest) (more : rest ≠ [] ∨ x.group + 1 < x.body.groups) :
    ∃ y, d.Turned ((d.mergeUnit x.slot x.task).attFinish x.slot x.task) x y ∧
      y.pagesRead = x.pagesRead ∧ y.blocks <:+ x.blocks ∧ y.body = x.body ∧ y.rows = x.rows := by
  cases ready : d.blockReady x with
  | false => exact ⟨x, Dev.turned_waits h once (by simp [blocks]) ready, rfl, List.suffix_rfl, rfl, rfl⟩
  | true =>
    obtain ⟨u, merged, turned⟩ := Dev.turned_merges h blocks ready more
    obtain ⟨pagesRead, body, rows⟩ := merged.kept d.draw.2
    refine ⟨_, turned, pagesRead, ?_, body, rows⟩
    rw [(merged.turn d.draw.2 blocks).1]
    split
    · exact List.suffix_rfl
    · exact blocks ▸ List.suffix_cons blk rest

end

/-! ## PAGE_ARRIVAL -/

section
variable {d d' : Dev} {x : AttTask} {blk : Nat} {rest : List Nat} {va : Nat} {l : List Byte}

/-- A page that has arrived is read and waits in the merge buffer (R195, R198). -/
def AttTask.arrived (va : Nat) (l : List Byte) (t : AttTask) : AttTask :=
  { t with pagesRead := t.pagesRead ++ [va], buffer := t.buffer ++ [(va, l)] }

/-- The page counts, and waits with its task. -/
def Dev.pageTaken (d : Dev) (x : AttTask) (va : Nat) (l : List Byte) : Dev :=
  d.countPage.modAtt x.slot x.task (.arrived va l)

theorem Dev.pageTaken_mem : (d.pageTaken x va l).mem = d.mem := by
  rw [Dev.pageTaken, d.countPage_frame]
  rfl

theorem Dev.reg64_pageTaken :
    (d.pageTaken x va l).reg64 Off.attPagesReadLo = (d.reg64 Off.attPagesReadLo + 1) % 2 ^ 64 := d.reg64_countPage

theorem Dev.countPage_att : d.countPage.att = d.att := by rw [d.countPage_frame]

theorem Dev.Lists.pageTaken (h : d.Lists x) : (d.pageTaken x va l).Lists (x.arrived va l) :=
  (h.congr Dev.countPage_att).modAtt fun _ slot task => ⟨slot, task⟩

theorem Dev.once_pageTaken (once : ∀ y ∈ d.att.tasks, y.slot = x.slot → y.task = x.task → y = x) :
    ∀ y ∈ (d.pageTaken x va l).att.tasks, y.slot = x.slot → y.task = x.task → y = x.arrived va l := by
  intro y there slot task
  obtain ⟨w, old, ⟨oldSlot, oldTask⟩, rfl⟩ := Dev.mem_modAtt there slot task
  rw [Dev.countPage_att] at old
  rw [once w old oldSlot oldTask]

/-- The page that comes next has not been read (R198). -/
theorem Dev.nextPage_unread (h : d.nextPage x = some va) : va ∉ x.pagesRead := by
  have unread := List.find?_some h
  simpa using unread

section
variable (next : d.attNext (fun t => !d.marked t.slot t.task) = some x)
include next

/-- A task with no block left goes on with the reads, copies and appends of its start, or with its outputs. -/
theorem Dev.pageArrival_goes (h : x.blocks = []) : d.pageArrival = d.attGo x.slot x.task := by
  unfold Dev.pageArrival
  rw [next]
  exact if_pos (by simp [h])

variable (prepared : x.early = false) (left : x.blocks ≠ [])
include prepared left

/-- Under HOLD no block starts (R207). -/
theorem Dev.pageArrival_held (held : d.bitAt Off.attCtrl 16 = true) (first : x.group = 0) : d.pageArrival = d := by
  unfold Dev.pageArrival
  rw [next]
  exact (if_neg (by simp [prepared, left])).trans (if_pos (by simp [held, first]))

variable (on : d.bitAt Off.attCtrl 16 = false ∨ x.group ≠ 0)
include on

/-- Where the pages of the block whose turn has come are there, its next row group is merged. -/
theorem Dev.pageArrival_ready (ready : d.blockReady x = true) :
    d.pageArrival = (d.mergeUnit x.slot x.task).attFinish x.slot x.task := by
  have goes : ¬ (d.bitAt Off.attCtrl 16 && decide (x.group = 0)) = true := by rcases on with on | on <;> simp [on]
  unfold Dev.pageArrival
  rw [next]
  exact (if_neg (by simp [prepared, left])).trans ((if_neg goes).trans (if_pos ready))

/-- Where they are not, the next page is read. -/
theorem Dev.pageArrival_reads (waits : d.blockReady x = false) (page : d.nextPage x = some va)
    (read : d.readVa (d.reader 5 0 x.slot x.task) x.space va 65536 = (.ok l, d')) :
    d.pageArrival = ((d'.pageTaken x va l).mergeUnit x.slot x.task).attFinish x.slot x.task := by
  have goes : ¬ (d.bitAt Off.attCtrl 16 && decide (x.group = 0)) = true := by rcases on with on | on <;> simp [on]
  unfold Dev.pageArrival
  rw [next]
  refine (if_neg (by simp [prepared, left])).trans ((if_neg goes).trans ((if_neg (by simp [waits])).trans ?_))
  -- the read stays a name: the kernel would take its 65,536 bytes apart
  obtain ⟨pageAt, opaquely⟩ : ∃ pageAt : Nat → Acc (List Byte) × Dev,
      ∀ va, d.readVa (d.reader 5 0 x.slot x.task) x.space va 65536 = pageAt va := ⟨_, fun _ => rfl⟩
  simp only [opaquely] at read ⊢
  simp only [page, read]
  rfl

end

/-! ### What an arrival leaves -/

section
variable (next : d.attNext (fun t => !d.marked t.slot t.task) = some x) (prepared : x.early = false)
  (blocks : x.blocks = blk :: rest) (on : d.bitAt Off.attCtrl 16 = false ∨ x.group ≠ 0)
  (more : rest ≠ [] ∨ x.group + 1 < x.body.groups)
include next prepared blocks on more

/-- Where its block's pages are there, the task's next row group is merged. -/
theorem Dev.pageArrival_merges (ready : d.blockReady x = true) :
    ∃ u, d.draw.2.GroupMerged x d.draw.1 blk u ∧ d.Turned d.pageArrival x (d.draw.2.groupDone u) := by
  rw [Dev.pageArrival_ready next prepared (by simp [blocks]) on ready]
  exact Dev.turned_merges (Dev.attNext_spec next).1 blocks ready more

/-- Where they are not, the page that arrives is read, and the task keeps it; its blocks leave in their order. -/
theorem Dev.pageArrival_takes (once : ∀ y ∈ d.att.tasks, y.slot = x.slot → y.task = x.task → y = x)
    (waits : d.blockReady x = false) (page : d.nextPage x = some va)
    (read : d.readVa (d.reader 5 0 x.slot x.task) x.space va 65536 = (.ok l, d')) :
    ∃ y, (d'.pageTaken x va l).Turned d.pageArrival (x.arrived va l) y ∧ y.pagesRead = x.pagesRead ++ [va] ∧
      y.blocks <:+ x.blocks ∧ y.body = x.body ∧ y.rows = x.rows := by
  have looked := d.looked_readVa (d.reader 5 0 x.slot x.task) x.space va 65536
  rw [read] at looked
  have listed : d'.Lists x := (Dev.attNext_spec next).1.congr looked.att
  rw [Dev.pageArrival_reads next prepared (by simp [blocks]) on waits page read]
  exact Dev.turned_keeps listed.pageTaken (Dev.once_pageTaken (by rwa [looked.att])) blocks more

end

end

end Sys2Proof.Machine

open Sys2Proof Sys2Proof.Machine in
/-- Settles O35: a task starts with its checks and reads, reads each page once, and its blocks enter the merge, or the gradients,
one row group after another. -/
theorem attentionReadsItsPages : Obligations.AttentionReadsItsPages := by
  unfold Obligations.AttentionReadsItsPages
  refine ⟨fun s busy => ⟨?_, ?_⟩, fun s back slot task idle issued => ?_, fun s x next prepared once blk rest blocks =>
    ⟨fun held first => ?_, fun on more => ⟨fun va l d waits page read => ?_, fun ready => ?_⟩⟩⟩
  · rw [exec_attentionForward, execAttentionForward, lift_eq, Dev.attentionForward, Dev.attStart_waits busy]
  · rw [exec_attentionBackward, execAttentionBackward, lift_eq, Dev.attentionBackward, Dev.attStart_waits busy]
  · have starts : exec (if back then .attentionBackward else .attentionForward) s =
        .next { s with dev := s.dev.attStart back } := by cases back <;> rfl
    refine ⟨fun st d checked => ?_, fun x y z d d1 d2 checked new rows arrays prepared left runs => ?_⟩
    · rw [starts, Dev.attStart_rejects idle issued checked]
    · obtain ⟨reads, waits⟩ := Dev.attStart_reads idle issued checked new rows arrays prepared left runs
      exact ⟨by rw [starts, reads], waits⟩
  · rw [exec_pageArrival, execPageArrival, lift_eq, Dev.pageArrival_held next prepared (by simp [blocks]) held first]
  · obtain ⟨w, turned, kept⟩ := Dev.pageArrival_takes next prepared blocks on more once waits page read
    rw [exec_pageArrival, execPageArrival, lift_eq]
    refine ⟨Dev.nextPage_unread page, _, rfl, ?_, turned.mem.trans Dev.pageTaken_mem, fun y there slot task => ?_⟩
    · rw [← Dev.reg64_pageTaken (x := x) (va := va) (l := l)]
      exact Dev.reg64_congr (turned.reg _ (by decide)) (turned.reg _ (by decide))
    · rwa [turned.tasks y there slot task]
  · obtain ⟨u, merged, turned⟩ := Dev.pageArrival_merges next prepared blocks on more ready
    obtain ⟨toBlocks, toGroup⟩ := merged.turn s.dev.draw.2 blocks
    rw [exec_pageArrival, execPageArrival, lift_eq]
    refine ⟨_, rfl, turned.mem, fun y there slot task => ?_⟩
    rw [turned.tasks y there slot task]
    refine ⟨toBlocks, toGroup, ?_⟩
    rw [s.dev.draw.2.groupDone_frame u]
    exact ⟨merged.forward, merged.backward⟩

end

section
/-! PROOFS. How attention tasks end, are saved and resume, frames in quarantine, and rows that saw no key (R180, R193-R196, R199,
R289). -/

namespace Sys2Proof.Machine

/-! ## A task ends -/

/-- A flag's counter takes its count and saturates. -/
theorem Dev.reg_countFlag_same (d : Dev) {status counter : Nat} (b n : Nat) (h : counter ≠ status) :
    (d.countFlag status b counter n).reg counter = min (d.reg counter + n) 0xFFFFFFFF := by
  have bound := d.reg_lt counter
  unfold Dev.countFlag
  split
  · omega
  · rw [Dev.reg_setBit_other _ _ h, Dev.reg_bump_same]

section
variable (d : Dev) (x : AttTask)

/-- What a task that ends counts: its rows that saw no key, and what the wide edge converts and clips (R193, R58). -/
def Dev.attCounted (c : EdgeCount) (clips : Nat) : Dev :=
  (d.countFlag Off.attStatus 7 Off.attEmptyRows (emptyRows x)).wideEdge c clips

theorem Dev.onlyRegs_attCounted (c : EdgeCount) (clips : Nat) : d.OnlyRegs (d.attCounted x c clips) :=
  (d.onlyRegs_countFlag _ _ _ _).trans (Dev.onlyRegs_wideEdge _ _ _)

theorem Dev.reg_attCounted (c : EdgeCount) (clips : Nat) :
    (d.attCounted x c clips).reg Off.attEmptyRows = min (d.reg Off.attEmptyRows + emptyRows x) 0xFFFFFFFF :=
  (Dev.reg_wideEdge_other _ c clips (by decide)).trans (d.reg_countFlag_same _ _ (by decide))

/-- The task leaves the unit's list, and ends with its flags. -/
def Dev.attEnded (c : EdgeCount) (clips flags : Nat) (rows : List (Nat × Nat)) : Dev :=
  ({ d.attCounted x c clips with att := { (d.attCounted x c clips).att with
    tasks := (d.attCounted x c clips).att.tasks.filter fun t => !(decide (t.slot = x.slot) && decide (t.task = x.task)) } } :
      Dev).endTaskRows x.slot x.task flags rows

section
variable (c : EdgeCount) (clips flags : Nat) (rows : List (Nat × Nat))

theorem Dev.attEnded_mem : (d.attEnded x c clips flags rows).mem = d.mem := (d.onlyRegs_attCounted x c clips).mem

theorem Dev.attEnded_stopped (slot task : Nat) : (d.attEnded x c clips flags rows).stopped slot task = d.stopped slot task :=
  Dev.stopped_congr (d.onlyRegs_attCounted x c clips).mmu _ _

theorem Dev.attEnded_gone : ∀ y ∈ (d.attEnded x c clips flags rows).att.tasks, ¬ (y.slot = x.slot ∧ y.task = x.task) := by
  rintro y there ⟨slot, task⟩
  simpa [slot, task] using (List.mem_filter.mp there).2

theorem Dev.reg_attEnded : (d.attEnded x c clips flags rows).reg Off.attEmptyRows =
    min (d.reg Off.attEmptyRows + emptyRows x) 0xFFFFFFFF :=
  (Dev.reg_congr (d := d.attCounted x c clips) rfl _).trans (d.reg_attCounted x c clips)

theorem Dev.st_attEnded (there : d.HasTask x.slot x.task) :
    ((d.attEnded x c clips flags rows).taskRun x.slot x.task).st = .ended :=
  Dev.st_endTaskRows (there.congr (d.onlyRegs_attCounted x c clips).grf) _ _

end

end

section
variable {d d' : Dev} {x : AttTask} {u : Unit}

/-- A task whose outputs are written ends (R193, R196). -/
theorem Dev.attFinish_ends (h : d.Lists x) (none_left : x.blocks = []) (prepared : x.early = false)
    (written : d.writeAll (d.reader 5 0 x.slot x.task) x.space (attWrites x).1 = (.ok u, d'))
    (runs : d'.stopped x.slot x.task = false) :
    ∃ c clips flags rows, d.attFinish x.slot x.task = d'.attEnded x c clips flags rows := by
  unfold Dev.attFinish
  rw [show _ = some x from h]
  refine ⟨sumCounts (attWrites x).2.1, (attWrites x).2.2, _, _, (if_neg (by simp [none_left, prepared])).trans
    (Dev.attAct_ok (Acc.chk_ok written) _ ?_)⟩
  exact (d'.attEnded_stopped x _ _ _ _ _ _).trans runs

/-- A task whose arrays are read, and whose copies and appends are done, has no step of its start left. -/
theorem AttTask.early_of_prepared (read : x.stage = 2) (prepared : (prepSteps x.body x.rows).length ≤ x.prep) :
    x.early = false := by
  simp [AttTask.early, read, prepared]

/-- Such a task goes on to its end at once. -/
theorem Dev.attGo_read (h : d.Lists x) (read : x.stage = 2) (prepared : (prepSteps x.body x.rows).length ≤ x.prep)
    (runs : (d.attFinish x.slot x.task).stopped x.slot x.task = false) :
    d.attGo x.slot x.task = d.attFinish x.slot x.task :=
  Dev.attGo_prepared h (if_pos (by omega)) (if_pos (by omega)) prepared runs

end

/-! ## A task is saved and resumes -/

section
variable {d : Dev} {x : AttTask} {slot task : Nat}

theorem Dev.attentionSave_saves (next : d.attNext (fun t => d.marked t.slot t.task) = some x) :
    d.attentionSave = d.saveAtt x.slot x.task :=
  congrArg (fun n : Option AttTask => match n with | none => d | some t => d.saveAtt t.slot t.task) next

/-- A task that is served because it is marked is a task of a running graph. -/
theorem Dev.hasTask_of_attNext_marked (next : d.attNext (fun t => d.marked t.slot t.task) = some x) :
    d.HasTask x.slot x.task := by
  obtain ⟨-, y, -, ⟨slot, task⟩, marked⟩ := Dev.attNext_spec next
  rw [← slot, ← task]
  exact Dev.hasTask_of_marked marked

theorem Dev.attentionResume_resumes (free : d.wideFree = true)
    (first : d.firstTask ((d.att.tasks.filter fun t => t.saved && d.canResume t.slot t.task).map fun t => (t.slot, t.task)) =
      some (slot, task)) :
    d.attentionResume = (d.modAtt slot task fun t => { t with saved := false }).setTask slot task .running := by
  simp only [Dev.attentionResume, free, first, Bool.not_true, Bool.false_eq_true, if_false]

end

/-! ## Frames in quarantine -/

section
variable {d : Dev} {frame : Nat} {k : KvFrame}

theorem Dev.quarantineEnd_waits (record : d.frameRec (65536 * frame) = some k)
    (h : k.state ≠ .quarantine ∨ d.grf.tick < k.since + 2) : d.quarantineEnd frame = d := by
  unfold Dev.quarantineEnd
  rw [record]
  exact if_neg fun due => h.elim (absurd due.1) due.2.not_gt

theorem Dev.quarantineEnd_frees (record : d.frameRec (65536 * frame) = some k) (quarantined : k.state = .quarantine)
    (due : k.since + 2 ≤ d.grf.tick) : d.quarantineEnd frame = d.freeFrame (65536 * frame) := by
  unfold Dev.quarantineEnd
  rw [record]
  exact if_pos ⟨quarantined, due⟩

/-- A frame that is freed has no record; the others keep theirs (R199). -/
theorem Dev.frameRec_freeFrame (d : Dev) (pa : Nat) :
    (d.freeFrame pa).frameRec pa = none ∧ ∀ a, a ≠ pa → (d.freeFrame pa).frameRec a = d.frameRec a := by
  refine ⟨List.find?_eq_none.mpr fun k there named => ?_, fun a other => ?_⟩
  · exact of_decide_eq_true (List.mem_filter.mp there).2 (of_decide_eq_true named)
  · refine List.find?_filter.trans (congrArg (List.find? · d.att.frames) (funext fun k => ?_))
    by_cases named : k.pa = a <;> simp [named, other]

end

/-! ## Rows that saw no key -/

/-- Every group of a list is a part of it. -/
theorem mem_of_mem_groupsOf {α : Type} {k n : Nat} {l g : List α} {a : α} (hg : g ∈ groupsOf k n l) (ha : a ∈ g) : a ∈ l := by
  induction n generalizing l with
  | zero => cases hg
  | succ n ih =>
    cases l with
    | nil => cases hg
    | cons b l =>
      rcases List.mem_cons.mp hg with rfl | later
      · exact List.mem_of_mem_take ha
      · exact List.mem_of_mem_drop (ih later)

/-- A merge that no key entered gives zeros (R193). -/
theorem attOutputs_zero {x : AttTask} (h : ∀ m ∈ x.merge, m.started = false) : ∀ row ∈ (attOutputs x).1, ∀ b ∈ row, b = 0 := by
  intro row there b byte
  obtain ⟨heads, group, rfl⟩ := List.mem_map.mp there
  obtain ⟨head, member, byte⟩ := List.mem_flatMap.mp byte
  obtain ⟨m, merge, rfl⟩ := List.mem_map.mp (mem_of_mem_groupsOf group member)
  obtain ⟨code, code_mem, byte⟩ := List.mem_flatMap.mp byte
  obtain ⟨o, -, rfl⟩ := List.mem_map.mp code_mem
  rw [h m merge, if_neg Bool.false_ne_true, show le 0 2 = [0, 0] from rfl] at byte
  simpa using byte

end Sys2Proof.Machine

open Sys2Proof Sys2Proof.Machine in
/-- Settles O36: a task with no block left writes its outputs and ends, a marked one is saved and resumes as it stands, a frame
leaves quarantine at its second tick, and a row that saw no key gives zeros. -/
theorem attentionEnds : Obligations.AttentionEnds := by
  unfold Obligations.AttentionEnds
  refine ⟨fun s x u d next none_left read prepared written runs slot_lt task_lt => ?_, fun s x next => ?_,
    fun s slot task free first => ?_, fun s frame k record => ⟨fun waits => ?_, fun quarantined due => ?_⟩,
    fun x unseen => attOutputs_zero unseen⟩
  · obtain ⟨lists, -⟩ := Dev.attNext_spec next
    obtain ⟨c, clips, flags, rows, ends⟩ :=
      Dev.attFinish_ends lists none_left (AttTask.early_of_prepared read prepared) written runs
    have ended : (s.dev.attFinish x.slot x.task).stopped x.slot x.task = false := by rw [ends, Dev.attEnded_stopped, runs]
    rw [exec_pageArrival, execPageArrival, lift_eq, Dev.pageArrival_goes next none_left,
      Dev.attGo_read lists read prepared ended, ends]
    exact ⟨_, rfl, Dev.st_attEnded _ _ _ _ _ _ ⟨slot_lt, task_lt⟩, Dev.attEnded_mem _ _ _ _ _ _,
      Dev.attEnded_gone _ _ _ _ _ _, Dev.reg_attEnded _ _ _ _ _ _⟩
  · rw [exec_attentionSave, execAttentionSave, lift_eq, Dev.attentionSave_saves next]
    exact ⟨_, rfl, Dev.marked_unmark ((Dev.hasTask_of_attNext_marked next).congr rfl) _, rfl, rfl⟩
  · rw [exec_attentionResume, execAttentionResume, lift_eq, Dev.attentionResume_resumes free first]
    exact ⟨_, rfl, rfl, rfl⟩
  · rw [exec_quarantineEnd, execQuarantineEnd, lift_eq, Dev.quarantineEnd_waits record waits]
  · rw [exec_quarantineEnd, execQuarantineEnd, lift_eq, Dev.quarantineEnd_frees record quarantined due]
    obtain ⟨gone, others⟩ := s.dev.frameRec_freeFrame (65536 * frame)
    exact ⟨_, rfl, gone, others, rfl, rfl⟩

end

section
/-! PROOFS. The arbiters: who is granted and what a grant leaves, how long a grant lasts, and the commands of the ARB_ registers
(R235, R239, R242). -/

namespace Sys2Proof.Machine

/-! ## ARBITER_GRANT -/

/-- Where nobody owns the resource, those that wait once the arrivals have joined are those that waited and those that arrive. -/
theorem Dev.arbJoin_waits_free {d : Dev} {cls inst : Nat} (free : (d.arbInst cls inst).owner = none)
    (arrivals : List (Nat × Bool)) (q : Nat) : (∃ x ∈ (d.arbJoin cls inst arrivals).waiting, x.id = q) ↔
      q ∈ arrivals.map (·.1) ∧ q < arbRequesters cls ∨ ∃ x ∈ (d.arbInst cls inst).waiting, x.id = q := by
  rw [Dev.arbJoin_waits, free]
  simp only [ne_eq, reduceCtorEq, not_false_eq_true, and_true]

/-- Who waited keeps waiting when others join. -/
theorem Dev.mem_arbJoin {d : Dev} {cls inst : Nat} (arrivals : List (Nat × Bool)) {x : ArbReq}
    (waits : x ∈ (d.arbInst cls inst).waiting) : x ∈ (d.arbJoin cls inst arrivals).waiting := List.mem_append_left _ waits

/-- The arbiter put in place is the one found under its names. -/
theorem Dev.arbInst_setInst_of {d : Dev} {cls inst : Nat} {a : ArbInst} (names : a.cls = cls ∧ a.inst = inst) :
    (d.setInst a).arbInst cls inst = a := by
  obtain ⟨rfl, rfl⟩ := names
  exact d.arbInst_setInst a

theorem arbiterGrantsHighestRank : Clause.ArbiterGrantsHighestRank := by
  unfold Clause.ArbiterGrantsHighestRank
  intro s cls inst arrivals range free asks ⟨q, asked⟩
  have waits : ∀ q, (∃ x ∈ (s.dev.arbJoin cls inst arrivals).waiting, x.id = q) ↔ asks q :=
    Dev.arbJoin_waits_free free arrivals
  have names : (s.dev.arbJoin cls inst arrivals).cls = cls ∧ (s.dev.arbJoin cls inst arrivals).inst = inst :=
    s.dev.arbInst_names cls inst
  obtain ⟨x, joined, -⟩ := (waits q).mpr asked
  obtain ⟨w, won⟩ := s.dev.arbWinner_isSome _ (List.ne_nil_of_mem joined)
  obtain ⟨there, highest, next⟩ := s.dev.arbWinner_spec _ won
  rw [names.1] at highest next
  have grant := s.dev.arbiterGrant_free arrivals range free won
  have granted : (s.dev.arbiterGrant cls inst arrivals).arbInst cls inst =
      s.dev.arbGranted (s.dev.arbJoin cls inst arrivals) w := by
    rw [grant, Dev.arbInst_congr (Dev.countGrant_insts _ _ _ _ _), Dev.arbInst_setInst_of (a := s.dev.arbGranted (s.dev.arbJoin cls inst arrivals) w) names]
  refine ⟨{ s with dev := s.dev.arbiterGrant cls inst arrivals }, w.id, rfl, (waits _).mp ⟨w, there, rfl⟩, ?_, ?_, ?_, ?_, ?_, ?_⟩
  · rw [granted]
    rfl
  · intro q asked
    obtain ⟨v, hv, rfl⟩ := (waits q).mpr asked
    exact highest v hv
  · intro q asked tie
    obtain ⟨v, hv, rfl⟩ := (waits q).mpr asked
    exact next v hv tie
  · intro q asked other
    obtain ⟨v, hv, rfl⟩ := (waits q).mpr asked
    rw [granted]
    exact ⟨v, List.mem_filter.mpr ⟨hv, decide_eq_true other⟩, rfl⟩
  · rw [grant, Dev.countGrant_grants, Dev.arbCount_congr (Dev.setInst_counts _ _)]
  · have frame := Dev.countGrant_frame (s.dev.setInst (s.dev.arbGranted (s.dev.arbJoin cls inst arrivals) w)) cls inst w.id
      (s.dev.now - w.since)
    rw [← grant] at frame
    exact congrArg (fun d => { s with dev := d }) frame

/-! ## How long a grant lasts -/

/-- An arbiter whose owner's burst limit has expired: the owner waits. -/
def ArbInst.expired (a : ArbInst) (q now : Nat) : ArbInst :=
  { a with owner := none, waiting := a.waiting ++ [{ id := q, write := a.ownerWrites, since := now }] }

/-- An arbiter at which a requester asks no more. -/
def ArbInst.dropped (a : ArbInst) (q : Nat) : ArbInst :=
  { a with owner := if a.owner = some q then none else a.owner, waiting := a.waiting.filter fun w => decide (w.id ≠ q) }

theorem Dev.burstLimitExpiry_owned {d : Dev} {cls inst q : Nat} (owned : (d.arbInst cls inst).owner = some q) :
    ∃ now, d.now ≤ now ∧
      d.burstLimitExpiry cls inst = ({ d with now := now } : Dev).setInst ((d.arbInst cls inst).expired q now) := by
  unfold Dev.burstLimitExpiry
  simp only [owned]
  exact ⟨_, Nat.le_max_left _ _, rfl⟩

theorem Dev.requestDrop_named {d : Dev} {cls inst q : Nat} (named : arbNames cls inst q = true) :
    d.requestDrop cls inst q = d.setInst ((d.arbInst cls inst).dropped q) := by
  simp only [Dev.requestDrop, named, Bool.not_true, Bool.false_eq_true, if_false]
  rfl

theorem ArbInst.dropped_owner (a : ArbInst) (q : Nat) :
    (a.dropped q).owner ≠ some q ∧ (a.owner ≠ some q → (a.dropped q).owner = a.owner) := by
  by_cases owns : a.owner = some q
  · have gone : (a.dropped q).owner = none := if_pos owns
    exact ⟨by rw [gone]; exact nofun, fun other => absurd owns other⟩
  · have stays : (a.dropped q).owner = a.owner := if_neg owns
    exact ⟨by rwa [stays], fun _ => stays⟩

theorem ArbInst.mem_dropped (a : ArbInst) (q : Nat) (x : ArbReq) : x ∈ (a.dropped q).waiting ↔ x ∈ a.waiting ∧ x.id ≠ q := by
  simp only [ArbInst.dropped, List.mem_filter, decide_eq_true_eq]

theorem arbiterGrantLasts : Clause.ArbiterGrantLasts := by
  unfold Clause.ArbiterGrantLasts
  intro s cls inst
  have names := s.dev.arbInst_names cls inst
  refine ⟨fun arrivals q range owned => ⟨_, rfl, ?_⟩, fun q owned => ⟨_, rfl, ?_⟩, fun q named => ⟨_, rfl, ?_⟩⟩
  · dsimp only
    rw [s.dev.arbiterGrant_owned arrivals range owned,
      Dev.arbInst_setInst_of (a := s.dev.arbJoin cls inst arrivals) names]
    refine ⟨owned, fun p arrives requester other => ?_, fun x waits => Dev.mem_arbJoin arrivals waits, rfl⟩
    refine (s.dev.arbJoin_waits cls inst arrivals p).mpr (.inl ⟨arrives, requester, ?_⟩)
    rw [owned]
    exact fun same => other (Option.some.inj same).symm
  · obtain ⟨now, later, expires⟩ := Dev.burstLimitExpiry_owned owned
    dsimp only
    rw [expires, Dev.arbInst_setInst_of (a := (s.dev.arbInst cls inst).expired q now) names]
    exact ⟨rfl, ⟨_, List.mem_append_right _ List.mem_cons_self, rfl⟩, later, rfl⟩
  · dsimp only
    rw [Dev.requestDrop_named named, Dev.arbInst_setInst_of (a := (s.dev.arbInst cls inst).dropped q) names]
    obtain ⟨gone, others⟩ := (s.dev.arbInst cls inst).dropped_owner q
    exact ⟨gone, (s.dev.arbInst cls inst).mem_dropped q, others, rfl⟩

/-! ## The ARB_ registers -/

/-- ARB_SELECT with its three fields written. -/
def Dev.arbPointed (d : Dev) (v : Nat) : Dev :=
  ((d.setFld Off.arbSelect 25 24 (bits v 25 24)).setFld Off.arbSelect 22 16 (bits v 22 16)).setFld Off.arbSelect 4 0 (bits v 4 0)

/-- The snapshot registers with the three counters of a requester. -/
def Dev.arbShown (d : Dev) (c : ArbCount) : Dev :=
  ((d.setReg64 Off.arbGrantsLo c.grants).setReg64 Off.arbWaitLo c.waits).setReg Off.arbLongest c.longest

/-- What a selection shows: the counters of the requester named, or zeros. -/
def Dev.arbNamed (d : Dev) (cls inst req : Nat) : ArbCount := if arbNames cls inst req then d.arbCount cls inst req else {}

theorem Dev.writeFields_arbSelect (d : Dev) (v : Nat) : d.writeFields Off.arbSelect v = d.arbPointed v := by
  have fields : fieldsOf Off.arbSelect = [⟨25, 24, .l, 0⟩, ⟨22, 16, .l, 0⟩, ⟨4, 0, .l, 0⟩] := by decide
  have takes (lo x : Nat) : fieldTakes Off.arbSelect lo x = true := rfl
  simp only [Dev.writeFields, fields, List.foldl_cons, List.foldl_nil, Dev.fieldNext, takes, if_true, Dev.arbPointed]

theorem Dev.arbPointed_selected (d : Dev) (v : Nat) :
    (d.arbPointed v).arbSelected = (bits v 25 24, bits v 22 16, bits v 4 0) := by
  have cls : (d.arbPointed v).fld Off.arbSelect 25 24 = bits v 25 24 := by
    rw [Dev.arbPointed, Dev.fld_setFld_above _ _ _ (by decide) (by decide) (by decide),
      Dev.fld_setFld_above _ _ _ (by decide) (by decide) (by decide), Dev.fld_setFld_same _ _ _ _ (by decide),
      Nat.mod_eq_of_lt (bits_lt v 25 24)]
  have inst : (d.arbPointed v).fld Off.arbSelect 22 16 = bits v 22 16 := by
    rw [Dev.arbPointed, Dev.fld_setFld_above _ _ _ (by decide) (by decide) (by decide),
      Dev.fld_setFld_same _ _ _ _ (by decide), Nat.mod_eq_of_lt (bits_lt v 22 16)]
  have req : (d.arbPointed v).fld Off.arbSelect 4 0 = bits v 4 0 := by
    rw [Dev.arbPointed, Dev.fld_setFld_same _ _ _ _ (by decide), Nat.mod_eq_of_lt (bits_lt v 4 0)]
  rw [Dev.arbSelected, cls, inst, req]

theorem Dev.onlyRegs_arbPointed (d : Dev) (v : Nat) : d.OnlyRegs (d.arbPointed v) :=
  ((d.onlyRegs_setReg _ _).trans (Dev.onlyRegs_setReg _ _ _)).trans (Dev.onlyRegs_setReg _ _ _)

theorem Dev.arbPointed_counts (d : Dev) (v : Nat) : (d.arbPointed v).arb.counts = d.arb.counts :=
  congrArg (·.arb.counts) (d.onlyRegs_arbPointed v)

/-- ARB_SELECT shows the counters of the requester that its fields name (R242). -/
theorem Dev.arbSelect_eq (d : Dev) (v : Nat) :
    d.arbSelect v = (d.arbPointed v).arbShown (d.arbNamed (bits v 25 24) (bits v 22 16) (bits v 4 0)) := by
  unfold Dev.arbSelect
  rw [d.writeFields_arbSelect v]
  dsimp only
  rw [Dev.arbPointed_selected, Dev.arbCount_congr (d.arbPointed_counts v)]
  rfl

theorem Dev.arbShown_selected (d : Dev) (c : ArbCount) : (d.arbShown c).arbSelected = d.arbSelected := by
  have stands : (d.arbShown c).reg Off.arbSelect = d.reg Off.arbSelect := by
    rw [Dev.arbShown, Dev.reg_setReg_other _ _ (by decide), Dev.reg_setReg64_other _ _ (by decide) (by decide),
      Dev.reg_setReg64_other _ _ (by decide) (by decide)]
  simp only [Dev.arbSelected, Dev.fld, stands]

theorem Dev.arbShown_grants (d : Dev) (c : ArbCount) : (d.arbShown c).reg64 Off.arbGrantsLo = c.grants % 2 ^ 64 := by
  have stands {o : Nat} (wait : o ≠ Off.arbWaitLo) (high : o ≠ Off.arbWaitLo + 4) (longest : o ≠ Off.arbLongest) :
      (d.arbShown c).reg o = (d.setReg64 Off.arbGrantsLo c.grants).reg o := by
    rw [Dev.arbShown, Dev.reg_setReg_other _ _ longest, Dev.reg_setReg64_other _ _ wait high]
  rw [Dev.reg64_congr (stands (by decide) (by decide) (by decide)) (stands (by decide) (by decide) (by decide)),
    Dev.reg64_setReg64]

theorem Dev.arbShown_waits (d : Dev) (c : ArbCount) : (d.arbShown c).reg64 Off.arbWaitLo = c.waits % 2 ^ 64 := by
  rw [Dev.arbShown, Dev.reg64_congr (Dev.reg_setReg_other _ _ (by decide)) (Dev.reg_setReg_other _ _ (by decide)),
    Dev.reg64_setReg64]

theorem Dev.arbShown_longest (d : Dev) (c : ArbCount) : (d.arbShown c).reg Off.arbLongest = c.longest % 2 ^ 32 :=
  Dev.reg_setReg_same _ _ _

theorem Dev.onlyRegs_arbSelect (d : Dev) (v : Nat) : d.OnlyRegs (d.arbSelect v) := by
  rw [Dev.arbSelect_eq]
  exact (((d.onlyRegs_arbPointed v).trans (Dev.onlyRegs_setReg64 _ _ _)).trans (Dev.onlyRegs_setReg64 _ _ _)).trans
    (Dev.onlyRegs_setReg _ _ _)

theorem arbRegisterCommands : Clause.ArbRegisterCommands := by
  unfold Clause.ArbRegisterCommands
  intro s runs
  refine ⟨fun v => ?_, ?_, ?_⟩
  · rw [exec_arbSelect, execArbSelect, hostWrite_running _ runs]
    refine ⟨_, rfl, ?_, ?_, ?_, ?_, congrArg (fun d => { s with dev := d }) (s.dev.onlyRegs_arbSelect v.toNat)⟩
    all_goals dsimp only; rw [Dev.arbSelect_eq]
    · rw [Dev.arbShown_selected, Dev.arbPointed_selected]
    · exact Dev.arbShown_grants _ _
    · exact Dev.arbShown_waits _ _
    · exact Dev.arbShown_longest _ _
  · rw [exec_arbClearAll, execArbClearAll, hostWrite_running _ runs]
    exact ⟨_, rfl, fun cls inst req => ⟨rfl, rfl, rfl⟩, (Dev.reg_setReg_other _ _ (by decide)).trans (Dev.reg_setReg_same _ _ _),
      Dev.reg_setReg_same _ _ _, rfl⟩
  · rw [exec_arbClearSelected, execArbClearSelected, hostWrite_running _ runs]
    exact ⟨_, rfl, s.dev.arbCount_drop _ _ _, rfl⟩

end Sys2Proof.Machine

/-- Settles O3: the arbiter's winner is of the highest rank present and the first after the one last granted; an owned resource
is granted to nobody, and the ARB_ commands write counters and registers alone. -/
theorem arbitersGrantByRank : Obligations.ArbitersGrantByRank := by
  unfold Obligations.ArbitersGrantByRank
  exact ⟨Sys2Proof.Machine.arbiterGrantsHighestRank, Sys2Proof.Machine.arbiterGrantLasts,
    Sys2Proof.Machine.arbRegisterCommands⟩

end

section
/-! PROOFS. The tests of a walk, and what the end of a walk leaves of the caches and of the fault records (R216, R217, R226,
R227). -/

namespace Sys2Proof.Machine

/-! ## Entries of page tables (R215) -/

/-- The fields of a valid entry: its kind (0 a table, 1 a leaf), its address in device memory, and a leaf's WRITE and KV; the
reserved fields are 0. -/
structure EntryReads (e kind addr : Nat) (write kv : Bool) : Prop where
  valid : e.testBit 0 = true
  kind : bits e 2 1 = kind
  write : e.testBit 3 = write
  granule : e.testBit 4 = false
  kv : e.testBit 5 = kv
  low : bits e 11 6 = 0
  addr : bits e 51 12 * 4096 = addr
  mid : bits e 59 52 = 0
  target : bits e 61 60 = 0
  high : bits e 63 62 = 0

theorem tableBits_reads {addr : Nat} (aligned : addr % 4096 = 0) (range : addr < 2 ^ 40) :
    EntryReads (tableBits addr false) 0 addr false false := by
  have e : tableBits addr false = 1 + addr := rfl
  rw [e]
  constructor
  all_goals simp only [bits, Nat.testBit_eq_decide_div_mod_eq, decide_eq_true_eq, decide_eq_false_iff_not]; omega

theorem leafBits_reads {addr : Nat} (aligned : addr % 4096 = 0) (range : addr < 2 ^ 40) (write kv : Bool) :
    EntryReads (leafBits 0 addr write kv) 1 addr write kv := by
  have e : leafBits 0 addr write kv = 3 + 8 * write.toNat + 32 * kv.toNat + addr := by
    unfold leafBits
    cases write <;> cases kv <;> simp <;> omega
  have w := write.toNat_lt
  have k := kv.toNat_lt
  rw [e]
  constructor
  case write => 
    simp only [Nat.testBit_eq_decide_div_mod_eq]
    have : (3 + 8 * write.toNat + 32 * kv.toNat + addr) / 2 ^ 3 % 2 = write.toNat := by omega
    rw [this]
    cases write <;> rfl
  case kv => 
    simp only [Nat.testBit_eq_decide_div_mod_eq]
    have : (3 + 8 * write.toNat + 32 * kv.toNat + addr) / 2 ^ 5 % 2 = kv.toNat := by omega
    rw [this]
    cases kv <;> rfl
  all_goals simp only [bits, Nat.testBit_eq_decide_div_mod_eq, decide_eq_true_eq, decide_eq_false_iff_not]; omega

/-! ## The levels of a walk (R216) -/

section
variable {d : Dev} (clean : d.upsets = []) (r : Reader) (space va : Nat) (write : Bool)
include clean

/-- Over memory without stored errors a walk changes nothing. -/
theorem Dev.walkFrom_clean (fuel table level : Nat) (g : Bool) : (d.walkFrom r space va write fuel table level g).2 = d := by
  induction fuel generalizing table level g with
  | zero => rfl
  | succ fuel ih =>
    unfold Dev.walkFrom
    rw [Dev.readPa_clean _ _ _ clean]
    dsimp only
    split
    · rfl
    split
    · rfl
    split
    · split
      · rfl
      · exact ih _ _ _
    · split
      · rfl
      · split <;> rfl

/-- An invalid entry is NOT_MAPPED. -/
theorem Dev.walkFrom_invalid {table level : Nat} (invalid : (d.getEntry (table + 8 * tableIndex level false va)).testBit 0 = false)
    (fuel : Nat) : d.walkFrom r space va write (fuel + 1) table level false =
      (.fault ⟨1, level, d.getEntry (table + 8 * tableIndex level false va), va, write, false⟩, d) := by
  unfold Dev.walkFrom
  rw [Dev.readPa_clean _ _ _ clean]
  unfold Dev.getEntry at *
  simp only [invalid, Bool.not_false, if_true]

/-- A valid table entry leads to its table. -/
theorem Dev.walkFrom_table {table level addr : Nat}
    (reads : EntryReads (d.getEntry (table + 8 * tableIndex level false va)) 0 addr false false)
    (place : tablePlace addr 4096 = true) (upper : level ≠ 3) (fuel : Nat) :
    d.walkFrom r space va write (fuel + 1) table level false = d.walkFrom r space va write fuel addr (level + 1) false := by
  obtain ⟨valid, kind, writes, granule, kv, low, address, mid, target, high⟩ := reads
  unfold Dev.getEntry at *
  rw [Dev.walkFrom, Dev.readPa_clean _ _ _ clean]
  simp [valid, kind, writes, granule, kv, low, mid, target, high, address, upper, tableBytes, place]

/-- A valid 2 MiB leaf of device memory is the translation, but for a write that it does not allow. -/
theorem Dev.walkFrom_leaf {table addr : Nat} {writable kv : Bool}
    (reads : EntryReads (d.getEntry (table + 8 * tableIndex 2 false va)) 1 addr writable kv) (aligned : addr % 2 ^ 21 = 0)
    (place : inOneMemory addr (2 ^ 21) = true) (fuel : Nat) :
    d.walkFrom r space va write (fuel + 1) table 2 false =
      (if write && !writable then .fault ⟨2, 2, d.getEntry (table + 8 * tableIndex 2 false va), va, write, false⟩
      else .ok ⟨space, va / 2 ^ 21 * 2 ^ 21, 2 ^ 21, 0, addr, writable, kv⟩, d) := by
  obtain ⟨valid, kind, writes, granule, kvs, low, address, mid, target, high⟩ := reads
  unfold Dev.getEntry at *
  rw [Dev.walkFrom, Dev.readPa_clean _ _ _ clean]
  norm_num at aligned place
  cases write <;> cases writable <;>
    simp [valid, kind, writes, granule, kvs, low, mid, target, high, address, pageBytes, aligned, place]

end

/-! ## A walk -/

/-- The count of walks is no root. -/
theorem Dev.root_bump64 {d : Dev} {space : Nat} (range : space < 16) : (d.bump64 Off.mmuWalksLo).root space = d.root space := by
  have lo : (d.bump64 Off.mmuWalksLo).reg (Off.mmuRootLo + 8 * space) = d.reg (Off.mmuRootLo + 8 * space) :=
    Dev.reg_bump64_other _ _ (by unfold Off.mmuRootLo Off.mmuWalksLo; omega) (by unfold Off.mmuRootLo Off.mmuWalksLo; omega)
  have hi : (d.bump64 Off.mmuWalksLo).reg (Off.mmuRootHi + 8 * space) = d.reg (Off.mmuRootHi + 8 * space) :=
    Dev.reg_bump64_other _ _ (by unfold Off.mmuRootHi Off.mmuWalksLo; omega) (by unfold Off.mmuRootHi Off.mmuWalksLo; omega)
  rw [Dev.root, Dev.root, lo, Dev.fld, hi, Dev.fld]

theorem Dev.walk_clean {d : Dev} (clean : d.upsets = []) (r : Reader) (space va : Nat) (write : Bool) :
    (d.walk r space va write).2 = d.bump64 Off.mmuWalksLo := by
  unfold Dev.walk
  dsimp only
  split
  · rfl
  split
  · rfl
  · exact Dev.walkFrom_clean (d := d.bump64 Off.mmuWalksLo) clean _ _ _ _ _ _ _ _

/-- An address above 52 bits (R216). -/
theorem Dev.walk_beyond {d : Dev} {va : Nat} (beyond : 2 ^ 52 ≤ va) (r : Reader) (space : Nat) (write : Bool) :
    d.walk r space va write = (.fault ⟨4, 0, 0, va, write, false⟩, d.bump64 Off.mmuWalksLo) := if_pos beyond

/-- A space without a root (R216). -/
theorem Dev.walk_disabled {d : Dev} {space va : Nat} (range : space < 16) (within : va < 2 ^ 52) (none : d.root space = none)
    (r : Reader) (write : Bool) : (d.walk r space va write).1 = .fault ⟨5, 0, 0, va, write, false⟩ := by
  simp only [Dev.walk, ge_iff_le, Nat.not_le.mpr within, if_false, Dev.root_bump64 range, none]

/-- A walk from the root of a space (R216). -/
theorem Dev.walk_root {d : Dev} {space va root : Nat} (range : space < 16) (within : va < 2 ^ 52) (enabled : d.root space = some root)
    (r : Reader) (write : Bool) :
    d.walk r space va write = (d.bump64 Off.mmuWalksLo).walkFrom r space va write 4 root 0 false := by
  simp only [Dev.walk, ge_iff_le, Nat.not_le.mpr within, if_false, Dev.root_bump64 range, enabled]


theorem walkTestsInOrder : Clause.WalkTestsInOrder := by
  unfold Clause.WalkTestsInOrder
  intro d r space va write clean range entry
  refine ⟨Dev.walk_clean clean r space va write, fun beyond => ?_, fun within none => Dev.walk_disabled range within none r write,
    fun t0 within enabled => ?_⟩
  · rw [Dev.walk_beyond beyond]
  rw [Dev.walk_root range within enabled]
  have counted : (d.bump64 Off.mmuWalksLo).upsets = [] := clean
  have stands (table i : Nat) : entry table i = (d.bump64 Off.mmuWalksLo).getEntry (table + 8 * i) := rfl
  generalize d.bump64 Off.mmuWalksLo = c at counted stands ⊢
  have index0 : tableIndex 0 false va = bits va 51 39 := rfl
  have index1 : tableIndex 1 false va = bits va 38 30 := rfl
  have index2 : tableIndex 2 false va = bits va 29 21 := rfl
  simp only [stands, ← index0, ← index1, ← index2]
  refine ⟨fun invalid => ?_, fun t1 t2 a entry0 aligned1 range1 place1 entry1 aligned2 range2 place2 aligned rangeA place => ?_⟩
  · rw [Dev.walkFrom_invalid counted _ _ _ _ invalid]
  have first := tableBits_reads aligned1 (by omega)
  have second := tableBits_reads aligned2 range2
  rw [← entry0] at first
  rw [← entry1] at second
  rw [Dev.walkFrom_table counted _ _ _ _ first place1 (by decide), Dev.walkFrom_table counted _ _ _ _ second place2 (by decide)]
  have reads (writable kv : Bool) := leafBits_reads (addr := a) (by omega) rangeA writable kv
  refine ⟨fun kv leaf => ?_, fun kv leaf writes => ?_⟩
  · have third := reads true kv
    rw [← leaf] at third
    rw [Dev.walkFrom_leaf counted _ _ _ _ third aligned place, Bool.not_true, Bool.and_false]
    rfl
  · have third := reads false kv
    rw [← leaf] at third
    rw [Dev.walkFrom_leaf counted _ _ _ _ third aligned place, leaf, writes]
    rfl

/-! ## The caches (R217) -/

theorem Dev.cacheTlb_room {d : Dev} (room : d.mmu.tlb.length < cacheSize) (x : Tlb) :
    d.cacheTlb x = { d with mmu := { d.mmu with tlb := d.mmu.tlb ++ [x] } } := if_pos room

/-- Full caches put a translation in the place of one of theirs. -/
theorem Dev.cacheTlb_full {d : Dev} (full : cacheSize ≤ d.mmu.tlb.length) (x : Tlb) :
    ∃ i < d.mmu.tlb.length, d.cacheTlb x =
      { d with fresh := d.fresh + 1, mmu := { d.mmu with tlb := d.mmu.tlb.eraseIdx i ++ [x] } } :=
  ⟨_, Nat.mod_lt _ (Nat.lt_of_lt_of_le (by decide) full), if_neg (Nat.not_lt.mpr full)⟩

/-- What a translation that enters the caches leaves: it is there, beside others that were, and nothing else but the free values
drawn has changed. -/
theorem Dev.cacheTlb_holds (d : Dev) (x : Tlb) : x ∈ (d.cacheTlb x).mmu.tlb ∧
    (∀ y ∈ (d.cacheTlb x).mmu.tlb, y = x ∨ y ∈ d.mmu.tlb) ∧ (d.cacheTlb x).mem = d.mem ∧ (d.cacheTlb x).regs = d.regs ∧
    (cacheSize ≤ d.mmu.tlb.length → (d.cacheTlb x).mmu.tlb.length = d.mmu.tlb.length) := by
  have last {l : List Tlb} : x ∈ l ++ [x] := List.mem_append_right _ List.mem_cons_self
  by_cases room : d.mmu.tlb.length < cacheSize
  · rw [Dev.cacheTlb_room room]
    refine ⟨last, fun y there => ?_, rfl, rfl, fun full => absurd room (Nat.not_lt.mpr full)⟩
    exact (List.mem_append.mp there).symm.imp_left List.mem_singleton.mp
  · obtain ⟨i, place, cached⟩ := Dev.cacheTlb_full (Nat.not_lt.mp room) x
    rw [cached]
    refine ⟨last, fun y there => ?_, rfl, rfl, fun _ => ?_⟩
    · exact (List.mem_append.mp there).symm.imp List.mem_singleton.mp List.mem_of_mem_eraseIdx
    · rw [List.length_append, List.length_eraseIdx_of_lt place, List.length_singleton]
      omega

/-! ## Fault records (R226, R227) -/

theorem mem_of_look {α : Type} {l : List (Nat × α)} {k : Nat} {v : α} (h : look l k = some v) : (k, v) ∈ l := by
  induction l with
  | nil => cases h
  | cons a l ih =>
    obtain ⟨k', v'⟩ := a
    unfold look at h
    split at h
    · next same =>
      cases same
      cases h
      exact List.mem_cons_self
    · exact List.mem_cons_of_mem _ (ih h)

/-- A record as the slot that has been free longest takes it. -/
def FaultRec.stamped (f : FaultRec) (d : Dev) : FaultRec := { f with seq := (d.mmu.seq + 1) % 2 ^ 32, ts := d.now }

theorem Dev.recordFault_mmu {d : Dev} {k : Nat} {rest : List Nat} (free : d.mmu.slotOrder = k :: rest) (f : FaultRec) :
    (d.recordFault f).mmu = { d.mmu with
      seq := (d.mmu.seq + 1) % 2 ^ 32
      faults := put d.mmu.faults k (f.stamped d)
      slotOrder := if f.outcome ≠ 0 then rest ++ [k] else rest } := by
  unfold Dev.recordFault
  rw [free]
  rfl

/-- A record sets MMU_STATUS.FAULT. -/
theorem Dev.bitAt_recordFault {d : Dev} {k : Nat} {rest : List Nat} (free : d.mmu.slotOrder = k :: rest) (f : FaultRec) :
    (d.recordFault f).bitAt Off.mmuStatus 2 = true := by
  unfold Dev.recordFault
  rw [free]
  dsimp only
  rw [Dev.bitAt, Dev.reg_setReg_other _ _ (by decide)]
  exact Dev.bitAt_setBit_same _ _ (by decide)

/-- A record changes registers and Damson's part alone. -/
theorem Dev.recordFault_frame (d : Dev) (f : FaultRec) :
    d.recordFault f = { d with regs := (d.recordFault f).regs, mmu := (d.recordFault f).mmu } := by
  unfold Dev.recordFault
  split <;> rfl

/-- A pending record stops its task (R226). -/
theorem Dev.stopped_of_pending {d : Dev} {k : Nat} {f : FaultRec} (there : look d.mmu.faults k = some f)
    (pending : f.outcome = 0) : d.stopped f.graph f.task = true :=
  List.any_eq_true.mpr ⟨_, mem_of_look there, by simp only [pending, decide_true, Bool.and_self]⟩

/-- The pending record of a fault that Damson may resolve. -/
def FaultInfo.pending (f : FaultInfo) (cls index slot task space request : Nat) : FaultRec :=
  { cause := f.cause, unitClass := cls, unitIndex := index, write := f.write, level := f.level, space := space, address := f.va
    entry := f.entry, graph := slot, task := task, request := request }

theorem Dev.unitFault_pending {d : Dev} {cls index : Nat} {f : FaultInfo} (resolvable : f.cause = 1 ∨ f.cause = 2)
    (holds : d.unitHolds cls index = false) (slot task space : Nat) : d.unitFault cls index slot task space f =
      d.recordFault (f.pending cls index slot task space (d.taskRequest slot task)) := by
  simp only [Dev.unitFault, resolvable, holds, decide_true, Bool.and_false, Bool.false_eq_true, if_false, if_true]
  rfl

/-! ## WALK_COMPLETE -/

section
variable {d e : Dev} {cls index space va slot task : Nat} {write : Bool} (unit : d.unitTask cls index = some (slot, task))
  (runs : d.stopped slot task = false)
include unit runs

theorem Dev.walkComplete_translates {x : Tlb} (walk : d.walk (d.reader cls index slot task) space va write = (.ok x, e)) :
    d.walkComplete cls index space va write = e.cacheTlb x := by
  simp only [Dev.walkComplete, unit, runs, walk, Bool.false_eq_true, if_false]

theorem Dev.walkComplete_faults {f : FaultInfo} (walk : d.walk (d.reader cls index slot task) space va write = (.fault f, e)) :
    d.walkComplete cls index space va write = e.unitFault cls index slot task space f := by
  simp only [Dev.walkComplete, unit, runs, walk, Bool.false_eq_true, if_false]

end

theorem walksEnd : Clause.WalksEnd := by
  unfold Clause.WalksEnd
  intro s cls index space va slot task write unit runs
  refine ⟨fun x d walk => ?_, fun f d k rest walk resolvable holds free => ?_⟩
  · obtain ⟨there, others, mem, regs, full⟩ := d.cacheTlb_holds x
    rw [exec_walkComplete, execWalkComplete, lift_eq, Dev.walkComplete_translates unit runs walk]
    exact ⟨_, rfl, there, others, mem, regs, fun room => by rw [Dev.cacheTlb_room room], full⟩
  · rw [exec_walkComplete, execWalkComplete, lift_eq, Dev.walkComplete_faults unit runs walk,
      Dev.unitFault_pending resolvable holds]
    generalize record : f.pending cls index slot task space (d.taskRequest slot task) = p
    have pending : p.outcome = 0 := by rw [← record]; rfl
    have kept := d.recordFault_frame p
    have mmu := Dev.recordFault_mmu free p
    have there : look (d.recordFault p).mmu.faults k = some (p.stamped d) := by rw [mmu]; exact look_put_same _ _ _
    have stops := Dev.stopped_of_pending there pending
    refine ⟨_, rfl, ⟨_, there, ?_⟩, ?_, ?_, ?_, Dev.bitAt_recordFault free p, ?_⟩
    · rw [← record]
      exact ⟨rfl, rfl, rfl, rfl, rfl, rfl, rfl, rfl, rfl, rfl, rfl, rfl⟩
    · rw [← record] at stops ⊢
      exact stops
    · exact congrArg (·.tlb) mmu
    · refine (congrArg (·.slotOrder) mmu).trans (if_neg ?_)
      exact not_not.mpr pending
    · exact congrArg (·.mem) kept

end Sys2Proof.Machine

/-- Settles O10: a walk goes from entry to entry, each read by its fields; its end puts the translation into the caches or leaves
a pending record. -/
theorem walksTestAndEnd : Obligations.WalksTestAndEnd := by
  unfold Obligations.WalksTestAndEnd
  exact ⟨Sys2Proof.Machine.walkTestsInOrder, Sys2Proof.Machine.walksEnd⟩

end

section
/-! PROOFS. What the failure of a graph leaves of faults and of DMA: the records resolved before it, the time, and the registers of
the MMU and the DMA engines (R226-R230, R240, R241). -/

namespace Sys2Proof.Machine

/-! ## Changes of tiles, as a frame -/

/-- Between `d` and `d'` tiles and their banks changed: at most registers, memory, the plane, Currant, calibration, the recorder,
interrupts and the free values drawn differ. -/
def Dev.AmongTiles (d d' : Dev) : Prop :=
  d' = { d with
    fresh := d'.fresh, regs := d'.regs, mem := d'.mem, upsets := d'.upsets, pln := d'.pln, cur := d'.cur, cal := d'.cal
    evr := d'.evr, env := d'.env }

theorem Dev.AmongTiles.refl (d : Dev) : d.AmongTiles d := rfl

theorem Dev.AmongTiles.trans {a b c : Dev} (h : a.AmongTiles b) (k : b.AmongTiles c) : a.AmongTiles c :=
  Eq.trans k (congrArg (fun x : Dev => { x with
    fresh := c.fresh, regs := c.regs, mem := c.mem, upsets := c.upsets, pln := c.pln, cur := c.cur, cal := c.cal
    evr := c.evr, env := c.env }) h)

theorem Dev.AmongTiles.foldl {α : Type} {f : Dev → α → Dev} (hf : ∀ (d : Dev) (a : α), d.AmongTiles (f d a)) (l : List α)
    (d : Dev) : d.AmongTiles (l.foldl f d) := by
  induction l generalizing d with
  | nil => exact .refl d
  | cons a l ih => exact (hf d a).trans (ih _)

theorem Dev.Looked.amongTiles {d d' : Dev} (h : d.Looked d') : d.AmongTiles d' := by
  rw [h]
  rfl

theorem Dev.amongTiles_setReg (d : Dev) (o v : Nat) : d.AmongTiles (d.setReg o v) := rfl

theorem Dev.amongTiles_modPhys (d : Dev) (p : Nat) (f : PhysTile → PhysTile) : d.AmongTiles (d.modPhys p f) := rfl

theorem Dev.amongTiles_setPhysState (d : Dev) (p : Nat) (st : TileState) : d.AmongTiles (d.setPhysState p st) := by
  unfold Dev.setPhysState
  dsimp only
  split <;> rfl

theorem Dev.amongTiles_modLog (d : Dev) (l : Nat) (f : LogTile → LogTile) : d.AmongTiles (d.modLog l f) := by
  unfold Dev.modLog
  split <;> rfl

theorem Dev.amongTiles_markEpoch (d : Dev) (l : Nat) : d.AmongTiles (d.markEpoch l) := d.amongTiles_modLog _ _

theorem Dev.amongTiles_abandonPass (d : Dev) (p : Nat) : d.AmongTiles (d.abandonPass p) := by
  rw [d.abandonPass_frame p]
  rfl

theorem Dev.amongTiles_freePhys (d : Dev) (p : Nat) : d.AmongTiles (d.freePhys p) :=
  (((d.amongTiles_abandonPass p).trans (Dev.amongTiles_modPhys _ _ _)).trans (Dev.amongTiles_setPhysState _ _ _)).trans
    (Dev.amongTiles_modPhys _ _ _)

/-- A tile becomes SUSPECT, and its pass is due. -/
theorem Dev.amongTiles_suspect (d : Dev) (l p : Nat) :
    d.AmongTiles ((((d.setPhysState p .suspect).modPhys p fun x => { x with attempts := 0 }).makePending p 2).markEpoch l) :=
  (((d.amongTiles_setPhysState p .suspect).trans (Dev.amongTiles_modPhys _ _ _)).trans
    (Dev.amongTiles_modPhys _ _ _)).trans (Dev.amongTiles_modLog _ _ _)

theorem Dev.amongTiles_applyBank (d : Dev) (p : Nat) : d.AmongTiles (d.applyBank p) := by
  unfold Dev.applyBank
  extract_lets tile zeroed banked
  have base : d.AmongTiles banked :=
    .trans (b := zeroed) rfl ((zeroed.amongTiles_setReg _ _).trans ((Dev.amongTiles_setReg _ _ _).trans
      (Dev.amongTiles_setReg _ _ _)))
  clear_value banked
  split
  · exact base
  split
  · exact base
  split
  · next l _ _ _ _ _ =>
    have marked := base.trans (banked.amongTiles_markEpoch l)
    dsimp only
    split
    · exact marked.trans (Dev.amongTiles_setPhysState _ _ _)
    · exact marked
  split
  · exact base.trans ((Dev.amongTiles_setPhysState _ _ _).trans (Dev.amongTiles_modLog _ _ _))
  · exact base

theorem Dev.amongTiles_applyChange (d : Dev) (l : Nat) (c : TileChange) : d.AmongTiles (d.applyChange l c) := by
  unfold Dev.applyChange
  split
  · rfl
  next t _ =>
  dsimp only
  cases c with
  | toSuspect =>
    dsimp only
    split
    · split
      · exact d.amongTiles_suspect _ _
      · rfl
    · rfl
  | calSuspect =>
    dsimp only
    split
    · split
      · exact (d.amongTiles_suspect _ _).trans
          (((Dev.looked_bump _ _ _).trans (Dev.looked_setBit _ _ _)).trans (Dev.looked_event _ _ _)).amongTiles
      · rfl
    · rfl
  | refresh =>
    dsimp only
    split
    · next p _ =>
      have turned : d.AmongTiles (if (d.phys p).state = .ready then
          (((d.setPhysState p .suspect).modPhys p fun x => { x with attempts := 0 }).makePending p 2).markEpoch l else d) := by
        split
        · exact d.amongTiles_suspect _ _
        · rfl
      generalize (if (d.phys p).state = .ready then _ else d) = d' at turned ⊢
      split
      · exact turned.trans rfl
      · exact turned
    · rfl
  | toReady =>
    dsimp only
    split
    · split
      · exact ((d.amongTiles_setPhysState _ _).trans (Dev.amongTiles_applyBank _ _)).trans (Dev.amongTiles_modLog _ _ _)
      · rfl
    · rfl
  | toDigital =>
    refine .trans (.trans ?_ (Dev.amongTiles_modLog _ _ _)) (Dev.amongTiles_modLog _ _ _)
    split
    · split
      · rfl
      · exact d.amongTiles_freePhys _
    · rfl
  | remap =>
    dsimp only
    split
    · exact .trans (.trans (b := { d with cur := { d.cur with mirrorStale := true } }) rfl (Dev.amongTiles_modLog _ _ _))
        (Dev.amongTiles_modLog _ _ _)
    · rfl
  | damaged => exact d.amongTiles_modLog _ _

theorem Dev.amongTiles_applyHeld (d : Dev) (ls : List Nat) : d.AmongTiles (d.applyHeld ls) := by
  unfold Dev.applyHeld
  extract_lets due advanced
  split
  · rfl
  · refine .trans (b := advanced) ?_
      (.foldl (fun d x => (d.amongTiles_applyChange _ _).trans (Dev.amongTiles_modLog _ _ _)) _ _)
    show d.AmongTiles (if _ then _ else _)
    split <;> rfl

/-! ## Faults stand -/

/-- A register of the MMU or of the DMA engines. -/
@[reducible] def faultBlock (o : Nat) : Prop := o / 0x10000 = 6 ∨ o / 0x10000 = 7

/-- Between `d` and `d'` no time passed, the records that were resolved stand, and so do the registers of the MMU and of the DMA
engines. -/
structure Dev.FaultsStand (d d' : Dev) : Prop where
  now : d'.now = d.now
  reg : ∀ o, faultBlock o → d'.reg o = d.reg o
  resolved : ∀ k f, look d.mmu.faults k = some f → f.outcome ≠ 0 → look d'.mmu.faults k = some f

theorem Dev.FaultsStand.refl (d : Dev) : d.FaultsStand d := ⟨rfl, fun _ _ => rfl, fun _ _ there _ => there⟩

theorem Dev.FaultsStand.trans {a b c : Dev} (h : a.FaultsStand b) (k : b.FaultsStand c) : a.FaultsStand c where
  now := k.now.trans h.now
  reg o block := (k.reg o block).trans (h.reg o block)
  resolved i f there done := k.resolved i f (h.resolved i f there done) done

theorem Dev.FaultsStand.foldl {α : Type} {f : Dev → α → Dev} (hf : ∀ (d : Dev) (a : α), d.FaultsStand (f d a)) (l : List α)
    (d : Dev) : d.FaultsStand (l.foldl f d) := by
  induction l generalizing d with
  | nil => exact .refl d
  | cons a l ih => exact (hf d a).trans (ih _)

/-- What touches neither time nor Damson's part. -/
theorem Dev.FaultsStand.of_parts {d d' : Dev} (now : d'.now = d.now) (mmu : d'.mmu = d.mmu)
    (reg : ∀ o, faultBlock o → d'.reg o = d.reg o) : d.FaultsStand d' :=
  ⟨now, reg, fun _ _ there _ => by rw [mmu]; exact there⟩

theorem Dev.Kept.faultsStand {d d' : Dev} (h : d.Kept d') (mmu : d'.mmu = d.mmu) : d.FaultsStand d' :=
  .of_parts h.now mmu fun o block => h.reg o (by omega) (by omega) (by omega)

theorem Dev.Told.mmu {d d' : Dev} (h : d.Told d') : d'.mmu = d.mmu := by rw [h]

theorem Dev.Looked.mmu {d d' : Dev} (h : d.Looked d') : d'.mmu = d.mmu := by rw [h]

theorem Dev.faultsStand_event (d : Dev) (c : Nat) (e : EventRec) : d.FaultsStand (d.event c e) :=
  .of_parts (d.event_now _ _) (d.event_mmu _ _) fun o block => d.reg_event c e (by omega)

/-! ## Requests whose run failed -/

theorem Dev.faultsStand_writePa (d : Dev) (pa : Nat) (l : List Byte) : d.FaultsStand (d.writePa pa l) :=
  .of_parts rfl rfl fun _ _ => rfl

theorem Dev.faultsStand_storeCounts (d : Dev) (id : Nat) (toks : List Nat) : d.FaultsStand (d.storeCounts id toks) := by
  unfold Dev.storeCounts
  split
  · exact .refl d
  split
  · exact .refl d
  · exact .foldl (fun d _ => d.faultsStand_writePa _ _) _ d

theorem Dev.faultsStand_rollbackRequest (d : Dev) (id q k : Nat) : d.FaultsStand (d.rollbackRequest id q k) := by
  unfold Dev.rollbackRequest
  split
  · exact .refl d
  split
  · exact .refl d
  · have counted : d.FaultsStand (d.rollTo id q k) :=
      .trans (b := d.modRequest id _) (.of_parts rfl rfl fun _ _ => rfl)
        (.trans (Dev.faultsStand_storeCounts _ _ _) (.of_parts rfl rfl fun _ _ => rfl))
    exact counted.trans ((Dev.kept_noticeAll _ _ _ _).faultsStand (Dev.told_noticeAll _ _ _ _).mmu)

theorem Dev.faultsStand_runFailed (d : Dev) (tmpl slot status : Nat) : d.FaultsStand (d.runFailed tmpl slot status) := by
  unfold Dev.runFailed
  split
  · exact .refl d
  · extract_lets draft rows counted srv cleared
    have kept : d.Kept counted := (d.kept_bump 1 (.inl rfl)).trans (Dev.kept_setBit _ 1 (.inl rfl))
    refine .trans (b := cleared) (.trans (kept.faultsStand rfl) (.of_parts rfl rfl fun _ _ => rfl)) (.foldl (fun d id => ?_) _ _)
    split
    · exact .refl d
    dsimp only
    split
    · exact (d.kept_endRequest _ _ _).faultsStand (d.told_endRequest _ _ _).mmu
    · exact (d.faultsStand_rollbackRequest _ _ _).trans (.of_parts rfl rfl fun _ _ => rfl)

/-! ## Graphs that fail -/

theorem Dev.discardTasks_mmu (d : Dev) (slot : Nat) : (d.discardTasks slot).mmu = d.mmu := by
  have released (l : List DmaTask) (d : Dev) : (l.foldl (fun d t => d.releaseUnit t.engine) d).mmu = d.mmu := by
    induction l generalizing d with
    | nil => rfl
    | cons t l ih => exact ih _
  exact released _ d

theorem Dev.faultsStand_applyHeld (d : Dev) (ls : List Nat) : d.FaultsStand (d.applyHeld ls) := by
  have among := d.amongTiles_applyHeld ls
  exact .of_parts (by rw [among]) (by rw [among]) fun o block =>
    (d.tilesChanged_applyHeld ls).reg o (by unfold tileBlock; omega)

/-- A resolved record is resolved no second time (R228). -/
theorem Dev.faultsStand_resolveFault (d : Dev) (slot outcome status : Nat) : d.FaultsStand (d.resolveFault slot outcome status) := by
  unfold Dev.resolveFault
  split
  · exact .refl d
  next f there =>
  split
  · next pending =>
    refine ⟨rfl, fun _ _ => rfl, fun k g found done => ?_⟩
    have other : k ≠ slot := by
      rintro rfl
      rw [there] at found
      cases found
      exact done pending
    exact (look_put_other _ _ other).trans found
  · exact .refl d

theorem Dev.faultsStand_finishRun (d : Dev) (slot status : Nat) : d.FaultsStand (d.finishRun slot status) := by
  have completed (d : Dev) (h : Option CmdHdr) (status result : Nat) : d.FaultsStand (match h with
      | some h => d.complete h status result
      | none => d) := by
    split
    · exact (d.kept_complete _ _ _).faultsStand (d.told_complete _ _ _).mmu
    · exact .refl d
  unfold Dev.finishRun
  exact ((completed d _ _ _).trans (completed _ _ _ _)).trans (.of_parts rfl rfl fun _ _ => rfl)

theorem Dev.faultsStand_runStopped (d : Dev) (slot status arg2 : Nat) : d.FaultsStand (d.runStopped slot status arg2) := by
  have aborted := (d.kept_abortColls slot status).faultsStand (d.told_abortColls slot status).mmu
  have discarded := (Dev.kept_discardTasks (d.abortColls slot status) slot).faultsStand (Dev.discardTasks_mmu _ _)
  have closed (e : Dev) : e.FaultsStand (e.closeFaults slot status) := .foldl (fun d _ => d.faultsStand_resolveFault _ _ _) _ e
  have ended := ((aborted.trans discarded).trans (Dev.faultsStand_applyHeld _ (d.tilesNamed slot))).trans (closed _)
  unfold Dev.runStopped
  dsimp only
  split
  · exact (ended.trans (Dev.faultsStand_event _ _ _)).trans (Dev.faultsStand_runFailed _ _ _ _)
  · exact ended.trans (Dev.faultsStand_event _ _ _)

/-- A graph that fails leaves the resolved records of faults, the time, and the registers of the MMU and of the DMA engines as they
are (R230). -/
theorem Dev.faultsStand_failGraph (d : Dev) (slot status arg2 : Nat) : d.FaultsStand (d.failGraph slot status arg2) := by
  by_cases running : (d.slot slot).state = .running
  · rw [Dev.failGraph_running running]
    have stopped := d.faultsStand_runStopped slot status arg2
    dsimp only
    split
    · exact stopped.trans (.of_parts rfl rfl fun _ _ => rfl)
    · exact stopped.trans (Dev.faultsStand_finishRun _ _ _)
  · have idle : d.failGraph slot status arg2 = d := if_pos running
    rw [idle]
    exact .refl d

end Sys2Proof.Machine
end

section
/-! PROOFS. DMA tasks on their engines and the check units they hold: start, wait, error, save and resumption (R220, R222, R224,
R225). -/

namespace Sys2Proof.Machine

/-! ## The task of an engine -/

/-- A task changed on its engine is still the engine's. -/
theorem Dev.dmaTask_modDma {d : Dev} {e : Nat} {t : DmaTask} {f : DmaTask → DmaTask} (on : d.dmaTask e = some t)
    (stays : ∀ t : DmaTask, t.on e = true → (f t).on e = true) : (d.modDma e f).dmaTask e = some (f t) := by
  have same : (fun t : DmaTask => t.on e) ∘ (fun t => if t.on e then f t else t) = (·.on e) := by
    funext t
    by_cases on : t.on e = true
    · simp only [Function.comp_apply, on, if_true, stays]
    · simp only [Function.comp_apply, on, if_false, Bool.false_eq_true]
  unfold Dev.dmaTask at on ⊢
  unfold Dev.modDma
  rw [List.find?_map, same, on, Option.map_some, if_pos (List.find?_some (p := fun t : DmaTask => t.on e) on)]

/-- A task changed so that it leaves its engine leaves it free. -/
theorem Dev.dmaTask_modDma_none (d : Dev) {e : Nat} {f : DmaTask → DmaTask} (leaves : ∀ t : DmaTask, (f t).on e = false) :
    (d.modDma e f).dmaTask e = none := by
  refine List.find?_eq_none.mpr fun u there => ?_
  obtain ⟨t, _, rfl⟩ := List.mem_map.mp there
  by_cases on : t.on e = true
  · simp only [on, if_true, leaves, Bool.false_eq_true, not_false_eq_true]
  · simp only [on, Bool.false_eq_true, if_false, not_false_eq_true]

theorem Dev.dmaTask_on {d : Dev} {e : Nat} {t : DmaTask} (on : d.dmaTask e = some t) : t.engine = e ∧ t.saved = false := by
  have found := List.find?_some on
  simpa [DmaTask.on] using found

theorem Dev.mem_of_dmaTask {d : Dev} {e : Nat} {t : DmaTask} (on : d.dmaTask e = some t) : t ∈ d.dma.tasks :=
  List.mem_of_find?_eq_some on

/-! ## A check unit is taken -/

theorem Dev.crcUnit_modCrc_same {d : Dev} {n : Nat} (there : n < d.crc.length) (f : CrcUnit → CrcUnit) :
    (d.modCrc n f).crcUnit n = f (d.crcUnit n) := by
  simp only [Dev.crcUnit, Dev.modCrc, List.getD_eq_getElem?_getD, upd_get_same, List.getElem?_eq_getElem there,
    Option.map_some, Option.getD_some]

theorem Dev.takeUnit_free {d : Dev} {e : Nat} {t : DmaTask} (on : d.dmaTask e = some t) (checks : t.mode ≠ 0)
    (free : (d.crcUnit t.unit).holder = none) (r : Nat) : d.takeUnit e r =
      (d.modCrc t.unit fun u => { u with holder := some e, r := r }).modDma e fun t => { t with holds := true, waits := false } := by
  simp only [Dev.takeUnit, on, checks, free, if_false, Option.isNone_none, if_true]

/-- A task that asks for its check unit changes in what it holds, waits for and has saved alone. -/
theorem Dev.dmaTask_takeUnit {d : Dev} {e : Nat} {t : DmaTask} (on : d.dmaTask e = some t) (r : Nat) :
    ∃ holds waits savedR, (d.takeUnit e r).dmaTask e = some { t with holds := holds, waits := waits, savedR := savedR } := by
  unfold Dev.takeUnit
  rw [on]
  dsimp only
  split
  · exact ⟨_, _, _, on⟩
  split
  · exact ⟨true, false, t.savedR, Dev.dmaTask_modDma on fun _ on => on⟩
  split
  · exact ⟨_, _, _, on⟩
  · exact ⟨t.holds, true, r, Dev.dmaTask_modDma on fun _ on => on⟩

/-- A task that takes its check unit, free, holds it with the running value. -/
theorem Dev.takeUnit_takes {d : Dev} {e : Nat} {t : DmaTask} (on : d.dmaTask e = some t) (checks : t.mode ≠ 0)
    (there : t.unit < d.crc.length) (free : (d.crcUnit t.unit).holder = none) (r : Nat) :
    ((d.takeUnit e r).crcUnit t.unit).holder = some e ∧ ((d.takeUnit e r).crcUnit t.unit).r = r ∧
      (d.takeUnit e r).dmaTask e = some { t with holds := true, waits := false } := by
  have unit := Dev.crcUnit_modCrc_same there fun u => { u with holder := some e, r := r }
  rw [Dev.takeUnit_free on checks free]
  exact ⟨congrArg (·.holder) unit, congrArg (·.r) unit, Dev.dmaTask_modDma on fun _ on => on⟩

theorem Dev.takeUnit_frame (d : Dev) (e r : Nat) : d.takeUnit e r =
    { d with regs := (d.takeUnit e r).regs, crc := (d.takeUnit e r).crc, dma := (d.takeUnit e r).dma } := by
  unfold Dev.takeUnit
  split
  · rfl
  split
  · rfl
  split
  · rfl
  split <;> rfl

/-! ## A task starts -/

/-- A check that passed with another behind it. -/
theorem Chk.eq_ok_of_thn {α β : Type} {x : Chk α × Dev} {k : α → Dev → Chk β × Dev} {b : β} {d : Dev}
    (h : Chk.thn x k = (.ok b, d)) : ∃ a, k a x.2 = (.ok b, d) := by
  unfold Chk.thn at h
  split at h
  · exact ⟨_, h⟩
  all_goals cases h

theorem eq_of_tests {α : Type} {l : List (Bool × Nat)} {a b : α} {d d' : Dev} (h : tests l a d = (.ok b, d')) : b = a := by
  unfold tests at h
  split at h <;> cases h
  rfl

/-- A task whose body passed its checks holds nothing, waits for nothing and is not saved. -/
theorem checkDma_fresh {l : List Byte} {d d' : Dev} {x : DmaTask} (h : checkDma l d = (.ok x, d')) : x.saved = false := by
  rw [eq_of_tests h]
  rfl

/-- A task appended to the engines', and running. -/
def Dev.withDma (d : Dev) (t : DmaTask) : Dev :=
  ({ d with dma := { d.dma with tasks := d.dma.tasks ++ [t] } }).startTask t.slot t.task

/-- A task on an engine that no other task names is the engine's. -/
theorem Dev.dmaTask_withDma {d : Dev} {e : Nat} {t : DmaTask} (free : ∀ y ∈ d.dma.tasks, y.engine ≠ e) (engine : t.engine = e)
    (fresh : t.saved = false) : (d.withDma t).dmaTask e = some t := by
  have others : d.dma.tasks.find? (·.on e) = none := List.find?_eq_none.mpr fun y there => by
    simp only [DmaTask.on, free y there, decide_false, Bool.false_and, Bool.false_eq_true, not_false_eq_true]
  have on : t.on e = true := by simp only [DmaTask.on, engine, fresh, decide_true, Bool.not_false, Bool.and_self]
  show (d.dma.tasks ++ [t]).find? (·.on e) = some t
  rw [List.find?_append, others, Option.none_or]
  exact List.find?_cons_of_pos on

theorem Dev.dmaStart_ok {d d' : Dev} {fill : Bool} {slot task e : Nat} {x : DmaTask}
    (issued : d.issuedWhere 5 (fun k => (k % 16 == 2) == fill) = some (slot, task)) (engine : d.freeEngine = some e)
    (checked : Chk.thn (d.readBody slot task 64) checkDma = (.ok x, d')) : d.dmaStart fill =
      (d'.withDma { x with engine := e, slot := slot, task := task, space := (d.slot slot).space }).takeUnit e x.init := by
  unfold Dev.dmaStart
  rw [issued, engine]
  exact Dev.act_ok checked _ _ _ _ _ _

theorem exec_dmaStart (fill : Bool) (s : State) :
    exec (if fill then .dmaFill else .dmaCopy) s = .next { s with dev := s.dev.dmaStart fill } := by
  cases fill <;> rfl

/-- DMA_COPY and DMA_FILL (R220, R222). -/
theorem dmaTasksStart : Clause.DmaTasksStart := by
  intro s fill slot task e x d issued engine checked free
  obtain ⟨l, checked'⟩ := Chk.eq_ok_of_thn checked
  have fresh : x.saved = false := checkDma_fresh checked'
  have start := Dev.dmaStart_ok issued engine checked
  set placed : DmaTask := { x with engine := e, slot := slot, task := task, space := (s.dev.slot slot).space }
  have on : (d.withDma placed).dmaTask e = some placed := Dev.dmaTask_withDma free rfl fresh
  have frame := (d.withDma placed).takeUnit_frame e x.init
  obtain ⟨holds, waits, savedR, took⟩ := Dev.dmaTask_takeUnit on x.init
  refine ⟨_, { placed with holds := holds, waits := waits, savedR := savedR }, exec_dmaStart fill s,
    Dev.mem_of_dmaTask (e := e) ?_, rfl, rfl, rfl, rfl, rfl, rfl, rfl, rfl, rfl, rfl, ?_, ?_, fun checks there idle => ?_⟩
  all_goals dsimp only; rw [start]
  · exact took
  · rw [frame]
    rfl
  · rw [frame]
    rfl
  · obtain ⟨holder, r, mine⟩ := Dev.takeUnit_takes on checks there idle x.init
    rw [took] at mine
    exact ⟨congrArg DmaTask.holds (Option.some.inj mine), holder, r⟩

/-! ## An error of the host's memory -/

/-- An engine acts on no task that waits, is held, stopped or marked. -/
theorem Dev.hostAccess_acts {d d' : Dev} {e : Nat} {t : DmaTask} {a : Bool × Bool} (on : d.dmaTask e = some t)
    (running : d.bitAt Off.dmaCtrl 0 = false) (has : t.waits = false) (clear : d.stopped t.slot t.task = false)
    (unmarked : d.marked t.slot t.task = false) (went : d.translateUnit (d.reader 1 e t.slot t.task) t = (.ok a, d'))
    (host : a.1 = true ∨ a.2 = true) : ∃ va write, d.hostAccess e = d'.dmaFault t ⟨6, 0, 0, va, write, false⟩ := by
  have acts : d.hostAccess e = if a.1 then d'.dmaFault t ⟨6, 0, 0, t.src + t.row * t.srcStride + t.pos, false, false⟩
      else if a.2 then d'.dmaFault t ⟨6, 0, 0, t.dst + t.row * t.dstStride + t.outPos, true, false⟩ else d' := by
    simp only [Dev.hostAccess, on, running, has, clear, unmarked, Bool.or_self, Bool.false_eq_true, if_false, went, Dev.dmaAct]
  rw [acts]
  by_cases source : a.1 = true
  · exact ⟨_, _, if_pos source⟩
  · exact ⟨_, _, (if_neg source).trans (if_pos (host.resolve_left source))⟩

/-- A record touches no register of the DMA engines. -/
theorem Dev.reg_recordFault (d : Dev) (f : FaultRec) {o : Nat} (block : o / 0x10000 = 7) : (d.recordFault f).reg o = d.reg o := by
  have other {o' : Nat} (h : o' / 0x10000 = 6) : o ≠ o' := by rintro rfl; omega
  unfold Dev.recordFault
  split
  · rfl
  · dsimp only
    rw [Dev.reg_setReg_other _ _ (other (by decide)), Dev.reg_setBit_other _ _ (other (by decide)),
      Dev.reg_bumpWrap_other _ _ (other (by decide))]
    rfl

/-- A fault of a unit leaves the registers of the DMA engines alone. -/
theorem Dev.reg_unitFault (d : Dev) (cls index slot task space : Nat) (f : FaultInfo) {o : Nat} (block : o / 0x10000 = 7) :
    (d.unitFault cls index slot task space f).reg o = d.reg o := by
  unfold Dev.unitFault
  dsimp only
  split
  · rfl
  split
  · exact d.reg_recordFault _ block
  · rw [(Dev.faultsStand_failGraph _ _ _ _).reg o (.inr block), (Dev.faultsStand_event _ _ _).reg o (.inr block)]
    exact d.reg_recordFault _ block

/-- A PCIe error of an engine is counted, and sets DMA_STATUS bit 1 (R224). -/
theorem Dev.dmaFault_host (d : Dev) (t : DmaTask) (va : Nat) (write : Bool) :
    let d' := d.dmaFault t ⟨6, 0, 0, va, write, false⟩
    d'.bitAt Off.dmaStatus 1 = true ∧ d'.reg Off.dmaHostErrors = min (d.reg Off.dmaHostErrors + 1) 0xFFFFFFFF := by
  have regs {o : Nat} (block : o / 0x10000 = 7) : (d.dmaFault t ⟨6, 0, 0, va, write, false⟩).reg o =
      ((d.bump Off.dmaHostErrors).setBit Off.dmaStatus 1).reg o := Dev.reg_unitFault _ _ _ _ _ _ _ block
  refine ⟨?_, ?_⟩
  · rw [Dev.bitAt, regs (by decide)]
    exact Dev.bitAt_setBit_same _ _ (by decide)
  · rw [regs (by decide), Dev.reg_setBit_other _ _ (by decide), Dev.reg_bump_same]

/-! ## A save and a resumption -/

theorem Dev.holder_releaseUnit (d : Dev) (e : Nat) : ∀ u ∈ (d.releaseUnit e).crc, u.holder ≠ some e := by
  intro u there
  obtain ⟨v, _, rfl⟩ := List.mem_map.mp there
  by_cases held : v.holder = some e
  · simp only [held, if_true, ne_eq, reduceCtorEq, not_false_eq_true]
  · rw [if_neg held]
    exact held

/-- A marked task, with its position and the unit's running value, leaves its engine. -/
theorem Dev.dmaSave_marked {d : Dev} {e : Nat} {t : DmaTask} (on : d.dmaTask e = some t) (mark : d.marked t.slot t.task = true) :
    d.dmaSave e = ((d.releaseUnit e).modDma e fun x => { x with
      saved := true, holds := false, waits := false
      savedR := if t.holds then (d.crcUnit t.unit).r else t.savedR }).unmark t.slot t.task .saved := by
  simp only [Dev.dmaSave, on, mark, Bool.not_true, Bool.false_eq_true, if_false]

/-- The only task of its graph and index that is saved, put back on an engine that is free, is the engine's. -/
theorem Dev.dmaTask_modSaved {d : Dev} {e : Nat} {x : DmaTask} (there : x ∈ d.dma.tasks) (saved : x.saved = true)
    (free : d.dmaTask e = none) (only : ∀ y ∈ d.dma.tasks, y.slot = x.slot → y.task = x.task → y = x) :
    (d.modSaved x.slot x.task fun t => { t with saved := false, engine := e }).dmaTask e =
      some { x with saved := false, engine := e } := by
  set back : DmaTask → DmaTask := fun t =>
    if t.saved && decide (t.slot = x.slot) && decide (t.task = x.task) then { t with saved := false, engine := e } else t 
  have mine : back x = { x with saved := false, engine := e } := by simp only [back, saved, decide_true, Bool.and_self, if_true]
  have others (y : DmaTask) (h : y ∈ d.dma.tasks) (on : (back y).on e = true) : y = x := by
    by_cases hit : (y.saved && decide (y.slot = x.slot) && decide (y.task = x.task)) = true
    · simp only [Bool.and_eq_true, decide_eq_true_eq] at hit
      obtain ⟨⟨_, slot⟩, task⟩ := hit
      exact only y h slot task
    · have kept : back y = y := if_neg hit
      rw [kept] at on
      exact absurd on (List.find?_eq_none.mp free y h)
  show (d.dma.tasks.map back).find? (·.on e) = _
  cases found : (d.dma.tasks.map back).find? (·.on e) with
  | none =>
    have missed := List.find?_eq_none.mp found (back x) (List.mem_map_of_mem there)
    rw [mine] at missed
    exact absurd (by simp only [DmaTask.on, decide_true, Bool.not_false, Bool.and_self]) missed
  | some z =>
    obtain ⟨y, h, rfl⟩ := List.mem_map.mp (List.mem_of_find?_eq_some found)
    rw [others y h (List.find?_some (p := fun t : DmaTask => t.on e) found), mine]

theorem Dev.dmaResume_first {d : Dev} {e slot task : Nat} (free : d.dmaTask e = none)
    (first : d.firstTask ((d.dma.tasks.filter fun t =>
      t.saved && decide (t.engine = e) && d.canResume t.slot t.task).map fun t => (t.slot, t.task)) = some (slot, task)) :
    d.dmaResume e =
      (let back := (d.modSaved slot task fun t => { t with saved := false, engine := e }).setTask slot task .running
       back.takeUnit e (((back.dmaTask e).map (·.savedR)).getD 0)) := by
  have idle : d.dma.tasks.any (·.on e) = false := by
    refine List.any_eq_false.mpr fun t h => ?_
    exact List.find?_eq_none.mp free t h
  simp only [Dev.dmaResume, idle, first, Bool.false_eq_true, if_false]

/-! ## The events of an engine -/

/-- CHECK_UNIT_ACQUIRE, HOST_ACCESS, DMA_SAVE and DMA_RESUME (R222, R224, R225). -/
theorem dmaEngineEvents : Clause.DmaEngineEvents := by
  intro s e x
  refine ⟨fun on => ⟨fun waits checks there free => ?_, fun a d running has clear unmarked went host => ?_, fun mark => ?_⟩,
    fun saved_there saved free only first => ?_⟩
  · have acts : s.dev.checkUnitAcquire e = s.dev.takeUnit e x.savedR := by simp only [Dev.checkUnitAcquire, on, waits, if_true]
    obtain ⟨holder, r, mine⟩ := Dev.takeUnit_takes on checks there free x.savedR
    rw [← acts] at holder r mine
    refine ⟨_, rfl, holder, r, mine, ?_⟩
    dsimp only
    rw [acts, Dev.takeUnit_free on checks free]
    rfl
  · obtain ⟨va, write, acts⟩ := Dev.hostAccess_acts on running has clear unmarked went host
    obtain ⟨flag, counted⟩ := d.dmaFault_host x va write
    rw [← acts] at flag counted
    exact ⟨_, rfl, flag, counted, rfl, rfl, rfl⟩
  · have acts := Dev.dmaSave_marked on mark
    have left : (s.dev.dmaSave e).dmaTask e = none := by
      rw [acts]
      exact Dev.dmaTask_modDma_none _ fun t => Bool.and_false _
    refine ⟨_, rfl, left, ⟨{ x with
        saved := true, holds := false, waits := false, savedR := if x.holds then (s.dev.crcUnit x.unit).r else x.savedR },
      ?_, rfl, rfl, rfl, rfl, rfl, rfl, rfl⟩, ?_, ?_, ?_, ?_⟩
    all_goals dsimp only; rw [acts]
    · refine List.mem_map.mpr ⟨x, Dev.mem_of_dmaTask on, ?_⟩
      rw [if_pos (List.find?_some on)]
    · exact s.dev.holder_releaseUnit e
    all_goals rfl
  · have acts := Dev.dmaResume_first free first
    have back := Dev.dmaTask_modSaved saved_there saved free only
    dsimp only at acts
    generalize running : Dev.setTask _ x.slot x.task .running = on at acts
    replace back : on.dmaTask e = some { x with saved := false, engine := e } := by rw [← running]; exact back
    have crc : on.crc = s.dev.crc := by rw [← running]; rfl
    have mem : on.mem = s.dev.mem := by rw [← running]; rfl
    have host : on.host = s.dev.host := by rw [← running]; rfl
    rw [back, Option.map_some, Option.getD_some] at acts
    have frame := on.takeUnit_frame e x.savedR
    obtain ⟨holds, waits, savedR, took⟩ := Dev.dmaTask_takeUnit back x.savedR
    refine ⟨_, { x with saved := false, engine := e, holds := holds, waits := waits, savedR := savedR }, rfl,
      by dsimp only; rw [acts]; exact took, rfl, rfl, rfl, rfl, rfl, rfl, ?_, ?_, fun checks there idle => ?_⟩
    all_goals dsimp only; rw [acts]
    · rw [frame]
      exact mem
    · rw [frame]
      exact host
    · obtain ⟨holder, r, -⟩ := Dev.takeUnit_takes back checks (crc ▸ there) (by simpa only [Dev.crcUnit, crc] using idle) x.savedR
      exact ⟨holder, r⟩

end Sys2Proof.Machine

/-- Settles O14: the checks of the body leave a task that is not saved, so the engine finds it; DMA_RESUME finds one saved task alone. -/
theorem dmaTasksAndEvents : Obligations.DmaTasksAndEvents := by
  unfold Obligations.DmaTasksAndEvents
  exact ⟨Sys2Proof.Machine.dmaTasksStart, Sys2Proof.Machine.dmaEngineEvents⟩

end

section
/-! PROOFS. A transfer unit of a copy or a fill without a check: what it reads, what it writes, and how its task advances (R215,
R221). -/

namespace Sys2Proof.Machine

/-! ## Accesses of one piece behind a cached translation -/

/-- A range within a 4 KiB page is one piece. -/
theorem pieces_of_one {va n : Nat} (some_bytes : 1 ≤ n) (within : va % 4096 + n ≤ 4096) : pieces va n = [(va, n)] := by
  have page : (va + n - 1) / 4096 - va / 4096 + 1 = 1 := by omega
  have ends : min (va + n) ((va / 4096 + 0 + 1) * 4096) - va = n := by omega
  rw [pieces, if_neg (by omega), page]
  simp only [List.range_one, List.map_cons, List.map_nil, if_true, ends]

theorem Dev.translate_cached {d : Dev} {space va : Nat} {write : Bool} {x : Tlb} (cached : d.cached space va write = some x)
    (r : Reader) : d.translate r space va write = (.ok x, d) := by
  simp only [Dev.translate, cached]

/-- A read of one piece through a cached translation to device memory, without stored errors. -/
theorem Dev.readVa_cached {d : Dev} {space va n : Nat} {x : Tlb} (cached : d.cached space va false = some x) (device : x.target = 0)
    (clean : d.upsets = []) (some_bytes : 1 ≤ n) (within : va % 4096 + n ≤ 4096) (r : Reader) :
    d.readVa r space va n = (.ok (memLoad d.mem (x.pa + (va - x.va)) n), d) := by
  have piece : d.readPiece r space va n = (.ok (memLoad d.mem (x.pa + (va - x.va)) n), d) := by
    rw [Dev.readPiece, Dev.translate_cached cached]
    dsimp only
    rw [if_neg (by omega), Dev.readPa_clean _ _ _ clean]
  simp only [Dev.readVa, pieces_of_one some_bytes within, List.foldl_cons, List.foldl_nil, piece, List.nil_append]

/-- A write of one piece through a cached translation to device memory, without stored errors. -/
theorem Dev.writeVa_cached {d : Dev} {space va : Nat} {l : List Byte} {x : Tlb} (cached : d.cached space va true = some x)
    (device : x.target = 0) (clean : d.upsets = []) (some_bytes : 1 ≤ l.length) (within : va % 4096 + l.length ≤ 4096)
    (r : Reader) : d.writeVa r space va l = (.ok (), { d with mem := memStore d.mem (x.pa + (va - x.va)) l }) := by
  have piece : d.writePiece r space va l = (.ok (), { d with mem := memStore d.mem (x.pa + (va - x.va)) l }) := by
    rw [Dev.writePiece, Dev.translate_cached cached]
    dsimp only
    rw [if_neg (by omega), Dev.partBad_clean _ _ clean, Dev.writePa_clean _ _ clean]
  simp only [Dev.writeVa, pieces_of_one some_bytes within, List.foldl_cons, List.foldl_nil, Nat.sub_self, List.drop_zero,
    List.take_length, piece]

/-! ## The unit of a task without a check -/

/-- A unit without a check moves no check bytes, ends no chunk, and crosses neither its row's end nor a page of its source or
destination. -/
theorem DmaTask.unitBytes_plain {x : DmaTask} (plain : x.mode = 0) :
    x.unitBytes.2 = 0 ∧ x.endsChunk = false ∧ x.unitBytes.1 ≤ x.rowBytes - x.pos ∧
      x.unitBytes.1 ≤ toBoundary (x.dst + x.row * x.dstStride + x.outPos) ∧
      (x.fill = false → x.unitBytes.1 ≤ toBoundary (x.src + x.row * x.srcStride + x.pos)) := by
  have left : x.payLeft = x.rowBytes - x.pos := by simp only [DmaTask.payLeft, plain]
  refine ⟨?_, ?_, ?_, ?_, fun copy => ?_⟩
  · simp only [DmaTask.unitBytes, plain, true_or, if_true]
  · simp only [DmaTask.endsChunk, plain, ne_eq, not_true_eq_false, decide_false, Bool.false_and]
  · simp only [DmaTask.unitBytes, left]
    omega
  · simp only [DmaTask.unitBytes]
    omega
  · simp only [DmaTask.unitBytes, copy, Bool.false_eq_true, if_false]
    omega

theorem within_page {a n : Nat} (h : n ≤ toBoundary a) : a % 4096 + n ≤ 4096 := by
  unfold toBoundary at h
  omega

/-- The bytes that a task's next unit moves: a fill's pattern, or the source's, which lies behind a cached translation. -/
def DmaTask.unitSource (x : DmaTask) (mem : List Host.Cell) (xs : Tlb) : List Byte :=
  if x.fill then (List.range x.unitBytes.1).map fun i => BitVec.ofNat 8 (x.src / 2 ^ (8 * ((x.pos + i) % 8)))
  else memLoad mem (xs.pa + (x.src + x.row * x.srcStride + x.pos - xs.va)) x.unitBytes.1

@[simp] theorem DmaTask.unitSource_length (x : DmaTask) (mem : List Host.Cell) (xs : Tlb) :
    (x.unitSource mem xs).length = x.unitBytes.1 := by
  unfold DmaTask.unitSource
  split
  · rw [List.length_map, List.length_range]
  · exact memLoad_length _ _ _

theorem Dev.translateUnit_cached {d : Dev} {x : DmaTask} {xs xd : Tlb} (plain : x.mode = 0)
    (source : x.fill = false → d.cached x.space (x.src + x.row * x.srcStride + x.pos) false = some xs)
    (dest : d.cached x.space (x.dst + x.row * x.dstStride + x.outPos) true = some xd) (r : Reader) :
    ∃ a, d.translateUnit r x = (.ok a, d) := by
  have written := Dev.translate_cached dest r
  cases fill : x.fill with
  | true =>
    simp only [Dev.translateUnit, fill, plain, true_or, if_true, written, OfNat.zero_ne_ofNat, and_false, if_false]
    exact ⟨_, rfl⟩
  | false =>
    have read := Dev.translate_cached (source fill) r
    simp only [Dev.translateUnit, fill, plain, Bool.false_eq_true, OfNat.zero_ne_ofNat, zero_ne_one, and_false, or_self, if_false,
      read, written]
    exact ⟨_, rfl⟩

theorem Dev.readUnit_cached {d : Dev} {x : DmaTask} {xs : Tlb} (plain : x.mode = 0) (clean : d.upsets = [])
    (some_bytes : 1 ≤ x.unitBytes.1)
    (source : x.fill = false → d.cached x.space (x.src + x.row * x.srcStride + x.pos) false = some xs ∧ xs.target = 0)
    (r : Reader) : d.readUnit r x = (.ok (x.unitSource d.mem xs, []), d) := by
  cases fill : x.fill with
  | true => simp only [Dev.readUnit, DmaTask.unitSource, fill, if_true]
  | false =>
    obtain ⟨cached, device⟩ := source fill
    obtain ⟨-, -, -, -, page⟩ := DmaTask.unitBytes_plain plain
    have read := Dev.readVa_cached cached device clean some_bytes (within_page (page fill)) r
    have whole := memLoad_length d.mem (xs.pa + (x.src + x.row * x.srcStride + x.pos - xs.va)) x.unitBytes.1
    simp only [Dev.readUnit, DmaTask.unitSource, fill, plain, OfNat.zero_ne_ofNat, Bool.false_eq_true, if_false, Nat.add_zero, read,
      List.take_of_length_le whole.le, List.drop_of_length_le whole.le]

theorem Dev.unpredictable_apart {d : Dev} {x : DmaTask} {a : Nat} {l : List Byte}
    (apart : ∀ i, i < l.length → x.overlaps x.row (a + i) = false) : d.unpredictable x a l = (l, d) := by
  have none_overlaps : (List.range l.length).any (fun i => x.overlaps x.row (a + i)) = false :=
    List.any_eq_false.mpr fun i there => by rw [apart i (List.mem_range.mp there)]; exact Bool.false_ne_true
  rw [Dev.unpredictable, none_overlaps]
  rfl

/-! ## The task advances -/

theorem Dev.dmaAdvance_frame (d : Dev) (t : DmaTask) : (d.dmaAdvance t).mem = d.mem ∧ (d.dmaAdvance t).host = d.host ∧
    ∀ o, (d.dmaAdvance t).reg o = d.reg o := by
  unfold Dev.dmaAdvance
  split
  · exact ⟨rfl, rfl, fun _ => rfl⟩
  split <;> exact ⟨rfl, rfl, fun _ => rfl⟩

/-- Within a row, between rows, and after the last one. -/
theorem Dev.dmaTask_dmaAdvance {d : Dev} {e : Nat} {x t : DmaTask} (on : d.dmaTask e = some x) (engine : t.engine = e)
    (runs : t.saved = false) (whole : t.inChunk = 0) :
    (t.pos < t.rowBytes → (d.dmaAdvance t).dmaTask e = some t) ∧
      (t.pos = t.rowBytes → t.row + 1 < t.rows →
        (d.dmaAdvance t).dmaTask e = some { t with row := t.row + 1, pos := 0, outPos := 0 }) ∧
      (t.pos = t.rowBytes → t.row + 1 = t.rows → (d.dmaAdvance t).dmaTask e = none) := by
  subst engine
  have stays : t.on t.engine = true := by simp only [DmaTask.on, runs, decide_true, Bool.not_false, Bool.and_self]
  unfold Dev.dmaAdvance
  refine ⟨fun within => ?_, fun row_done more => ?_, fun row_done last => ?_⟩
  · rw [if_pos (.inl within)]
    exact Dev.dmaTask_modDma on fun _ _ => stays
  · rw [if_neg (by omega), if_pos more]
    exact Dev.dmaTask_modDma on fun _ _ => stays
  · rw [if_neg (by omega), if_neg (by omega)]
    refine List.find?_eq_none.mpr fun u there => ?_
    have off := (List.mem_filter.mp there).2
    simpa using off

/-! ## A transfer unit -/

/-- A task after a unit of `n` bytes without a check. -/
def DmaTask.moved (x : DmaTask) (n : Nat) : DmaTask := { x with pos := x.pos + n, outPos := x.outPos + n, inChunk := 0 }

/-- A unit without a check whose accesses pass: its bytes are stored and counted, and its task advances. -/
theorem Dev.transferUnit_moves {d : Dev} {e : Nat} {x : DmaTask} {xs xd : Tlb} (on : d.dmaTask e = some x)
    (running : d.bitAt Off.dmaCtrl 0 = false) (has : x.waits = false) (clear : d.stopped x.slot x.task = false)
    (unmarked : d.marked x.slot x.task = false) (plain : x.mode = 0) (clean : d.upsets = []) (some_bytes : 1 ≤ x.unitBytes.1)
    (source : x.fill = false → d.cached x.space (x.src + x.row * x.srcStride + x.pos) false = some xs ∧ xs.target = 0)
    (dest : d.cached x.space (x.dst + x.row * x.dstStride + x.outPos) true = some xd) (device : xd.target = 0)
    (apart : ∀ i, i < x.unitBytes.1 → x.overlaps x.row (x.dst + x.row * x.dstStride + x.outPos + i) = false) :
    let at0 := xd.pa + (x.dst + x.row * x.dstStride + x.outPos - xd.va)
    d.transferUnit e = (({ d with mem := memStore d.mem at0 (x.unitSource d.mem xs) }).bump64 Off.dmaBytesLo
      x.unitBytes.1).dmaAdvance (x.moved x.unitBytes.1) := by
  obtain ⟨no_check, no_end, -, page, -⟩ := DmaTask.unitBytes_plain plain
  obtain ⟨a, translated⟩ := Dev.translateUnit_cached plain (fun copy => (source copy).1) dest (d.reader 1 e x.slot x.task)
  have read := Dev.readUnit_cached plain clean some_bytes source (d.reader 1 e x.slot x.task)
  have length := x.unitSource_length d.mem xs
  have predictable := Dev.unpredictable_apart (d := d) (l := x.unitSource d.mem xs) fun i h => apart i (length ▸ h)
  have written := Dev.writeVa_cached dest device clean (length ▸ some_bytes) (length ▸ within_page page)
    (d.reader 1 e x.slot x.task)
  simp only [Dev.transferUnit, on, running, has, clear, unmarked, Bool.or_self, Bool.false_eq_true, if_false, Dev.dmaAct,
    translated, read, plain, zero_ne_one, OfNat.zero_ne_ofNat, List.append_nil, predictable, written, no_check, no_end, length,
    false_and, if_true, or_true, Nat.add_zero, DmaTask.moved]

end Sys2Proof.Machine

open Sys2Proof.Machine in
/-- Settles O13: the unit's accesses are one piece each, since it crosses no page, and its bytes the source's, since none overlaps. -/
theorem transferUnitMovesItsBytes : Obligations.TransferUnitMovesItsBytes := by
  unfold Obligations.TransferUnitMovesItsBytes
  intro s e x xs xd on running runs has clear unmarked plain clean some_bytes n src dst source dest device apart bytes at0
  obtain ⟨-, -, row, -, -⟩ := DmaTask.unitBytes_plain plain
  obtain ⟨engine, -⟩ := Dev.dmaTask_on on
  let stored : Dev := { s.dev with mem := memStore s.dev.mem at0 bytes }
  have moves : s.dev.transferUnit e = (stored.bump64 Off.dmaBytesLo n).dmaAdvance (x.moved n) :=
    Dev.transferUnit_moves on running has clear unmarked plain clean some_bytes source dest device apart
  have length : bytes.length = n := x.unitSource_length s.dev.mem xs
  obtain ⟨mem, host, regs⟩ := (stored.bump64 Off.dmaBytesLo n).dmaAdvance_frame (x.moved n)
  have advances := Dev.dmaTask_dmaAdvance (d := stored.bump64 Off.dmaBytesLo n) (t := x.moved n) on engine runs rfl
  have stores : (s.dev.transferUnit e).mem = memStore s.dev.mem at0 bytes := (congrArg Dev.mem moves).trans mem
  refine ⟨_, rfl, stores, length, fun a away => ?_, (congrArg Dev.host moves).trans host, ?_, ?_⟩
  · dsimp only
    rw [stores]
    exact memGet_memStore_other _ _ (length.symm ▸ away)
  · dsimp only
    rw [moves, Dev.reg64_congr (regs _) (regs _)]
    exact Dev.reg64_bump64 _ _ _
  · dsimp only
    rw [moves]
    exact advances

end

section
/-! PROOFS. Invalidations, and the commands SPACE_SET, MAP and UNMAP: what each drops, records and answers (R211, R213, R218, R219,
R257). -/

namespace Sys2Proof.Machine

/-! ## Invalidations -/

/-- A GO that starts an invalidation of the translations that pass `p`, or finds one in progress, changes registers and the cached
translations alone. -/
structure Dev.Invalidated (p : Tlb → Bool) (d d' : Dev) : Prop where
  progress : d'.mmu.inv = true
  started : d.mmu.inv = false → d'.mmu.tlb = d.mmu.tlb.filter fun x => !p x
  refused : d.mmu.inv = true → d'.mmu.tlb = d.mmu.tlb ∧ d'.bitAt Off.mmuStatus 5 = true
  frame : d' = { d with regs := d'.regs, mmu := { d.mmu with inv := true, tlb := d'.mmu.tlb } }

theorem Dev.invalidated_invalidate (d : Dev) (scope space : Nat) (p : Tlb → Bool) :
    d.Invalidated p (d.invalidate scope space p) := by
  cases inv : d.mmu.inv with
  | true =>
    have refused : d.invalidate scope space p =
        ((d.setFld Off.mmuInvCtrl 2 0 scope).setFld Off.mmuInvCtrl 11 8 space).setBit Off.mmuStatus 5 := if_pos inv
    have mmu : (d.invalidate scope space p).mmu = d.mmu := by rw [refused]; rfl
    refine ⟨mmu ▸ inv, fun free => absurd (inv ▸ free) Bool.noConfusion, fun _ => ⟨by rw [mmu], ?_⟩, ?_⟩
    · rw [refused]
      exact Dev.bitAt_setBit_same _ _ (by decide)
    · have whole : d.mmu = { d.mmu with inv := true, tlb := (d.invalidate scope space p).mmu.tlb } := by rw [mmu, ← inv]
      rw [← whole, refused]
      rfl
  | false =>
    have started : d.invalidate scope space p = ({ (d.setFld Off.mmuInvCtrl 2 0 scope).setFld Off.mmuInvCtrl 11 8 space with
        mmu := { d.mmu with inv := true } } : Dev).dropTlb p := if_neg (inv ▸ Bool.false_ne_true)
    rw [started]
    exact ⟨rfl, fun _ => rfl, fun busy => absurd (inv ▸ busy) Bool.noConfusion, rfl⟩

/-- Registers set before the GO. -/
theorem Dev.Invalidated.of_regs {p : Tlb → Bool} {d d' d'' : Dev} (regs : d' = { d with regs := d'.regs })
    (h : d'.Invalidated p d'') : d.Invalidated p d'' := by
  have mmu : d'.mmu = d.mmu := by rw [regs]
  obtain ⟨progress, started, refused, frame⟩ := h
  rw [mmu] at started refused frame
  refine ⟨progress, started, refused, frame.trans ?_⟩
  rw [regs]

theorem Dev.invalidated_invalidateRange (d : Dev) (sp base : Nat) {pages : Nat} (some_pages : 1 ≤ pages) :
    d.Invalidated (fun t => decide (t.space = sp) && decide (t.va < (base + pages) * 4096) && decide (base * 4096 < t.va + t.bytes))
      (d.invalidateRange sp base pages) := by
  unfold Dev.invalidateRange
  dsimp only
  rw [if_neg (by omega)]
  exact .of_regs rfl (Dev.invalidated_invalidate _ _ _ _)

/-- A command that invalidates what passes `p`, where `p` decides `hit`. -/
theorem Dev.Invalidated.next {s : State} {c : Instr} {d : Dev} {p : Tlb → Bool} {hit : Tlb → Prop} (h : s.dev.Invalidated p d)
    (carried : exec c s = .next { s with dev := d }) (decides : ∀ x, hit x ↔ p x = true) :
    ∃ t, exec c s = .next t ∧ t.dev.mmu.inv = true ∧
      (s.dev.mmu.inv = false → ∀ x, x ∈ t.dev.mmu.tlb ↔ x ∈ s.dev.mmu.tlb ∧ ¬ hit x) ∧
      (s.dev.mmu.inv = true → t.dev.mmu.tlb = s.dev.mmu.tlb ∧ t.dev.bitAt Off.mmuStatus 5 = true) ∧
      t = { s with dev := { s.dev with regs := t.dev.regs, mmu := { s.dev.mmu with inv := true, tlb := t.dev.mmu.tlb } } } := by
  refine ⟨_, carried, h.progress, fun free x => ?_, h.refused, congrArg (fun d : Dev => { s with dev := d }) h.frame⟩
  rw [h.started free, List.mem_filter, decides x, Bool.not_eq_true', Bool.not_eq_true]

/-- R218. -/
theorem invalidationsDropTheirScope : Clause.InvalidationsDropTheirScope := by
  intro s running
  refine ⟨fun c hit scope => ?_, rfl⟩
  rcases scope with ⟨rfl, hits⟩ | ⟨sp, rfl, hits⟩ | ⟨sp, base, pages, some_pages, rfl, hits⟩ | ⟨sp, rfl, hits⟩ | ⟨rfl, hits⟩
  · exact (Dev.invalidated_invalidate _ _ _ _).next (hostWrite_running _ running) fun x => by simp only [hits]
  · exact (Dev.invalidated_invalidate _ _ _ _).next (hostWrite_running _ running) fun x => by simp only [hits, decide_eq_true_eq]
  · exact (Dev.invalidated_invalidateRange _ _ _ some_pages).next (hostWrite_running _ running) fun x => by
      simp only [hits, Bool.and_eq_true, decide_eq_true_eq, and_assoc]
  · exact (Dev.invalidated_invalidate _ _ _ _).next (hostWrite_running _ running) fun x => by
      simp only [hits, Bool.and_eq_true, decide_eq_true_eq]
  · exact (Dev.invalidated_invalidate _ _ _ _).next (hostWrite_running _ running) hits

/-! ## Page tables leave the records of MAPs -/

/-- Between `d` and `d'` pages were allocated, page tables written and translations dropped: the records of MAPs, the extents to be
freed and the rest of Damson's part stand. -/
def Dev.Tabled (d d' : Dev) : Prop :=
  d' = { d with mem := d'.mem, upsets := d'.upsets, mmu := { d.mmu with alloc := d'.mmu.alloc, tlb := d'.mmu.tlb } }

theorem Dev.Tabled.refl (d : Dev) : d.Tabled d := rfl

theorem Dev.Tabled.trans {a b c : Dev} (h : a.Tabled b) (k : b.Tabled c) : a.Tabled c :=
  Eq.trans k (congrArg (fun x : Dev => { x with
    mem := c.mem, upsets := c.upsets, mmu := { x.mmu with alloc := c.mmu.alloc, tlb := c.mmu.tlb } }) h)

theorem Dev.Tabled.foldl {α : Type} {f : Dev → α → Dev} (hf : ∀ (d : Dev) a, d.Tabled (f d a)) (l : List α) (d : Dev) :
    d.Tabled (l.foldl f d) := by
  induction l generalizing d with
  | nil => exact .refl d
  | cons a l ih => exact (hf d a).trans (ih _)

section
variable {d d' : Dev} (h : d.Tabled d')
include h

theorem Dev.Tabled.maps : d'.mmu.maps = d.mmu.maps := by rw [h]
theorem Dev.Tabled.freeing : d'.mmu.freeing = d.mmu.freeing := by rw [h]
theorem Dev.Tabled.grf : d'.grf = d.grf := by rw [h]

end

theorem Dev.tabled_putEntry (d : Dev) (a e : Nat) : d.Tabled (d.putEntry a e) := rfl

theorem Dev.tabled_allocMem {d d' : Dev} {k : MemKind} {n al a : Nat} (h : d.allocMem k n al = some (a, d')) : d.Tabled d' := by
  obtain ⟨_, -, same⟩ := Option.map_eq_some_iff.mp h
  cases same
  rfl

theorem Dev.tabled_allocNear {d d' : Dev} {n al a : Nat} (h : d.allocNear n al = some (a, d')) : d.Tabled d' := by
  have half {k : MemKind} {dom : Nat} {x : Nat × Dev} (got : (if bit d.pwr.off dom then none else d.allocMem k n al) = some x) :
      d.Tabled x.2 := by
    split at got
    · cases got
    · exact Dev.tabled_allocMem got
  unfold Dev.allocNear at h
  dsimp only at h
  split at h
  · next got =>
    cases h
    exact half got
  · exact half h

theorem Dev.tabled_newTable {d d' : Dev} {n t : Nat} (h : d.newTable n = some (t, d')) : d.Tabled d' := by
  obtain ⟨⟨a, e⟩, got, same⟩ := Option.map_eq_some_iff.mp h
  cases same
  exact (Dev.tabled_allocMem got).trans rfl

theorem Dev.tabled_descend {va target : Nat} {want64 : Bool} {fuel table level : Nat} {g g' : Bool} {d d' : Dev} {t : Nat}
    (h : d.descend va target want64 fuel table level g = some (t, g', d')) : d.Tabled d' := by
  induction fuel generalizing d table level g with
  | zero => cases h; exact .refl _
  | succ fuel ih =>
    unfold Dev.descend at h
    split at h
    · cases h; exact .refl _
    dsimp only at h
    split at h
    · exact ih h
    split at h
    · cases h
    · next new => exact (Dev.tabled_newTable new).trans ((Dev.tabled_putEntry _ _ _).trans (ih h))

theorem Dev.tabled_splitRegion {d d' : Dev} {space root va table t : Nat}
    (h : d.splitRegion space root va table = some (t, d')) : d.Tabled d' := by
  unfold Dev.splitRegion at h
  split at h
  · cases h
  next new =>
  dsimp only at h
  split at h
  · cases h
  next down =>
  cases h
  refine ((Dev.tabled_newTable new).trans (.foldl (fun _ i => ?_) _ _)).trans ((Dev.tabled_descend down).trans rfl)
  split
  · exact .foldl (fun d _ => d.tabled_putEntry _ _) _ _
  · exact .refl _

theorem Dev.tabled_setLeaf {d d' : Dev} {space va page : Nat} {leaf : Nat → Nat}
    (h : d.setLeaf space va page leaf = some d') : d.Tabled d' := by
  unfold Dev.setLeaf at h
  split at h
  · cases h
  extract_lets target at h
  split at h
  · cases h
  next down =>
  refine (Dev.tabled_descend down).trans ?_
  split at h
  · cases h
    exact Dev.tabled_putEntry _ _ _
  split at h
  · obtain ⟨x, split, rfl⟩ := Option.map_eq_some_iff.mp h
    exact (Dev.tabled_splitRegion split).trans (Dev.tabled_putEntry _ _ _)
  split at h
  · cases h
    exact .foldl (fun d _ => d.tabled_putEntry _ _) _ _
  · cases h
    exact Dev.tabled_putEntry _ _ _

theorem Dev.tabled_unmapPage (d : Dev) (space va page : Nat) : d.Tabled (d.unmapPage space va page) := by
  unfold Dev.unmapPage
  cases h : d.setLeaf space va page fun _ => 0 with
  | none => exact .refl d
  | some d' => exact Dev.tabled_setLeaf h

/-! ## Answers of commands -/

theorem Answer.finish_result {a : Answer} {r : Nat} (result : a.result = some r) (h : CmdHdr) :
    a.finish h = a.dev.complete h a.status r := by
  unfold Answer.finish
  rw [result]

/-- A status that a test gives stands in the list of the tests. -/
theorem mem_of_firstFail {l : List (Bool × Nat)} {st : Nat} (h : firstFail l = some st) : st ∈ l.map (·.2) := by
  induction l with
  | nil => cases h
  | cons t l ih =>
    obtain ⟨ok, st'⟩ := t
    unfold firstFail at h
    split at h
    · exact List.mem_cons_of_mem _ (ih h)
    · cases h
      exact List.mem_cons_self

/-! ## MAP -/

/-- The pages that a MAP allocates, one by one. -/
theorem Dev.allocPages_eq {d d' : Dev} {memory page hostBase n : Nat} {l : List Nat}
    (h : d.allocPages memory page hostBase n = some (l, d')) : d.Tabled d' ∧ l.length = n ∧
      (memory = 3 → l = (List.range n).map fun i => hostBase + page * i) := by
  unfold Dev.allocPages at h
  split at h
  · cases h
    exact ⟨.refl _, by rw [List.length_map, List.length_range], fun _ => rfl⟩
  next device =>
  suffices go : d.Tabled d' ∧ l.length = n from ⟨go.1, go.2, fun host => absurd host device⟩
  induction n generalizing l d' with
  | zero =>
    cases h
    exact ⟨.refl _, rfl⟩
  | succ n ih =>
    rw [List.range_succ, List.foldl_append, List.foldl_cons, List.foldl_nil, Option.bind_eq_some_iff] at h
    obtain ⟨⟨l', e⟩, before, last⟩ := h
    obtain ⟨⟨a, e'⟩, got, same⟩ := Option.map_eq_some_iff.mp last
    obtain ⟨tabled, length⟩ := ih before
    cases same
    refine ⟨tabled.trans ?_, by rw [List.length_append, length, List.length_singleton]⟩
    split at got
    · exact Dev.tabled_allocMem got
    · exact Dev.tabled_allocNear got
    · exact Dev.tabled_allocMem got

/-- The leaves of a MAP's pages. -/
def Dev.mapPages (d : Dev) (space va page target : Nat) (write kv : Bool) (pages : List Nat) : Option Dev :=
  pages.zipIdx.foldl (fun (x : Option Dev) p => x.bind fun d => d.mapPage space (va + page * p.2) page target p.1 write kv) (some d)

theorem Dev.tabled_mapPages {d d' : Dev} {space va page target : Nat} {write kv : Bool} {pages : List Nat}
    (h : d.mapPages space va page target write kv pages = some d') : d.Tabled d' := by
  unfold Dev.mapPages at h
  generalize pages.zipIdx = placed at h
  induction placed generalizing d with
  | nil =>
    cases h
    exact .refl _
  | cons p ps ih =>
    rw [List.foldl_cons, Option.bind_some] at h
    cases first : d.mapPage space (va + page * p.2) page target p.1 write kv with
    | none =>
      have stays (l : List (Nat × Nat)) : l.foldl (fun (x : Option Dev) p =>
          x.bind fun d => d.mapPage space (va + page * p.2) page target p.1 write kv) none = none := by
        induction l with
        | nil => rfl
        | cons _ _ ih => exact ih
      rw [first, stays] at h
      cases h
    | some e =>
      rw [first] at h
      exact (Dev.tabled_setLeaf first).trans (ih h)

/-- A MAP that answers OK records its pages after the earlier ones. -/
theorem Dev.doMap_ok {d : Dev} {space memory pageSize va bytes hostBase : Nat} {write kv : Bool}
    (ok : (d.doMap space memory pageSize write kv va bytes hostBase).status = 0) :
    ∃ pages, (d.doMap space memory pageSize write kv va bytes hostBase).result = some 0 ∧
      (d.doMap space memory pageSize write kv va bytes hostBase).dev.mmu.maps = d.mmu.maps ++
        [{ space := space, va := va, bytes := bytes, page := pageOf pageSize, memory := memory, write := write, kv := kv
           pages := pages }] ∧
      pages.length = bytes / pageOf pageSize ∧
      (memory = 3 → pages = (List.range (bytes / pageOf pageSize)).map fun i => hostBase + pageOf pageSize * i) := by
  revert ok
  unfold Dev.doMap
  extract_lets page win room fields relations
  have field_fails : ∀ st, fields = some st → st ≠ 0 := fun st test zero => by
    have listed := mem_of_firstFail (zero ▸ test)
    simp only [List.map_cons, List.map_nil, List.mem_cons, List.not_mem_nil, OfNat.zero_ne_ofNat, or_self] at listed
  have relation_fails : ∀ st, relations = some st → st ≠ 0 := fun st test zero => by
    have listed := mem_of_firstFail (zero ▸ test)
    simp only [List.map_cons, List.map_nil, List.mem_cons, List.not_mem_nil, OfNat.zero_ne_ofNat, or_self] at listed
  clear_value fields relations
  cases fields with
  | some st => exact fun ok => absurd ok (field_fails st rfl)
  | none =>
  generalize alloc : (if bytes ≤ room then d.allocPages memory page hostBase (bytes / page) else none) = got
  cases got with
  | none => exact fun ok => absurd ok (by decide : (0x0011 : Nat) ≠ 0)
  | some x =>
  obtain ⟨pages, d'⟩ := x
  cases relations with
  | some st => exact fun ok => absurd ok (relation_fails st rfl)
  | none =>
  dsimp only
  split
  · exact fun ok => absurd ok (by decide : (0x0011 : Nat) ≠ 0)
  next d'' mapped =>
  have got : d.allocPages memory page hostBase (bytes / page) = some (pages, d') := by
    split at alloc
    · exact alloc
    · cases alloc
  obtain ⟨allocated, length, host⟩ := Dev.allocPages_eq got
  exact fun _ => ⟨pages, rfl, congrArg (· ++ _) (allocated.trans (Dev.tabled_mapPages mapped)).maps, length, host⟩

/-- A MAP that meets an earlier one, where its fields pass and its memory is found (R257; log entry 27). -/
theorem Dev.doMap_overlap {d : Dev} {space memory pageSize va bytes hostBase : Nat} (write kv : Bool) {m : MapRec}
    (there : m ∈ d.mmu.maps) (same : m.space = space) (overlap : meets va bytes m.va m.bytes = true) (low : va < 2 ^ 52)
    (some_bytes : 1 ≤ bytes) (va_aligned : va % pageOf pageSize = 0) (bytes_aligned : bytes % pageOf pageSize = 0)
    (host_aligned : memory = 3 → hostBase % pageOf pageSize = 0)
    (room : bytes ≤ [0x6000000000, 0x1E0000000, 0x20000000].getD memory (2 ^ 64))
    (found : (d.allocPages memory (pageOf pageSize) hostBase (bytes / pageOf pageSize)).isSome = true) :
    d.doMap space memory pageSize write kv va bytes hostBase = d.no 0x0012 := by
  have base : (decide (memory ≠ 3) || aligned hostBase (pageOf pageSize)) = true := by
    by_cases host : memory = 3
    · simp only [aligned, host_aligned host, decide_true, Bool.or_true]
    · simp only [host, ne_eq, not_false_eq_true, decide_true, Bool.true_or]
  have meets_one : (d.mmu.maps.all fun m => !(decide (m.space = space) && meets va bytes m.va m.bytes)) = false :=
    List.all_eq_false.mpr ⟨m, there, by simp only [same, overlap, decide_true, Bool.and_self, Bool.not_true, Bool.false_eq_true,
      not_false_eq_true]⟩
  obtain ⟨⟨pages, d'⟩, got⟩ := Option.isSome_iff_exists.mp found
  simp only [Dev.doMap, firstFail, low, aligned, va_aligned, some_bytes, bytes_aligned, decide_true, if_true]
  simp only [aligned] at base
  simp only [base, if_true, room, got, meets_one, Bool.false_eq_true, if_false]

/-! ## UNMAP -/

/-- The earlier MAPs that lie within a range. -/
def Dev.mapsWithin (d : Dev) (space va bytes : Nat) : List MapRec :=
  d.mmu.maps.filter fun m => decide (m.space = space) && decide (va ≤ m.va) && decide (m.va + m.bytes ≤ va + bytes)

theorem Dev.doUnmap_other {d : Dev} {space va bytes : Nat} (named : 1 ≤ space)
    (sum : ((d.mapsWithin space va bytes).map (·.bytes)).sum ≠ bytes) : d.doUnmap space va bytes = d.no 0x0501 := by
  unfold Dev.doUnmap
  exact (if_neg fun zero => absurd zero.1 (by omega)).trans (if_pos (.inr sum))

/-- A range that is a union of earlier MAPs loses them and its translations, and its memory waits for the second tick (R218). -/
theorem Dev.doUnmap_union {d : Dev} {space va bytes : Nat} (named : 1 ≤ space) (some_bytes : 1 ≤ bytes)
    (sum : ((d.mapsWithin space va bytes).map (·.bytes)).sum = bytes) : ∃ e : Dev, d.doUnmap space va bytes = e.yes ∧
      e.mmu.maps = d.mmu.maps.filter (fun m => !(d.mapsWithin space va bytes).contains m) ∧
      (∀ x ∈ e.mmu.tlb, ¬ (x.space = space ∧ x.va < va + bytes ∧ va < x.va + x.bytes)) ∧
      ∀ m ∈ d.mapsWithin space va bytes, m.memory ≠ 3 → ∀ p ∈ m.pages, (d.grf.tick + 2, p, m.page) ∈ e.mmu.freeing := by
  have tabled : d.Tabled ((d.mapsWithin space va bytes).foldl (fun d m =>
      (List.range (m.bytes / m.page)).foldl (fun d i => d.unmapPage space (m.va + m.page * i) m.page) d) d) :=
    .foldl (fun _ _ => .foldl (fun d _ => d.tabled_unmapPage _ _ _) _ _) _ _
  refine ⟨_, (if_neg fun zero => absurd zero.1 (by omega)).trans (if_neg (not_or.mpr ⟨by omega, not_not.mpr sum⟩)), ?_, fun x left hit => ?_,
    fun m mine device p page => ?_⟩
  · exact congrArg (List.filter _) tabled.maps
  · obtain ⟨_, kept⟩ := List.mem_filter.mp left
    obtain ⟨same, below, above⟩ := hit
    simp only [same, below, above, decide_true, Bool.and_self, Bool.not_true, Bool.false_eq_true] at kept
  · refine List.mem_append_right _ (List.mem_flatMap.mpr ⟨m, List.mem_filter.mpr ⟨mine, decide_eq_true device⟩,
      List.mem_map.mpr ⟨p, page, ?_⟩⟩)
    exact congrArg (fun tick => (tick + 2, p, m.page)) (congrArg (·.tick) tabled.grf)

/-! ## The commands -/

theorem exec_map_accepted {s : State} {h h' : CmdHdr} {d : Dev} {memory hostBase : Nat}
    (accepted : s.dev.accept { h with opcode := 0x0011 } = (some h', d)) (clear : mapReserved memory hostBase = false)
    (space pageSize : Nat) (write kv : Bool) (va bytes : Nat) :
    exec (.map h space memory pageSize write kv va bytes hostBase) s =
      .next { s with dev := (d.doMap space memory pageSize write kv va bytes hostBase).finish h' } := by
  rw [exec_map, execMap]
  simp only [clear, Bool.or_false]
  exact lift_command accepted _

/-- SPACE_SET, MAP and UNMAP (R218, R219, R257). -/
theorem mappingCommands : Clause.MappingCommands := by
  intro s h h' d
  refine ⟨fun accepted space low high => ?_, fun accepted space memory pageSize write kv va bytes hostBase clear => ?_,
    fun accepted space va bytes => ?_⟩
  · have carried (enable : Bool) : exec (.spaceSet h space enable) s = .next { s with dev := d.doSpaceSet h' space enable } :=
      lift_command accepted _
    have named : ¬ (space = 0 ∨ 15 < space) := by omega
    refine ⟨fun used enable => ?_, fun free => ?_, fun free root d' made => ⟨_, carried true, ?_⟩⟩
    · rw [carried]
      simp only [Dev.doSpaceSet, named, used, if_true, if_false]
    · rw [carried]
      simp only [Dev.doSpaceSet, named, free, Bool.not_false, Bool.false_eq_true, if_true, if_false]
    · simp only [Dev.doSpaceSet, named, free, made, Bool.not_true, Bool.false_eq_true, if_false, and_self]
  · have carried := exec_map_accepted accepted clear space pageSize write kv va bytes
    refine ⟨fun ok => ?_, fun m there same overlap below some_bytes va_al bytes_al host_al room found => ?_⟩
    · obtain ⟨pages, result, maps, length, host⟩ := Dev.doMap_ok ok
      have finished := Answer.finish_result result h'
      rw [ok] at finished
      refine ⟨_, { space := space, va := va, bytes := bytes, page := pageOf pageSize, memory := memory, write := write, kv := kv
                   pages := pages }, carried, finished, ?_, rfl, rfl, rfl, rfl, rfl, rfl, rfl, length, host⟩
      dsimp only
      rw [finished, (Dev.told_complete _ _ _ _).mmu, maps]
    · rw [carried, Dev.doMap_overlap write kv there same overlap below some_bytes va_al bytes_al host_al room found]
  · intro mine named
    have carried : exec (.unmap h space va bytes) s = .next { s with dev := (d.doUnmap space va bytes).finish h' } :=
      lift_command accepted _
    refine ⟨fun sum => ?_, fun some_bytes sum => ⟨_, carried, ?_⟩⟩
    · rw [carried, Dev.doUnmap_other named sum]
    · obtain ⟨e, answer, maps, tlb, freeing⟩ := Dev.doUnmap_union named some_bytes sum
      have mmu : ((d.doUnmap space va bytes).finish h').mmu = e.mmu := by rw [answer]; exact (e.told_complete h' 0 0).mmu
      dsimp only
      rw [mmu]
      refine ⟨fun m => ?_, tlb, freeing⟩
      rw [maps, List.mem_filter, Bool.not_eq_true', List.contains_eq_mem, decide_eq_false_iff_not]
      rfl

end Sys2Proof.Machine

/-- Settles O12: page tables leave the records of MAPs, so a MAP appends its own and an UNMAP takes out those of its range. -/
theorem mappingsAndInvalidations : Obligations.MappingsAndInvalidations := by
  unfold Obligations.MappingsAndInvalidations
  exact ⟨Sys2Proof.Machine.invalidationsDropTheirScope, Sys2Proof.Machine.mappingCommands⟩

end

section
/-! PROOFS. How Damson's actions resolve a pending fault record, and why the clause on FAULT_RESUME fails: with the stopped task,
collectives move on (R228, R229, R240, R382, R387). -/

namespace Sys2Proof.Machine

/-! ## A record is resolved -/

theorem Dev.look_of_pendingFault {d : Dev} {slot : Nat} {f : FaultRec} (pending : d.pendingFault slot = some f) :
    look d.mmu.faults slot = some f ∧ f.outcome = 0 := by
  obtain ⟨there, open_⟩ := Option.filter_eq_some_iff.mp pending
  exact ⟨there, of_decide_eq_true open_⟩

/-- A pending record takes its outcome, its status and the time (R227). -/
theorem Dev.look_resolveFault {d : Dev} {slot : Nat} {f : FaultRec} (pending : d.pendingFault slot = some f) (outcome status : Nat) :
    look (d.resolveFault slot outcome status).mmu.faults slot =
      some { f with outcome := outcome, status := status, resolvedAt := d.now } := by
  obtain ⟨there, open_⟩ := Dev.look_of_pendingFault pending
  simp only [Dev.resolveFault, there, open_, if_true]
  exact look_put_same _ _ _

/-- FAULT_RESUME of a record whose access is possible, and the collectives that may move. -/
theorem exec_faultResume_accessible {s : State} {slot : Nat} {f : FaultRec} (pending : s.dev.pendingFault slot = some f)
    (possible : s.dev.accessible f = true) : exec (.faultResume slot) s =
      .next { s with dev := ((s.dev.resolveFault slot 1 0).setReg Off.mmuFaultResolve slot).collPump } := by
  simp only [exec_faultResume, execFaultResume, lift_eq, Dev.faultResume, pending, Dev.makePossible, possible, if_true]

/-- FAULT_RESUME of a slot without a pending record still moves the collectives that may move. -/
theorem exec_faultResume_none {s : State} {slot : Nat} (none_pending : s.dev.pendingFault slot = none) :
    exec (.faultResume slot) s = .next { s with dev := s.dev.collPump } := by
  simp only [exec_faultResume, execFaultResume, lift_eq, Dev.faultResume, none_pending]

/-- FAULT_FAIL resolves the record with the status written, or with the name of its cause (R240). -/
theorem Dev.look_faultFail {d : Dev} {slot : Nat} {f : FaultRec} (pending : d.pendingFault slot = some f)
    (unmanaged : d.kvManaged f = false) (status : Nat) :
    look (d.faultFail slot status).mmu.faults slot = some { f with
      outcome := 2, resolvedAt := d.now, status := if status = 0 then 0x0500 + f.cause else status } := by
  have written : (if status = 0 ∧ d.kvStarved f = true then 0x0406 else status) = status := by
    simp only [Dev.kvStarved, unmanaged, Bool.false_and, Bool.false_eq_true, and_false, if_false]
  have told (e : Dev) (st : Nat) (r : EventRec) : e.FaultsStand (if st = 0x0406 then e.flagEvent Off.attStatus 5 r else e) := by
    split
    · exact .trans (b := e.setBit Off.attStatus 5) (.of_parts rfl rfl fun o block =>
        Dev.reg_setBit_other _ _ (by rintro rfl; revert block; decide)) (Dev.faultsStand_event _ _ _)
    · exact .refl e
  unfold Dev.faultFail
  rw [pending]
  dsimp only
  rw [written]
  refine (((Dev.faultsStand_event _ _ _).trans (told _ _ _)).trans (Dev.faultsStand_failGraph _ _ _ _)).resolved slot _ ?_
    (by decide : (2 : Nat) ≠ 0)
  exact Dev.look_resolveFault pending 2 _

/-- FAULT_TIMEOUT resolves the record 200 µs after it at the earliest, and sets MMU_STATUS.TIMEOUT (R229). -/
theorem Dev.faultTimeout_resolves {d : Dev} {slot : Nat} {f : FaultRec} (pending : d.pendingFault slot = some f) :
    (d.faultTimeout slot).now = max d.now (f.ts + 200000) ∧ (d.faultTimeout slot).bitAt Off.mmuStatus 3 = true ∧
      look (d.faultTimeout slot).mmu.faults slot = some { f with
        outcome := 3, resolvedAt := max d.now (f.ts + 200000), status := 0x0507 } := by
  have later : { d with now := max d.now (f.ts + 200000) : Dev }.pendingFault slot = some f := pending
  have there := Dev.look_resolveFault later 3 0x0507
  have now : ({ d with now := max d.now (f.ts + 200000) : Dev }.resolveFault slot 3 0x0507).now = max d.now (f.ts + 200000) :=
    (Dev.faultsStand_resolveFault _ _ _ _).now
  unfold Dev.faultTimeout
  rw [pending]
  dsimp only
  generalize Dev.resolveFault _ slot 3 0x0507 = resolved at there now ⊢
  have stands (e : EventRec) : ((resolved.bump Off.mmuFaultTimeouts).setBit Off.mmuStatus 3).FaultsStand
      ((((resolved.bump Off.mmuFaultTimeouts).setBit Off.mmuStatus 3).event 0x0680 e).failGraph f.graph 0x0507) :=
    (Dev.faultsStand_event _ _ _).trans (Dev.faultsStand_failGraph _ _ _ _)
  refine ⟨(stands _).now.trans now, ?_, (stands _).resolved slot _ there (by decide : (3 : Nat) ≠ 0)⟩
  rw [Dev.bitAt, (stands _).reg _ (by decide)]
  exact Dev.bitAt_setBit_same _ _ (by decide)

theorem Dev.faultFail_none {d : Dev} {slot : Nat} (none_pending : d.pendingFault slot = none) (status : Nat) :
    d.faultFail slot status = d := by
  simp only [Dev.faultFail, none_pending]

theorem Dev.faultTimeout_none {d : Dev} {slot : Nat} (none_pending : d.pendingFault slot = none) : d.faultTimeout slot = d := by
  simp only [Dev.faultTimeout, none_pending]

/-! ## A collective that may move -/

/-- A RECEIVE whose peer's SEND has landed wholly, and no fault record. -/
def landedReceive : State :=
  { State.reset with
    dev := { State.reset.dev with
      grf := { State.reset.dev.grf with colls := [{ kind := 6, peer := 3, tag := 5 }] }
      lnk := { State.reset.dev.lnk with sends := [(3, 5)] } } }

theorem pendingFault_landedReceive : landedReceive.dev.pendingFault 0 = none := rfl

/-- The RECEIVE ends, whatever becomes of the record. -/
theorem colls_collPump_landedReceive : landedReceive.dev.collPump.grf.colls = [] := by decide +kernel

end Sys2Proof.Machine

open Sys2Proof Sys2Proof.Machine in
/-- Refutes O11: FAULT_RESUME also moves the collectives that may move, and no hypothesis of the clause on a record that is not
pending says that none may. Here no record is pending and a RECEIVE has its data, so FAULT_RESUME ends it, where the clause has the
state unchanged. -/
theorem not_faultsAreResolved : ¬ Obligations.FaultsAreResolved := by
  unfold Obligations.FaultsAreResolved
  rintro ⟨resolve, -⟩
  obtain ⟨-, alone⟩ := resolve landedReceive 0
  obtain ⟨unchanged, -, -⟩ := alone pendingFault_landedReceive
  rw [exec_faultResume_none pendingFault_landedReceive] at unchanged
  injection unchanged with same
  have colls : landedReceive.dev.collPump.grf.colls = landedReceive.dev.grf.colls := congrArg (·.dev.grf.colls) same
  rw [colls_collPump_landedReceive] at colls
  cases colls

end

section
/-! PROOFS. A step and the front of its queue; the tests of a command, and the commands of the interface (R250, R253-R255,
R257, R261). -/

namespace Sys2Proof.Machine

/-! ## A mailbox after a write of one -/

theorem Dev.box_modBox_same (d : Dev) {m : Nat} (f : Mailbox → Mailbox) (h : m < d.mbx.boxes.length) :
    (d.modBox m f).box m = f (d.box m) := by
  simp [Dev.box, Dev.modBox, List.getD_eq_getElem?_getD, upd_get_same, List.getElem?_eq_getElem h]

theorem Dev.box_modBox_other (d : Dev) {m k : Nat} (f : Mailbox → Mailbox) (h : k ≠ m) :
    (d.modBox m f).box k = d.box k := by
  simp [Dev.box, Dev.modBox, List.getD_eq_getElem?_getD, upd_get_other _ _ h]

@[simp] theorem Dev.modBox_boxes_length (d : Dev) (m : Nat) (f : Mailbox → Mailbox) :
    (d.modBox m f).mbx.boxes.length = d.mbx.boxes.length := upd_length ..

/-! ## The tests of a command -/

/-- The device of which a command's journal entry is made: past the sequence test, the mailbox expects the next SEQUENCE,
and HELLO moves no expected number (R254). -/
def Dev.sequenced (d : Dev) (h : CmdHdr) : Dev :=
  if h.opcode = 1 then d else d.modBox h.mbx fun b => { b with expected := (b.expected + 1) % 2 ^ 32 }

/-- What the tests say of a command that passes them (R250, R253, R254). -/
theorem Dev.accept_some {d d' : Dev} {h h' : CmdHdr} (accepted : d.accept h = (some h', d')) :
    d.boxOpen h.mbx = true ∧ d.takeable h.mbx h.fence = true ∧ (h.opcode ≠ 1 → h.seq = (d.box h.mbx).expected) ∧
      (h', d') = (d.sequenced h).journal h := by
  unfold Dev.accept at accepted
  dsimp only at accepted
  rw [show (if decide (h.opcode = 1) = true then d
      else d.modBox h.mbx fun b => { b with expected := (b.expected + 1) % 2 ^ 32 }) = d.sequenced h by
    simp [Dev.sequenced]] at accepted
  split at accepted
  · cases accepted
  split at accepted
  · cases accepted
  split at accepted
  · cases accepted
  rename_i opened takes sequence
  split at accepted
  · cases accepted
  · refine ⟨by simpa using opened, by simpa using takes, fun other => ?_, ?_⟩
    · simpa [other] using sequence
    · cases accepted
      rfl

theorem Dev.sequenced_of_other {d : Dev} {h : CmdHdr} (other : h.opcode ≠ 1) :
    d.sequenced h = d.modBox h.mbx fun b => { b with expected := (b.expected + 1) % 2 ^ 32 } := if_neg other

theorem Dev.sequenced_of_hello {d : Dev} {h : CmdHdr} (hello : h.opcode = 1) : d.sequenced h = d := if_pos hello

/-- The sequence test passed moves the expected number of the command's mailbox, and nothing else. -/
theorem Dev.sequenced_eq (d : Dev) (h : CmdHdr) :
    d.sequenced h = { d with mbx := { d.mbx with boxes := (d.sequenced h).mbx.boxes } } := by
  unfold Dev.sequenced
  split <;> rfl

theorem Dev.sequenced_boxes_length (d : Dev) (h : CmdHdr) :
    (d.sequenced h).mbx.boxes.length = d.mbx.boxes.length := by
  unfold Dev.sequenced
  split
  · rfl
  · exact modBox_boxes_length ..

theorem Dev.sequenced_outstanding (d : Dev) (h : CmdHdr) (box : h.mbx < d.mbx.boxes.length) :
    ((d.sequenced h).box h.mbx).outstanding = (d.box h.mbx).outstanding := by
  unfold Dev.sequenced
  split
  · rfl
  · rw [Dev.box_modBox_same d _ box]

/-- A command journaled is one command more outstanding in its mailbox, and its mailbox stays as it is otherwise (R260). -/
theorem Dev.journal_box (d : Dev) (h : CmdHdr) (box : h.mbx < d.mbx.boxes.length) :
    ((d.journal h).2.box h.mbx) = { d.box h.mbx with outstanding := (d.box h.mbx).outstanding + 1 } :=
  Dev.box_modBox_same { d with mbx := { d.mbx with journal := _, nextJ := _, openCmds := _ } } _ box

/-- The journal's part of the mailbox unit after a command is journaled (R260, R261). -/
theorem Dev.journal_entry (d : Dev) (h : CmdHdr) (bring : d.bring ≠ .recovery) :
    (d.journal h).2.mbx.nextJ = d.mbx.nextJ + 1 ∧
      ({ j := d.mbx.nextJ, seq := h.seq, opcode := h.opcode, mailbox := h.mbx, acceptedAt := d.now, tag := h.tag
         hostTs := h.hostTs } : JournalRec) ∈ (d.journal h).2.mbx.journal := by
  simp [Dev.journal, Dev.modBox, bring]

/-- An opened mailbox expects SEQUENCE 0 (R254). -/
theorem Dev.box_openBox_expected (d : Dev) {m : Nat} (box : m < d.mbx.boxes.length) :
    ((d.openBox m).box m).expected = 0 := by
  unfold Dev.openBox
  rw [Dev.box_modBox_same]
  split <;> simpa [Dev.bump, Dev.setBit] using box

/-- A command of a mailbox that is not open stays, and DOORBELL_STATUS says BOOTING (R250). -/
theorem Dev.accept_closed {d : Dev} {h : CmdHdr} (closed : d.boxOpen h.mbx = false) :
    d.accept h = (none, d.modBox h.mbx fun b => { b with booting := true }) := by
  simp [Dev.accept, closed]

/-- A command out of its sequence is answered with the expected number, and leaves no journal entry (R254, R261). -/
theorem Dev.accept_gap {d : Dev} {h : CmdHdr} (opened : d.boxOpen h.mbx = true) (takes : d.takeable h.mbx h.fence = true)
    (other : h.opcode ≠ 1) (gap : h.seq ≠ (d.box h.mbx).expected) :
    d.accept h = (none, (d.setBit Off.mbxStatus 1).respond h 0x0008 (d.box h.mbx).expected) := by
  simp [Dev.accept, opened, takes, other, gap]

theorem commandTests : Clause.CommandTests := by
  intro d h box
  refine ⟨Dev.accept_closed, fun opened takes other gap => Dev.accept_gap opened takes other gap, fun h' d' accepted => ?_⟩
  obtain ⟨opened, takes, sequence, result⟩ := Dev.accept_some accepted
  have box' : h.mbx < (d.sequenced h).mbx.boxes.length := by rwa [Dev.sequenced_boxes_length]
  have same : d.sequenced h = { d with mbx := { d.mbx with boxes := (d.sequenced h).mbx.boxes } } := d.sequenced_eq h
  have header : h' = ((d.sequenced h).journal h).1 := congrArg (fun o => o.1) result
  have device : d' = ((d.sequenced h).journal h).2 := congrArg Prod.snd result
  have after := (d.sequenced h).journal_box h box'
  have nextJ : (d.sequenced h).mbx.nextJ = d.mbx.nextJ := by rw [same]
  have bring : (d.sequenced h).bring = d.bring := by rw [same]
  have now : (d.sequenced h).now = d.now := by rw [same]
  have listed : h' ∈ d'.mbx.openCmds := by
    rw [header, device]
    exact List.mem_append_right _ (List.mem_singleton_self _)
  have frame : d' = { d.sequenced h with mbx := d'.mbx } := by
    rw [device]
    rfl
  rw [← device] at after
  refine ⟨header.trans (congrArg (fun j => { h with j := j }) nextJ), opened, takes, fun other => ⟨sequence other, ?_⟩, ?_,
    listed, fun recovery => ?_, fun hello => ?_, d.box_openBox_expected box, ?_⟩
  · rw [after, Dev.sequenced_of_other other, Dev.box_modBox_same d _ box, sequence other]
  · rw [after, Dev.sequenced_outstanding d h box]
  · rw [← nextJ, ← now, device]
    exact (d.sequenced h).journal_entry h (bring ▸ recovery)
  · rw [after, Dev.sequenced_of_hello hello]
  · rw [same] at frame
    exact frame

/-! ## NOP, RESET_WARM and HELLO -/

theorem interfaceCommands : Clause.InterfaceCommands := by
  intro s h h' d
  refine ⟨fun accepted => ?_, fun accepted => ?_,
    fun accepted minV maxV seqBase hostId resetSeq => ⟨fun low high => ?_, fun out => ?_⟩⟩
  · rw [exec_nop, execNop, lift_command accepted]
  · refine ⟨_, ?_, ?_, rfl⟩
    · rw [exec_resetWarm, execResetWarm, lift_command accepted]
      rfl
    · rfl
  · rw [exec_hello, execHello, lift_command accepted, Dev.doHello, if_pos ⟨low, high⟩]
    cases resetSeq <;> rfl
  · rw [exec_hello, execHello, lift_command accepted, Dev.doHello, if_neg (by omega)]

end Sys2Proof.Machine

/-- Settles O1: a step takes the front of the queue, and what it carries out sees the rest. -/
theorem stepRunsFront : Obligations.StepRunsFront := by
  unfold Obligations.StepRunsFront
  intro s c
  exact Sys2Proof.Machine.step_cons rfl

/-- Settles O9: a command that passes the tests is journaled past the sequence test, which moves its mailbox's expected
number alone. -/
theorem commandTestsAndInterface : Obligations.CommandTestsAndInterface := by
  unfold Obligations.CommandTestsAndInterface
  exact ⟨Sys2Proof.Machine.commandTests, Sys2Proof.Machine.interfaceCommands⟩

end

section
/-! PROOFS. COMMAND_TAKE (R249, R253, R257). -/

namespace Sys2Proof.Machine

/-! ## The slot a command leaves -/

/-- The state once the command in the next slot of a mailbox has left its slot (R249, R259). -/
def State.slotLeft (s : State) (m : Nat) : State :=
  let d := if s.dev.slotRewritten m then (s.dev.drawBytes 256).2 else s.dev
  { s with dev := { d with mbx := { d.mbx with served := m } }.modBox m fun b =>
    { b with consumed := (b.consumed + 1) % 32, rewritten := b.rewritten.filter (· ≠ b.consumed % 16) } }

/-- A command with a header and a body is tested, and carried out where it passes. -/
def State.carryOut (s : State) (h : CmdHdr) (b : List Byte) : State :=
  match s.dev.accept h with
  | (none, d) => { s with dev := d }
  | (some h, d) => ({ s with dev := d }).cmdEffect h b

/-- COMMAND_TAKE where a mailbox has its turn. -/
theorem exec_commandTake_of_turn {s : State} {m : Nat} (running : s.running = true) (turn : s.dev.turn = some m) :
    exec .commandTake s = .next ((s.slotLeft m).carryOut (parseHeader m (s.dev.nextSlot m))
      (((s.dev.nextSlot m).drop 64).take 192)) := by
  simp only [exec_commandTake, execCommandTake, State.commandTake, running, turn]
  rfl

/-- A command that passes the tests keeps its header, with its journal entry in it. -/
theorem Dev.accept_opcode {d d' : Dev} {h h' : CmdHdr} (accepted : d.accept h = (some h', d')) : h'.opcode = h.opcode := by
  obtain ⟨-, -, -, result⟩ := Dev.accept_some accepted
  rw [(Prod.mk.inj result).1]

theorem CmdHdr.with_opcode {h : CmdHdr} {n : Nat} (op : h.opcode = n) : { h with opcode := n } = h := by
  subst op
  rfl

/-- What a command of an opcode does to the whole state, by its header and body. -/
theorem State.carryOut_command {s : State} {h : CmdHdr} {b : List Byte} {n : Nat} (op : h.opcode = n)
    {k : CmdHdr → State → State}
    (effect : ∀ (h : CmdHdr) (t : State), t.cmdEffect { h with opcode := n } b = k { h with opcode := n } t) :
    s.carryOut h b = s.command h n k := by
  unfold State.carryOut State.command
  rw [CmdHdr.with_opcode op]
  match accepted : s.dev.accept h with
  | (none, d) => rfl
  | (some h', d) =>
    have := effect h' { s with dev := d }
    rwa [CmdHdr.with_opcode ((Dev.accept_opcode accepted).trans op)] at this

/-- What a command of an opcode does to the device, by its header and body. -/
theorem State.carryOut_lift {s : State} {h : CmdHdr} {b : List Byte} {n : Nat} (op : h.opcode = n)
    {k : CmdHdr → Dev → Dev}
    (effect : ∀ (h : CmdHdr) (t : State), t.cmdEffect { h with opcode := n } b = { t with dev := k { h with opcode := n } t.dev }) :
    .next (s.carryOut h b) = lift (·.command h n k) s := by
  rw [State.carryOut_command (k := fun h t => { t with dev := k h t.dev }) op effect, lift_eq]
  unfold State.command Dev.command
  split <;> rfl

/-- The parser counts the reserved bits of MAP that its own rule names (R257). -/
theorem parseHeader_mapReserved {m : Nat} {l : List Byte} (op : (parseHeader m l).opcode = 0x0011) :
    ((parseHeader m l).reservedNz || mapReserved (bits (leAt ((l.drop 64).take 192) 0 1) 5 4)
      (leAt ((l.drop 64).take 192) 0x18 8)) = (parseHeader m l).reservedNz := by
  have op' : leAt l 0 2 = 0x0011 := op
  simp only [parseHeader, op', decide_true, Bool.true_and, Bool.not_and, Bool.not_not]
  cases mapReserved (bits (leAt ((l.drop 64).take 192) 0 1) 5 4) (leAt ((l.drop 64).take 192) 0x18 8) <;> simp

end Sys2Proof.Machine

open Sys2Proof Sys2Proof.Machine in
/-- Settles O8: the command that leaves the slot is tested once and carried out by its opcode, which its journal entry
does not change. -/
theorem commandTakeCarriesOutTheRow : Obligations.CommandTakeCarriesOutTheRow := by
  unfold Obligations.CommandTakeCarriesOutTheRow
  intro s m running turn l h b d s1
  have take : exec .commandTake s = .next (s1.carryOut h b) := exec_commandTake_of_turn running turn
  rw [take]
  refine ⟨fun plain => if_neg (by simp [plain]),
    fun op => State.carryOut_lift op fun _ _ => rfl,
    fun op => congrArg Host.Outcome.next (State.carryOut_command op fun _ _ => rfl),
    fun op => congrArg Host.Outcome.next (State.carryOut_command op fun _ _ => rfl),
    fun op => congrArg Host.Outcome.next (State.carryOut_command op fun _ _ => rfl),
    fun op => State.carryOut_lift op fun _ _ => rfl,
    fun op => State.carryOut_lift op fun _ _ => rfl,
    fun op => ?map,
    fun op => State.carryOut_lift op fun _ _ => rfl,
    fun op => State.carryOut_lift op fun _ _ => rfl,
    fun op => State.carryOut_lift op fun _ _ => rfl,
    fun op => congrArg Host.Outcome.next (State.carryOut_command op fun _ _ => rfl),
    fun op => congrArg Host.Outcome.next (State.carryOut_command op fun _ _ => rfl),
    fun op => congrArg Host.Outcome.next (State.carryOut_command op fun _ _ => rfl),
    fun op => State.carryOut_lift op fun _ _ => rfl,
    fun op => State.carryOut_lift op fun _ _ => rfl,
    fun op => State.carryOut_lift op fun _ _ => rfl,
    fun op => State.carryOut_lift op fun _ _ => rfl,
    fun op => State.carryOut_lift op fun _ _ => rfl,
    fun op => State.carryOut_lift op fun _ _ => rfl,
    fun op => State.carryOut_lift op fun _ _ => rfl,
    fun op => State.carryOut_lift op fun _ _ => rfl,
    fun op => State.carryOut_lift op fun _ _ => rfl,
    fun op => State.carryOut_lift op fun _ _ => rfl,
    fun op => State.carryOut_lift op fun _ _ => rfl,
    fun op => State.carryOut_lift op fun _ _ => rfl,
    fun op => State.carryOut_lift op fun _ _ => rfl⟩
  rw [exec_map, execMap, parseHeader_mapReserved op]
  exact State.carryOut_lift op fun _ _ => rfl

end

section
/-! PROOFS. Doorbells, the head of a completion ring, MBX_CTRL, and the completion record of a command (R249, R250, R252,
R260, R270). -/

namespace Sys2Proof.Machine

/-! ## Doorbells and the ring's head -/

/-- A status bit that an event records stands after it, where the register is not the recorder's own. -/
theorem Dev.bitAt_flagEvent_same (d : Dev) {off b : Nat} (e : EventRec) (records : off / 0x10000 ≠ 13) (h : b < 32) :
    (d.flagEvent off b e).bitAt off b = true := by
  unfold Dev.flagEvent
  rw [Dev.bitAt, Dev.reg_event _ _ _ records]
  exact d.bitAt_setBit_same _ h

theorem Dev.doorbellWrite_taken {d : Dev} {m v : Nat} (box : m < 17)
    (near : (v % 32 + 32 - (d.box m).consumed) % 32 ≤ 16) :
    d.doorbellWrite m 4 v = d.modBox m fun b => { b with doorbell := v % 32, booting := !d.boxOpen m } := by
  simp [Dev.doorbellWrite, Nat.not_le.mpr box, Nat.not_lt.mpr near]

theorem Dev.doorbellWrite_refused {d : Dev} {m v : Nat} (box : m < 17)
    (far : 16 < (v % 32 + 32 - (d.box m).consumed) % 32) : d.doorbellWrite m 4 v = d.setBit Off.mbxStatus 4 := by
  simp [Dev.doorbellWrite, Nat.not_le.mpr box, far]

theorem Dev.box_mbxCqHead (d : Dev) {m : Nat} (v : Nat) (box : m < d.mbx.boxes.length) :
    (d.mbxCqHead m v).box m = { d.box m with head :=
      if (v + 2 ^ 32 - (d.box m).head) % 2 ^ 32 ≤ ((d.box m).tail + 2 ^ 32 - (d.box m).head) % 2 ^ 32 then v
      else (d.box m).head } := by
  unfold Dev.mbxCqHead
  dsimp only
  split
  next out => rw [if_neg (Nat.not_le.mpr out)]
  next inside => rw [if_pos (Nat.not_lt.mp inside), Dev.box_modBox_same d _ box]

theorem Dev.mbxCqHead_frame (d : Dev) (m v : Nat) :
    (∀ k, k ≠ m → (d.mbxCqHead m v).box k = d.box k) ∧
      d.mbxCqHead m v = { d with mbx := { d.mbx with boxes := (d.mbxCqHead m v).mbx.boxes } } := by
  unfold Dev.mbxCqHead
  dsimp only
  split
  · exact ⟨fun _ _ => rfl, rfl⟩
  · exact ⟨fun _ other => Dev.box_modBox_other d _ other, rfl⟩

/-! ## The control register of a mailbox -/

/-- A new size that the field takes (R270). -/
theorem sizeTakes {d : Dev} {m v : Nat} (host : 1 ≤ m) (low : 6 ≤ v % 32) (high : v % 32 ≤ 16)
    (new : v % 32 ≠ d.fld (mbxCtrlOff m) 4 0) :
    (decide (1 ≤ m) && (decide (v % 32 = 0) || inRange (v % 32) 6 16) &&
      decide (v % 32 ≠ d.fld (mbxCtrlOff m) 4 0)) = true := by
  simp [inRange, host, low, high, new]

/-- MBX_CTRL with a new size on a paused mailbox that stays paused: the ring starts anew. -/
theorem Dev.mbxCtrl_resizes {d : Dev} {m v : Nat} (box : m < 17) (host : 1 ≤ m) (paused : d.boxPaused m = true)
    (low : 6 ≤ v % 32) (high : v % 32 ≤ 16) (new : v % 32 ≠ d.fld (mbxCtrlOff m) 4 0) (stays : bit v 31 = true) :
    d.mbxCtrl m v = ((d.setFld (mbxCtrlOff m) 4 0 (v % 32)).modBox m
      fun b => { b with head := 0, tail := 0, phase := true }).setFld (mbxCtrlOff m) 31 31 (v / 2 ^ 31) := by
  unfold Dev.mbxCtrl
  dsimp only
  rw [sizeTakes host low high new]
  simp [Nat.not_le.mpr box, paused, stays]

/-- A new size for a mailbox that is not paused is refused (R270). -/
theorem Dev.mbxCtrl_busy {d : Dev} {m v : Nat} (box : m < 17) (host : 1 ≤ m) (runs : d.boxPaused m = false)
    (low : 6 ≤ v % 32) (high : v % 32 ≤ 16) (new : v % 32 ≠ d.fld (mbxCtrlOff m) 4 0) :
    d.mbxCtrl m v = d.flagEvent Off.mbxStatus 2 { arg0 := m } := by
  unfold Dev.mbxCtrl
  dsimp only
  rw [sizeTakes host low high new]
  simp [Nat.not_le.mpr box, runs]

theorem Dev.modBox_mem (d : Dev) (m : Nat) (f : Mailbox → Mailbox) : (d.modBox m f).mem = d.mem := rfl

theorem Dev.modBox_host (d : Dev) (m : Nat) (f : Mailbox → Mailbox) : (d.modBox m f).host = d.host := rfl

theorem Dev.setFld_box (d : Dev) (o hi lo v k : Nat) : (d.setFld o hi lo v).box k = d.box k := rfl

theorem exec_doorbellWrite_cases {s : State} {m : Nat} (v : Word) (running : s.running = true) (bound : m < 17) :
    ∃ t, exec (.doorbellWrite m 4 v) s = .next t ∧
      ((v.toNat % 32 + 32 - (s.dev.box m).consumed) % 32 ≤ 16 →
        t = { s with dev := s.dev.modBox m fun b =>
          { b with doorbell := v.toNat % 32, booting := !s.dev.boxOpen m } }) ∧
      (16 < (v.toNat % 32 + 32 - (s.dev.box m).consumed) % 32 → t.dev.bitAt Off.mbxStatus 4 = true ∧
        t.dev.mbx = s.dev.mbx ∧ t = { s with dev := { s.dev with regs := t.dev.regs } }) := by
  refine ⟨_, hostWrite_running _ running, fun near => ?_, fun far => ?_⟩
  · rw [Dev.doorbellWrite_taken bound near]
  · rw [Dev.doorbellWrite_refused bound far]
    exact ⟨Dev.bitAt_setBit_same _ _ (by decide), rfl, rfl⟩

theorem exec_mbxCqHead_eq {s : State} {m : Nat} (v : Word) (running : s.running = true) :
    exec (.mbxCqHead m v) s = .next { s with dev := s.dev.mbxCqHead m v.toNat } := hostWrite_running _ running

/-- The control register after `mbxCtrl_resizes`: the new size, and PAUSE (R270). -/
theorem Dev.resized_ctrl (d : Dev) (m v : Nat) (f : Mailbox → Mailbox) (stays : bit v 31 = true) :
    let e := ((d.setFld (mbxCtrlOff m) 4 0 (v % 32)).modBox m f).setFld (mbxCtrlOff m) 31 31 (v / 2 ^ 31)
    e.fld (mbxCtrlOff m) 4 0 = v % 32 ∧ e.boxPaused m = true := by
  constructor
  · exact (Dev.fld_setFld_below _ _ _ (by decide) (by decide)).trans
      ((Dev.fld_setFld_same d _ 0 _ (by decide)).trans (Nat.mod_mod v 32))
  · exact (Dev.bitAt_setFld_same _ _ _ (by decide)).trans
      (by rw [← Nat.testBit_eq_decide_div_mod_eq]; exact stays)

theorem mailboxRegisters : Clause.MailboxRegisters := by
  intro s m v running bound boxes
  have box : m < s.dev.mbx.boxes.length := boxes ▸ bound
  refine ⟨exec_doorbellWrite_cases v running bound, ?head, ?resize, ?busy⟩
  case head =>
    obtain ⟨others, same⟩ := s.dev.mbxCqHead_frame m v.toNat
    refine ⟨_, exec_mbxCqHead_eq v running, ?_, ?_, others, congrArg (fun d => { s with dev := d }) same⟩
    · rw [s.dev.box_mbxCqHead v.toNat box]
    · rw [s.dev.box_mbxCqHead v.toNat box]
  case resize =>
    intro host paused low high new stays
    refine ⟨_, hostWrite_running _ running, ?_⟩
    rw [Dev.mbxCtrl_resizes bound host paused low high new stays]
    obtain ⟨size, pause⟩ := s.dev.resized_ctrl m v.toNat (fun b => { b with head := 0, tail := 0, phase := true }) stays
    have others (k : Nat) (other : k ≠ m) := Dev.box_modBox_other (s.dev.setFld (mbxCtrlOff m) 4 0 (v.toNat % 32))
      (fun b => { b with head := 0, tail := 0, phase := true }) other
    have ring := Dev.box_modBox_same (s.dev.setFld (mbxCtrlOff m) 4 0 (v.toNat % 32))
      (fun b => { b with head := 0, tail := 0, phase := true }) box
    refine ⟨size, pause, ?_, ?_, ?_, fun k other => ?_, ?_, ?_⟩
    · rw [Dev.setFld_box, ring]
    · rw [Dev.setFld_box, ring]
    · rw [Dev.setFld_box, ring]
    · rw [Dev.setFld_box, others k other, Dev.setFld_box]
    · rw [Dev.setFld_mem, Dev.modBox_mem, Dev.setFld_mem]
    · rw [Dev.setFld_host, Dev.modBox_host, Dev.setFld_host]
  case busy =>
    intro host runs low high new
    refine ⟨_, hostWrite_running _ running, ?_⟩
    rw [Dev.mbxCtrl_busy bound host runs low high new]
    exact ⟨Dev.bitAt_flagEvent_same _ _ (by decide) (by decide), Dev.flagEvent_mbx ..⟩

/-! ## A completion record in host memory -/

/-- Host memory without holes takes every write (R224). -/
theorem Dev.postHost_without_holes {d : Dev} (a : Nat) (l : List Byte) (holes : d.env.hostHoles = []) :
    d.postHost a l = { d with host := memStore d.host a l } := by
  simp [Dev.postHost, Dev.writeHost, Dev.hostFails, holes]

/-- A command answered, before its record: its journal entry is rewritten in place, and one command fewer is outstanding in
its mailbox (R260). -/
def Dev.answered (d : Dev) (h : CmdHdr) (status : Nat) : Dev :=
  ({ d with mbx := { d.mbx with
      journal := d.mbx.journal.map fun (e : JournalRec) =>
        if e.j = h.j then { e with done := true, completedAt := d.now, status := status } else e
      openCmds := d.mbx.openCmds.filter fun c => decide (c.j ≠ h.j) } } : Dev).modBox h.mbx
    fun b => { b with outstanding := b.outstanding - 1 }

/-- A completion record as the ring holds it: the PHASE of this pass in its last word (R250, R252). -/
def Mailbox.phased (b : Mailbox) (body : List Byte) : List Byte := upd body 28 fun x => if b.phase then x ||| 1 else x

/-- Where entry `n` of the ring of mailbox `m` lies in host memory (R270). -/
def Dev.ringEntry (d : Dev) (m n : Nat) : Nat :=
  d.fld (Off.mbxCqBaseLo + 0x20 * m) 31 12 * 4096 + 2 ^ 32 * d.reg (Off.mbxCqBaseHi + 0x20 * m) + 32 * n

/-- A record in the ring of a host mailbox: its bytes with their PHASE at the entry TAIL points to, the mailbox one entry
further, and the vector sent (R247, R250). -/
def Dev.inRing (d : Dev) (m : Nat) (body : List Byte) : Dev :=
  let n := (d.box m).tail % d.ringSize m
  let adv := fun (b : Mailbox) => { b with
    tail := (b.tail + 1) % 2 ^ 32, phase := if n + 1 = d.ringSize m then !b.phase else b.phase }
  ({ d with host := memStore d.host (d.ringEntry m n) ((d.box m).phased body) }.modBox m adv).vector m

theorem Dev.postRecord_host {d : Dev} {m : Nat} (body : List Byte) (host : 1 ≤ m) (ring : d.ringSize m ≠ 0)
    (holes : d.env.hostHoles = []) : d.postRecord m body = d.inRing m body := by
  unfold Dev.postRecord
  dsimp only
  rw [if_neg ring, if_neg (by omega), Dev.postHost_without_holes _ _ holes]
  rfl

theorem Dev.box_inRing {d : Dev} {m : Nat} (body : List Byte) (box : m < d.mbx.boxes.length) :
    (d.inRing m body).box m = { d.box m with
      tail := ((d.box m).tail + 1) % 2 ^ 32
      phase := if (d.box m).tail % d.ringSize m + 1 = d.ringSize m then !(d.box m).phase else (d.box m).phase } :=
  Dev.box_modBox_same { d with host := _ } _ box

theorem Dev.box_answered {d : Dev} {h : CmdHdr} (status : Nat) (box : h.mbx < d.mbx.boxes.length) :
    (d.answered h status).box h.mbx = { d.box h.mbx with outstanding := (d.box h.mbx).outstanding - 1 } :=
  Dev.box_modBox_same { d with mbx := { d.mbx with journal := _, openCmds := _ } } _ box

/-- A command of a host mailbox that is not silent, or that fails, has its record in the mailbox's ring. -/
theorem Dev.complete_posts {d : Dev} {h : CmdHdr} {status : Nat} (result : Nat) (host : 1 ≤ h.mbx)
    (ring : d.ringSize h.mbx ≠ 0) (runs : d.boxPaused h.mbx = false) (holes : d.env.hostHoles = [])
    (told : ¬ (h.silent = true ∧ status = 0)) :
    d.complete h status result = (d.answered h status).inRing h.mbx (cmdRecord h status result d.now) := by
  have responds : d.complete h status result = (d.answered h status).respond h status result := if_neg told
  have posts : (d.answered h status).respond h status result =
      (d.answered h status).postRecord h.mbx (cmdRecord h status result d.now) :=
    if_neg (show ¬ d.boxPaused h.mbx = true by simp [runs])
  have ring' : (d.answered h status).ringSize h.mbx ≠ 0 := ring
  rw [responds, posts, Dev.postRecord_host _ host ring' holes]

/-- The record and its place in the ring are 32 bytes each (R252). -/
theorem phased_cmdRecord_length (b : Mailbox) (h : CmdHdr) (status result now : Nat) :
    (b.phased (cmdRecord h status result now)).length = 32 := by
  simp [Mailbox.phased, cmdRecord, le]

theorem completionRecordReachesTheRing : Clause.CompletionRecordReachesTheRing := by
  intro d h status result host box ring runs holes told t n image at0
  have posted : t = (d.answered h status).inRing h.mbx (cmdRecord h status result d.now) :=
    Dev.complete_posts result host ring runs holes told
  have length : image.length = 32 := phased_cmdRecord_length ..
  have box' : h.mbx < (d.answered h status).mbx.boxes.length := by simpa [Dev.answered] using box
  have tail : ((d.answered h status).box h.mbx).tail = (d.box h.mbx).tail :=
    by rw [Dev.box_answered status box]
  have phase : ((d.answered h status).box h.mbx).phase = (d.box h.mbx).phase :=
    by rw [Dev.box_answered status box]
  have after : t.box h.mbx = { d.box h.mbx with
      outstanding := (d.box h.mbx).outstanding - 1
      tail := ((d.box h.mbx).tail + 1) % 2 ^ 32
      phase := if n + 1 = d.ringSize h.mbx then !(d.box h.mbx).phase else (d.box h.mbx).phase } := by
    rw [posted, Dev.box_inRing _ box', Dev.box_answered status box]
    rfl
  have hostAfter : t.host = memStore d.host at0 image := by
    rw [posted]
    show memStore d.host (Dev.ringEntry _ _ (((d.answered h status).box h.mbx).tail % _)) (Mailbox.phased _ _) = _
    rw [tail, Mailbox.phased, phase]
    rfl
  have entries : t.mbx.journal = d.mbx.journal.map fun (e : JournalRec) =>
      if e.j = h.j then { e with done := true, completedAt := d.now, status := status } else e := by rw [posted]; rfl
  have envAfter : t.env = (d.vector h.mbx).env := by rw [posted]; rfl
  refine ⟨?_, fun a out => ?_, congrArg Mailbox.tail after, congrArg Mailbox.phase after,
    congrArg Mailbox.outstanding after, envAfter, fun open_ => ?_, fun e listed mine => ?_, fun e listed other => ?_,
    by rw [posted]; rfl, by rw [posted]; rfl⟩
  · rw [hostAfter, ← length]
    exact memLoad_memStore _ _ _
  · rw [hostAfter]
    exact memGet_memStore_other _ _ (length.symm ▸ out)
  · rw [envAfter, Dev.vector]
    simp [open_]
  · rw [entries]
    exact List.mem_map.mpr ⟨e, listed, if_pos mine⟩
  · rw [entries]
    exact List.mem_map.mpr ⟨e, listed, if_neg other⟩

end Sys2Proof.Machine

/-- Settles O7: a register write of a mailbox has one case for what it takes, and a record in the ring moves its mailbox and
its own 32 bytes. -/
theorem mailboxesAndCompletions : Obligations.MailboxesAndCompletions := by
  unfold Obligations.MailboxesAndCompletions
  exact ⟨Sys2Proof.Machine.mailboxRegisters, Sys2Proof.Machine.completionRecordReachesTheRing⟩

end

section
/-! PROOFS. What completions leave alone, and REQUEST_ADMIT (R253, R301, R303). -/

namespace Sys2Proof.Machine

/-! ## What a completion leaves alone -/

/-- Between `d` and `d'` a completion went to its mailbox: at most host memory, the mailboxes, the interrupts sent, the recorder
with its registers, and the free values drawn differ. -/
def Dev.Posted (d d' : Dev) : Prop :=
  d' = { d with fresh := d'.fresh, regs := d'.regs, host := d'.host, mbx := d'.mbx, evr := d'.evr, env := d'.env }

theorem Dev.Posted.refl (d : Dev) : d.Posted d := rfl

theorem Dev.Posted.trans {a b c : Dev} (h : a.Posted b) (k : b.Posted c) : a.Posted c :=
  Eq.trans k (congrArg (fun x : Dev => { x with
    fresh := c.fresh, regs := c.regs, host := c.host, mbx := c.mbx, evr := c.evr, env := c.env }) h)

theorem Dev.Looked.posted {d d' : Dev} (h : d.Looked d') : d.Posted d' := by
  rw [h]
  rfl

section
variable {d d' : Dev} (h : d.Posted d')
include h

theorem Dev.Posted.now : d'.now = d.now := by rw [h]
theorem Dev.Posted.bring : d'.bring = d.bring := by rw [h]
theorem Dev.Posted.mem : d'.mem = d.mem := by rw [h]
theorem Dev.Posted.hub : d'.hub = d.hub := by rw [h]
theorem Dev.Posted.mmu : d'.mmu = d.mmu := by rw [h]
theorem Dev.Posted.grf : d'.grf = d.grf := by rw [h]
theorem Dev.Posted.srv : d'.srv = d.srv := by rw [h]
theorem Dev.Posted.lnk : d'.lnk = d.lnk := by rw [h]

end

theorem Dev.posted_modBox (d : Dev) (m : Nat) (f : Mailbox → Mailbox) : d.Posted (d.modBox m f) := rfl

theorem Dev.posted_writeHost {d d' : Dev} {a : Nat} {l : List Byte} (h : d.writeHost a l = some d') : d.Posted d' := by
  rcases d.writeHost_cases a l with e | e <;> rw [e] at h <;> cases h
  rfl

theorem Dev.posted_postHost (d : Dev) (a : Nat) (l : List Byte) : d.Posted (d.postHost a l) := by
  unfold Dev.postHost
  split
  next written => exact Dev.posted_writeHost written
  next => exact (d.looked_event _ _).posted

theorem Dev.posted_postRecord (d : Dev) (m : Nat) (l : List Byte) : d.Posted (d.postRecord m l) := by
  unfold Dev.postRecord
  dsimp only
  split
  · exact .refl d
  split
  · exact (d.posted_modBox _ _).trans (Dev.looked_vector _ _).posted
  · exact ((d.posted_postHost _ _).trans (Dev.posted_modBox _ _ _)).trans (Dev.looked_vector _ _).posted

theorem Dev.posted_respond (d : Dev) (h : CmdHdr) (status result : Nat) : d.Posted (d.respond h status result) := by
  unfold Dev.respond
  dsimp only
  split
  · exact d.posted_modBox _ _
  · exact d.posted_postRecord _ _

theorem Dev.posted_complete (d : Dev) (h : CmdHdr) (status result : Nat) : d.Posted (d.complete h status result) := by
  have answered : d.Posted (d.answered h status) := rfl
  unfold Dev.complete
  dsimp only
  split
  · exact answered
  · exact answered.trans (Dev.posted_respond _ _ _ _)

theorem Answer.posted_finish (a : Answer) (h : CmdHdr) : a.dev.Posted (a.finish h) := by
  unfold Answer.finish
  split
  · exact Dev.posted_complete _ _ _ _
  · have drawn : a.dev.Posted a.dev.drawNat.2 := rfl
    exact drawn.trans (Dev.posted_complete _ _ _ _)

/-! ## Pages of the key-value cache -/

/-- Between `d` and `d'` device memory was read, and pages were allocated, mapped, copied and shared: at most registers,
memory with its allocation and tables, the cache's frames, the recorder and the free values drawn differ. -/
def Dev.Paged (d d' : Dev) : Prop :=
  d' = { d with fresh := d'.fresh, regs := d'.regs, mem := d'.mem, upsets := d'.upsets, att := d'.att, mmu := d'.mmu
                evr := d'.evr, env := d'.env }

theorem Dev.Paged.refl (d : Dev) : d.Paged d := rfl

theorem Dev.Paged.trans {a b c : Dev} (h : a.Paged b) (k : b.Paged c) : a.Paged c :=
  Eq.trans k (congrArg (fun x : Dev => { x with
    fresh := c.fresh, regs := c.regs, mem := c.mem, upsets := c.upsets, att := c.att, mmu := c.mmu
    evr := c.evr, env := c.env }) h)

theorem Dev.Paged.foldl {α : Type} {f : Dev → α → Dev} (hf : ∀ (d : Dev) a, d.Paged (f d a)) (l : List α) (d : Dev) :
    d.Paged (l.foldl f d) := by
  induction l generalizing d with
  | nil => exact .refl d
  | cons a l ih => exact (hf d a).trans (ih _)

theorem Dev.Paged.srv {d d' : Dev} (h : d.Paged d') : d'.srv = d.srv := by rw [h]
theorem Dev.Paged.grf {d d' : Dev} (h : d.Paged d') : d'.grf = d.grf := by rw [h]

theorem Dev.Looked.paged {d d' : Dev} (h : d.Looked d') : d.Paged d' := by
  rw [h]
  rfl

theorem Dev.Tabled.paged {d d' : Dev} (h : d.Tabled d') : d.Paged d' := by
  rw [h]
  rfl

theorem Dev.paged_writePa (d : Dev) (pa : Nat) (l : List Byte) : d.Paged (d.writePa pa l) := rfl

theorem Dev.paged_modFrame (d : Dev) (pa : Nat) (f : KvFrame → KvFrame) : d.Paged (d.modFrame pa f) := rfl

theorem Dev.paged_takeFrame {d d' : Dev} {near : Bool} {pa : Nat} (h : d.takeFrame near = some (pa, d')) : d.Paged d' := by
  obtain ⟨⟨a, e⟩, got, same⟩ := Option.map_eq_some_iff.mp h
  cases same
  have allocated : d.Paged e := by
    split at got
    · exact (Dev.tabled_allocNear got).paged
    · exact (Dev.tabled_allocMem got).paged
  exact allocated.trans rfl

theorem Dev.paged_kvMap {d d' : Dev} {space va pa : Nat} {write : Bool} (h : d.kvMap space va pa write = some d') :
    d.Paged d' := by
  obtain ⟨e, mapped, rfl⟩ := Option.map_eq_some_iff.mp h
  exact (Dev.tabled_setLeaf mapped).paged.trans rfl

theorem Dev.paged_kvMap_getD {d e : Dev} (before : d.Paged e) (space va pa : Nat) (write : Bool) :
    d.Paged ((e.kvMap space va pa write).getD d) := by
  cases mapped : e.kvMap space va pa write with
  | none => exact .refl d
  | some e' => exact before.trans (Dev.paged_kvMap mapped)

theorem Dev.paged_copyFrame (d : Dev) (src dst : Nat) : d.Paged (d.copyFrame src dst).2 := by
  have read := d.looked_readPa {} src 65536
  unfold Dev.copyFrame
  split
  next same => rw [same] at read; exact read.paged.trans (Dev.paged_writePa _ _ _)
  next same => rw [same] at read; exact read.paged

theorem Dev.paged_mapAhead (d : Dev) (s upTo : Nat) : d.Paged (d.mapAhead s upTo) := by
  refine Dev.Paged.foldl (fun d k => Dev.Paged.foldl (fun d p => ?_) _ d) _ d
  dsimp only
  split
  · exact .refl d
  split
  · exact .refl d
  next taken => exact Dev.paged_kvMap_getD (Dev.paged_takeFrame taken) ..

theorem Dev.paged_kvAttach (d : Dev) (m : KvMap) (va : Nat) : d.Paged (d.kvAttach m va) := by
  unfold Dev.kvAttach
  split
  · exact .refl d
  split
  · have counted : d.Paged ((d.bump Off.attShareOverflows).setBit Off.attStatus 6) := rfl
    refine counted.trans ?_
    dsimp only
    split
    · exact .refl _
    next taken => exact Dev.paged_kvMap_getD ((Dev.paged_takeFrame taken).trans (Dev.paged_copyFrame _ _ _)) ..
  · split
    · exact .refl d
    next mapped =>
      obtain ⟨e, first, second⟩ := Option.bind_eq_some_iff.mp mapped
      exact (Dev.paged_kvMap first).trans ((Dev.paged_kvMap second).trans (Dev.paged_modFrame _ _ _))

theorem Dev.paged_kvAttachPrefix (d : Dev) (holder s n : Nat) : d.Paged (d.kvAttachPrefix holder s n) := by
  refine Dev.Paged.foldl (fun d k => Dev.Paged.foldl (fun d p => ?_) _ d) _ d
  split
  · exact .refl d
  dsimp only
  split
  · exact d.paged_kvAttach _ _
  split
  · split
    · exact .refl d
    next d' taken =>
      cases mapped : (Dev.copyFrame d' _ _).2.kvMap _ _ _ true with
      | none => exact .refl d
      | some e =>
        exact ((Dev.paged_takeFrame taken).trans (Dev.paged_copyFrame _ _ _)).trans ((Dev.paged_kvMap mapped).trans rfl)
  · exact .refl d

theorem Dev.paged_storeCounts (d : Dev) (id : Nat) (toks : List Nat) : d.Paged (d.storeCounts id toks) := by
  unfold Dev.storeCounts
  split
  · exact .refl d
  split
  · exact .refl d
  · exact Dev.Paged.foldl (fun d _ => d.paged_writePa _ _) _ d

/-! ## What admission reads and allocates -/

theorem Dev.paged_fetch (d : Dev) (va n : Nat) : d.Paged (d.fetch va n).2 := by
  have read := d.looked_readVa {} 0 va n
  unfold Dev.fetch
  split <;> next same => rw [same] at read; exact read.paged

/-- The status of a read that fails is one of the fault causes, or UNCORRECTABLE (R301). -/
theorem Dev.fetch_status {d : Dev} {va n st : Nat} (h : (d.fetch va n).1 = .error st) : st ≠ 0 := by
  unfold Dev.fetch at h
  split at h <;> cases h <;> omega

theorem Dev.paged_admitMemory {d d' : Dev} {prompt counts : Bool} {n : Nat} {p c : Option Nat}
    (h : d.admitMemory prompt counts n = some (p, c, d')) : d.Paged d' := by
  unfold Dev.admitMemory at h
  obtain ⟨⟨a, e⟩, first, second⟩ := Option.bind_eq_some_iff.mp h
  have prompted : d.Paged e := by
    split at first
    · obtain ⟨x, got, same⟩ := Option.map_eq_some_iff.mp first
      cases same
      exact (Dev.tabled_allocMem got).paged
    · cases first
      exact .refl d
  refine prompted.trans ?_
  split at second
  · cases second
    exact .refl _
  · obtain ⟨x, got, same⟩ := Option.map_eq_some_iff.mp second
    cases same
    split at got
    next near => cases got; exact (Dev.tabled_allocNear near).paged
    next => exact (Dev.tabled_allocMem got).paged

/-! ## Sequence slots -/

/-- Fewer than 4,096 tracked requests leave a sequence slot free (R301). -/
theorem Dev.freeSeq_free {d : Dev} (room : d.srv.requests.length < 4096) :
    (∀ q ∈ d.srv.requests, q.seqSlot ≠ d.freeSeq) ∧ ∀ k < d.freeSeq, ∃ q ∈ d.srv.requests, q.seqSlot = k := by
  unfold Dev.freeSeq
  cases found : (List.range 4096).find? fun s => !(d.srv.requests.any fun r => decide (r.seqSlot = s)) with
  | none =>
    have all : List.range 4096 ⊆ d.srv.requests.map (·.seqSlot) := by
      intro k listed
      simpa using List.find?_eq_none.mp found k listed
    have := (List.subperm_of_subset List.nodup_range all).length_le
    rw [List.length_range, List.length_map] at this
    omega
  | some i =>
    obtain ⟨free, -, held⟩ := List.find?_range_eq_some.mp found
    exact ⟨by simpa using free, fun k below => by simpa using held k below⟩

theorem Dev.freeSeq_congr {d d' : Dev} (h : d'.srv = d.srv) : d'.freeSeq = d.freeSeq := by
  unfold Dev.freeSeq
  rw [h]

/-! ## Admission -/

/-- A request stands as REQUEST_ADMIT tracks it, with its operands (R301, R303). -/
structure Request.AsAdmitted (r : Request) (d : Dev) (b : AdmitBody) : Prop where
  id : r.id = b.id
  seqSlot : r.seqSlot = d.freeSeq
  edition : r.edition = d.srv.current
  order : r.order = d.srv.admitted
  maxTokens : r.maxTokens = b.maxTokens
  promptTokens : r.promptTokens = b.promptTokens
  seed : r.seed = b.seed
  follow : r.follow = b.follow
  committed : r.committed = r.prefixLen
  prefixLen : r.prefixLen = (if b.pfx = 0xFFFFFFFF then 0 else ((d.request b.pfx).map Request.promptEnd).getD 0)

/-- The ring's header is written, or the request just tracked ends (R319, R322). -/
theorem Dev.ringStart_requests (d : Dev) (id : Nat) :
    (d.ringStart id).srv.requests = d.srv.requests ∨
      (d.ringStart id).srv.requests = d.srv.requests.map fun r =>
        if r.id = id then { r with state := .ended, endReason := 5, endStatus := 0x0506, pending := false } else r := by
  unfold Dev.ringStart
  split
  · exact .inl rfl
  split
  · exact .inl rfl
  split
  next written =>
    obtain ⟨e, first, second⟩ := Option.bind_eq_some_iff.mp written
    exact .inl (congrArg Srv.requests ((Dev.posted_writeHost first).trans (Dev.posted_writeHost second)).srv)
  next =>
    refine .inr ?_
    rw [Dev.ringFailed, Dev.modRequest, Dev.event_srv]

/-- A test that failed stands in its list. -/
theorem failed_of_firstFail {l : List (Bool × Nat)} {st : Nat} (h : firstFail l = some st) : (false, st) ∈ l := by
  induction l with
  | nil => cases h
  | cons x l ih =>
    obtain ⟨ok, s⟩ := x
    cases ok with
    | true => exact List.mem_cons_of_mem _ (ih h)
    | false => cases h; exact List.mem_cons_self

/-- Tests none of which fails all pass. -/
theorem passed_of_firstFail {l : List (Bool × Nat)} (h : firstFail l = none) : ∀ x ∈ l, x.1 = true := by
  induction l with
  | nil => simp
  | cons x l ih =>
    obtain ⟨ok, s⟩ := x
    cases ok with
    | true => exact List.forall_mem_cons.mpr ⟨rfl, ih h⟩
    | false => cases h

theorem Dev.request_none_iff {d : Dev} {id : Nat} : d.request id = none ↔ ∀ q ∈ d.srv.requests, q.id ≠ id := by
  simp [Dev.request]

/-- The request just tracked, as its ring's header leaves it: every other request stands. -/
theorem Dev.ringStart_tracked {d e : Dev} {b : AdmitBody} {r : Request} (tracked : r.AsAdmitted d b)
    (new : d.request b.id = none) (requests : e.srv.requests = d.srv.requests ++ [r]) :
    ∃ r' : Request, r'.AsAdmitted d b ∧ (e.ringStart b.id).srv.requests = d.srv.requests ++ [r'] := by
  rcases e.ringStart_requests b.id with same | ended
  · exact ⟨r, tracked, same.trans requests⟩
  · obtain ⟨id, seqSlot, edition, order, maxTokens, promptTokens, seed, follow, committed, prefixLen⟩ := tracked
    refine ⟨{ r with state := .ended, endReason := 5, endStatus := 0x0506, pending := false },
      ⟨id, seqSlot, edition, order, maxTokens, promptTokens, seed, follow, committed, prefixLen⟩, ?_⟩
    rw [ended, requests, List.map_append, List.map_singleton, if_pos id]
    congr 1
    exact (List.map_congr_left fun q listed => if_neg (Dev.request_none_iff.mp new q listed)).trans (List.map_id _)

/-- A read that was not made, or that a fault ended, fails with no status 0. -/
theorem fetchTest_ne {d : Dev} {made : Bool} {va n : Nat} {x : Except Nat (List Byte)} {d' : Dev} (needed : Bool)
    (h : (if made then d.fetch va n else (.ok [], d)) = (x, d')) : fetchTest needed x ≠ (false, 0) := by
  intro zero
  match x with
  | .ok _ => simp [fetchTest] at zero
  | .error st =>
    have none : st = 0 := congrArg Prod.snd zero
    split at h
    · exact Dev.fetch_status (congrArg Prod.fst h) none
    · cases h

theorem Dev.paged_fetch_if {d d' : Dev} {made : Bool} {va n : Nat} {x : Except Nat (List Byte)}
    (h : (if made then d.fetch va n else (.ok [], d)) = (x, d')) : d.Paged d' := by
  split at h
  · have := d.paged_fetch va n
    rwa [h] at this
  · cases h
    exact .refl d

theorem samplingTests_ne (l : List Byte) (va : Nat) (speculate : Bool) : (false, 0) ∉ samplingTests l va speculate := by
  simp [samplingTests]

/-- How REQUEST_ADMIT ends: refused, with every request as it was, or answered OK with one more request tracked. -/
theorem Dev.admission_cases (d : Dev) (b : AdmitBody) :
    ((d.admission b).status ≠ 0 ∧ (d.admission b).dev.srv = d.srv) ∨
    ((d.admission b).status = 0 ∧ d.request b.id = none ∧ d.srv.requests.length < 4096 ∧
      ∃ r : Request, r.AsAdmitted d b ∧ (d.admission b).dev.srv.requests = d.srv.requests ++ [r]) := by
  unfold Dev.admission
  extract_lets cur holder plen embeds samples
  have plenIs : plen = if b.pfx = 0xFFFFFFFF then 0 else ((d.request b.pfx).map Request.promptEnd).getD 0 := by
    simp only [plen, holder]
    split <;> rfl
  have curIs : cur = d.srv.current := rfl
  clear_value cur holder plen embeds samples
  split
  next st failed =>
    refine .inl ⟨fun none : st = 0 => ?_, rfl⟩
    subst none
    have := failed_of_firstFail failed
    simp [Dev.admitTests] at this
  next passed =>
  have new : d.request b.id = none := by
    simpa using passed_of_firstFail passed ((d.request b.id).isNone, 0x0801) (by simp [Dev.admitTests])
  have room : d.srv.requests.length < 4096 := by
    simpa using passed_of_firstFail passed (decide (d.srv.requests.length < 4096), 0x0803) (by simp [Dev.admitTests])
  split
  next blk d1 sampled =>
  have first := Dev.paged_fetch_if sampled
  split
  next smp d2 shape =>
  have shaped : d.Paged d2 := by
    refine first.trans ?_
    split at shape
    · cases shape; exact .refl d1
    split at shape
    · cases shape; rfl
    · cases shape; exact .refl d1
  extract_lets reads
  split
  next pr d3 prompted =>
  have read := shaped.trans (Dev.paged_fetch_if prompted)
  extract_lets toks adapter vocab
  split
  next st failed =>
    refine .inl ⟨fun none : st = 0 => ?_, read.srv⟩
    subst none
    rcases List.mem_append.mp (failed_of_firstFail failed) with early | late
    · rcases List.mem_append.mp early with reading | sampling
      · have ne1 := fetchTest_ne reads prompted
        have ne2 := fetchTest_ne samples sampled
        simp [ne1.symm, ne2.symm] at reading
      · split at sampling
        · exact samplingTests_ne _ _ _ sampling
        · cases sampling
    · simp at late
  next =>
  split
  next => exact .inl ⟨fun zero => absurd (show 0x0011 = 0 from zero) (by decide), read.srv⟩
  next pAt cAt d4 allocated =>
  have before := (read.trans (Dev.paged_admitMemory allocated)).srv
  refine .inr ⟨rfl, new, room, ?_⟩
  extract_lets r _ d5 d6 d7
  have tracked : r.AsAdmitted d b :=
    { id := rfl, seqSlot := ?slot, edition := curIs, order := congrArg Srv.admitted before, maxTokens := rfl
      promptTokens := rfl, seed := rfl, follow := rfl, committed := rfl, prefixLen := plenIs }
  have attached : d5.Paged d6 := by
    dsimp only [d6]
    split
    · exact d5.paged_kvAttachPrefix _ _ _
    · exact .refl d5
  have counted : d6.Paged d7 := by
    dsimp only [d7]
    split
    · exact (d6.paged_writePa _ _).trans (Dev.paged_storeCounts _ _ _)
    · exact .refl d6
  have mapped := (attached.trans counted).trans (Dev.paged_mapAhead d7 r.seqSlot (plen + 64))
  exact Dev.ringStart_tracked tracked new ((congrArg Srv.requests mapped.srv).trans
    (congrArg (fun x : Srv => x.requests ++ [r]) before))
  case slot =>
    dsimp only [r]
    exact Dev.freeSeq_congr before

/-- A test of REQUEST_ADMIT that needs no memory fails (R301). -/
theorem Dev.admission_refused {d : Dev} {b : AdmitBody} {st : Nat}
    (failed : ∀ plen, firstFail ((!((d.template d.srv.current).map (·.samples)).getD false || aligned b.ring 4096, 0x000A) ::
      d.admitTests b plen) = some st) : d.admission b = d.no st := by
  unfold Dev.admission
  dsimp only
  rw [failed]

theorem exec_requestAdmit_accepted {s : State} {h h' : CmdHdr} {d : Dev} (b : AdmitBody)
    (accepted : s.dev.accept { h with opcode := 0x0110 } = (some h', d)) :
    exec (.requestAdmit h b) s = .next { s with dev := (d.admission b).finish h' } := by
  rw [exec_requestAdmit, execRequestAdmit, lift_command accepted]

/-- A request tracked behind the others is the one of its id, and stands in no other's way. -/
theorem Dev.request_tracked {d e : Dev} {id : Nat} {r : Request} (new : d.request id = none) (mine : r.id = id)
    (requests : e.srv.requests = d.srv.requests ++ [r]) :
    e.request id = some r ∧ ∀ k, k ≠ id → e.request k = d.request k := by
  unfold Dev.request at *
  rw [requests]
  refine ⟨?_, fun k other => ?_⟩
  · rw [List.find?_append, new]
    simp [mine]
  · have out : r.id ≠ k := fun same => other (same.symm.trans mine)
    rw [List.find?_append]
    simp [out]

end Sys2Proof.Machine

open Sys2Proof Sys2Proof.Machine in
/-- Settles O19: the tests without memory are a list taken in order; past all tests exactly one request is appended, and
what admission does to pages and rings after that changes no request but this one. -/
theorem requestAdmission : Obligations.RequestAdmission := by
  unfold Obligations.RequestAdmission
  intro s h h' d b accepted samples
  have refused {st : Nat} (failed : ∀ plen, firstFail ((!samples || aligned b.ring 4096, 0x000A) :: d.admitTests b plen) = some st) :
      exec (.requestAdmit h b) s = .next { s with dev := (d.no st).finish h' } := by
    rw [exec_requestAdmit_accepted b accepted, Dev.admission_refused failed]
  have ring (ok : samples = true → b.ring % 4096 = 0) : (!samples || aligned b.ring 4096) = true := by
    cases same : samples with
    | false => rfl
    | true => simp [aligned, ok same]
  refine ⟨fun sampling off => refused fun plen => ?_, fun ok cycling => refused fun plen => ?_,
    fun ok plain => ⟨fun reserved => refused fun plen => ?_, fun id held => refused fun plen => ?_,
      fun id new full => refused fun plen => ?_⟩,
    _, exec_requestAdmit_accepted b accepted, rfl, fun fails => ?_, fun okay => ?_⟩
  · simp [firstFail, aligned, sampling, off]
  · simp [firstFail, ring ok, Dev.admitTests, cycling]
  · simp [firstFail, ring ok, Dev.admitTests, plain, reserved]
  · simp [firstFail, ring ok, Dev.admitTests, plain, id, Option.isSome_iff_ne_none.mp held]
  · simp [firstFail, ring ok, Dev.admitTests, plain, id, new, full]
  · rw [((d.admission b).posted_finish h').srv]
    obtain ⟨-, same⟩ | ⟨zero, -⟩ := d.admission_cases b
    · rw [same]
    · exact absurd zero fails
  · obtain ⟨fails, -⟩ | ⟨-, new, room, r, tracked, requests⟩ := d.admission_cases b
    · exact absurd okay fails
    obtain ⟨id, seqSlot, edition, order, maxTokens, promptTokens, seed, follow, committed, prefixLen⟩ := tracked
    have after : ((d.admission b).finish h').srv.requests = d.srv.requests ++ [r] := by
      rw [((d.admission b).posted_finish h').srv, requests]
    obtain ⟨found, others⟩ := Dev.request_tracked new id after
    obtain ⟨free, lowest⟩ := Dev.freeSeq_free room
    exact ⟨r, found, edition, seqSlot ▸ free, seqSlot ▸ lowest, order, maxTokens, promptTokens, seed, follow, committed,
      prefixLen, others⟩

end

section
/-! PROOFS. GRAPH_LOAD, GRAPH_RUN, GRAPH_CANCEL and GRAPH_UNLOAD (R257, R272-R277). -/

namespace Sys2Proof.Machine

/-! ## Reads of ranges -/

theorem Acc.join_ok {α β γ : Type} {f : α → β → γ} {x : Acc α} {y : Acc β} {c : γ} (h : Acc.join f x y = .ok c) :
    ∃ a b, x = .ok a ∧ y = .ok b ∧ f a b = c := by
  cases x <;> cases y <;> cases h
  exact ⟨_, _, rfl, rfl, rfl⟩

theorem Dev.looked_readEach (d : Dev) (r : Reader) (space : Nat) (rs : List (Nat × Nat)) : d.Looked (d.readEach r space rs).2 := by
  refine Dev.Looked.foldl (fun x w => ?_) rs ((.ok [] : Acc (List (List Byte))), d)
  refine Dev.Looked.foldl (fun y p => ?_) (pieces w.1 w.2) ((.ok [] : Acc (List Byte)), x.2)
  exact y.2.looked_readPiece r space p.1 p.2

/-- Ranges read well give one list of bytes for each range. -/
theorem Dev.readEach_length {d d' : Dev} {r : Reader} {space : Nat} {rs : List (Nat × Nat)} {ls : List (List Byte)}
    (h : d.readEach r space rs = (.ok ls, d')) : ls.length = rs.length := by
  suffices fold : ∀ {f : Acc (List (List Byte)) × Dev → Nat × Nat → Acc (List (List Byte)) × Dev},
      (∀ x w out, (f x w).1 = .ok out → ∃ before l, x.1 = .ok before ∧ out = before ++ [l]) →
      ∀ (rs : List (Nat × Nat)) (x : Acc (List (List Byte)) × Dev) out, (rs.foldl f x).1 = .ok out →
        ∃ before, x.1 = .ok before ∧ out.length = before.length + rs.length by
    obtain ⟨before, empty, length⟩ := fold (fun x w out ok => by
      obtain ⟨before, l, first, -, joined⟩ := Acc.join_ok ok
      exact ⟨before, l, first, joined.symm⟩) rs (.ok [], d) ls (congrArg Prod.fst h)
    cases empty
    simpa using length
  intro f one rs
  induction rs with
  | nil => exact fun x out ok => ⟨out, ok, rfl⟩
  | cons w rs ih =>
    intro x out ok
    obtain ⟨middle, after, length⟩ := ih _ out ok
    obtain ⟨before, l, first, rfl⟩ := one x w middle after
    refine ⟨before, first, ?_⟩
    simp only [length, List.length_append, List.length_cons, List.length_nil]
    omega

/-! ## Loading -/

/-- A slot loaded from a descriptor, its task headers and its edges (R272, R273). -/
def GraphSlot.ofDesc (g : GraphSlot) (l : List Byte) (space : Nat) (hs : List TaskHdr) (edges : List Nat) : GraphSlot :=
  { state := .loaded, startNow := bit (leAt l 4 2) 8, channel := bits (leAt l 4 2) 5 4
    rank := leAt l 4 1 % 8, space := space, frames := leAt l 8 2, limit := leAt l 0xA 2
    label := leAt l 0x20 4, base := leAt l 0x10 8, tasks := hs, edges := edges, runId := g.runId }

/-- The ranges of a descriptor's task headers and edges (R273). -/
def descRanges (l : List Byte) : List (Nat × Nat) :=
  (List.range (leAt l 0 4)).map (fun i => (leAt l 0x10 8 + 256 * i, 64)) ++ [(leAt l 0x18 8, 2 * leAt l 0xC 4)]

/-- A descriptor with its task headers and edges, read and tested from `d` to `d'` (R272, R273, R275, R277). -/
structure Dev.Described (d d' : Dev) (slot space desc : Nat) (l : List Byte) (hs : List TaskHdr) (edges : List Nat) : Prop where
  empty : (d.slot slot).state = .empty
  aligned : aligned desc 64 = true
  tests : firstFail (descTests l space) = none
  reads : ∃ d1 ls, d.readEach { cls := 8 } space [(desc, 64)] = (.ok [l], d1) ∧
    d1.readEach { cls := 8 } space (descRanges l) = (.ok ls, d') ∧ hs = (ls.take (leAt l 0 4)).map parseHdr ∧
    edges = leWords 2 (leAt l 0xC 4) (ls.getD (leAt l 0 4) []) ∧ ∀ x ∈ ls.take (leAt l 0 4), hdrStatus x = none
  edges : ∀ i < leAt l 0 4, edgesOk hs edges i = true

/-- No test of a list gives a status. -/
theorem firstBad_none_iff {l : List (Option Nat)} : firstBad l = none ↔ ∀ x ∈ l, x = none := by
  simp only [firstBad, Option.map_eq_none_iff, List.find?_eq_none, Bool.not_eq_true, Option.isSome_eq_false_iff,
    Option.isNone_iff_eq_none]
  refine ⟨fun h x listed => ?_, fun h x listed => h _ (List.fst_mem_of_mem_zipIdx listed)⟩
  obtain ⟨i, at_⟩ := List.mem_iff_getElem?.mp listed
  exact h (x, i) (List.mem_zipIdx_iff_getElem?.mpr at_)

/-- The status of a header that is refused is RESERVED_BITS or TASK_TYPE. -/
theorem firstBad_hdrStatus {l : List (List Byte)} {st i : Nat} (h : firstBad (l.map hdrStatus) = some (st, i)) : st ≠ 0 := by
  obtain ⟨x, found, same⟩ := Option.map_eq_some_iff.mp h
  have some := List.find?_some found
  obtain ⟨y, -, header⟩ := List.mem_map.mp (List.fst_mem_of_mem_zipIdx (List.mem_of_find?_eq_some found))
  obtain ⟨v, value⟩ := Option.isSome_iff_exists.mp some
  have listed := failed_of_firstFail (header.trans value)
  cases same
  rw [value]
  rintro rfl
  simp at listed

/-- A descriptor that passes every test leaves its slot LOADED. -/
theorem Dev.graphLoad_loads {d d' : Dev} {slot space desc : Nat} {l : List Byte} {hs : List TaskHdr} {edges : List Nat}
    (h : d.Described d' slot space desc l hs edges) :
    d.graphLoad slot space desc = (d'.modSlot slot fun g => g.ofDesc l space hs edges).yes := by
  obtain ⟨empty, aligned, tests, ⟨d1, ls, first, second, rfl, rfl, headers⟩, edges⟩ := h
  unfold Dev.graphLoad
  dsimp only
  rw [if_neg (by simp [empty]), if_neg (by simp [aligned]), first]
  dsimp only [List.headD]
  rw [tests]
  dsimp only
  rw [show (List.range (leAt l 0 4)).map (fun i => (leAt l 0x10 8 + 256 * i, 64)) ++ [(leAt l 0x18 8, 2 * leAt l 0xC 4)] =
    descRanges l from rfl, second]
  dsimp only
  rw [firstBad_none_iff.mpr (List.forall_mem_map.mpr headers)]
  dsimp only
  rw [List.find?_eq_none.mpr (by simpa using edges)]
  rfl

/-- A load that answers OK has read and tested a descriptor. -/
theorem Dev.described_of_graphLoad {d : Dev} {slot space desc : Nat} (ok : (d.graphLoad slot space desc).status = 0) :
    ∃ d' l hs edges, d.Described d' slot space desc l hs edges := by
  unfold Dev.graphLoad at ok
  dsimp only at ok
  split at ok
  · cases ok
  split at ok
  · cases ok
  next full off =>
  split at ok
  · simp [Dev.no] at ok
  · cases ok
  next l0 d1 first =>
  obtain ⟨l, rfl⟩ := List.length_eq_one_iff.mp (Dev.readEach_length first)
  split at ok
  next st failed =>
    have listed := failed_of_firstFail failed
    rw [show st = 0 from ok] at listed
    simp [descTests] at listed
  next passed =>
  split at ok
  · simp [Dev.no] at ok
  · cases ok
  next ls d2 second =>
  split at ok
  next bad => exact absurd ok (firstBad_hdrStatus bad)
  next good =>
  split at ok
  · cases ok
  next edged =>
  exact ⟨d2, l, _, _, by simpa using full, by simpa using off, passed,
    ⟨d1, ls, first, second, rfl, rfl, List.forall_mem_map.mp (firstBad_none_iff.mp good)⟩, by simpa using List.find?_eq_none.mp edged⟩

section
variable {d d' : Dev} {slot space desc : Nat} {l : List Byte} {hs : List TaskHdr} {edges : List Nat}
  (h : d.Described d' slot space desc l hs edges)
include h

theorem Dev.Described.looked : d.Looked d' := by
  obtain ⟨d1, ls, first, second, -⟩ := h.reads
  have one := d.looked_readEach { cls := 8 } space [(desc, 64)]
  rw [first] at one
  have two := d1.looked_readEach { cls := 8 } space (descRanges l)
  rw [second] at two
  exact one.trans two

theorem Dev.Described.tasks_length : hs.length = leAt l 0 4 := by
  obtain ⟨d1, ls, -, second, rfl, -⟩ := h.reads
  have length := Dev.readEach_length second
  simp only [descRanges, List.length_append, List.length_map, List.length_range, List.length_singleton] at length
  rw [List.length_map, List.length_take, length]
  omega

theorem Dev.Described.tasks_inRange : 1 ≤ hs.length ∧ hs.length ≤ 65536 := by
  rw [h.tasks_length]
  simpa [inRange] using passed_of_firstFail h.tests (inRange (leAt l 0 4) 1 65536, 0x0701) (by simp [descTests])

theorem Dev.Described.types {x : TaskHdr} (listed : x ∈ hs) : 1 ≤ x.type ∧ x.type ≤ 7 := by
  obtain ⟨d1, ls, -, -, rfl, -, headers⟩ := h.reads
  obtain ⟨b, read, rfl⟩ := List.mem_map.mp listed
  simpa [inRange, parseHdr] using passed_of_firstFail (headers b read) (inRange (leAt b 0 1) 1 7, 0x0702) (by simp)

/-- The successors of a task stand behind it, and its PRED_COUNT counts the edges that reach it (R277). -/
theorem Dev.Described.succeeds {i : Nat} {x : TaskHdr} (at_ : hs[i]? = some x) :
    (∀ e ∈ x.successors edges, i < e ∧ e < hs.length) ∧ x.preds = (hs.map fun y => (y.successors edges).count i).sum := by
  have below : i < leAt l 0 4 := h.tasks_length ▸ (List.getElem?_eq_some_iff.mp at_).1
  have ok := h.edges i below
  have task : hs.getD i {} = x := by rw [List.getD_eq_getElem?_getD, at_]; rfl
  simp only [edgesOk, task, Bool.and_eq_true, List.all_eq_true, decide_eq_true_eq] at ok
  exact ⟨ok.1.2, ok.2⟩

end

/-! ## Runs -/

/-- What GRAPH_RUN makes of a LOADED slot (R274, R280). -/
def GraphSlot.accepted (g : GraphSlot) (order now : Nat) (h : CmdHdr) : GraphSlot :=
  { g.arm order (fun _ => false) with state := .waiting, cmd := some h, template := none, acceptedAt := now }

theorem arm_left (g : GraphSlot) (order : Nat) (isVoid : Nat → Bool) :
    (g.arm order isVoid).run.map (·.left) = g.tasks.map (·.preds) := by
  simp only [GraphSlot.arm, List.map_map]
  exact (List.map_map (g := fun h : TaskHdr => h.preds) (f := Prod.fst)).symm.trans (by rw [List.zipIdx_map_fst])

theorem readyRuns_left (l : List TaskRun) : (readyRuns l).map (·.left) = l.map (·.left) := by
  simp only [readyRuns, List.map_map]
  refine List.map_congr_left fun t _ => ?_
  dsimp only [Function.comp_apply]
  split <;> rfl

theorem upd_upd {α : Type} (l : List α) (i : Nat) (f g : α → α) : upd (upd l i f) i g = upd l i fun a => g (f a) := by
  induction l generalizing i with
  | nil => rfl
  | cons a l ih => cases i <;> simp [upd, ih]

theorem Dev.modSlot_modSlot (d : Dev) (i : Nat) (f g : GraphSlot → GraphSlot) :
    (d.modSlot i f).modSlot i g = d.modSlot i fun a => g (f a) := by simp only [Dev.modSlot, upd_upd]

/-- A LOADED slot accepted for a run, and started where its graph says START_NOW (R274). -/
def GraphSlot.ran (g : GraphSlot) (order now : Nat) (h : CmdHdr) : GraphSlot :=
  let a := g.accepted order now h
  if g.startNow then { a with state := .running, ticks := 0, run := readyRuns a.run } else a

theorem GraphSlot.ran_left (g : GraphSlot) (order now : Nat) (h : CmdHdr) :
    (g.ran order now h).run.map (·.left) = g.tasks.map (·.preds) := by
  unfold GraphSlot.ran
  dsimp only
  split
  · exact (readyRuns_left _).trans (arm_left g order fun _ => false)
  · exact arm_left g order fun _ => false

/-- What GRAPH_RUN leaves of the slot besides its tasks (R274). -/
theorem GraphSlot.ran_fields (g : GraphSlot) (order now : Nat) (h : CmdHdr) :
    (g.ran order now h).state = (if g.startNow then .running else .waiting) ∧ (g.ran order now h).cmd = some h ∧
      (g.ran order now h).order = order ∧ (g.ran order now h).done = 0 := by
  unfold GraphSlot.ran
  cases g.startNow <;> exact ⟨rfl, rfl, rfl, rfl⟩

/-- GRAPH_RUN of a LOADED slot (R274). -/
theorem Dev.graphRun_loaded {d : Dev} {h : CmdHdr} {slot : Nat} (range : slot < d.grf.slots.length)
    (loaded : (d.slot slot).state = .loaded) :
    ∃ f : GraphSlot → GraphSlot, d.graphRun h slot = (none, d.takeOrder.modSlot slot f) ∧
      f (d.slot slot) = (d.slot slot).ran d.grf.order d.now h := by
  have run : d.graphRun h slot =
      (none, if ((d.takeOrder.modSlot slot fun g => g.accepted d.grf.order d.now h).slot slot).startNow
        then (d.takeOrder.modSlot slot fun g => g.accepted d.grf.order d.now h).startGraph slot
        else d.takeOrder.modSlot slot fun g => g.accepted d.grf.order d.now h) := by
    unfold Dev.graphRun
    rw [loaded]
    rfl
  have mine : (d.takeOrder.modSlot slot fun g => g.accepted d.grf.order d.now h).slot slot =
      (d.slot slot).accepted d.grf.order d.now h := Dev.slot_modSlot_same range _
  rw [run, mine]
  by_cases starts : (d.slot slot).startNow = true
  · have armed : ((d.slot slot).accepted d.grf.order d.now h).startNow = true := starts
    rw [if_pos armed, Dev.startGraph, Dev.modSlot_modSlot]
    exact ⟨_, rfl, (if_pos starts).symm⟩
  · have armed : ¬ ((d.slot slot).accepted d.grf.order d.now h).startNow = true := starts
    rw [if_neg armed]
    exact ⟨_, rfl, (if_neg starts).symm⟩

theorem exec_graphRun_accepted {s : State} {h h' : CmdHdr} {d : Dev} (slot : Nat)
    (accepted : s.dev.accept { h with opcode := 0x0101 } = (some h', d)) :
    exec (.graphRun h slot) s = .next { s with dev := Dev.orLater (d.graphRun h' slot) h' } := by
  rw [exec_graphRun, execGraphRun, lift_command accepted]

theorem exec_graphCancel_accepted {s : State} {h h' : CmdHdr} {d : Dev} (slot : Nat)
    (accepted : s.dev.accept { h with opcode := 0x0102 } = (some h', d)) :
    exec (.graphCancel h slot) s = .next { s with dev := Dev.orLater (d.graphCancel h' slot) h' } := by
  rw [exec_graphCancel, execGraphCancel, lift_command accepted]

theorem exec_graphUnload_accepted {s : State} {h h' : CmdHdr} {d : Dev} (slot : Nat)
    (accepted : s.dev.accept { h with opcode := 0x0103 } = (some h', d)) :
    exec (.graphUnload h slot) s = .next { s with dev := (d.graphUnload slot).finish h' } := by
  rw [exec_graphUnload, execGraphUnload, lift_command accepted]

theorem exec_graphLoad_accepted {s : State} {h h' : CmdHdr} {d : Dev} (slot space desc : Nat)
    (accepted : s.dev.accept { h with opcode := 0x0100 } = (some h', d)) :
    exec (.graphLoad h slot space desc) s = .next { s with dev := (d.graphLoad slot space desc).finish h' } := by
  rw [exec_graphLoad, execGraphLoad, lift_command accepted]

/-! ## The end of a run -/

/-- A failing graph keeps every programming round (R95, R274). -/
theorem Dev.runStopped_rounds {d : Dev} {slot : Nat} (running : (d.slot slot).state = .running) (status arg2 : Nat) :
    (d.runStopped slot status arg2).pln.rounds = d.pln.rounds := by
  have fails := d.failGraph_rounds slot status arg2
  rw [Dev.failGraph_running running] at fails
  dsimp only at fails
  split at fails
  · exact fails
  · rwa [Dev.finishRun_pln] at fails

/-- A running graph that no programming round holds is LOADED once it has failed (R274, R283). -/
theorem Dev.state_failGraph {d : Dev} {slot : Nat} (range : slot < d.grf.slots.length)
    (running : (d.slot slot).state = .running) (free : d.programming slot = false) (status arg2 : Nat) :
    ((d.failGraph slot status arg2).slot slot).state = .loaded := by
  have rounds : (d.runStopped slot status arg2).programming slot = false := by
    rw [Dev.programming, Dev.runStopped_rounds running]
    exact free
  rw [Dev.failGraph_running running]
  dsimp only
  rw [if_neg (by simp [rounds])]
  exact Dev.state_finishRun ((d.graphsStand_runStopped slot status arg2).slots.symm ▸ range) status

theorem graphRunCancelUnload : Clause.GraphRunCancelUnload := by
  intro s h h' d slot range
  refine ⟨fun accepted => ?run, fun accepted => ?cancel, fun accepted => ?unload⟩
  case run =>
    rw [exec_graphRun_accepted slot accepted]
    refine ⟨fun empty => ?_, fun busy => ?_, fun loaded => ?_⟩
    · rw [Dev.graphRun, empty]
      rfl
    · rcases busy with busy | busy | busy <;> rw [Dev.graphRun, busy] <;> rfl
    · obtain ⟨f, run, ran⟩ := Dev.graphRun_loaded (h := h') range loaded
      have mine : (d.takeOrder.modSlot slot f).slot slot = f (d.slot slot) := Dev.slot_modSlot_same range _
      obtain ⟨state, cmd, order, done⟩ := (d.slot slot).ran_fields d.grf.order d.now h'
      rw [run]
      refine ⟨_, rfl, ?_, ?_, ?_, rfl, ?_, ?_, fun k other => Dev.slot_modSlot_other _ other _, rfl⟩ <;>
        dsimp only [Dev.orLater] <;> rw [mine, ran]
      · exact state
      · exact cmd
      · exact order
      · exact GraphSlot.ran_left _ _ _ _
      · exact done
  case cancel =>
    rw [exec_graphCancel_accepted slot accepted]
    refine ⟨fun waiting => ⟨?_, Dev.state_finishRun range _⟩, fun idle => ?_, fun running free => ?_⟩
    · rw [Dev.graphCancel, waiting]
      rfl
    · rcases idle with idle | idle | idle <;> rw [Dev.graphCancel, idle] <;> rfl
    · have cancels : d.graphCancel h' slot =
          (none, (d.modSlot slot fun g => { g with cancel := some h' }).failGraph slot 0x0013) := by
        rw [Dev.graphCancel, running]
      have mine := Dev.slot_modSlot_same range fun g => { g with cancel := some h' }
      have range' := (d.modSlot_length slot fun g => { g with cancel := some h' }).symm ▸ range
      rw [cancels]
      refine ⟨_, rfl, ?_, fun alone => ?_⟩
      · exact Dev.state_failGraph range' ((congrArg GraphSlot.state mine).trans running) free _ _
      · exact (Dev.kept_failGraph (d.modSlot slot fun g => { g with cancel := some h' }) slot 0x0013 0 alone.2
          ((congrArg GraphSlot.template mine).trans alone.1)).mem
  case unload =>
    rw [exec_graphUnload_accepted slot accepted]
    refine ⟨fun idle => ?_, fun busy => ?_⟩
    · have unloads : d.graphUnload slot = (d.modSlot slot fun g => { runId := g.runId }).yes := by
        rcases idle with idle | idle <;> rw [Dev.graphUnload, idle]
      have posted := (d.graphUnload slot).posted_finish h'
      rw [unloads] at posted ⊢
      have mine := Dev.slot_modSlot_same range fun g => { runId := g.runId }
      refine ⟨_, rfl, ?_, ?_, fun k other => ?_, posted.mem⟩
      · rw [Dev.slot_congr posted.grf]
        exact congrArg GraphSlot.state mine
      · rw [Dev.slot_congr posted.grf]
        exact congrArg GraphSlot.tasks mine
      · rw [Dev.slot_congr posted.grf]
        exact Dev.slot_modSlot_other _ other _
    · rcases busy with busy | busy | busy <;> rw [Dev.graphUnload, busy]

theorem graphLoad : Clause.GraphLoad := by
  intro s h h' d slot space desc range accepted
  rw [exec_graphLoad_accepted slot space desc accepted]
  refine ⟨fun full => ?_, fun empty off => ?_, fun ok => ?_⟩
  · rw [Dev.graphLoad, if_pos full]
  · rw [Dev.graphLoad, if_neg (by simp [empty]), if_pos (by simp [aligned, off])]
  · obtain ⟨d', l, hs, edges, described⟩ := Dev.described_of_graphLoad ok
    have posted := (d.graphLoad slot space desc).posted_finish h'
    rw [Dev.graphLoad_loads described] at posted ⊢
    have looked := described.looked
    have mine := Dev.slot_modSlot_same (d := d') (looked.grf.symm ▸ range) fun g => g.ofDesc l space hs edges
    refine ⟨_, rfl, ?_⟩
    intro g
    have loaded : g = (d'.slot slot).ofDesc l space hs edges := (Dev.slot_congr posted.grf slot).trans mine
    rw [loaded]
    refine ⟨rfl, rfl, described.tasks_inRange.1, described.tasks_inRange.2, fun i x at_ => ?_, fun k other => ?_⟩
    · obtain ⟨low, high⟩ := described.types (List.mem_of_getElem? at_)
      exact ⟨low, high, described.succeeds at_⟩
    · rw [Dev.slot_congr posted.grf]
      exact (Dev.slot_modSlot_other d' other _).trans (Dev.slot_congr looked.grf k)

end Sys2Proof.Machine

/-- Settles O15: each command of a slot has one case for each state of it, and a load that answers OK has read a descriptor
that passes every test. -/
theorem graphSlotCommands : Obligations.GraphSlotCommands := by
  unfold Obligations.GraphSlotCommands
  exact ⟨Sys2Proof.Machine.graphRunCancelUnload, Sys2Proof.Machine.graphLoad⟩

end

section
/-! PROOFS. BOOT_ROM and ENTER_FW (R266, R422, R424, R435, R443, R444, R446). -/

namespace Sys2Proof.Machine

/-! ## Changes of the bring-up state -/

theorem Dev.looked_flagEvent (d : Dev) (off b : Nat) (e : EventRec) : d.Looked (d.flagEvent off b e) :=
  (d.looked_setBit off b).trans (Dev.looked_event _ _ _)

/-- A change of the bring-up state records itself, and touches nothing besides (R267). -/
theorem Dev.looked_setBring (d : Dev) (b : Bringup) (reason : Nat) :
    ({ d with bring := b, holdReason := reason, since := d.now } : Dev).Looked (d.setBring b reason) :=
  (Dev.looked_flagEvent _ _ _ _).trans (Dev.looked_vector _ _)

section
variable (d : Dev) (b : Bringup) (reason : Nat)

@[simp] theorem Dev.setBring_bring : (d.setBring b reason).bring = b := by rw [d.looked_setBring b reason]
@[simp] theorem Dev.setBring_holdReason : (d.setBring b reason).holdReason = reason := by rw [d.looked_setBring b reason]
@[simp] theorem Dev.setBring_mem : (d.setBring b reason).mem = d.mem := by rw [d.looked_setBring b reason]
@[simp] theorem Dev.setBring_pln : (d.setBring b reason).pln = d.pln := by rw [d.looked_setBring b reason]
@[simp] theorem Dev.setBring_mbx : (d.setBring b reason).mbx = d.mbx := by rw [d.looked_setBring b reason]
@[simp] theorem Dev.setBring_hub : (d.setBring b reason).hub = d.hub := by rw [d.looked_setBring b reason]
@[simp] theorem Dev.setBring_lnk : (d.setBring b reason).lnk = d.lnk := by rw [d.looked_setBring b reason]

theorem Dev.reg_setBring {o : Nat} (status : o ≠ Off.mbxStatus) (records : o / 0x10000 ≠ 13) :
    (d.setBring b reason).reg o = d.reg o :=
  Dev.reg_flagEvent { d with bring := b, holdReason := reason, since := d.now } 0 _ status records

end

/-- What opening a mailbox changes: its own mailbox, and the count of discarded slots (R268). -/
theorem Dev.openBox_frame (d : Dev) (m : Nat) :
    d.openBox m = { d with regs := (d.openBox m).regs, mbx := { d.mbx with boxes := (d.openBox m).mbx.boxes } } := by
  unfold Dev.openBox
  dsimp only
  split <;> rfl

/-- RECOVERY, entered (R266, R435, R436). -/
theorem State.enterRecovery_eq (s : State) (reason : Nat) :
    let t := s.enterRecovery reason
    t.dev.bring = .recovery ∧ t.dev.mem = s.dev.mem ∧ t.dev.pln = s.dev.pln ∧ t.dev.mbx.recoveryDue = false ∧
      t.fw = s.fw ∧ t.flash = s.flash ∧ t.sec = { s.sec with reason := reason } := by
  refine ⟨?_, ?_, ?_, ?_, rfl, rfl, rfl⟩ <;>
    simp only [State.enterRecovery] <;> rw [Dev.openBox_frame] <;> simp

/-! ## Slots chosen -/

/-- A part of a component that a change of components keeps stands in every component. -/
theorem State.comp_modComp {α : Type} (s : State) (i k : Nat) {f : FwComp → FwComp} {g : FwComp → α} (hf : ∀ c, g (f c) = g c) :
    g ((s.modComp i f).comp k) = g (s.comp k) := by
  unfold State.comp State.modComp
  simp only [List.getD_eq_getElem?_getD]
  by_cases same : k - 1 = i - 1
  · rw [same, upd_get_same]
    cases s.fw.comps[i - 1]? with
    | none => rfl
    | some c => exact hf c
  · rw [upd_get_other _ _ same]

/-- Between `s` and `t` firmware chose among its slots: what the slots hold, the flash and the device's secrets stand, and of
the device at most registers other than LNK_CTRL, the recorder and the interrupts sent differ. -/
structure State.Chose (s t : State) : Prop where
  looked : s.dev.Looked t.dev
  lnkCtrl : t.dev.reg Off.lnkCtrl = s.dev.reg Off.lnkCtrl
  flash : t.flash = s.flash
  sec : t.sec = s.sec
  slotA : ∀ k, (t.comp k).slotA = (s.comp k).slotA
  slotB : ∀ k, (t.comp k).slotB = (s.comp k).slotB

theorem State.Chose.refl (s : State) : s.Chose s := ⟨.refl _, rfl, rfl, rfl, fun _ => rfl, fun _ => rfl⟩

theorem State.Chose.trans {a b c : State} (h : a.Chose b) (k : b.Chose c) : a.Chose c :=
  ⟨h.looked.trans k.looked, k.lnkCtrl.trans h.lnkCtrl, k.flash.trans h.flash, k.sec.trans h.sec,
    fun i => (k.slotA i).trans (h.slotA i), fun i => (k.slotB i).trans (h.slotB i)⟩

/-- A slot boots or not by what it holds and by the flash's counters (R423, R424). -/
theorem State.Chose.boots {s t : State} (h : s.Chose t) (i : Nat) (m : FwImage) : t.boots i m = s.boots i m := by
  unfold State.boots State.verified State.counter
  rw [h.flash]

theorem State.chose_modComp (s : State) (i : Nat) {f : FwComp → FwComp} (slotA : ∀ c, (f c).slotA = c.slotA)
    (slotB : ∀ c, (f c).slotB = c.slotB) : s.Chose (s.modComp i f) :=
  ⟨.refl _, rfl, rfl, rfl, fun k => s.comp_modComp i k slotA, fun k => s.comp_modComp i k slotB⟩

theorem State.chose_select (s : State) (i : Nat) (b isPending : Bool) : s.Chose (s.select i b isPending) :=
  s.chose_modComp i (fun _ => rfl) fun _ => rfl

theorem State.chose_fwEvent (s : State) (b i : Nat) : s.Chose (s.fwEvent b i) :=
  ⟨s.dev.looked_flagEvent _ _ _, s.dev.reg_flagEvent b _ (by decide) (by decide), rfl, rfl, fun _ => rfl, fun _ => rfl⟩

theorem State.chose_countAttempt (s : State) (i : Nat) : s.Chose (s.countAttempt i) := by
  unfold State.countAttempt
  dsimp only
  split
  · exact .refl s
  split
  · exact s.chose_modComp i (fun _ => rfl) fun _ => rfl
  · have back := s.chose_select i (!(s.comp i).activeB) false
    have fell := State.chose_modComp (s.select i (!(s.comp i).activeB) false) i
      (f := fun c => { c with fellBack := true, shadow := none }) (fun _ => rfl) fun _ => rfl
    exact (back.trans fell).trans (State.chose_fwEvent _ _ _)

theorem State.chose_chooseSlot (s : State) (i : Nat) : s.Chose (s.chooseSlot i).2 := by
  have counted := s.chose_countAttempt i
  unfold State.chooseSlot
  dsimp only
  split
  · exact counted
  split
  · exact (counted.trans (State.chose_fwEvent _ _ _)).trans (State.chose_select _ _ _ _)
  · exact counted.trans (State.chose_fwEvent _ _ _)

theorem State.chose_chooseSlots (s : State) (l : List Nat) : s.Chose (s.chooseSlots l).2 := by
  induction l generalizing s with
  | nil => exact .refl s
  | cons i l ih =>
    have chosen := s.chose_chooseSlot i
    unfold State.chooseSlots
    split
    next first => rw [first] at chosen; exact chosen.trans (ih _)
    next first => rw [first] at chosen; exact chosen

/-- Both slots of a component fail (R424). -/
def State.slotsFail (s : State) (i : Nat) : Prop := s.boots i (s.comp i).slotA = false ∧ s.boots i (s.comp i).slotB = false

theorem State.Chose.slotsFail {s t : State} (h : s.Chose t) {i : Nat} (fails : s.slotsFail i) : t.slotsFail i := by
  unfold State.slotsFail
  rw [h.boots, h.boots, h.slotA, h.slotB]
  exact fails

theorem State.slotsFail.slot {s : State} {i : Nat} (fails : s.slotsFail i) (b : Bool) : s.boots i ((s.comp i).slot b) = false := by
  cases b with
  | false => exact fails.1
  | true => exact fails.2

/-- A component whose slots both fail has no slot to boot from. -/
theorem State.chooseSlot_fails {s : State} {i : Nat} (fails : s.slotsFail i) : (s.chooseSlot i).1 = false := by
  have counted := (s.chose_countAttempt i).slotsFail fails
  have flagged := (State.chose_fwEvent (s.countAttempt i) 3 i).slotsFail counted
  unfold State.chooseSlot
  dsimp only
  rw [FwComp.active, counted.slot, if_neg Bool.false_ne_true]
  have other : ((s.countAttempt i).fwEvent 3 i).boots i (((s.countAttempt i).comp i).slot
      (!((s.countAttempt i).comp i).activeB)) = false := flagged.slot _
  rw [other]
  rfl

/-- A component that waits for no confirmation and whose active slot boots stays as it is. -/
theorem State.chooseSlot_stays {s : State} {i : Nat} (settled : (s.comp i).isPending = false)
    (boots : s.boots i (s.comp i).active = true) : s.chooseSlot i = (true, s) := by
  have counted : s.countAttempt i = s := if_pos (by simp [settled])
  unfold State.chooseSlot
  dsimp only
  rw [counted, if_pos boots]

theorem State.chooseSlots_fails {s : State} {l : List Nat} {i : Nat} (listed : i ∈ l) (fails : s.slotsFail i) :
    (s.chooseSlots l).1 = false := by
  induction l generalizing s with
  | nil => cases listed
  | cons k l ih =>
    have chosen := s.chose_chooseSlot k
    unfold State.chooseSlots
    split
    next t first =>
      rw [first] at chosen
      rcases List.mem_cons.mp listed with rfl | later
      · have := State.chooseSlot_fails fails
        rw [first] at this
        cases this
      · exact ih later (chosen.slotsFail fails)
    next => rfl

theorem State.chooseSlots_stays {s : State} {l : List Nat}
    (settled : ∀ i ∈ l, (s.comp i).isPending = false ∧ s.boots i (s.comp i).active = true) :
    s.chooseSlots l = (true, s) := by
  induction l with
  | nil => rfl
  | cons i l ih =>
    obtain ⟨⟨settled, boots⟩, later⟩ := List.forall_mem_cons.mp settled
    unfold State.chooseSlots
    rw [State.chooseSlot_stays settled boots]
    exact ih later

/-! ## BOOT_ROM -/

/-- The state of a device past its self-tests: the PUF secret is derived, and the approved mode stands on closed debug (R446). -/
def State.tested (s : State) : State :=
  { s with sec := { s.sec with keys := some Config.pufKeys, selftestOk := true, approved := !s.sec.jtag } }

theorem State.bootRom_stays {s : State} (h : s.dev.bring ≠ .rom ∨ s.sec.keys ≠ none ∨ s.running = false) (ok : Bool) :
    s.bootRom ok = s := if_pos (by simpa using h)

section
variable {s : State} (rom : s.dev.bring = .rom) (keys : s.sec.keys = none) (running : s.running = true)
include rom keys running

theorem State.bootRom_failed : s.bootRom false = s.enterRecovery 4 := by
  simp [State.bootRom, rom, keys, running]

theorem State.bootRom_passed : s.bootRom true =
    if s.dev.env.recovery then s.tested.enterRecovery 1
    else if s.dev.mbx.recoveryDue then s.tested.enterRecovery 2
    else match s.tested.chooseSlot 1 with
      | (true, t) => t
      | (false, t) => t.enterRecovery 3 := by
  simp only [State.bootRom, rom, keys, running, State.tested]
  rfl

end

/-- BOOT_ROM of a device that passes its self-tests derives the secrets, and keeps the flash and the memory. -/
theorem State.bootRom_keeps {s : State} (rom : s.dev.bring = .rom) (keys : s.sec.keys = none) (running : s.running = true) :
    let t := s.bootRom true
    t.sec.keys = some Config.pufKeys ∧ t.sec.selftestOk = true ∧ (t.sec.approved = !s.sec.jtag) ∧ t.flash = s.flash ∧
      t.dev.mem = s.dev.mem := by
  have recovers (u : State) (sec : u.sec = s.tested.sec) (flash : u.flash = s.flash) (mem : u.dev.mem = s.dev.mem) (r : Nat) :
      (u.enterRecovery r).sec.keys = some Config.pufKeys ∧ (u.enterRecovery r).sec.selftestOk = true ∧
        ((u.enterRecovery r).sec.approved = !s.sec.jtag) ∧ (u.enterRecovery r).flash = s.flash ∧
        (u.enterRecovery r).dev.mem = s.dev.mem := by
    obtain ⟨-, mem', -, -, -, flash', sec'⟩ := u.enterRecovery_eq r
    rw [sec', flash', mem', sec]
    exact ⟨rfl, rfl, rfl, flash, mem⟩
  intro t
  have chosen := s.tested.chose_chooseSlot 1
  have boot : t = _ := State.bootRom_passed rom keys running
  rw [boot]
  split
  · exact recovers _ rfl rfl rfl 1
  split
  · exact recovers _ rfl rfl rfl 2
  split
  next first =>
    rw [first] at chosen
    rw [chosen.sec]
    exact ⟨rfl, rfl, rfl, chosen.flash, chosen.looked.mem⟩
  next first =>
    rw [first] at chosen
    exact recovers _ chosen.sec chosen.flash chosen.looked.mem 3

/-! ## ENTER_FW -/

/-- What checking a component's settings leaves: what its slots hold and its selector's choice (R434). -/
theorem State.checkSettings_keeps (s : State) (i : Nat) :
    s.Chose (s.checkSettings i) ∧ ∀ k, ((s.checkSettings i).comp k).active = (s.comp k).active := by
  unfold State.checkSettings
  dsimp only
  split
  · exact ⟨.refl s, fun _ => rfl⟩
  split
  · exact ⟨s.chose_modComp i (fun _ => rfl) fun _ => rfl, fun k => s.comp_modComp i k (g := FwComp.active) fun _ => rfl⟩
  · refine ⟨(s.chose_modComp i (fun c => ?_) fun c => ?_).trans (State.chose_fwEvent _ _ _),
      fun k => s.comp_modComp i k (g := FwComp.active) fun c => ?_⟩ <;> split <;> rfl

theorem State.checkSettings_foldl (l : List Nat) (s : State) :
    s.Chose (l.foldl State.checkSettings s) ∧ ∀ k, ((l.foldl State.checkSettings s).comp k).active = (s.comp k).active := by
  induction l generalizing s with
  | nil => exact ⟨.refl s, fun _ => rfl⟩
  | cons i l ih =>
    obtain ⟨chose, same⟩ := s.checkSettings_keeps i
    obtain ⟨chose', same'⟩ := ih (s.checkSettings i)
    exact ⟨chose.trans chose', fun k => (same' k).trans (same k)⟩

theorem Dev.Mapped.reg_eq {d d' : Dev} (h : d.Mapped d') (o : Nat) : d'.reg o = d.reg o := Dev.reg_congr (by rw [h]) o

theorem Dev.mapped_makeRoot {d d' : Dev} {space t : Nat} (h : d.makeRoot space = some (t, d')) : d.Mapped d' := by
  unfold Dev.makeRoot at h
  split at h
  · cases h
    exact .refl d
  · obtain ⟨x, new, same⟩ := Option.map_eq_some_iff.mp h
    cases same
    exact (Dev.mapped_newTable new).trans rfl

/-- What firmware's start leaves of the device: the link firmware's version, the root of space 0 with its page tables (R212,
R343, R349). -/
theorem State.loadFirmware_dev (s : State) :
    let t := s.loadFirmware
    t.dev.lnk = { s.dev.lnk with linkFw := (s.comp 6).active.version } ∧ t.dev.pln = s.dev.pln ∧
      t.dev.reg Off.lnkCtrl = s.dev.reg Off.lnkCtrl := by
  have exposed (d : Dev) : d.Mapped (d.pln.masterPages.foldl Dev.exposePage d) :=
    Dev.Mapped.foldl (fun d pa => d.mapped_exposePage pa) _ d
  intro t
  dsimp only [t, State.loadFirmware]
  split
  next t d made =>
    have root := Dev.mapped_makeRoot made
    have pages := exposed (d.setReg64 Off.mmuRootLo (t + 1))
    refine ⟨by rw [pages]; exact congrArg Dev.lnk root, pages.pln.trans root.pln, ?_⟩
    calc (Dev.reg _ Off.lnkCtrl) = (d.setReg64 Off.mmuRootLo (t + 1)).reg Off.lnkCtrl := pages.reg_eq _
      _ = (d.setReg Off.mmuRootLo ((t + 1) % 2 ^ 32)).reg Off.lnkCtrl := Dev.reg_setReg_other _ _ (by decide)
      _ = d.reg Off.lnkCtrl := Dev.reg_setReg_other _ _ (by decide)
      _ = s.dev.reg Off.lnkCtrl := root.reg_eq _
  next =>
    have pages := exposed { s.dev with
      lnk := { s.dev.lnk with linkFw := (s.comp 6).active.version }, env := { s.dev.env with configRetry := false } }
    exact ⟨by rw [pages], pages.pln, pages.reg_eq _⟩

/-- A confirmation window is firmware's own (R432). -/
theorem State.startWindow_keeps (s : State) :
    s.startWindow.dev = s.dev ∧ s.startWindow.flash = s.flash ∧ s.startWindow.fw.comps = s.fw.comps := by
  unfold State.startWindow
  split <;> exact ⟨rfl, rfl, rfl⟩

/-! ### Ports -/

theorem Dev.port_modPort_other (d : Dev) {p q : Nat} (f : Port → Port) (h : q ≠ p) : (d.modPort p f).port q = d.port q := by
  simp only [Dev.port, Dev.modPort, List.getD_eq_getElem?_getD, upd_get_other _ _ h]

/-- A port of a device that enters FW: it listens where it is enabled (R358). -/
def Dev.listenPort (d : Dev) (p : Nat) : Dev :=
  if d.portEnabled p then d.modPort p fun t => { t with state := .listen } else d

theorem Dev.portsListen_foldl (d : Dev) : d.portsListen = (List.range 6).foldl Dev.listenPort d := rfl

/-- A port that listens changes the ports alone. -/
theorem Dev.listenPort_eq (d : Dev) (p : Nat) :
    d.listenPort p = { d with lnk := { d.lnk with ports := (d.listenPort p).lnk.ports } } := by
  unfold Dev.listenPort
  split <;> rfl

theorem Dev.listenPort_length (d : Dev) (p : Nat) : (d.listenPort p).lnk.ports.length = d.lnk.ports.length := by
  unfold Dev.listenPort
  split
  · exact upd_length ..
  · rfl

theorem Dev.listenPort_foldl_eq (l : List Nat) (d : Dev) :
    l.foldl Dev.listenPort d = { d with lnk := { d.lnk with ports := (l.foldl Dev.listenPort d).lnk.ports } } := by
  induction l generalizing d with
  | nil => rfl
  | cons p l ih =>
    rw [List.foldl_cons]
    exact (ih (d.listenPort p)).trans (congrArg (fun e : Dev => { e with
      lnk := { e.lnk with ports := (l.foldl Dev.listenPort (d.listenPort p)).lnk.ports } }) (d.listenPort_eq p))

/-- Every enabled port of a list listens, and ports that listen stay so. -/
theorem Dev.listenPort_foldl (l : List Nat) {d : Dev} {p : Nat} (range : p < d.lnk.ports.length)
    (on : d.portEnabled p = true) (h : p ∈ l ∨ (d.port p).state = .listen) :
    ((l.foldl Dev.listenPort d).port p).state = .listen := by
  induction l generalizing d with
  | nil => simpa using h
  | cons q l ih =>
    have on' : (d.listenPort q).portEnabled p = true := by rw [d.listenPort_eq q]; exact on
    refine ih (by rwa [d.listenPort_length]) on' ?_
    by_cases same : q = p
    · subst same
      exact .inr (by rw [Dev.listenPort, if_pos on, d.port_modPort_same _ range])
    · have stays : (d.listenPort q).port p = d.port p := by
        unfold Dev.listenPort
        split
        · exact d.port_modPort_other _ (Ne.symm same)
        · rfl
      rw [stays]
      exact h.imp_left fun listed => by simpa [Ne.symm same] using listed

theorem State.enterFw_stays {s : State} (h : s.dev.bring ≠ .rom ∨ s.sec.keys = none ∨ s.running = false) : s.enterFw = s :=
  if_pos (by simpa using h)

/-- The state from which the slots of components 2 to 8 are chosen: past an erase that was cut short (R444). -/
def State.erased (s : State) : State := if s.flash.eraseMarker then s.eraseAll else s

/-- The settings of components 2 to 7 checked against their images (R434). -/
def State.settingsChecked (s : State) : State := [2, 3, 4, 5, 6, 7].foldl State.checkSettings s

/-- Firmware enters FW, its slots chosen (R266, R434). -/
def State.fwEntered (s : State) : State :=
  let s := s.settingsChecked.loadFirmware.startWindow
  { s with dev := (s.dev.setBring .fw).portsListen }

theorem State.enterFw_eq {s : State} (rom : s.dev.bring = .rom) (keys : s.sec.keys ≠ none) (running : s.running = true) :
    s.enterFw = match s.erased.chooseSlots [2, 3, 4, 5, 6, 7, 8] with
      | (false, t) => t.enterRecovery 3
      | (true, t) => t.fwEntered := by
  simp only [State.enterFw, rom, keys, running, State.erased]
  rfl

/-- What firmware's entry into FW leaves (R266, R358, R434). -/
theorem State.fwEntered_keeps (s : State) :
    s.fwEntered.flash = s.flash ∧ s.fwEntered.dev.pln = s.dev.pln ∧ s.fwEntered.dev.bring = .fw ∧
      s.fwEntered.dev.lnk.linkFw = (s.comp 6).active.version ∧ (∀ i, (s.fwEntered.comp i).active = (s.comp i).active) ∧
      ∀ p < 6, p < s.dev.lnk.ports.length → s.dev.portEnabled p = true → (s.fwEntered.dev.port p).state = .listen := by
  obtain ⟨chose, same⟩ : s.Chose s.settingsChecked ∧ ∀ k, (s.settingsChecked.comp k).active = (s.comp k).active :=
    State.checkSettings_foldl _ s
  unfold State.fwEntered
  generalize s.settingsChecked = u at chose same
  obtain ⟨lnk, pln, lnkCtrl⟩ := u.loadFirmware_dev
  obtain ⟨dev, flash, comps⟩ := u.loadFirmware.startWindow_keeps
  have lnk' : (u.loadFirmware.dev.setBring .fw).lnk = { s.dev.lnk with linkFw := (s.comp 6).active.version } := by
    rw [Dev.setBring_lnk, lnk, same, chose.looked]
  have listens := Dev.listenPort_foldl_eq (List.range 6) (u.loadFirmware.dev.setBring .fw)
  rw [← Dev.portsListen_foldl] at listens
  dsimp only
  rw [dev]
  refine ⟨flash.trans chose.flash, ?_, ?_, ?_, fun i => ?_, fun p bound range on => ?_⟩
  · rw [listens]
    dsimp only
    rw [Dev.setBring_pln, pln, chose.looked.pln]
  · rw [listens]
    dsimp only
    rw [Dev.setBring_bring]
  · rw [listens]
    dsimp only
    rw [lnk']
  · rw [State.comp, comps]
    exact same i
  · rw [Dev.portsListen_foldl]
    refine Dev.listenPort_foldl _ (by rw [lnk']; exact range) ?_ (.inl (List.mem_range.mpr bound))
    rw [Dev.portEnabled, Dev.bitAt, Dev.reg_setBring _ _ _ (by decide) (by decide), lnkCtrl, chose.lnkCtrl]
    exact on

theorem State.eraseAll_done {s : State} (works : s.fw.flashBad = false) :
    s.eraseAll.flash.eraseMarker = false ∧ s.eraseAll.dev.pln.logical = [] := by
  unfold State.eraseAll
  simp [works]

end Sys2Proof.Machine

open Sys2Proof Sys2Proof.Machine in
/-- Settles O43: choosing among slots changes neither what they hold nor the flash, so that what boots at the start boots
whenever its turn comes, and the rest of boot is a chain of changes of known parts. -/
theorem bootChoosesSlots : Obligations.BootChoosesSlots := by
  unfold Obligations.BootChoosesSlots
  intro s fails
  refine ⟨fun ok stays => ?_, fun rom keys running => ⟨⟨_, rfl, ?_, ?_⟩, ⟨_, rfl, ?_⟩⟩, fun stays => ?_,
    fun rom keys running => ⟨_, rfl, fun marked works => ?_, fun unmarked => ⟨?_, ?_, fun settled => ?_⟩⟩⟩
  · rw [exec_bootRom, execBootRom, State.bootRom_stays stays]
  · rw [State.bootRom_failed rom keys running]
    exact (s.enterRecovery_eq 4).1
  · rw [State.bootRom_failed rom keys running]
    exact (s.enterRecovery_eq 4).2.2.2.2.2.2
  · obtain ⟨keyed, selftest, approved, flash, mem⟩ := State.bootRom_keeps rom keys running
    refine ⟨keyed, selftest, approved, flash, mem, fun strap => ?_, fun strap due => ?_, fun strap due bad => ?_,
      fun strap due settled boots => ?_⟩ <;> rw [State.bootRom_passed rom keys running]
    · obtain ⟨bring, -, -, -, fw, -, sec⟩ := s.tested.enterRecovery_eq 1
      rw [if_pos strap, sec]
      exact ⟨bring, rfl, fw⟩
    · obtain ⟨bring, -, -, cleared, fw, -, sec⟩ := s.tested.enterRecovery_eq 2
      rw [if_neg (by simp [strap]), if_pos due, sec]
      exact ⟨bring, rfl, cleared, fw⟩
    · have none : (s.tested.chooseSlot 1).1 = false := State.chooseSlot_fails bad
      rw [if_neg (by simp [strap]), if_neg (by simp [due])]
      split
      next first => rw [first] at none; cases none
      next t first =>
        obtain ⟨bring, -, -, -, -, -, sec⟩ := t.enterRecovery_eq 3
        rw [sec]
        exact ⟨bring, rfl⟩
    · have stays : s.tested.chooseSlot 1 = (true, s.tested) := State.chooseSlot_stays settled boots
      rw [if_neg (by simp [strap]), if_neg (by simp [due]), stays]
      exact ⟨rfl, rfl⟩
  · rw [exec_enterFw, execEnterFw, State.enterFw_stays stays]
  · obtain ⟨flash, logical⟩ := State.eraseAll_done works
    have erased : s.erased = s.eraseAll := if_pos marked
    have chosen := s.erased.chose_chooseSlots [2, 3, 4, 5, 6, 7, 8]
    rw [State.enterFw_eq rom keys running]
    split
    next t first =>
      rw [first, erased] at chosen
      obtain ⟨-, -, pln, -, -, flash', -⟩ := t.enterRecovery_eq 3
      rw [flash', pln, chosen.flash, chosen.looked.pln]
      exact ⟨flash, logical⟩
    next t first =>
      rw [first, erased] at chosen
      obtain ⟨flash', pln, -⟩ := t.fwEntered_keeps
      rw [flash', pln, chosen.flash, chosen.looked.pln]
      exact ⟨flash, logical⟩
  · have erased : s.erased = s := if_neg (by simp [unmarked])
    have chosen := s.chose_chooseSlots [2, 3, 4, 5, 6, 7, 8]
    rw [State.enterFw_eq rom keys running, erased]
    split
    next t first =>
      rw [first] at chosen
      obtain ⟨-, -, -, -, -, flash, -⟩ := t.enterRecovery_eq 3
      exact flash.trans chosen.flash
    next t first =>
      rw [first] at chosen
      exact t.fwEntered_keeps.1.trans chosen.flash
  · intro i listed bad
    have erased : s.erased = s := if_neg (by simp [unmarked])
    have none : (s.chooseSlots [2, 3, 4, 5, 6, 7, 8]).1 = false := State.chooseSlots_fails listed bad
    rw [State.enterFw_eq rom keys running, erased]
    split
    next t first =>
      obtain ⟨bring, -, -, -, -, -, sec⟩ := t.enterRecovery_eq 3
      rw [sec]
      exact ⟨bring, rfl⟩
    next first => rw [first] at none; cases none
  · have erased : s.erased = s := if_neg (by simp [unmarked])
    rw [State.enterFw_eq rom keys running, erased, State.chooseSlots_stays settled]
    obtain ⟨-, -, bring, linkFw, active, listens⟩ := s.fwEntered_keeps
    exact ⟨bring, linkFw, active, listens⟩

end

section
/-! PROOFS. What packets, collectives, requests and failures of graphs leave alone: the bring-up state, the configuration in
force, the plan, and the order index of each group of collectives (R230, R266, R263, R366, R372, R382). -/

namespace Sys2Proof.Machine

/-- The bring-up state, the generation of the configuration in force, the dimensions of the plan, and the order index of each
group (R263, R266, R372, R382). -/
def Dev.standing (d : Dev) : Bringup × Nat × Nat × Nat × Nat × List (Nat × Nat) :=
  (d.bring, d.hub.cfgGen, d.lnk.nx, d.lnk.ny, d.lnk.nz, d.lnk.collIndex)

/-- Between `d` and `d'` none of these changed. -/
def Dev.Stays (d d' : Dev) : Prop := d'.standing = d.standing

theorem Dev.Stays.refl (d : Dev) : d.Stays d := rfl

theorem Dev.Stays.trans {a b c : Dev} (h : a.Stays b) (k : b.Stays c) : a.Stays c := Eq.trans k h

theorem Dev.Stays.foldl {α : Type} {f : Dev → α → Dev} (hf : ∀ (d : Dev) (a : α), d.Stays (f d a)) (l : List α) (d : Dev) :
    d.Stays (l.foldl f d) := by
  induction l generalizing d with
  | nil => exact .refl d
  | cons a l ih => exact (hf d a).trans (ih _)

/-- What touches none of the parts in which they stand. -/
theorem Dev.Stays.of_parts {d d' : Dev} (bring : d'.bring = d.bring) (hub : d'.hub = d.hub) (lnk : d'.lnk = d.lnk) :
    d.Stays d' := by
  unfold Dev.Stays Dev.standing
  rw [bring, hub, lnk]

theorem Dev.Looked.stays {d d' : Dev} (h : d.Looked d') : d.Stays d' := .of_parts (by rw [h]) (by rw [h]) (by rw [h])
theorem Dev.Posted.stays {d d' : Dev} (h : d.Posted d') : d.Stays d' := .of_parts (by rw [h]) (by rw [h]) (by rw [h])
theorem Dev.Stored.stays {d d' : Dev} (h : d.Stored d') : d.Stays d' := .of_parts (by rw [h]) (by rw [h]) (by rw [h])
theorem Dev.Paged.stays {d d' : Dev} (h : d.Paged d') : d.Stays d' := .of_parts (by rw [h]) (by rw [h]) (by rw [h])
theorem Dev.Mapped.stays {d d' : Dev} (h : d.Mapped d') : d.Stays d' := .of_parts (by rw [h]) (by rw [h]) (by rw [h])
theorem Dev.AmongTiles.stays {d d' : Dev} (h : d.AmongTiles d') : d.Stays d' := .of_parts (by rw [h]) (by rw [h]) (by rw [h])

/-! ## Packets and notices -/

theorem Dev.stays_modPort (d : Dev) (p : Nat) (f : Port → Port) : d.Stays (d.modPort p f) := rfl

theorem Dev.stays_measure (d : Dev) {f : Hub → Hub} (keeps : ∀ h, (f h).cfgGen = h.cfgGen) : d.Stays (d.measure f) := by
  unfold Dev.measure
  split
  · unfold Dev.Stays Dev.standing
    rw [keeps]
  · exact .refl d

theorem Dev.stays_pumpPort (d : Dev) (p : Nat) : d.Stays (d.pumpPort p) := by
  unfold Dev.pumpPort
  dsimp only
  split
  · exact .refl d
  · exact ((d.stays_modPort p fun _ => _).trans (Dev.looked_bump64 _ _ _).stays).trans (Dev.stays_measure _ fun _ => rfl)

theorem Dev.stays_transmit (d : Dev) (p : Packet) : d.Stays (d.transmit p) := by
  unfold Dev.transmit
  split
  · exact .refl d
  · exact (d.stays_modPort _ _).trans (Dev.stays_pumpPort _ _)

theorem Dev.stays_sendOrHold (d : Dev) (p : Packet) : d.Stays (d.sendOrHold p) := by
  unfold Dev.sendOrHold
  split
  · rfl
  · exact .trans (b := { d with lnk := { d.lnk with replay := d.lnk.replay ++ [p], sent := d.lnk.sent ++ [p] } }) rfl
      (Dev.stays_transmit _ _)

theorem Dev.stays_sendPacket (d : Dev) (p : Packet) : d.Stays (d.sendPacket p) := by
  unfold Dev.sendPacket
  extract_lets seq q link numbered
  have first : d.Stays numbered := rfl
  clear_value numbered
  exact first.trans (numbered.stays_sendOrHold q)

theorem Dev.stays_notice (d : Dev) (dst type tag : Nat) (l : List Byte) : d.Stays (d.notice dst type tag l) :=
  d.stays_sendPacket _

theorem Dev.stays_noticeAll (d : Dev) (type tag : Nat) (l : List Byte) : d.Stays (d.noticeAll type tag l) :=
  .foldl (fun d _ => d.stays_notice _ _ _ _) _ d

/-! ## Requests -/

theorem Dev.stays_modRequest (d : Dev) (id : Nat) (f : Request → Request) : d.Stays (d.modRequest id f) := rfl

/-- The writes of a ring's records, one after another, where none ends in error. -/
theorem ringRecords_posted {r : Request} {recs : List (List Byte)} {x : Option Dev × Nat} {d' : Dev}
    (h : (recs.foldl (fun (x : Option Dev × Nat) rec =>
      (x.1.bind fun d => d.writeHost (r.ring + 64 + 32 * (x.2 % r.ringEntries)) rec, x.2 + 1)) x).1 = some d') :
    ∃ d, x.1 = some d ∧ d.Posted d' := by
  induction recs generalizing x with
  | nil => exact ⟨d', h, .refl d'⟩
  | cons rec recs ih =>
    obtain ⟨e, written, rest⟩ := ih h
    obtain ⟨d, start, written⟩ := Option.bind_eq_some_iff.mp written
    exact ⟨d, start, (Dev.posted_writeHost written).trans rest⟩

theorem Dev.stays_ringWrite (d : Dev) (id : Nat) (recs : List (List Byte)) : d.Stays (d.ringWrite id recs) := by
  unfold Dev.ringWrite
  split
  · exact .refl d
  split
  · exact .refl d
  dsimp only
  split
  next => exact (d.looked_event _ _).stays.trans (Dev.stays_modRequest _ _ _)
  next written =>
    obtain ⟨e, records, tail⟩ := Option.bind_eq_some_iff.mp written
    obtain ⟨_, start, records⟩ := ringRecords_posted records
    cases start
    have kept := (records.trans (Dev.posted_writeHost tail)).stays
    split <;> exact kept.trans rfl

theorem Dev.stays_endRequest (d : Dev) (id reason status : Nat) : d.Stays (d.endRequest id reason status) := by
  unfold Dev.endRequest
  split
  · exact .refl d
  split
  · exact .refl d
  · exact (d.stays_modRequest _ _).trans (Dev.stays_ringWrite _ _ _)

theorem Dev.stays_rollTo (d : Dev) (id q k : Nat) : d.Stays (d.rollTo id q k) :=
  ((d.stays_modRequest _ _).trans (Dev.paged_storeCounts _ _ _).stays).trans rfl

theorem Dev.stays_rollbackRequest (d : Dev) (id q k : Nat) : d.Stays (d.rollbackRequest id q k) := by
  unfold Dev.rollbackRequest
  split
  · exact .refl d
  split
  · exact .refl d
  · exact (d.stays_rollTo id q k).trans (Dev.stays_noticeAll _ _ _ _)

theorem Dev.stays_runFailed (d : Dev) (tmpl slot status : Nat) : d.Stays (d.runFailed tmpl slot status) := by
  unfold Dev.runFailed
  split
  · exact .refl d
  · extract_lets draft rows counted srv cleared
    refine .trans (rfl : d.Stays cleared) (.foldl (fun d id => ?_) _ _)
    split
    · exact .refl d
    dsimp only
    split
    · exact d.stays_endRequest _ _ _
    · exact (d.stays_rollbackRequest _ _ _).trans rfl

/-! ## Failures of graphs -/

theorem Dev.stays_abortColls (d : Dev) (slot status : Nat) : d.Stays (d.abortColls slot status) :=
  .foldl (fun d _ => .trans (b := d.countAbort) rfl (.foldl (fun d _ => d.stays_notice _ _ _ _) _ _)) _ d

theorem Dev.stays_discardTasks (d : Dev) (slot : Nat) : d.Stays (d.discardTasks slot) := by
  unfold Dev.discardTasks
  dsimp only
  have released := Dev.Stays.foldl (fun (d : Dev) (t : DmaTask) => (rfl : d.Stays (d.releaseUnit t.engine)))
    (d.dma.tasks.filter fun t => decide (t.slot = slot) && !t.saved) d
  exact released.trans rfl

theorem Dev.stays_closeFaults (d : Dev) (slot status : Nat) : d.Stays (d.closeFaults slot status) := by
  refine .foldl (fun d f => ?_) _ d
  unfold Dev.resolveFault
  split
  · exact .refl d
  · split <;> rfl

theorem Dev.stays_runStopped (d : Dev) (slot status arg2 : Nat) : d.Stays (d.runStopped slot status arg2) := by
  have ended := ((d.stays_abortColls slot status).trans (Dev.stays_discardTasks _ slot)).trans
    ((Dev.amongTiles_applyHeld _ (d.tilesNamed slot)).stays.trans (Dev.stays_closeFaults _ slot status))
  have recorded (e : EventRec) := ended.trans (Dev.looked_event _ 0x0A80 e).stays
  unfold Dev.runStopped
  dsimp only
  split
  · exact (recorded _).trans (Dev.stays_runFailed _ _ _ _)
  · exact recorded _

theorem Dev.stays_finishRun (d : Dev) (slot status : Nat) : d.Stays (d.finishRun slot status) := by
  have run : d.Stays (match (d.slot slot).cmd with
      | some h => d.complete h status (d.slot slot).result
      | none => d) := by
    split
    · exact (d.posted_complete _ _ _).stays
    · exact .refl d
  unfold Dev.finishRun
  dsimp only
  refine .trans ?_ (rfl : Dev.Stays _ (Dev.modSlot _ _ _))
  split
  · exact run.trans (Dev.posted_complete _ _ _ _).stays
  · exact run

theorem Dev.stays_failGraph (d : Dev) (slot status arg2 : Nat) : d.Stays (d.failGraph slot status arg2) := by
  by_cases running : (d.slot slot).state = .running
  · rw [Dev.failGraph_running running]
    have stopped := d.stays_runStopped slot status arg2
    dsimp only
    split
    · exact stopped.trans rfl
    · exact stopped.trans (Dev.stays_finishRun _ _ _)
  · have idle : d.failGraph slot status arg2 = d := if_pos running
    rw [idle]
    exact .refl d

theorem Dev.stays_recordFault (d : Dev) (f : FaultRec) : d.Stays (d.recordFault f) := by
  unfold Dev.recordFault
  split
  · exact .refl d
  next slot rest _ =>
    extract_lets seq g keep unit recorded
    have first : d.Stays recorded := rfl
    clear_value recorded
    exact first.trans (((Dev.looked_bumpWrap _ _ _).trans (Dev.looked_setBit _ _ _)).trans (Dev.looked_setReg _ _ _)).stays

theorem Dev.stays_unitFault (d : Dev) (cls index slot task space : Nat) (f : FaultInfo) :
    d.Stays (d.unitFault cls index slot task space f) := by
  unfold Dev.unitFault
  extract_lets now status recorded
  have first : d.Stays recorded := d.stays_recordFault _
  split
  · exact .refl d
  split
  · exact first
  · exact (first.trans (Dev.looked_event _ _ _).stays).trans (Dev.stays_failGraph _ _ _ _)

theorem Dev.stays_dataBad (d : Dev) (slot : Nat) : d.Stays (d.dataBad slot) := by
  unfold Dev.dataBad Dev.damageAdapters
  extract_lets hit srv damaged
  refine .trans (.trans (rfl : d.Stays damaged) ?_) (Dev.stays_failGraph _ _ _ _)
  exact .foldl (fun d a => .foldl (fun d id => d.stays_endRequest _ _ _) _ d) _ _

/-! ## Moves of collectives -/

theorem Dev.stays_modColl (d : Dev) (slot task : Nat) (f : CollTask → CollTask) : d.Stays (d.modColl slot task f) := rfl

theorem Dev.stays_collEnd (d : Dev) (c : CollTask) : d.Stays (d.collEnd c) := rfl

theorem Dev.stays_collCount (d : Dev) (slot task clips acc nonfinite : Nat) :
    d.Stays (d.collCount slot task clips acc nonfinite) := by
  unfold Dev.collCount
  dsimp only
  split <;> split <;> rfl

theorem Dev.stays_collWrite (d : Dev) (c : CollTask) (va : Nat) (l : List Byte) {k : Dev → Dev}
    (next : ∀ e : Dev, e.Stays (k e)) : d.Stays (d.collWrite c va l k) := by
  have written := (d.stored_writeVa (d.collReader c) c.space va l).stays
  unfold Dev.collWrite
  split
  · next same => rw [same] at written; exact written.trans (next _)
  · next same => rw [same] at written; exact written.trans (Dev.stays_unitFault _ _ _ _ _ _ _)
  · next same => rw [same] at written; exact written.trans (Dev.stays_dataBad _ _)

theorem Dev.stays_collRead (d : Dev) (c : CollTask) (va n : Nat) {k : List Byte → Dev → Dev}
    (next : ∀ l (e : Dev), e.Stays (k l e)) : d.Stays (d.collRead c va n k) := by
  have read := (d.looked_readVa (d.collReader c) c.space va n).stays
  unfold Dev.collRead
  split
  · next same => rw [same] at read; exact read.trans (next _ _)
  · next same => rw [same] at read; exact read.trans (Dev.stays_unitFault _ _ _ _ _ _ _)
  · next same => rw [same] at read; exact read.trans (Dev.stays_dataBad _ _)

theorem Dev.stays_sendStream (d : Dev) (c : CollTask) (dst sid : Nat) (l : List Byte) : d.Stays (d.sendStream c dst sid l) :=
  ((d.stays_sendPacket _).trans (.foldl (fun d _ => d.stays_sendPacket _) _ _)).trans (Dev.stays_sendPacket _ _)

theorem Dev.stays_reduceEnd (d : Dev) (c : CollTask) (ws : List Word) : d.Stays (d.reduceEnd c ws) := by
  unfold Dev.reduceEnd
  extract_lets ms x put mine slice sent
  have written (e : Dev) (l : List Byte) : e.Stays (put e l) := by
    refine e.stays_collWrite _ _ _ fun e => ?_
    have counted := e.stays_collCount c.slot c.task x.2 0 0
    dsimp only
    cases (e.collCount c.slot c.task x.2 0 0).coll c.slot c.task with
    | none => exact counted
    | some c => exact counted.trans (Dev.stays_collEnd _ c)
  split
  · exact written d _
  split
  · exact written d _
  · refine (written d _).trans (.foldl (fun e m => ?_) _ _)
    split
    · exact .refl e
    · exact e.stays_sendStream _ _ _ _

theorem Dev.stays_reduceMove {d d' : Dev} {c : CollTask} (h : d.reduceMove c = some d') : d.Stays d' := by
  unfold Dev.reduceMove at h
  extract_lets axis order k i go up down passed at h
  have going (e : Dev) (n : Nat) (w : List Word) : e.Stays (go e n w) := rfl
  have upward (e : Dev) (w : List Word) : e.Stays (up e w) := by
    dsimp only [up]
    split
    · exact e.stays_sendStream _ _ _ _
    · exact .refl e
  have downward (e : Dev) (w : List Word) : e.Stays (down e w) := by
    dsimp only [down]
    split
    · exact e.stays_sendStream _ _ _ _
    · exact .refl e
  clear_value go up down
  split at h
  · cases h
    exact d.stays_reduceEnd _ _
  split at h
  · obtain ⟨s, -, rfl⟩ := Option.map_eq_some_iff.mp h
    exact d.stays_collWrite _ _ _ fun e => e.stays_collEnd _
  split at h
  · cases h
    exact going _ _ _
  split at h
  · split at h
    · cases h
      exact (going _ _ _).trans (upward _ _)
    · obtain ⟨s, -, rfl⟩ := Option.map_eq_some_iff.mp h
      dsimp only
      have counted := d.stays_collCount c.slot c.task 0 (c.fold s.words c.work).2 0
      split
      · exact counted.trans ((going _ _ _).trans (upward _ _))
      split
      · exact counted.trans ((going _ _ _).trans (downward _ _))
      · exact counted.trans (going _ _ _)
  · obtain ⟨s, -, rfl⟩ := Option.map_eq_some_iff.mp h
    exact (going _ _ _).trans (downward _ _)

theorem Dev.stays_gatherLand (d : Dev) (c : CollTask) (p : Nat) (l : List Byte) : d.Stays (d.gatherLand c p l) :=
  d.stays_collWrite _ _ _ fun e => (e.stays_modColl _ _ _).trans (.foldl (fun e _ => e.stays_sendStream _ _ _ _) _ _)

theorem Dev.stays_gatherMove {d d' : Dev} {c : CollTask} (h : d.gatherMove c = some d') : d.Stays d' := by
  unfold Dev.gatherMove at h
  extract_lets ms me at h
  by_cases reads : (!c.done && (decide (c.kind = 3) || decide (c.peer = d.deviceId))) = true
  · rw [if_pos reads] at h
    cases h
    exact d.stays_collRead _ _ _ fun l e => e.stays_gatherLand _ _ _
  rw [if_neg reads] at h
  by_cases all : decide (c.sent.length = if c.kind = 3 then ms.length else 1) = true
  · rw [if_pos all] at h
    cases h
    exact d.stays_collEnd _
  · rw [if_neg all] at h
    obtain ⟨s, -, rfl⟩ := Option.map_eq_some_iff.mp h
    exact d.stays_gatherLand _ _ _

theorem Dev.stays_sendData (d : Dev) (c : CollTask) (channel type dst : Nat) (l : List Byte) :
    d.Stays (d.sendData c channel type dst l) := .foldl (fun d _ => d.stays_sendPacket _) _ d

theorem Dev.stays_sendEnd (d : Dev) (c : CollTask) (channel type : Nat) (l : List Byte) :
    d.Stays (d.sendEnd c channel type l) := (d.stays_sendPacket _).trans (Dev.stays_modColl _ _ _ _)

theorem Dev.stays_countHandoff (d : Dev) (c : CollTask) (n : Nat) : d.Stays (d.countHandoff c n) := by
  unfold Dev.countHandoff Dev.measure
  split <;> split <;> rfl

theorem Dev.stays_sendPieces (slot task fuel : Nat) (d : Dev) : d.Stays (d.sendPieces slot task fuel) := by
  induction fuel generalizing d with
  | zero => exact .refl d
  | succ fuel ih =>
    unfold Dev.sendPieces
    split
    · exact .refl d
    dsimp only
    split
    · refine .trans ?_ (Dev.stays_sendEnd _ _ _ _ _)
      split
      · exact d.stays_countHandoff _ _
      · exact .refl d
    · exact d.stays_collRead _ _ _ fun l e =>
        ((e.stays_sendData _ _ _ _ _).trans (Dev.stays_modColl _ _ _ _)).trans (ih _)

theorem Dev.stays_sendMove {d d' : Dev} {c : CollTask} (h : d.sendMove c = some d') : d.Stays d' := by
  unfold Dev.sendMove at h
  split at h
  next n _ =>
    by_cases acked : d.acked c.peer (if c.handoff then 1 else 3) n = true
    · rw [if_pos acked] at h
      cases h
      exact d.stays_collEnd _
    · rw [if_neg acked] at h
      cases h
  · cases h
    exact (d.stays_modColl _ _ _).trans (Dev.stays_sendPieces _ _ _ _)

theorem Dev.stays_receiveMove {d d' : Dev} {c : CollTask} (h : d.receiveMove c = some d') : d.Stays d' := by
  unfold Dev.receiveMove at h
  split at h
  · cases h
    rfl
  · cases h

theorem Dev.stays_collMove {d d' : Dev} {c : CollTask} (h : d.collMove c = some d') : d.Stays d' := by
  unfold Dev.collMove at h
  split at h
  · cases h
  split at h
  · exact Dev.stays_sendMove h
  · exact Dev.stays_receiveMove h
  · cases h
  · exact Dev.stays_gatherMove h
  · exact Dev.stays_gatherMove h
  · split at h
    · exact Dev.stays_reduceMove h
    · cases h
      exact d.stays_collRead _ _ _ fun l e => (e.stays_modColl _ _ _).trans (Dev.stays_collCount _ _ _ _ _ _)

theorem Dev.stays_collRun (slot task fuel : Nat) (d : Dev) : d.Stays (d.collRun slot task fuel) := by
  induction fuel generalizing d with
  | zero => exact .refl d
  | succ fuel ih =>
    unfold Dev.collRun
    split
    · exact .refl d
    split
    · exact .refl d
    next moved => exact (Dev.stays_collMove moved).trans (ih _)

theorem Dev.stays_collFail (d : Dev) (c : CollTask) (status : Nat) : d.Stays (d.collFail c status) := d.stays_failGraph _ _ _

theorem Dev.stays_digestBad (d : Dev) (port status graph task req : Nat) : d.Stays (d.digestBad port status graph task req) :=
  (((d.looked_bump _ _).trans (Dev.looked_setBit _ _ _)).trans (Dev.looked_signature _ _ _ _)).stays

theorem Dev.stays_collPacket (d : Dev) (c : CollTask) (p : Packet) : d.Stays (d.collPacket c p) := by
  unfold Dev.collPacket
  extract_lets sid now heard on
  have first : d.Stays heard := rfl
  have onStream (e : Dev) (f : Stream → Stream) : e.Stays (on e f) := rfl
  clear_value heard on
  split
  · split
    · exact first.trans rfl
    · exact first.trans (Dev.stays_collFail _ _ _)
  · exact first.trans (onStream _ _)
  · split
    · exact first
    split
    · exact first.trans (onStream _ _)
    · exact (first.trans (Dev.stays_digestBad _ _ _ _ _ _)).trans (Dev.stays_collFail _ _ _)

theorem Dev.stays_collDeliver (d : Dev) (p : Packet) : d.Stays (d.collDeliver p) := by
  unfold Dev.collDeliver
  split
  · split <;> rfl
  split
  · exact .trans (b := ({ d with grf := { d.grf with colls := _ } } : Dev).countAbort) rfl (Dev.stays_failGraph _ _ _ _)
  · exact (d.stays_collPacket _ _).trans (Dev.stays_collRun _ _ _ _)

/-! ## Landing -/

theorem Dev.stays_relayLanded (d : Dev) (space va n : Nat) : d.Stays (d.relayLanded space va n) := .of_parts rfl rfl rfl

theorem Dev.stays_heardFrom (d : Dev) (p : Packet) : d.Stays (d.heardFrom p) := .of_parts rfl rfl rfl

theorem Dev.stays_inboundAdd (d : Dev) (p : Packet) : d.Stays (d.inboundAdd p) := rfl

theorem Dev.stays_land (d : Dev) (p : Packet) (va : Nat) (l : List Byte) : d.Stays (d.land p va l).2 := by
  have written := (d.stored_writeVa { cls := 7, index := d.portFrom p.src } p.space va l).stays
  unfold Dev.land
  extract_lets port
  split
  · next same => rw [same] at written; exact written.trans (Dev.stays_relayLanded _ _ _ _)
  · next same => rw [same] at written; exact written
  · next f e same =>
    rw [same] at written
    extract_lets wait status recorded
    have kept : e.Stays recorded := by
      dsimp only [recorded]
      split
      · exact .refl e
      · exact e.stays_recordFault _
    split
    · exact written.trans kept
    · exact (written.trans kept).trans (Dev.stays_notice _ _ _ _ _)

theorem Dev.stays_inboundEnd (d : Dev) (p : Packet) : d.Stays (d.inboundEnd p).2 := by
  unfold Dev.inboundEnd
  extract_lets is l link ended bad
  have first : d.Stays ended := rfl
  clear_value ended
  split
  · exact first
  · dsimp only
    exact first.trans ((ended.stays_digestBad _ _ _ _ _).trans (Dev.stays_notice _ _ _ _ _))

theorem Dev.stays_sendLanded (d : Dev) (p : Packet) : d.Stays (d.sendLanded p) := by
  have noted : d.Stays { d with lnk := { d.lnk with sends := d.lnk.sends ++ [(p.src, p.tag % 65536)] } } := rfl
  unfold Dev.sendLanded
  dsimp only
  split
  · exact noted
  · exact noted.trans (Dev.stays_collRun _ _ _ _)

theorem Dev.stays_bulkIn (d : Dev) (p : Packet) : d.Stays (d.bulkIn p).2 := by
  have first := d.stays_heardFrom p
  unfold Dev.bulkIn
  extract_lets heard landed ended
  split
  · have last := first.trans (heard.stays_land p p.address (packetData p))
    dsimp only
    split
    · exact last.trans (Dev.stays_inboundAdd _ _)
    · exact last
  · have last := first.trans (heard.stays_inboundEnd p)
    dsimp only
    split
    · exact last.trans (Dev.stays_sendLanded _ _)
    · exact last

theorem Dev.stays_rowsArrive (d : Dev) (head : List Byte) : d.Stays (d.rowsArrive head) := by
  unfold Dev.rowsArrive
  extract_lets n tick rows lost counted live
  refine .trans (b := counted) (.foldl (fun d _ => ?_) _ d) rfl
  exact ((d.looked_bump _ _).trans (Dev.looked_flagEvent _ _ _ _)).stays

theorem Dev.stays_handoffIn (d : Dev) (p : Packet) : d.Stays (d.handoffIn p).2 := by
  unfold Dev.handoffIn
  extract_lets heard is h rest l need k body x on srv hub ended
  have first : d.Stays heard := d.stays_heardFrom p
  clear_value heard
  split
  · have landed : heard.Stays x.2 := by
      dsimp only [x]
      split
      · exact .refl heard
      · exact heard.stays_land _ _ _
    split
    · exact (first.trans landed).trans rfl
    · exact first.trans landed
  · have last : heard.Stays ended.2 := .trans (b := { heard with srv := { heard.srv with hands := rest } }) rfl
      (Dev.stays_inboundEnd _ p)
    clear_value ended
    dsimp only
    split
    · exact (first.trans last).trans ((Dev.stays_rowsArrive _ _).trans (Dev.stays_sendLanded _ _))
    · exact first.trans last

theorem Dev.stays_landAgain (d : Dev) : d.Stays d.landAgain := by
  refine .trans (b := { d with lnk := { d.lnk with landWait := [] } }) rfl (.foldl (fun d p => ?_) _ _)
  extract_lets behind x
  have landed : d.Stays x.2 := by
    dsimp only [x]
    split
    · exact .refl d
    split
    · exact d.stays_handoffIn p
    · exact d.stays_bulkIn p
  clear_value x
  split
  · exact landed
  · exact landed.trans rfl

theorem Dev.stays_landIn (d : Dev) (p : Packet) : d.Stays (d.landIn p) :=
  .trans (b := { d with lnk := { d.lnk with landWait := d.lnk.landWait ++ [p] } }) rfl (Dev.stays_landAgain _)

theorem Dev.stays_collPump (d : Dev) : d.Stays d.collPump := by
  unfold Dev.collPump
  extract_lets landed
  have first : d.Stays landed := by
    dsimp only [landed]
    split
    · exact .refl d
    · exact d.stays_landAgain
  exact first.trans (.foldl (fun d _ => d.stays_collRun _ _ _) _ _)

theorem Dev.stays_failMember (d : Dev) (slot : Nat) : d.Stays (d.failMember slot) :=
  (d.stays_failGraph _ _ _).trans (.foldl (fun d _ => d.stays_endRequest _ _ _) _ _)

/-! ## Drafting -/

theorem Dev.stays_judge (d : Dev) (id drafted accepted emitted : Nat) : d.Stays (d.judge id drafted accepted emitted) := by
  unfold Dev.judge
  split
  · exact .refl d
  · extract_lets j judged
    have first : d.Stays judged := d.stays_modRequest _ _
    clear_value judged
    split
    · exact first.trans ((judged.looked_bumpWrap _ _).trans (Dev.looked_setBit _ _ _)).stays
    · exact first

theorem Dev.stays_damsonPut (d : Dev) (va : Nat) (l : List Byte) : d.Stays (d.damsonPut va l) :=
  (d.stored_writeVa {} 0 va l).stays

theorem Dev.stays_exposeAdapter (d : Dev) (space : Nat) (a : Adapter) : d.Stays (d.exposeAdapter space a) :=
  .foldl (fun d _ => (d.mapped_mapPage _ _ _ _ _ _ _).stays) _ d

theorem Dev.stays_bind (d : Dev) (space : Nat) (rows : List StepRow) (b : Binding) : d.Stays (d.bind space rows b) := by
  unfold Dev.bind
  split
  · exact d.stays_damsonPut _ _
  · exact .foldl (fun d _ => d.stays_damsonPut _ _) _ d
  · exact d.stays_damsonPut _ _
  · split
    · exact d.stays_damsonPut _ _
    · exact (d.stays_exposeAdapter _ _).trans (Dev.stays_damsonPut _ _ _)
  · exact .refl d

theorem Dev.stays_writeStep (d : Dev) (t : Template) (slot tick : Nat) (bs : List Binding) (rows : List StepRow) :
    d.Stays (d.writeStep t slot tick bs rows) :=
  (d.stays_damsonPut _ _).trans (.foldl (fun d _ => d.stays_bind _ _ _) _ _)

theorem Dev.stays_modSlot (d : Dev) (i : Nat) (f : GraphSlot → GraphSlot) : d.Stays (d.modSlot i f) := rfl

theorem Dev.stays_startRun (d : Dev) (t : Template) (slot : Nat) (bs : List Binding) (rows : List StepRow) :
    d.Stays (d.startRun t slot bs rows) :=
  .trans (b := d.takeOrder) rfl ((Dev.stays_modSlot _ _ _).trans (Dev.stays_modSlot _ _ _))

theorem Dev.stays_modTemplate (d : Dev) (i : Nat) (f : Template → Template) : d.Stays (d.modTemplate i f) := rfl

theorem Dev.stays_draftNext (d : Dev) (i : Nat) : d.Stays (d.draftNext i) := by
  unfold Dev.draftNext
  split
  · exact .refl d
  next t _ =>
    extract_lets due probes counted ids probing rows written
    split
    · exact .refl d
    have first : d.Stays counted := by
      dsimp only [counted]
      split
      · exact .refl d
      · exact (d.looked_bumpWrap _ _).stays
    have asked : counted.Stays probing := .foldl (fun d _ => d.stays_modRequest _ _) _ _
    have ready : probing.Stays written := probing.stays_writeStep _ _ _ _ _
    clear_value written
    exact ((first.trans asked).trans ready).trans ((Dev.stays_startRun _ _ _ _ _).trans (Dev.stays_modTemplate _ _ _))

theorem Dev.stays_draftAll (d : Dev) : d.Stays d.draftAll := .foldl (fun d _ => d.stays_draftNext _) _ d

theorem Dev.stays_tokenArrived (d : Dev) (t : TokenNotice) : d.Stays (d.tokenArrived t) := by
  unfold Dev.tokenArrived
  split
  · exact .refl d
  split
  · exact .refl d
  split
  · exact d.stays_modRequest _ _
  split
  · exact .refl d
  extract_lets tick drafted came mapped
  have first : d.Stays mapped := (d.stays_modRequest _ _).trans (Dev.paged_mapAhead came _ _).stays
  clear_value mapped
  refine (first.trans ?_).trans (Dev.stays_draftAll _)
  split
  · exact mapped.stays_judge _ _ _ _
  · exact .refl mapped

theorem Dev.stays_rollbackCame (d : Dev) (l : List Byte) : d.Stays (d.rollbackCame l) := by
  unfold Dev.rollbackCame
  extract_lets id q k
  split
  · exact .refl d
  split
  · exact .refl d
  · exact ((d.stays_rollTo _ _ _).trans (Dev.stays_modRequest _ _ _)).trans (Dev.stays_draftAll _)

/-! ## Delivery -/

theorem Dev.stays_sendAck (d : Dev) (src ch : Nat) : d.Stays (d.sendAck src ch) := by
  unfold Dev.sendAck
  refine .trans ?_ (Dev.stays_transmit _ _)
  rfl

theorem Dev.stays_releaseHeld (d : Dev) : d.Stays d.releaseHeld :=
  .trans (b := { d with lnk := { d.lnk with held := [] } }) rfl (.foldl (fun d p => d.stays_sendOrHold p) _ _)

theorem Dev.stays_ackCame (d : Dev) (src : Nat) (l : List Byte) : d.Stays (d.ackCame src l) := by
  unfold Dev.ackCame
  refine .trans ?_ ((Dev.stays_releaseHeld _).trans (Dev.stays_collPump _))
  rfl

theorem Dev.stays_retryAfter (d : Dev) (dst ch seq hint : Nat) : d.Stays (d.retryAfter dst ch seq hint) := by
  unfold Dev.retryAfter
  split <;> rfl

theorem Dev.stays_lost (d : Dev) (dst ch seq status : Nat) : d.Stays (d.lost dst ch seq status) := by
  unfold Dev.lost
  extract_lets is link left
  have first : d.Stays left := rfl
  clear_value left
  split
  · exact .refl d
  extract_lets mine
  split
  · exact first
  split
  · exact first.trans (Dev.stays_failMember _ _)
  · exact first.trans (Dev.stays_collFail _ _ _)

theorem Dev.stays_sendLost (d : Dev) (p : Packet) (status : Nat) : d.Stays (d.sendLost p status) := by
  unfold Dev.sendLost
  split
  · exact .refl d
  · exact d.stays_notice _ _ _ _

theorem Dev.stays_askFrame (d : Dev) (us at_ : Nat) : d.Stays (d.askFrame us at_) := by
  unfold Dev.askFrame
  refine .trans ?_ ((Dev.looked_setReg _ _ _).trans (Dev.looked_setBit _ _ _)).stays
  refine .trans ?_ (Dev.looked_setReg _ _ _).stays
  rfl

theorem Dev.stays_deliverData (d : Dev) (p : Packet) : d.Stays (d.deliverData p) := by
  unfold Dev.deliverData
  extract_lets l
  split
  · split
    · exact d.stays_sendLost _ _
    · exact d.stays_landIn p
  · exact d.stays_collDeliver p
  · exact d.stays_landIn p
  · split
    · exact d.stays_ackCame _ _
    · exact d.stays_tokenArrived _
    · exact d.stays_rollbackCame _
    · exact d.stays_collDeliver p
    · exact d.stays_retryAfter _ _ _ _
    · exact d.stays_lost _ _ _ _
    · exact d.stays_askFrame _ _
    · exact .refl d

theorem Dev.stays_took (d : Dev) (p : Packet) : d.Stays (d.took p) := by
  unfold Dev.took
  extract_lets n link next
  have first : d.Stays next := rfl
  clear_value next
  split
  · exact first.trans (next.stays_sendAck _ _)
  · exact first

theorem Dev.stays_drainReorder (src ch fuel : Nat) (d : Dev) : d.Stays (Dev.drainReorder Dev.deliverData src ch fuel d) := by
  induction fuel generalizing d with
  | zero => exact .refl d
  | succ fuel ih =>
    unfold Dev.drainReorder
    extract_lets n is link left
    have first : d.Stays left := rfl
    clear_value left
    split
    · exact .refl d
    · exact first.trans (((left.stays_took _).trans (Dev.stays_deliverData _ _)).trans (ih _))

theorem Dev.stays_receiveWith (d : Dev) (p : Packet) : d.Stays (d.receiveWith Dev.deliverData p) := by
  unfold Dev.receiveWith
  extract_lets n
  split
  · exact d.stays_deliverData p
  split
  · exact ((d.stays_took p).trans (Dev.stays_deliverData _ p)).trans (Dev.stays_drainReorder _ _ _ _)
  split
  · exact (d.looked_bumpWrap _ _).stays.trans (Dev.stays_sendAck _ _ _)
  split
  · exact .refl d
  split
  · rfl
  · exact .refl d

theorem Dev.stays_serveEarly (d : Dev) : d.Stays d.serveEarly :=
  .trans (b := { d with lnk := { d.lnk with early := [] } }) rfl (.foldl (fun d p => d.stays_receiveWith p) _ _)

end Sys2Proof.Machine
end

section
/-! PROOFS. The configuration store: the bytes of its marker and of the identity page, LINK entered from a blob, and IDENTIFY,
CONFIG_READ and CONFIG_WRITE (R257, R258, R263-R266). -/

namespace Sys2Proof.Machine

/-! ## Fields of byte strings -/

theorem le_length (n k : Nat) : (le n k).length = k := by simp [le]

theorem ofLe_le (n k : Nat) : ofLe (le n k) = n % 256 ^ k := by
  induction k generalizing n with
  | zero => simp [le, ofLe, Nat.mod_one]
  | succ k ih =>
    have split : le n (k + 1) = BitVec.ofNat 8 n :: le (n / 256) k := by
      simp only [le, List.range_succ_eq_map, List.map_cons, List.map_map]
      congr 1
      · simp
      · refine List.map_congr_left fun i _ => ?_
        rw [Function.comp_apply, Nat.div_div_eq_div_mul, show 2 ^ (8 * (i + 1)) = 256 * 2 ^ (8 * i) by ring]
    have byte : (BitVec.ofNat 8 n).toNat = n % 256 := BitVec.toNat_ofNat n 8
    rw [split, ofLe, ih, byte, Nat.pow_succ, Nat.mul_comm (256 ^ k), Nat.mod_mul]

/-- A field read where it was laid down. -/
theorem leAt_append_le {a : List Byte} {o : Nat} (at_ : a.length = o) (n k : Nat) (b : List Byte) :
    leAt (a ++ (le n k ++ b)) o k = n % 256 ^ k := by
  rw [leAt, ← at_, List.drop_left, List.take_left' (le_length n k), ofLe_le]

/-- A field of a byte string's first part. -/
theorem leAt_take {l : List Byte} {o k m : Nat} (inside : o + k ≤ m) : leAt (l.take m) o k = leAt l o k := by
  rw [leAt, leAt, List.drop_take, List.take_take, Nat.min_eq_left (by omega)]

theorem ofLe_lt (l : List Byte) : ofLe l < 256 ^ l.length := by
  induction l with
  | nil => simp [ofLe]
  | cons b l ih =>
    have byte := b.isLt
    rw [ofLe, List.length_cons, Nat.pow_succ]
    omega

theorem leAt_lt (l : List Byte) (o k : Nat) : leAt l o k < 256 ^ k :=
  (ofLe_lt _).trans_le (Nat.pow_le_pow_right (by omega) (List.length_take_le _ _))

/-- The part of a reversed number that its `k` low bits give. -/
theorem bitReverse_fold_lt (n : Nat) {w k : Nat} (part : k ≤ w) :
    (List.range k).foldl (fun a i => if n.testBit i then a + 2 ^ (w - 1 - i) else a) 0 + 2 ^ (w - k) ≤ 2 ^ w := by
  induction k with
  | zero => simp
  | succ k ih =>
    have before := ih (by omega)
    have halves : 2 ^ (w - k) = 2 ^ (w - 1 - k) + 2 ^ (w - 1 - k) := by
      rw [← Nat.two_mul, ← Nat.pow_succ', show (w - 1 - k).succ = w - k by omega]
    have positive := Nat.two_pow_pos (w - 1 - k)
    rw [List.range_succ, List.foldl_concat, show w - (k + 1) = w - 1 - k by omega]
    split <;> omega

theorem bitReverse_lt (n w : Nat) : bitReverse n w < 2 ^ w := by
  have whole := bitReverse_fold_lt n (le_refl w)
  rw [Nat.sub_self, Nat.pow_zero] at whole
  exact whole

theorem crc32c_lt (l : List Byte) : crc32c l < 256 ^ 4 :=
  Nat.xor_lt_two_pow (n := 32) (bitReverse_lt _ 32) (by norm_num)

/-! ## The commit marker (R263) -/

/-- The first 60 bytes of the marker of a blob. -/
def markerHead (b : List Byte) : List Byte :=
  le 0x4D435753 4 ++ le (leAt b 0xC 4) 4 ++ le (leAt b 8 4) 4 ++ le (crc32c (b.take (leAt b 8 4))) 4 ++ List.replicate 44 0

theorem markerHead_length (b : List Byte) : (markerHead b).length = 60 := by simp [markerHead, le_length]

theorem markerOf_eq (b : List Byte) : markerOf b = markerHead b ++ le (crc32c (markerHead b)) 4 := rfl

/-- A field of the first 60 bytes of the marker, read from the marker. -/
theorem leAt_markerOf {b : List Byte} {o : Nat} (inside : o + 4 ≤ 60) : leAt (markerOf b) o 4 = leAt (markerHead b) o 4 := by
  rw [← leAt_take inside, markerOf_eq, List.take_left' (markerHead_length b)]

section
variable (b : List Byte)

theorem markerOf_magic : leAt (markerOf b) 0 4 = 0x4D435753 := by
  rw [leAt_markerOf (by omega), markerHead, List.append_assoc, List.append_assoc, List.append_assoc]
  rw [← List.nil_append (le 0x4D435753 4 ++ _), leAt_append_le List.length_nil]
  norm_num

theorem markerOf_generation : leAt (markerOf b) 4 4 = leAt b 0xC 4 := by
  rw [leAt_markerOf (by omega), markerHead, List.append_assoc, List.append_assoc, List.append_assoc,
    leAt_append_le (le_length _ _), Nat.mod_eq_of_lt (leAt_lt b 0xC 4)]

theorem markerOf_bytes : leAt (markerOf b) 8 4 = leAt b 8 4 := by
  rw [leAt_markerOf (by omega), markerHead, List.append_assoc, List.append_assoc, 
    leAt_append_le (by simp [le_length]), Nat.mod_eq_of_lt (leAt_lt b 8 4)]

theorem markerOf_digest : leAt (markerOf b) 0xC 4 = crc32c (b.take (leAt b 8 4)) := by
  rw [leAt_markerOf (by omega), markerHead, List.append_assoc, leAt_append_le (by simp [le_length]),
    Nat.mod_eq_of_lt (crc32c_lt _)]

/-- The marker of a blob is whole and belongs to it (R263, R264). -/
theorem markerOk_markerOf : markerOk b (markerOf b) = true := by
  have body : ((markerOf b).drop 0x10).take 44 = List.replicate 44 0 := by
    rw [markerOf_eq, markerHead, List.append_assoc, List.drop_left' (by simp [le_length]), List.take_left' (by simp)]
  have last : leAt (markerOf b) 0x3C 4 = crc32c ((markerOf b).take 60) := by
    rw [markerOf_eq, List.take_left' (markerHead_length b), ← List.append_nil (le _ 4), leAt_append_le (markerHead_length b),
      Nat.mod_eq_of_lt (crc32c_lt _)]
  rw [markerOk, markerOf_magic, markerOf_generation, markerOf_bytes, body, last]
  simp

/-- The marker of a blob is not the erased area. -/
theorem markerErased_markerOf : markerErased (markerOf b) = false := by
  refine decide_eq_false fun erased => ?_
  have magic := markerOf_magic b
  rw [erased] at magic
  have ones : leAt (List.replicate 64 0xFF) 0 4 = 0xFFFFFFFF := by simp [leAt, ofLe, List.replicate]
  omega

end

/-! ## LINK entered -/

/-- A state in which the store has been accepted (R266). -/
def Bringup.Serves (b : Bringup) : Prop := b ≠ .fw ∧ b ≠ .hold

/-- Between `d` and `d'` the configuration in force and the dimensions of the plan stand, and `d'` serves where `d` did. -/
structure Dev.GoesOn (d d' : Dev) : Prop where
  cfgGen : d'.hub.cfgGen = d.hub.cfgGen
  nx : d'.lnk.nx = d.lnk.nx
  ny : d'.lnk.ny = d.lnk.ny
  nz : d'.lnk.nz = d.lnk.nz
  serves : d.bring.Serves → d'.bring.Serves

theorem Dev.GoesOn.trans {a b c : Dev} (h : a.GoesOn b) (k : b.GoesOn c) : a.GoesOn c :=
  ⟨k.cfgGen.trans h.cfgGen, k.nx.trans h.nx, k.ny.trans h.ny, k.nz.trans h.nz, fun serves => k.serves (h.serves serves)⟩

section
variable {d d' : Dev} (h : d.Stays d')
include h

theorem Dev.Stays.bring : d'.bring = d.bring := congrArg (·.1) h
theorem Dev.Stays.cfgGen : d'.hub.cfgGen = d.hub.cfgGen := congrArg (·.2.1) h
theorem Dev.Stays.nx : d'.lnk.nx = d.lnk.nx := congrArg (·.2.2.1) h
theorem Dev.Stays.ny : d'.lnk.ny = d.lnk.ny := congrArg (·.2.2.2.1) h
theorem Dev.Stays.nz : d'.lnk.nz = d.lnk.nz := congrArg (·.2.2.2.2.1) h
theorem Dev.Stays.collIndex : d'.lnk.collIndex = d.lnk.collIndex := congrArg (·.2.2.2.2.2) h
theorem Dev.Stays.goesOn : d.GoesOn d' := ⟨h.cfgGen, h.nx, h.ny, h.nz, fun serves => by rwa [h.bring]⟩

end

theorem Dev.gradeState_serves (d : Dev) : d.gradeState.Serves := by
  unfold Dev.gradeState Bringup.Serves
  split
  · decide
  split <;> decide

/-- A state of service entered. -/
theorem Dev.goesOn_enterState (d : Dev) {b : Bringup} (serves : b.Serves) : d.GoesOn (d.enterState b) := by
  unfold Dev.enterState
  extract_lets reference cal graded
  have first : d.Looked reference := by
    dsimp only [reference]
    split
    · exact d.looked_setReg _ _
    split
    · exact d.looked_setReg _ _
    · exact .refl d
  have second : reference.Stays graded := by
    dsimp only [graded]
    split <;> rfl
  have same := first.stays.trans second
  clear_value graded
  refine same.goesOn.trans ⟨?_, ?_, ?_, ?_, fun _ => ?_⟩ <;> simp [serves]

theorem Dev.goesOn_leaveLink (d : Dev) : d.GoesOn d.leaveLink := by
  unfold Dev.leaveLink
  split
  · exact (d.goesOn_enterState d.gradeState_serves).trans (Dev.stays_serveEarly _).goesOn
  · exact (Dev.Stays.refl d).goesOn

theorem Dev.stays_setOutcome (d : Dev) (p outcome : Nat) : d.Stays (d.setOutcome p outcome) := by
  unfold Dev.setOutcome
  extract_lets planned t
  have first : d.Stays planned := d.stays_modPort _ _
  clear_value planned
  split
  · exact first
  · exact first.trans ((planned.looked_setBit _ _).trans (Dev.looked_event _ _ _)).stays

theorem Dev.stays_settleSwaps (d : Dev) : d.Stays d.settleSwaps := by
  unfold Dev.settleSwaps Dev.resolveSwaps
  split
  · refine .foldl (fun d axis => ?_) _ d
    split
    · exact .refl d
    extract_lets p set
    have placed (e : Dev) (p : Nat) : e.Stays (set e p) := (e.stays_modPort _ _).trans (Dev.stays_setOutcome _ _ _)
    clear_value set
    split
    · exact (placed _ _).trans (placed _ _)
    split
    · exact .refl d
    · exact (d.stays_setOutcome _ _).trans (Dev.stays_setOutcome _ _ _)
  · exact .refl d

theorem Dev.stays_modPort_if (d : Dev) {c : Prop} [Decidable c] (p : Nat) (f : Port → Port) :
    d.Stays (if c then d.modPort p f else d) := by
  split
  · exact d.stays_modPort _ _
  · exact .refl d

theorem Dev.stays_isolateCut (d : Dev) : d.Stays d.isolateCut := by
  refine .foldl (fun e q => ?_) _ d
  exact e.stays_modPort_if _ _

theorem Dev.stays_reopenPorts (d : Dev) : d.Stays d.reopenPorts := by
  refine .foldl (fun e q => ?_) _ d
  exact e.stays_modPort_if _ _

theorem Dev.stays_startVerify (d : Dev) : d.Stays d.startVerify :=
  .trans (b := d.setBit Off.lnkCtrl 8) (d.looked_setBit _ _).stays rfl

theorem Dev.stays_rebuildSync (d : Dev) : d.Stays d.rebuildSync := by
  unfold Dev.rebuildSync
  extract_lets me link root
  have first : d.Stays root := rfl
  clear_value root
  split
  · exact first
  split
  · exact first
  next k _ =>
    extract_lets p placed
    have second : d.Stays placed := rfl
    clear_value placed
    split
    · exact second.trans (placed.looked_flagEvent _ _ _).stays
    · exact second

theorem Dev.goesOn_applyForm (d : Dev) (leader : Nat) (l : List Byte) : d.GoesOn (d.applyForm leader l) := by
  unfold Dev.applyForm
  split
  · exact (Dev.Stays.refl d).goesOn
  extract_lets cut link formed
  have first : d.Stays formed := rfl
  clear_value formed
  exact (first.trans ((((formed.stays_settleSwaps.trans (Dev.stays_isolateCut _)).trans (Dev.stays_reopenPorts _)).trans
    (Dev.stays_startVerify _)).trans (Dev.stays_rebuildSync _))).goesOn.trans (Dev.goesOn_leaveLink _)

theorem Dev.goesOn_formAs (d : Dev) (accept : Bool) (cubes : List Nat) : d.GoesOn (d.formAs accept cubes) := by
  unfold Dev.formAs
  extract_lets left rs now formed tf nf flv l
  have first : d.Stays formed := rfl
  clear_value formed
  exact (first.trans (.foldl (fun d _ => d.stays_notice _ _ _ _) _ _)).goesOn.trans (Dev.goesOn_applyForm _ _ _)

/-- The ports begin training, and a device that is its plan is formed at once; another stays in its state (R266, R372). -/
theorem Dev.portsTrain_goesOn (d : Dev) :
    d.GoesOn d.portsTrain ∧ (d.lnk.nx * d.lnk.ny * d.lnk.nz ≠ 1 → d.portsTrain.bring = d.bring) := by
  unfold Dev.portsTrain
  extract_lets out link checked training
  have first : d.Stays checked := rfl
  have trained : checked.Stays training := by
    refine .foldl (fun e p => ?_) _ _
    split
    · exact .refl e
    · exact e.stays_modPort _ _
  have same := first.trans trained
  clear_value training
  split
  next alone =>
    refine ⟨same.goesOn.trans (Dev.goesOn_formAs _ _ _), fun several => ?_⟩
    rw [Bool.and_eq_true, decide_eq_true_iff, same.nx, same.ny, same.nz] at alone
    exact absurd alone.2 several
  · exact ⟨same.goesOn, fun _ => same.bring⟩

/-- LINK entered: the device serves, under the configuration it had taken (R264-R266). -/
theorem Dev.linkEntered (d : Dev) :
    let e := (d.setBring .link).portsTrain
    e.bring.Serves ∧ e.hub.cfgGen = d.hub.cfgGen ∧ (e.lnk.nx * e.lnk.ny * e.lnk.nz ≠ 1 → e.bring = .link) := by
  intro e
  obtain ⟨goes, several⟩ := (d.setBring .link).portsTrain_goesOn
  refine ⟨goes.serves ?_, ?_, ?_⟩
  · rw [Dev.setBring_bring]
    exact ⟨by decide, by decide⟩
  · rw [goes.cfgGen, Dev.setBring_hub]
  · rw [goes.nx, goes.ny, goes.nz]
    exact fun other => (several other).trans (Dev.setBring_bring _ _ _)

/-- LINK entered from a blob whose header names its bytes: the blob's generation is in force, and the device serves
(R264-R266). -/
theorem State.enterLink_serves (s : State) {blob : List Byte} (header : 16 ≤ leAt blob 8 4) :
    let d := (s.enterLink blob).dev
    d.bring.Serves ∧ d.hub.cfgGen = leAt blob 0xC 4 ∧ (d.lnk.nx * d.lnk.ny * d.lnk.nz ≠ 1 → d.bring = .link) := by
  unfold State.enterLink
  dsimp only
  generalize s.dev.applySettings s.flash.serial ((blobSettings (blob.take (leAt blob 8 4))).getD []) = applied
  obtain ⟨serves, cfgGen, several⟩ :=
    Dev.linkEntered { applied with hub := { applied.hub with cfgGen := leAt (blob.take (leAt blob 8 4)) 0xC 4,
                                                             cfgBlob := blob.take (leAt blob 8 4) } }
  exact ⟨serves, cfgGen.trans (leAt_take header), several⟩

/-! ## Mailboxes opened (R268) -/

/-- A mailbox that was just opened: it expects SEQUENCE 0 and holds no slot (R254, R268). -/
def Mailbox.Opened (b : Mailbox) : Prop := b.expected = 0 ∧ b.consumed = b.doorbell

theorem Dev.posted_openBox (d : Dev) (m : Nat) : d.Posted (d.openBox m) := by
  rw [Dev.openBox_frame]
  rfl

/-- Opening a mailbox opens it, and no other mailbox shuts. -/
theorem Dev.openBox_opens (d : Dev) {m k : Nat} (h : k = m ∨ (d.box k).Opened) : ((d.openBox m).box k).Opened := by
  have counted (e : Dev) (n : Nat) :
      (if n = 0 then e else (e.bump Off.mbxBootDiscards n).setBit Off.mbxStatus 3).mbx = e.mbx := by
    split <;> rfl
  unfold Dev.openBox
  extract_lets b n cleared
  have same : cleared.mbx = d.mbx := counted d n
  clear_value cleared
  by_cases mine : k = m
  · subst mine
    by_cases box : k < cleared.mbx.boxes.length
    · rw [Dev.box_modBox_same _ _ box]
      exact ⟨rfl, rfl⟩
    · have none : (cleared.modBox k fun b => { b with consumed := b.doorbell, expected := 0, rewritten := [] }).box k = {} :=
        List.getD_eq_default _ _ (by rw [Dev.modBox_boxes_length]; omega)
      rw [none]
      exact ⟨rfl, rfl⟩
  · rw [Dev.box_modBox_other _ _ mine]
    have before : cleared.box k = d.box k := by rw [Dev.box, same, Dev.box]
    rw [before]
    exact h.resolve_left mine

/-- The mailboxes of a list opened, one after another. -/
theorem Dev.boxes_opened (ms : List Nat) (d : Dev) {k : Nat} (h : k ∈ ms ∨ (d.box k).Opened) :
    ((ms.foldl Dev.openBox d).box k).Opened := by
  induction ms generalizing d with
  | nil => exact h.resolve_left (List.not_mem_nil)
  | cons m ms ih =>
    rw [List.mem_cons, or_assoc] at h
    rcases h with first | later | already
    · exact ih _ (.inr (d.openBox_opens (.inl first)))
    · exact ih _ (.inl later)
    · exact ih _ (.inr (d.openBox_opens (.inr already)))

theorem Dev.posted_openBoxes (ms : List Nat) (d : Dev) : d.Posted (ms.foldl Dev.openBox d) := by
  induction ms generalizing d with
  | nil => exact .refl d
  | cons m ms ih => exact (d.posted_openBox m).trans (ih _)

/-! ## The tests of the store (R264) -/

/-- A blob that passes the test of its header holds its generation (R263). -/
theorem header_of_blobFormat {b : List Byte} (format : blobFormat b = true) : 16 ≤ leAt b 8 4 := by
  unfold blobFormat at format
  simp only [Bool.and_eq_true, decide_eq_true_eq, inRange] at format
  omega

theorem State.storeReason_none_iff (s : State) : s.storeReason = none ↔
    markerErased s.flash.marker = false ∧ markerOk s.flash.config s.flash.marker = true ∧
      leAt s.flash.marker 0xC 4 = crc32c (s.flash.config.take (leAt s.flash.config 8 4)) ∧
      blobFormat s.flash.config = true ∧ blobSigned s.configKey s.flash.config = true ∧
      leAt s.flash.config 0xC 4 = s.flash.counters.getD 0 0 ∧ blobContent s.flash.config = true := by
  constructor
  · intro none
    have pass := passed_of_firstFail none
    simpa using pass
  · rintro ⟨written, whole, digest, format, signed, generation, content⟩
    simp only [State.storeReason, firstFail, written, whole, digest, format, signed, generation, content]
    simp

/-- What the tests of a blob that would be written say (R265). -/
theorem State.blobStatus_none {s : State} {b : List Byte} {bytes : Nat} (h : s.blobStatus b bytes = none) :
    blobFormat b = true ∧ s.flash.counters.getD 0 0 < leAt b 0xC 4 ∧ blobContent b = true ∧
      blobSigned s.configKey b = true := by
  unfold State.blobStatus at h
  extract_lets rest at h
  split at h
  · cases h
  next good =>
    split at h
    · cases h
    next signed =>
      simp only [rest, Bool.not_eq_true', Bool.not_eq_false, Bool.and_eq_true, decide_eq_true_eq, Bool.or_eq_true,
        not_or] at good signed
      obtain ⟨⟨⟨format, -⟩, above⟩, content⟩ := good
      exact ⟨format, above, content, by simpa using signed.2⟩

/-- A blob with its marker, whose generation the counter holds, passes the tests of the store (R264, R265). -/
theorem State.storeReason_written {s : State} {b : List Byte} (config : s.flash.config = b) (marker : s.flash.marker = markerOf b)
    (format : blobFormat b = true) (signed : blobSigned s.configKey b = true) (content : blobContent b = true)
    (generation : s.counter 0 = leAt b 0xC 4) : s.storeReason = none := by
  rw [State.storeReason_none_iff, config, marker]
  exact ⟨markerErased_markerOf b, markerOk_markerOf b, markerOf_digest b, format, signed, generation.symm, content⟩

/-! ## STORE_CHECK (R266) -/

/-- The state of which STORE_CHECK opens the mailboxes. -/
def State.storeChecked (s : State) : State :=
  match s.storeReason with
  | some r => { s with dev := s.dev.setBring .hold r }
  | none => s.enterLink s.flash.config

theorem exec_storeCheck_of_fw {s : State} (fw : s.dev.bring = .fw) :
    exec .storeCheck s = .next { s.storeChecked with dev := (List.range 17).foldl Dev.openBox s.storeChecked.dev } := by
  rw [exec_storeCheck, execStoreCheck, State.storeCheck, if_neg (not_not.mpr fw)]
  rfl

theorem State.storeChecked_keeps (s : State) :
    s.storeChecked.flash = s.flash ∧ s.storeChecked.fw = s.fw ∧ s.storeChecked.sec = s.sec := by
  unfold State.storeChecked
  split <;> exact ⟨rfl, rfl, rfl⟩

theorem storeCheck (s : State) :
    (s.dev.bring ≠ .fw → exec .storeCheck s = .next s) ∧
    (s.dev.bring = .fw → ∃ t, exec .storeCheck s = .next t ∧ t.flash = s.flash ∧ t.fw = s.fw ∧ t.sec = s.sec ∧
      (∀ m < 17, (t.dev.box m).expected = 0 ∧ (t.dev.box m).consumed = (t.dev.box m).doorbell) ∧
      (∀ r, s.storeReason = some r → t.dev.bring = .hold ∧ t.dev.holdReason = r ∧ t.dev.mem = s.dev.mem) ∧
      (s.storeReason = none → t.dev.bring ≠ .fw ∧ t.dev.bring ≠ .hold ∧ t.dev.hub.cfgGen = s.flash.counters.getD 0 0 ∧
        (t.dev.lnk.nx * t.dev.lnk.ny * t.dev.lnk.nz ≠ 1 → t.dev.bring = .link))) := by
  refine ⟨fun other => ?_, fun fw => ⟨_, exec_storeCheck_of_fw fw, ?_⟩⟩
  · rw [exec_storeCheck, execStoreCheck, State.storeCheck, if_pos other]
  have posted := Dev.posted_openBoxes (List.range 17) s.storeChecked.dev
  obtain ⟨flash, firmware, secrets⟩ := s.storeChecked_keeps
  refine ⟨flash, firmware, secrets, fun m bound => Dev.boxes_opened _ _ (.inl (List.mem_range.mpr bound)), fun r failed => ?_,
    fun pass => ?_⟩
  · have held : s.storeChecked.dev = s.dev.setBring .hold r := by rw [State.storeChecked, failed]
    have reason : ((List.range 17).foldl Dev.openBox s.storeChecked.dev).holdReason = s.storeChecked.dev.holdReason := by
      rw [posted]
    dsimp only
    rw [posted.bring, reason, posted.mem, held]
    exact ⟨Dev.setBring_bring _ _ _, Dev.setBring_holdReason _ _ _, Dev.setBring_mem _ _ _⟩
  · have entered : s.storeChecked = s.enterLink s.flash.config := by rw [State.storeChecked, pass]
    obtain ⟨-, -, -, format, -, generation, -⟩ := s.storeReason_none_iff.mp pass
    obtain ⟨⟨notFw, notHold⟩, cfgGen, several⟩ := s.enterLink_serves (header_of_blobFormat format)
    dsimp only
    rw [posted.bring, posted.hub, posted.lnk, entered]
    exact ⟨notFw, notHold, cfgGen.trans generation, several⟩

/-! ## IDENTIFY and CONFIG_READ (R257, R258) -/

theorem State.command_accepted {s : State} {h h' : CmdHdr} {d : Dev} {opcode : Nat} {k : CmdHdr → State → State}
    (accepted : s.dev.accept { h with opcode := opcode } = (some h', d)) :
    s.command h opcode k = k h' { s with dev := d } := by
  unfold State.command
  rw [accepted]

/-- A command accepted leaves the recorder. -/
theorem Dev.accept_evr {d d' : Dev} {h h' : CmdHdr} (accepted : d.accept h = (some h', d')) : d'.evr = d.evr := by
  obtain ⟨-, -, -, result⟩ := Dev.accept_some accepted
  have device : d' = ((d.sequenced h).journal h).2 := congrArg Prod.snd result
  have journaled : ((d.sequenced h).journal h).2.evr = (d.sequenced h).evr := rfl
  rw [device, journaled, Dev.sequenced_eq]

theorem padTo_length (l : List Byte) (n : Nat) : (padTo l n).length = n := by
  rw [padTo, List.length_take, List.length_append, List.length_replicate]
  omega

/-- A field inside what is padded. -/
theorem leAt_padTo {a : List Byte} {o n k m : Nat} (at_ : a.length = o) (inside : o + k ≤ m) (b : List Byte) :
    leAt (padTo (a ++ (le n k ++ b)) m) o k = n % 256 ^ k := by
  rw [padTo, leAt_take inside, List.append_assoc, List.append_assoc, leAt_append_le at_]

/-- The identity page holds the boot count at 36 (R258). -/
theorem State.identityPage_boot (s : State) : leAt s.identityPage 36 4 = s.dev.evr.boot % 2 ^ 32 := by
  unfold State.identityPage
  dsimp only
  simp only [List.append_assoc]
  rw [← List.append_assoc, ← List.append_assoc, ← List.append_assoc, leAt_padTo _ (by omega)]
  · norm_num
  · simp [padTo_length, le_length]

theorem identify (s : State) (h h' : CmdHdr) (d : Dev) (buffer : Nat)
    (accepted : s.dev.accept { h with opcode := 0x0002 } = (some h', d)) :
    let page := ({ s with dev := d } : State).identityPage
    page.length = 4096 ∧ leAt page 36 4 = s.dev.evr.boot % 2 ^ 32 ∧
    (aligned buffer 4096 = false → exec (.identify h buffer) s = .next { s with dev := (d.no 0x000A).finish h' }) ∧
    (aligned buffer 4096 = true → d.writeHost buffer page = none →
      exec (.identify h buffer) s = .next { s with dev := (d.no 0x0506).finish h' }) ∧
    (aligned buffer 4096 = true → ∀ d1, d.writeHost buffer page = some d1 →
      exec (.identify h buffer) s = .next { s with dev := d1.complete h' 0 4096 }) := by
  intro page
  have carried : exec (.identify h buffer) s = .next (({ s with dev := d } : State).doIdentify h' buffer) :=
    congrArg _ (State.command_accepted accepted)
  refine ⟨padTo_length _ _, ?_, fun off => ?_, fun on failed => ?_, fun on d1 written => ?_⟩
  · rw [State.identityPage_boot, Dev.accept_evr accepted]
  · rw [carried, State.doIdentify, if_pos (by rw [off]; rfl)]
  · rw [carried, State.doIdentify, if_neg (by rw [on]; decide), failed]
  · rw [carried, State.doIdentify, if_neg (by rw [on]; decide), written]
    rfl

theorem configRead (s : State) (h h' : CmdHdr) (d : Dev) (buffer bytes : Nat)
    (accepted : s.dev.accept { h with opcode := 0x0003 } = (some h', d)) (on : aligned buffer 4096 = true) :
    let n := leAt s.flash.config 8 4
    (∀ r, s.storeReason = some r →
      exec (.configRead h buffer bytes) s = .next { s with dev := (d.noAt 0x000F r).finish h' }) ∧
    (s.storeReason = none → bytes < n →
      exec (.configRead h buffer bytes) s = .next { s with dev := (d.no 0x000A).finish h' }) ∧
    (s.storeReason = none → n ≤ bytes → ∀ d1, d.writeHost buffer (s.flash.config.take n) = some d1 →
      exec (.configRead h buffer bytes) s = .next { s with dev := d1.complete h' 0 n }) := by
  intro n
  have carried : exec (.configRead h buffer bytes) s = .next (({ s with dev := d } : State).doConfigRead h' buffer bytes) :=
    congrArg _ (State.command_accepted accepted)
  have sameReason : ({ s with dev := d } : State).storeReason = s.storeReason := rfl
  refine ⟨fun r failed => ?_, fun pass short => ?_, fun pass fits d1 written => ?_⟩ <;>
    rw [carried, State.doConfigRead] <;> dsimp only <;> rw [if_neg (by rw [on]; decide), sameReason]
  · rw [failed]
  · rw [pass]
    dsimp only
    rw [if_pos short]
  · rw [pass]
    dsimp only
    rw [if_neg (not_lt.mpr fits), written]
    rfl

/-! ## CONFIG_WRITE (R265) -/

/-- The flash once a blob and its marker are written. -/
def State.flashWritten (s : State) (b : List Byte) : Flash :=
  { ({ s.flash with marker := List.replicate 64 0xFF, config := b } : Flash).raise 0 (leAt b 0xC 4) with
    marker := markerOf b, writeAt := some s.dev.now, before := s.flash.counters.getD 0 0 }

section
variable {s : State} {source bytes : Nat} {persist : Bool} {b : List Byte} (h : CmdHdr) (on : aligned source 4096 = true)
  (small : bytes ≤ 65536) (held : persist = true ∨ s.dev.bring = .hold) (read : s.dev.readHost source bytes = some b)
include on small held read

theorem State.doConfigWrite_refused {st : Nat} (refused : s.blobStatus b bytes = some st) :
    s.doConfigWrite h source bytes persist = { s with dev := (s.dev.no st).finish h } := by
  unfold State.doConfigWrite
  rcases held with held | held <;> simp [on, held, not_lt.mpr small, read, refused]

theorem State.doConfigWrite_tried (pass : s.blobStatus b bytes = none) (once : persist = false) :
    s.doConfigWrite h source bytes persist =
      { s.enterLink b with dev := (s.enterLink b).dev.complete h 0 (leAt b 0xC 4) } := by
  have hold := held.resolve_left (by rw [once]; decide)
  unfold State.doConfigWrite
  simp [on, once, hold, not_lt.mpr small, read, pass]

omit held in
theorem State.doConfigWrite_failed (pass : s.blobStatus b bytes = none) (kept : persist = true) (bad : s.fw.flashBad = true) :
    s.doConfigWrite h source bytes persist =
      { s with flash := { s.flash with marker := List.replicate 64 0xFF, config := b }, dev := (s.dev.no 0x0B0C).finish h } := by
  unfold State.doConfigWrite
  simp [on, kept, not_lt.mpr small, read, pass, bad]

omit held in
theorem State.doConfigWrite_persisted (pass : s.blobStatus b bytes = none) (kept : persist = true)
    (good : s.fw.flashBad = false) :
    let w : State := { s with flash := s.flashWritten b }
    let e := if s.dev.bring = .hold then w.enterLink b else w
    s.doConfigWrite h source bytes persist = { e with dev := e.dev.complete h 0 (leAt b 0xC 4) } := by
  unfold State.doConfigWrite
  simp [on, kept, not_lt.mpr small, read, pass, good, State.flashWritten]

end

/-- A counter raised holds the value, and no other moves (R438). -/
theorem State.counter_flashWritten {s t : State} {b : List Byte} (flash : t.flash = s.flashWritten b)
    (counters : 0 < s.flash.counters.length) (above : s.flash.counters.getD 0 0 < leAt b 0xC 4) :
    t.counter 0 = leAt b 0xC 4 ∧ ∀ k, k ≠ 0 → t.counter k = s.counter k := by
  have bound := leAt_lt b 0xC 4
  have raised : (s.flashWritten b).counters = upd s.flash.counters 0 fun c => max c (min (leAt b 0xC 4) 0xFFFFFFFF) := rfl
  refine ⟨?_, fun k other => ?_⟩
  · rw [State.counter, flash, raised, List.getD_eq_getElem?_getD, upd_get_same, List.getElem?_eq_getElem counters]
    rw [List.getD_eq_getElem?_getD, List.getElem?_eq_getElem counters] at above
    simp only [Option.map_some, Option.getD_some] at above ⊢
    omega
  · rw [State.counter, flash, raised, List.getD_eq_getElem?_getD, upd_get_other _ _ other, ← List.getD_eq_getElem?_getD]
    rfl

/-- A blob that is persisted: it stands in the store with its marker, its generation in the counter, and no other counter
moves (R263, R265). -/
theorem State.persisted {s t : State} {b : List Byte} {bytes : Nat} (pass : s.blobStatus b bytes = none)
    (counters : 0 < s.flash.counters.length) (flash : t.flash = s.flashWritten b) :
    t.flash.config = b ∧ t.storeReason = none ∧ t.counter 0 = leAt b 0xC 4 ∧ ∀ k, k ≠ 0 → t.counter k = s.counter k := by
  obtain ⟨format, above, content, signed⟩ := State.blobStatus_none pass
  obtain ⟨generation, others⟩ := State.counter_flashWritten flash counters above
  have config : t.flash.config = b := by rw [flash]; rfl
  have marker : t.flash.marker = markerOf b := by rw [flash]; rfl
  have key : t.configKey = s.configKey := by rw [State.configKey, flash]; rfl
  exact ⟨config, State.storeReason_written config marker format (key ▸ signed) content generation, generation, others⟩

theorem configWrite (s : State) (h h' : CmdHdr) (d : Dev) (source bytes : Nat) (persist : Bool)
    (accepted : s.dev.accept { h with opcode := 0x0004 } = (some h', d)) (on : aligned source 4096 = true) :
    (persist = false → d.bring ≠ .hold →
      exec (.configWrite h source bytes persist) s = .next { s with dev := (d.no 0x0009).finish h' }) ∧
    ∀ b, bytes ≤ 65536 → persist = true ∨ d.bring = .hold → d.readHost source bytes = some b →
      (∀ st, s.blobStatus b bytes = some st →
        exec (.configWrite h source bytes persist) s = .next { s with dev := (d.no st).finish h' }) ∧
      (s.blobStatus b bytes = none → persist = false → ∃ t, exec (.configWrite h source bytes persist) s = .next t ∧
        t.flash = s.flash ∧ t.dev.bring ≠ .hold ∧ t.dev.hub.cfgGen = leAt b 0xC 4) ∧
      (s.blobStatus b bytes = none → persist = true → s.fw.flashBad = true →
        ∃ t, exec (.configWrite h source bytes persist) s = .next t ∧ t.storeReason = some 1 ∧
          t.flash.counters = s.flash.counters ∧ t.dev = (d.no 0x0B0C).finish h') ∧
      (s.blobStatus b bytes = none → persist = true → s.fw.flashBad = false → 0 < s.flash.counters.length →
        ∃ t, exec (.configWrite h source bytes persist) s = .next t ∧ t.flash.config = b ∧ t.storeReason = none ∧
          t.counter 0 = leAt b 0xC 4 ∧ (∀ k, k ≠ 0 → t.counter k = s.counter k) ∧
          (d.bring ≠ .hold → t.dev = d.complete h' 0 (leAt b 0xC 4)) ∧ t.dev.bring ≠ .hold) := by
  have carried : exec (.configWrite h source bytes persist) s =
      .next (({ s with dev := d } : State).doConfigWrite h' source bytes persist) :=
    congrArg _ (State.command_accepted accepted)
  refine ⟨fun once other => ?_, fun b small held read => ⟨fun st refused => ?_, fun pass once => ⟨_, carried, ?_⟩,
    fun pass kept bad => ⟨_, carried, ?_⟩, fun pass kept good counters => ⟨_, carried, ?_⟩⟩⟩
  · rw [carried, State.doConfigWrite]
    simp [on, once, other]
  · rw [carried, State.doConfigWrite_refused (s := { s with dev := d }) h' on small held read refused]
  · rw [State.doConfigWrite_tried (s := { s with dev := d }) h' on small held read pass once]
    obtain ⟨format, -, -, -⟩ := State.blobStatus_none pass
    obtain ⟨⟨-, notHold⟩, cfgGen, -⟩ := State.enterLink_serves { s with dev := d } (header_of_blobFormat format)
    have posted := (({ s with dev := d } : State).enterLink b).dev.posted_complete h' 0 (leAt b 0xC 4)
    refine ⟨rfl, ?_, ?_⟩
    · dsimp only
      rwa [posted.bring]
    · dsimp only
      rwa [posted.hub]
  · rw [State.doConfigWrite_failed (s := { s with dev := d }) h' on small read pass kept bad]
    exact ⟨rfl, rfl, rfl⟩
  · rw [State.doConfigWrite_persisted (s := { s with dev := d }) h' on small read pass kept good]
    dsimp only
    generalize written : ({ s with dev := d, flash := ({ s with dev := d } : State).flashWritten b } : State) = w
    have flash : w.flash = ({ s with dev := d } : State).flashWritten b := by rw [← written]
    have device : w.dev = d := by rw [← written]
    by_cases hold : d.bring = .hold
    · rw [if_pos hold]
      obtain ⟨format, -, -, -⟩ := State.blobStatus_none pass
      obtain ⟨⟨-, notHold⟩, -, -⟩ := w.enterLink_serves (header_of_blobFormat format)
      have posted := (w.enterLink b).dev.posted_complete h' 0 (leAt b 0xC 4)
      obtain ⟨config, reason, generation, others⟩ := State.persisted (s := { s with dev := d })
        (t := { w.enterLink b with dev := (w.enterLink b).dev.complete h' 0 (leAt b 0xC 4) }) pass counters flash
      exact ⟨config, reason, generation, others, fun other => absurd hold other, posted.bring ▸ notHold⟩
    · rw [if_neg hold]
      obtain ⟨config, reason, generation, others⟩ := State.persisted (s := { s with dev := d })
        (t := { w with dev := w.dev.complete h' 0 (leAt b 0xC 4) }) pass counters flash
      refine ⟨config, reason, generation, others, fun _ => by rw [device], ?_⟩
      rwa [(w.dev.posted_complete h' 0 _).bring, device]

end Sys2Proof.Machine

/-- Settles O42: a blob's marker reads back as it was laid down, and forming the fabric keeps the configuration in force. -/
theorem configurationStore : Obligations.ConfigurationStore := by
  unfold Obligations.ConfigurationStore
  exact ⟨Sys2Proof.Machine.storeCheck, Sys2Proof.Machine.identify, Sys2Proof.Machine.configRead, Sys2Proof.Machine.configWrite⟩

end

section
/-! PROOFS. Packets delivered once, acknowledged end to end and replayed (R268, R359-R366, R371, R378). -/

namespace Sys2Proof.Machine

/-! ## What a packet sent leaves alone -/

/-- Between `d` and `d'` transmitters ran: of the device at most the ports, the limit ratios' windows and the registers from
LNK_PORT_TX on differ (R28, R361, R393). -/
structure Dev.Pumped (d d' : Dev) : Prop where
  frame : d' = { d with regs := d'.regs, hub := d'.hub, lnk := { d.lnk with ports := d'.lnk.ports } }
  reg : ∀ o, o < Off.lnkPortTxLo → d'.reg o = d.reg o

theorem Dev.Pumped.refl (d : Dev) : d.Pumped d := ⟨rfl, fun _ _ => rfl⟩

theorem Dev.Pumped.trans {a b c : Dev} (h : a.Pumped b) (k : b.Pumped c) : a.Pumped c :=
  ⟨by rw [k.frame, h.frame], fun o below => (k.reg o below).trans (h.reg o below)⟩

theorem Dev.pumped_measure (d : Dev) (f : Hub → Hub) : d.Pumped (d.measure f) := by
  unfold Dev.measure
  split
  · exact ⟨rfl, fun _ _ => rfl⟩
  · exact .refl d

theorem Dev.pumped_pumpPort (d : Dev) (p : Nat) : d.Pumped (d.pumpPort p) := by
  unfold Dev.pumpPort
  extract_lets n r
  split
  · exact .refl d
  · have ported : d.Pumped (d.modPort p fun _ => r.2) := ⟨rfl, fun _ _ => rfl⟩
    have counted : (d.modPort p fun _ => r.2).Pumped ((d.modPort p fun _ => r.2).bump64 (Off.lnkPortTxLo + 0x40 * p) r.1) :=
      ⟨rfl, fun o below => Dev.reg_bump64_other _ _ (by omega) (by omega)⟩
    exact (ported.trans counted).trans (Dev.pumped_measure _ _)

theorem Dev.pumped_transmit (d : Dev) (p : Packet) : d.Pumped (d.transmit p) := by
  unfold Dev.transmit
  split
  · exact .refl d
  next port _ =>
    extract_lets ph
    have queued : d.Pumped (d.modPort ph fun t =>
      { t with queue := t.queue ++ [{ req := requesterOf p, channel := p.channel, words := packetWords p }] }) :=
      ⟨rfl, fun _ _ => rfl⟩
    exact queued.trans (Dev.pumped_pumpPort _ _)

section
variable {d d' : Dev} (h : d.Pumped d')
include h

theorem Dev.Pumped.now : d'.now = d.now := by rw [h.frame]
theorem Dev.Pumped.mem : d'.mem = d.mem := by rw [h.frame]
theorem Dev.Pumped.host : d'.host = d.host := by rw [h.frame]
theorem Dev.Pumped.grf : d'.grf = d.grf := by rw [h.frame]
theorem Dev.Pumped.srv : d'.srv = d.srv := by rw [h.frame]
theorem Dev.Pumped.ackDue : d'.lnk.ackDue = d.lnk.ackDue := by rw [h.frame]
theorem Dev.Pumped.recvNext : d'.lnk.recvNext = d.lnk.recvNext := by rw [h.frame]
theorem Dev.Pumped.replay : d'.lnk.replay = d.lnk.replay := by rw [h.frame]
theorem Dev.Pumped.sent : d'.lnk.sent = d.lnk.sent := by rw [h.frame]
theorem Dev.Pumped.early : d'.lnk.early = d.lnk.early := by rw [h.frame]

end

/-- A notice leaves the requests that wait for DIGITAL, memory and the registers below LNK_PORT_TX alone (R366, R389). -/
theorem Dev.notice_keeps (d : Dev) (dst type tag : Nat) (l : List Byte) :
    (d.notice dst type tag l).lnk.early = d.lnk.early ∧ (d.notice dst type tag l).mem = d.mem ∧
      ∀ o, o < Off.lnkPortTxLo → (d.notice dst type tag l).reg o = d.reg o := by
  unfold Dev.notice Dev.sendPacket
  extract_lets seq p link numbered
  have early : numbered.lnk.early = d.lnk.early := rfl
  have mem : numbered.mem = d.mem := rfl
  have reg (o : Nat) : numbered.reg o = d.reg o := rfl
  clear_value numbered
  unfold Dev.sendOrHold
  split
  · exact ⟨early, mem, fun o _ => reg o⟩
  · refine ⟨(Dev.pumped_transmit _ _).early.trans early, (Dev.pumped_transmit _ _).mem.trans mem, fun o below => ?_⟩
    exact ((Dev.pumped_transmit _ _).reg o below).trans (reg o)

/-! ## Flits and packets that arrive -/

/-- Between `d` and `d'` at most ports and registers changed. -/
def Dev.OnPorts (d d' : Dev) : Prop := d' = { d with regs := d'.regs, lnk := { d.lnk with ports := d'.lnk.ports } }

theorem Dev.OnPorts.trans {a b c : Dev} (h : a.OnPorts b) (k : b.OnPorts c) : a.OnPorts c := by
  unfold Dev.OnPorts at h k ⊢
  rw [k, h]

theorem Dev.reg_modPort (d : Dev) (p : Nat) (g : Port → Port) (o : Nat) : (d.modPort p g).reg o = d.reg o := rfl

theorem Dev.onPorts_counted (d : Dev) (o p : Nat) (g : Port → Port) : d.OnPorts ((d.bumpWrap o).modPort p g) := rfl

/-- A flit that is discarded: its port asks for it again, and counts the request (R362). -/
theorem Dev.badFlit_eq (d : Dev) {p : Nat} (box : p < d.lnk.ports.length) :
    (d.badFlit p).port p = { d.port p with nak := true, dropping := true } ∧
      (∀ q, q ≠ p → (d.badFlit p).port q = d.port q) ∧
      (d.badFlit p).reg (Off.lnkPortNaks + 0x40 * p) = (if (d.port p).nak then d.reg (Off.lnkPortNaks + 0x40 * p)
        else (d.reg (Off.lnkPortNaks + 0x40 * p) + 1) % 2 ^ 32) ∧
      d.badFlit p = { d with regs := (d.badFlit p).regs, lnk := { d.lnk with ports := (d.badFlit p).lnk.ports } } := by
  unfold Dev.badFlit
  by_cases nak : (d.port p).nak = true
  · rw [if_pos nak, if_pos nak]
    exact ⟨Dev.port_modPort_same d _ box, fun q other => Dev.port_modPort_other d _ other, rfl, rfl⟩
  · rw [if_neg nak, if_neg nak]
    refine ⟨Dev.port_modPort_same (d.bumpWrap _) _ box, fun q other => Dev.port_modPort_other (d.bumpWrap _) _ other, ?_,
      d.onPorts_counted _ _ _⟩
    rw [Dev.reg_modPort, Dev.reg_bumpWrap_same]

theorem flitsDiscarded (s : State) (p : Nat) (l : List Byte) :
    (l.length ≠ 256 ∨ (s.dev.port p).state = .off ∨ (s.dev.port p).state = .down ∨ (s.dev.port p).state = .training →
      exec (.flitReceive p l) s = .next s) ∧
    (l.length = 256 → (s.dev.port p).state = .up → p < s.dev.lnk.ports.length → p < 6 → flitWord (l.take 11) 8 = none →
      ∃ t, exec (.flitReceive p l) s = .next t ∧
        t.dev.port p = { s.dev.port p with nak := true, dropping := true } ∧
        (∀ q, q ≠ p → t.dev.port q = s.dev.port q) ∧
        t.dev.reg (Off.lnkPortNaks + 0x40 * p) = (if (s.dev.port p).nak then s.dev.reg (Off.lnkPortNaks + 0x40 * p)
          else (s.dev.reg (Off.lnkPortNaks + 0x40 * p) + 1) % 2 ^ 32) ∧
        t = { s with dev := { s.dev with regs := t.dev.regs, lnk := { s.dev.lnk with ports := t.dev.lnk.ports } } }) := by
  refine ⟨fun ignored => ?_, fun whole up box _ header => ⟨{ s with dev := s.dev.badFlit p }, ?_, ?_⟩⟩
  · rw [exec_flitReceive, execFlitReceive, lift, Dev.flitReceive, if_pos ignored]
  · rw [exec_flitReceive, execFlitReceive, lift, Dev.flitReceive, if_neg (by simp [whole, up]), header]
  · obtain ⟨same, others, counted, frame⟩ := s.dev.badFlit_eq box
    refine ⟨same, others, counted, ?_⟩
    dsimp only
    rw [← frame]

theorem exec_packetReceive_eq {s : State} {p : Packet} (rom : s.dev.bring ≠ .rom) (recovery : s.dev.bring ≠ .recovery)
    {d : Dev} (h : (if !headerOk p then s.dev.bumpWrap Off.lnkBadPackets
      else if p.dst ≠ s.dev.deviceId then s.dev.relayOn p
      else if s.dev.isEarly then (if isFormation p then s.dev.earlyFormation p else s.dev.earlyRequest p)
      else s.dev.receiveWith Dev.deliver p) = d) :
    exec (.packetReceive p) s = .next { s with dev := d } := by
  rw [exec_packetReceive, execPacketReceive, lift, Dev.packetReceive, if_neg (by simp [rom, recovery]), h]

/-- An acknowledgement sent: the packet it is, and what it leaves alone (R366). -/
theorem Dev.sendAck_sent (d : Dev) (src ch : Nat) :
    ∃ p, (d.sendAck src ch).lnk.sent = d.lnk.sent ++ [p] ∧ p.dst = src ∧ p.channel = 4 ∧ p.type = 1 ∧
      leAt p.payload 4 4 = (pairVal d.lnk.recvNext src ch + 2 ^ 32 - 1) % 2 ^ 32 := by
  unfold Dev.sendAck
  extract_lets n p
  refine ⟨p, (Dev.pumped_transmit _ _).sent, rfl, rfl, rfl, ?_⟩
  dsimp only [p, padWords]
  rw [List.append_assoc, leAt_append_le (by simp [le_length])]
  exact Nat.mod_mod _ _

theorem Dev.sendAck_keeps (d : Dev) (src ch : Nat) :
    let e := d.sendAck src ch
    e.lnk.ackDue = setPair d.lnk.ackDue src ch 0 ∧ e.lnk.recvNext = d.lnk.recvNext ∧ e.lnk.replay = d.lnk.replay ∧
      e.mem = d.mem ∧ e.grf = d.grf ∧ e.srv = d.srv ∧ e.host = d.host ∧ ∀ o, o < Off.lnkPortTxLo → e.reg o = d.reg o := by
  unfold Dev.sendAck
  extract_lets n p
  have pumped := Dev.pumped_transmit { d with lnk := { d.lnk with
    ackDue := setPair d.lnk.ackDue src ch 0, sent := d.lnk.sent ++ [p] } } p
  exact ⟨pumped.ackDue, pumped.recvNext, pumped.replay, pumped.mem, pumped.grf, pumped.srv, pumped.host, pumped.reg⟩

theorem packetsDelivered (s : State) (p : Packet) :
    (s.dev.bring = .rom ∨ s.dev.bring = .recovery → exec (.packetReceive p) s = .next s) ∧
    (s.dev.bring ≠ .rom → s.dev.bring ≠ .recovery →
      (headerOk p = false → ∃ t, exec (.packetReceive p) s = .next t ∧
        t.dev.reg Off.lnkBadPackets = (s.dev.reg Off.lnkBadPackets + 1) % 2 ^ 32 ∧
        t = { s with dev := { s.dev with regs := t.dev.regs } }) ∧
      (headerOk p = true → p.dst ≠ s.dev.deviceId → 31 ≤ p.hops → ∃ t, exec (.packetReceive p) s = .next t ∧
        t.dev.reg Off.lnkHopDrops = (s.dev.reg Off.lnkHopDrops + 1) % 2 ^ 32 ∧
        t = { s with dev := { s.dev with regs := t.dev.regs } }) ∧
      (headerOk p = true → p.dst = s.dev.deviceId → s.dev.isEarly = false → ¬ (p.channel = 4 ∧ p.type = 1) →
        let n := pairVal s.dev.lnk.recvNext p.src p.channel;
        (p.seq ≠ n → seqBefore p.seq n = true → ∃ t, exec (.packetReceive p) s = .next t ∧
          t.dev.reg Off.lnkDuplicates = (s.dev.reg Off.lnkDuplicates + 1) % 2 ^ 32 ∧
          t.dev.lnk.recvNext = s.dev.lnk.recvNext ∧ t.dev.mem = s.dev.mem ∧ t.dev.grf = s.dev.grf ∧
          t.dev.srv = s.dev.srv ∧ t.dev.host = s.dev.host) ∧
        (p.seq ≠ n → seqBefore p.seq n = false →
          (s.dev.lnk.reorder.all fun q =>
            !(decide (q.src = p.src) && decide (q.channel = p.channel) && decide (q.seq = p.seq))) = true →
          s.dev.lnk.reorder.length < 1024 →
          exec (.packetReceive p) s =
            .next { s with dev := { s.dev with lnk := { s.dev.lnk with reorder := s.dev.lnk.reorder ++ [p] } } }))) := by
  refine ⟨fun shut => ?_, fun rom recovery => ⟨fun bad => ?_, fun good other hops => ?_, fun good mine digital notAck => ?_⟩⟩
  · rw [exec_packetReceive, execPacketReceive, lift, Dev.packetReceive, if_pos shut]
  · refine ⟨_, exec_packetReceive_eq rom recovery (if_pos (by rw [bad]; rfl)), Dev.reg_bumpWrap_same _ _ _, rfl⟩
  · have dropped : s.dev.relayOn p = s.dev.bumpWrap Off.lnkHopDrops := if_pos (by omega : 32 ≤ p.hops + 1)
    refine ⟨_, exec_packetReceive_eq (d := s.dev.bumpWrap Off.lnkHopDrops) rom recovery ?_, Dev.reg_bumpWrap_same _ _ _, rfl⟩
    rw [if_neg (by rw [good]; decide), if_pos other, dropped]
  · intro n
    have received {d : Dev} (h : s.dev.receiveWith Dev.deliver p = d) :
        exec (.packetReceive p) s = .next { s with dev := d } := by
      refine exec_packetReceive_eq rom recovery ?_
      rw [if_neg (by rw [good]; decide), if_neg (not_not.mpr mine), if_neg (by rw [digital]; decide), h]
    refine ⟨fun notNext before => ⟨_, received (d := (s.dev.bumpWrap Off.lnkDuplicates).sendAck p.src p.channel) ?_, ?_⟩,
      fun notNext ahead new room => received ?_⟩
    · unfold Dev.receiveWith
      dsimp only
      rw [if_neg notAck, if_neg notNext, if_pos before]
    · obtain ⟨-, recvNext, -, mem, grf, srv, host, reg⟩ :=
        (s.dev.bumpWrap Off.lnkDuplicates).sendAck_keeps p.src p.channel
      exact ⟨(reg _ (by decide)).trans (Dev.reg_bumpWrap_same _ _ _), recvNext, mem, grf, srv, host⟩
    · unfold Dev.receiveWith
      dsimp only
      have unseen : ¬ (s.dev.lnk.reorder.any fun q =>
          decide (q.src = p.src) && decide (q.channel = p.channel) && decide (q.seq = p.seq)) = true := by
        simpa [imp_iff_not_or, or_assoc] using new
      rw [if_neg notAck, if_neg notNext, if_neg (by rw [ahead]; decide), if_neg unseen, if_pos room]

theorem Dev.earlyRequest_refused {d : Dev} (full : 64 ≤ d.lnk.early.length) (p : Packet) :
    (d.earlyRequest p).lnk.early = d.lnk.early ∧ (d.earlyRequest p).mem = d.mem ∧
      (d.earlyRequest p).reg Off.lnkRetryRefusals = (d.reg Off.lnkRetryRefusals + 1) % 2 ^ 32 := by
  unfold Dev.earlyRequest
  rw [if_neg (by omega)]
  dsimp only
  obtain ⟨early, mem, reg⟩ := (d.drawNat.2.bumpWrap Off.lnkRetryRefusals).notice_keeps p.src 5 p.seq
    (le p.seq 4 ++ le p.channel 4 ++ le (min (max 1000 d.drawNat.1) 0xFFFFFFFF) 4)
  exact ⟨early, mem, (reg _ (by decide)).trans (Dev.reg_bumpWrap_same _ _ _)⟩

theorem earlyRequests (s : State) (port : Nat) (p : Packet) :
    let takes := s.dev.isEarly && !isFormation p && decide (p.dst = s.dev.deviceId) && headerOk p &&
      decide ((s.dev.port port).state ≠ .off)
    (takes = false → exec (.earlyLinkRequest port p) s = .next s) ∧
    (takes = true → s.dev.lnk.early.length < 64 → exec (.earlyLinkRequest port p) s =
      .next { s with dev := { s.dev with lnk := { s.dev.lnk with early := s.dev.lnk.early ++ [p] } } }) ∧
    (takes = true → 64 ≤ s.dev.lnk.early.length → ∃ t, exec (.earlyLinkRequest port p) s = .next t ∧
      t.dev.lnk.early = s.dev.lnk.early ∧ t.dev.mem = s.dev.mem ∧
      t.dev.reg Off.lnkRetryRefusals = (s.dev.reg Off.lnkRetryRefusals + 1) % 2 ^ 32) := by
  intro takes
  have taken (h : takes = true) :
      exec (.earlyLinkRequest port p) s = .next { s with dev := s.dev.earlyRequest p } := by
    simp only [takes, Bool.and_eq_true, decide_eq_true_iff] at h
    obtain ⟨⟨⟨⟨early, request⟩, mine⟩, good⟩, on⟩ := h
    rw [exec_earlyLinkRequest, execEarlyLinkRequest, lift, Dev.earlyLinkRequest,
      if_neg (by simpa [early, mine, good, on] using request)]
  refine ⟨fun ignored => ?_, fun h room => ?_, fun h full => ⟨_, taken h, Dev.earlyRequest_refused full p⟩⟩
  · rw [exec_earlyLinkRequest, execEarlyLinkRequest, lift, Dev.earlyLinkRequest, if_pos]
    by_contra takesIt
    simp only [not_or, Bool.not_eq_true', Bool.not_eq_true, Bool.not_eq_false, not_not] at takesIt
    obtain ⟨early, request, mine, good, on⟩ := takesIt
    simp [takes, early, request, mine, good, on] at ignored
  · rw [taken h, Dev.earlyRequest, if_pos room]

/-! ## End-to-end delivery -/

theorem pairVal_setPair (l : List (Nat × Nat × Nat)) (dev ch v : Nat) : pairVal (setPair l dev ch v) dev ch = v := by
  unfold pairVal setPair
  rw [List.find?_append, List.find?_eq_none.mpr]
  · simp
  · intro x listed
    simpa [imp_iff_not_or] using (List.mem_filter.mp listed).2

theorem Dev.pumped_transmits (ps : List Packet) (d : Dev) : d.Pumped (ps.foldl (fun d p => d.transmit p) d) := by
  induction ps generalizing d with
  | nil => exact .refl d
  | cons p ps ih => exact (d.pumped_transmit p).trans (ih _)

/-- Packets sent again are counted, and leave the rest as it was (R366, R393). -/
theorem Dev.resend_keeps {d : Dev} {ps : List Packet} (some : ps ≠ []) :
    (d.resend ps).now = d.now ∧ (d.resend ps).lnk.replay = d.lnk.replay ∧ (d.resend ps).mem = d.mem ∧
      (d.resend ps).reg Off.lnkE2eReplays = (d.reg Off.lnkE2eReplays + ps.length) % 2 ^ 32 := by
  have pumped := Dev.pumped_transmits ps (d.bumpWrap Off.lnkE2eReplays ps.length)
  unfold Dev.resend
  rw [if_neg some]
  exact ⟨pumped.now, pumped.replay, pumped.mem, (pumped.reg _ (by decide)).trans (Dev.reg_bumpWrap_same _ _ _)⟩

theorem endToEndDelivery : Clause.EndToEndDelivery := by
  intro s dev ch
  refine ⟨fun none => ?_, fun due => ⟨{ s with dev := s.dev.sendAck dev ch }, ?_, ?_⟩, ⟨fun none => ?_, fun p rest mine =>
      ⟨{ s with dev := ({ s.dev with now := max s.dev.now (p.ts + 100000) } : Dev).resend (p :: rest) }, ?_, ?_⟩⟩,
    fun seq hint => ⟨fun none => ?_, fun kept => ?_⟩, fun seq status => ⟨fun none => ?_, fun p found idle => ?_⟩⟩
  · rw [exec_e2eAck, execE2eAck, lift, Dev.e2eAck, if_pos none]
  · rw [exec_e2eAck, execE2eAck, lift, Dev.e2eAck, if_neg due]
  · obtain ⟨ackDue, recvNext, replay, -⟩ := s.dev.sendAck_keeps dev ch
    exact ⟨by rw [ackDue, pairVal_setPair], replay, recvNext, s.dev.sendAck_sent dev ch⟩
  · rw [exec_e2eReplay, execE2eReplay, lift, Dev.e2eReplay, none]
  · rw [exec_e2eReplay, execE2eReplay, lift, Dev.e2eReplay, mine]
  · obtain ⟨now, replay, mem, counted⟩ :=
      Dev.resend_keeps (d := { s.dev with now := max s.dev.now (p.ts + 100000) }) (List.cons_ne_nil p rest)
    rw [mine]
    exact ⟨now, replay, counted, mem⟩
  · rw [exec_retryAfter, execRetryAfter, lift, Dev.retryAfter, if_neg (by rw [none]; decide)]
  · rw [exec_retryAfter, execRetryAfter, lift, Dev.retryAfter, if_pos kept]
  · rw [exec_lost, execLost, lift, Dev.lost]
    dsimp only
    rw [none]
  · rw [exec_lost, execLost, lift, Dev.lost]
    dsimp only
    rw [found]
    dsimp only
    rw [idle]
    rfl

end Sys2Proof.Machine

/-- Settles O39: what a packet sent changes lies in the ports, their windows and counters; a duplicate is acknowledged and
nothing more. -/
theorem packetsAreDelivered : Obligations.PacketsAreDelivered := by
  unfold Obligations.PacketsAreDelivered
  exact ⟨⟨Sys2Proof.Machine.flitsDiscarded, Sys2Proof.Machine.packetsDelivered, Sys2Proof.Machine.earlyRequests⟩,
    Sys2Proof.Machine.endToEndDelivery⟩

end

section
/-! PROOFS. Where the commands of the interface, the fabric and management complete, and what they leave (R253, R257, R273, R301,
R360, R362, R366, R382, R414, R441, R442, R482). -/

namespace Sys2Proof.Machine

/-! ## Commands from mailboxes -/

/-- COMMAND_TAKE of a NOP (R253, R257). -/
theorem exec_commandTake_nop {s : State} {m : Nat} {h' : CmdHdr} {d : Dev} (running : s.running = true)
    (turn : s.dev.turn = some m) (plain : s.dev.slotRewritten m = false)
    (nop : (parseHeader m (s.dev.nextSlot m)).opcode = 0x01FF)
    (accepted : (({ s.dev with mbx := { s.dev.mbx with served := m } } : Dev).modBox m fun b =>
      { b with consumed := (b.consumed + 1) % 32, rewritten := b.rewritten.filter (· ≠ b.consumed % 16) }).accept
        (parseHeader m (s.dev.nextSlot m)) = (some h', d)) :
    exec .commandTake s = .next { s with dev := d.complete h' 0 0 } := by
  have left : (s.slotLeft m).dev = ({ s.dev with mbx := { s.dev.mbx with served := m } } : Dev).modBox m fun b =>
      { b with consumed := (b.consumed + 1) % 32, rewritten := b.rewritten.filter (· ≠ b.consumed % 16) } := by
    rw [State.slotLeft, if_neg (by rw [plain]; decide)]
  have carried : (s.slotLeft m).carryOut (parseHeader m (s.dev.nextSlot m)) (((s.dev.nextSlot m).drop 64).take 192) =
      (s.slotLeft m).command (parseHeader m (s.dev.nextSlot m)) 0x01FF fun h t => { t with dev := t.dev.complete h 0 0 } :=
    State.carryOut_command nop fun _ _ => rfl
  rw [exec_commandTake_of_turn running turn, carried, State.command_accepted (h' := h') (d := d)]
  · rfl
  · rw [CmdHdr.with_opcode nop, left, accepted]

/-- A MAP whose tests pass and whose memory is found (R257; log entry 27). -/
theorem Dev.doMap_maps {d d1 d2 : Dev} {space memory pageSize va bytes hostBase : Nat} {write kv : Bool} {pages : List Nat}
    (host : memory = 3 → hostBase % pageOf pageSize = 0) (start : va % pageOf pageSize = 0) (some_bytes : 1 ≤ bytes)
    (whole : bytes % pageOf pageSize = 0) (inside : va + bytes ≤ 2 ^ 52)
    (room : bytes ≤ [0x6000000000, 0x1E0000000, 0x20000000].getD memory (2 ^ 64)) (root : (d.root space).isSome = true)
    (clear : ∀ m ∈ d.mmu.maps, m.space = space → meets va bytes m.va m.bytes = false)
    (window : meets va bytes (d.fld Off.attKvWindow 1 0 * 2 ^ 50) (2 ^ 50) = false)
    (damson : space = 0 → meets va bytes damsonRange.1 damsonRange.2 = false)
    (allocated : d.allocPages memory (pageOf pageSize) hostBase (bytes / pageOf pageSize) = some (pages, d1))
    (mapped : (pages.zipIdx.foldl (fun (x : Option Dev) p =>
      x.bind fun d => d.mapPage space (va + pageOf pageSize * p.2) (pageOf pageSize) (if memory = 3 then 1 else 0) p.1 write kv)
      (some d1)) = some d2) :
    d.doMap space memory pageSize write kv va bytes hostBase =
      ({ d2 with mmu := { d2.mmu with maps := d2.mmu.maps ++
        [{ space := space, va := va, bytes := bytes, page := pageOf pageSize, memory := memory, write := write, kv := kv
           pages := pages }] } } : Dev).yes := by
  have base : (decide (memory ≠ 3) || aligned hostBase (pageOf pageSize)) = true := by
    by_cases mem : memory = 3
    · simp [aligned, host mem]
    · simp [mem]
  have apart : (d.mmu.maps.all fun m => !(decide (m.space = space) && meets va bytes m.va m.bytes)) = true := by
    refine List.all_eq_true.mpr fun m listed => ?_
    by_cases same : m.space = space
    · simp [same, clear m listed same]
    · simp [same]
  have placed : (decide (va + bytes ≤ 2 ^ 52) && !meets va bytes (d.fld Off.attKvWindow 1 0 * 2 ^ 50) (2 ^ 50) &&
      !(decide (space = 0) && meets va bytes damsonRange.1 damsonRange.2)) = true := by
    by_cases zero : space = 0
    · simp only [inside, window, zero, damson zero, decide_true, Bool.not_false, Bool.and_false, Bool.and_true]
    · simp only [inside, window, zero, decide_true, decide_false, Bool.not_false, Bool.false_and, Bool.and_true]
  have low : va < 2 ^ 52 := by omega
  have starts : aligned va (pageOf pageSize) = true := decide_eq_true start
  have wholes : aligned bytes (pageOf pageSize) = true := decide_eq_true whole
  unfold Dev.doMap
  dsimp only
  simp only [firstFail, low, starts, some_bytes, wholes, base, apart, root, placed, room, allocated, mapped, decide_true, if_true]

/-- A REQUEST_ADMIT on a device that neither embeds nor samples, whose tests pass, answers OK (R301). -/
theorem Dev.admission_passes {d : Dev} {b : AdmitBody} {x : Template} (template : d.template d.srv.current = some x)
    (embeds : x.embeds = false) (samples : x.samples = false) (pfx : b.pfx = 0xFFFFFFFF) (adapter : b.adapter = 0xFFFFFFFF)
    (still : d.bitAt Off.plnCtrl 0 = false) (named : b.id ≠ 0xFFFFFFFF) (new : d.request b.id = none)
    (room : d.srv.requests.length < 4096) (open_ : d.srv.current ∉ d.srv.releasing) (some_tokens : 1 ≤ b.promptTokens)
    (fits : b.promptTokens + b.maxTokens ≤ 4194304) : (d.admission b).status = 0 := by
  have tests : firstFail ((!false || aligned b.ring 4096, 0x000A) :: d.admitTests b 0) = none := by
    have few : b.maxTokens ≤ 4194304 := by omega
    have asked : b.promptTokens ≠ 0 := by omega
    simp [firstFail, Dev.admitTests, template, embeds, still, named, new, room, open_, few, asked, fits]
  unfold Dev.admission
  dsimp only
  simp only [template, pfx, embeds, samples, adapter, Option.map_some, Option.getD_some, if_true]
  rw [show ((Option.map Request.promptEnd none).getD 0) = 0 from rfl, tests]
  simp only [Bool.false_and, Bool.false_eq_true, if_false, Bool.not_false, Bool.true_or, decide_true, Option.all_none,
    Option.isSome_none, Bool.or_false, fetchTest, List.all_nil, List.append_nil, List.cons_append, List.nil_append, firstFail,
    if_true, Dev.admitMemory, Option.bind_some]
  rfl

/-- REQUEST_ADMIT that answers OK where no earlier request is continued: what it tracks (R301, R303). -/
theorem exec_requestAdmit_tracks {s : State} {h h' : CmdHdr} {d : Dev} {b : AdmitBody}
    (accepted : s.dev.accept { h with opcode := 0x0110 } = (some h', d)) (pfx : b.pfx = 0xFFFFFFFF)
    (ok : (d.admission b).status = 0) :
    ∃ t r, exec (.requestAdmit h b) s = .next t ∧ t.dev.srv.requests = d.srv.requests ++ [r] ∧ r.id = b.id ∧
      r.seqSlot = d.freeSeq ∧ r.edition = d.srv.current ∧ r.maxTokens = b.maxTokens ∧ r.committed = 0 ∧
      t = { s with dev := t.dev } := by
  obtain ⟨fails, -⟩ | ⟨-, -, -, r, tracked, requests⟩ := d.admission_cases b
  · exact absurd ok fails
  · obtain ⟨id, seqSlot, edition, -, maxTokens, -, -, -, committed, prefixLen⟩ := tracked
    rw [if_pos pfx] at prefixLen
    exact ⟨_, r, exec_requestAdmit_accepted b accepted, by rw [((d.admission b).posted_finish h').srv, requests], id, seqSlot,
      edition, maxTokens, committed.trans prefixLen, rfl⟩

/-- GRAPH_LOAD of a descriptor that passes every test (R273). -/
theorem exec_graphLoad_loads {s : State} {h h' : CmdHdr} {d d' : Dev} {slot space desc : Nat} {l : List Byte} {hs : List TaskHdr}
    {edges : List Nat} (range : slot < d.grf.slots.length) (accepted : s.dev.accept { h with opcode := 0x0100 } = (some h', d))
    (described : d.Described d' slot space desc l hs edges) :
    ∃ t, exec (.graphLoad h slot space desc) s = .next t ∧ (t.dev.slot slot).state = .loaded ∧
      (t.dev.slot slot).space = space ∧ (t.dev.slot slot).tasks = hs ∧ (t.dev.slot slot).edges = edges ∧
      (t.dev.slot slot).base = leAt l 0x10 8 ∧ (∀ k, k ≠ slot → t.dev.slot k = d'.slot k) ∧
      t = { s with dev := t.dev } := by
  have posted := (d.graphLoad slot space desc).posted_finish h'
  rw [Dev.graphLoad_loads described] at posted
  have range' : slot < d'.grf.slots.length := described.looked.grf.symm ▸ range
  have mine := Dev.slot_modSlot_same range' fun g => g.ofDesc l space hs edges
  refine ⟨_, exec_graphLoad_accepted slot space desc accepted, ?_⟩
  rw [Dev.graphLoad_loads described]
  have loaded := (Dev.slot_congr posted.grf slot).trans mine
  dsimp only
  rw [loaded]
  exact ⟨rfl, rfl, rfl, rfl, rfl, fun k other =>
    (Dev.slot_congr posted.grf k).trans (Dev.slot_modSlot_other d' other _), rfl⟩

/-! ## Flits (R360, R362) -/

/-- A transmitter with nothing to send stands still. -/
theorem Dev.pumpPort_idle {d : Dev} {p : Nat} (quiet : (d.port p).queue = []) : d.pumpPort p = d := by
  have waiting : (d.port p).waiting = 0 := by rw [Port.waiting, quiet]; rfl
  have requests : (d.port p).requests = [] := by rw [Port.requests, quiet]; rfl
  have chosen (rank : Nat → Nat) : (d.port p).chosen rank = none := by rw [Port.chosen, requests]; rfl
  have pumped : ((d.port p).pump (d.arbConfig 2) ((d.port p).waiting + 1)).1 = 0 := by
    rw [Port.pump, Port.sendFlit, chosen]
  unfold Dev.pumpPort
  dsimp only
  rw [if_pos pumped]

/-- A port once a good flit with a header was taken on it: its corrected words are counted, and the header is heard (R360,
R362). -/
def Dev.heardFlit (d : Dev) (p f corrected : Nat) : Dev :=
  (d.bumpWrap (Off.lnkPortCorrected + 0x40 * p) corrected).modPort p fun t =>
    ({ t with dropping := false, goodAt := d.now, rxSeq := bits f 23 8 } : Port).heard (bit f 51) (bits f 50 48) (bits f 47 40)
      (bits f 39 24)

/-- What the header of a flit that is next says to the port. -/
def Port.hears (t : Port) (now f : Nat) : Port :=
  ({ t with dropping := false, goodAt := now, rxSeq := bits f 23 8 } : Port).heard (bit f 51) (bits f 50 48) (bits f 47 40)
    (bits f 39 24)

theorem Dev.OnPorts.state {s : State} {d : Dev} (h : s.dev.OnPorts d) :
    ({ s with dev := d } : State) =
      { s with dev := { s.dev with regs := d.regs, lnk := { s.dev.lnk with ports := d.lnk.ports } } } :=
  congrArg (fun d => { s with dev := d }) h

theorem Dev.onPorts_heardFlit (d : Dev) (p f corrected : Nat) : d.OnPorts (d.heardFlit p f corrected) := rfl

theorem Dev.onPorts_dataCounted (d : Dev) (p : Nat) (g : Port → Port) (o : Nat) : d.OnPorts ((d.modPort p g).bump64 o) := rfl

section
variable {d : Dev} {p : Nat}

theorem Dev.port_heardFlit (box : p < d.lnk.ports.length) (f corrected : Nat) :
    (d.heardFlit p f corrected).port p = (d.port p).hears d.now f :=
  Dev.port_modPort_same (d.bumpWrap _ _) _ box

theorem Dev.port_heardFlit_other {q : Nat} (other : q ≠ p) (f corrected : Nat) :
    (d.heardFlit p f corrected).port q = d.port q := Dev.port_modPort_other (d.bumpWrap _ _) _ other

theorem Dev.reg_heardFlit {o : Nat} (f corrected : Nat) (other : o ≠ Off.lnkPortCorrected + 0x40 * p) :
    (d.heardFlit p f corrected).reg o = d.reg o := by
  rw [Dev.heardFlit, Dev.reg_modPort, Dev.reg_bumpWrap_other _ _ other]

/-- A good flit that is next, on a port with nothing to send: an IDLE flit, and a DATA flit (R360, R362). -/
theorem Dev.flitReceive_taken {serial l w : List Byte} {c0 : Nat} (box : p < d.lnk.ports.length) (whole : l.length = 256)
    (up : (d.port p).state = .up) (quiet : (d.port p).queue = []) (header : flitWord (l.take 11) 8 = some (w, c0)) :
    let f := ofLe w
    let ws := (List.range (bits f 56 54)).map fun i => flitWord ((l.drop (11 + 35 * i)).take 35) 32
    let e := d.heardFlit p f (c0 + (ws.map fun w => (w.map (·.2)).getD 0).sum)
    (∀ w ∈ ws, w.isSome = true) →
      (bits f 63 60 = 0 → bits f 23 8 = (d.port p).rxSeq → d.flitReceive serial p l = e) ∧
      (bits f 63 60 = 1 → bits f 23 8 = ((d.port p).rxSeq + 1) % 2 ^ 16 → 1 ≤ bits f 59 57 → bits f 59 57 ≤ 4 →
        d.flitReceive serial p l = e.dataWords p (bits f 59 57) (bit f 53) (ws.filterMap fun w => w.map (·.1))) := by
  intro f ws e good
  have still : e.pumpPort p = e := Dev.pumpPort_idle (by rw [Dev.port_heardFlit box]; exact quiet)
  have none_bad : ws.any Option.isNone = false := by
    refine List.any_eq_false.mpr fun w listed => ?_
    simpa [Option.isSome_iff_ne_none] using good w listed
  have sound {k : Nat} (kind : bits f 63 60 = k) (one : k ≤ 1) : ¬ (ws.any Option.isNone = true ∨ 2 < bits f 63 60) := by
    rw [none_bad, kind]
    simp
    omega
  refine ⟨fun kind next => ?_, fun kind next low high => ?_⟩
  · have expected : ¬ (bits f 23 8 ≠ if bits f 63 60 = 0 then (d.port p).rxSeq else ((d.port p).rxSeq + 1) % 2 ^ 16) := by
      rw [if_pos kind]
      exact not_not.mpr next
    rw [Dev.flitReceive, if_neg (by simp [whole, up]), header]
    refine (if_neg (sound kind (by omega))).trans ((if_neg expected).trans ?_)
    rw [show bits (ofLe w) 63 60 = 0 from kind]
    exact still
  · have expected : ¬ (bits f 23 8 ≠ if bits f 63 60 = 0 then (d.port p).rxSeq else ((d.port p).rxSeq + 1) % 2 ^ 16) := by
      rw [if_neg (by omega)]
      exact not_not.mpr next
    rw [Dev.flitReceive, if_neg (by simp [whole, up]), header]
    refine (if_neg (sound kind (by omega))).trans ((if_neg expected).trans ?_)
    rw [show bits (ofLe w) 63 60 = 1 from kind]
    have data : inRange (bits f 59 57) 1 4 = true := by simp [inRange, low, high]
    refine (if_pos ⟨up, data⟩).trans ?_
    show (e.pumpPort p).dataWords p (bits f 59 57) (bit f 53) (ws.filterMap fun w => w.map (·.1)) = _
    rw [still]

end

/-- Words that hold no whole packet wait for more (R360). -/
theorem takePackets_short {ws : List (List Byte)} (short : ws.length < leAt (ws.headD []) 6 1 + 1) (fuel : Nat) :
    takePackets (fuel + 1) ws = ([], ws) := by
  cases ws with
  | nil => rfl
  | cons w ws => exact if_pos short

/-- Words of a DATA flit that starts a packet and does not end it (R360, R364, R365). -/
theorem Dev.dataWords_short {ws : List (List Byte)} (short : ws.length < leAt (ws.headD []) 6 1 + 1) (d : Dev) (p channel : Nat) :
    d.dataWords p channel false ws = (d.modPort p fun t => { t with
      words := upd t.words (channel - 1) fun _ => ws, owed := upd t.owed (channel - 1) (· + 1) }).bump64
        (Off.lnkPortRxLo + 0x40 * p) := by
  unfold Dev.dataWords
  simp only [Bool.false_eq_true, if_false, List.nil_append, takePackets_short short 7, List.foldl_nil]

/-- FLIT_RECEIVE of a good flit that is next, on a port with nothing to send: an IDLE flit, and a DATA flit that starts a packet
and does not end it (R360, R362). -/
theorem flitsTaken {s : State} {p : Nat} {l w : List Byte} {c0 : Nat} (box : p < s.dev.lnk.ports.length) (whole : l.length = 256)
    (up : (s.dev.port p).state = .up) (quiet : (s.dev.port p).queue = []) (header : flitWord (l.take 11) 8 = some (w, c0)) :
    let f := ofLe w
    let n := bits f 56 54
    let ch := bits f 59 57
    let ws := (List.range n).map fun i => flitWord ((l.drop (11 + 35 * i)).take 35) 32
    let words := ws.filterMap fun w => w.map (·.1)
    let heard := (s.dev.port p).hears s.dev.now f
    (∀ w ∈ ws, w.isSome = true) →
    (bits f 63 60 = 0 → bits f 23 8 = (s.dev.port p).rxSeq → ∃ t, exec (.flitReceive p l) s = .next t ∧
      t.dev.port p = heard ∧ (∀ q, q ≠ p → t.dev.port q = s.dev.port q) ∧
      t = { s with dev := { s.dev with regs := t.dev.regs, lnk := { s.dev.lnk with ports := t.dev.lnk.ports } } }) ∧
    (bits f 63 60 = 1 → bits f 23 8 = ((s.dev.port p).rxSeq + 1) % 2 ^ 16 → 1 ≤ ch → ch ≤ 4 → bit f 53 = false → 1 ≤ n →
      n < leAt (words.headD []) 6 1 + 1 → ∃ t, exec (.flitReceive p l) s = .next t ∧
        t.dev.port p = { heard with words := upd heard.words (ch - 1) fun _ => words
                                    owed := upd heard.owed (ch - 1) (· + 1) } ∧
        t.dev.reg64 (Off.lnkPortRxLo + 0x40 * p) = (s.dev.reg64 (Off.lnkPortRxLo + 0x40 * p) + 1) % 2 ^ 64 ∧
        (∀ q, q ≠ p → t.dev.port q = s.dev.port q) ∧
        t = { s with dev := { s.dev with regs := t.dev.regs, lnk := { s.dev.lnk with ports := t.dev.lnk.ports } } }) := by
  intro f n ch ws words heard good
  obtain ⟨idle, data⟩ := Dev.flitReceive_taken (serial := s.flash.serial) box whole up quiet header good
  have taken {d : Dev} (h : s.dev.flitReceive s.flash.serial p l = d) :
      exec (.flitReceive p l) s = .next { s with dev := d } := by
    rw [exec_flitReceive, execFlitReceive, lift_eq, h]
  refine ⟨fun kind next => ⟨_, taken (idle kind next), Dev.port_heardFlit box _ _,
      fun q other => Dev.port_heardFlit_other other _ _, Dev.OnPorts.state (Dev.onPorts_heardFlit _ _ _ _)⟩,
    fun kind next low high starts _ short => ⟨_, taken (data kind next low high), ?_⟩⟩
  have few : words.length < leAt (words.headD []) 6 1 + 1 := by
    have length : words.length ≤ ws.length := List.length_filterMap_le _ _
    have flits : ws.length = n := by simp [ws]
    omega
  rw [show bit (ofLe w) 53 = false from starts, Dev.dataWords_short few]
  generalize c0 + _ = k
  have mine : (s.dev.heardFlit p f k).port p = heard := Dev.port_heardFlit box f k
  have box' : p < (s.dev.heardFlit p f k).lnk.ports.length := by
    rw [Dev.heardFlit, Dev.modPort, upd_length]
    exact box
  have regs {o : Nat} := Dev.reg_heardFlit (d := s.dev) (p := p) (o := o) f k
  refine ⟨?_, ?_, fun q other => ?_,
    Dev.OnPorts.state ((Dev.onPorts_heardFlit s.dev p f k).trans (Dev.onPorts_dataCounted _ _ _ _))⟩
  · exact (Dev.port_modPort_same (s.dev.heardFlit p f k) _ box').trans (by rw [mine])
  · dsimp only
    rw [Dev.reg64_bump64]
    exact congrArg (fun n => (n + 1) % 2 ^ 64) (Dev.reg64_congr (regs (by unfold Off.lnkPortRxLo Off.lnkPortCorrected; omega))
      (regs (by unfold Off.lnkPortRxLo Off.lnkPortCorrected; omega)))
  · exact (Dev.port_modPort_other (s.dev.heardFlit p f k) _ other).trans (Dev.port_heardFlit_other other f k)

/-! ## Tokens of a request that is not tracked (R366, R389) -/

theorem Dev.drainReorder_empty {d : Dev} (empty : d.lnk.reorder = []) (deliver : Dev → Packet → Dev) (src ch fuel : Nat) :
    Dev.drainReorder deliver src ch fuel d = d := by
  cases fuel with
  | zero => rfl
  | succ fuel =>
    unfold Dev.drainReorder
    rw [empty]
    rfl

theorem exec_packetReceive_token {s : State} {p : Packet}
    (serves : s.dev.bring = .digital ∨ s.dev.bring = .coarse ∨ s.dev.bring = .ready) (good : headerOk p = true) (mine : p.dst = s.dev.deviceId) (channel : p.channel = 4) (type : p.type = 2)
    (unknown : s.dev.request (leAt p.payload 0 4) = none) (next : p.seq = pairVal s.dev.lnk.recvNext p.src 4)
    (empty : s.dev.lnk.reorder = []) (few : pairVal s.dev.lnk.ackDue p.src 4 + 1 < 64) :
    exec (.packetReceive p) s = .next { s with dev := { s.dev with lnk := { s.dev.lnk with
      recvNext := setPair s.dev.lnk.recvNext p.src 4 ((p.seq + 1) % 2 ^ 32)
      ackDue := setPair s.dev.lnk.ackDue p.src 4 (pairVal s.dev.lnk.ackDue p.src 4 + 1) } } } := by
  have rom : s.dev.bring ≠ .rom := by rcases serves with h | h | h <;> rw [h] <;> decide
  have recovery : s.dev.bring ≠ .recovery := by rcases serves with h | h | h <;> rw [h] <;> decide
  have late : s.dev.isEarly = false := by rcases serves with h | h | h <;> rw [Dev.isEarly, h] <;> decide
  have taken : s.dev.took p = { s.dev with lnk := { s.dev.lnk with
      recvNext := setPair s.dev.lnk.recvNext p.src 4 ((p.seq + 1) % 2 ^ 32)
      ackDue := setPair s.dev.lnk.ackDue p.src 4 (pairVal s.dev.lnk.ackDue p.src 4 + 1) } } := by
    rw [Dev.took, channel]
    exact if_neg (by omega)
  have delivered : (s.dev.took p).deliver p = s.dev.took p := by
    have untracked : (s.dev.took p).request (parseToken p.payload).id = none := by rw [taken]; exact unknown
    have notice : isFormation p = false := by simp [isFormation, type]
    have token : (s.dev.took p).deliverData p = (s.dev.took p).tokenArrived (parseToken p.payload) := by
      rw [Dev.deliverData, channel, type]
      rfl
    rw [Dev.deliver, if_neg (by rw [notice]; decide), token, Dev.tokenArrived, untracked]
  refine exec_packetReceive_eq rom recovery ?_
  rw [if_neg (by rw [good]; decide), if_neg (not_not.mpr mine), if_neg (by rw [late]; decide), Dev.receiveWith,
    if_neg (by simp [type])]
  dsimp only
  rw [if_pos (by rw [channel]; exact next), delivered, Dev.drainReorder_empty (by rw [taken]; exact empty), taken]

/-! ## Collectives that start (R382) -/

/-- A collective task whose checks pass takes the next order index of its group (R366, R382). -/
theorem Dev.collStart_collIndex {d e : Dev} {kind : Nat → Bool} {slot task : Nat} {b : CollTask}
    (issued : d.issuedWhere 6 kind = some (slot, task)) (checked : Chk.thn (d.readBody slot task 64) checkColl = (.ok b, e))
    (waiting : e.lnk.collWait = []) :
    (d.collStart kind).lnk.collIndex = put e.lnk.collIndex b.key (e.collOrder b + 1) := by
  unfold Dev.collStart
  rw [issued]
  dsimp only
  rw [checked, Dev.act]
  dsimp only
  split
  · refine (Dev.stays_collFail _ _ _).collIndex.trans ?_
    simp only [Dev.setTask, Dev.modSlot, waiting, List.filter_nil, List.foldl_nil]
    rfl
  · refine (Dev.stays_collRun _ _ _ _).collIndex.trans ?_
    simp only [Dev.setTask, Dev.modSlot, waiting, List.filter_nil, List.foldl_nil]
    rfl

/-! ## Check values, SPDM and management -/

theorem exec_crcFeed {s : State} {c : Instr} {n k : Nat} {v : Word}
    (feeds : exec c s = hostWrite (·.crcFeed n (le v.toNat k)) s) (running : s.running = true) (unit : n < s.dev.crc.length)
    (free : (s.dev.crcUnit n).holder = none) :
    ∃ t, exec c s = .next t ∧ (t.dev.crcUnit n).r = (le v.toNat k).foldl
        (crcByte (s.dev.crcWidth n) (s.dev.crcPoly n) (s.dev.bitAt (Off.crcCtrl + 0x40 * n) 8)) (s.dev.crcUnit n).r ∧
      t = { s with dev := { s.dev with crc := t.dev.crc } } := by
  have fed : exec c s = .next { s with dev := s.dev.modCrc n fun u => { u with
      r := (le v.toNat k).foldl (crcByte (s.dev.crcWidth n) (s.dev.crcPoly n) (s.dev.bitAt (Off.crcCtrl + 0x40 * n) 8)) u.r } } := by
    rw [feeds, hostWrite, if_pos running, lift_eq, Dev.crcFeed, Dev.crcTake, free]
    rfl
  refine ⟨_, fed, ?_, rfl⟩
  exact congrArg CrcUnit.r (Dev.crcUnit_modCrc_same unit _)

theorem exec_answer {s : State} {c : Instr} {l : List Byte} (answers : exec c s = .next (s.spdm fun s => s.answer l))
    (served : s.spdmServed = true) :
    ∃ t, exec c s = .next t ∧ t.dev.env.answers = s.dev.env.answers ++ [l] ∧
      t = { s with dev := { s.dev with env := { s.dev.env with answers := t.dev.env.answers } } } :=
  ⟨_, answers.trans (congrArg _ (if_pos served)), rfl, rfl⟩

theorem exec_signs {s : State} {c : Instr} {nonce body : List Byte}
    (answers : exec c s = .next (s.spdm fun s => s.signedAnswer nonce body)) (served : s.spdmServed = true)
    (approved : s.sec.approved = true) :
    ∃ t mine k, exec c s = .next t ∧ mine.length = 32 ∧
      t.dev.env.answers = s.dev.env.answers ++ [body ++ mine ++ Config.sign k (nonce ++ body ++ mine)] ∧
      t = { s with dev := { s.dev with fresh := t.dev.fresh, env := t.dev.env } } := by
  refine ⟨_, (s.freeBytes 32).1, (s.freeBytes 32).2.dev.fresh,
    answers.trans (congrArg _ ((if_pos served).trans (if_pos approved))), ?_, rfl, rfl⟩
  simp [State.freeBytes, Dev.drawBytes]

theorem exec_manages {s : State} {c : Instr} {l : List Byte} (answers : exec c s = .next { s with dev := s.dev.mctp (0 :: l) }) :
    ∃ t a, exec c s = .next t ∧ t.dev.env.mctp = s.dev.env.mctp ++ [(a, 0 :: l)] ∧
      t = { s with dev := { s.dev with env := { s.dev.env with mctp := t.dev.env.mctp }, pwr := t.dev.pwr } } :=
  ⟨_, _, answers, rfl, rfl⟩

theorem exec_collects {s : State} {c : Instr} {kind : Nat → Bool} (carried : exec c s = lift (·.collStart kind) s)
    {slot task : Nat} {b : CollTask} {d : Dev} (issued : s.dev.issuedWhere 6 kind = some (slot, task))
    (checked : Chk.thn (s.dev.readBody slot task 64) checkColl = (.ok b, d)) (waiting : d.lnk.collWait = []) :
    ∃ t, exec c s = .next t ∧ t.dev.lnk.collIndex = put d.lnk.collIndex b.key (d.collOrder b + 1) ∧
      t = { s with dev := t.dev } :=
  ⟨_, carried, Dev.collStart_collIndex issued checked waiting, rfl⟩

/-- GET_MEASUREMENTS of one of the blocks (R442). -/
theorem exec_getMeasurements_one {s : State} {nonce : List Byte} {i : Nat} (measured : i ∈ s.measurements) :
    exec (.getMeasurements nonce i) s = .next (s.spdm fun t => t.signedAnswer nonce (s.measurementBlock i)) := by
  have bounds : i ≠ 0 ∧ i ≠ 0xFF := by
    unfold State.measurements at measured
    split at measured <;> simp at measured <;> omega
  have one : s.getMeasurements nonce i = s.signedAnswer nonce (s.measurementBlock i) := by
    unfold State.getMeasurements
    dsimp only
    rw [if_neg bounds.1, if_neg bounds.2, if_pos (List.contains_iff_mem.mpr measured)]
  rw [exec_getMeasurements, execGetMeasurements, State.spdm, State.spdm, one]

end Sys2Proof.Machine

open Sys2Proof Sys2Proof.Machine in
/-- Settles O60: commands by the tests they pass, flits by the words they carry, and answers by the one list they append to. -/
theorem interfaceCommandsComplete : Obligations.InterfaceCommandsComplete := by
  unfold Obligations.InterfaceCommandsComplete
  intro s collects feeds answers signs manages
  have collected {c : Instr} {kind : Nat → Bool} (carried : exec c s = lift (·.collStart kind) s) : collects c kind :=
    fun slot task b d issued checked waiting => exec_collects carried issued checked waiting
  have fed {c : Instr} {n k : Nat} {v : Word} (carried : exec c s = hostWrite (·.crcFeed n (le v.toNat k)) s) : feeds c n v k :=
    fun running unit free => exec_crcFeed carried running unit free
  have answered {c : Instr} {l : List Byte} (carried : exec c s = .next (s.spdm fun s => s.answer l)) : answers c l :=
    exec_answer carried
  refine ⟨?nop, ?map, ?load, ?track, ?flits, ?token, collected rfl, collected rfl, collected rfl, collected rfl, collected rfl,
    collected rfl, collected rfl, fun n v => ⟨fed rfl, fed rfl, fed rfl⟩, answered rfl, answered rfl, answered rfl, answered rfl,
    fun offset length => answered rfl, fun nonce => exec_signs rfl,
    fun nonce i measured => exec_signs (exec_getMeasurements_one measured), fun piece bound => exec_manages ?telemetry,
    fun i c bound found => exec_manages ?cper, fun w range => ?limit, exec_manages rfl, exec_manages rfl⟩
  case nop =>
    intro m h' d running turn plain h s1 nop accepted
    exact exec_commandTake_nop running turn plain nop accepted
  case map =>
    intro h h' d space memory pageSize write kv va bytes hostBase pages d1 d2 page win accepted clear host start some_bytes whole
      inside room root apart window damson allocated mapped m d3
    rw [exec_map_accepted accepted clear,
      Dev.doMap_maps host start some_bytes whole inside room root apart window damson allocated mapped]
    rfl
  case load =>
    intro h h' d slot space desc l ls d1 d2 range accepted empty at_ first tests n second hs edges headers edged
    exact exec_graphLoad_loads range accepted
      ⟨empty, decide_eq_true at_, tests, ⟨d1, ls, first, second, rfl, rfl, headers⟩, edged⟩
  case track =>
    intro h h' d b x accepted template embeds samples pfx adapter still named new room open_ some_tokens fits
    exact exec_requestAdmit_tracks accepted pfx
      (Dev.admission_passes template embeds samples pfx adapter still named new room open_ some_tokens fits)
  case flits =>
    intro p l w c0 _ box whole up quiet header
    exact flitsTaken box whole up quiet header
  case token =>
    intro p serves good mine channel type unknown next empty few
    exact exec_packetReceive_token serves good mine channel type unknown next empty few
  case telemetry =>
    rw [exec_getTelemetry, execGetTelemetry, lift_eq, Dev.getTelemetry, if_neg (by omega)]
  case cper =>
    rw [exec_getCper, execGetCper, lift_eq, Dev.getCper, if_neg (by omega), found]
  case limit =>
    have taken : exec (.setBoardLimit w) s = .next { s with dev :=
        ({ s.dev with pwr := { s.dev.pwr with boardDue := some (if w = 0 then 950 else w) } } : Dev).mctp [0] } := by
      rw [exec_setBoardLimit, execSetBoardLimit, lift_eq, Dev.setBoardLimit, if_neg (by simp [inRange]; omega)]
    exact ⟨_, _, taken, rfl, rfl⟩

end
